-- ==== Sys2Proof/Word.lean ====
section
/-!
DEFINITION. Machine words and the four mode-independent enumerations every other file names.
-/
namespace Sys2Proof

/-- A register, data or instruction word: 32 bits (R739, R294). -/
abbrev Word := BitVec 32

/-- A byte of memory or of a packet (R761). -/
abbrev Byte := BitVec 8

/-- A 40-bit physical address (R25): bits [39:36] are the die. -/
abbrev Addr := BitVec 40

/-- The three members of the family (R1). -/
inductive Part where
  | zg6420 | zg6440 | zg6480
  deriving DecidableEq, Repr

/-- Privilege levels of a register access (R560): user, supervisor and monitor. -/
inductive Level where
  | user | supervisor | monitor
  deriving DecidableEq, Repr

/-- How a register field answers reads and writes (R8, Table 0.4). -/
inductive Acc where
  | rw | ro | wo | w1c | rc
  deriving DecidableEq, Repr

end Sys2Proof
end

