-- ==== Sys2Proof/Syntax.lean ====
section
/-!
DEFINITION. The commands: one constructor for each row of the table of operations and events, in its order. An operand
is what the row's event brings from outside the machine: a written word, a received frame, the outcome of an analogue
process. Whatever the machine itself holds is in the state.
-/
namespace Sys2Proof

/-- A wavelength channel, numbered across the part (R3). -/
abbrev Chan := Fin 4
/-- A subscriber port, numbered across the part (R2). -/
abbrev Port := Fin 64
/-- A die by its index (R16). -/
abbrev Die := Fin 8
/-- A line die, 0 or 1 (R16). -/
abbrev LineDie := Fin 2
/-- A course die, by its index less 2 (R16). -/
abbrev CourseDie := Fin 4
/-- A line or course die, 0 to 5: the dies that carry tiles, tables, queues and key slots (Table 19.3). -/
abbrev LcDie := Fin 6
/-- A tile thread of a die: tile times 8 plus thread; a line die has 384 of them (R292). -/
abbrev ThreadId := Fin 1024

/-- Who makes a mesh access (R25): a core, a DMA channel, a tile thread or the TAP. -/
inductive Requester where
  | core (n : Fin 12)
  | dma (d : Die) (ch : Fin 32)
  | tile (d : LcDie) (t : ThreadId)
  | tap
  deriving DecidableEq, Repr

/-- What a posted write carries (R762): packet bytes for a packet-buffer address, or an interrupt level for line die 0. -/
inductive Posted where
  | bytes (addr : Addr) (data : List Byte)
  | level (n : Fin 2048) (high : Bool)
  deriving DecidableEq, Repr

/-- A transmit lane with an equaliser (R120): PON transmit, subscriber, management, or a die's end of a mortar link. -/
inductive TxLane where
  | pon (c : Chan)
  | sub (p : Port)
  | mgt
  | link (l : Fin 25) (d : Die)
  deriving DecidableEq, Repr

/-- How a two-wire transaction went at its target (R155, R156): every byte acknowledged, the address not acknowledged,
or a data byte not acknowledged. -/
inductive I2cEnd where
  | acked
  | noAddr
  | noData
  deriving DecidableEq, Repr

/-- A PSBd structure as received (R163, R168, R171): valid, corrected by its HEC, or uncorrectable. -/
inductive Hec where
  | valid (v : BitVec 51)
  | corrected (v : BitVec 51)
  | bad
  deriving DecidableEq, Repr

/-- What the receive lane brings to a frame tick (R160): the bit differences of the PSync tested (none on a tick of the
free-running counter), the SFC structure and the third PSBd structure. -/
structure FrameRx where
  psync : Option Nat
  sfc : Hec
  third : Hec
  deriving DecidableEq, Repr

/-- An XGEM frame or fragment as delineated (R226 to R229): whether its header HEC is usable, whether a byte of its
header, or of the rest of it, lies in an uncorrectable codeword, its Port-ID, Key Index, LF flag, whether it is idle, whether
it lies in the frame before the latest tick, whose last words reach PTC after that tick (R751), the place of its header in the
frame's payload in 4-byte words (R226, R493), and its payload as received. -/
structure XgemRx where
  hecOk : Bool
  errHdr : Bool
  errBody : Bool
  idle : Bool
  port : BitVec 16
  keyIdx : Fin 4
  last : Bool
  tail : Bool
  pos : BitVec 18
  payload : List Byte
  deriving DecidableEq, Repr

/-- An allocation structure of a bandwidth map (R235 to R238). -/
structure Grant where
  hecOk : Bool
  allocId : BitVec 14
  ploamu : Bool
  dbru : Bool
  fwi : Bool
  start : BitVec 16
  size : BitVec 16
  prof : Fin 4
  deriving DecidableEq, Repr

/-- What a protected read found (R527): no error, one corrected, or one that SECDED cannot correct, with its syndrome
and the word of its row (Table 12.8). -/
inductive Ecc where
  | clean
  | corrected (syndrome word : BitVec 8)
  | bad (syndrome word : BitVec 8)
  deriving DecidableEq, Repr

/-- A command with what the protected memory that it reads finds (R527 to R531). -/
structure Checked (α : Type) where
  at_ : α
  e : Ecc
  deriving DecidableEq, Repr

/-- What the delta's reads find (R376, R527): in its queue, in the group's entry, and in the first copy entry. -/
structure DeltaRead where
  die : CourseDie
  queue : Ecc
  group : Ecc
  copy : Ecc
  deriving DecidableEq, Repr

/-- What the reads of a fill point find (R529 to R531, R757): in the state of the first queue it serves, and in the packet buffer
for the first piece it places, with the die offset of that word. -/
structure FillRead where
  chan : Chan
  state : Ecc
  mem : Ecc
  off : BitVec 36
  deriving DecidableEq, Repr

/-- The issue slot of a tile instruction (R292): the die and thread, what the instruction fetch found (R533), what the memory
that the instruction reads found (R527, R530), and whether a link that its mesh access crosses is lost while the access is in
flight (R147). The word itself is the one at the thread's program counter. -/
structure Issue where
  die : LcDie
  thread : ThreadId
  fetch : Ecc
  mem : Ecc
  lost : Bool
  deriving DecidableEq, Repr

/-- A MAC: that of a subscriber port, or the management port's (R472). -/
inductive MacPort where
  | port (p : Port)
  | mgt
  deriving DecidableEq, Repr

/-- Who reads the packet buffer (R530): a mesh requester, or a MAC that fetches a frame to send. -/
inductive BufReader where
  | req (r : Requester)
  | mac (m : MacPort)
  deriving DecidableEq, Repr

/-- Where patrol scrub reads (R534, Table 12.3): a row of a packet buffer; a queue's state; an entry of the exact-match,
ternary or longest-prefix engine; a delta group or copy entry; a counter pair; an instruction word of a tile bank; or the
frame at a place, the oldest first, of a store that holds frames: the skew buffer of a channel, the reorder store, the eddy,
the order hold, the delta queue or the FIFO of a dispatch source. -/
inductive ScrubAt where
  | buffer (bank : Fin 512) (row : Fin 8192)
  | queue (q : Fin 262144)
  | exact (i : Fin 524288)
  | ternary (i : Fin 16384)
  | lpm (i : Fin 1048576)
  | group (i : Fin 16384)
  | copy (i : Fin 131072)
  | pair (i : Fin 262144)
  | imem (i : Fin 16384)
  | skew (c : Chan) (i : Nat)
  | reorder (i : Nat)
  | eddy (i : Nat)
  | orderHold (i : Nat)
  | delta (i : Nat)
  | source (k : Fin 32) (i : Nat)
  deriving DecidableEq, Repr
/-- What a read of a core finds (R147, R574): the error in the memory or cache that it reads, and whether its response over a mortar link
is lost. -/
structure Found where
  ecc : Ecc
  lost : Bool
  deriving DecidableEq, Repr

/-- The issue of a Rilonef-C instruction (R552, R561): the core; whether the TLBs no longer hold the translations of its fetch and of its
data access, so that they walk (R568); and what its fetch, its data access and the first table read of either walk find (R574, R529). -/
structure CoreIssue where
  core : Fin 12
  walkFetch : Bool
  fetchTable : Found
  fetch : Found
  walk : Bool
  table : Found
  mem : Found
  deriving DecidableEq, Repr

/-- A general register of a core, x0 to x31. -/
abbrev XReg := Fin 32

/-- The second operand of an integer instruction: a register or an immediate. -/
inductive CoreSrc where
  | reg (r : XReg)
  | imm (v : BitVec 64)
  deriving DecidableEq, Repr

/-- The integer instructions of an ordinary 64-bit base (PRESUMED, log 50), with the breakpoint and a reserved encoding
(Table 13.8). -/
inductive IntOp where
  | add | sub | and | or | xor | shl | shr | sar | slt | sltu
  | mul | mulh | mulhu | div | divu | rem | remu
  | breakpoint | reserved
  deriving DecidableEq, Repr

/-- The conditions of a conditional branch (PRESUMED, log 50). -/
inductive CoreCond where
  | eq | ne | lt | ge | ltu | geu
  deriving DecidableEq, Repr

/-- A branch or jump (Table 13.4): conditional, direct or indirect, the last two with an optional link register. -/
inductive CoreJump where
  | branch (c : CoreCond) (ra rb : XReg) (off : BitVec 64)
  | jump (link : Option XReg) (off : BitVec 64)
  | indirect (link : Option XReg) (ra : XReg) (off : BitVec 64)
  deriving DecidableEq, Repr

/-- What a TLB invalidate removes (PRESUMED, log 51): every translation, those of an ASID, or those of a virtual address. -/
inductive TlbInv where
  | all
  | asid (ra : XReg)
  | va (ra : XReg)
  deriving DecidableEq, Repr

/-- What cache maintenance does to a line (Table 13.4). -/
inductive CacheOp where
  | clean | invalidate | cleanInvalidate
  deriving DecidableEq, Repr

/-- A kind of cache (R553): a core's L1 instruction or data cache, or the L2 of its die. -/
inductive CacheKind where
  | code | data | l2
  deriving DecidableEq, Repr

/-- Which line cache maintenance names (Table 13.4): that of a virtual address, or the one that a set and way of a cache hold. -/
inductive CacheAt where
  | address (ra : XReg)
  | setWay (k : CacheKind) (set : Fin 4096) (way : Fin 16)
  deriving DecidableEq, Repr

/-- What the deskew of a mortar link's lanes found (R137, R141, R142): the lanes on which a marker has been seen, the skew
between lanes in UI, and the elastic delay. -/
structure Deskew where
  marked : BitVec 16
  skew : Nat
  delay : Nat
  deriving DecidableEq, Repr

/-- What arrives at a sleeping port (R668): the start of a frame, the end of received low-power idle, a change of LINK, or the first
64 bytes of a frame, or the whole of a shorter one, which are judged against the pattern (R670). -/
inductive WakeEvent where
  | start
  | lpiEnd
  | link
  | frame (bytes : List Byte)
  deriving DecidableEq, Repr

/-- A word of a memory array that the TAP's array port reads (R106, Table 12.3). -/
structure ArrayAt where
  die : Die
  at_ : ScrubAt
  word : Fin 128
  deriving DecidableEq, Repr

/-- Who sends a mesh request, what a protected memory that it reads finds (R527), and for the TAP the array word that it reads in place of an
address (R106). -/
structure MeshFrom where
  at_ : Requester
  e : Ecc
  array : Option ArrayAt
  deriving DecidableEq, Repr

/-- The commands of the part, one for each row of spec/opcode_table.json. -/
inductive Instr where
  /-- REGISTER_WRITE (R8). -/
  | registerWrite (addr : Addr) (v : Word) (lv : Level)
  /-- W1C_WRITE (R9): same: the bits of the register that hardware sets on the edge on which the clear is applied (R9). -/
  | w1cWrite (addr : Addr) (v : Word) (lv : Level) (same : Word)
  /-- RC_READ (R10): same: the increments of the register's counters on that edge (R10). -/
  | rcRead (req : Requester) (addr : Addr) (same : Word)
  /-- MESH_REQUEST (R25): log2: the access size is 2^log2 bytes. -/
  | meshRequest (x : MeshFrom) (lv : Level) (write : Bool) (addr : Addr) (log2 : Fin 4) (data : BitVec 64)
  /-- ERROR_RESPONSE (R31). -/
  | errorResponse (req : Requester)
  /-- ABSENT_REFUSAL_REPORT (R32): d: the die whose oldest report takes effect. -/
  | absentRefusalReport (d : Die)
  /-- POSTED_WRITE (R762): d: the issuing die. -/
  | postedWrite (d : Die) (m : Posted)
  /-- SPAN_WRITE (R746). -/
  | spanWrite (req : Requester) (lv : Level) (off : BitVec 36) (v : Word)
  /-- DIE_FENCE (R28). -/
  | dieFence (d : Die)
  /-- BOOT_CTL_DONE (R45). -/
  | bootCtlDone (lv : Level)
  /-- MODE_CHANGE (R42). -/
  | modeChange
  /-- SSC_TURNING_POINT (R758). -/
  | sscTurningPoint
  /-- TIME_CFG_WRITE (R75). -/
  | timeCfgWrite (v : Word)
  /-- TIME_RELOCK_DONE (R77). -/
  | timeRelockDone
  /-- TIME_COMMIT_INCR (R81). -/
  | timeCommitIncr
  /-- TIME_COMMIT_OFFSET (R81). -/
  | timeCommitOffset
  /-- TIME_COMMIT_LOAD (R81). -/
  | timeCommitLoad
  /-- TIME_COMMIT_APPLY (R80). -/
  | timeCommitApply
  /-- TIME_SNAP (R84). -/
  | timeSnap
  /-- TIME_SNAP_CAPTURE (R84). -/
  | timeSnapCapture
  /-- TIME_SNAP_VALID (R84). -/
  | timeSnapValid
  /-- TOD_CAP_ARM (R85). -/
  | todCapArm (sfLo : BitVec 30)
  /-- TOD_CAPTURE (R86): sfc: the superframe count of the frame whose PSync is detected. -/
  | todCapture (sfc : BitVec 51)
  /-- PPS_OUT_RISE (R87). -/
  | ppsOutRise
  /-- PPS_OUT_FALL (R87). -/
  | ppsOutFall
  /-- PPS_IN_CAPTURE (R89). -/
  | ppsInCapture
  /-- TOD_TX_START (R92). -/
  | todTxStart
  /-- TOD_RX_BYTE (R93): afterIdle: at least two byte times of idle came before it (R93). -/
  | todRxByte (b : Byte) (afterIdle : Bool)
  /-- FREEZE_N_CHANGE (R94). -/
  | freezeNChange (low : Bool)
  /-- FRZ_CTL_WRITE (R94). -/
  | frzCtlWrite (req : Bool)
  /-- SYNCHRONISED_FREEZE (R95). -/
  | synchronisedFreeze
  /-- FREEZE_EDGE_F (R96). -/
  | freezeEdgeF
  /-- CHAIN_SHIFT (R108): n: the bits shifted. -/
  | chainShift (n : Nat)
  /-- THAW_START (R109). -/
  | thawStart
  /-- THAW_RELEASE (R110): stacksUp: the reservoir dies whose stacks have left self-refresh (R110). -/
  | thawRelease (stacksUp : BitVec 8)
  /-- THAW_END (R110). -/
  | thawEnd
  /-- THAW_FAIL (R111). -/
  | thawFail (stacksUp : BitVec 8)
  /-- TX_EQ_WRITE (R121). -/
  | txEqWrite (lane : TxLane) (v : Word)
  /-- SIGNAL_DETECT_CHANGE (R125): high: the level of the signal-detect ball. -/
  | signalDetectChange (c : Chan) (high : Bool)
  /-- PRX_EQ_COMMIT (R126). -/
  | prxEqCommit (c : Chan)
  /-- LANE_LOCK (R135): back: the direction towards the lower die; headers: consecutive valid sync headers; comma: the confirming comma was found. -/
  | laneLock (l : Fin 25) (back : Bool) (lane : Fin 16) (headers : Nat) (comma : Bool)
  /-- LANE_LOCK_LOSS (R136): invalid headers of 64, commas missing in a row, CRC failures of 64. -/
  | laneLockLoss (l : Fin 25) (back : Bool) (lane : Fin 16) (invalid missing crcBad : Nat)
  /-- DLINK_LOCKED (R118): x: what the deskew of its lanes found; slack: the margin left, or none. -/
  | dlinkLocked (l : Fin 25) (x : Deskew) (slack : Option (Fin 16))
  /-- DLINK_LOCK_LOSS (R144): the requests in flight (requester, address, write), and the enqueues and posted writes in flight from the lower and the higher die. -/
  | dlinkLockLoss (l : Fin 25) (lost : List (Requester × Addr × Bool)) (dropLow dropHigh : Nat)
  /-- LINK_LOSS_ERROR_RESPONSE (R147). -/
  | linkLossErrorResponse (req : Requester)
  /-- ESCAN_START (R151). -/
  | escanStart (d : Die) (v : Word)
  /-- ESCAN_ABORT (R153): v: the written word; errors: the mismatches counted by then. -/
  | escanAbort (d : Die) (v : Word) (errors : Nat)
  /-- ESCAN_DONE (R153): errors: mismatches counted; early: the CAUSE of an early end. -/
  | escanDone (d : Die) (errors : Nat) (early : Option (Fin 3))
  /-- OPT_I2C_WRITE (R155). -/
  | optI2cWrite (n : LineDie) (v : Word)
  /-- OPT_I2C_READ (R155). -/
  | optI2cRead (n : LineDie) (v : Word)
  /-- OPT_I2C_STRETCH_TIMEOUT (R156). -/
  | optI2cStretchTimeout (n : LineDie)
  /-- OPT_I2C_DONE (R157): got: the bytes a read received. -/
  | optI2cDone (n : LineDie) (res : I2cEnd) (got : List Byte)
  /-- FRAME_TICK (R160). -/
  | frameTick (c : Chan) (f : FrameRx)
  /-- CODEWORD_DECODE (R173): the bits the decoder flipped, and whether it reached a valid codeword. -/
  | codewordDecode (c : Chan) (flipped : Nat) (good : Bool)
  /-- DEFECT_RAISE (R175). -/
  | defectRaise (c : Chan) (k : Fin 6)
  /-- DEFECT_CLEAR (R175). -/
  | defectClear (c : Chan) (k : Fin 6)
  /-- SFSD_WINDOW_END (R181). -/
  | sfsdWindowEnd (c : Chan)
  /-- SFSD_COMMIT (R183). -/
  | sfsdCommit (c : Chan)
  /-- PM_SECOND_END (R187). -/
  | pmSecondEnd (c : Chan)
  /-- PM_CLASSIFICATION_FINAL (R193). -/
  | pmClassificationFinal (c : Chan)
  /-- PM_HISTORY_WRITE (R196). -/
  | pmHistoryWrite (c : Chan) (day : Bool)
  /-- PM_ENABLE (R190). -/
  | pmEnable (c : Chan) (v : Word)
  /-- PM_DISABLE (R190). -/
  | pmDisable (c : Chan) (v : Word)
  /-- PM_SNAP (R199). -/
  | pmSnap (c : Chan) (v : Word)
  /-- RECEIVER_POWER_DOWN (R184). -/
  | receiverPowerDown (c : Chan)
  /-- RECEIVER_POWER_UP (R185). -/
  | receiverPowerUp (c : Chan)
  /-- WAKE_GRACE_END (R185). -/
  | wakeGraceEnd (c : Chan)
  /-- ACT_REQ_O23 (R207). -/
  | actReqO23 (c : Chan) (v : Word)
  /-- ACT_REQ_O4 (R207). -/
  | actReqO4 (c : Chan) (v : Word)
  /-- ACT_REQ_O5 (R207). -/
  | actReqO5 (c : Chan) (v : Word)
  /-- ACT_REQ_O11 (R207). -/
  | actReqO11 (c : Chan) (v : Word)
  /-- ACT_REQ_O7 (R214). -/
  | actReqO7 (c : Chan) (v : Word)
  /-- TO1_EXPIRY (R212). -/
  | to1Expiry (c : Chan)
  /-- TO2_EXPIRY (R212). -/
  | to2Expiry (c : Chan)
  /-- PLOAMU_PUSH (R215). -/
  | ploamuPush (c : Chan)
  /-- PLOAMU_DEF (R215). -/
  | ploamuDef (c : Chan)
  /-- PLOAMD_RECEIVE (R223). -/
  | ploamdReceive (c : Chan) (onu : BitVec 10) (msg : List Byte)
  /-- PLOAMD_POP (R224). -/
  | ploamdPop (c : Chan)
  /-- XGEM_FRAME_RECEIVE (R229). -/
  | xgemFrameReceive (c : Chan) (x : XgemRx)
  /-- REASSEMBLY_TIMEOUT (R232). -/
  | reassemblyTimeout (c : Chan)
  /-- PID_TABLE_WRITE (R231). -/
  | pidTableWrite (n : LineDie) (v : Word)
  /-- PID_TABLE_READ (R231). -/
  | pidTableRead (n : LineDie) (v : Word)
  /-- EQD_COMMIT (R222). -/
  | eqdCommit (c : Chan)
  /-- BWMAP_ENTRY_PARSE (R235). -/
  | bwmapEntryParse (c : Chan) (g : Grant)
  /-- BURST_PLAN_READY (R236): at_: the uw, counted from edge 0 of the frame, on which the plan is ready (R236). -/
  | burstPlanReady (c : Chan) (at_ : Nat)
  /-- ALLOC_TABLE_WRITE (R239). -/
  | allocTableWrite (n : LineDie) (v : Word)
  /-- ALLOC_TABLE_READ (R239). -/
  | allocTableRead (n : LineDie) (v : Word)
  /-- PROF_COMMIT (R240). -/
  | profCommit (c : Chan)
  /-- FILL_POINT (R243). -/
  | fillPoint (x : FillRead)
  /-- BURST_LAUNCH (R221). -/
  | burstLaunch (c : Chan)
  /-- BOND_FRAME_RECEIVE (R257). -/
  | bondFrameReceive (c : Chan)
  /-- SKEW_RELEASE (R259). -/
  | skewRelease (x : Checked Chan)
  /-- REORDER_ARRIVAL (R265). -/
  | reorderArrival (x : Checked Chan)
  /-- REORDER_TIMEOUT_SKIP (R268): x: the stream, and what the read of the reorder store finds. -/
  | reorderTimeoutSkip (x : Checked (Fin 8))
  /-- REORDER_FAST_SKIP (R268): x: the stream, and what the read of the reorder store finds. -/
  | reorderFastSkip (x : Checked (Fin 8))
  /-- SKEW_ARM (R262). -/
  | skewArm (v : Word)
  /-- SKEW_CAPTURE (R262). -/
  | skewCapture (c : Chan)
  /-- MEMBER_RX_CHANGE (R271). -/
  | memberRxChange (c : Chan)
  /-- BOND_GROUP_COMMIT (R285). -/
  | bondGroupCommit
  /-- UGRP_COMMIT (R290). -/
  | ugrpCommit (v : Word)
  /-- DISPATCH_SOURCE_ARRIVAL (R340): k: the source index (Table 8.1). -/
  | dispatchSourceArrival (d : LcDie) (k : Fin 32)
  /-- DISPATCH (R343). -/
  | dispatch (x : Checked LcDie)
  /-- DISP_RUN (R346): v: the word written to DISP.CFG. -/
  | dispRun (d : LcDie) (v : Word)
  /-- ORDER_HOLD_LAUNCH (R347). -/
  | orderHoldLaunch (x : Checked LcDie)
  /-- ADD (R308). -/
  | add (x : Issue)
  /-- SUB (R308). -/
  | sub (x : Issue)
  /-- AND (R308). -/
  | and (x : Issue)
  /-- OR (R308). -/
  | or (x : Issue)
  /-- XOR (R308). -/
  | xor (x : Issue)
  /-- SHL (R308). -/
  | shl (x : Issue)
  /-- SHR (R308). -/
  | shr (x : Issue)
  /-- SAR (R308). -/
  | sar (x : Issue)
  /-- MINU (R308). -/
  | minu (x : Issue)
  /-- MAXU (R308). -/
  | maxu (x : Issue)
  /-- CMP (R308). -/
  | cmp (x : Issue)
  /-- MUL (R308). -/
  | mul (x : Issue)
  /-- ADDI (R308). -/
  | addi (x : Issue)
  /-- ANDI (R308). -/
  | andi (x : Issue)
  /-- ORI (R308). -/
  | ori (x : Issue)
  /-- XORI (R308). -/
  | xori (x : Issue)
  /-- CMPI (R308). -/
  | cmpi (x : Issue)
  /-- LUI (R308). -/
  | lui (x : Issue)
  /-- SHLI (R308). -/
  | shli (x : Issue)
  /-- SHRI (R308). -/
  | shri (x : Issue)
  /-- SARI (R308). -/
  | sari (x : Issue)
  /-- RORI (R308). -/
  | rori (x : Issue)
  /-- EXT (R308). -/
  | ext (x : Issue)
  /-- DEP (R308). -/
  | dep (x : Issue)
  /-- HASH (R308). -/
  | hash (x : Issue)
  /-- MFM (R308). -/
  | mfm (x : Issue)
  /-- MTM (R301). -/
  | mtm (x : Issue)
  /-- FLG_READ (R302). -/
  | flgRead (x : Issue)
  /-- FLG_WRITE (R302). -/
  | flgWrite (x : Issue)
  /-- LDH (R308). -/
  | ldh (x : Issue)
  /-- STH (R308). -/
  | sth (x : Issue)
  /-- MOVH (R308). -/
  | movh (x : Issue)
  /-- NXT (R308). -/
  | nxt (x : Issue)
  /-- CSUM (R308). -/
  | csum (x : Issue)
  /-- CSI (R308). -/
  | csi (x : Issue)
  /-- BCC (R308). -/
  | bcc (x : Issue)
  /-- JAL (R308). -/
  | jal (x : Issue)
  /-- JR (R308). -/
  | jr (x : Issue)
  /-- LKE (R310). -/
  | lke (x : Issue)
  /-- LKT (R311): flipped: a match-array bit of the table has flipped and scrub has not yet repaired it (R532). -/
  | lkt (x : Issue) (flipped : Bool)
  /-- LKL (R312). -/
  | lkl (x : Issue)
  /-- CNT (R315). -/
  | cnt (x : Issue)
  /-- LDM (R316). -/
  | ldm (x : Issue)
  /-- STM (R316). -/
  | stm (x : Issue)
  /-- ENQ (R320). -/
  | enq (x : Issue)
  /-- MCAST (R321). -/
  | mcast (x : Issue)
  /-- MIRROR (R322). -/
  | mirror (x : Issue)
  /-- RECIRC (R323). -/
  | recirc (x : Issue)
  /-- PUNT (R324). -/
  | punt (x : Issue)
  /-- DROP (R324). -/
  | drop (x : Issue)
  /-- DFLT (R325). -/
  | dflt (x : Issue)
  /-- TILE_COMMIT (R332). -/
  | tileCommit (d : LcDie)
  /-- IMEM_DATA_WRITE (R333). -/
  | imemDataWrite (d : LcDie) (v : Word)
  /-- IMEM_CHECK (R336). -/
  | imemCheck (d : LcDie) (v : Word)
  /-- IMEM_CHECK_DONE (R336). -/
  | imemCheckDone (d : LcDie)
  /-- EM_ENTRY_WRITE (R363). -/
  | emEntryWrite (d : LcDie) (v : Word)
  /-- EM_ENTRY_READ (R363). -/
  | emEntryRead (x : Checked LcDie) (v : Word)
  /-- TC_ENTRY_WRITE (R363). -/
  | tcEntryWrite (d : LcDie) (v : Word)
  /-- TC_ENTRY_READ (R363). -/
  | tcEntryRead (d : LcDie) (v : Word)
  /-- LKP_ENTRY_WRITE_DONE (R364): ternary: the engine, ternary or exact match. -/
  | lkpEntryWriteDone (d : LcDie) (ternary : Bool)
  /-- LPM_SET (R360). -/
  | lpmSet (d : CourseDie) (v : Word)
  /-- LPM_CLEAR (R360). -/
  | lpmClear (d : CourseDie) (v : Word)
  /-- LPM_READ (R359). -/
  | lpmRead (x : Checked CourseDie) (v : Word)
  /-- LPM_COMMAND_DONE (R359). -/
  | lpmCommandDone (d : CourseDie)
  /-- COUNTER_READ (R362). -/
  | counterRead (x : Checked LcDie) (v : Word)
  /-- TBL_COMMIT (R366). -/
  | tblCommit (d : LcDie)
  /-- GEN_SWITCH_NOW (R367). -/
  | genSwitchNow (d : LcDie) (v : Word)
  /-- GEN_SWITCH_ARM (R368). -/
  | genSwitchArm (d : LcDie) (v : Word)
  /-- GEN_SWITCH_ARMED (R367). -/
  | genSwitchArmed (d : LcDie)
  /-- GEN_DRAINED (R370). -/
  | genDrained (d : LcDie)
  /-- DELTA_ARRIVAL (R375). -/
  | deltaArrival (d : CourseDie)
  /-- DELTA_ACCEPT (R376). -/
  | deltaAccept (x : DeltaRead)
  /-- DELTA_GROUP_WRITE (R374). -/
  | deltaGroupWrite (d : CourseDie) (v : Word)
  /-- DELTA_GROUP_READ (R374). -/
  | deltaGroupRead (x : Checked CourseDie) (v : Word)
  /-- DELTA_COPY_WRITE (R374). -/
  | deltaCopyWrite (d : CourseDie) (v : Word)
  /-- SPILLWAY_ARRIVAL (R381). -/
  | spillwayArrival (d : LcDie)
  /-- SPILLWAY_REFILL (R382). -/
  | spillwayRefill (d : LcDie) (r : Fin 64)
  /-- ENQUEUE_VISIBLE (R400): e: what the read of the queue's state found (R531). -/
  | enqueueVisible (d : LcDie) (e : Ecc)
  /-- TM_STATE_CLEAR_DONE (R394). -/
  | tmStateClearDone (d : LcDie)
  /-- QOP_WRITE (R395). -/
  | qopWrite (x : Checked LcDie) (v : Word)
  /-- QOP_READ (R398). -/
  | qopRead (x : Checked LcDie) (v : Word)
  /-- QOP_FILL (R395). -/
  | qopFill (x : Checked LcDie) (v : Word)
  /-- QOP_FLUSH (R399). -/
  | qopFlush (x : Checked LcDie) (v : Word)
  /-- SLU_WRITE (R407). -/
  | sluWrite (d : LcDie) (v : Word)
  /-- SLU_READ (R406). -/
  | sluRead (d : LcDie) (v : Word)
  /-- SLU_COUNTER_READ (R410). -/
  | sluCounterRead (d : LcDie) (v : Word)
  /-- TM_REFILL (R408). -/
  | tmRefill (d : LcDie)
  /-- DECISION_SLOT (R415). -/
  | decisionSlot (x : Checked Port)
  /-- DEQUEUE (R421): e: what the read of the queue's state found (R531). -/
  | dequeue (p : Port) (e : Ecc)
  /-- GATE_ADMIN_DATA_WRITE (R430). -/
  | gateAdminDataWrite (d : LcDie) (k : Fin 64) (v : Word)
  /-- GATE_COMMIT (R431). -/
  | gateCommit (d : LcDie) (k : Fin 64) (v : Word)
  /-- GATE_SWAP (R431). -/
  | gateSwap (d : LcDie) (k : Fin 64)
  /-- APROF_COMMIT (R441). -/
  | aprofCommit (d : LcDie)
  /-- POOL_COMMIT (R441). -/
  | poolCommit (d : LcDie)
  /-- UPROF_COMMIT (R441). -/
  | uprofCommit (n : LineDie)
  /-- FRAME_RECEIVE (R445): frame: the bytes without FCS; age: the time in 2^-16 ns since the first bit after its start delimiter crossed the balls. -/
  | frameReceive (m : MacPort) (frame : List Byte) (fcsOk codeErr : Bool) (age : Nat)
  /-- PAUSE_TIMER_EXPIRY (R454): k: the priority, or 8 for Annex 31B pause. -/
  | pauseTimerExpiry (m : MacPort) (k : Fin 9)
  /-- PAUSE_WATCHDOG (R457). -/
  | pauseWatchdog (m : MacPort) (k : Fin 9)
  /-- DA_FILTER_WRITE (R448). -/
  | daFilterWrite (m : MacPort) (v : Word)
  /-- DA_FILTER_READ (R448). -/
  | daFilterRead (m : MacPort) (v : Word)
  /-- MAC_TRANSMIT_START (R417): phi: the phase by which the MAC's view of time trails network time, brought below one sw period. -/
  | macTransmitStart (m : MacPort) (phi : Nat)
  /-- FRAME_TRANSMIT_END (R467). -/
  | frameTransmitEnd (m : MacPort)
  /-- PAUSE_TX (R458). -/
  | pauseTx (m : MacPort) (v : Word)
  /-- LPI_ENTRY (R459). -/
  | lpiEntry (m : MacPort)
  /-- LINK_CHANGE (R470): speed: what SGMII auto-negotiation gave, coded as CFG.SPEED (R443). -/
  | linkChange (m : MacPort) (up : Bool) (speed : Fin 3)
  /-- TS_FIFO_POP (R467). -/
  | tsFifoPop (m : MacPort)
  /-- PTP_COMMIT (R483). -/
  | ptpCommit (m : MacPort)
  /-- MDIO_C22_WRITE (R477). -/
  | mdioC22Write (d : CourseDie) (m : Fin 4) (v : Word)
  /-- MDIO_C22_READ (R477). -/
  | mdioC22Read (d : CourseDie) (m : Fin 4) (v : Word)
  /-- MDIO_C45_ADDRESS (R477). -/
  | mdioC45Address (d : CourseDie) (m : Fin 4) (v : Word)
  /-- MDIO_C45_WRITE (R477). -/
  | mdioC45Write (d : CourseDie) (m : Fin 4) (v : Word)
  /-- MDIO_C45_READ (R477). -/
  | mdioC45Read (d : CourseDie) (m : Fin 4) (v : Word)
  /-- MDIO_C45_READ_INC (R477). -/
  | mdioC45ReadInc (d : CourseDie) (m : Fin 4) (v : Word)
  /-- MDIO_FRAME_DONE (R478). -/
  | mdioFrameDone (d : CourseDie) (m : Fin 4) (data : BitVec 16)
  /-- CAGE_I2C_WRITE (R479). -/
  | cageI2cWrite (d : CourseDie) (v : Word)
  /-- CAGE_I2C_READ (R479). -/
  | cageI2cRead (d : CourseDie) (v : Word)
  /-- CAGE_I2C_DONE (R479): stretched: the target held SCL past STRETCH_MS (R156). -/
  | cageI2cDone (d : CourseDie) (res : I2cEnd) (stretched : Bool) (got : List Byte)
  /-- LED_REFRESH (R480). -/
  | ledRefresh (d : CourseDie)
  /-- KSLOT_WRITE (R488). -/
  | kslotWrite (d : LcDie) (v : Word)
  /-- KSLOT_LOAD_KILN (R647). -/
  | kslotLoadKiln (d : LcDie) (v : Word)
  /-- KSLOT_ERASE (R491). -/
  | kslotErase (d : LcDie) (v : Word)
  /-- KSLOT_HELD_WRITE_DONE (R490). -/
  | kslotHeldWriteDone (d : LcDie)
  /-- OMCI_DOWNSTREAM_CHECK (R498). -/
  | omciDownstreamCheck (c : Chan)
  /-- MS_TX_COMMIT (R500). -/
  | msTxCommit (p : Port)
  /-- MS_PN_WRITE (R504). -/
  | msPnWrite (d : CourseDie) (k : Fin 2048) (v : Word)
  /-- MS_PN_READ (R504). -/
  | msPnRead (d : CourseDie) (k : Fin 2048)
  /-- MS_RXSC_WRITE (R505). -/
  | msRxscWrite (p : Port) (n : Fin 4) (v : Word)
  /-- LA_DOORBELL (R508). -/
  | laDoorbell (n : LineDie) (q : Fin 2)
  /-- LA_GCM_ENCRYPT (R509). -/
  | laGcmEncrypt (n : LineDie) (q : Fin 2) (e : Ecc)
  /-- LA_GCM_DECRYPT (R510). -/
  | laGcmDecrypt (n : LineDie) (q : Fin 2) (e : Ecc)
  /-- LA_CTR_ENCRYPT (R509). -/
  | laCtrEncrypt (n : LineDie) (q : Fin 2) (e : Ecc)
  /-- LA_CTR_DECRYPT (R509). -/
  | laCtrDecrypt (n : LineDie) (q : Fin 2) (e : Ecc)
  /-- LA_CMAC_GENERATE (R508). -/
  | laCmacGenerate (n : LineDie) (q : Fin 2) (e : Ecc)
  /-- LA_CMAC_VERIFY (R510). -/
  | laCmacVerify (n : LineDie) (q : Fin 2) (e : Ecc)
  /-- LA_CONTEXT_SAVE_CLEAR (R512). -/
  | laContextSaveClear (n : LineDie) (q : Fin 2) (e : Ecc)
  /-- LA_CONTEXT_SAVE_WRAPPED (R512). -/
  | laContextSaveWrapped (n : LineDie) (q : Fin 2) (e : Ecc)
  /-- LA_CONTEXT_RESTORE_CLEAR (R512). -/
  | laContextRestoreClear (n : LineDie) (q : Fin 2) (e : Ecc)
  /-- LA_CONTEXT_RESTORE_WRAPPED (R512). -/
  | laContextRestoreWrapped (n : LineDie) (q : Fin 2) (e : Ecc)
  /-- LA_BULK_SUSPEND (R514). -/
  | laBulkSuspend (n : LineDie)
  /-- LA_BULK_RESUME (R514). -/
  | laBulkResume (n : LineDie)
  /-- LA_BUS_ERROR (R515): addr, write: the access without a response; onDesc: it was an access to the descriptor itself. -/
  | laBusError (n : LineDie) (q : Fin 2) (addr : Addr) (write : Bool) (onDesc : Bool)
  /-- RESERVOIR_READ (R521): 2^log2 bytes at a die offset. -/
  | reservoirRead (d : Die) (r : BufReader) (off : BitVec 36) (log2 : Fin 4) (e : Ecc)
  /-- RESERVOIR_WRITE (R521). -/
  | reservoirWrite (d : Die) (r : Requester) (off : BitVec 36) (log2 : Fin 4) (v : BitVec 64)
  /-- PACKET_SRAM_READ (R523). -/
  | packetSramRead (r : BufReader) (off : BitVec 36) (log2 : Fin 4) (e : Ecc)
  /-- PACKET_SRAM_WRITE (R523). -/
  | packetSramWrite (r : Requester) (off : BitVec 36) (log2 : Fin 4) (v : BitVec 64)
  /-- REF_MODE_CHANGE (R520). -/
  | refModeChange (d : Die)
  /-- SCRUB_READ (R534). -/
  | scrubRead (d : Die) (at_ : ScrubAt) (e : Ecc)
  /-- SELF_TEST_START (R538): b: 0 RSV, 1 MEM; dom: the maintenance domain. -/
  | selfTestStart (d : Die) (b : Fin 2) (dom : Fin 32)
  /-- SELF_TEST_END (R535): inUse: for a row of a packet buffer, the buffer of each of its cells in use (R542). -/
  | selfTestEnd (d : Die) (b : Fin 2) (dom : Fin 32) (pass : Bool) (inUse : List Nat)
  /-- SPARE_BANK_COPY_DONE (R543). -/
  | spareBankCopyDone (d : CourseDie)
  /-- RETIRED_QUEUES_EMPTY (R543). -/
  | retiredQueuesEmpty (d : LcDie) (bank : Fin 16)
  /-- RSV_ENABLE (R545). -/
  | rsvEnable (d : Die) (v : Word)
  /-- RSV_DISABLE (R545). -/
  | rsvDisable (d : Die) (v : Word)
  /-- RSV_INIT_DONE (R545). -/
  | rsvInitDone (d : Die)
  /-- ELOG_POP (R546). -/
  | elogPop (d : Die) (b : Fin 2)
  /-- SPMAP_READ_SPARE (R548). -/
  | spmapReadSpare (d : Die) (b : Fin 2) (v : Word)
  /-- SPMAP_WRITE_SPARE (R551). -/
  | spmapWriteSpare (d : Die) (b : Fin 2) (v : Word)
  /-- SPMAP_READ_RETIREMENT (R548). -/
  | spmapReadRetirement (d : Die) (b : Fin 2) (v : Word)
  /-- SPMAP_WRITE_RETIREMENT (R551). -/
  | spmapWriteRetirement (d : Die) (b : Fin 2) (v : Word)
  /-- SPMAP_LOCK (R549). -/
  | spmapLock (d : LcDie) (v : Word)
  /-- L2_CFG_WRITE (R555). -/
  | l2CfgWrite (n : LineDie) (v : Word)
  /-- CORE_LOAD (R563): sx: sign-extend. -/
  | coreLoad (x : CoreIssue) (rd ra : XReg) (off : BitVec 64) (log2 : Fin 4) (sx : Bool)
  /-- CORE_STORE (R558). -/
  | coreStore (x : CoreIssue) (rs ra : XReg) (off : BitVec 64) (log2 : Fin 4)
  /-- MFS (R566). -/
  | mfs (x : CoreIssue) (rd : XReg) (n : BitVec 12)
  /-- MTS (R566). -/
  | mts (x : CoreIssue) (n : BitVec 12) (ra : XReg)
  /-- TLB_INVALIDATE (R570). -/
  | tlbInvalidate (x : CoreIssue) (k : TlbInv)
  /-- CACHE_MAINTENANCE (R559). -/
  | cacheMaintenance (x : CoreIssue) (op : CacheOp) (at_ : CacheAt)
  /-- SUPERVISOR_CALL (R571). -/
  | supervisorCall (x : CoreIssue)
  /-- MONITOR_CALL (R571). -/
  | monitorCall (x : CoreIssue)
  /-- RFX (R571). -/
  | rfx (x : CoreIssue)
  /-- INTERRUPT_ENTRY (R576): l: 0 supervisor, 1 monitor. -/
  | interruptEntry (core : Fin 12) (l : Fin 2)
  /-- MACHINE_CHECK (R574). -/
  | machineCheck (core : Fin 12) (line : BitVec 34)
  /-- BAR (R581). -/
  | bar (x : CoreIssue) (rd ra rb : XReg) (imm : Byte)
  /-- SPNW (R581). -/
  | spnw (x : CoreIssue) (rd ra rb : XReg) (imm : Byte)
  /-- CRD (R581). -/
  | crd (x : CoreIssue) (rd ra rb : XReg) (imm : Byte)
  /-- SLH (R581). -/
  | slh (x : CoreIssue) (rd ra rb : XReg) (imm : Byte)
  /-- SLH_WAKE (R581). -/
  | slhWake (core : Fin 12)
  /-- CORE_RUN (R566). -/
  | coreRun (lv : Level) (v : Word)
  /-- IRQ_LEVEL_CHANGE (R578). -/
  | irqLevelChange (n : Fin 2048)
  /-- IRQ_CLAIM (R577): x: 0 supervisor, 1 monitor. -/
  | irqClaim (r : Requester) (core : Fin 12) (x : Fin 2)
  /-- IRQ_EOI (R577). -/
  | irqEoi (core : Fin 12) (x : Fin 2) (v : Word)
  /-- SGI_SET (R579). -/
  | sgiSet (v : Word)
  /-- TIMER_INTERRUPT (R579). -/
  | timerInterrupt (core : Fin 12)
  /-- SEMAPHORE_READ (R594). -/
  | semaphoreRead (core : Fin 12) (k : Fin 32)
  /-- SEMAPHORE_WRITE (R594). -/
  | semaphoreWrite (core : Fin 12) (k : Fin 32) (v : Word)
  /-- UART_TX_WRITE (R588). -/
  | uartTxWrite (v : Word)
  /-- UART_RX_READ (R588). -/
  | uartRxRead (r : Requester)
  /-- UART_RX_BYTE (R587): stop: the level sampled for the stop bit. -/
  | uartRxByte (b : Byte) (stop : Bool)
  /-- UART_TX_BYTE (R587). -/
  | uartTxByte
  /-- GPIO_SET (R590). -/
  | gpioSet (v : Word)
  /-- GPIO_CLR (R590). -/
  | gpioClr (v : Word)
  /-- GPIO_INPUT_EDGE (R591). -/
  | gpioInputEdge (k : Fin 32) (high : Bool)
  /-- DMA_START (R618). -/
  | dmaStart (d : Die) (ch : Fin 32) (v : Word)
  /-- DMA_STOP (R614). -/
  | dmaStop (d : Die) (ch : Fin 32) (v : Word)
  /-- DMA_DISABLE (R619). -/
  | dmaDisable (d : Die) (ch : Fin 32) (v : Word)
  /-- DMA_DOORBELL (R600). -/
  | dmaDoorbell (d : Die) (ch : Fin 32)
  /-- DMA_DESCRIPTOR_FETCH (R599): m: what the first access of the command finds, and whether its response over a mortar link is lost (R147). -/
  | dmaDescriptorFetch (d : Die) (ch : Fin 32) (m : Found)
  /-- DMA_MOVE (R608): m: what the first access of the command finds, and whether its response over a mortar link is lost (R147). -/
  | dmaMove (d : Die) (ch : Fin 32) (m : Found)
  /-- DMA_RECEIVE_RECORD (R612): m: what the first access of the command finds, and whether its response over a mortar link is lost (R147). -/
  | dmaReceiveRecord (d : Die) (ch : Fin 32) (m : Found)
  /-- DMA_TRANSMIT_BURST (R610): m: what the first access of the command finds, and whether its response over a mortar link is lost (R147). -/
  | dmaTransmitBurst (ch : Fin 32) (m : Found)
  /-- DMA_INJECT_BURST (R610): m: what the first access of the command finds, and whether its response over a mortar link is lost (R147). -/
  | dmaInjectBurst (d : LcDie) (ch : Fin 32) (m : Found)
  /-- PACE_TIMER_FIRE (R604). -/
  | paceTimerFire (d : Die) (ch : Fin 32)
  /-- PACE_TRIGGER (R605). -/
  | paceTrigger (d : Die) (ch : Fin 32)
  /-- DMA_BUS_ERROR (R615): lost: no response within 4,096 mc; onDesc: the access was one to a descriptor; done: the bytes done before it. -/
  | dmaBusError (d : Die) (ch : Fin 32) (addr : Addr) (write : Bool) (lost : Bool) (onDesc : Bool) (done : BitVec 24)
  /-- RESET_N_CHANGE (R624): high: the level now sampled; lowFor: the consecutive ac for which RESET_N was low (R624). -/
  | resetNChange (high : Bool) (lowFor : Nat)
  /-- RST_CTL_WARM (R626). -/
  | rstCtlWarm (lv : Level) (v : Word)
  /-- RST_CTL_COLD (R625). -/
  | rstCtlCold (lv : Level) (v : Word)
  /-- WARM_RESET (R626). -/
  | warmReset
  /-- COLD_RESET (R625). -/
  | coldReset
  /-- RAIL_POWER_GOOD (R630). -/
  | railPowerGood
  /-- RAIL_FAULT (R632): lost: power-good was lost, else it timed out (R632). -/
  | railFault (r : Fin 24) (lost : Bool)
  /-- RAIL_FAULT_RETRY (R633). -/
  | railFaultRetry
  /-- PMB_SEND_BYTE (R635). -/
  | pmbSendByte (lv : Level) (v : Word)
  /-- PMB_WRITE_BYTE (R635). -/
  | pmbWriteByte (lv : Level) (v : Word)
  /-- PMB_WRITE_WORD (R635). -/
  | pmbWriteWord (lv : Level) (v : Word)
  /-- PMB_READ_BYTE (R635). -/
  | pmbReadByte (lv : Level) (v : Word)
  /-- PMB_READ_WORD (R635). -/
  | pmbReadWord (lv : Level) (v : Word)
  /-- PMB_TRANSACTION_DONE (R636): ack: every byte was acknowledged; pec: the PEC of a read matched; data: what a read brought. -/
  | pmbTransactionDone (ack : Bool) (pec : Bool) (data : BitVec 16)
  /-- AVS_ENABLE (R637): mode, vout: what VOUT_MODE and READ_VOUT answer (R637). -/
  | avsEnable (lv : Level) (v : Word) (mode : Byte) (vout : BitVec 16)
  /-- AVS_ADJUST (R637). -/
  | avsAdjust
  /-- FUSE_ADVANCE (R640). -/
  | fuseAdvance (lv : Level) (v : Word)
  /-- FUSE_SCRAP (R640). -/
  | fuseScrap (lv : Level) (v : Word)
  /-- FUSE_ROLLBACK (R640). -/
  | fuseRollback (lv : Level) (v : Word)
  /-- FUSE_REVOKE (R640). -/
  | fuseRevoke (lv : Level) (v : Word)
  /-- FUSE_RAIL_TABLE (R640). -/
  | fuseRailTable (lv : Level) (v : Word)
  /-- FUSE_BOOT_KEY (R640). -/
  | fuseBootKey (lv : Level) (v : Word)
  /-- FUSE_DBG_KEY (R640). -/
  | fuseDbgKey (lv : Level) (v : Word)
  /-- FUSE_BURN_DONE (R639): ok: the re-sense finds the fuses burnt. -/
  | fuseBurnDone (ok : Bool)
  /-- BOOT_SLOT_CHECK (R641): image: the bytes the flash answers from the start of the slot; none where it is silent. -/
  | bootSlotCheck (image : List Byte)
  /-- BOOT_RELEASE (R642). -/
  | bootRelease
  /-- KILN_GENERATE (R646). -/
  | kilnGenerate (lv : Level) (v : Word)
  /-- KILN_WRAP (R646). -/
  | kilnWrap (lv : Level) (v : Word)
  /-- KILN_UNWRAP (R646). -/
  | kilnUnwrap (lv : Level) (v : Word)
  /-- KILN_DERIVE (R646). -/
  | kilnDerive (lv : Level) (v : Word)
  /-- KILN_CLEAR (R646). -/
  | kilnClear (lv : Level) (v : Word)
  /-- KILN_COMMAND_DONE (R646). -/
  | kilnCommandDone
  /-- KILN_PARITY_ERROR (R648). -/
  | kilnParityError
  /-- DBG_REQ (R649). -/
  | dbgReq (level : Fin 4)
  /-- DBG_RESP (R650): resp: 192 bytes. -/
  | dbgResp (resp : List Byte)
  /-- DBG_AUTH_DONE (R650). -/
  | dbgAuthDone
  /-- ZEROISATION_STEP (R651): ok: Z1 re-senses LC1 as 1; Z7 finds every word zero. -/
  | zeroisationStep (ok : Bool)
  /-- POWER_STATE_ENTRY (R662): h, hsrc: the least time that a source of the horizon reports, in ac, and that source (R661); idleFor: the ac the die has been idle at most; wake: a source registered on this edge, as SRC and INDEX (R677). -/
  | powerStateEntry (d : Die) (h : BitVec 24) (hsrc : Fin 16) (idleFor : Nat) (wake : Option (Fin 16 × BitVec 8))
  /-- POWER_ENTRY_COMPLETE (R657). -/
  | powerEntryComplete (d : Die)
  /-- POWER_STATE_EXIT (R662): h, hsrc: as of POWER_STATE_ENTRY. -/
  | powerStateExit (d : Die) (h : BitVec 24) (hsrc : Fin 16)
  /-- POWER_EXIT_COMPLETE (R679): read: the CRC-32 of what a retention bank holds when it is read back, for each bank that retention changed (R681). -/
  | powerExitComplete (d : Die) (read : List (Fin 8 × Word))
  /-- DIE_WAKE_WRITE (R676). -/
  | dieWakeWrite (lv : Level) (d : Die) (v : Word)
  /-- HELD_TRAFFIC_RELEASE (R665). -/
  | heldTrafficRelease (d : Die)
  /-- PORT_WAKE_EVENT (R668). -/
  | portWakeEvent (m : MacPort) (ev : WakeEvent)
  /-- WAKE_STORE_RELEASE (R669). -/
  | wakeStoreRelease (m : MacPort)
  /-- PAT_COMMIT (R671). -/
  | patCommit (lv : Level) (d : Die) (v : Word)
  /-- PS_COMMIT (R672). -/
  | psCommit (lv : Level) (c : Chan) (v : Word)
  /-- PS_ENTER (R673). -/
  | psEnter (lv : Level) (c : Chan) (v : Word)
  /-- PS_LEAVE (R675). -/
  | psLeave (lv : Level) (c : Chan) (v : Word)
  /-- PS_PHASE_CHANGE (R673). -/
  | psPhaseChange (c : Chan)
  /-- PS_RECEIVER_POWER_UP (R674). -/
  | psReceiverPowerUp (c : Chan)
  /-- PS_END (R675). -/
  | psEnd (c : Chan)
  /-- RET_LOST_CLEAR (R682). -/
  | retLostClear (d : Die) (v : Word)
  /-- OFF_ENTRY (R683). -/
  | offEntry (lv : Level) (v : Word)
  /-- OFF_WAKE (R684): cause: 0 WAKE_N, 1 RESET_N, 2 the OFF timer; n: the edges of 32.768 kHz on which the pin has been low in a row, or the cycles since OFF was entered. -/
  | offWake (cause : Fin 3) (n : Nat)
  /-- WAKE_N_ASSERT (R685). -/
  | wakeNAssert
  /-- THERMAL_COMPARE (R686). -/
  | thermalCompare
  /-- THERMAL_OFF_TIMER (R690): n: the cycles of 32.768 kHz since OFF was entered. -/
  | thermalOffTimer (n : Nat)
  /-- PMC_ARM (R699). -/
  | pmcArm (lv : Level) (d : Die) (v : Word)
  /-- PMC_ARMED_ACTION (R699). -/
  | pmcArmedAction (d : Die)
  /-- PMC_COUNTER_READ (R695): n: 0 to 7 CNT_LO, 8 CYC_LO. -/
  | pmcCounterRead (r : Requester) (lv : Level) (d : Die) (u : Fin 16) (n : Fin 9)
  /-- PMC_COUNTER_WRITE (R695). -/
  | pmcCounterWrite (lv : Level) (d : Die) (u : Fin 16) (n : Fin 8) (v : Word)
  /-- BW_WINDOW_CLOSE (R705). -/
  | bwWindowClose (d : CourseDie)
  /-- BW_SNAP (R705). -/
  | bwSnap (lv : Level) (d : CourseDie) (v : Word)
  /-- SENSOR_READING (R708): k: 0 to 3 T0 to T3, 4 to 7 V0 to V3; margin: the least timing margin now. -/
  | sensorReading (d : Die) (k : Fin 8) (value : BitVec 12) (margin : Byte)
  /-- CDR_LOCK_CHANGE (R60). -/
  | cdrLockChange (c : Chan) (lock : Bool)
  /-- RX_LPI_CHANGE (R459). -/
  | rxLpiChange (m : MacPort) (on : Bool)
  /-- SFC_LO_READ (R170). -/
  | sfcLoRead (req : Requester) (c : Chan)
  /-- TAP_FUSE_PROG (R634). -/
  | tapFuseProg
  /-- RESERVED_WORD_ISSUE (R306). -/
  | reservedWordIssue (x : Issue)
  /-- CORE_INTEGER_OPERATION (R562). -/
  | coreIntegerOperation (x : CoreIssue) (op : IntOp) (rd ra : XReg) (b : CoreSrc)
  /-- CORE_BRANCH (R562). -/
  | coreBranch (x : CoreIssue) (j : CoreJump)
  /-- ALWAYS_ON_POWER_LOSS (R721). -/
  | alwaysOnPowerLoss
  deriving DecidableEq, Repr

end Sys2Proof
end

