-- ==== Sys2Proof/Decode.lean ====
section
/-!
DEFINITION. The decoder of table words. The table of operations and events gives no row any bits, so that no word spells a
command. The part's own programs (tile instructions, Table 7.7 and after) are decoded by the tiles themselves, from the
words in their instruction memory.
-/
namespace Sys2Proof

/-- The command that a word of nbits bits spells: none, for every row is without bits. -/
def decodeTableWord (_nbits _w : Nat) : Option Instr := none

end Sys2Proof
end

