-- ==== Sys2Proof/Config.lean ====
section
/-!
DEFINITION. What an implementation fixes and what the spec leaves open. Every constant here is opaque and has no body:
nothing in Lean can evaluate it, so a statement holds for every value of it. The argument of a free value is the state's
`fresh` counter (log 2), or the operands the value depends on.
-/
namespace Sys2Proof.Config

/-- The value of a field written with a reserved encoding (R13). -/
opaque freeReserved : Nat → Word
/-- The network time counter after a commit with ADJ_NS of 1,000,000,000 or more (R82): seconds, nanoseconds, fraction. -/
opaque freeTimeSec : Nat → BitVec 48
opaque freeTimeNs : Nat → BitVec 30
opaque freeTimeFrac : Nat → BitVec 28
/-- The length in bits of an inspect chain by die, domain and instance (R104): the implementation's. -/
opaque chainLen : Nat → Nat → Nat → Nat
/-- SF or SD at a window end while its clear threshold is above its set threshold (R182). -/
opaque freeDefect : Nat → Bool
/-- What the data words of a FIFO show while it is empty (R224, R467, R546): the spec gives no value. -/
opaque freeStale : Nat → Word
/-- The random delay of a serial-number response before it is brought into range (R217). -/
opaque freeSerialDelay : Nat → Nat
/-- A correctionField after a residence of a second or more (R465). -/
opaque freeCorrection : Nat → BitVec 64
/-- The upstream word width in bits of a RATE that does not go with the framing, by RATE and framing (R204). -/
opaque oddWidth : Nat → Bool → Nat
/-- The bytes of FEC parity over a burst body at a RATE: the applicable standard's, which the spec does not restate
(R242, Table 5.10). -/
opaque fecParity : Nat → Nat → Nat
/-- The bank and row of the packet SRAM that hold a kilobyte of it: the spec gives no decode (R523). -/
opaque sramRow : Nat → Nat × Nat
/-- RSV.FREE after a packet that outlived an initialisation gives its cells back (R545). -/
opaque freeCells : Nat → Nat
/-- A byte of a packet that lies in cells of doubtful contents (R545). -/
opaque freeByte : Nat → Byte
/-- The handle m2.BUF that a program sees of a buffer number (Table 7.1). -/
opaque bufHandle : Nat → Word
/-- The fixed phase P of a tile, by die and tile (R292). -/
opaque tilePhase : Nat → Nat → Nat
/-- A word of tile instruction memory that nothing has written, by die, bank and word (R333). -/
opaque imemWord : Nat → Word
/-- The result of a ternary lookup between the flip of a match-array bit and its repair (R532): hit, and action data. -/
opaque freeHit : Nat → Bool
opaque freeAction : Nat → BitVec 64
/-- The queue terms of a response from a reservoir die (Table 7.6), in mc. -/
opaque crossing : Nat → Nat

/-- The lag of t_now behind network time (R416), before it is brought into its range. -/
opaque replicaLag : Nat → Nat
/-- The gate states of a list that has no entry of a non-zero interval (R432): the spec states none. -/
opaque freeGates : Nat → Nat

/-! The algorithms of the cipher engines, by key, key length (true for 256 bits) and input: the applicable standards define
them (R485, R493, R498, R509, R512), and the spec does not restate them. -/

/-- n bytes of AES counter-mode key stream from a counter block. -/
opaque keyStream : BitVec 256 → Bool → BitVec 128 → Nat → List Byte
/-- A GHASH accumulator after more bytes, padded to a whole block. -/
opaque ghash : BitVec 256 → Bool → BitVec 128 → List Byte → BitVec 128
/-- The GCM tag from a 96-bit IV, the accumulator and the two lengths in bytes. -/
opaque gcmFinal : BitVec 256 → Bool → BitVec 96 → BitVec 128 → Nat → Nat → BitVec 128
/-- A CMAC chaining value after whole blocks. -/
opaque cmacChain : BitVec 256 → Bool → BitVec 128 → List Byte → BitVec 128
/-- The CMAC of a chaining value and the last bytes. -/
opaque cmacFinal : BitVec 256 → Bool → BitVec 128 → List Byte → BitVec 128
/-- XGEM key stream: key, upstream, superframe count, position and length. -/
opaque xgemPad : BitVec 256 → Bool → Nat → Nat → Nat → List Byte
/-- The OMCI MIC of a message: key, upstream, message. -/
opaque omciMic : BitVec 256 → Bool → List Byte → List Byte
/-- A context image wrapped and unwrapped under a look-aside context key (R512). -/
opaque ctxWrap : BitVec 256 → List Byte → List Byte
opaque ctxUnwrap : BitVec 256 → List Byte → Option (List Byte)
/-- AES-CMAC under a 256-bit key (R644). -/
opaque aesCmac : BitVec 256 → List Byte → BitVec 128
/-- RFC 3394 key wrap of a 32-byte key field under a blob key, and its inverse, none where the integrity check fails
(R645). -/
opaque keyWrap : BitVec 256 → BitVec 256 → List Byte
opaque keyUnwrap : BitVec 256 → List Byte → Option (BitVec 256)
/-- SHA-384 of some bytes (R641, R650). -/
opaque sha384 : List Byte → List Byte
/-- An ECDSA P-384 signature verifies: public key, hash and signature (R641, R650). -/
opaque ecdsa : List Byte → List Byte → List Byte → Bool
/-- The unique identifier of the part, burnt at manufacture (R640). -/
opaque uid : BitVec 64
/-- The silicon stepping (Table 1.6). -/
opaque stepping : BitVec 8
/-- An alarm whose thresholds cross (R708), and whether a window of a WIN_US that does not divide 1,000,000 closes (R703). -/
opaque freeAlarm : Nat → Bool
opaque freeClose : Nat → Bool
/-- How often an event of Table 17.4 occurs that depends on what State does not hold, and the class of a slot that issues nothing
(R693, R701), before it is brought into its range. -/
opaque freeEvents : Nat → Nat
opaque freeClass : Nat → Nat
/-- A draw of a deterministic random bit generator (R488, R644). -/
opaque drbg : Nat → Nat
/-- How many bytes of a frame had left when its key was erased (Table 11.4). -/
opaque freeCut : Nat → Nat

/-- The phase of the crossings to rc and back of a reservoir access (Table 7.6), before it is brought into its range. -/
opaque rcPhase : Nat → Nat

/-- The ε of a receive or transmit timestamp (R462, R463), before it is brought below one sw period. -/
opaque stampEps : Nat → Nat

/-- The result of a division by zero, or of the most negative number by −1, of a Rilonef-C core, by operation (0 to 3 for
DIV, DIVU, REM and REMU) and operands: the spec gives none. -/
opaque coreDivide : Nat → BitVec 64 → BitVec 64 → BitVec 64
/-- The level that RFX returns to while STATUS.PREV holds the encoding that Table 13.6 does not give, and that encoding's
reading, before it is brought into range (log 52). -/
opaque freePrev : Nat → Nat

/-- The way of a full set whose line a fill replaces (R553), before it is brought into range. -/
opaque freeWay : Nat → Nat
/-- Whether an instruction fetch finds what an L1 data cache of its die holds dirty: R559 keeps the data caches coherent alone. -/
opaque freeSnoop : Nat → Bool

/-- The source number that IRQ.CLAIM returns for a core's timer (0) and its software interrupt (1) (R577, R579). -/
opaque localIrq : Nat → Nat

/-! Parts of a burst that the applicable standards lay out (R242 to R245). -/

/-- The 8-byte header of an XGEM frame of an Alloc-ID entry: payload length, Key Index and LF. -/
opaque xgemHeader : Nat → Nat → Nat → Bool → List Byte
/-- An idle XGEM frame of n bytes in all. -/
opaque idleFrame : Nat → List Byte
/-- The FS header of a burst of an ONU-ID. -/
opaque fsHeader : Nat → List Byte
/-- The FS trailer over the bytes of a burst so far. -/
opaque fsTrailer : List Byte → List Byte
/-- The four bytes of a DBRu that reports n granules. -/
opaque dbru : Nat → List Byte
/-- FEC parity over a burst body at a RATE. -/
opaque fecBytes : Nat → List Byte → List Byte

end Sys2Proof.Config
end

