-- ==== Sys2Proof/Machine/RegTable.lean ====
section
/-!
DEFINITION. The register table: every register of Table 19.3, in the order R759 lays it out, each with its fields
(bits, access code, reset value, legal range) from the field tables of the chapters. A register's identity is its
block CODE times 256 plus its ordinal in that order. The places of the fields of TIME.COMMIT, TIME.TOD_CFG,
TIME.TOD_TX, TIME.TOD_STAT, TIME.TOD_RX_TS, TIME.PPS_IN_STAT, CTL.RESET_VEC, CIPH.LA_STAT and CIPH.LA_ERR that the
spec names but does not place are DESIGN CHOICE (log 4).
-/
namespace Sys2Proof.Machine

/-- One field of a register (R8): its bits, its access code, its Reset column and, where its table marks encodings
reserved (R13), the least and greatest legal value. -/
structure FieldDesc where
  hi : Nat
  lo : Nat
  acc : Acc
  reset : Nat
  min : Nat
  max : Nat
  deriving DecidableEq, Repr

/-- Which dies, and which index values on them, hold an instance of a register (R740). -/
inductive Own where
  | d0 | line | course | all | one | lc | src | rsn | chan | port | port4 | port16 | link | cls | weir | gate | px | dma | unit
  | dies | chans | ports | dies16 | reqs | srcs | irqs
  deriving DecidableEq, Repr

/-- One register of Table 19.3: its fields, its number of words (R759 step 3), the record group it belongs to with the
number of records (R759 step 4; 1 and group 0 outside any record), and its owner. -/
structure RegDesc where
  size : Nat
  recs : Nat
  own : Own
  mon : Bool
  fields : List FieldDesc
  deriving DecidableEq, Repr

/-- A named field: its register's identity and its bits. -/
structure Fld where
  reg : Nat
  hi : Nat
  lo : Nat
  deriving DecidableEq, Repr

namespace RegTable

/-- A field with no reserved encoding. -/
def fd (hi lo : Nat) (acc : Acc) (reset : Nat) : FieldDesc := ⟨hi, lo, acc, reset, 0, 2 ^ (hi + 1 - lo) - 1⟩
/-- A field whose legal values run from min to max. -/
def fr (hi lo : Nat) (acc : Acc) (reset min max : Nat) : FieldDesc := ⟨hi, lo, acc, reset, min, max⟩

/-- HW registers 0 to 11. -/
def blkHW0 : List RegDesc :=
  [ /- ID (R26) -/ ⟨1, 1, .d0, true, [fd 31 24 .ro 0x64, fd 23 16 .ro 0x80, fd 15 8 .ro 0]⟩,
    /- DIE_MAP (R27) -/ ⟨1, 1, .d0, true, [fd 23 16 .ro 0, fd 15 8 .ro 0, fd 7 0 .ro 0xff]⟩,
    /- ABSENT_INFO (R32) -/ ⟨1, 1, .d0, true, [fd 31 31 .w1c 0, fd 27 24 .ro 0, fd 23 20 .ro 0, fd 16 16 .ro 0, fd 15 8 .ro 0, fd 7 0 .ro 0]⟩,
    /- ABSENT_ADDR (R32) -/ ⟨1, 1, .d0, true, [fd 31 0 .ro 0]⟩,
    /- ABSENT_DROP (R33) -/ ⟨1, 1, .d0, true, [fd 31 0 .rc 0]⟩,
    /- OPMODE (R46) -/ ⟨1, 1, .d0, true, [fd 31 28 .ro 0, fd 27 24 .ro 0, fd 23 16 .ro 0, fd 8 8 .w1c 0, fd 6 4 .ro 0, fd 2 0 .ro 0]⟩,
    /- BOOT_CTL (R45) -/ ⟨1, 1, .d0, true, [fd 0 0 .wo 0]⟩,
    /- BOOT_STAT (R643) -/ ⟨1, 1, .d0, true, [fd 31 29 .ro 0, fd 28 28 .ro 0, fd 27 24 .ro 0, fd 23 20 .ro 0, fd 13 8 .ro 0, fd 1 0 .ro 0]⟩,
    /- RST_CTL (R627) -/ ⟨1, 1, .d0, true, [fd 1 1 .wo 0, fd 0 0 .wo 0]⟩,
    /- RST_CAUSE (R628) -/ ⟨1, 1, .d0, true, [fd 7 0 .ro 1]⟩,
    /- FUSE_CMD (R639) -/ ⟨1, 1, .d0, true, [fd 31 31 .wo 0, fd 30 30 .ro 0, fd 29 27 .ro 0, fr 26 24 .rw 0 0 6, fd 23 16 .rw 0, fd 15 0 .wo 0]⟩,
    /- FUSE_DATA (R640) -/ ⟨12, 1, .d0, true, [fd 31 0 .rw 0]⟩ ]

/-- HW registers 12 to 20. -/
def blkHW1 : List RegDesc :=
  [ /- LC_STAT (R640) -/ ⟨1, 1, .d0, true, [fd 21 20 .ro 0, fd 19 16 .ro 0, fd 13 8 .ro 0, fd 1 0 .ro 0]⟩,
    /- UID_HI (R640) -/ ⟨1, 1, .d0, true, [fd 31 0 .ro 0]⟩,
    /- UID_LO (R640) -/ ⟨1, 1, .d0, true, [fd 31 0 .ro 0]⟩,
    /- SEC_EVT (R655) -/ ⟨1, 1, .d0, true, [fd 1 1 .w1c 0, fd 0 0 .w1c 0]⟩,
    /- SEC_IEN (R655) -/ ⟨1, 1, .d0, true, [fd 0 0 .rw 0]⟩,
    /- SRGN_BASE (R655) -/ ⟨8, 1, .d0, true, [fd 27 0 .rw 0]⟩,
    /- SRGN_CTL (R655) -/ ⟨8, 1, .d0, true, [fd 31 31 .rw 0, fd 30 30 .rw 0, fd 9 0 .rw 0]⟩,
    /- WAKE_SOURCE (R676) -/ ⟨8, 1, .dies, true, [fd 31 24 .ro 0, fd 19 16 .ro 0, fd 7 0 .ro 0]⟩,
    /- PAD_CFG (R726) -/ ⟨12, 1, .d0, true, [fd 5 4 .rw 2, fd 3 3 .rw 1]⟩ ]

/-- Block HW, CODE 0x00. -/
def blkHW : List RegDesc := blkHW0 ++ blkHW1

/-- KILN registers 0 to 4. -/
def blkKILN0 : List RegDesc :=
  [ /- CMD (R646) -/ ⟨1, 1, .d0, true, [fd 31 31 .wo 0, fr 30 28 .rw 0 0 4, fr 27 26 .rw 1 1 3, fd 25 25 .rw 0]⟩,
    /- STAT (R646) -/ ⟨1, 1, .d0, true, [fd 31 31 .ro 0, fd 30 30 .ro 0, fd 29 28 .ro 0, fd 27 27 .ro 0, fd 26 24 .ro 0]⟩,
    /- DIV (R645) -/ ⟨1, 1, .d0, true, [fd 31 0 .rw 0]⟩,
    /- BLOB (R645) -/ ⟨12, 1, .d0, true, [fd 31 0 .rw 0]⟩,
    /- KEYIN (R646) -/ ⟨8, 1, .d0, true, [fd 31 0 .wo 0]⟩ ]

/-- Block KILN, CODE 0x01. -/
def blkKILN : List RegDesc := blkKILN0

/-- PWR registers 0 to 11. -/
def blkPWR0 : List RegDesc :=
  [ /- RAIL_CFG (R629) -/ ⟨24, 1, .d0, true, [fd 7 4 .ro 0, fd 3 2 .ro 0, fd 1 0 .ro 0]⟩,
    /- RAIL_STAGE (R634) -/ ⟨24, 1, .d0, true, [fd 7 4 .rw 0, fd 3 2 .rw 0, fd 1 0 .rw 0]⟩,
    /- SEQ_STAT (R634) -/ ⟨1, 1, .d0, true, [fd 31 31 .ro 0]⟩,
    /- FAULT (R632) -/ ⟨1, 1, .d0, true, [fd 15 8 .ro 0, fd 7 6 .ro 0, fd 4 0 .ro 0]⟩,
    /- PMB_CFG (R635) -/ ⟨1, 1, .d0, true, [fd 31 31 .rw 0, fd 30 30 .rw 0]⟩,
    /- PMB_CMD (R635) -/ ⟨1, 1, .d0, true, [fd 31 31 .wo 0, fd 30 30 .ro 0, fd 29 28 .ro 0, fr 27 25 .rw 0 0 4, fd 22 16 .rw 0, fd 15 8 .rw 0]⟩,
    /- PMB_DATA (R635) -/ ⟨1, 1, .d0, true, [fd 15 0 .rw 0]⟩,
    /- AVS_CFG (R637) -/ ⟨1, 1, .d0, true, [fd 31 31 .rw 0, fd 30 24 .rw 0, fd 23 16 .rw 0x20, fd 15 12 .rw 4, fr 11 8 .rw 1 1 15, fr 7 0 .rw 10 1 255]⟩,
    /- AVS_LIM (R637) -/ ⟨1, 1, .d0, true, [fr 25 16 .rw 0x28a 650 850, fr 9 0 .rw 0x352 650 850]⟩,
    /- AVS_STAT (R637) -/ ⟨1, 1, .d0, true, [fd 31 31 .ro 0, fd 23 16 .ro 0, fd 9 0 .ro 0]⟩,
    /- DIE_CFG (R662) -/ ⟨8, 1, .dies, true, [fd 31 31 .rw 0, fr 30 28 .rw 1 0 3, fd 27 16 .rw 0x19, fd 11 0 .rw 0x19]⟩,
    /- DIE_STAT (R662) -/ ⟨8, 1, .dies, true, [fd 31 29 .ro 0, fd 28 28 .ro 0, fd 27 24 .ro 0, fd 23 0 .ro 0xffffff]⟩ ]

/-- PWR registers 12 to 23. -/
def blkPWR1 : List RegDesc :=
  [ /- DIE_CTL (R676) -/ ⟨8, 1, .dies, true, [fd 0 0 .wo 0]⟩,
    /- LAST_EVENT (R677) -/ ⟨8, 1, .dies, true, [fd 10 8 .ro 0, fd 3 0 .ro 0]⟩,
    /- RET_LOST (R681) -/ ⟨8, 1, .dies, true, [fd 7 0 .w1c 0]⟩,
    /- PORT_WAKE (R668) -/ ⟨64, 1, .ports, true, [fr 1 0 .rw 0 0 2]⟩,
    /- MGT_WAKE (R671) -/ ⟨1, 1, .d0, true, [fr 1 0 .rw 0 0 2]⟩,
    /- PAT_DATA (R670) -/ ⟨128, 1, .dies16, true, [fd 31 0 .rw 0]⟩,
    /- PAT_MASK (R670) -/ ⟨128, 1, .dies16, true, [fd 31 0 .rw 0]⟩,
    /- PAT_COMMIT (R671) -/ ⟨8, 1, .dies, true, [fd 0 0 .wo 0]⟩,
    /- PS_CFG (R672) -/ ⟨4, 1, .chans, true, [fd 31 30 .rw 0, fr 23 16 .rw 4 1 255, fr 11 0 .rw 0x32 1 4095]⟩,
    /- PS_TMR (R672) -/ ⟨4, 1, .chans, true, [fr 31 16 .rw 0x140 1 65535, fr 15 0 .rw 0x10 1 65535]⟩,
    /- PS_COMMIT (R672) -/ ⟨4, 1, .chans, true, [fd 0 0 .wo 0]⟩,
    /- PS_CTL (R673) -/ ⟨4, 1, .chans, true, [fd 31 31 .wo 0, fd 30 30 .wo 0]⟩ ]

/-- PWR registers 24 to 35. -/
def blkPWR2 : List RegDesc :=
  [ /- PS_STAT (R675) -/ ⟨4, 1, .chans, true, [fd 31 30 .ro 0, fd 29 29 .ro 1, fd 28 28 .ro 1, fd 7 7 .w1c 0, fd 6 6 .w1c 0, fd 5 5 .w1c 0, fd 4 4 .w1c 0, fd 3 3 .w1c 0, fd 2 2 .w1c 0]⟩,
    /- PS_IEN (R675) -/ ⟨4, 1, .chans, true, [fd 7 2 .rw 0]⟩,
    /- OFF_CTL (R683) -/ ⟨1, 1, .d0, true, [fd 31 31 .wo 0, fd 30 30 .wo 0, fd 15 0 .wo 0]⟩,
    /- OFF_TMR (R684) -/ ⟨1, 1, .d0, true, [fd 31 0 .rw 0]⟩,
    /- THERM_STAT (R690) -/ ⟨1, 1, .d0, true, [fd 31 31 .w1c 0, fd 30 30 .ro 0, fd 2 0 .ro 0]⟩,
    /- CNT_SLEEP (R664) -/ ⟨8, 1, .dies, true, [fd 31 0 .rc 0]⟩,
    /- CNT_DEEP (R664) -/ ⟨8, 1, .dies, true, [fd 31 0 .rc 0]⟩,
    /- CNT_ABORT (R677) -/ ⟨8, 1, .dies, true, [fd 31 0 .rc 0]⟩,
    /- CNT_HOLD_DROP (R666) -/ ⟨8, 1, .dies, true, [fd 31 0 .rc 0]⟩,
    /- CNT_PAT_MISS (R668) -/ ⟨8, 1, .dies, true, [fd 31 0 .rc 0]⟩,
    /- CNT_WAKE_DROP (R668) -/ ⟨64, 1, .ports, true, [fd 31 0 .rc 0]⟩,
    /- CNT_MGT_WAKE_DROP (R671) -/ ⟨1, 1, .d0, true, [fd 31 0 .rc 0]⟩ ]

/-- PWR registers 36 to 36. -/
def blkPWR3 : List RegDesc :=
  [ /- CNT_PS_GRANT (R674) -/ ⟨4, 1, .chans, true, [fd 31 0 .rc 0]⟩ ]

/-- Block PWR, CODE 0x02. -/
def blkPWR : List RegDesc := blkPWR0 ++ blkPWR1 ++ blkPWR2 ++ blkPWR3

/-- CLK registers 0 to 2. -/
def blkCLK0 : List RegDesc :=
  [ /- SSC_CFG (R69) -/ ⟨1, 1, .d0, false, [fd 31 31 .rw 1, fd 9 8 .rw 1, fr 3 0 .rw 10 0 10]⟩,
    /- SSC_POS (R758) -/ ⟨1, 1, .d0, false, [fd 9 0 .ro 0]⟩,
    /- STATUS (R71) -/ ⟨1, 1, .d0, false, [fd 23 16 .ro 0, fd 15 12 .ro 0, fd 11 8 .ro 0, fd 0 0 .ro 0]⟩ ]

/-- Block CLK, CODE 0x03. -/
def blkCLK : List RegDesc := blkCLK0

/-- TIME registers 0 to 11. -/
def blkTIME0 : List RegDesc :=
  [ /- CFG (R75) -/ ⟨1, 1, .d0, false, [fd 31 31 .rw 0, fd 30 30 .rw 0, fd 25 24 .rw 0]⟩,
    /- STATUS (R77) -/ ⟨1, 1, .d0, false, [fd 31 31 .ro 0, fd 30 30 .ro 0, fd 29 29 .w1c 0, fd 28 28 .w1c 0]⟩,
    /- INCR (R78) -/ ⟨1, 1, .d0, false, [fd 31 28 .rw 2, fd 27 0 .rw 0]⟩,
    /- ADJ_SEC_HI (R82) -/ ⟨1, 1, .d0, false, [fd 15 0 .rw 0]⟩,
    /- ADJ_SEC_LO (R82) -/ ⟨1, 1, .d0, false, [fd 31 0 .rw 0]⟩,
    /- ADJ_NS (R82) -/ ⟨1, 1, .d0, false, [fd 29 0 .rw 0]⟩,
    /- ADJ_CTL (R81) -/ ⟨1, 1, .d0, false, [fr 1 0 .rw 0 0 2]⟩,
    /- COMMIT (R79) -/ ⟨1, 1, .d0, false, [fd 0 0 .wo 0]⟩,
    /- SNAP (R84) -/ ⟨1, 1, .d0, false, [fd 31 31 .wo 0, fd 0 0 .ro 0]⟩,
    /- SNAP_SEC_HI (R84) -/ ⟨1, 1, .d0, false, [fd 15 0 .ro 0]⟩,
    /- SNAP_SEC_LO (R84) -/ ⟨1, 1, .d0, false, [fd 31 0 .ro 0]⟩,
    /- SNAP_NS (R84) -/ ⟨1, 1, .d0, false, [fd 29 0 .ro 0]⟩ ]

/-- TIME registers 12 to 23. DONE of TOD_CAP_STAT and VALID of PPS_IN_STAT are W1C (DESIGN CHOICE, log 90). -/
def blkTIME1 : List RegDesc :=
  [ /- SNAP_FRAC (R84) -/ ⟨1, 1, .d0, false, [fd 15 0 .ro 0]⟩,
    /- TOD_CAP_CTL (R85) -/ ⟨1, 1, .d0, false, [fd 31 31 .rw 0, fd 29 0 .rw 0]⟩,
    /- TOD_CAP_STAT (R85) -/ ⟨1, 1, .d0, false, [fd 31 31 .w1c 0]⟩,
    /- TOD_CAP_SEC_HI (R85) -/ ⟨1, 1, .d0, false, [fd 15 0 .ro 0]⟩,
    /- TOD_CAP_SEC_LO (R85) -/ ⟨1, 1, .d0, false, [fd 31 0 .ro 0]⟩,
    /- TOD_CAP_NS (R85) -/ ⟨1, 1, .d0, false, [fd 29 0 .ro 0]⟩,
    /- TOD_CAP_FRAC (R85) -/ ⟨1, 1, .d0, false, [fd 15 0 .ro 0]⟩,
    /- PPS_CFG (R87) -/ ⟨1, 1, .d0, false, [fd 31 31 .rw 0, fd 30 30 .rw 0, fd 27 20 .rw 0, fr 19 0 .rw 0x186a0 1 999999]⟩,
    /- PPS_IN_SEC_HI (R89) -/ ⟨1, 1, .d0, false, [fd 15 0 .ro 0]⟩,
    /- PPS_IN_SEC_LO (R89) -/ ⟨1, 1, .d0, false, [fd 31 0 .ro 0]⟩,
    /- PPS_IN_NS (R89) -/ ⟨1, 1, .d0, false, [fd 29 0 .ro 0]⟩,
    /- PPS_IN_STAT (R90) -/ ⟨1, 1, .d0, false, [fd 31 31 .w1c 0, fd 7 0 .ro 0]⟩ ]

/-- TIME registers 24 to 28. TX_SKIP is 16 bits, RO and wraps; RX_OVF is W1C; RX_TS holds nanoseconds (DESIGN CHOICE, log 90). -/
def blkTIME2 : List RegDesc :=
  [ /- TOD_CFG (R91) -/ ⟨1, 1, .d0, false, [fd 31 16 .rw 0, fd 15 0 .rw 0]⟩,
    /- TOD_TX (R92) -/ ⟨1, 1, .d0, false, [fd 31 31 .rw 0, fd 6 0 .rw 0]⟩,
    /- TOD_STAT (R92) -/ ⟨1, 1, .d0, false, [fd 31 31 .w1c 0, fd 15 0 .ro 0]⟩,
    /- TOD_RX_TS (R93) -/ ⟨1, 1, .d0, false, [fd 29 0 .ro 0]⟩,
    /- TOD_TX_BUF (R92) -/ ⟨16, 1, .d0, false, [fd 31 0 .rw 0]⟩ ]

/-- Block TIME, CODE 0x04. -/
def blkTIME : List RegDesc := blkTIME0 ++ blkTIME1 ++ blkTIME2

/-- FRZ registers 0 to 4. -/
def blkFRZ0 : List RegDesc :=
  [ /- CTL (R94) -/ ⟨1, 1, .d0, false, [fd 0 0 .rw 0]⟩,
    /- STATUS (R112) -/ ⟨1, 1, .d0, false, [fd 31 31 .ro 0, fd 30 30 .ro 0, fd 29 29 .ro 0, fd 25 25 .ro 0, fd 24 24 .ro 0, fd 23 16 .ro 0, fd 15 8 .ro 0, fd 7 0 .ro 0]⟩,
    /- CHAIN_SEL (R104) -/ ⟨1, 1, .d0, false, [fd 31 28 .rw 0, fr 27 25 .rw 0 0 6, fd 15 0 .rw 0]⟩,
    /- CHAIN_LEN (R104) -/ ⟨1, 1, .d0, false, [fd 23 0 .ro 0]⟩,
    /- CHAIN_POS (R104) -/ ⟨1, 1, .d0, false, [fd 23 0 .ro 0]⟩ ]

/-- Block FRZ, CODE 0x05. -/
def blkFRZ : List RegDesc := blkFRZ0

/-- LANE registers 0 to 11. -/
def blkLANE0 : List RegDesc :=
  [ /- PRX_CFG (R124) -/ ⟨4, 1, .chan, false, [fd 31 31 .rw 0, fd 30 30 .rw 0, fd 29 29 .rw 0, fd 28 28 .rw 0]⟩,
    /- PRX_STAT (R125) -/ ⟨4, 1, .chan, false, [fd 31 31 .ro 0, fd 30 30 .ro 0, fd 29 29 .ro 0, fd 28 28 .w1c 0]⟩,
    /- PRX_EQ_CTL (R125) -/ ⟨4, 1, .chan, false, [fd 31 31 .rw 1, fd 27 24 .rw 6]⟩,
    /- PRX_FFE0 (R126) -/ ⟨4, 1, .chan, false, [fd 31 24 .rw 0, fd 23 16 .rw 0, fd 15 8 .rw 0x40, fd 7 0 .rw 0]⟩,
    /- PRX_FFE1 (R126) -/ ⟨4, 1, .chan, false, [fd 31 24 .rw 0, fd 23 16 .rw 0, fd 15 8 .rw 0]⟩,
    /- PRX_DFE (R126) -/ ⟨4, 1, .chan, false, [fd 31 24 .rw 0, fd 23 16 .rw 0, fd 15 8 .rw 0]⟩,
    /- PRX_EQ_COMMIT (R126) -/ ⟨4, 1, .chan, false, [fd 0 0 .wo 0]⟩,
    /- PTX_CFG (R130) -/ ⟨4, 1, .chan, false, [fd 31 31 .rw 0, fd 30 29 .rw 0, fd 28 28 .rw 1, fd 27 27 .rw 0, fd 26 26 .rw 0, fr 25 24 .rw 0 0 2]⟩,
    /- PTX_EQ (R120) -/ ⟨4, 1, .chan, false, [fd 31 31 .ro 0, fd 29 24 .rw 0x3f, fd 20 16 .rw 0, fd 11 8 .rw 0]⟩,
    /- SUB_CFG (R134) -/ ⟨64, 1, .port, false, [fd 31 31 .rw 0, fr 30 28 .rw 0 0 4, fd 27 27 .rw 0, fd 26 26 .rw 0, fd 25 25 .rw 0, fd 24 24 .rw 0]⟩,
    /- SUB_TX_EQ (R120) -/ ⟨64, 1, .port, false, [fd 31 31 .ro 0, fd 29 24 .rw 0x30, fd 20 16 .rw 8, fd 11 8 .rw 0]⟩,
    /- MGT_CFG (R134) -/ ⟨1, 1, .d0, false, [fd 31 31 .rw 0, fr 30 28 .rw 0 0 1, fd 27 27 .rw 0, fd 26 26 .rw 0, fd 25 25 .rw 0, fd 24 24 .rw 0]⟩ ]

/-- LANE registers 12 to 20. -/
def blkLANE1 : List RegDesc :=
  [ /- MGT_TX_EQ (R120) -/ ⟨1, 1, .d0, false, [fd 31 31 .ro 0, fd 29 24 .rw 0x30, fd 20 16 .rw 8, fd 11 8 .rw 0]⟩,
    /- ESCAN_CTL (R150) -/ ⟨1, 1, .all, false, [fd 31 31 .wo 0, fd 30 30 .wo 0, fd 29 22 .rw 0, fd 21 16 .rw 0, fd 15 8 .rw 0, fr 4 0 .rw 14 0 24]⟩,
    /- ESCAN_STAT (R151) -/ ⟨1, 1, .all, false, [fd 31 31 .ro 0, fd 30 30 .w1c 0, fd 29 29 .w1c 0, fd 28 26 .ro 0]⟩,
    /- ESCAN_ERR (R151) -/ ⟨1, 1, .all, false, [fd 31 0 .ro 0]⟩,
    /- OPT_I2C_CFG (R154) -/ ⟨1, 1, .line, false, [fd 31 31 .rw 0, fd 30 30 .rw 0, fd 29 29 .rw 0, fr 7 0 .rw 0x19 1 255]⟩,
    /- OPT_I2C_CMD (R155) -/ ⟨1, 1, .line, false, [fd 31 31 .wo 0, fd 30 30 .ro 0, fd 29 28 .ro 0, fd 27 27 .rw 0, fr 23 20 .rw 1 1 8, fd 18 12 .rw 0, fd 7 0 .rw 0]⟩,
    /- OPT_I2C_STAT (R157) -/ ⟨1, 1, .line, false, [fd 31 31 .w1c 0, fd 30 30 .w1c 0]⟩,
    /- OPT_I2C_DATA0 (R155) -/ ⟨1, 1, .line, false, [fd 31 0 .rw 0]⟩,
    /- OPT_I2C_DATA1 (R155) -/ ⟨1, 1, .line, false, [fd 31 0 .rw 0]⟩ ]

/-- Block LANE, CODE 0x06. -/
def blkLANE : List RegDesc := blkLANE0 ++ blkLANE1

/-- DLINK registers 0 to 2. -/
def blkDLINK0 : List RegDesc :=
  [ /- STATUS (R143) -/ ⟨25, 1, .link, false, [fd 31 31 .ro 0, fd 30 30 .ro 0, fd 29 28 .ro 2, fd 27 24 .ro 0, fd 20 16 .ro 8, fd 15 8 .ro 0]⟩,
    /- TX_EQ (R120) -/ ⟨25, 1, .link, false, [fd 31 31 .ro 0, fd 29 24 .rw 0x2c, fd 20 16 .rw 12, fd 11 8 .rw 3]⟩,
    /- DROP (R146) -/ ⟨25, 1, .link, false, [fd 31 0 .rc 0]⟩ ]

/-- Block DLINK, CODE 0x07. -/
def blkDLINK : List RegDesc := blkDLINK0

/-- PFR registers 0 to 11. -/
def blkPFR0 : List RegDesc :=
  [ /- SYNC_CFG (R166) -/ ⟨1, 4, .chan, false, [fr 31 24 .rw 8 1 255, fr 18 16 .rw 2 0 4, fr 11 8 .rw 4 1 15, fr 3 0 .rw 2 1 15]⟩,
    /- SYNC_STAT (R166) -/ ⟨1, 4, .chan, false, [fd 31 30 .ro 0, fd 29 26 .ro 0, fd 25 25 .ro 0, fd 24 24 .ro 0, fd 23 16 .ro 0]⟩,
    /- SFC_LO (R170) -/ ⟨1, 4, .chan, false, [fd 31 0 .ro 0]⟩,
    /- SFC_HI (R170) -/ ⟨1, 4, .chan, false, [fd 18 0 .ro 0]⟩,
    /- OC_LO (R171) -/ ⟨1, 4, .chan, false, [fd 31 0 .ro 0]⟩,
    /- OC_HI (R171) -/ ⟨1, 4, .chan, false, [fd 18 0 .ro 0]⟩,
    /- DEF_RAW (R174) -/ ⟨1, 4, .chan, false, [fd 5 0 .ro 0]⟩,
    /- DEF (R174) -/ ⟨1, 4, .chan, false, [fd 5 0 .ro 0]⟩,
    /- DEF_IEN (R174) -/ ⟨1, 4, .chan, false, [fd 5 0 .rw 0]⟩,
    /- DEF_LATCH (R174) -/ ⟨1, 4, .chan, false, [fd 17 17 .w1c 0, fd 16 16 .w1c 0, fd 13 8 .w1c 0, fd 5 0 .w1c 0]⟩,
    /- SFSD_CFG (R183) -/ ⟨1, 4, .chan, false, [fd 31 16 .rw 0x6c0, fr 15 0 .rw 0x1f40 1 65535]⟩,
    /- SF_SET (R183) -/ ⟨1, 4, .chan, false, [fd 31 0 .rw 0x17bb000]⟩ ]

/-- PFR registers 12 to 21. -/
def blkPFR1 : List RegDesc :=
  [ /- SF_CLR (R183) -/ ⟨1, 4, .chan, false, [fd 31 0 .rw 0x25f800]⟩,
    /- SD_SET (R183) -/ ⟨1, 4, .chan, false, [fd 31 0 .rw 0x5eec00]⟩,
    /- SD_CLR (R183) -/ ⟨1, 4, .chan, false, [fd 31 0 .rw 0x97e00]⟩,
    /- UCW_CFG (R183) -/ ⟨1, 4, .chan, false, [fr 15 8 .rw 8 1 255, fr 7 0 .rw 2 1 255]⟩,
    /- SFSD_COMMIT (R183) -/ ⟨1, 4, .chan, false, [fd 0 0 .wo 0]⟩,
    /- PM_CFG (R190) -/ ⟨1, 4, .chan, false, [fd 31 31 .rw 0, fd 30 30 .rw 0, fd 29 29 .rw 0, fd 28 28 .rw 0, fr 16 0 .rw 0 0 86399]⟩,
    /- PM_SES (R189) -/ ⟨1, 4, .chan, false, [fd 31 16 .rw 0x64, fd 15 0 .rw 8]⟩,
    /- PM_SEL (R199) -/ ⟨1, 4, .chan, false, [fd 31 31 .wo 0, fd 16 16 .rw 0, fr 5 0 .rw 0 0 32]⟩,
    /- PM_STAT (R201) -/ ⟨1, 4, .chan, false, [fd 31 31 .w1c 0, fd 30 30 .w1c 0]⟩,
    /- PM_W (R199) -/ ⟨13, 4, .chan, false, [fd 31 0 .ro 0]⟩ ]

/-- Block PFR, CODE 0x08. -/
def blkPFR : List RegDesc := blkPFR0 ++ blkPFR1

/-- PTC registers 0 to 11. -/
def blkPTC0 : List RegDesc :=
  [ /- ACT_CTL (R211) -/ ⟨1, 4, .chan, false, [fd 31 31 .rw 0, fd 30 30 .wo 0, fr 26 24 .rw 0 0 6]⟩,
    /- ACT_STAT (R208) -/ ⟨1, 4, .chan, false, [fd 31 29 .ro 0, fd 28 28 .ro 0, fd 8 8 .w1c 0, fd 7 7 .w1c 0, fd 6 6 .w1c 0, fd 5 5 .w1c 0, fd 4 4 .w1c 0, fd 3 3 .w1c 0, fd 2 2 .w1c 0, fd 1 1 .w1c 0, fd 0 0 .w1c 0]⟩,
    /- ACT_IEN (R214) -/ ⟨1, 4, .chan, false, [fd 8 0 .rw 0]⟩,
    /- ACT_TMR (R212) -/ ⟨1, 4, .chan, false, [fr 31 16 .rw 0x2710 1 65535, fr 15 0 .rw 0x3e8 1 65535]⟩,
    /- ONU_ID (R214) -/ ⟨1, 4, .chan, false, [fd 31 31 .rw 0, fd 9 0 .rw 0]⟩,
    /- SN_CFG (R218) -/ ⟨1, 4, .chan, false, [fd 29 16 .rw 0x3ff, fd 15 0 .rw 0x2473]⟩,
    /- RSP_CFG (R219) -/ ⟨1, 4, .chan, false, [fd 31 16 .rw 0x1a94, fd 11 0 .rw 0]⟩,
    /- EQD (R219) -/ ⟨1, 4, .chan, false, [fd 23 0 .rw 0]⟩,
    /- EQD_COMMIT (R222) -/ ⟨1, 4, .chan, false, [fd 0 0 .wo 0]⟩,
    /- PLOAMU_DATA (R215) -/ ⟨12, 4, .chan, false, [fd 31 0 .rw 0]⟩,
    /- PLOAMU_PUSH (R215) -/ ⟨1, 4, .chan, false, [fd 0 0 .wo 0]⟩,
    /- PLOAMU_STAT (R215) -/ ⟨1, 4, .chan, false, [fd 31 31 .w1c 0, fd 3 0 .ro 0]⟩ ]

/-- PTC registers 12 to 23. -/
def blkPTC1 : List RegDesc :=
  [ /- PLOAMU_DEF (R215) -/ ⟨1, 4, .chan, false, [fd 0 0 .wo 0]⟩,
    /- PLOAMD_STAT (R224) -/ ⟨1, 4, .chan, false, [fd 31 26 .ro 0, fd 15 0 .rc 0]⟩,
    /- PLOAMD_DATA (R224) -/ ⟨12, 4, .chan, false, [fd 31 0 .ro 0]⟩,
    /- PLOAMD_POP (R224) -/ ⟨1, 4, .chan, false, [fd 0 0 .wo 0]⟩,
    /- PLOAMD_IEN (R224) -/ ⟨1, 4, .chan, false, [fd 0 0 .rw 0]⟩,
    /- OMCI_CFG (R225) -/ ⟨1, 4, .chan, false, [fd 3 0 .rw 0]⟩,
    /- RX_CFG (R232) -/ ⟨1, 4, .chan, false, [fr 13 0 .rw 0x2400 64 16383]⟩,
    /- CNT_HEC_LOSS (R227) -/ ⟨1, 4, .chan, false, [fd 31 0 .rc 0]⟩,
    /- CNT_ERR_CW (R228) -/ ⟨1, 4, .chan, false, [fd 31 0 .rc 0]⟩,
    /- CNT_PID_MISS (R229) -/ ⟨1, 4, .chan, false, [fd 31 0 .rc 0]⟩,
    /- CNT_ENC_REQ (R230) -/ ⟨1, 4, .chan, false, [fd 31 0 .rc 0]⟩,
    /- CNT_BAD_KEYIDX (R230) -/ ⟨1, 4, .chan, false, [fd 31 0 .rc 0]⟩ ]

/-- PTC registers 24 to 28. -/
def blkPTC2 : List RegDesc :=
  [ /- CNT_REASM_TMO (R232) -/ ⟨1, 4, .chan, false, [fd 31 0 .rc 0]⟩,
    /- CNT_OVERSIZE (R232) -/ ⟨1, 4, .chan, false, [fd 31 0 .rc 0]⟩,
    /- PID_STAGE0 (R231) -/ ⟨1, 1, .line, false, [fd 31 0 .rw 0]⟩,
    /- PID_STAGE1 (R231) -/ ⟨1, 1, .line, false, [fd 31 31 .rw 0, fd 30 29 .rw 0, fr 28 27 .rw 0 0 2, fd 26 26 .rw 0, fd 23 12 .rw 0]⟩,
    /- PID_WR (R231) -/ ⟨1, 1, .line, false, [fd 31 31 .wo 0, fd 30 30 .wo 0, fd 11 0 .rw 0]⟩ ]

/-- Block PTC, CODE 0x09. -/
def blkPTC : List RegDesc := blkPTC0 ++ blkPTC1 ++ blkPTC2

/-- EST registers 0 to 11. -/
def blkEST0 : List RegDesc :=
  [ /- ALLOC_STAGE (R239) -/ ⟨1, 1, .line, false, [fd 31 31 .rw 0, fd 30 29 .rw 0, fd 28 28 .rw 0, fd 13 0 .rw 0]⟩,
    /- ALLOC_WR (R239) -/ ⟨1, 1, .line, false, [fd 31 31 .wo 0, fd 30 30 .wo 0, fd 9 0 .rw 0]⟩,
    /- PROF_CFG (R240) -/ ⟨4, 4, .chan, false, [fd 31 31 .rw 0, fd 30 30 .rw 0, fd 7 0 .rw 0]⟩,
    /- PROF_PRE_HI (R240) -/ ⟨4, 4, .chan, false, [fd 31 0 .rw 0]⟩,
    /- PROF_PRE_LO (R240) -/ ⟨4, 4, .chan, false, [fd 31 0 .rw 0]⟩,
    /- PROF_DEL_HI (R240) -/ ⟨4, 4, .chan, false, [fd 31 0 .rw 0]⟩,
    /- PROF_DEL_LO (R240) -/ ⟨4, 4, .chan, false, [fd 31 0 .rw 0]⟩,
    /- PROF_COMMIT (R240) -/ ⟨1, 4, .chan, false, [fd 0 0 .wo 0]⟩,
    /- BEN_CFG (R247) -/ ⟨1, 4, .chan, false, [fd 21 16 .rw 8, fd 5 0 .rw 4]⟩,
    /- GRANT_EVT (R248) -/ ⟨1, 4, .chan, false, [fd 8 0 .w1c 0]⟩,
    /- GRANT_IEN (R248) -/ ⟨1, 4, .chan, false, [fd 8 0 .rw 0]⟩,
    /- CNT_STATE (R213) -/ ⟨1, 4, .chan, false, [fd 31 0 .rc 0]⟩ ]

/-- EST registers 12 to 19. -/
def blkEST1 : List RegDesc :=
  [ /- CNT_PLAN_FULL (R241) -/ ⟨1, 4, .chan, false, [fd 31 0 .rc 0]⟩,
    /- CNT_HEC (R248) -/ ⟨1, 4, .chan, false, [fd 31 0 .rc 0]⟩,
    /- CNT_MALFORMED (R248) -/ ⟨1, 4, .chan, false, [fd 31 0 .rc 0]⟩,
    /- CNT_ZERO (R248) -/ ⟨1, 4, .chan, false, [fd 31 0 .rc 0]⟩,
    /- CNT_PROFILE (R248) -/ ⟨1, 4, .chan, false, [fd 31 0 .rc 0]⟩,
    /- CNT_LATE (R248) -/ ⟨1, 4, .chan, false, [fd 31 0 .rc 0]⟩,
    /- CNT_OVERLAP (R248) -/ ⟨1, 4, .chan, false, [fd 31 0 .rc 0]⟩,
    /- CNT_TX_OFF (R248) -/ ⟨1, 4, .chan, false, [fd 31 0 .rc 0]⟩ ]

/-- Block EST, CODE 0x0a. -/
def blkEST : List RegDesc := blkEST0 ++ blkEST1

/-- BOND registers 0 to 11. -/
def blkBOND0 : List RegDesc :=
  [ /- GROUP_CFG (R284) -/ ⟨1, 1, .d0, false, [fd 31 31 .rw 0, fd 30 30 .rw 0, fd 27 24 .rw 0, fd 23 16 .rw 0, fr 13 0 .rw 0x1000 1 8192]⟩,
    /- GROUP_TMO (R284) -/ ⟨1, 1, .d0, false, [fr 15 0 .rw 0x1f4 1 10000]⟩,
    /- MEMBER (R284) -/ ⟨4, 1, .chans, false, [fd 15 0 .rw 0]⟩,
    /- GROUP_COMMIT (R284) -/ ⟨1, 1, .d0, false, [fd 0 0 .wo 0]⟩,
    /- GROUP_STAT (R285) -/ ⟨1, 1, .d0, false, [fd 31 31 .ro 0, fd 30 30 .ro 0, fd 29 29 .ro 0, fd 28 26 .ro 0, fd 25 22 .ro 0, fd 21 18 .ro 0, fd 17 14 .ro 15, fd 13 0 .ro 0]⟩,
    /- SKEW_CTL (R262) -/ ⟨4, 1, .one, false, [fd 31 31 .wo 0, fd 15 0 .rw 0]⟩,
    /- SKEW_STAT (R263) -/ ⟨4, 1, .one, false, [fd 7 4 .ro 0, fd 3 0 .ro 0]⟩,
    /- SKEW_CAP (R262) -/ ⟨4, 1, .chans, false, [fd 31 0 .ro 0]⟩,
    /- UGRP_A (R290) -/ ⟨64, 1, .d0, false, [fd 31 31 .rw 0, fd 30 30 .rw 0, fd 29 20 .rw 0, fd 19 10 .rw 0, fd 9 0 .rw 0]⟩,
    /- UGRP_B (R290) -/ ⟨64, 1, .d0, false, [fd 31 31 .rw 0, fd 30 30 .rw 0, fd 29 20 .rw 0, fd 19 10 .rw 0]⟩,
    /- UGRP_COMMIT (R290) -/ ⟨1, 1, .d0, false, [fd 31 31 .wo 0, fd 5 0 .rw 0]⟩,
    /- EVT (R291) -/ ⟨1, 1, .d0, false, [fd 14 14 .w1c 0, fd 13 13 .w1c 0, fd 12 12 .w1c 0, fd 11 11 .w1c 0, fd 10 10 .w1c 0, fd 9 9 .w1c 0, fd 8 8 .w1c 0, fd 7 4 .w1c 0, fd 3 0 .w1c 0]⟩ ]

/-- BOND registers 12 to 23. -/
def blkBOND1 : List RegDesc :=
  [ /- IEN (R291) -/ ⟨1, 1, .d0, false, [fd 14 0 .rw 0]⟩,
    /- CNT_BADTAG (R257) -/ ⟨1, 1, .d0, false, [fd 31 0 .rc 0]⟩,
    /- CNT_NOT_MEMBER (R257) -/ ⟨1, 1, .d0, false, [fd 31 0 .rc 0]⟩,
    /- CNT_SKEW_OVF (R260) -/ ⟨4, 1, .chans, false, [fd 31 0 .rc 0]⟩,
    /- CNT_DUP (R265) -/ ⟨1, 1, .d0, false, [fd 31 0 .rc 0]⟩,
    /- CNT_LATE (R265) -/ ⟨1, 1, .d0, false, [fd 31 0 .rc 0]⟩,
    /- CNT_JUMP (R265) -/ ⟨1, 1, .d0, false, [fd 31 0 .rc 0]⟩,
    /- CNT_LOST (R268) -/ ⟨1, 1, .d0, false, [fd 31 0 .rc 0]⟩,
    /- CNT_TMO (R268) -/ ⟨1, 1, .d0, false, [fd 31 0 .rc 0]⟩,
    /- CNT_FAST (R268) -/ ⟨1, 1, .d0, false, [fd 31 0 .rc 0]⟩,
    /- CNT_FORCE (R269) -/ ⟨1, 1, .d0, false, [fd 31 0 .rc 0]⟩,
    /- CNT_UP_GAP (R282) -/ ⟨1, 1, .d0, false, [fd 31 0 .rc 0]⟩ ]

/-- BOND registers 24 to 24. -/
def blkBOND2 : List RegDesc :=
  [ /- CNT_UP_ORPHAN (R283) -/ ⟨1, 1, .d0, false, [fd 31 0 .rc 0]⟩ ]

/-- Block BOND, CODE 0x0b. -/
def blkBOND : List RegDesc := blkBOND0 ++ blkBOND1 ++ blkBOND2

/-- TILE registers 0 to 11. -/
def blkTILE0 : List RegDesc :=
  [ /- CFG (R332) -/ ⟨1, 1, .lc, false, [fr 26 16 .rw 0xc0 16 1024, fd 0 0 .rw 0]⟩,
    /- ENTRY (R332) -/ ⟨8, 1, .lc, false, [fd 12 0 .rw 0]⟩,
    /- COMMIT (R332) -/ ⟨1, 1, .lc, false, [fd 0 0 .wo 0]⟩,
    /- BANK_STAT (R335) -/ ⟨1, 1, .lc, false, [fd 31 31 .ro 1, fd 24 24 .ro 0, fd 23 0 .ro 0]⟩,
    /- IMEM_ADDR (R333) -/ ⟨1, 1, .lc, false, [fd 31 31 .rw 1, fd 12 0 .rw 0]⟩,
    /- IMEM_DATA (R333) -/ ⟨1, 1, .lc, false, [fd 31 0 .wo 0]⟩,
    /- IMEM_CHK (R336) -/ ⟨1, 1, .lc, false, [fd 31 31 .wo 0, fr 13 0 .rw 0 1 8192]⟩,
    /- IMEM_STAT (R336) -/ ⟨1, 1, .lc, false, [fd 31 31 .w1c 0, fd 30 30 .w1c 0, fd 29 29 .ro 0, fd 28 28 .ro 0]⟩,
    /- IMEM_CRC (R336) -/ ⟨1, 1, .lc, false, [fd 31 0 .ro 0]⟩,
    /- EXC_CNT (R326) -/ ⟨6, 1, .lc, false, [fd 31 0 .rc 0]⟩,
    /- DROP_CNT (R324) -/ ⟨64, 1, .lc, false, [fd 31 0 .rc 0]⟩,
    /- CNT_MIRROR_LIM (R322) -/ ⟨1, 1, .lc, false, [fd 31 0 .rc 0]⟩ ]

/-- Block TILE, CODE 0x0c. -/
def blkTILE : List RegDesc := blkTILE0

/-- DISP registers 0 to 5. -/
def blkDISP0 : List RegDesc :=
  [ /- CFG (R346) -/ ⟨1, 1, .lc, false, [fd 31 31 .rw 0, fd 12 0 .rw 0x640]⟩,
    /- SRC_CFG (R341) -/ ⟨17, 1, .src, false, [fd 31 31 .rw 1, fd 30 30 .rw 0]⟩,
    /- DEFAULT (R352) -/ ⟨17, 1, .src, false, [fr 31 30 .rw 1 0 2, fd 29 24 .rw 0x3f, fd 21 18 .rw 0, fd 17 0 .rw 0]⟩,
    /- CNT_FULL (R340) -/ ⟨17, 1, .src, false, [fd 31 0 .rc 0]⟩,
    /- CNT_DIS (R341) -/ ⟨17, 1, .src, false, [fd 31 0 .rc 0]⟩,
    /- CNT_ORDER_LATE (R348) -/ ⟨1, 1, .lc, false, [fd 31 0 .rc 0]⟩ ]

/-- Block DISP, CODE 0x0d. -/
def blkDISP : List RegDesc := blkDISP0

/-- LKP registers 0 to 11. -/
def blkLKP0 : List RegDesc :=
  [ /- EM_TBL (R366) -/ ⟨16, 1, .lc, false, [fd 31 31 .rw 0, fd 21 17 .rw 0, fd 16 0 .rw 0]⟩,
    /- TC_TBL (R366) -/ ⟨16, 1, .lc, false, [fd 31 31 .rw 0, fd 30 16 .rw 0, fd 13 0 .rw 0]⟩,
    /- LPM_TBL (R366) -/ ⟨16, 1, .course, false, [fd 31 31 .rw 0, fd 30 30 .rw 0]⟩,
    /- CNT_BANK (R366) -/ ⟨16, 1, .lc, false, [fd 31 31 .rw 0, fd 22 18 .rw 0, fd 17 0 .rw 0]⟩,
    /- TBL_COMMIT (R366) -/ ⟨1, 1, .lc, false, [fd 0 0 .wo 0]⟩,
    /- TBL_STAT (R366) -/ ⟨1, 1, .lc, false, [fd 0 0 .w1c 0]⟩,
    /- EM_STAGE (R363) -/ ⟨6, 1, .lc, false, [fd 31 0 .rw 0]⟩,
    /- EM_STAGE6 (R363) -/ ⟨1, 1, .lc, false, [fd 31 31 .rw 0, fd 30 30 .rw 0, fd 19 16 .rw 0]⟩,
    /- EM_WR (R363) -/ ⟨1, 1, .lc, false, [fd 31 31 .wo 0, fd 30 30 .wo 0, fd 18 0 .rw 0]⟩,
    /- TC_KEY (R363) -/ ⟨16, 1, .lc, false, [fd 31 0 .rw 0]⟩,
    /- TC_MASK (R363) -/ ⟨16, 1, .lc, false, [fd 31 0 .rw 0]⟩,
    /- TC_DATA (R363) -/ ⟨2, 1, .lc, false, [fd 31 0 .rw 0]⟩ ]

/-- LKP registers 12 to 23. -/
def blkLKP1 : List RegDesc :=
  [ /- TC_CTL (R363) -/ ⟨1, 1, .lc, false, [fd 31 31 .rw 0, fd 30 30 .rw 0]⟩,
    /- TC_WR (R363) -/ ⟨1, 1, .lc, false, [fd 31 31 .wo 0, fd 30 30 .wo 0, fd 13 0 .rw 0]⟩,
    /- WR_STAT (R365) -/ ⟨1, 1, .lc, false, [fd 31 31 .ro 0, fd 30 30 .ro 0, fd 29 29 .w1c 0]⟩,
    /- LPM_PFX (R359) -/ ⟨4, 1, .course, false, [fd 31 0 .rw 0]⟩,
    /- LPM_RES (R359) -/ ⟨1, 1, .course, false, [fd 31 0 .rw 0]⟩,
    /- LPM_CTL (R359) -/ ⟨1, 1, .course, false, [fd 31 31 .wo 0, fd 30 30 .ro 0, fd 29 28 .ro 0, fr 27 26 .rw 0 0 2, fd 25 25 .rw 0, fd 19 16 .rw 0, fd 7 0 .rw 0]⟩,
    /- LPM_USE (R360) -/ ⟨1, 1, .course, false, [fd 18 0 .ro 0]⟩,
    /- LPM_USE6 (R360) -/ ⟨1, 1, .course, false, [fd 16 0 .ro 0]⟩,
    /- CNT_RD (R362) -/ ⟨1, 1, .lc, false, [fd 31 31 .wo 0, fd 30 30 .wo 0, fd 17 0 .rw 0]⟩,
    /- CNT_PKT_HI (R362) -/ ⟨1, 1, .lc, false, [fd 7 0 .ro 0]⟩,
    /- CNT_PKT_LO (R362) -/ ⟨1, 1, .lc, false, [fd 31 0 .ro 0]⟩,
    /- CNT_BYTE_HI (R362) -/ ⟨1, 1, .lc, false, [fd 23 0 .ro 0]⟩ ]

/-- LKP registers 24 to 28. -/
def blkLKP2 : List RegDesc :=
  [ /- CNT_BYTE_LO (R362) -/ ⟨1, 1, .lc, false, [fd 31 0 .ro 0]⟩,
    /- GEN_CTL (R367) -/ ⟨1, 1, .lc, false, [fd 31 31 .wo 0, fd 30 30 .rw 0, fd 0 0 .rw 0]⟩,
    /- GEN_AT (R367) -/ ⟨1, 1, .lc, false, [fd 31 0 .rw 0]⟩,
    /- GEN_STAT (R370) -/ ⟨1, 1, .lc, false, [fd 31 31 .ro 0, fd 30 30 .ro 1, fd 29 29 .ro 0, fd 28 28 .w1c 0, fd 27 27 .w1c 0, fd 26 26 .w1c 0, fd 19 0 .ro 0]⟩,
    /- EPOCH (R367) -/ ⟨1, 1, .lc, false, [fd 31 0 .ro 0]⟩ ]

/-- Block LKP, CODE 0x0e. -/
def blkLKP : List RegDesc := blkLKP0 ++ blkLKP1 ++ blkLKP2

/-- EDDY registers 0 to 2. -/
def blkEDDY0 : List RegDesc :=
  [ /- STAT (R373) -/ ⟨1, 1, .lc, false, [fd 10 0 .ro 0]⟩,
    /- CNT_PASS1 (R373) -/ ⟨1, 1, .lc, false, [fd 31 0 .rc 0]⟩,
    /- CNT_PASS2 (R373) -/ ⟨1, 1, .lc, false, [fd 31 0 .rc 0]⟩ ]

/-- Block EDDY, CODE 0x0f. -/
def blkEDDY : List RegDesc := blkEDDY0

/-- SPW registers 0 to 3. -/
def blkSPW0 : List RegDesc :=
  [ /- SLU (R382) -/ ⟨64, 1, .rsn, false, [fd 31 12 .rw 0x2710, fr 10 0 .rw 0x40 1 1024]⟩,
    /- MAP (R383) -/ ⟨64, 1, .rsn, false, [fd 31 31 .rw 1, fd 4 0 .rw 0]⟩,
    /- CNT_PASS (R385) -/ ⟨64, 1, .rsn, false, [fd 31 0 .rc 0]⟩,
    /- CNT_DROP (R381) -/ ⟨64, 1, .rsn, false, [fd 31 0 .rc 0]⟩ ]

/-- Block SPW, CODE 0x10. -/
def blkSPW : List RegDesc := blkSPW0

/-- DELTA registers 0 to 7. -/
def blkDELTA0 : List RegDesc :=
  [ /- GRP_STAGE0 (R374) -/ ⟨1, 1, .course, false, [fd 31 31 .rw 0, fd 30 24 .rw 0, fd 16 0 .rw 0]⟩,
    /- GRP_STAGE1 (R374) -/ ⟨1, 1, .course, false, [fd 31 31 .rw 0, fd 30 24 .rw 0, fd 16 0 .rw 0]⟩,
    /- GRP_WR (R374) -/ ⟨1, 1, .course, false, [fd 31 31 .wo 0, fd 30 30 .wo 0, fd 13 0 .rw 0]⟩,
    /- CPY_WR_ADDR (R374) -/ ⟨1, 1, .course, false, [fd 16 0 .rw 0]⟩,
    /- CPY_WR_DATA (R374) -/ ⟨1, 1, .course, false, [fd 31 28 .rw 0, fd 27 27 .rw 0, fd 26 26 .rw 0, fd 25 23 .rw 0, fd 17 0 .rw 0]⟩,
    /- CNT_FULL (R375) -/ ⟨1, 1, .course, false, [fd 31 0 .rc 0]⟩,
    /- CNT_BAD_COPY (R377) -/ ⟨1, 1, .course, false, [fd 31 0 .rc 0]⟩,
    /- CNT_EMPTY (R379) -/ ⟨1, 1, .course, false, [fd 31 0 .rc 0]⟩ ]

/-- Block DELTA, CODE 0x11. -/
def blkDELTA : List RegDesc := blkDELTA0

/-- TM registers 0 to 11. -/
def blkTM0 : List RegDesc :=
  [ /- STAT (R394) -/ ⟨1, 1, .lc, false, [fd 31 31 .ro 0]⟩,
    /- Q_STAGE0 (R395) -/ ⟨1, 1, .lc, false, [fd 31 31 .rw 0, fd 30 27 .rw 0, fd 13 0 .rw 0]⟩,
    /- Q_STAGE1 (R395) -/ ⟨1, 1, .lc, false, [fr 15 0 .rw 1 1 65535]⟩,
    /- QOP (R395) -/ ⟨1, 1, .lc, false, [fd 31 31 .wo 0, fd 30 29 .rw 0, fd 28 28 .ro 0, fd 27 27 .w1c 0, fd 17 0 .rw 0]⟩,
    /- QOP_CNT (R395) -/ ⟨1, 1, .lc, false, [fr 18 0 .rw 0 1 262144]⟩,
    /- Q_STAT (R398) -/ ⟨4, 1, .lc, false, [fd 31 0 .ro 0]⟩,
    /- PORT_CFG (R442) -/ ⟨64, 1, .port, false, [fd 31 31 .rw 0, fd 30 30 .rw 0, fd 21 16 .rw 0x14, fd 15 0 .rw 0x12c]⟩,
    /- CLS_CFG (R424) -/ ⟨512, 1, .cls, false, [fr 5 0 .rw 0x1b 0 36]⟩,
    /- CLS_OCC (R440) -/ ⟨512, 1, .cls, false, [fd 31 0 .ro 0]⟩,
    /- CLS_HWM (R440) -/ ⟨512, 1, .cls, false, [fd 31 0 .rc 0]⟩,
    /- PORT_OCC (R440) -/ ⟨64, 1, .port, false, [fd 31 0 .ro 0]⟩,
    /- APROF_A (R404) -/ ⟨16, 1, .lc, false, [fd 31 16 .rw 0x100, fd 15 0 .rw 0x80]⟩ ]

/-- TM registers 12 to 23. -/
def blkTM1 : List RegDesc :=
  [ /- APROF_B (R404) -/ ⟨16, 1, .lc, false, [fd 15 0 .rw 0x40]⟩,
    /- APROF_COMMIT (R441) -/ ⟨1, 1, .lc, false, [fd 0 0 .wo 0]⟩,
    /- POOL_LIM_G (R405) -/ ⟨1, 1, .lc, false, [fd 27 0 .rw 0xfffffff]⟩,
    /- POOL_LIM_Y (R405) -/ ⟨1, 1, .lc, false, [fd 27 0 .rw 0xfffffff]⟩,
    /- POOL_LIM_R (R405) -/ ⟨1, 1, .lc, false, [fd 27 0 .rw 0xfffffff]⟩,
    /- POOL_COMMIT (R441) -/ ⟨1, 1, .lc, false, [fd 0 0 .wo 0]⟩,
    /- POOL_OCC (R405) -/ ⟨1, 1, .lc, false, [fd 27 0 .ro 0]⟩,
    /- UQ_CFG (R437) -/ ⟨1024, 1, .line, false, [fd 31 31 .rw 0, fd 7 4 .rw 0, fd 3 0 .rw 0]⟩,
    /- UPROF_SP (R437) -/ ⟨16, 1, .line, false, [fd 7 0 .rw 0]⟩,
    /- UPROF_W0 (R437) -/ ⟨16, 1, .line, false, [fr 31 24 .rw 1 1 255, fr 23 16 .rw 1 1 255, fr 15 8 .rw 1 1 255, fr 7 0 .rw 1 1 255]⟩,
    /- UPROF_W1 (R437) -/ ⟨16, 1, .line, false, [fr 31 24 .rw 1 1 255, fr 23 16 .rw 1 1 255, fr 15 8 .rw 1 1 255, fr 7 0 .rw 1 1 255]⟩,
    /- UPROF_COMMIT (R441) -/ ⟨1, 1, .line, false, [fd 0 0 .wo 0]⟩ ]

/-- TM registers 24 to 34. -/
def blkTM2 : List RegDesc :=
  [ /- UDEF (R437) -/ ⟨1, 1, .line, false, [fd 9 0 .rw 0]⟩,
    /- CNT_RETIRED (R393) -/ ⟨1, 1, .lc, false, [fd 31 0 .rc 0]⟩,
    /- CNT_FLUSH (R399) -/ ⟨1, 1, .lc, false, [fd 31 0 .rc 0]⟩,
    /- CNT_NOTREADY (R400) -/ ⟨1, 1, .lc, false, [fd 31 0 .rc 0]⟩,
    /- CNT_QDIS (R401) -/ ⟨1024, 1, .px, false, [fd 31 0 .rc 0]⟩,
    /- CNT_RED (R401) -/ ⟨1024, 1, .px, false, [fd 31 0 .rc 0]⟩,
    /- CNT_QLIM (R401) -/ ⟨1024, 1, .px, false, [fd 31 0 .rc 0]⟩,
    /- CNT_POOL (R401) -/ ⟨1024, 1, .px, false, [fd 31 0 .rc 0]⟩,
    /- CNT_LATE_START (R417) -/ ⟨64, 1, .port, false, [fd 31 0 .rc 0]⟩,
    /- CNT_CLAMP (R423) -/ ⟨1, 1, .lc, false, [fd 31 0 .rc 0]⟩,
    /- CNT_TOOLONG (R435) -/ ⟨64, 1, .port, false, [fd 31 0 .rc 0]⟩ ]

/-- Block TM, CODE 0x12. -/
def blkTM : List RegDesc := blkTM0 ++ blkTM1 ++ blkTM2

/-- WEIR registers 0 to 1. -/
def blkWEIR0 : List RegDesc :=
  [ /- CFG (R428) -/ ⟨576, 1, .weir, false, [fd 31 31 .rw 0, fd 30 19 .rw 0, fd 18 15 .rw 0, fr 14 0 .rw 1 1 32767]⟩,
    /- BAL (R425) -/ ⟨576, 1, .weir, false, [fd 31 0 .ro 0]⟩ ]

/-- Block WEIR, CODE 0x13. -/
def blkWEIR : List RegDesc := blkWEIR0

/-- SLU registers 0 to 7. -/
def blkSLU0 : List RegDesc :=
  [ /- STAGE0 (R406) -/ ⟨1, 1, .lc, false, [fd 31 31 .rw 0, fd 30 30 .rw 0, fd 29 29 .rw 0, fd 28 28 .rw 0]⟩,
    /- STAGE1 (R406) -/ ⟨1, 1, .lc, false, [fd 30 19 .rw 0, fd 18 15 .rw 0, fr 14 0 .rw 1 1 32767]⟩,
    /- STAGE2 (R406) -/ ⟨1, 1, .lc, false, [fd 30 19 .rw 0, fd 18 15 .rw 0, fr 14 0 .rw 1 1 32767]⟩,
    /- WR (R406) -/ ⟨1, 1, .lc, false, [fd 31 31 .wo 0, fd 30 30 .wo 0, fd 13 0 .rw 0]⟩,
    /- CNT_RD (R410) -/ ⟨1, 1, .lc, false, [fd 31 31 .wo 0, fd 30 30 .wo 0, fd 13 0 .rw 0]⟩,
    /- CNT_G (R410) -/ ⟨1, 1, .lc, false, [fd 31 0 .ro 0]⟩,
    /- CNT_Y (R410) -/ ⟨1, 1, .lc, false, [fd 31 0 .ro 0]⟩,
    /- CNT_R (R410) -/ ⟨1, 1, .lc, false, [fd 31 0 .ro 0]⟩ ]

/-- Block SLU, CODE 0x14. -/
def blkSLU : List RegDesc := blkSLU0

/-- GATE registers 0 to 8. -/
def blkGATE0 : List RegDesc :=
  [ /- CTL (R429) -/ ⟨1, 64, .gate, false, [fd 31 31 .rw 0, fd 30 30 .wo 0]⟩,
    /- ADM_ADDR (R430) -/ ⟨1, 64, .gate, false, [fd 7 0 .rw 0]⟩,
    /- ADM_DATA (R430) -/ ⟨1, 64, .gate, false, [fd 31 24 .wo 0, fd 23 0 .wo 0]⟩,
    /- ADM_LEN (R430) -/ ⟨1, 64, .gate, false, [fr 8 0 .rw 1 1 256]⟩,
    /- ADM_BASE_SEC_HI (R430) -/ ⟨1, 64, .gate, false, [fd 15 0 .rw 0]⟩,
    /- ADM_BASE_SEC_LO (R430) -/ ⟨1, 64, .gate, false, [fd 31 0 .rw 0]⟩,
    /- ADM_BASE_NS (R430) -/ ⟨1, 64, .gate, false, [fd 29 0 .rw 0]⟩,
    /- ADM_CYCLE (R430) -/ ⟨1, 64, .gate, false, [fr 29 0 .rw 0xf4240 1 999999999]⟩,
    /- STAT (R430) -/ ⟨1, 64, .gate, false, [fd 31 31 .ro 0, fd 30 30 .ro 0, fd 29 29 .w1c 0, fd 28 28 .w1c 0, fd 7 0 .ro 0]⟩ ]

/-- Block GATE, CODE 0x15. -/
def blkGATE : List RegDesc := blkGATE0

/-- MAC registers 0 to 11. -/
def blkMAC0 : List RegDesc :=
  [ /- CFG (R445) -/ ⟨1, 64, .port, false, [fd 31 31 .rw 0, fd 30 30 .rw 0, fd 29 29 .rw 1, fd 28 28 .rw 1, fd 27 27 .rw 1, fr 26 25 .rw 2 0 2, fr 14 0 .rw 0x5f2 64 16387]⟩,
    /- STAT (R470) -/ ⟨1, 64, .port, false, [fd 31 31 .ro 0, fd 30 30 .w1c 0, fd 29 29 .ro 0, fd 28 28 .w1c 0, fd 27 27 .ro 0, fd 26 26 .ro 0, fd 7 0 .ro 0]⟩,
    /- IEN (R470) -/ ⟨1, 64, .port, false, [fd 30 30 .rw 0, fd 28 28 .rw 0, fd 0 0 .rw 0]⟩,
    /- DA_STAGE_HI (R448) -/ ⟨1, 64, .port, false, [fd 31 31 .rw 0, fd 15 0 .rw 0]⟩,
    /- DA_STAGE_LO (R448) -/ ⟨1, 64, .port, false, [fd 31 0 .rw 0]⟩,
    /- DA_WR (R448) -/ ⟨1, 64, .port, false, [fd 31 31 .wo 0, fd 30 30 .wo 0, fd 2 0 .rw 0]⟩,
    /- FC_CFG (R456) -/ ⟨1, 64, .port, false, [fd 31 31 .rw 1, fd 30 30 .rw 0, fd 23 0 .rw 0xfac688]⟩,
    /- FC_WD (R457) -/ ⟨1, 64, .port, false, [fd 15 0 .rw 0x32]⟩,
    /- PAUSE_TX (R458) -/ ⟨1, 64, .port, false, [fd 31 31 .wo 0, fd 15 0 .rw 0]⟩,
    /- EEE_CFG (R459) -/ ⟨1, 64, .port, false, [fd 31 31 .rw 0, fr 27 16 .rw 0x64 1 4095, fd 15 0 .rw 0x1180]⟩,
    /- PTP_CFG (R466) -/ ⟨1, 64, .port, false, [fd 15 0 .rw 1]⟩,
    /- TS_RX_CORR (R463) -/ ⟨1, 64, .port, false, [fd 31 0 .rw 0]⟩ ]

/-- MAC registers 12 to 23. -/
def blkMAC1 : List RegDesc :=
  [ /- TS_TX_CORR (R463) -/ ⟨1, 64, .port, false, [fd 31 0 .rw 0]⟩,
    /- PTP_COMMIT (R483) -/ ⟨1, 64, .port, false, [fd 0 0 .wo 0]⟩,
    /- TSF_W (R467) -/ ⟨4, 64, .port, false, [fd 31 0 .ro 0]⟩,
    /- TS_STAT (R468) -/ ⟨1, 64, .port, false, [fd 31 31 .w1c 0, fd 21 16 .ro 0, fd 15 0 .ro 0]⟩,
    /- CNT_RX_CODE (R445) -/ ⟨1, 64, .port, false, [fd 31 0 .rc 0]⟩,
    /- CNT_RX_RUNT (R445) -/ ⟨1, 64, .port, false, [fd 31 0 .rc 0]⟩,
    /- CNT_RX_LONG (R445) -/ ⟨1, 64, .port, false, [fd 31 0 .rc 0]⟩,
    /- CNT_RX_FCS (R445) -/ ⟨1, 64, .port, false, [fd 31 0 .rc 0]⟩,
    /- CNT_RX_FILT (R445) -/ ⟨1, 64, .port, false, [fd 31 0 .rc 0]⟩,
    /- CNT_RX_PKTS (R471) -/ ⟨1, 64, .port, false, [fd 31 0 .rc 0]⟩,
    /- CNT_RX_BYTES_LO (R471) -/ ⟨1, 64, .port, false, [fd 31 0 .rc 0]⟩,
    /- CNT_RX_BYTES_HI (R471) -/ ⟨1, 64, .port, false, [fd 15 0 .ro 0]⟩ ]

/-- MAC registers 24 to 35. -/
def blkMAC2 : List RegDesc :=
  [ /- CNT_TX_LONG (R450) -/ ⟨1, 64, .port, false, [fd 31 0 .rc 0]⟩,
    /- CNT_TX_DIS (R450) -/ ⟨1, 64, .port, false, [fd 31 0 .rc 0]⟩,
    /- CNT_TX_CSUM_SKIP (R451) -/ ⟨1, 64, .port, false, [fd 31 0 .rc 0]⟩,
    /- CNT_RX_PAUSE (R453) -/ ⟨1, 64, .port, false, [fd 31 0 .rc 0]⟩,
    /- CNT_RX_CTL_DROP (R453) -/ ⟨1, 64, .port, false, [fd 31 0 .rc 0]⟩,
    /- CNT_PAUSE_WD (R457) -/ ⟨1, 64, .port, false, [fd 31 0 .rc 0]⟩,
    /- CNT_TX_PAUSE (R458) -/ ⟨1, 64, .port, false, [fd 31 0 .rc 0]⟩,
    /- CNT_TX_LPI (R459) -/ ⟨1, 64, .port, false, [fd 31 0 .rc 0]⟩,
    /- CNT_RX_LPI (R459) -/ ⟨1, 64, .port, false, [fd 31 0 .rc 0]⟩,
    /- CNT_TX_TS_SKIP (R466) -/ ⟨1, 64, .port, false, [fd 31 0 .rc 0]⟩,
    /- CNT_TS_DROP (R468) -/ ⟨1, 64, .port, false, [fd 31 0 .rc 0]⟩,
    /- CNT_TX_LINK_DROP (R470) -/ ⟨1, 64, .port, false, [fd 31 0 .rc 0]⟩ ]

/-- MAC registers 36 to 47. -/
def blkMAC3 : List RegDesc :=
  [ /- CNT_TX_PKTS (R471) -/ ⟨1, 64, .port, false, [fd 31 0 .rc 0]⟩,
    /- CNT_TX_BYTES_LO (R471) -/ ⟨1, 64, .port, false, [fd 31 0 .rc 0]⟩,
    /- CNT_TX_BYTES_HI (R471) -/ ⟨1, 64, .port, false, [fd 15 0 .ro 0]⟩,
    /- MDIO_CFG (R476) -/ ⟨4, 1, .course, false, [fd 31 31 .rw 0, fr 7 0 .rw 4 1 255]⟩,
    /- MDIO_CMD (R477) -/ ⟨4, 1, .course, false, [fd 31 31 .wo 0, fd 30 30 .ro 0, fd 29 29 .rw 0, fd 28 27 .rw 2, fd 20 16 .rw 0, fd 4 0 .rw 0]⟩,
    /- MDIO_DATA (R477) -/ ⟨4, 1, .course, false, [fd 15 0 .rw 0]⟩,
    /- MDIO_STAT (R478) -/ ⟨1, 1, .course, false, [fd 31 31 .w1c 0, fd 3 0 .w1c 0]⟩,
    /- MDIO_IEN (R478) -/ ⟨1, 1, .course, false, [fd 3 0 .rw 0]⟩,
    /- CAGE_I2C_CFG (R479) -/ ⟨1, 1, .course, false, [fd 31 31 .rw 0, fd 30 30 .rw 0, fd 29 29 .rw 0, fr 7 0 .rw 0x19 1 255]⟩,
    /- CAGE_I2C_CMD (R479) -/ ⟨1, 1, .course, false, [fd 31 31 .wo 0, fd 30 30 .ro 0, fd 29 28 .ro 0, fd 27 27 .rw 0, fr 23 20 .rw 1 1 8, fd 18 12 .rw 0, fd 11 8 .rw 0, fd 7 0 .rw 0]⟩,
    /- CAGE_I2C_DATA0 (R479) -/ ⟨1, 1, .course, false, [fd 31 0 .rw 0]⟩,
    /- CAGE_I2C_DATA1 (R479) -/ ⟨1, 1, .course, false, [fd 31 0 .rw 0]⟩ ]

/-- MAC registers 48 to 51. -/
def blkMAC4 : List RegDesc :=
  [ /- CAGE_I2C_STAT (R479) -/ ⟨1, 1, .course, false, [fd 31 31 .w1c 0, fd 30 30 .w1c 0]⟩,
    /- LED_CFG (R480) -/ ⟨1, 1, .course, false, [fd 31 31 .rw 0, fd 30 30 .rw 0, fr 7 0 .rw 10 1 255]⟩,
    /- LED_SRC (R481) -/ ⟨16, 1, .course, false, [fr 15 12 .rw 0 0 6, fr 11 8 .rw 0 0 6, fr 7 4 .rw 0 0 6, fr 3 0 .rw 4 0 6]⟩,
    /- LED_FW (R481) -/ ⟨16, 1, .course, false, [fd 3 0 .rw 0]⟩ ]

/-- Block MAC, CODE 0x16. -/
def blkMAC : List RegDesc := blkMAC0 ++ blkMAC1 ++ blkMAC2 ++ blkMAC3 ++ blkMAC4

/-- MGT registers 0 to 11. -/
def blkMGT0 : List RegDesc :=
  [ /- CFG (R472) -/ ⟨1, 1, .d0, false, [fd 31 31 .rw 0, fd 30 30 .rw 0, fd 29 29 .rw 1, fd 28 28 .rw 1, fd 27 27 .rw 1, fr 26 25 .rw 2 0 2, fr 14 0 .rw 0x5f2 64 16387]⟩,
    /- STAT (R472) -/ ⟨1, 1, .d0, false, [fd 31 31 .ro 0, fd 30 30 .w1c 0, fd 29 29 .ro 0, fd 28 28 .w1c 0, fd 27 27 .ro 0, fd 26 26 .ro 0]⟩,
    /- IEN (R472) -/ ⟨1, 1, .d0, false, [fd 30 30 .rw 0, fd 28 28 .rw 0, fd 0 0 .rw 0]⟩,
    /- DA_STAGE_HI (R472) -/ ⟨1, 1, .d0, false, [fd 31 31 .rw 0, fd 15 0 .rw 0]⟩,
    /- DA_STAGE_LO (R472) -/ ⟨1, 1, .d0, false, [fd 31 0 .rw 0]⟩,
    /- DA_WR (R472) -/ ⟨1, 1, .d0, false, [fd 31 31 .wo 0, fd 30 30 .wo 0, fd 2 0 .rw 0]⟩,
    /- FC_CFG (R472) -/ ⟨1, 1, .d0, false, [fd 31 31 .rw 1, fd 23 0 .rw 0xfac688]⟩,
    /- FC_WD (R472) -/ ⟨1, 1, .d0, false, [fd 15 0 .rw 0x32]⟩,
    /- PAUSE_TX (R472) -/ ⟨1, 1, .d0, false, [fd 31 31 .wo 0, fd 15 0 .rw 0]⟩,
    /- EEE_CFG (R472) -/ ⟨1, 1, .d0, false, [fd 31 31 .rw 0, fr 27 16 .rw 0x64 1 4095, fd 15 0 .rw 0x1180]⟩,
    /- PTP_CFG (R472) -/ ⟨1, 1, .d0, false, []⟩,
    /- TS_RX_CORR (R483) -/ ⟨1, 1, .d0, false, [fd 31 0 .rw 0]⟩ ]

/-- MGT registers 12 to 23. -/
def blkMGT1 : List RegDesc :=
  [ /- TS_TX_CORR (R483) -/ ⟨1, 1, .d0, false, [fd 31 0 .rw 0]⟩,
    /- PTP_COMMIT (R483) -/ ⟨1, 1, .d0, false, [fd 0 0 .wo 0]⟩,
    /- TSF_W (R472) -/ ⟨4, 1, .d0, false, [fd 31 0 .ro 0]⟩,
    /- TS_STAT (R472) -/ ⟨1, 1, .d0, false, [fd 31 31 .w1c 0, fd 21 16 .ro 0, fd 15 0 .ro 0]⟩,
    /- CNT_RX_CODE (R472) -/ ⟨1, 1, .d0, false, [fd 31 0 .rc 0]⟩,
    /- CNT_RX_RUNT (R472) -/ ⟨1, 1, .d0, false, [fd 31 0 .rc 0]⟩,
    /- CNT_RX_LONG (R472) -/ ⟨1, 1, .d0, false, [fd 31 0 .rc 0]⟩,
    /- CNT_RX_FCS (R472) -/ ⟨1, 1, .d0, false, [fd 31 0 .rc 0]⟩,
    /- CNT_RX_FILT (R472) -/ ⟨1, 1, .d0, false, [fd 31 0 .rc 0]⟩,
    /- CNT_RX_PKTS (R472) -/ ⟨1, 1, .d0, false, [fd 31 0 .rc 0]⟩,
    /- CNT_RX_BYTES_LO (R472) -/ ⟨1, 1, .d0, false, [fd 31 0 .rc 0]⟩,
    /- CNT_RX_BYTES_HI (R472) -/ ⟨1, 1, .d0, false, [fd 15 0 .ro 0]⟩ ]

/-- MGT registers 24 to 35. -/
def blkMGT2 : List RegDesc :=
  [ /- CNT_TX_LONG (R472) -/ ⟨1, 1, .d0, false, [fd 31 0 .rc 0]⟩,
    /- CNT_TX_DIS (R472) -/ ⟨1, 1, .d0, false, [fd 31 0 .rc 0]⟩,
    /- CNT_TX_CSUM_SKIP (R472) -/ ⟨1, 1, .d0, false, [fd 31 0 .rc 0]⟩,
    /- CNT_RX_PAUSE (R472) -/ ⟨1, 1, .d0, false, [fd 31 0 .rc 0]⟩,
    /- CNT_RX_CTL_DROP (R472) -/ ⟨1, 1, .d0, false, [fd 31 0 .rc 0]⟩,
    /- CNT_PAUSE_WD (R472) -/ ⟨1, 1, .d0, false, [fd 31 0 .rc 0]⟩,
    /- CNT_TX_PAUSE (R472) -/ ⟨1, 1, .d0, false, [fd 31 0 .rc 0]⟩,
    /- CNT_TX_LPI (R472) -/ ⟨1, 1, .d0, false, [fd 31 0 .rc 0]⟩,
    /- CNT_RX_LPI (R472) -/ ⟨1, 1, .d0, false, [fd 31 0 .rc 0]⟩,
    /- CNT_TX_TS_SKIP (R472) -/ ⟨1, 1, .d0, false, [fd 31 0 .rc 0]⟩,
    /- CNT_TS_DROP (R472) -/ ⟨1, 1, .d0, false, [fd 31 0 .rc 0]⟩,
    /- CNT_TX_LINK_DROP (R472) -/ ⟨1, 1, .d0, false, [fd 31 0 .rc 0]⟩ ]

/-- MGT registers 36 to 41. -/
def blkMGT3 : List RegDesc :=
  [ /- CNT_TX_PKTS (R472) -/ ⟨1, 1, .d0, false, [fd 31 0 .rc 0]⟩,
    /- CNT_TX_BYTES_LO (R472) -/ ⟨1, 1, .d0, false, [fd 31 0 .rc 0]⟩,
    /- CNT_TX_BYTES_HI (R472) -/ ⟨1, 1, .d0, false, [fd 15 0 .ro 0]⟩,
    /- RX_CFG (R473) -/ ⟨1, 1, .d0, false, [fd 31 31 .rw 0, fd 4 0 .rw 0]⟩,
    /- TX_CFG (R475) -/ ⟨1, 1, .d0, false, [fd 31 31 .rw 0, fr 9 8 .rw 0 0 2, fd 4 0 .rw 1]⟩,
    /- CNT_RING_DROP (R474) -/ ⟨1, 1, .d0, false, [fd 31 0 .rc 0]⟩ ]

/-- Block MGT, CODE 0x17. -/
def blkMGT : List RegDesc := blkMGT0 ++ blkMGT1 ++ blkMGT2 ++ blkMGT3

/-- CIPH registers 0 to 11. -/
def blkCIPH0 : List RegDesc :=
  [ /- UENC (R494) -/ ⟨1024, 1, .line, false, [fd 31 31 .rw 0, fr 30 29 .rw 1 1 2, fd 11 0 .rw 0]⟩,
    /- OMCI_CFG (R497) -/ ⟨4, 1, .chan, false, [fd 31 31 .rw 0, fd 25 16 .rw 0, fd 11 0 .rw 0]⟩,
    /- MS_TX (R500) -/ ⟨64, 1, .port, false, [fd 31 31 .rw 0, fd 30 30 .rw 1, fd 29 29 .rw 1, fd 17 16 .rw 0, fd 10 0 .rw 0]⟩,
    /- MS_SCI_HI (R500) -/ ⟨64, 1, .port, false, [fd 31 0 .rw 0]⟩,
    /- MS_SCI_LO (R500) -/ ⟨64, 1, .port, false, [fd 31 0 .rw 0]⟩,
    /- MS_TX_COMMIT (R500) -/ ⟨64, 1, .port, false, [fd 0 0 .wo 0]⟩,
    /- MS_SA_CFG (R503) -/ ⟨2048, 1, .course, false, [fd 31 31 .rw 0]⟩,
    /- MS_PN_HI (R504) -/ ⟨2048, 1, .course, false, [fd 31 0 .rw 0]⟩,
    /- MS_PN_LO (R504) -/ ⟨2048, 1, .course, false, [fd 31 0 .rw 0]⟩,
    /- MS_PN_THR_HI (R503) -/ ⟨1, 1, .course, false, [fd 31 0 .rw 0xffffffff]⟩,
    /- MS_PN_THR_LO (R503) -/ ⟨1, 1, .course, false, [fd 31 0 .rw 0xffffffff]⟩,
    /- MS_RX (R505) -/ ⟨64, 1, .port, false, [fd 31 31 .rw 0, fd 30 30 .rw 0]⟩ ]

/-- CIPH registers 12 to 23. -/
def blkCIPH1 : List RegDesc :=
  [ /- MS_RX_WIN (R505) -/ ⟨64, 1, .port, false, [fd 31 0 .rw 0]⟩,
    /- MS_RXSC_CTL (R505) -/ ⟨64, 1, .port, false, [fd 3 0 .rw 0]⟩,
    /- MS_RXSC_HI (R505) -/ ⟨256, 1, .port4, false, [fd 31 0 .rw 0]⟩,
    /- MS_RXSC_LO (R505) -/ ⟨256, 1, .port4, false, [fd 31 0 .rw 0]⟩,
    /- MS_RXSA (R505) -/ ⟨1024, 1, .port16, false, [fd 31 31 .rw 0, fd 10 0 .rw 0]⟩,
    /- LA_BASE_LO (R508) -/ ⟨2, 1, .line, false, [fd 31 6 .rw 0]⟩,
    /- LA_BASE_HI (R508) -/ ⟨2, 1, .line, false, [fd 7 0 .rw 0]⟩,
    /- LA_RING (R508) -/ ⟨2, 1, .line, false, [fd 31 31 .rw 0, fd 3 0 .rw 0]⟩,
    /- LA_DOORBELL (R508) -/ ⟨2, 1, .line, false, [fd 31 0 .wo 0]⟩,
    /- LA_HEAD (R508) -/ ⟨2, 1, .line, false, [fd 11 0 .ro 0]⟩,
    /- LA_CTX_STAT (R511) -/ ⟨1, 1, .line, false, [fd 15 0 .ro 0]⟩,
    /- LA_CFG (R512) -/ ⟨1, 1, .line, false, [fd 31 31 .rw 0, fd 30 30 .rw 0]⟩ ]

/-- CIPH registers 24 to 35. -/
def blkCIPH2 : List RegDesc :=
  [ /- LA_STAT (R515) -/ ⟨1, 1, .line, false, [fd 1 0 .ro 0]⟩,
    /- LA_ERR (R515) -/ ⟨1, 1, .line, false, [fd 31 31 .ro 0, fd 30 0 .ro 0]⟩,
    /- EVT (R515) -/ ⟨1, 1, .lc, false, [fd 5 5 .w1c 0, fd 4 4 .w1c 0, fd 3 3 .w1c 0, fd 2 2 .w1c 0, fd 1 1 .w1c 0, fd 0 0 .w1c 0]⟩,
    /- IEN (R515) -/ ⟨1, 1, .lc, false, [fd 5 0 .rw 0]⟩,
    /- CNT_ERASED (R491) -/ ⟨4, 1, .chan, false, [fd 31 0 .rc 0]⟩,
    /- CNT_NO_KEY (R491) -/ ⟨4, 1, .chan, false, [fd 31 0 .rc 0]⟩,
    /- CNT_MS_RX_ERASED (R491) -/ ⟨64, 1, .port, false, [fd 31 0 .rc 0]⟩,
    /- CNT_MS_TX_ERASED (R491) -/ ⟨64, 1, .port, false, [fd 31 0 .rc 0]⟩,
    /- CNT_MS_TX_NOKEY (R491) -/ ⟨64, 1, .port, false, [fd 31 0 .rc 0]⟩,
    /- CNT_UP_NOKEY (R496) -/ ⟨4, 1, .chan, false, [fd 31 0 .rc 0]⟩,
    /- CNT_OMCI_MIC (R498) -/ ⟨4, 1, .chan, false, [fd 31 0 .rc 0]⟩,
    /- CNT_MS_TX_PNEXH (R503) -/ ⟨64, 1, .port, false, [fd 31 0 .rc 0]⟩ ]

/-- CIPH registers 36 to 42. -/
def blkCIPH3 : List RegDesc :=
  [ /- CNT_MS_RX_OK (R507) -/ ⟨64, 1, .port, false, [fd 31 0 .rc 0]⟩,
    /- CNT_MS_RX_UNTAGGED (R507) -/ ⟨64, 1, .port, false, [fd 31 0 .rc 0]⟩,
    /- CNT_MS_RX_BADTAG (R507) -/ ⟨64, 1, .port, false, [fd 31 0 .rc 0]⟩,
    /- CNT_MS_RX_NOSA (R507) -/ ⟨64, 1, .port, false, [fd 31 0 .rc 0]⟩,
    /- CNT_MS_RX_REPLAY (R507) -/ ⟨64, 1, .port, false, [fd 31 0 .rc 0]⟩,
    /- CNT_MS_RX_TAGFAIL (R507) -/ ⟨64, 1, .port, false, [fd 31 0 .rc 0]⟩,
    /- CNT_MS_TX_PROT (R507) -/ ⟨64, 1, .port, false, [fd 31 0 .rc 0]⟩ ]

/-- Block CIPH, CODE 0x18. -/
def blkCIPH : List RegDesc := blkCIPH0 ++ blkCIPH1 ++ blkCIPH2 ++ blkCIPH3

/-- KSLOT registers 0 to 2. -/
def blkKSLOT0 : List RegDesc :=
  [ /- STAGE (R487) -/ ⟨12, 1, .lc, false, [fd 31 0 .wo 0]⟩,
    /- CMD (R488) -/ ⟨1, 1, .lc, false, [fd 31 31 .wo 0, fr 30 29 .rw 0 0 2, fr 28 27 .rw 0 0 2, fd 26 26 .rw 0, fd 11 0 .rw 0]⟩,
    /- STAT (R490) -/ ⟨1, 1, .lc, false, [fd 31 31 .ro 0, fd 30 30 .ro 0, fd 29 29 .w1c 0, fd 28 26 .ro 0, fd 15 0 .ro 0]⟩ ]

/-- Block KSLOT, CODE 0x19. -/
def blkKSLOT : List RegDesc := blkKSLOT0

/-- RSV registers 0 to 11. -/
def blkRSV0 : List RegDesc :=
  [ /- CTL (R545) -/ ⟨1, 1, .all, false, [fd 31 31 .rw 0, fd 30 30 .rw 1, fd 4 0 .rw 0x10]⟩,
    /- STAT (R545) -/ ⟨1, 1, .all, false, [fd 31 31 .ro 0, fd 30 29 .ro 0, fd 13 8 .ro 0]⟩,
    /- CAPACITY (R526) -/ ⟨1, 1, .all, false, [fd 24 0 .ro 0]⟩,
    /- FREE (R526) -/ ⟨1, 1, .all, false, [fd 24 0 .ro 0]⟩,
    /- CAP_ALARM (R526) -/ ⟨1, 1, .all, false, [fd 24 0 .rw 0]⟩,
    /- LOST_CELLS (R531) -/ ⟨1, 1, .all, false, [fd 24 0 .ro 0]⟩,
    /- SPMAP_CTL (R548) -/ ⟨1, 1, .all, false, [fd 31 31 .wo 0, fd 30 29 .rw 0, fd 28 28 .ro 0, fd 27 27 .w1c 0, fd 24 16 .rw 0, fd 10 0 .rw 0]⟩,
    /- SPMAP_DATA (R548) -/ ⟨1, 1, .all, false, [fd 31 31 .rw 0, fd 30 29 .rw 0, fd 26 18 .rw 0, fd 17 0 .rw 0]⟩,
    /- ELOG_W (R546) -/ ⟨3, 1, .all, false, [fd 31 0 .ro 0]⟩,
    /- EVT (R546) -/ ⟨1, 1, .all, false, [fd 6 6 .w1c 0, fd 5 5 .w1c 0, fd 3 3 .w1c 0, fd 2 2 .w1c 0, fd 1 1 .w1c 0, fd 0 0 .w1c 0]⟩,
    /- IEN (R546; the bit of the event that only the other block has is reserved: log 111) -/ ⟨1, 1, .all, false, [fd 6 5 .rw 0, fd 3 0 .rw 0]⟩,
    /- CNT_NOBUF (R525) -/ ⟨1, 1, .all, false, [fd 31 0 .rc 0]⟩ ]

/-- RSV registers 12 to 12. -/
def blkRSV1 : List RegDesc :=
  [ /- CNT_UE_TX (R530) -/ ⟨1, 1, .all, false, [fd 31 0 .rc 0]⟩ ]

/-- Block RSV, CODE 0x1a. -/
def blkRSV : List RegDesc := blkRSV0 ++ blkRSV1

/-- MEM registers 0 to 10. -/
def blkMEM0 : List RegDesc :=
  [ /- STAT (R545) -/ ⟨1, 1, .lc, false, [fd 31 31 .ro 0, fd 30 27 .ro 0, fd 20 16 .ro 0, fd 15 0 .ro 0]⟩,
    /- SCRUB_CFG (R534) -/ ⟨1, 1, .lc, false, [fd 4 0 .rw 10]⟩,
    /- QUEUE_RETIRED (R544) -/ ⟨8192, 1, .lc, false, [fd 31 0 .ro 0]⟩,
    /- TILE_OFF (R533) -/ ⟨4, 1, .lc, false, [fd 31 0 .w1c 0]⟩,
    /- SPMAP_CTL (R548) -/ ⟨1, 1, .lc, false, [fd 31 31 .wo 0, fd 30 29 .rw 0, fd 28 28 .ro 0, fd 27 27 .w1c 0, fd 26 26 .wo 0, fd 25 25 .ro 0, fd 24 16 .rw 0, fd 10 0 .rw 0]⟩,
    /- SPMAP_DATA (R548) -/ ⟨1, 1, .lc, false, [fd 31 31 .rw 0, fd 30 29 .rw 0, fd 26 18 .rw 0, fd 17 0 .rw 0]⟩,
    /- ELOG_W (R546) -/ ⟨3, 1, .lc, false, [fd 31 0 .ro 0]⟩,
    /- EVT (R546) -/ ⟨1, 1, .lc, false, [fd 6 6 .w1c 0, fd 5 5 .w1c 0, fd 4 4 .w1c 0, fd 2 2 .w1c 0, fd 1 1 .w1c 0, fd 0 0 .w1c 0]⟩,
    /- IEN (R546; the bit of the event that only the other block has is reserved: log 111) -/ ⟨1, 1, .lc, false, [fd 6 4 .rw 0, fd 2 0 .rw 0]⟩,
    /- CNT_UE_DROP (R527) -/ ⟨1, 1, .lc, false, [fd 31 0 .rc 0]⟩,
    /- CNT_TILE_UE (R533) -/ ⟨1, 1, .lc, false, [fd 31 0 .rc 0]⟩ ]

/-- Block MEM, CODE 0x1b. -/
def blkMEM : List RegDesc := blkMEM0

/-- CTL registers 0 to 11. -/
def blkCTL0 : List RegDesc :=
  [ /- L2_CFG (R555) -/ ⟨1, 1, .line, false, [fd 31 31 .rw 0, fd 30 30 .w1c 0, fr 4 0 .rw 0 0 12]⟩,
    /- RESET_VEC (R566) -/ ⟨1, 1, .line, true, [fd 31 0 .rw 0]⟩,
    /- CORE_RUN (R566) -/ ⟨1, 1, .line, true, [fd 0 0 .rw 0]⟩,
    /- ECC_CE (R574) -/ ⟨1, 1, .line, false, [fd 31 0 .rc 0]⟩,
    /- ECC_UE (R574) -/ ⟨1, 1, .line, false, [fd 31 0 .rc 0]⟩,
    /- SEM (R594) -/ ⟨32, 1, .d0, false, [fd 31 31 .ro 0, fd 30 30 .ro 0, fd 3 0 .ro 0]⟩,
    /- UART_CFG (R587) -/ ⟨1, 1, .d0, false, [fd 31 31 .rw 0, fd 30 30 .rw 0, fd 29 29 .rw 0, fr 15 0 .rw 0xd9 16 65535]⟩,
    /- UART_DATA (R588) -/ ⟨1, 1, .d0, false, [fd 8 8 .ro 0, fd 7 0 .wo 0]⟩,
    /- UART_STAT (R588) -/ ⟨1, 1, .d0, false, [fd 30 24 .ro 0, fd 22 16 .ro 0, fd 3 3 .ro 1, fd 2 2 .w1c 0, fd 1 1 .w1c 0, fd 0 0 .w1c 0]⟩,
    /- GPIO_DIR (R590) -/ ⟨1, 1, .d0, false, [fd 31 0 .rw 0]⟩,
    /- GPIO_OUT (R590) -/ ⟨1, 1, .d0, false, [fd 31 0 .rw 0]⟩,
    /- GPIO_SET (R590) -/ ⟨1, 1, .d0, false, [fd 31 0 .wo 0]⟩ ]

/-- CTL registers 12 to 17. -/
def blkCTL1 : List RegDesc :=
  [ /- GPIO_CLR (R590) -/ ⟨1, 1, .d0, false, [fd 31 0 .wo 0]⟩,
    /- GPIO_IN (R590) -/ ⟨1, 1, .d0, false, [fd 31 0 .ro 0]⟩,
    /- GPIO_RISE (R591) -/ ⟨1, 1, .d0, false, [fd 31 0 .rw 0]⟩,
    /- GPIO_FALL (R591) -/ ⟨1, 1, .d0, false, [fd 31 0 .rw 0]⟩,
    /- GPIO_EVT (R591) -/ ⟨1, 1, .d0, false, [fd 31 0 .w1c 0]⟩,
    /- GPIO_IEN (R591) -/ ⟨1, 1, .d0, false, [fd 31 0 .rw 0]⟩ ]

/-- Block CTL, CODE 0x1c. -/
def blkCTL : List RegDesc := blkCTL0 ++ blkCTL1

/-- IRQ registers 0 to 6. -/
def blkIRQ0 : List RegDesc :=
  [ /- SRC_CFG (R576) -/ ⟨2048, 1, .srcs, false, [fd 31 31 .rw 0, fd 30 30 .rw 0, fd 23 20 .rw 0, fd 3 0 .rw 0]⟩,
    /- SRC_STAT (R575) -/ ⟨2048, 1, .srcs, false, [fd 31 31 .ro 0]⟩,
    /- CLAIM (R577) -/ ⟨24, 1, .irqs, false, [fd 11 0 .ro 0]⟩,
    /- EOI (R577) -/ ⟨24, 1, .irqs, false, [fd 11 0 .wo 0]⟩,
    /- RUNPRI (R577) -/ ⟨24, 1, .irqs, false, [fd 3 0 .ro 0]⟩,
    /- SGI (R579) -/ ⟨1, 1, .d0, false, [fd 11 0 .w1c 0]⟩,
    /- SGI_SET (R579) -/ ⟨1, 1, .d0, false, [fd 11 0 .wo 0]⟩ ]

/-- Block IRQ, CODE 0x1d. -/
def blkIRQ : List RegDesc := blkIRQ0

/-- DMA registers 0 to 11. -/
def blkDMA0 : List RegDesc :=
  [ /- CFG (R620) -/ ⟨1, 32, .dma, false, [fd 31 30 .rw 0, fd 29 29 .rw 0, fd 28 28 .rw 0, fr 27 26 .rw 0 0 2, fd 25 21 .rw 0, fr 19 16 .rw 4 1 15, fr 11 0 .rw 0x40 1 4095]⟩,
    /- CTL (R618) -/ ⟨1, 32, .dma, false, [fd 31 31 .wo 0, fd 30 30 .wo 0, fd 29 29 .wo 0]⟩,
    /- STAT (R619) -/ ⟨1, 32, .dma, false, [fd 31 29 .ro 0, fd 28 28 .w1c 0, fd 23 16 .ro 0, fd 15 0 .ro 0]⟩,
    /- BASE_LO (R598) -/ ⟨1, 32, .dma, false, [fd 31 5 .rw 0]⟩,
    /- BASE_HI (R598) -/ ⟨1, 32, .dma, false, [fd 7 0 .rw 0]⟩,
    /- DESC_LO (R598) -/ ⟨1, 32, .dma, false, [fd 31 5 .rw 0]⟩,
    /- DESC_HI (R598) -/ ⟨1, 32, .dma, false, [fd 7 0 .rw 0]⟩,
    /- DOORBELL (R599) -/ ⟨1, 32, .dma, false, [fd 31 0 .wo 0]⟩,
    /- PACE_PER (R604) -/ ⟨1, 32, .dma, false, [fd 23 0 .rw 1]⟩,
    /- ERR_INFO (R615) -/ ⟨1, 32, .dma, false, [fd 31 31 .w1c 0, fd 30 30 .ro 0, fd 29 28 .ro 0, fd 7 0 .ro 0]⟩,
    /- ERR_ADDR (R615) -/ ⟨1, 32, .dma, false, [fd 31 0 .ro 0]⟩,
    /- EVT (R619) -/ ⟨1, 32, .dma, false, [fd 3 3 .w1c 0, fd 2 2 .w1c 0, fd 1 1 .w1c 0, fd 0 0 .w1c 0]⟩ ]

/-- DMA registers 12 to 15. -/
def blkDMA1 : List RegDesc :=
  [ /- IEN (R619) -/ ⟨1, 32, .dma, false, [fd 3 0 .rw 0]⟩,
    /- CNT_OFF (R596) -/ ⟨1, 32, .dma, false, [fd 31 0 .rc 0]⟩,
    /- CNT_IN_FULL (R611) -/ ⟨1, 32, .dma, false, [fd 31 0 .rc 0]⟩,
    /- CNT_RING_DROP (R613) -/ ⟨1, 32, .dma, false, [fd 31 0 .rc 0]⟩ ]

/-- Block DMA, CODE 0x1e. -/
def blkDMA : List RegDesc := blkDMA0 ++ blkDMA1

/-- PMC registers 0 to 11. -/
def blkPMC0 : List RegDesc :=
  [ /- CTL (R693) -/ ⟨1, 9, .unit, false, [fd 31 31 .rw 0, fd 30 30 .rw 0, fd 7 0 .rw 0]⟩,
    /- OVF (R694) -/ ⟨1, 9, .unit, false, [fd 8 8 .w1c 0, fd 7 0 .w1c 0]⟩,
    /- CYC_LO (R695) -/ ⟨1, 9, .unit, false, [fd 31 0 .rw 0]⟩,
    /- CYC_HI (R695) -/ ⟨1, 9, .unit, false, [fd 31 0 .rw 0]⟩,
    /- CNT_LO (R695) -/ ⟨8, 9, .unit, false, [fd 31 0 .rw 0]⟩,
    /- CNT_HI (R695) -/ ⟨8, 9, .unit, false, [fd 15 0 .rw 0]⟩,
    /- EVTSEL (R693) -/ ⟨8, 9, .unit, false, [fd 31 31 .rw 0, fd 30 30 .rw 1, fd 29 29 .rw 1, fd 28 28 .rw 1, fd 23 16 .rw 0xff, fd 9 0 .rw 0]⟩,
    /- ARM (R699) -/ ⟨1, 1, .all, false, [fd 31 31 .wo 0, fd 30 30 .rw 0]⟩,
    /- ARM_AT (R699) -/ ⟨1, 1, .all, false, [fd 31 0 .rw 0]⟩,
    /- ARM_STAT (R699) -/ ⟨1, 1, .all, false, [fd 28 28 .w1c 0]⟩,
    /- BW_CFG (R703) -/ ⟨1, 1, .course, false, [fd 31 31 .rw 0, fd 19 0 .rw 0x3e8]⟩,
    /- BW_STAT (R705) -/ ⟨1, 1, .course, false, [fd 0 0 .w1c 0]⟩ ]

/-- PMC registers 12 to 13. -/
def blkPMC1 : List RegDesc :=
  [ /- BW_SEL (R705) -/ ⟨1, 1, .course, false, [fd 31 31 .wo 0, fd 19 16 .rw 0, fd 2 0 .rw 0]⟩,
    /- BW_W (R705) -/ ⟨5, 1, .course, false, [fd 31 0 .ro 0]⟩ ]

/-- Block PMC, CODE 0x1f. -/
def blkPMC : List RegDesc := blkPMC0 ++ blkPMC1

/-- SENS registers 0 to 6. -/
def blkSENS0 : List RegDesc :=
  [ /- TEMP (R706) -/ ⟨4, 1, .all, false, [fd 31 31 .ro 0, fd 11 0 .ro 0]⟩,
    /- VOLT (R706) -/ ⟨4, 1, .all, false, [fd 31 31 .ro 0, fd 11 0 .ro 0]⟩,
    /- MARGIN (R707) -/ ⟨1, 1, .all, false, [fd 7 0 .ro 0xff]⟩,
    /- ALM (R708) -/ ⟨8, 1, .all, false, [fd 31 31 .rw 0, fd 27 24 .rw 4, fd 23 12 .rw 0x460, fd 11 0 .rw 0xe00]⟩,
    /- STAT (R708) -/ ⟨1, 1, .all, false, [fd 15 8 .ro 0, fd 7 0 .ro 0]⟩,
    /- EVT (R708) -/ ⟨1, 1, .all, false, [fd 15 8 .w1c 0, fd 7 0 .w1c 0]⟩,
    /- IEN (R708) -/ ⟨1, 1, .all, false, [fd 15 0 .rw 0]⟩ ]

/-- Block SENS, CODE 0x20. -/
def blkSENS : List RegDesc := blkSENS0

/-- SPAN registers 0 to 0. -/
def blkSPAN0 : List RegDesc :=
  [ /- STATUS (R748) -/ ⟨13, 1, .reqs, false, [fd 31 31 .ro 0, fd 23 16 .ro 0, fd 15 8 .ro 0, fd 7 0 .ro 0]⟩ ]

/-- Block SPAN, CODE 0x21. -/
def blkSPAN : List RegDesc := blkSPAN0

/-- The registers of the block with a CODE (Table 19.3). -/
def block : Nat → List RegDesc
  | 0 => blkHW
  | 1 => blkKILN
  | 2 => blkPWR
  | 3 => blkCLK
  | 4 => blkTIME
  | 5 => blkFRZ
  | 6 => blkLANE
  | 7 => blkDLINK
  | 8 => blkPFR
  | 9 => blkPTC
  | 10 => blkEST
  | 11 => blkBOND
  | 12 => blkTILE
  | 13 => blkDISP
  | 14 => blkLKP
  | 15 => blkEDDY
  | 16 => blkSPW
  | 17 => blkDELTA
  | 18 => blkTM
  | 19 => blkWEIR
  | 20 => blkSLU
  | 21 => blkGATE
  | 22 => blkMAC
  | 23 => blkMGT
  | 24 => blkCIPH
  | 25 => blkKSLOT
  | 26 => blkRSV
  | 27 => blkMEM
  | 28 => blkCTL
  | 29 => blkIRQ
  | 30 => blkDMA
  | 31 => blkPMC
  | 32 => blkSENS
  | 33 => blkSPAN
  | _ => []

end RegTable

/-- The descriptor of a register by its identity. -/
def regDesc (reg : Nat) : RegDesc := (RegTable.block (reg / 256)).getD (reg % 256) ⟨0, 1, .all, false, []⟩

end Sys2Proof.Machine
end

