-- ==== Sys2Proof/Machine/RegNames.lean ====
section
/-!
DEFINITION. The registers and fields that the meanings name, as the chapters name them: BLOCK_REGISTER is a register's
identity and BLOCK_REGISTER_FIELD a field of it.
-/
namespace Sys2Proof.Machine.Reg

abbrev HW_ID : Nat := 0x0000
abbrev HW_DIE_MAP : Nat := 0x0001
abbrev HW_DIE_MAP_FENCED : Fld := ⟨0x0001, 23, 16⟩
abbrev HW_DIE_MAP_UP : Fld := ⟨0x0001, 15, 8⟩
abbrev HW_DIE_MAP_PRESENT : Fld := ⟨0x0001, 7, 0⟩
abbrev HW_ABSENT_INFO : Nat := 0x0002
abbrev HW_ABSENT_INFO_VALID : Fld := ⟨0x0002, 31, 31⟩
abbrev HW_ABSENT_INFO_DIE : Fld := ⟨0x0002, 27, 24⟩
abbrev HW_ABSENT_INFO_SOURCE : Fld := ⟨0x0002, 23, 20⟩
abbrev HW_ABSENT_INFO_DIR : Fld := ⟨0x0002, 16, 16⟩
abbrev HW_ABSENT_INFO_MORE : Fld := ⟨0x0002, 15, 8⟩
abbrev HW_ABSENT_INFO_ADDR_HI : Fld := ⟨0x0002, 7, 0⟩
abbrev HW_ABSENT_ADDR : Nat := 0x0003
abbrev HW_ABSENT_DROP : Nat := 0x0004
abbrev HW_OPMODE : Nat := 0x0005
abbrev HW_OPMODE_CHAN_ACT : Fld := ⟨0x0005, 31, 28⟩
abbrev HW_OPMODE_CHAN_OP : Fld := ⟨0x0005, 27, 24⟩
abbrev HW_OPMODE_CHANGE_CNT : Fld := ⟨0x0005, 23, 16⟩
abbrev HW_OPMODE_CHANGED : Fld := ⟨0x0005, 8, 8⟩
abbrev HW_OPMODE_PREV : Fld := ⟨0x0005, 6, 4⟩
abbrev HW_OPMODE_MODE : Fld := ⟨0x0005, 2, 0⟩
abbrev HW_BOOT_CTL : Nat := 0x0006
abbrev HW_BOOT_STAT : Nat := 0x0007
abbrev HW_BOOT_STAT_STATE : Fld := ⟨0x0007, 31, 29⟩
abbrev HW_BOOT_STAT_SLOT : Fld := ⟨0x0007, 28, 28⟩
abbrev HW_BOOT_STAT_ERR_A : Fld := ⟨0x0007, 27, 24⟩
abbrev HW_BOOT_STAT_ERR_B : Fld := ⟨0x0007, 23, 20⟩
abbrev HW_BOOT_STAT_SVN : Fld := ⟨0x0007, 13, 8⟩
abbrev HW_BOOT_STAT_KEY_IDX : Fld := ⟨0x0007, 1, 0⟩
abbrev HW_RST_CTL : Nat := 0x0008
abbrev HW_RST_CAUSE_CAUSE : Fld := ⟨0x0009, 7, 0⟩
abbrev HW_FUSE_CMD : Nat := 0x000a
abbrev HW_FUSE_CMD_BUSY : Fld := ⟨0x000a, 30, 30⟩
abbrev HW_FUSE_CMD_ERR : Fld := ⟨0x000a, 29, 27⟩
abbrev HW_FUSE_CMD_ARG : Fld := ⟨0x000a, 23, 16⟩
abbrev HW_FUSE_DATA : Nat := 0x000b
abbrev HW_LC_STAT : Nat := 0x000c
abbrev HW_LC_STAT_DBGK : Fld := ⟨0x000c, 21, 20⟩
abbrev HW_LC_STAT_REVOKED : Fld := ⟨0x000c, 19, 16⟩
abbrev HW_LC_STAT_ROLLBACK : Fld := ⟨0x000c, 13, 8⟩
abbrev HW_LC_STAT_LC : Fld := ⟨0x000c, 1, 0⟩
abbrev HW_UID_HI : Nat := 0x000d
abbrev HW_UID_LO : Nat := 0x000e
abbrev HW_SEC_EVT : Nat := 0x000f
abbrev HW_SEC_EVT_SRGN_BAD : Fld := ⟨0x000f, 1, 1⟩
abbrev HW_SEC_EVT_ZEROISED : Fld := ⟨0x000f, 0, 0⟩
abbrev HW_SEC_IEN_EN : Fld := ⟨0x0010, 0, 0⟩
abbrev HW_SRGN_BASE : Nat := 0x0011
abbrev HW_SRGN_BASE_V : Fld := ⟨0x0011, 27, 0⟩
abbrev HW_SRGN_CTL : Nat := 0x0012
abbrev HW_SRGN_CTL_EN : Fld := ⟨0x0012, 31, 31⟩
abbrev HW_SRGN_CTL_LOCK : Fld := ⟨0x0012, 30, 30⟩
abbrev HW_SRGN_CTL_PAGES : Fld := ⟨0x0012, 9, 0⟩
abbrev HW_WAKE_SOURCE : Nat := 0x0013
abbrev HW_WAKE_SOURCE_CNT : Fld := ⟨0x0013, 31, 24⟩
abbrev HW_WAKE_SOURCE_SRC : Fld := ⟨0x0013, 19, 16⟩
abbrev HW_WAKE_SOURCE_INDEX : Fld := ⟨0x0013, 7, 0⟩
abbrev HW_PAD_CFG : Nat := 0x0014
abbrev KILN_CMD : Nat := 0x0100
abbrev KILN_CMD_PURPOSE : Fld := ⟨0x0100, 27, 26⟩
abbrev KILN_CMD_KLEN : Fld := ⟨0x0100, 25, 25⟩
abbrev KILN_STAT : Nat := 0x0101
abbrev KILN_STAT_BUSY : Fld := ⟨0x0101, 31, 31⟩
abbrev KILN_STAT_READY : Fld := ⟨0x0101, 30, 30⟩
abbrev KILN_STAT_R_PURPOSE : Fld := ⟨0x0101, 29, 28⟩
abbrev KILN_STAT_R_KLEN : Fld := ⟨0x0101, 27, 27⟩
abbrev KILN_STAT_ERR : Fld := ⟨0x0101, 26, 24⟩
abbrev KILN_DIV : Nat := 0x0102
abbrev KILN_BLOB : Nat := 0x0103
abbrev KILN_KEYIN : Nat := 0x0104
abbrev PWR_RAIL_CFG : Nat := 0x0200
abbrev PWR_RAIL_CFG_STEP : Fld := ⟨0x0200, 7, 4⟩
abbrev PWR_RAIL_CFG_PG_TMO : Fld := ⟨0x0200, 3, 2⟩
abbrev PWR_RAIL_CFG_DLY : Fld := ⟨0x0200, 1, 0⟩
abbrev PWR_RAIL_STAGE : Nat := 0x0201
abbrev PWR_SEQ_STAT : Nat := 0x0202
abbrev PWR_SEQ_STAT_TABLE_VALID : Fld := ⟨0x0202, 31, 31⟩
abbrev PWR_FAULT : Nat := 0x0203
abbrev PWR_FAULT_ATTEMPTS : Fld := ⟨0x0203, 15, 8⟩
abbrev PWR_FAULT_KIND : Fld := ⟨0x0203, 7, 6⟩
abbrev PWR_FAULT_RAIL : Fld := ⟨0x0203, 4, 0⟩
abbrev PWR_PMB_CFG_PEC : Fld := ⟨0x0204, 30, 30⟩
abbrev PWR_PMB_CMD : Nat := 0x0205
abbrev PWR_PMB_CMD_BUSY : Fld := ⟨0x0205, 30, 30⟩
abbrev PWR_PMB_CMD_ERR : Fld := ⟨0x0205, 29, 28⟩
abbrev PWR_PMB_CMD_ADDR : Fld := ⟨0x0205, 22, 16⟩
abbrev PWR_PMB_CMD_CODE : Fld := ⟨0x0205, 15, 8⟩
abbrev PWR_PMB_DATA : Nat := 0x0206
abbrev PWR_PMB_DATA_V : Fld := ⟨0x0206, 15, 0⟩
abbrev PWR_AVS_CFG : Nat := 0x0207
abbrev PWR_AVS_CFG_EN : Fld := ⟨0x0207, 31, 31⟩
abbrev PWR_AVS_CFG_ADDR : Fld := ⟨0x0207, 30, 24⟩
abbrev PWR_AVS_CFG_TARGET : Fld := ⟨0x0207, 23, 16⟩
abbrev PWR_AVS_CFG_HYST : Fld := ⟨0x0207, 15, 12⟩
abbrev PWR_AVS_CFG_STEP : Fld := ⟨0x0207, 11, 8⟩
abbrev PWR_AVS_LIM_VMIN_MV : Fld := ⟨0x0208, 25, 16⟩
abbrev PWR_AVS_LIM_VMAX_MV : Fld := ⟨0x0208, 9, 0⟩
abbrev PWR_AVS_STAT : Nat := 0x0209
abbrev PWR_AVS_STAT_ERR : Fld := ⟨0x0209, 31, 31⟩
abbrev PWR_AVS_STAT_MARGIN : Fld := ⟨0x0209, 23, 16⟩
abbrev PWR_AVS_STAT_VOUT_MV : Fld := ⟨0x0209, 9, 0⟩
abbrev PWR_DIE_CFG_EN : Fld := ⟨0x020a, 31, 31⟩
abbrev PWR_DIE_CFG_MAX_STATE : Fld := ⟨0x020a, 30, 28⟩
abbrev PWR_DIE_CFG_GUARD : Fld := ⟨0x020a, 27, 16⟩
abbrev PWR_DIE_CFG_DWELL : Fld := ⟨0x020a, 11, 0⟩
abbrev PWR_DIE_STAT : Nat := 0x020b
abbrev PWR_DIE_STAT_STATE : Fld := ⟨0x020b, 31, 29⟩
abbrev PWR_DIE_STAT_IDLE_OK : Fld := ⟨0x020b, 28, 28⟩
abbrev PWR_DIE_STAT_HSRC : Fld := ⟨0x020b, 27, 24⟩
abbrev PWR_DIE_STAT_HORIZON : Fld := ⟨0x020b, 23, 0⟩
abbrev PWR_DIE_CTL : Nat := 0x020c
abbrev PWR_LAST_EVENT : Nat := 0x020d
abbrev PWR_LAST_EVENT_STATE : Fld := ⟨0x020d, 10, 8⟩
abbrev PWR_LAST_EVENT_EVENT : Fld := ⟨0x020d, 3, 0⟩
abbrev PWR_RET_LOST : Nat := 0x020e
abbrev PWR_RET_LOST_V : Fld := ⟨0x020e, 7, 0⟩
abbrev PWR_PORT_WAKE_MODE : Fld := ⟨0x020f, 1, 0⟩
abbrev PWR_MGT_WAKE_MODE : Fld := ⟨0x0210, 1, 0⟩
abbrev PWR_PAT_DATA : Nat := 0x0211
abbrev PWR_PAT_MASK : Nat := 0x0212
abbrev PWR_PAT_COMMIT : Nat := 0x0213
abbrev PWR_PS_CFG : Nat := 0x0214
abbrev PWR_PS_CFG_MODE : Fld := ⟨0x0214, 31, 30⟩
abbrev PWR_PS_CFG_WATCH_FR : Fld := ⟨0x0214, 23, 16⟩
abbrev PWR_PS_CFG_RX_LEAD_US : Fld := ⟨0x0214, 11, 0⟩
abbrev PWR_PS_TMR : Nat := 0x0215
abbrev PWR_PS_TMR_LP_FR : Fld := ⟨0x0215, 31, 16⟩
abbrev PWR_PS_TMR_AWARE_FR : Fld := ⟨0x0215, 15, 0⟩
abbrev PWR_PS_COMMIT : Nat := 0x0216
abbrev PWR_PS_CTL : Nat := 0x0217
abbrev PWR_PS_STAT : Nat := 0x0218
abbrev PWR_PS_STAT_PHASE : Fld := ⟨0x0218, 31, 30⟩
abbrev PWR_PS_STAT_RX_ON : Fld := ⟨0x0218, 29, 29⟩
abbrev PWR_PS_STAT_TX_ON : Fld := ⟨0x0218, 28, 28⟩
abbrev PWR_PS_STAT_FWI : Fld := ⟨0x0218, 7, 7⟩
abbrev PWR_PS_STAT_LWI : Fld := ⟨0x0218, 6, 6⟩
abbrev PWR_PS_STAT_RX_FAIL : Fld := ⟨0x0218, 5, 5⟩
abbrev PWR_PS_STAT_LEAVE : Fld := ⟨0x0218, 4, 4⟩
abbrev PWR_PS_STAT_ENDED : Fld := ⟨0x0218, 3, 3⟩
abbrev PWR_PS_STAT_REJ : Fld := ⟨0x0218, 2, 2⟩
abbrev PWR_PS_IEN : Nat := 0x0219
abbrev PWR_OFF_CTL : Nat := 0x021a
abbrev PWR_OFF_CTL_TMR_EN : Fld := ⟨0x021a, 30, 30⟩
abbrev PWR_OFF_TMR_V : Fld := ⟨0x021b, 31, 0⟩
abbrev PWR_THERM_STAT : Nat := 0x021c
abbrev PWR_THERM_STAT_CRIT : Fld := ⟨0x021c, 31, 31⟩
abbrev PWR_THERM_STAT_HOT : Fld := ⟨0x021c, 30, 30⟩
abbrev PWR_THERM_STAT_THROTTLE : Fld := ⟨0x021c, 2, 0⟩
abbrev PWR_CNT_SLEEP : Nat := 0x021d
abbrev PWR_CNT_DEEP : Nat := 0x021e
abbrev PWR_CNT_ABORT : Nat := 0x021f
abbrev PWR_CNT_HOLD_DROP : Nat := 0x0220
abbrev PWR_CNT_PAT_MISS : Nat := 0x0221
abbrev PWR_CNT_WAKE_DROP : Nat := 0x0222
abbrev PWR_CNT_MGT_WAKE_DROP : Nat := 0x0223
abbrev PWR_CNT_PS_GRANT : Nat := 0x0224
abbrev CLK_SSC_CFG : Nat := 0x0300
abbrev CLK_SSC_POS : Nat := 0x0301
abbrev CLK_SSC_POS_K : Fld := ⟨0x0301, 9, 0⟩
abbrev CLK_STATUS : Nat := 0x0302
abbrev CLK_STATUS_DIE_PLL : Fld := ⟨0x0302, 23, 16⟩
abbrev CLK_STATUS_LW_LOCKED : Fld := ⟨0x0302, 15, 12⟩
abbrev CLK_STATUS_LW_ON_REF : Fld := ⟨0x0302, 11, 8⟩
abbrev CLK_STATUS_REF_LOCK : Fld := ⟨0x0302, 0, 0⟩
abbrev TIME_CFG : Nat := 0x0400
abbrev TIME_CFG_EN : Fld := ⟨0x0400, 31, 31⟩
abbrev TIME_CFG_SRC : Fld := ⟨0x0400, 30, 30⟩
abbrev TIME_CFG_MASTER_CHAN : Fld := ⟨0x0400, 25, 24⟩
abbrev TIME_STATUS : Nat := 0x0401
abbrev TIME_STATUS_LOCKED : Fld := ⟨0x0401, 31, 31⟩
abbrev TIME_STATUS_HOLDOVER : Fld := ⟨0x0401, 30, 30⟩
abbrev TIME_STATUS_FROZE : Fld := ⟨0x0401, 29, 29⟩
abbrev TIME_STATUS_STEPPED : Fld := ⟨0x0401, 28, 28⟩
abbrev TIME_INCR : Nat := 0x0402
abbrev TIME_ADJ_SEC_HI_V : Fld := ⟨0x0403, 15, 0⟩
abbrev TIME_ADJ_SEC_LO_V : Fld := ⟨0x0404, 31, 0⟩
abbrev TIME_ADJ_NS_V : Fld := ⟨0x0405, 29, 0⟩
abbrev TIME_ADJ_CTL_OP : Fld := ⟨0x0406, 1, 0⟩
abbrev TIME_COMMIT : Nat := 0x0407
abbrev TIME_SNAP : Nat := 0x0408
abbrev TIME_SNAP_VALID : Fld := ⟨0x0408, 0, 0⟩
abbrev TIME_SNAP_SEC_HI : Nat := 0x0409
abbrev TIME_SNAP_SEC_LO : Nat := 0x040a
abbrev TIME_SNAP_NS : Nat := 0x040b
abbrev TIME_SNAP_FRAC : Nat := 0x040c
abbrev TIME_SNAP_FRAC_V : Fld := ⟨0x040c, 15, 0⟩
abbrev TIME_TOD_CAP_CTL : Nat := 0x040d
abbrev TIME_TOD_CAP_CTL_ARM : Fld := ⟨0x040d, 31, 31⟩
abbrev TIME_TOD_CAP_CTL_SF_LO : Fld := ⟨0x040d, 29, 0⟩
abbrev TIME_TOD_CAP_STAT : Nat := 0x040e
abbrev TIME_TOD_CAP_STAT_DONE : Fld := ⟨0x040e, 31, 31⟩
abbrev TIME_TOD_CAP_SEC_HI : Nat := 0x040f
abbrev TIME_TOD_CAP_SEC_LO : Nat := 0x0410
abbrev TIME_TOD_CAP_NS : Nat := 0x0411
abbrev TIME_TOD_CAP_FRAC : Nat := 0x0412
abbrev TIME_TOD_CAP_FRAC_V : Fld := ⟨0x0412, 15, 0⟩
abbrev TIME_PPS_CFG_OUT_EN : Fld := ⟨0x0413, 31, 31⟩
abbrev TIME_PPS_CFG_IN_EN : Fld := ⟨0x0413, 30, 30⟩
abbrev TIME_PPS_CFG_ADV_NS : Fld := ⟨0x0413, 27, 20⟩
abbrev TIME_PPS_CFG_WIDTH_US : Fld := ⟨0x0413, 19, 0⟩
abbrev TIME_PPS_IN_SEC_HI : Nat := 0x0414
abbrev TIME_PPS_IN_SEC_LO : Nat := 0x0415
abbrev TIME_PPS_IN_NS : Nat := 0x0416
abbrev TIME_PPS_IN_STAT : Nat := 0x0417
abbrev TIME_PPS_IN_STAT_VALID : Fld := ⟨0x0417, 31, 31⟩
abbrev TIME_PPS_IN_STAT_MISSED : Fld := ⟨0x0417, 7, 0⟩
abbrev TIME_TOD_CFG_DELAY_MS : Fld := ⟨0x0418, 31, 16⟩
abbrev TIME_TOD_TX : Nat := 0x0419
abbrev TIME_TOD_TX_READY : Fld := ⟨0x0419, 31, 31⟩
abbrev TIME_TOD_TX_LEN : Fld := ⟨0x0419, 6, 0⟩
abbrev TIME_TOD_STAT : Nat := 0x041a
abbrev TIME_TOD_STAT_RX_OVF : Fld := ⟨0x041a, 31, 31⟩
abbrev TIME_TOD_STAT_TX_SKIP : Fld := ⟨0x041a, 15, 0⟩
abbrev TIME_TOD_RX_TS : Nat := 0x041b
abbrev TIME_TOD_RX_TS_NS : Fld := ⟨0x041b, 29, 0⟩
abbrev TIME_TOD_TX_BUF : Nat := 0x041c
abbrev FRZ_CTL : Nat := 0x0500
abbrev FRZ_CTL_REQ : Fld := ⟨0x0500, 0, 0⟩
abbrev FRZ_STATUS : Nat := 0x0501
abbrev FRZ_STATUS_FROZEN : Fld := ⟨0x0501, 31, 31⟩
abbrev FRZ_STATUS_THAW_FAIL : Fld := ⟨0x0501, 30, 30⟩
abbrev FRZ_STATUS_CHAIN_DIRTY : Fld := ⟨0x0501, 29, 29⟩
abbrev FRZ_STATUS_SRC_REQ : Fld := ⟨0x0501, 25, 25⟩
abbrev FRZ_STATUS_SRC_PIN : Fld := ⟨0x0501, 24, 24⟩
abbrev FRZ_STATUS_LINK_FAIL : Fld := ⟨0x0501, 23, 16⟩
abbrev FRZ_STATUS_STOPPED : Fld := ⟨0x0501, 15, 8⟩
abbrev FRZ_STATUS_FREEZE_CNT : Fld := ⟨0x0501, 7, 0⟩
abbrev FRZ_CHAIN_SEL : Nat := 0x0502
abbrev FRZ_CHAIN_SEL_DIE : Fld := ⟨0x0502, 31, 28⟩
abbrev FRZ_CHAIN_SEL_DOMAIN : Fld := ⟨0x0502, 27, 25⟩
abbrev FRZ_CHAIN_SEL_INDEX : Fld := ⟨0x0502, 15, 0⟩
abbrev FRZ_CHAIN_LEN : Nat := 0x0503
abbrev FRZ_CHAIN_LEN_V : Fld := ⟨0x0503, 23, 0⟩
abbrev FRZ_CHAIN_POS : Nat := 0x0504
abbrev FRZ_CHAIN_POS_V : Fld := ⟨0x0504, 23, 0⟩
abbrev LANE_PRX_CFG : Nat := 0x0600
abbrev LANE_PRX_CFG_EN : Fld := ⟨0x0600, 31, 31⟩
abbrev LANE_PRX_CFG_XGS : Fld := ⟨0x0600, 30, 30⟩
abbrev LANE_PRX_CFG_SD_POL : Fld := ⟨0x0600, 28, 28⟩
abbrev LANE_PRX_STAT : Nat := 0x0601
abbrev LANE_PRX_STAT_SD : Fld := ⟨0x0601, 31, 31⟩
abbrev LANE_PRX_STAT_CDR_LOCK : Fld := ⟨0x0601, 30, 30⟩
abbrev LANE_PRX_STAT_SD_LOST : Fld := ⟨0x0601, 28, 28⟩
abbrev LANE_PRX_EQ_CTL : Nat := 0x0602
abbrev LANE_PRX_EQ_CTL_ADAPT_EN : Fld := ⟨0x0602, 31, 31⟩
abbrev LANE_PRX_FFE0 : Nat := 0x0603
abbrev LANE_PRX_FFE1 : Nat := 0x0604
abbrev LANE_PRX_DFE : Nat := 0x0605
abbrev LANE_PRX_EQ_COMMIT : Nat := 0x0606
abbrev LANE_PTX_CFG : Nat := 0x0607
abbrev LANE_PTX_CFG_EN : Fld := ⟨0x0607, 31, 31⟩
abbrev LANE_PTX_CFG_RATE : Fld := ⟨0x0607, 30, 29⟩
abbrev LANE_PTX_CFG_FORCE_DIS : Fld := ⟨0x0607, 28, 28⟩
abbrev LANE_PTX_CFG_BEN_POL : Fld := ⟨0x0607, 26, 26⟩
abbrev LANE_PTX_EQ : Nat := 0x0608
abbrev LANE_SUB_CFG : Nat := 0x0609
abbrev LANE_SUB_CFG_EN : Fld := ⟨0x0609, 31, 31⟩
abbrev LANE_SUB_CFG_RATE : Fld := ⟨0x0609, 30, 28⟩
abbrev LANE_SUB_CFG_AN_EN : Fld := ⟨0x0609, 27, 27⟩
abbrev LANE_SUB_CFG_LPBK : Fld := ⟨0x0609, 24, 24⟩
abbrev LANE_SUB_TX_EQ : Nat := 0x060a
abbrev LANE_MGT_CFG : Nat := 0x060b
abbrev LANE_MGT_CFG_EN : Fld := ⟨0x060b, 31, 31⟩
abbrev LANE_MGT_CFG_RATE : Fld := ⟨0x060b, 30, 28⟩
abbrev LANE_MGT_CFG_AN_EN : Fld := ⟨0x060b, 27, 27⟩
abbrev LANE_MGT_CFG_LPBK : Fld := ⟨0x060b, 24, 24⟩
abbrev LANE_MGT_TX_EQ : Nat := 0x060c
abbrev LANE_ESCAN_CTL : Nat := 0x060d
abbrev LANE_ESCAN_CTL_TARGET : Fld := ⟨0x060d, 29, 22⟩
abbrev LANE_ESCAN_CTL_PHASE : Fld := ⟨0x060d, 21, 16⟩
abbrev LANE_ESCAN_CTL_VOFF : Fld := ⟨0x060d, 15, 8⟩
abbrev LANE_ESCAN_CTL_DWELL : Fld := ⟨0x060d, 4, 0⟩
abbrev LANE_ESCAN_STAT : Nat := 0x060e
abbrev LANE_ESCAN_STAT_BUSY : Fld := ⟨0x060e, 31, 31⟩
abbrev LANE_ESCAN_STAT_DONE : Fld := ⟨0x060e, 30, 30⟩
abbrev LANE_ESCAN_STAT_ABORTED : Fld := ⟨0x060e, 29, 29⟩
abbrev LANE_ESCAN_STAT_CAUSE : Fld := ⟨0x060e, 28, 26⟩
abbrev LANE_ESCAN_ERR : Nat := 0x060f
abbrev LANE_OPT_I2C_CFG : Nat := 0x0610
abbrev LANE_OPT_I2C_CFG_IEN : Fld := ⟨0x0610, 29, 29⟩
abbrev LANE_OPT_I2C_CMD : Nat := 0x0611
abbrev LANE_OPT_I2C_STAT : Nat := 0x0612
abbrev LANE_OPT_I2C_STAT_DONE : Fld := ⟨0x0612, 31, 31⟩
abbrev LANE_OPT_I2C_DATA0 : Nat := 0x0613
abbrev LANE_OPT_I2C_DATA1 : Nat := 0x0614
abbrev DLINK_STATUS : Nat := 0x0700
abbrev DLINK_STATUS_LOCKED : Fld := ⟨0x0700, 31, 31⟩
abbrev DLINK_STATUS_LAT_FAIL : Fld := ⟨0x0700, 30, 30⟩
abbrev DLINK_STATUS_SLACK : Fld := ⟨0x0700, 27, 24⟩
abbrev DLINK_STATUS_DOWN_CNT : Fld := ⟨0x0700, 15, 8⟩
abbrev DLINK_TX_EQ : Nat := 0x0701
abbrev DLINK_DROP : Nat := 0x0702
abbrev DLINK_DROP_V : Fld := ⟨0x0702, 31, 0⟩
abbrev PFR_SYNC_CFG : Nat := 0x0800
abbrev PFR_SYNC_CFG_WAKE_GRACE : Fld := ⟨0x0800, 31, 24⟩
abbrev PFR_SYNC_CFG_PSYNC_TOL : Fld := ⟨0x0800, 18, 16⟩
abbrev PFR_SYNC_CFG_SYNC_LOSE : Fld := ⟨0x0800, 11, 8⟩
abbrev PFR_SYNC_CFG_SYNC_CONFIRM : Fld := ⟨0x0800, 3, 0⟩
abbrev PFR_SYNC_STAT : Nat := 0x0801
abbrev PFR_SYNC_STAT_STATE : Fld := ⟨0x0801, 31, 30⟩
abbrev PFR_SYNC_STAT_COUNT : Fld := ⟨0x0801, 29, 26⟩
abbrev PFR_SYNC_STAT_SFC_VALID : Fld := ⟨0x0801, 25, 25⟩
abbrev PFR_SYNC_STAT_XGS : Fld := ⟨0x0801, 24, 24⟩
abbrev PFR_SYNC_STAT_SYNC_ENTRIES : Fld := ⟨0x0801, 23, 16⟩
abbrev PFR_SFC_LO : Nat := 0x0802
abbrev PFR_SFC_HI : Nat := 0x0803
abbrev PFR_SFC_HI_V : Fld := ⟨0x0803, 18, 0⟩
abbrev PFR_OC_LO : Nat := 0x0804
abbrev PFR_OC_HI : Nat := 0x0805
abbrev PFR_OC_HI_V : Fld := ⟨0x0805, 18, 0⟩
abbrev PFR_DEF_RAW : Nat := 0x0806
abbrev PFR_DEF_RAW_V : Fld := ⟨0x0806, 5, 0⟩
abbrev PFR_DEF : Nat := 0x0807
abbrev PFR_DEF_V : Fld := ⟨0x0807, 5, 0⟩
abbrev PFR_DEF_IEN : Nat := 0x0808
abbrev PFR_DEF_LATCH : Nat := 0x0809
abbrev PFR_DEF_LATCH_OC_CHG : Fld := ⟨0x0809, 17, 17⟩
abbrev PFR_DEF_LATCH_SFC_JUMP : Fld := ⟨0x0809, 16, 16⟩
abbrev PFR_DEF_LATCH_FALL : Fld := ⟨0x0809, 13, 8⟩
abbrev PFR_DEF_LATCH_RISE : Fld := ⟨0x0809, 5, 0⟩
abbrev PFR_SFSD_CFG : Nat := 0x080a
abbrev PFR_SFSD_CFG_UCW_WEIGHT : Fld := ⟨0x080a, 31, 16⟩
abbrev PFR_SFSD_CFG_WIN : Fld := ⟨0x080a, 15, 0⟩
abbrev PFR_SF_SET : Nat := 0x080b
abbrev PFR_SF_SET_V : Fld := ⟨0x080b, 31, 0⟩
abbrev PFR_SF_CLR : Nat := 0x080c
abbrev PFR_SF_CLR_V : Fld := ⟨0x080c, 31, 0⟩
abbrev PFR_SD_SET : Nat := 0x080d
abbrev PFR_SD_SET_V : Fld := ⟨0x080d, 31, 0⟩
abbrev PFR_SD_CLR : Nat := 0x080e
abbrev PFR_SD_CLR_V : Fld := ⟨0x080e, 31, 0⟩
abbrev PFR_UCW_CFG : Nat := 0x080f
abbrev PFR_UCW_CFG_UCW_CLR : Fld := ⟨0x080f, 15, 8⟩
abbrev PFR_UCW_CFG_UCW_SET : Fld := ⟨0x080f, 7, 0⟩
abbrev PFR_SFSD_COMMIT : Nat := 0x0810
abbrev PFR_PM_CFG : Nat := 0x0811
abbrev PFR_PM_CFG_EN : Fld := ⟨0x0811, 31, 31⟩
abbrev PFR_PM_CFG_TIMEBASE : Fld := ⟨0x0811, 30, 30⟩
abbrev PFR_PM_CFG_FRM_MODE : Fld := ⟨0x0811, 29, 29⟩
abbrev PFR_PM_CFG_FEC_MODE : Fld := ⟨0x0811, 28, 28⟩
abbrev PFR_PM_CFG_DAY_OFFSET : Fld := ⟨0x0811, 16, 0⟩
abbrev PFR_PM_SES : Nat := 0x0812
abbrev PFR_PM_SES_FEC_SES_THR : Fld := ⟨0x0812, 31, 16⟩
abbrev PFR_PM_SES_FRM_SES_THR : Fld := ⟨0x0812, 15, 0⟩
abbrev PFR_PM_SEL : Nat := 0x0813
abbrev PFR_PM_SEL_DAY : Fld := ⟨0x0813, 16, 16⟩
abbrev PFR_PM_SEL_INDEX : Fld := ⟨0x0813, 5, 0⟩
abbrev PFR_PM_STAT : Nat := 0x0814
abbrev PFR_PM_STAT_BIN15 : Fld := ⟨0x0814, 31, 31⟩
abbrev PFR_PM_STAT_BINDAY : Fld := ⟨0x0814, 30, 30⟩
abbrev PFR_PM_W : Nat := 0x0815
abbrev PTC_ACT_CTL : Nat := 0x0900
abbrev PTC_ACT_CTL_EN : Fld := ⟨0x0900, 31, 31⟩
abbrev PTC_ACT_STAT : Nat := 0x0901
abbrev PTC_ACT_STAT_STATE : Fld := ⟨0x0901, 31, 29⟩
abbrev PTC_ACT_STAT_REJECT : Fld := ⟨0x0901, 28, 28⟩
abbrev PTC_ACT_STAT_EQD_NEG : Fld := ⟨0x0901, 8, 8⟩
abbrev PTC_ACT_STAT_CMD_REJ : Fld := ⟨0x0901, 7, 7⟩
abbrev PTC_ACT_STAT_TO1_EXP : Fld := ⟨0x0901, 6, 6⟩
abbrev PTC_ACT_STAT_TO2_EXP : Fld := ⟨0x0901, 5, 5⟩
abbrev PTC_ACT_STAT_O6_EXIT : Fld := ⟨0x0901, 4, 4⟩
abbrev PTC_ACT_STAT_O6_ENTRY : Fld := ⟨0x0901, 3, 3⟩
abbrev PTC_ACT_STAT_LODS_DROP : Fld := ⟨0x0901, 2, 2⟩
abbrev PTC_ACT_STAT_O12_ENTRY : Fld := ⟨0x0901, 1, 1⟩
abbrev PTC_ACT_STAT_O7_ENTRY : Fld := ⟨0x0901, 0, 0⟩
abbrev PTC_ACT_IEN : Nat := 0x0902
abbrev PTC_ACT_TMR : Nat := 0x0903
abbrev PTC_ACT_TMR_TO1_MS : Fld := ⟨0x0903, 31, 16⟩
abbrev PTC_ACT_TMR_TO2_FR : Fld := ⟨0x0903, 15, 0⟩
abbrev PTC_ONU_ID : Nat := 0x0904
abbrev PTC_ONU_ID_VALID : Fld := ⟨0x0904, 31, 31⟩
abbrev PTC_ONU_ID_ID : Fld := ⟨0x0904, 9, 0⟩
abbrev PTC_SN_CFG : Nat := 0x0905
abbrev PTC_SN_CFG_SN_ALLOC : Fld := ⟨0x0905, 29, 16⟩
abbrev PTC_SN_CFG_DELAY_MAX : Fld := ⟨0x0905, 15, 0⟩
abbrev PTC_RSP_CFG : Nat := 0x0906
abbrev PTC_RSP_CFG_RSP_TIME : Fld := ⟨0x0906, 31, 16⟩
abbrev PTC_RSP_CFG_TRIM : Fld := ⟨0x0906, 11, 0⟩
abbrev PTC_EQD : Nat := 0x0907
abbrev PTC_EQD_V : Fld := ⟨0x0907, 23, 0⟩
abbrev PTC_EQD_COMMIT : Nat := 0x0908
abbrev PTC_PLOAMU_DATA : Nat := 0x0909
abbrev PTC_PLOAMU_PUSH : Nat := 0x090a
abbrev PTC_PLOAMU_STAT : Nat := 0x090b
abbrev PTC_PLOAMU_STAT_FULL_REJ : Fld := ⟨0x090b, 31, 31⟩
abbrev PTC_PLOAMU_STAT_LEVEL : Fld := ⟨0x090b, 3, 0⟩
abbrev PTC_PLOAMU_DEF : Nat := 0x090c
abbrev PTC_PLOAMD_STAT : Nat := 0x090d
abbrev PTC_PLOAMD_STAT_LEVEL : Fld := ⟨0x090d, 31, 26⟩
abbrev PTC_PLOAMD_STAT_OVF_CNT : Fld := ⟨0x090d, 15, 0⟩
abbrev PTC_PLOAMD_DATA : Nat := 0x090e
abbrev PTC_PLOAMD_POP : Nat := 0x090f
abbrev PTC_PLOAMD_IEN : Nat := 0x0910
abbrev PTC_PLOAMD_IEN_EN : Fld := ⟨0x0910, 0, 0⟩
abbrev PTC_OMCI_CFG : Nat := 0x0911
abbrev PTC_OMCI_CFG_DMA_CH : Fld := ⟨0x0911, 3, 0⟩
abbrev PTC_RX_CFG : Nat := 0x0912
abbrev PTC_RX_CFG_MAX_SDU : Fld := ⟨0x0912, 13, 0⟩
abbrev PTC_CNT_HEC_LOSS : Nat := 0x0913
abbrev PTC_CNT_ERR_CW : Nat := 0x0914
abbrev PTC_CNT_PID_MISS : Nat := 0x0915
abbrev PTC_CNT_ENC_REQ : Nat := 0x0916
abbrev PTC_CNT_BAD_KEYIDX : Nat := 0x0917
abbrev PTC_CNT_REASM_TMO : Nat := 0x0918
abbrev PTC_CNT_OVERSIZE : Nat := 0x0919
abbrev PTC_PID_STAGE0 : Nat := 0x091a
abbrev PTC_PID_STAGE1 : Nat := 0x091b
abbrev PTC_PID_WR : Nat := 0x091c
abbrev PTC_PID_WR_INDEX : Fld := ⟨0x091c, 11, 0⟩
abbrev EST_ALLOC_STAGE : Nat := 0x0a00
abbrev EST_ALLOC_WR : Nat := 0x0a01
abbrev EST_ALLOC_WR_INDEX : Fld := ⟨0x0a01, 9, 0⟩
abbrev EST_PROF_CFG : Nat := 0x0a02
abbrev EST_PROF_PRE_HI : Nat := 0x0a03
abbrev EST_PROF_PRE_LO : Nat := 0x0a04
abbrev EST_PROF_DEL_HI : Nat := 0x0a05
abbrev EST_PROF_DEL_LO : Nat := 0x0a06
abbrev EST_PROF_COMMIT : Nat := 0x0a07
abbrev EST_BEN_CFG : Nat := 0x0a08
abbrev EST_BEN_CFG_LEAD : Fld := ⟨0x0a08, 21, 16⟩
abbrev EST_BEN_CFG_LAG : Fld := ⟨0x0a08, 5, 0⟩
abbrev EST_GRANT_EVT : Nat := 0x0a09
abbrev EST_GRANT_EVT_V : Fld := ⟨0x0a09, 8, 0⟩
abbrev EST_GRANT_IEN : Nat := 0x0a0a
abbrev EST_CNT_STATE : Nat := 0x0a0b
abbrev EST_CNT_PLAN_FULL : Nat := 0x0a0c
abbrev EST_CNT_HEC : Nat := 0x0a0d
abbrev EST_CNT_MALFORMED : Nat := 0x0a0e
abbrev EST_CNT_ZERO : Nat := 0x0a0f
abbrev EST_CNT_PROFILE : Nat := 0x0a10
abbrev EST_CNT_LATE : Nat := 0x0a11
abbrev EST_CNT_OVERLAP : Nat := 0x0a12
abbrev EST_CNT_TX_OFF : Nat := 0x0a13
abbrev BOND_GROUP_CFG : Nat := 0x0b00
abbrev BOND_GROUP_CFG_EN : Fld := ⟨0x0b00, 31, 31⟩
abbrev BOND_GROUP_CFG_HOME : Fld := ⟨0x0b00, 30, 30⟩
abbrev BOND_GROUP_CFG_MEMBERS : Fld := ⟨0x0b00, 27, 24⟩
abbrev BOND_GROUP_CFG_STREAM_DIE : Fld := ⟨0x0b00, 23, 16⟩
abbrev BOND_GROUP_CFG_WINDOW : Fld := ⟨0x0b00, 13, 0⟩
abbrev BOND_GROUP_TMO : Nat := 0x0b01
abbrev BOND_GROUP_TMO_TIMEOUT : Fld := ⟨0x0b01, 15, 0⟩
abbrev BOND_MEMBER : Nat := 0x0b02
abbrev BOND_MEMBER_DELAY : Fld := ⟨0x0b02, 15, 0⟩
abbrev BOND_GROUP_COMMIT : Nat := 0x0b03
abbrev BOND_GROUP_STAT : Nat := 0x0b04
abbrev BOND_GROUP_STAT_ACTIVE : Fld := ⟨0x0b04, 31, 31⟩
abbrev BOND_GROUP_STAT_EN_EFF : Fld := ⟨0x0b04, 30, 30⟩
abbrev BOND_GROUP_STAT_REJECT : Fld := ⟨0x0b04, 29, 29⟩
abbrev BOND_GROUP_STAT_REJ_CAUSE : Fld := ⟨0x0b04, 28, 26⟩
abbrev BOND_GROUP_STAT_MEMBERS_EFF : Fld := ⟨0x0b04, 25, 22⟩
abbrev BOND_GROUP_STAT_RX_UP : Fld := ⟨0x0b04, 21, 18⟩
abbrev BOND_GROUP_STAT_SKEW_EMPTY : Fld := ⟨0x0b04, 17, 14⟩
abbrev BOND_GROUP_STAT_HELD : Fld := ⟨0x0b04, 13, 0⟩
abbrev BOND_SKEW_CTL : Nat := 0x0b05
abbrev BOND_SKEW_CTL_SF_LO : Fld := ⟨0x0b05, 15, 0⟩
abbrev BOND_SKEW_STAT : Nat := 0x0b06
abbrev BOND_SKEW_STAT_ARMED : Fld := ⟨0x0b06, 7, 4⟩
abbrev BOND_SKEW_STAT_CAPTURED : Fld := ⟨0x0b06, 3, 0⟩
abbrev BOND_SKEW_CAP : Nat := 0x0b07
abbrev BOND_UGRP_A : Nat := 0x0b08
abbrev BOND_UGRP_A_QENT : Fld := ⟨0x0b08, 9, 0⟩
abbrev BOND_UGRP_B : Nat := 0x0b09
abbrev BOND_UGRP_COMMIT : Nat := 0x0b0a
abbrev BOND_UGRP_COMMIT_INDEX : Fld := ⟨0x0b0a, 5, 0⟩
abbrev BOND_EVT : Nat := 0x0b0b
abbrev BOND_EVT_UP_GAP : Fld := ⟨0x0b0b, 14, 14⟩
abbrev BOND_EVT_SKEW_OVF : Fld := ⟨0x0b0b, 13, 13⟩
abbrev BOND_EVT_SKIP_FORCE : Fld := ⟨0x0b0b, 12, 12⟩
abbrev BOND_EVT_SKIP_TMO : Fld := ⟨0x0b0b, 11, 11⟩
abbrev BOND_EVT_SKEW_DONE : Fld := ⟨0x0b0b, 10, 10⟩
abbrev BOND_EVT_COMMIT_REJ : Fld := ⟨0x0b0b, 9, 9⟩
abbrev BOND_EVT_ACTIVE_CHG : Fld := ⟨0x0b0b, 8, 8⟩
abbrev BOND_EVT_RX_UP : Fld := ⟨0x0b0b, 7, 4⟩
abbrev BOND_EVT_RX_DOWN : Fld := ⟨0x0b0b, 3, 0⟩
abbrev BOND_IEN : Nat := 0x0b0c
abbrev BOND_CNT_BADTAG : Nat := 0x0b0d
abbrev BOND_CNT_NOT_MEMBER : Nat := 0x0b0e
abbrev BOND_CNT_SKEW_OVF : Nat := 0x0b0f
abbrev BOND_CNT_DUP : Nat := 0x0b10
abbrev BOND_CNT_LATE : Nat := 0x0b11
abbrev BOND_CNT_JUMP : Nat := 0x0b12
abbrev BOND_CNT_LOST : Nat := 0x0b13
abbrev BOND_CNT_TMO : Nat := 0x0b14
abbrev BOND_CNT_FAST : Nat := 0x0b15
abbrev BOND_CNT_FORCE : Nat := 0x0b16
abbrev BOND_CNT_UP_GAP : Nat := 0x0b17
abbrev BOND_CNT_UP_ORPHAN : Nat := 0x0b18
abbrev TILE_CFG : Nat := 0x0c00
abbrev TILE_CFG_BUDGET : Fld := ⟨0x0c00, 26, 16⟩
abbrev TILE_CFG_BANK : Fld := ⟨0x0c00, 0, 0⟩
abbrev TILE_ENTRY : Nat := 0x0c01
abbrev TILE_ENTRY_PC : Fld := ⟨0x0c01, 12, 0⟩
abbrev TILE_COMMIT : Nat := 0x0c02
abbrev TILE_BANK_STAT : Nat := 0x0c03
abbrev TILE_BANK_STAT_ACTIVE : Fld := ⟨0x0c03, 24, 24⟩
abbrev TILE_IMEM_ADDR : Nat := 0x0c04
abbrev TILE_IMEM_ADDR_INC : Fld := ⟨0x0c04, 31, 31⟩
abbrev TILE_IMEM_ADDR_ADDR : Fld := ⟨0x0c04, 12, 0⟩
abbrev TILE_IMEM_DATA : Nat := 0x0c05
abbrev TILE_IMEM_CHK : Nat := 0x0c06
abbrev TILE_IMEM_CHK_LEN : Fld := ⟨0x0c06, 13, 0⟩
abbrev TILE_IMEM_STAT : Nat := 0x0c07
abbrev TILE_IMEM_STAT_REJ : Fld := ⟨0x0c07, 31, 31⟩
abbrev TILE_IMEM_STAT_DONE : Fld := ⟨0x0c07, 30, 30⟩
abbrev TILE_IMEM_STAT_MISMATCH : Fld := ⟨0x0c07, 29, 29⟩
abbrev TILE_IMEM_STAT_CHK_BUSY : Fld := ⟨0x0c07, 28, 28⟩
abbrev TILE_IMEM_CRC : Nat := 0x0c08
abbrev TILE_EXC_CNT : Nat := 0x0c09
abbrev TILE_DROP_CNT : Nat := 0x0c0a
abbrev TILE_CNT_MIRROR_LIM : Nat := 0x0c0b
abbrev DISP_CFG : Nat := 0x0d00
abbrev DISP_CFG_RUN : Fld := ⟨0x0d00, 31, 31⟩
abbrev DISP_CFG_ORDER_HOLD : Fld := ⟨0x0d00, 12, 0⟩
abbrev DISP_SRC_CFG_EN : Fld := ⟨0x0d01, 31, 31⟩
abbrev DISP_SRC_CFG_ORDER : Fld := ⟨0x0d01, 30, 30⟩
abbrev DISP_DEFAULT : Nat := 0x0d02
abbrev DISP_CNT_FULL : Nat := 0x0d03
abbrev DISP_CNT_DIS : Nat := 0x0d04
abbrev DISP_CNT_ORDER_LATE : Nat := 0x0d05
abbrev LKP_EM_TBL : Nat := 0x0e00
abbrev LKP_TC_TBL : Nat := 0x0e01
abbrev LKP_LPM_TBL : Nat := 0x0e02
abbrev LKP_LPM_TBL_AF : Fld := ⟨0x0e02, 30, 30⟩
abbrev LKP_CNT_BANK : Nat := 0x0e03
abbrev LKP_TBL_COMMIT : Nat := 0x0e04
abbrev LKP_TBL_STAT : Nat := 0x0e05
abbrev LKP_TBL_STAT_REJ : Fld := ⟨0x0e05, 0, 0⟩
abbrev LKP_EM_STAGE : Nat := 0x0e06
abbrev LKP_EM_STAGE6 : Nat := 0x0e07
abbrev LKP_EM_WR : Nat := 0x0e08
abbrev LKP_EM_WR_INDEX : Fld := ⟨0x0e08, 18, 0⟩
abbrev LKP_TC_KEY : Nat := 0x0e09
abbrev LKP_TC_MASK : Nat := 0x0e0a
abbrev LKP_TC_DATA : Nat := 0x0e0b
abbrev LKP_TC_CTL : Nat := 0x0e0c
abbrev LKP_TC_CTL_G1 : Fld := ⟨0x0e0c, 31, 31⟩
abbrev LKP_TC_CTL_G0 : Fld := ⟨0x0e0c, 30, 30⟩
abbrev LKP_TC_WR : Nat := 0x0e0d
abbrev LKP_TC_WR_INDEX : Fld := ⟨0x0e0d, 13, 0⟩
abbrev LKP_WR_STAT : Nat := 0x0e0e
abbrev LKP_WR_STAT_EM_BUSY : Fld := ⟨0x0e0e, 31, 31⟩
abbrev LKP_WR_STAT_TC_BUSY : Fld := ⟨0x0e0e, 30, 30⟩
abbrev LKP_WR_STAT_REJ : Fld := ⟨0x0e0e, 29, 29⟩
abbrev LKP_LPM_PFX : Nat := 0x0e0f
abbrev LKP_LPM_RES : Nat := 0x0e10
abbrev LKP_LPM_CTL : Nat := 0x0e11
abbrev LKP_LPM_CTL_BUSY : Fld := ⟨0x0e11, 30, 30⟩
abbrev LKP_LPM_CTL_STATUS : Fld := ⟨0x0e11, 29, 28⟩
abbrev LKP_LPM_CTL_GEN : Fld := ⟨0x0e11, 25, 25⟩
abbrev LKP_LPM_CTL_TBL : Fld := ⟨0x0e11, 19, 16⟩
abbrev LKP_LPM_CTL_LEN : Fld := ⟨0x0e11, 7, 0⟩
abbrev LKP_LPM_USE : Nat := 0x0e12
abbrev LKP_LPM_USE_V : Fld := ⟨0x0e12, 18, 0⟩
abbrev LKP_LPM_USE6 : Nat := 0x0e13
abbrev LKP_LPM_USE6_V : Fld := ⟨0x0e13, 16, 0⟩
abbrev LKP_CNT_RD : Nat := 0x0e14
abbrev LKP_CNT_RD_INDEX : Fld := ⟨0x0e14, 17, 0⟩
abbrev LKP_CNT_PKT_HI : Nat := 0x0e15
abbrev LKP_CNT_PKT_HI_V : Fld := ⟨0x0e15, 7, 0⟩
abbrev LKP_CNT_PKT_LO : Nat := 0x0e16
abbrev LKP_CNT_PKT_LO_V : Fld := ⟨0x0e16, 31, 0⟩
abbrev LKP_CNT_BYTE_HI : Nat := 0x0e17
abbrev LKP_CNT_BYTE_HI_V : Fld := ⟨0x0e17, 23, 0⟩
abbrev LKP_CNT_BYTE_LO : Nat := 0x0e18
abbrev LKP_CNT_BYTE_LO_V : Fld := ⟨0x0e18, 31, 0⟩
abbrev LKP_GEN_CTL : Nat := 0x0e19
abbrev LKP_GEN_CTL_NEXT : Fld := ⟨0x0e19, 0, 0⟩
abbrev LKP_GEN_AT : Nat := 0x0e1a
abbrev LKP_GEN_STAT : Nat := 0x0e1b
abbrev LKP_GEN_STAT_ACTIVE : Fld := ⟨0x0e1b, 31, 31⟩
abbrev LKP_GEN_STAT_DRAINED : Fld := ⟨0x0e1b, 30, 30⟩
abbrev LKP_GEN_STAT_ARMED : Fld := ⟨0x0e1b, 29, 29⟩
abbrev LKP_GEN_STAT_MISSED : Fld := ⟨0x0e1b, 28, 28⟩
abbrev LKP_GEN_STAT_REJ : Fld := ⟨0x0e1b, 27, 27⟩
abbrev LKP_GEN_STAT_DRAIN_EVT : Fld := ⟨0x0e1b, 26, 26⟩
abbrev LKP_EPOCH : Nat := 0x0e1c
abbrev EDDY_STAT : Nat := 0x0f00
abbrev EDDY_CNT_PASS1 : Nat := 0x0f01
abbrev EDDY_CNT_PASS2 : Nat := 0x0f02
abbrev SPW_SLU : Nat := 0x1000
abbrev SPW_SLU_RATE : Fld := ⟨0x1000, 31, 12⟩
abbrev SPW_SLU_BURST : Fld := ⟨0x1000, 10, 0⟩
abbrev SPW_MAP : Nat := 0x1001
abbrev SPW_MAP_EN : Fld := ⟨0x1001, 31, 31⟩
abbrev SPW_MAP_CH : Fld := ⟨0x1001, 4, 0⟩
abbrev SPW_CNT_PASS : Nat := 0x1002
abbrev SPW_CNT_DROP : Nat := 0x1003
abbrev DELTA_GRP_STAGE0 : Nat := 0x1100
abbrev DELTA_GRP_STAGE1 : Nat := 0x1101
abbrev DELTA_GRP_WR : Nat := 0x1102
abbrev DELTA_GRP_WR_INDEX : Fld := ⟨0x1102, 13, 0⟩
abbrev DELTA_CPY_WR_ADDR_V : Fld := ⟨0x1103, 16, 0⟩
abbrev DELTA_CPY_WR_DATA : Nat := 0x1104
abbrev DELTA_CNT_FULL : Nat := 0x1105
abbrev DELTA_CNT_BAD_COPY : Nat := 0x1106
abbrev DELTA_CNT_EMPTY : Nat := 0x1107
abbrev TM_STAT : Nat := 0x1200
abbrev TM_STAT_READY : Fld := ⟨0x1200, 31, 31⟩
abbrev TM_Q_STAGE0 : Nat := 0x1201
abbrev TM_Q_STAGE0_EN : Fld := ⟨0x1201, 31, 31⟩
abbrev TM_Q_STAGE0_PROF : Fld := ⟨0x1201, 30, 27⟩
abbrev TM_Q_STAGE0_SLU : Fld := ⟨0x1201, 13, 0⟩
abbrev TM_Q_STAGE1 : Nat := 0x1202
abbrev TM_Q_STAGE1_W : Fld := ⟨0x1202, 15, 0⟩
abbrev TM_QOP : Nat := 0x1203
abbrev TM_QOP_BUSY : Fld := ⟨0x1203, 28, 28⟩
abbrev TM_QOP_REJ : Fld := ⟨0x1203, 27, 27⟩
abbrev TM_QOP_INDEX : Fld := ⟨0x1203, 17, 0⟩
abbrev TM_QOP_CNT_V : Fld := ⟨0x1204, 18, 0⟩
abbrev TM_Q_STAT : Nat := 0x1205
abbrev TM_PORT_CFG_EN : Fld := ⟨0x1206, 31, 31⟩
abbrev TM_PORT_CFG_QMODE : Fld := ⟨0x1206, 30, 30⟩
abbrev TM_PORT_CFG_OVH : Fld := ⟨0x1206, 21, 16⟩
abbrev TM_PORT_CFG_TX_LAT : Fld := ⟨0x1206, 15, 0⟩
abbrev TM_CLS_CFG : Nat := 0x1207
abbrev TM_CLS_CFG_GRAN : Fld := ⟨0x1207, 5, 0⟩
abbrev TM_CLS_OCC : Nat := 0x1208
abbrev TM_CLS_HWM : Nat := 0x1209
abbrev TM_PORT_OCC : Nat := 0x120a
abbrev TM_APROF_A : Nat := 0x120b
abbrev TM_APROF_A_GREEN_KIB : Fld := ⟨0x120b, 31, 16⟩
abbrev TM_APROF_A_YELLOW_KIB : Fld := ⟨0x120b, 15, 0⟩
abbrev TM_APROF_B : Nat := 0x120c
abbrev TM_APROF_B_RED_KIB : Fld := ⟨0x120c, 15, 0⟩
abbrev TM_APROF_COMMIT : Nat := 0x120d
abbrev TM_POOL_LIM_G : Nat := 0x120e
abbrev TM_POOL_LIM_G_V : Fld := ⟨0x120e, 27, 0⟩
abbrev TM_POOL_LIM_Y : Nat := 0x120f
abbrev TM_POOL_LIM_Y_V : Fld := ⟨0x120f, 27, 0⟩
abbrev TM_POOL_LIM_R : Nat := 0x1210
abbrev TM_POOL_LIM_R_V : Fld := ⟨0x1210, 27, 0⟩
abbrev TM_POOL_COMMIT : Nat := 0x1211
abbrev TM_POOL_OCC : Nat := 0x1212
abbrev TM_POOL_OCC_V : Fld := ⟨0x1212, 27, 0⟩
abbrev TM_UQ_CFG_GATE_EN : Fld := ⟨0x1213, 31, 31⟩
abbrev TM_UQ_CFG_GATE_SEL : Fld := ⟨0x1213, 7, 4⟩
abbrev TM_UQ_CFG_UPROF : Fld := ⟨0x1213, 3, 0⟩
abbrev TM_UPROF_SP : Nat := 0x1214
abbrev TM_UPROF_SP_V : Fld := ⟨0x1214, 7, 0⟩
abbrev TM_UPROF_W0 : Nat := 0x1215
abbrev TM_UPROF_W1 : Nat := 0x1216
abbrev TM_UPROF_COMMIT : Nat := 0x1217
abbrev TM_UDEF_ENTRY : Fld := ⟨0x1218, 9, 0⟩
abbrev TM_CNT_RETIRED : Nat := 0x1219
abbrev TM_CNT_FLUSH : Nat := 0x121a
abbrev TM_CNT_NOTREADY : Nat := 0x121b
abbrev TM_CNT_QDIS : Nat := 0x121c
abbrev TM_CNT_RED : Nat := 0x121d
abbrev TM_CNT_QLIM : Nat := 0x121e
abbrev TM_CNT_POOL : Nat := 0x121f
abbrev TM_CNT_LATE_START : Nat := 0x1220
abbrev TM_CNT_CLAMP : Nat := 0x1221
abbrev TM_CNT_TOOLONG : Nat := 0x1222
abbrev WEIR_CFG : Nat := 0x1300
abbrev WEIR_CFG_EN : Fld := ⟨0x1300, 31, 31⟩
abbrev WEIR_CFG_RATE_MANT : Fld := ⟨0x1300, 30, 19⟩
abbrev WEIR_CFG_RATE_EXP : Fld := ⟨0x1300, 18, 15⟩
abbrev WEIR_CFG_BURST : Fld := ⟨0x1300, 14, 0⟩
abbrev WEIR_BAL : Nat := 0x1301
abbrev SLU_STAGE0 : Nat := 0x1400
abbrev SLU_STAGE1 : Nat := 0x1401
abbrev SLU_STAGE2 : Nat := 0x1402
abbrev SLU_WR : Nat := 0x1403
abbrev SLU_WR_INDEX : Fld := ⟨0x1403, 13, 0⟩
abbrev SLU_CNT_RD : Nat := 0x1404
abbrev SLU_CNT_RD_INDEX : Fld := ⟨0x1404, 13, 0⟩
abbrev SLU_CNT_G : Nat := 0x1405
abbrev SLU_CNT_Y : Nat := 0x1406
abbrev SLU_CNT_R : Nat := 0x1407
abbrev GATE_CTL : Nat := 0x1500
abbrev GATE_CTL_EN : Fld := ⟨0x1500, 31, 31⟩
abbrev GATE_ADM_ADDR : Nat := 0x1501
abbrev GATE_ADM_ADDR_ADDR : Fld := ⟨0x1501, 7, 0⟩
abbrev GATE_ADM_DATA : Nat := 0x1502
abbrev GATE_ADM_LEN : Nat := 0x1503
abbrev GATE_ADM_LEN_LEN : Fld := ⟨0x1503, 8, 0⟩
abbrev GATE_ADM_BASE_SEC_HI : Nat := 0x1504
abbrev GATE_ADM_BASE_SEC_HI_V : Fld := ⟨0x1504, 15, 0⟩
abbrev GATE_ADM_BASE_SEC_LO : Nat := 0x1505
abbrev GATE_ADM_BASE_SEC_LO_V : Fld := ⟨0x1505, 31, 0⟩
abbrev GATE_ADM_BASE_NS : Nat := 0x1506
abbrev GATE_ADM_BASE_NS_V : Fld := ⟨0x1506, 29, 0⟩
abbrev GATE_ADM_CYCLE : Nat := 0x1507
abbrev GATE_ADM_CYCLE_V : Fld := ⟨0x1507, 29, 0⟩
abbrev GATE_STAT : Nat := 0x1508
abbrev GATE_STAT_OPER : Fld := ⟨0x1508, 31, 31⟩
abbrev GATE_STAT_PENDING : Fld := ⟨0x1508, 30, 30⟩
abbrev GATE_STAT_REJ : Fld := ⟨0x1508, 29, 29⟩
abbrev GATE_STAT_SWAPPED : Fld := ⟨0x1508, 28, 28⟩
abbrev MAC_CFG : Nat := 0x1600
abbrev MAC_CFG_RX_EN : Fld := ⟨0x1600, 31, 31⟩
abbrev MAC_CFG_TX_EN : Fld := ⟨0x1600, 30, 30⟩
abbrev MAC_CFG_PROMISC : Fld := ⟨0x1600, 29, 29⟩
abbrev MAC_CFG_ACCEPT_MC : Fld := ⟨0x1600, 28, 28⟩
abbrev MAC_CFG_ACCEPT_BC : Fld := ⟨0x1600, 27, 27⟩
abbrev MAC_CFG_SPEED : Fld := ⟨0x1600, 26, 25⟩
abbrev MAC_CFG_MAX_FRAME : Fld := ⟨0x1600, 14, 0⟩
abbrev MAC_STAT : Nat := 0x1601
abbrev MAC_STAT_LINK : Fld := ⟨0x1601, 31, 31⟩
abbrev MAC_STAT_LINK_CHG : Fld := ⟨0x1601, 30, 30⟩
abbrev MAC_STAT_PAUSE : Fld := ⟨0x1601, 29, 29⟩
abbrev MAC_STAT_PAUSE_WD : Fld := ⟨0x1601, 28, 28⟩
abbrev MAC_STAT_TX_LPI : Fld := ⟨0x1601, 27, 27⟩
abbrev MAC_STAT_RX_LPI : Fld := ⟨0x1601, 26, 26⟩
abbrev MAC_STAT_PFC_PAUSED : Fld := ⟨0x1601, 7, 0⟩
abbrev MAC_IEN_LINK_CHG : Fld := ⟨0x1602, 30, 30⟩
abbrev MAC_IEN_PAUSE_WD : Fld := ⟨0x1602, 28, 28⟩
abbrev MAC_IEN_TS_OVF : Fld := ⟨0x1602, 0, 0⟩
abbrev MAC_DA_STAGE_HI : Nat := 0x1603
abbrev MAC_DA_STAGE_LO : Nat := 0x1604
abbrev MAC_DA_WR : Nat := 0x1605
abbrev MAC_DA_WR_INDEX : Fld := ⟨0x1605, 2, 0⟩
abbrev MAC_FC_CFG : Nat := 0x1606
abbrev MAC_FC_CFG_PAUSE_EN : Fld := ⟨0x1606, 31, 31⟩
abbrev MAC_FC_CFG_PFC_EN : Fld := ⟨0x1606, 30, 30⟩
abbrev MAC_FC_CFG_PFC_MAP : Fld := ⟨0x1606, 23, 0⟩
abbrev MAC_FC_WD : Nat := 0x1607
abbrev MAC_FC_WD_WD_MS : Fld := ⟨0x1607, 15, 0⟩
abbrev MAC_PAUSE_TX : Nat := 0x1608
abbrev MAC_PAUSE_TX_QUANTA : Fld := ⟨0x1608, 15, 0⟩
abbrev MAC_EEE_CFG_EN : Fld := ⟨0x1609, 31, 31⟩
abbrev MAC_EEE_CFG_TW_NS : Fld := ⟨0x1609, 15, 0⟩
abbrev MAC_PTP_CFG : Nat := 0x160a
abbrev MAC_TS_RX_CORR : Nat := 0x160b
abbrev MAC_TS_TX_CORR : Nat := 0x160c
abbrev MAC_PTP_COMMIT : Nat := 0x160d
abbrev MAC_TSF_W : Nat := 0x160e
abbrev MAC_TS_STAT : Nat := 0x160f
abbrev MAC_TS_STAT_OVF : Fld := ⟨0x160f, 31, 31⟩
abbrev MAC_TS_STAT_LEVEL : Fld := ⟨0x160f, 21, 16⟩
abbrev MAC_TS_STAT_NEXT_SEQ : Fld := ⟨0x160f, 15, 0⟩
abbrev MAC_CNT_RX_CODE : Nat := 0x1610
abbrev MAC_CNT_RX_RUNT : Nat := 0x1611
abbrev MAC_CNT_RX_LONG : Nat := 0x1612
abbrev MAC_CNT_RX_FCS : Nat := 0x1613
abbrev MAC_CNT_RX_FILT : Nat := 0x1614
abbrev MAC_CNT_RX_PKTS : Nat := 0x1615
abbrev MAC_CNT_RX_BYTES_LO : Nat := 0x1616
abbrev MAC_CNT_RX_BYTES_HI : Nat := 0x1617
abbrev MAC_CNT_TX_LONG : Nat := 0x1618
abbrev MAC_CNT_TX_DIS : Nat := 0x1619
abbrev MAC_CNT_TX_CSUM_SKIP : Nat := 0x161a
abbrev MAC_CNT_RX_PAUSE : Nat := 0x161b
abbrev MAC_CNT_RX_CTL_DROP : Nat := 0x161c
abbrev MAC_CNT_PAUSE_WD : Nat := 0x161d
abbrev MAC_CNT_TX_PAUSE : Nat := 0x161e
abbrev MAC_CNT_TX_LPI : Nat := 0x161f
abbrev MAC_CNT_RX_LPI : Nat := 0x1620
abbrev MAC_CNT_TX_TS_SKIP : Nat := 0x1621
abbrev MAC_CNT_TS_DROP : Nat := 0x1622
abbrev MAC_CNT_TX_LINK_DROP : Nat := 0x1623
abbrev MAC_CNT_TX_PKTS : Nat := 0x1624
abbrev MAC_CNT_TX_BYTES_LO : Nat := 0x1625
abbrev MAC_CNT_TX_BYTES_HI : Nat := 0x1626
abbrev MAC_MDIO_CFG_NO_PRE : Fld := ⟨0x1627, 31, 31⟩
abbrev MAC_MDIO_CFG_DIV : Fld := ⟨0x1627, 7, 0⟩
abbrev MAC_MDIO_CMD : Nat := 0x1628
abbrev MAC_MDIO_CMD_BUSY : Fld := ⟨0x1628, 30, 30⟩
abbrev MAC_MDIO_CMD_PRTAD : Fld := ⟨0x1628, 20, 16⟩
abbrev MAC_MDIO_CMD_DEVAD : Fld := ⟨0x1628, 4, 0⟩
abbrev MAC_MDIO_DATA : Nat := 0x1629
abbrev MAC_MDIO_DATA_DATA : Fld := ⟨0x1629, 15, 0⟩
abbrev MAC_MDIO_STAT : Nat := 0x162a
abbrev MAC_MDIO_STAT_REJ : Fld := ⟨0x162a, 31, 31⟩
abbrev MAC_MDIO_STAT_DONE : Fld := ⟨0x162a, 3, 0⟩
abbrev MAC_MDIO_IEN : Nat := 0x162b
abbrev MAC_MDIO_IEN_V : Fld := ⟨0x162b, 3, 0⟩
abbrev MAC_CAGE_I2C_CFG : Nat := 0x162c
abbrev MAC_CAGE_I2C_CFG_IEN : Fld := ⟨0x162c, 29, 29⟩
abbrev MAC_CAGE_I2C_CMD : Nat := 0x162d
abbrev MAC_CAGE_I2C_DATA0 : Nat := 0x162e
abbrev MAC_CAGE_I2C_DATA1 : Nat := 0x162f
abbrev MAC_CAGE_I2C_STAT : Nat := 0x1630
abbrev MAC_CAGE_I2C_STAT_DONE : Fld := ⟨0x1630, 31, 31⟩
abbrev MAC_LED_CFG_EN : Fld := ⟨0x1631, 31, 31⟩
abbrev MAC_LED_CFG_POL : Fld := ⟨0x1631, 30, 30⟩
abbrev MAC_LED_SRC : Nat := 0x1632
abbrev MAC_LED_FW_V : Fld := ⟨0x1633, 3, 0⟩
abbrev MGT_CFG : Nat := 0x1700
abbrev MGT_CFG_SPEED : Fld := ⟨0x1700, 26, 25⟩
abbrev MGT_DA_WR : Nat := 0x1705
abbrev MGT_FC_CFG : Nat := 0x1706
abbrev MGT_FC_WD : Nat := 0x1707
abbrev MGT_PAUSE_TX : Nat := 0x1708
abbrev MGT_PTP_COMMIT : Nat := 0x170d
abbrev MGT_TSF_W : Nat := 0x170e
abbrev MGT_CNT_RX_BYTES_LO : Nat := 0x1716
abbrev MGT_CNT_TX_BYTES_LO : Nat := 0x1725
abbrev MGT_RX_CFG : Nat := 0x1727
abbrev MGT_RX_CFG_EN : Fld := ⟨0x1727, 31, 31⟩
abbrev MGT_RX_CFG_DMA_CH : Fld := ⟨0x1727, 4, 0⟩
abbrev MGT_TX_CFG_EN : Fld := ⟨0x1728, 31, 31⟩
abbrev MGT_TX_CFG_TS_MODE : Fld := ⟨0x1728, 9, 8⟩
abbrev MGT_TX_CFG_DMA_CH : Fld := ⟨0x1728, 4, 0⟩
abbrev MGT_CNT_RING_DROP : Nat := 0x1729
abbrev CIPH_UENC : Nat := 0x1800
abbrev CIPH_UENC_EN : Fld := ⟨0x1800, 31, 31⟩
abbrev CIPH_UENC_KEY_IDX : Fld := ⟨0x1800, 30, 29⟩
abbrev CIPH_UENC_KEY_BASE : Fld := ⟨0x1800, 11, 0⟩
abbrev CIPH_OMCI_CFG_EN : Fld := ⟨0x1801, 31, 31⟩
abbrev CIPH_OMCI_CFG_UP_ENTRY : Fld := ⟨0x1801, 25, 16⟩
abbrev CIPH_OMCI_CFG_IK_SLOT : Fld := ⟨0x1801, 11, 0⟩
abbrev CIPH_MS_TX : Nat := 0x1802
abbrev CIPH_MS_TX_EN : Fld := ⟨0x1802, 31, 31⟩
abbrev CIPH_MS_TX_CONF : Fld := ⟨0x1802, 30, 30⟩
abbrev CIPH_MS_TX_SCI_INC : Fld := ⟨0x1802, 29, 29⟩
abbrev CIPH_MS_TX_AN : Fld := ⟨0x1802, 17, 16⟩
abbrev CIPH_MS_TX_SLOT : Fld := ⟨0x1802, 10, 0⟩
abbrev CIPH_MS_SCI_HI : Nat := 0x1803
abbrev CIPH_MS_SCI_LO : Nat := 0x1804
abbrev CIPH_MS_TX_COMMIT : Nat := 0x1805
abbrev CIPH_MS_SA_CFG_XPN : Fld := ⟨0x1806, 31, 31⟩
abbrev CIPH_MS_PN_HI : Nat := 0x1807
abbrev CIPH_MS_PN_LO : Nat := 0x1808
abbrev CIPH_MS_PN_THR_HI_V : Fld := ⟨0x1809, 31, 0⟩
abbrev CIPH_MS_PN_THR_LO_V : Fld := ⟨0x180a, 31, 0⟩
abbrev CIPH_MS_RX_EN : Fld := ⟨0x180b, 31, 31⟩
abbrev CIPH_MS_RX_REPLAY : Fld := ⟨0x180b, 30, 30⟩
abbrev CIPH_MS_RX_WIN_V : Fld := ⟨0x180c, 31, 0⟩
abbrev CIPH_MS_RXSC_CTL_V : Fld := ⟨0x180d, 3, 0⟩
abbrev CIPH_MS_RXSC_HI : Nat := 0x180e
abbrev CIPH_MS_RXSC_LO : Nat := 0x180f
abbrev CIPH_MS_RXSA_V : Fld := ⟨0x1810, 31, 31⟩
abbrev CIPH_MS_RXSA_SLOT : Fld := ⟨0x1810, 10, 0⟩
abbrev CIPH_LA_BASE_LO_V : Fld := ⟨0x1811, 31, 6⟩
abbrev CIPH_LA_BASE_HI_V : Fld := ⟨0x1812, 7, 0⟩
abbrev CIPH_LA_RING_EN : Fld := ⟨0x1813, 31, 31⟩
abbrev CIPH_LA_RING_LOG2N : Fld := ⟨0x1813, 3, 0⟩
abbrev CIPH_LA_DOORBELL : Nat := 0x1814
abbrev CIPH_LA_HEAD : Nat := 0x1815
abbrev CIPH_LA_HEAD_V : Fld := ⟨0x1815, 11, 0⟩
abbrev CIPH_LA_CTX_STAT : Nat := 0x1816
abbrev CIPH_LA_CTX_STAT_V : Fld := ⟨0x1816, 15, 0⟩
abbrev CIPH_LA_CFG_EN : Fld := ⟨0x1817, 31, 31⟩
abbrev CIPH_LA_CFG_CLEAR_CTX : Fld := ⟨0x1817, 30, 30⟩
abbrev CIPH_LA_STAT : Nat := 0x1818
abbrev CIPH_LA_STAT_HALT : Fld := ⟨0x1818, 1, 0⟩
abbrev CIPH_LA_ERR : Nat := 0x1819
abbrev CIPH_LA_ERR_DIR : Fld := ⟨0x1819, 31, 31⟩
abbrev CIPH_LA_ERR_ADDR : Fld := ⟨0x1819, 30, 0⟩
abbrev CIPH_EVT : Nat := 0x181a
abbrev CIPH_EVT_OMCI_MIC : Fld := ⟨0x181a, 5, 5⟩
abbrev CIPH_EVT_PN_THR : Fld := ⟨0x181a, 4, 4⟩
abbrev CIPH_EVT_LA_HALT1 : Fld := ⟨0x181a, 3, 3⟩
abbrev CIPH_EVT_LA_HALT0 : Fld := ⟨0x181a, 2, 2⟩
abbrev CIPH_EVT_LA_DONE1 : Fld := ⟨0x181a, 1, 1⟩
abbrev CIPH_EVT_LA_DONE0 : Fld := ⟨0x181a, 0, 0⟩
abbrev CIPH_IEN : Nat := 0x181b
abbrev CIPH_CNT_ERASED : Nat := 0x181c
abbrev CIPH_CNT_NO_KEY : Nat := 0x181d
abbrev CIPH_CNT_MS_TX_ERASED : Nat := 0x181f
abbrev CIPH_CNT_MS_TX_NOKEY : Nat := 0x1820
abbrev CIPH_CNT_UP_NOKEY : Nat := 0x1821
abbrev CIPH_CNT_OMCI_MIC : Nat := 0x1822
abbrev CIPH_CNT_MS_TX_PNEXH : Nat := 0x1823
abbrev CIPH_CNT_MS_RX_OK : Nat := 0x1824
abbrev CIPH_CNT_MS_RX_UNTAGGED : Nat := 0x1825
abbrev CIPH_CNT_MS_RX_BADTAG : Nat := 0x1826
abbrev CIPH_CNT_MS_RX_NOSA : Nat := 0x1827
abbrev CIPH_CNT_MS_RX_REPLAY : Nat := 0x1828
abbrev CIPH_CNT_MS_RX_TAGFAIL : Nat := 0x1829
abbrev CIPH_CNT_MS_TX_PROT : Nat := 0x182a
abbrev KSLOT_STAGE : Nat := 0x1900
abbrev KSLOT_CMD : Nat := 0x1901
abbrev KSLOT_CMD_POOL : Fld := ⟨0x1901, 28, 27⟩
abbrev KSLOT_CMD_KLEN : Fld := ⟨0x1901, 26, 26⟩
abbrev KSLOT_CMD_INDEX : Fld := ⟨0x1901, 11, 0⟩
abbrev KSLOT_STAT : Nat := 0x1902
abbrev KSLOT_STAT_BUSY : Fld := ⟨0x1902, 31, 31⟩
abbrev KSLOT_STAT_HELD : Fld := ⟨0x1902, 30, 30⟩
abbrev KSLOT_STAT_REJ : Fld := ⟨0x1902, 29, 29⟩
abbrev KSLOT_STAT_REJ_CAUSE : Fld := ⟨0x1902, 28, 26⟩
abbrev KSLOT_STAT_SERIAL : Fld := ⟨0x1902, 15, 0⟩
abbrev RSV_CTL : Nat := 0x1a00
abbrev RSV_CTL_EN : Fld := ⟨0x1a00, 31, 31⟩
abbrev RSV_CTL_SCRUB_EN : Fld := ⟨0x1a00, 30, 30⟩
abbrev RSV_CTL_SCRUB_SHIFT : Fld := ⟨0x1a00, 4, 0⟩
abbrev RSV_STAT : Nat := 0x1a01
abbrev RSV_STAT_READY : Fld := ⟨0x1a01, 31, 31⟩
abbrev RSV_STAT_REF_MODE : Fld := ⟨0x1a01, 30, 29⟩
abbrev RSV_STAT_SPARE_MIN : Fld := ⟨0x1a01, 13, 8⟩
abbrev RSV_CAPACITY : Nat := 0x1a02
abbrev RSV_CAPACITY_V : Fld := ⟨0x1a02, 24, 0⟩
abbrev RSV_FREE : Nat := 0x1a03
abbrev RSV_FREE_V : Fld := ⟨0x1a03, 24, 0⟩
abbrev RSV_CAP_ALARM_V : Fld := ⟨0x1a04, 24, 0⟩
abbrev RSV_LOST_CELLS : Nat := 0x1a05
abbrev RSV_LOST_CELLS_V : Fld := ⟨0x1a05, 24, 0⟩
abbrev RSV_SPMAP_CTL : Nat := 0x1a06
abbrev RSV_SPMAP_CTL_REJ : Fld := ⟨0x1a06, 27, 27⟩
abbrev RSV_SPMAP_DATA : Nat := 0x1a07
abbrev RSV_ELOG_W : Nat := 0x1a08
abbrev RSV_EVT : Nat := 0x1a09
abbrev RSV_EVT_RTBL_FULL : Fld := ⟨0x1a09, 6, 6⟩
abbrev RSV_EVT_LOG_OVF : Fld := ⟨0x1a09, 5, 5⟩
abbrev RSV_EVT_CAP_ALARM : Fld := ⟨0x1a09, 3, 3⟩
abbrev RSV_EVT_RETIRE : Fld := ⟨0x1a09, 2, 2⟩
abbrev RSV_EVT_LASTING : Fld := ⟨0x1a09, 1, 1⟩
abbrev RSV_EVT_UNCORR : Fld := ⟨0x1a09, 0, 0⟩
abbrev RSV_IEN : Nat := 0x1a0a
abbrev RSV_CNT_NOBUF : Nat := 0x1a0b
abbrev RSV_CNT_UE_TX : Nat := 0x1a0c
abbrev MEM_STAT : Nat := 0x1b00
abbrev MEM_STAT_SPARE_BANK : Fld := ⟨0x1b00, 31, 31⟩
abbrev MEM_STAT_SB_BANK : Fld := ⟨0x1b00, 30, 27⟩
abbrev MEM_STAT_SPARE_MIN : Fld := ⟨0x1b00, 20, 16⟩
abbrev MEM_STAT_RETIRED : Fld := ⟨0x1b00, 15, 0⟩
abbrev MEM_SCRUB_CFG_SHIFT : Fld := ⟨0x1b01, 4, 0⟩
abbrev MEM_QUEUE_RETIRED : Nat := 0x1b02
abbrev MEM_QUEUE_RETIRED_V : Fld := ⟨0x1b02, 31, 0⟩
abbrev MEM_TILE_OFF : Nat := 0x1b03
abbrev MEM_TILE_OFF_V : Fld := ⟨0x1b03, 31, 0⟩
abbrev MEM_SPMAP_CTL : Nat := 0x1b04
abbrev MEM_SPMAP_CTL_REJ : Fld := ⟨0x1b04, 27, 27⟩
abbrev MEM_SPMAP_CTL_LOCKED : Fld := ⟨0x1b04, 25, 25⟩
abbrev MEM_SPMAP_DATA : Nat := 0x1b05
abbrev MEM_ELOG_W : Nat := 0x1b06
abbrev MEM_EVT : Nat := 0x1b07
abbrev MEM_EVT_RTBL_FULL : Fld := ⟨0x1b07, 6, 6⟩
abbrev MEM_EVT_LOG_OVF : Fld := ⟨0x1b07, 5, 5⟩
abbrev MEM_EVT_QEMPTY : Fld := ⟨0x1b07, 4, 4⟩
abbrev MEM_EVT_RETIRE : Fld := ⟨0x1b07, 2, 2⟩
abbrev MEM_EVT_LASTING : Fld := ⟨0x1b07, 1, 1⟩
abbrev MEM_EVT_UNCORR : Fld := ⟨0x1b07, 0, 0⟩
abbrev MEM_IEN : Nat := 0x1b08
abbrev MEM_CNT_UE_DROP : Nat := 0x1b09
abbrev MEM_CNT_TILE_UE : Nat := 0x1b0a
abbrev CTL_L2_CFG : Nat := 0x1c00
abbrev CTL_L2_CFG_EN : Fld := ⟨0x1c00, 31, 31⟩
abbrev CTL_L2_CFG_REJ : Fld := ⟨0x1c00, 30, 30⟩
abbrev CTL_L2_CFG_SRAM_WAYS : Fld := ⟨0x1c00, 4, 0⟩
abbrev CTL_RESET_VEC : Nat := 0x1c01
abbrev CTL_CORE_RUN : Nat := 0x1c02
abbrev CTL_CORE_RUN_V : Fld := ⟨0x1c02, 0, 0⟩
abbrev CTL_ECC_CE : Nat := 0x1c03
abbrev CTL_ECC_UE : Nat := 0x1c04
abbrev CTL_SEM : Nat := 0x1c05
abbrev CTL_SEM_HELD : Fld := ⟨0x1c05, 30, 30⟩
abbrev CTL_SEM_OWNER : Fld := ⟨0x1c05, 3, 0⟩
abbrev CTL_UART_CFG : Nat := 0x1c06
abbrev CTL_UART_CFG_EN : Fld := ⟨0x1c06, 31, 31⟩
abbrev CTL_UART_CFG_RX_IEN : Fld := ⟨0x1c06, 30, 30⟩
abbrev CTL_UART_CFG_TX_IEN : Fld := ⟨0x1c06, 29, 29⟩
abbrev CTL_UART_CFG_DIV : Fld := ⟨0x1c06, 15, 0⟩
abbrev CTL_UART_DATA : Nat := 0x1c07
abbrev CTL_UART_STAT : Nat := 0x1c08
abbrev CTL_UART_STAT_TX_LEVEL : Fld := ⟨0x1c08, 30, 24⟩
abbrev CTL_UART_STAT_RX_LEVEL : Fld := ⟨0x1c08, 22, 16⟩
abbrev CTL_UART_STAT_TX_IDLE : Fld := ⟨0x1c08, 3, 3⟩
abbrev CTL_UART_STAT_FERR : Fld := ⟨0x1c08, 2, 2⟩
abbrev CTL_UART_STAT_OVF : Fld := ⟨0x1c08, 1, 1⟩
abbrev CTL_UART_STAT_TX_DROP : Fld := ⟨0x1c08, 0, 0⟩
abbrev CTL_GPIO_DIR : Nat := 0x1c09
abbrev CTL_GPIO_OUT : Nat := 0x1c0a
abbrev CTL_GPIO_SET : Nat := 0x1c0b
abbrev CTL_GPIO_CLR : Nat := 0x1c0c
abbrev CTL_GPIO_IN : Nat := 0x1c0d
abbrev CTL_GPIO_RISE : Nat := 0x1c0e
abbrev CTL_GPIO_FALL : Nat := 0x1c0f
abbrev CTL_GPIO_EVT : Nat := 0x1c10
abbrev CTL_GPIO_IEN : Nat := 0x1c11
abbrev IRQ_SRC_CFG : Nat := 0x1d00
abbrev IRQ_SRC_CFG_CORE : Fld := ⟨0x1d00, 3, 0⟩
abbrev IRQ_SRC_STAT : Nat := 0x1d01
abbrev IRQ_SRC_STAT_LEVEL : Fld := ⟨0x1d01, 31, 31⟩
abbrev IRQ_CLAIM : Nat := 0x1d02
abbrev IRQ_EOI : Nat := 0x1d03
abbrev IRQ_RUNPRI : Nat := 0x1d04
abbrev IRQ_RUNPRI_V : Fld := ⟨0x1d04, 3, 0⟩
abbrev IRQ_SGI : Nat := 0x1d05
abbrev IRQ_SGI_V : Fld := ⟨0x1d05, 11, 0⟩
abbrev IRQ_SGI_SET : Nat := 0x1d06
abbrev DMA_CFG : Nat := 0x1e00
abbrev DMA_CFG_MODE : Fld := ⟨0x1e00, 31, 30⟩
abbrev DMA_CFG_CHAIN : Fld := ⟨0x1e00, 29, 29⟩
abbrev DMA_CFG_PERSIST : Fld := ⟨0x1e00, 28, 28⟩
abbrev DMA_CFG_PACE_SRC : Fld := ⟨0x1e00, 27, 26⟩
abbrev DMA_CFG_PACE_CH : Fld := ⟨0x1e00, 25, 21⟩
abbrev DMA_CFG_LOG2N : Fld := ⟨0x1e00, 19, 16⟩
abbrev DMA_CFG_CHAIN_LIMIT : Fld := ⟨0x1e00, 11, 0⟩
abbrev DMA_CTL : Nat := 0x1e01
abbrev DMA_STAT : Nat := 0x1e02
abbrev DMA_STAT_STATE : Fld := ⟨0x1e02, 31, 29⟩
abbrev DMA_STAT_REJ : Fld := ⟨0x1e02, 28, 28⟩
abbrev DMA_STAT_PACE_PEND : Fld := ⟨0x1e02, 23, 16⟩
abbrev DMA_STAT_DONE_CNT : Fld := ⟨0x1e02, 15, 0⟩
abbrev DMA_BASE_LO : Nat := 0x1e03
abbrev DMA_BASE_LO_V : Fld := ⟨0x1e03, 31, 5⟩
abbrev DMA_BASE_HI : Nat := 0x1e04
abbrev DMA_BASE_HI_V : Fld := ⟨0x1e04, 7, 0⟩
abbrev DMA_DESC_LO : Nat := 0x1e05
abbrev DMA_DESC_LO_V : Fld := ⟨0x1e05, 31, 5⟩
abbrev DMA_DESC_HI : Nat := 0x1e06
abbrev DMA_DESC_HI_V : Fld := ⟨0x1e06, 7, 0⟩
abbrev DMA_DOORBELL : Nat := 0x1e07
abbrev DMA_PACE_PER : Nat := 0x1e08
abbrev DMA_PACE_PER_V : Fld := ⟨0x1e08, 23, 0⟩
abbrev DMA_ERR_INFO : Nat := 0x1e09
abbrev DMA_ERR_INFO_VALID : Fld := ⟨0x1e09, 31, 31⟩
abbrev DMA_ERR_INFO_DIR : Fld := ⟨0x1e09, 30, 30⟩
abbrev DMA_ERR_INFO_CAUSE : Fld := ⟨0x1e09, 29, 28⟩
abbrev DMA_ERR_INFO_ADDR_HI : Fld := ⟨0x1e09, 7, 0⟩
abbrev DMA_ERR_ADDR : Nat := 0x1e0a
abbrev DMA_EVT : Nat := 0x1e0b
abbrev DMA_EVT_PACE_OVF : Fld := ⟨0x1e0b, 3, 3⟩
abbrev DMA_EVT_DROP : Fld := ⟨0x1e0b, 2, 2⟩
abbrev DMA_EVT_HALT : Fld := ⟨0x1e0b, 1, 1⟩
abbrev DMA_EVT_DONE : Fld := ⟨0x1e0b, 0, 0⟩
abbrev DMA_IEN : Nat := 0x1e0c
abbrev DMA_CNT_OFF : Nat := 0x1e0d
abbrev DMA_CNT_IN_FULL : Nat := 0x1e0e
abbrev DMA_CNT_RING_DROP : Nat := 0x1e0f
abbrev PMC_CTL : Nat := 0x1f00
abbrev PMC_CTL_RUN : Fld := ⟨0x1f00, 31, 31⟩
abbrev PMC_CTL_USER_RD : Fld := ⟨0x1f00, 30, 30⟩
abbrev PMC_CTL_OVF_IEN : Fld := ⟨0x1f00, 7, 0⟩
abbrev PMC_OVF : Nat := 0x1f01
abbrev PMC_OVF_CYC : Fld := ⟨0x1f01, 8, 8⟩
abbrev PMC_OVF_V : Fld := ⟨0x1f01, 7, 0⟩
abbrev PMC_CYC_LO : Nat := 0x1f02
abbrev PMC_CYC_HI : Nat := 0x1f03
abbrev PMC_CNT_LO : Nat := 0x1f04
abbrev PMC_CNT_HI : Nat := 0x1f05
abbrev PMC_EVTSEL : Nat := 0x1f06
abbrev PMC_ARM : Nat := 0x1f07
abbrev PMC_ARM_AT : Nat := 0x1f08
abbrev PMC_ARM_STAT : Nat := 0x1f09
abbrev PMC_ARM_STAT_MISSED : Fld := ⟨0x1f09, 28, 28⟩
abbrev PMC_BW_CFG : Nat := 0x1f0a
abbrev PMC_BW_CFG_EN : Fld := ⟨0x1f0a, 31, 31⟩
abbrev PMC_BW_CFG_WIN_US : Fld := ⟨0x1f0a, 19, 0⟩
abbrev PMC_BW_STAT : Nat := 0x1f0b
abbrev PMC_BW_STAT_CLOSED : Fld := ⟨0x1f0b, 0, 0⟩
abbrev PMC_BW_SEL : Nat := 0x1f0c
abbrev PMC_BW_SEL_LP : Fld := ⟨0x1f0c, 19, 16⟩
abbrev PMC_BW_SEL_INDEX : Fld := ⟨0x1f0c, 2, 0⟩
abbrev PMC_BW_W : Nat := 0x1f0d
abbrev SENS_TEMP : Nat := 0x2000
abbrev SENS_TEMP_VALID : Fld := ⟨0x2000, 31, 31⟩
abbrev SENS_TEMP_VALUE : Fld := ⟨0x2000, 11, 0⟩
abbrev SENS_VOLT : Nat := 0x2001
abbrev SENS_VOLT_VALID : Fld := ⟨0x2001, 31, 31⟩
abbrev SENS_VOLT_VALUE : Fld := ⟨0x2001, 11, 0⟩
abbrev SENS_MARGIN : Nat := 0x2002
abbrev SENS_MARGIN_V : Fld := ⟨0x2002, 7, 0⟩
abbrev SENS_ALM : Nat := 0x2003
abbrev SENS_ALM_EN : Fld := ⟨0x2003, 31, 31⟩
abbrev SENS_ALM_HYST : Fld := ⟨0x2003, 27, 24⟩
abbrev SENS_ALM_HI : Fld := ⟨0x2003, 23, 12⟩
abbrev SENS_ALM_LO : Fld := ⟨0x2003, 11, 0⟩
abbrev SENS_STAT : Nat := 0x2004
abbrev SENS_STAT_LO_ACT : Fld := ⟨0x2004, 15, 8⟩
abbrev SENS_STAT_HI_ACT : Fld := ⟨0x2004, 7, 0⟩
abbrev SENS_EVT : Nat := 0x2005
abbrev SENS_EVT_LO : Fld := ⟨0x2005, 15, 8⟩
abbrev SENS_EVT_HI : Fld := ⟨0x2005, 7, 0⟩
abbrev SENS_IEN : Nat := 0x2006
abbrev SPAN_STATUS : Nat := 0x2100
abbrev SPAN_STATUS_VALID : Fld := ⟨0x2100, 31, 31⟩
abbrev SPAN_STATUS_SEQ : Fld := ⟨0x2100, 23, 16⟩
abbrev SPAN_STATUS_FAILED : Fld := ⟨0x2100, 15, 8⟩
abbrev SPAN_STATUS_APPLIED : Fld := ⟨0x2100, 7, 0⟩

end Sys2Proof.Machine.Reg
end

