-- ==== Sys2Proof/Machine/Bits.lean ====
section
/-!
DEFINITION. Bit fields of words, byte order (R761) and the sparse tables every store of the machine is kept in.
-/
namespace Sys2Proof.Machine

/-- Bits [hi:lo] of a word, as a number (Numbers and notation of 00_scope.md). -/
def bits (w : Word) (hi lo : Nat) : Nat := (w.toNat >>> lo) % 2 ^ (hi + 1 - lo)

/-- The word with its bits [hi:lo] replaced by the low bits of v. -/
def setBits (w : Word) (hi lo v : Nat) : Word :=
  let m : Word := BitVec.ofNat 32 (2 ^ (hi + 1 - lo) - 1) <<< lo
  (w &&& ~~~m) ||| ((BitVec.ofNat 32 v <<< lo) &&& m)

/-- Bit n of a number. -/
def bitOf (v n : Nat) : Bool := v.testBit n

/-- A Bool as 0 or 1. -/
def b2n (b : Bool) : Nat := if b then 1 else 0

/-- Set or clear bit n of a number. -/
def putBit (v n : Nat) (b : Bool) : Nat := if v.testBit n == b then v else v ^^^ (1 <<< n)

/-- The number of set bits among the low n bits. -/
def popcount : Nat → Nat → Nat
  | 0, _ => 0
  | n + 1, v => b2n (v.testBit n) + popcount n v

/-- The set bits among the low n bits, in increasing order. -/
def bitList (n v : Nat) : List Nat := (List.range n).filter (fun i => v.testBit i)

/-- v as an n-bit two's-complement number. -/
def signed (n v : Nat) : Int := if v % 2 ^ n < 2 ^ (n - 1) then (v % 2 ^ n : Int) else (v % 2 ^ n : Int) - (2 ^ n : Int)

/-- A sum that stops at its largest value (a counter whose Meaning column states that it saturates, R11). -/
def satAdd (lim a b : Nat) : Nat := Nat.min lim (a + b)

/-- Bytes to a number, byte 0 least significant (R761). -/
def leNat : List Byte → Nat
  | [] => 0
  | b :: t => b.toNat + 256 * leNat t

/-- The low n bytes of a number, byte 0 first (R761). -/
def leBytes : Nat → Nat → List Byte
  | 0, _ => []
  | n + 1, v => BitVec.ofNat 8 v :: leBytes n (v / 256)

/-- Bytes to a number, the first most significant (wire order). -/
def beNat (l : List Byte) : Nat := l.foldl (fun a b => a * 256 + b.toNat) 0

/-- The low n bytes of a number, most significant first (wire order). -/
def beBytes (n v : Nat) : List Byte := (leBytes n v).reverse

/-- A sparse table: key and value pairs in strictly rising key order, holding no entry equal to the default. -/
abbrev Tab (α : Type) := List (Nat × α)

/-- The value a table holds at k, or d where it lists none. -/
def Tab.get {α : Type} (m : Tab α) (d : α) (k : Nat) : α :=
  match m with
  | [] => d
  | (k', v) :: t => if k' = k then v else Tab.get t d k

/-- The table without an entry at k. -/
def Tab.erase {α : Type} (m : Tab α) (k : Nat) : Tab α :=
  match m with
  | [] => []
  | (k', v) :: t => if k' = k then Tab.erase t k else (k', v) :: Tab.erase t k

/-- The table with an entry put in key order. -/
def Tab.insert {α : Type} (m : Tab α) (k : Nat) (v : α) : Tab α :=
  match m with
  | [] => [(k, v)]
  | (k', v') :: t => if k < k' then (k, v) :: (k', v') :: t else (k', v') :: Tab.insert t k v

/-- Write v at k: the default value lists no entry. -/
def Tab.set {α : Type} [DecidableEq α] (m : Tab α) (d : α) (k : Nat) (v : α) : Tab α :=
  if v = d then Tab.erase m k else Tab.insert (Tab.erase m k) k v

/-- Apply f to the value at k. -/
def Tab.mod {α : Type} [DecidableEq α] (m : Tab α) (d : α) (k : Nat) (f : α → α) : Tab α :=
  Tab.set m d k (f (Tab.get m d k))

/-- The canonical form: keys strictly rising, no entry equal to what an unlisted key holds. -/
def Tab.wf {α : Type} [DecidableEq α] (d : Nat → α) : Tab α → Bool
  | [] => true
  | [(k, v)] => decide (v ≠ d k)
  | (k, v) :: (k', v') :: t => decide (v ≠ d k) && decide (k < k') && Tab.wf d ((k', v') :: t)

/-- Replace element i of a list, if it has one. -/
def listSet {α : Type} : List α → Nat → α → List α
  | [], _, _ => []
  | _ :: t, 0, v => v :: t
  | h :: t, n + 1, v => h :: listSet t n v

/-- Bytes [o, o + n) of a list, zero beyond its end. -/
def slice (l : List Byte) (o n : Nat) : List Byte := (List.range n).map (fun i => l.getD (o + i) 0)

/-- Write bytes into a list at an offset; bytes beyond its end are dropped. -/
def splice : List Byte → Nat → List Byte → List Byte
  | l, _, [] => l
  | l, o, b :: t => splice (listSet l o b) (o + 1) t

end Sys2Proof.Machine
end

