-- ==== Sys2Proof/Machine/State.lean ====
section
/-!
DEFINITION. The machine's state, all of it plain data: the register file of Table 19.3 in one sparse table, memory, the
queue of waiting commands, and one structure for each subsystem's state that is not a register. A structure's default
values are its values at reset.
-/
namespace Sys2Proof.Machine

/-! ## Packets and packet buffers (R303, R319 to R321, R379, R524) -/

/-- A packet as the units hand it on: the number of the buffer it holds (the MODEL's own; a program sees the handle
m2.BUF), its bytes without FCS, and its sixteen metadata registers (Table 7.1). -/
structure Pkt where
  buf : Nat := 0
  bytes : List Byte := []
  m : List Word := []
  deriving DecidableEq, Repr

/-- A packet buffer in use (R379, R524): the die whose pool its cells come from, the cells, how many holds keep it, the
banks of retired rows that hold cells of it (R542), the initialisation its cells were taken in (R545), whether an
uncorrectable queue state has lost its cells (R531), whether its bytes were lost on a link that was down (R146), and whether it was
given a cell that a packet from before an initialisation still holds (R545). rx is the MODEL's own: the receive stamp of a frame that a MAC put in it,
in whole nanoseconds, by which R465 tells a residence of a second or more. -/
structure Buf where
  die : Nat := 0
  cells : Nat := 0
  holds : Nat := 0
  lost : List Nat := []
  epoch : Nat := 0
  leaked : Bool := false
  rx : Option Nat := none
  unwritten : Bool := false
  doubt : Bool := false
  deriving DecidableEq, Repr

/-- A forwarding command on its way (R320, R321, R376): the die and tile it left, whether the delta of that die sent it,
whether it is an MCAST to a delta, the die and queue (or group) it names, its packet, and its launch edge. -/
structure Fwd where
  from_ : Nat
  tile : Nat := 0
  copy : Bool := false
  mcast : Bool := false
  die : Nat
  queue : Nat
  pkt : Pkt
  launch : Nat
  deriving DecidableEq, Repr

/-- A packet on its way to its spillway sluice (R380): its die, its reason and what it delivers. -/
structure Spill where
  die : Nat
  reason : Nat
  pkt : Pkt
  deriving DecidableEq, Repr

/-- A piece of an upstream allocation (R244): the die and class queue it came from, its bytes with the buffer they lie in, and
whether it is the last of its frame, the Key Index and slot that its frame was first encrypted under (R495), whether it is a
remainder, the finish tag its frame stood under, for an OMCI message its bytes in earlier pieces (R499), and the order in which
its frame was served (the MODEL's own, R248). -/
structure Piece where
  die : Nat
  queue : Nat
  pkt : Pkt
  last : Bool
  enc : Option (Nat × Nat) := none
  rem : Bool := false
  tag : Nat := 0
  omci : Option (List Byte) := none
  ord : Nat := 0
  deriving DecidableEq, Repr


/-! ## Device organisation: the mesh (R19 to R37, R145 to R147, R665, R745 to R748, R762) -/

/-- What a mesh access answers its requester: the data of a read, whether the response is an error (R31), and the
count in mc after which it arrives (R22, R30, R36, R737). -/
structure MeshResp where
  data : BitVec 64 := 0
  err : Bool := false
  count : Nat := 0
  deriving DecidableEq, Repr

/-- An error response on its way to its requester (R31). -/
structure ErrResp where
  req : Requester
  addr : Addr
  dir : Bool
  deriving DecidableEq, Repr

/-- A router's report of a refused access on its way to line die 0 (R32). -/
structure Refusal32 where
  die : Nat
  source : Nat
  dir : Bool
  addr : Addr
  deriving DecidableEq, Repr

/-- A mesh request as its requester sends it (R25, R560). -/
structure MeshReq where
  req : Requester
  level : Level
  write : Bool
  addr : Addr
  log2 : Nat
  data : BitVec 64
  deriving DecidableEq, Repr

/-- What a router holds for a die that is not in RUN (R665): a request, a forwarding command, a posted write with its
two dies, or one die's part of a span write with its place in Mesh.spans, requester, level, die, offset, size and data. -/
inductive Held where
  | request (r : MeshReq)
  | command (c : Fwd)
  | posted (src die : Nat) (p : Posted)
  | span (key : Nat) (req : Requester) (level : Level) (die off n v : Nat)
  deriving DecidableEq, Repr

/-- A span write that waits for answers (R747, R748): the dies that applied it, those that answered with an error, and
those still to answer. -/
structure SpanWait where
  applied : Nat
  failed : Nat
  waiting : Nat
  deriving DecidableEq, Repr

/-- The mesh as a whole: answers by requester, error responses and refusal reports under way, requests lost on a link
that lost lock (R147), held traffic in arrival order, with the die it waits for (R665), the requests that find no room in their router and
wait at their requesters (R666), span writes under way (r for
SPAN.STATUS[r], 16 + n for an SPNW of core n, 32 + n for a store of core n), and the TAP's error flag (R31). -/
structure Mesh where
  resp : Tab MeshResp := []
  errs : List ErrResp := []
  reports : List Refusal32 := []
  lost : List ErrResp := []
  held : List (Nat × Held) := []
  waiting : List MeshReq := []
  spans : Tab (Option SpanWait) := []
  tapErr : Bool := false
  deriving DecidableEq, Repr

/-! ## Clocks, network time and freeze (R56 to R112, R758) -/

/-- The clock counts: the package mortar epoch E in mc (R142), the edges of rc, from which the wheel of R519 is counted,
and the edges of tc and ac since reset. `phase` is the place within the 50 nominal mc periods of one ac, `slow` how far mc is below its
nominal frequency in 50,000ths of it, and `frac` the part of an mc period that has passed, in 50,000ths (R686; the MODEL's own, log 3). -/
structure Clocks where
  mc : Nat := 0
  rc : Nat := 0
  tc : Nat := 0
  ac : Nat := 0
  phase : Nat := 0
  slow : Nat := 0
  frac : Nat := 0
  deriving DecidableEq, Repr

/-- A committed TIME.ADJ group on its way to tc (R79 to R82). -/
structure TimeAdj where
  op : Nat
  incr : Word
  sec : BitVec 48
  ns : BitVec 30
  deriving DecidableEq, Repr

/-- Where a network-time snapshot stands (R84): none under way, its GO on the way to tc, or its copy on the way back. -/
inductive SnapPhase where
  | idle | going | copied
  deriving DecidableEq, Repr

/-- The master network time counter and its ports (R72 to R93). The replicas hold the same value (R73) and are this one
counter. `run` is TIME.CFG.EN as tc has it (R75). -/
structure NetTime where
  sec : BitVec 48 := 0
  ns : BitVec 30 := 0
  frac : BitVec 28 := 0
  run : Bool := false
  pend : Option TimeAdj := none
  snap : SnapPhase := .idle
  relocking : Bool := false
  ppsOut : Bool := false
  ppsDue : Bool := false
  ppsLow : Nat := 0
  todWaits : List Nat := []
  todOut : List Byte := []
  todFifo : List Byte := []
  deriving DecidableEq, Repr

/-- Where a freeze stands (R94 to R112): running; the synchronised freeze taken and mc still running; every stoppable
domain stopped; thawing in steps 1 and 2; mc released and the other domains resuming. -/
inductive FreezePhase where
  | running | freezing | stopped | thawing | resuming
  deriving DecidableEq, Repr

/-- The freeze unit: the FREEZE_N ball (true is low), the phase, the chain positions by chain number (R104, R108), and
the reservoir dies whose stacks have left self-refresh in this thaw (R110). -/
structure Freeze where
  pinLow : Bool := false
  phase : FreezePhase := .running
  chains : Tab Nat := []
  awake : List Nat := []
  deriving DecidableEq, Repr

/-! ## Serial lanes (R113 to R158, R765) -/

/-- One eye-scan point as latched at START (R151): target receiver, offsets and dwell, and the mismatches so far. -/
structure ScanPoint where
  target : Nat
  phase : Nat
  voff : Nat
  dwell : Nat
  errors : Nat
  deriving DecidableEq, Repr

/-- An I2C transaction in progress (R155, R479), with the settings it started under (R158), and the cage bus it
selects. `stretched` is set when the target held SCL past STRETCH_MS (R156). -/
structure I2cJob where
  read : Bool
  len : Nat
  addr : Nat
  reg : Nat
  data : BitVec 64
  bus : Nat
  fast : Bool
  stretched : Bool
  deriving DecidableEq, Repr

/-- The lanes' own state: which mortar lanes have lock (by link, direction and lane, R135 to R141), the elastic delay
each link was fixed at (R142, R149), which links have lost lock and not come back (DLINK_DOWN, R144), by channel the rc count at which a coefficient moved last
(Table 3.5), eye-scan points and optics I2C jobs in progress by die. -/
structure Lanes where
  lock : Tab Bool := []
  fixedDelay : Tab Nat := []
  down : Tab Bool := []
  coefAt : Tab Nat := []
  scan : Tab (Option ScanPoint) := []
  optI2c : Tab (Option I2cJob) := []
  deriving DecidableEq, Repr

/-! ## Downstream framing and performance data (R159 to R202) -/

/-- The framer's synchronisation state (R161 to R164). -/
inductive Sync where
  | hunt | preSync | sync
  deriving DecidableEq, Repr

/-- The framer of a channel: its state, the running confirm or miss count, the local superframe counter and whether it
was loaded since the framer started (R167), the count that the present frame and the one before it are decrypted with (R169), whether the last comparison disagreed (R168), the third PSBd structure as
last copied since entry to SYNC (R171), the defect hold and the ticks since the receiver powered up (R184, R185), the UCW runs (R175), and the SF
and SD window with the group that waits for the next one (R180 to R183). -/
structure Framer where
  sync : Sync := .hunt
  cnt : Nat := 0
  sfc : BitVec 51 := 0
  loaded : Bool := false
  dec : BitVec 51 := 0
  decPrev : BitVec 51 := 0
  mismatch : Bool := false
  oc : Option (BitVec 51) := none
  held : Bool := false
  rxDown : Bool := false
  grace : Nat := 0
  frameBad : Bool := false
  badRun : Nat := 0
  goodRun : Nat := 0
  winFrames : Nat := 0
  winSum : Nat := 0
  sfsdPend : Option (List Word) := none
  deriving DecidableEq, Repr

/-- A performance bin (Table 4.9): the EVENT counts, the SECONDS counts of both groups, the start, the seconds elapsed,
the flags, the number of bins of its length closed before it was, and a serial number (the MODEL's own). -/
structure PmBin where
  psync : Nat := 0
  hecBad : Nat := 0
  hecCor : Nat := 0
  jumps : Nat := 0
  lods : Nat := 0
  cw : Nat := 0
  cor : Nat := 0
  unc : Nat := 0
  flips : Nat := 0
  frmEs : Nat := 0
  frmSes : Nat := 0
  frmUas : Nat := 0
  fecEs : Nat := 0
  fecSes : Nat := 0
  fecUas : Nat := 0
  start : Nat := 0
  elapsed : Nat := 0
  suspect : Bool := false
  short : Bool := false
  chOff : Bool := false
  asleep : Bool := false
  frmSec : Bool := false
  fecSec : Bool := false
  closed : Nat := 0
  serial : Nat := 0
  deriving DecidableEq, Repr

/-- A PM second whose classification is not final (R191, R193): the bins it belongs to, the modes it counts in, whether
each group was errored and severely errored, whether it counts at all (R197), and whether the receiver was held for its whole
length (R194). -/
structure PmSec where
  bin15 : Nat
  binDay : Nat
  frmMode : Bool
  fecMode : Bool
  frmErr : Bool
  frmSes : Bool
  fecErr : Bool
  fecSes : Bool
  counted : Bool
  asleep : Bool := false
  deriving DecidableEq, Repr

/-- The performance monitor of a channel: the bins in progress, those closed and not yet in history (true is a day bin),
the histories, the seconds not yet final, each group's unavailable state (R192), the seconds since PM was enabled, the
bins closed of each length, and what the second in progress has seen. -/
structure Pm where
  cur15 : Option PmBin := none
  curDay : Option PmBin := none
  waiting : List (Bool × PmBin) := []
  hist15 : List PmBin := []
  histDay : List PmBin := []
  pend : List PmSec := []
  unaFrm : Bool := false
  unaFec : Bool := false
  secs : Nat := 0
  n15 : Nat := 0
  nDay : Nat := 0
  serial : Nat := 0
  starting : Bool := false
  evFrm : Nat := 0
  evFec : Nat := 0
  bad : Bool := false
  awake : Bool := false
  off : Bool := false
  deriving DecidableEq, Repr

/-! ## Activation, XGEM and bursts (R203 to R250) -/

/-- The integrity key that an OMCI message uses from its first word on (R489, R497, R498): the PON slot, the copy of it, none where
the slot was not VALID, and whether it has been erased since. -/
structure OmciKey where
  slot : Nat
  second : Option Bool
  erased : Bool := false
  deriving DecidableEq, Repr

/-- What a burst is for (R206, R216, R218): a serial-number response, a ranging response, or granted data. -/
inductive BurstKind where
  | serial | ranging | data
  deriving DecidableEq, Repr

/-- The part of an OMCI message that a placed payload is (R499): the buffer of the message, by which its pieces are told, its
bytes in earlier pieces, where in the allocation its bytes begin and how many they are, and whether it ends the message, so
that the MIC lies in its last four bytes. -/
structure MicPart where
  msg : Nat
  pre : List Byte
  at_ : Nat
  n : Nat
  last : Bool
  deriving DecidableEq, Repr

/-- A placed payload that CIPH works on (R489, R494, R499): its offset in the allocation, its length, the slot of the line die's PON
pool if it is encrypted, its byte position, the part of an OMCI message that it is, if any, and once its first word is at CIPH
the copy of the slot in use, none if there is none or it has been erased, with the key stream. -/
structure Crypt where
  off : Nat
  len : Nat
  slot : Option Nat
  pos : Nat
  mic : Option MicPart := none
  begun : Bool := false
  second : Option Bool := none
  pad : List Byte := []
  deriving DecidableEq, Repr

/-- One allocation of a burst: its Alloc-ID, its Alloc-ID table entry if it matched one, GrantSize in granules and the
DBRu flag (R242), and once its fill point has passed its bytes, the payloads in them that CIPH works on (R494, R499), and the
bond tags it took (R279). -/
structure Alloc where
  id : Nat
  entry : Option Nat
  size : Nat
  dbru : Bool
  content : List Byte := []
  crypt : List Crypt := []
  tags : Nat := 0
  pieces : List Piece := []
  deriving DecidableEq, Repr

/-- A planned burst (R220, R237, R240, R242): its number in the channel's plan (the MODEL's own), its kind, the StartTime of its first allocation, the random delay d, the
profile it names with the words in effect when the map was parsed, the position B in bits and the frame it counts from,
whether its first entry's plan is ready, and whether it is filled and launched, the uw since its fill point, from which TX_BEN is
timed (R246), the RATE its FEC goes with (Table 5.10), its PLOAMu, the allocations in map order, and once launched the ONU-ID
that it carries. -/
structure Burst where
  num : Nat := 0
  kind : BurstKind
  start : Nat
  delay : Nat
  prof : Nat
  profCfg : Word
  preamble : BitVec 64
  delim : BitVec 64
  frame : Nat
  pos : Nat
  wordBits : Nat
  lead : Nat
  lag : Nat
  ploamuFlag : Bool
  sfc : BitVec 51 := 0
  ready : Bool := false
  filled : Bool := false
  launched : Bool := false
  age : Nat := 0
  rate : Nat := 0
  ploamu : List Byte := []
  allocs : List Alloc := []
  onu : Nat := 0
  deriving DecidableEq, Repr

/-- A burst as it crosses the balls (R221, R246): the frame and bit position of its first bit, the lead and lag of TX_BEN
around it in uw, its bytes, those of payloads that CIPH has not taken up yet in clear (R489), and whether it was cut before its end (R53, R214). -/
structure SentBurst where
  num : Nat := 0
  frame : Nat
  pos : Nat
  lead : Nat
  lag : Nat
  bytes : List Byte
  cut : Bool := false
  deriving DecidableEq, Repr

/-- A reassembly in progress of a Port-ID on a channel (R232): the Port-ID, the frame tick count of its latest fragment,
its TYPE and tag, its payload so far, and for an OMCI message the integrity key that it started under (R489). -/
structure Reasm where
  port : Nat
  frame : Nat
  kind : Nat
  tag : Nat
  bytes : List Byte
  key : Option OmciKey := none
  deriving DecidableEq, Repr

/-- The transmission convergence state of a channel: the ticks counted by TO1 and TO2 (R212), the PLOAM queues (R215,
R223), the commits waiting for the next frame (R222, R240), the frame tick count (the MODEL's own time base) and when the latest tick was
(State.ticks), the map
parser (an entry was seen; a HEC failure drops the 0xFFFF entries that follow, R248; the last entry joined a burst, or was
dropped for want of room, R241), the bursts planned, the burst numbers of the entries whose plans are not ready (R236), the bursts
planned in all, and the totals of this upstream frame (R241), the reassemblies, and for the present frame and the one before
it whether the framer was in SYNC, whether delineation has ended (R227) and where the next header lies (R226), an FWI bit waiting for the power manager (R238), and the burst sent last. -/
structure Conv where
  to1 : Nat := 0
  to2 : Nat := 0
  ploamu : List (List Byte) := []
  ploamuDef : List Byte := List.replicate 48 0
  ploamd : List (List Byte) := []
  eqdPend : Option (Word × Word) := none
  profPend : Option (List Word) := none
  frames : Nat := 0
  tickAt : Nat := 0
  seen : Bool := false
  broken : Bool := false
  joined : Bool := false
  full : Bool := false
  bursts : List Burst := []
  waits : List Nat := []
  planned : Nat := 0
  nBursts : Nat := 0
  nAllocs : Nat := 0
  reasm : List Reasm := []
  hecLost : Bool := false
  next : Option Nat := none
  syncPrev : Bool := false
  hecLostPrev : Bool := false
  nextPrev : Option Nat := none
  fwi : Bool := false
  sent : Option SentBurst := none
  deriving DecidableEq, Repr

/-- The PON side of the part: framer, performance monitor and transmission convergence of each channel, and the Port-ID
and Alloc-ID tables of each line die (R231, R239). -/
structure Pon where
  framer : Tab Framer := []
  pm : Tab Pm := []
  conv : Tab Conv := []
  pid : Tab (BitVec 64) := []
  alloc : Tab Word := []
  deriving DecidableEq, Repr

/-! ## Channel groups (R251 to R291) -/

/-- A bonded frame (R257, R260, R265): its channel, DISP_TAG and stamp, its payload without the tag, the tag's STREAM,
RESYNC and SEQ, the 32-byte cells it takes, and the mc edge on which the engine held it. -/
structure BondFrame where
  chan : Nat
  dtag : Nat
  sec : Nat
  ns : Nat
  bytes : List Byte
  stream : Nat := 0
  resync : Bool := false
  seq : Nat := 0
  cells : Nat := 0
  edge : Nat := 0
  deriving DecidableEq, Repr

/-- The channel group: by channel, reassembled frames on their way to BOND, the skew buffer and the frames on their way to
the engine; by stream E[s] and the synchronised flag; the held frames in order of arrival; the released ones that their
dispatcher refuses (R270); L[m][s] at m times 8 plus s;
and by upstream group times 8 plus stream, the next SEQ and whether a piece left since the group was enabled. -/
structure Bond where
  inbox : Tab (List BondFrame) := []
  skew : Tab (List BondFrame) := []
  coming : Tab (List BondFrame) := []
  exp : Tab Nat := []
  synced : Tab Bool := []
  held : List BondFrame := []
  refused : List BondFrame := []
  last : Tab (Option Nat) := []
  upSeq : Tab Nat := []
  upBegun : Tab Bool := []
  deriving DecidableEq, Repr


/-! ## Memories: backing, errors, self-test, sparing (R517 to R551) -/

/-- A row of a protected memory: its bank, coded as Table 12.8, and its row. -/
structure RowId where
  bank : Nat
  row : Nat
  deriving DecidableEq, Repr

/-- A row queued for self-test (R538), with what the log entry of its test shows of the error that was found (Table 12.8):
whether patrol scrub found it, its syndrome and its word. -/
structure TestRow where
  row : RowId
  scrub : Bool := false
  syndrome : Nat := 0
  word : Nat := 0
  deriving DecidableEq, Repr

/-- One RSV or MEM block: its spare map and retirement table as SPMAP_DATA words (R548, R550), retired rows no entry
records (R550), its error log (R546), rows waiting and under test by maintenance domain (R538), the rows that scratch
rows serve with the cells or queues still in use, by bank (R542, R543), a queue-state bank being copied (R543), whether
the packet buffer is being initialised, how many times it was, and whether a packet outlived one (R545), the block that patrol
scrub reads next and the maintenance slot of the latest one, by memory (R534), and the rc counts since which every sensor has
stayed 5 °C below the threshold of REF_MODE 1 and of 2 (R520). -/
structure Guard where
  spares : Tab Word := []
  retired : Tab Word := []
  unrecorded : Nat := 0
  log : List (Word × Word × Word) := []
  waiting : Tab (List TestRow) := []
  testing : Tab (Option TestRow) := []
  scratch : Tab (Option (RowId × Nat)) := []
  copying : Option TestRow := none
  initing : Bool := false
  epoch : Nat := 0
  tainted : Bool := false
  scrub : Tab Nat := []
  scrubAt : Tab (Option Nat) := []
  cool : Tab (Option Nat) := []
  deriving DecidableEq, Repr

/-- The memories: blocks by die times 2 plus 0 for RSV or 1 for MEM, the buffers in use by number, the next number (the
MODEL's own) and the reservoir die each writer took cells from last (R524). -/
structure Store where
  guard : Tab Guard := []
  bufs : Tab Buf := []
  nextBuf : Nat := 1
  lastPool : Tab Nat := []
  deriving DecidableEq, Repr

/-! ## The packet pipeline (R292 to R387) -/

/-- A packet at a dispatch source (R339, R764): KIND, SRC, STREAM, DISP_TAG, its stamp, the address flags of m9, its
buffer and its bytes. -/
structure SrcPkt where
  kind : Nat
  src : Nat
  stream : Nat := 0
  tag : Nat := 0
  sec : Nat := 0
  ns : Nat := 0
  m9 : Word := 0
  buf : Nat
  bytes : List Byte
  deriving DecidableEq, Repr

/-- A thread that carries a packet (R297, R298): its registers, window, metadata, flags and program counter; the slots
of its budget and those used (R328); the MIRRORs of the pass; the packet as at the start of the pass (R326) with its
buffer; the source index, the first dispatch edge, the hold of an ordered source (R347), and the entries of the image that
the packet was dispatched under (R331, R332). -/
structure Thread where
  g : List Word
  h : List Byte
  m : List Word
  flags : BitVec 5
  pc : Nat
  budget : Nat
  used : Nat
  mirrors : Nat
  bytes : List Byte
  buf : Nat
  src : Nat
  first : Nat
  hold : Option Nat
  entries : List Nat
  deriving DecidableEq, Repr

/-- A packet in the eddy (R372, R373): the kept metadata, the output packet, the entry of the next pass, its source
index, first dispatch edge, hold and entries. -/
structure EddyPkt where
  m : List Word
  bytes : List Byte
  buf : Nat
  entry : Nat
  src : Nat
  first : Nat
  hold : Option Nat
  entries : List Nat
  deriving DecidableEq, Repr

/-- An exact-match entry (Table 8.7). -/
structure EmEntry where
  g1 : Bool := false
  g0 : Bool := false
  tbl : Nat := 0
  data : BitVec 64 := 0
  key : BitVec 128 := 0
  deriving DecidableEq, Repr

/-- A ternary entry (Table 8.8). -/
structure TcEntry where
  g1 : Bool := false
  g0 : Bool := false
  key : BitVec 512 := 0
  mask : BitVec 512 := 0
  data : BitVec 64 := 0
  deriving DecidableEq, Repr

/-- A longest-prefix entry (R358): its table and family, prefix (left aligned) and length, and a result and valid bit
for each generation. -/
structure LpmEntry where
  tbl : Nat
  v6 : Bool
  pfx : BitVec 128
  len : Nat
  res0 : Word := 0
  res1 : Word := 0
  v0 : Bool := false
  v1 : Bool := false
  deriving DecidableEq, Repr

/-- A longest-prefix command under way (R359): its OP, generation, entry identity and result. -/
structure LpmCmd where
  op : Nat
  gen : Bool
  tbl : Nat
  v6 : Bool
  pfx : BitVec 128
  len : Nat
  res : Word
  deriving DecidableEq, Repr

/-- The pipelines of dies 0 to 5. By die times 32 plus source: packets on their way to a source FIFO, and the FIFOs
(R340). By die: the source and tile served last (R342, R343), the eddy (R372), the delta's queue (R375) and the launch edge
of its last copy (R376), the record sequence number (R384), an instruction-memory check under way: its CRC and MISMATCH (R336). By die and index: threads, instruction words by
bank, table entries, entry writes under way (R364), counter pairs, delta groups and copies, spillway credits and pending
settings. Commands in flight, held by the order hold, and packets on their way to a sluice stand in lists. -/
structure Pipe where
  coming : Tab (List SrcPkt) := []
  fifo : Tab (List SrcPkt) := []
  lastSrc : Tab Nat := []
  lastTile : Tab Nat := []
  threads : Tab (Option Thread) := []
  imem : Tab (Option Word) := []
  check : Tab (Option (Word × Bool)) := []
  eddy : Tab (List EddyPkt) := []
  hold : List Fwd := []
  flight : List Fwd := []
  delta : Tab (List (Nat × Pkt)) := []
  lastCopy : Tab Nat := []
  groups : Tab (BitVec 64) := []
  copies : Tab Word := []
  spill : List Spill := []
  credit : Tab Nat := []
  seq : Tab Word := []
  em : Tab EmEntry := []
  emBusy : Tab (Option (Nat × EmEntry)) := []
  tc : Tab TcEntry := []
  tcBusy : Tab (Option (Nat × TcEntry)) := []
  lpm : Tab (List LpmEntry) := []
  lpmBusy : Tab (Option LpmCmd) := []
  pairs : Tab (Nat × Nat) := []
  deriving DecidableEq, Repr

/-! ## The traffic managers (R388 to R442) -/

/-- A queue (Tables 9.2 and 9.4): its configuration, the packets held, the packets refused, the finish tag,
and the orders of service of the packets at its head that a discarded burst left queued (R248). -/
structure Queue where
  en : Bool := false
  prof : Nat := 0
  slu : Nat := 0
  w : Nat := 1
  pkts : List Pkt := []
  drop : Nat := 0
  tag : Nat := 0
  back : List Nat := []
  deriving DecidableEq, Repr

/-- A class of a port (R421, R422): its virtual time and its calendar, the flows in order of insertion with their
buckets. -/
structure TmClass where
  v : Nat := 0
  cal : List (Nat × Nat) := []
  deriving DecidableEq, Repr

/-- A sluice (R406 to R410): the configuration words in force and those latched, its two buckets, and its counts. -/
structure Sluice where
  w0 : Word := 0
  w1 : Word := 1
  w2 : Word := 1
  pend : Option (Word × Word × Word) := none
  tc : Nat := 0
  tp : Nat := 0
  g : Word := 0
  y : Word := 0
  r : Word := 0
  deriving DecidableEq, Repr

/-- An operational gate list (R432): its start and cycle in ns, and its entries. -/
structure GateList where
  start : Nat
  cycle : Nat
  entries : List Word
  deriving DecidableEq, Repr

/-- The two banks of a gate list (R429 to R431): the operational list, the admin entries, and a committed list that waits
for its swap time. -/
structure GateUnit where
  oper : Option GateList := none
  admin : Tab Word := []
  pend : Option GateList := none
  deriving DecidableEq, Repr

/-- A packet chosen at a decision slot and not yet dequeued (R411): its queue and class, its planned start and wire time
in units of 1/(825 × 2^28) ns, and t_now at its slot. -/
structure Chosen where
  queue : Nat
  cls : Nat
  start : Nat
  wire : Nat
  slot : Nat := 0
  deriving DecidableEq, Repr

/-- The traffic managers: queues by die times 2^18 plus index, classes by port times 8 plus class, weir balances by
weir, sluices by die times 2^14 plus index, gate lists by die times 64 plus list, wire cursors (in the units of Chosen)
and chosen packets by port, the virtual time and the pending remainder of each Alloc-ID entry by line die times 1,024
plus entry, and how many upstream frames have been served (the MODEL's own). -/
structure Tm where
  queues : Tab Queue := []
  cls : Tab TmClass := []
  bal : Tab Int := []
  slu : Tab Sluice := []
  gates : Tab GateUnit := []
  cursor : Tab Nat := []
  chosen : Tab (Option Chosen) := []
  upV : Tab Nat := []
  rem : Tab (Option Piece) := []
  served : Nat := 0
  deriving DecidableEq, Repr


/-! ## Subscriber and management ports (R443 to R484) -/

/-- A frame in a MAC before its first bit leaves (R417, R455, R458): its packet, class and planned start in units of
1/(825 × 2^28) ns, or the quanta of a pause frame, whether a read of its buffer found an uncorrectable error (R530), and, of a frame that cannot start in
time (R756), that it is late and from when it can start. -/
structure TxFrame where
  pkt : Pkt := {}
  cls : Nat := 0
  start : Nat := 0
  pause : Option Nat := none
  bad : Bool := false
  ready : Nat := 0
  late : Bool := false
  deriving DecidableEq, Repr

/-- A transmit stamp (R467). -/
structure Stamp where
  seq : Nat
  mtype : Nat
  seqId : Nat
  sec : Nat
  ns : Nat
  frac : Nat
  deriving DecidableEq, Repr

/-- A frame on the wire: its bytes with FCS, the buffer it holds, whether it is a pause frame, its stamp if it takes one,
under MACsec the key slot and the copy of it that it uses (R486, R490), and whether its FCS ends inverted (R530). -/
structure Sending where
  wire : List Byte
  buf : Nat
  pause : Bool
  stamp : Option Stamp
  slot : Option (Nat × Bool) := none
  bad : Bool := false
  deriving DecidableEq, Repr

/-- A received frame as the MAC hands it on (R446, R462), without FCS. -/
structure RxFrame where
  bytes : List Byte
  m9 : Word
  sec : Nat
  ns : Nat
  frac : Nat
  deriving DecidableEq, Repr

/-- What a MAC receives frames by (R483, R484): CFG, FC_CFG, the management port's RX_CFG, the receive correction and the address
filter. -/
structure RxView where
  cfg : Word
  fc : Word
  ring : Word
  corr : Word
  da : Tab (BitVec 64)
  deriving DecidableEq, Repr

/-- A MAC: its address filter entries with VALID in bit 63 (R448), the frames before their first bit, the frame on the
wire, a queued pause frame (R458), the pause timers as last set (0 to 7 by priority, 8 for Annex 31B, R454) and those the
watchdog has stopped (R457), the stamp FIFO, the speed SGMII auto-negotiation gave (R443), the frames of the wake store
(R669), the ac count of its last activity (R481), the frame sent last, and what it received by before each change since the
last frame, with the mc count of the change, oldest first (R484). -/
structure Mac where
  da : Tab (BitVec 64) := []
  tx : List TxFrame := []
  sending : Option Sending := none
  pauseTx : Option Nat := none
  timers : Tab Nat := []
  stopped : Nat := 0
  fifo : List Stamp := []
  speed : Nat := 2
  store : List RxFrame := []
  lastAct : Option Nat := none
  lastWire : List Byte := []
  rxOld : List (Nat × RxView) := []
  deriving DecidableEq, Repr

/-- An MDIO frame under way (R476, R477), with the settings it started under. -/
structure MdioJob where
  cl45 : Bool
  op : Nat
  prtad : Nat
  devad : Nat
  data : Nat
  pre : Bool
  div : Nat
  deriving DecidableEq, Repr

/-- The MACs by port, 64 for the management port; by course die times 4 plus master MDIO frames under way; by course die
cage transactions and the LED bits shifted out last. -/
structure Macs where
  mac : Tab Mac := []
  mdio : Tab (Option MdioJob) := []
  cage : Tab (Option I2cJob) := []
  led : Tab (Option (BitVec 64)) := []
  deriving DecidableEq, Repr


/-! ## Cipher engines and key slots (R485 to R516) -/

/-- One copy of a key slot (R486): its key, left aligned, whether it has 256 bits, the salt and SSCI of an MS slot, the
fixed IV field and invocation counter of an LA slot. -/
structure KeyCopy where
  key : BitVec 256 := 0
  long : Bool := false
  salt : BitVec 96 := 0
  ssci : Word := 0
  fixedIv : Word := 0
  counter : BitVec 64 := 0
  deriving DecidableEq, Repr

/-- A key slot (R486): its two copies, which one is in effect, VALID and the load serial. -/
structure KeySlot where
  a : KeyCopy := {}
  b : KeyCopy := {}
  second : Bool := false
  valid : Bool := false
  serial : BitVec 16 := 0
  deriving DecidableEq, Repr

/-- A look-aside context (R511, Table 11.9). -/
structure LaCtx where
  op : Nat
  slot : Nat
  serial : BitVec 16
  aad : Nat
  text : Nat
  counter : BitVec 128
  acc : BitVec 128
  iv : BitVec 96
  deriving DecidableEq, Repr

/-- A bulk job that has been suspended (R514): the slot and copy it uses, whether it is suspended now, its descriptor, the IV
field it returns, and the state that its first block was issued in. -/
structure LaBulk where
  slot : Nat
  second : Bool
  suspended : Bool
  desc : List Byte
  iv : List Byte
  start : LaCtx
  deriving DecidableEq, Repr

/-- An OMCI message buffered at CIPH (R497, R498), with the key it uses, none where OMCI_CFG.EN was 0 at its first word. -/
structure OmciMsg where
  bytes : List Byte
  key : Option OmciKey := none
  deriving DecidableEq, Repr

/-- An upstream OMCI message under way (R490, R499): its buffer, its channel, and the integrity key it uses. -/
structure MicUse where
  msg : Nat
  chan : Nat
  key : OmciKey
  deriving DecidableEq, Repr

/-- The cipher engines: key slots by die, pool and index, the slot that the latest accepted command of each die named
(Table 11.3), the held write of each die (R490), the next packet numbers of MS
slots by die times 2,048 plus slot (R503), contexts by line die times 16, rings that wait for a doorbell by line die times
2 (R508), suspended bulk jobs by line die, downstream OMCI messages by channel, and the upstream ones under way. -/
structure Ciph where
  slots : Tab KeySlot := []
  latest : Tab (Option Nat) := []
  held : Tab (Option (Nat × KeyCopy)) := []
  pn : Tab Nat := []
  ctx : Tab (Option LaCtx) := []
  waiting : Tab Bool := []
  bulk : Tab (Option LaBulk) := []
  omci : Tab (List OmciMsg) := []
  mics : List MicUse := []
  deriving DecidableEq, Repr


/-! ## The control complex (R552 to R594) -/

/-- A translation that a core's TLBs hold (R568, Table 13.7): the virtual page and its size in bits, the ASID and the leaf. -/
structure TlbEntry where
  vpn : Nat
  size : Nat
  asid : Nat
  leaf : BitVec 64
  deriving DecidableEq, Repr

/-- A store in a core's store buffer (R565): the physical address, bytes and value. -/
structure SbEntry where
  addr : Nat
  n : Nat
  v : Nat
  deriving DecidableEq, Repr

/-- A cache line (R553, R559): the number of its line (its address divided by 64), its 64 bytes and whether it is dirty. -/
structure Line where
  tag : Nat
  bytes : List Byte
  dirty : Bool
  deriving DecidableEq, Repr

/-- A core (R552, R553, R565, R566, Table 13.6): whether it has left reset, its level, program counter and registers; the
system registers, with index 0 for supervisor and 1 for monitor; the wake time it sleeps
with under SLH (R581); the TLBs and the store buffer, oldest entry first; the cc edges left of a RESTEER (R701), and whether its next instruction
waits for its fetch (1) or for memory (2). -/
structure Core where
  run : Bool := false
  level : Level := .monitor
  pc : BitVec 64 := 0
  x : Tab (BitVec 64) := []
  prev : Level := .user
  ieS : Bool := false
  ieM : Bool := false
  ucrd : Bool := false
  hvecS : BitVec 64 := 0
  hvecM : BitVec 64 := 0
  retS : BitVec 64 := 0
  retM : BitVec 64 := 0
  codeS : BitVec 64 := 0
  codeM : BitVec 64 := 0
  addrS : BitVec 64 := 0
  addrM : BitVec 64 := 0
  root : BitVec 64 := 0
  cmp : BitVec 64 := 0
  slh : Option (BitVec 64) := none
  tlb : List TlbEntry := []
  sb : List SbEntry := []
  steer : Nat := 0
  stall : Nat := 0
  deriving DecidableEq, Repr

/-- The console UART (R587, R588, R592): its two FIFOs, the byte in its transmit shift register, the DIV of that byte's frame and the
ac count at which the frame began, the byte sent last, and the DIV of the next frame received. -/
structure Uart where
  tx : List Byte := []
  rx : List Byte := []
  shift : Option Byte := none
  txDiv : Nat := 0xD9
  txFrom : Nat := 0
  sent : Option Byte := none
  rxDiv : Nat := 0xD9
  deriving DecidableEq, Repr

/-- The control complex: the cores; the lines of the L1 instruction and data caches by core times 1,024 plus set times 4 plus way, and
of the L2 caches by line die times 65,536 plus set times 16 plus way (R553); the stacks of IRQ.RUNPRI by core times 2 plus level (R577), the UART, and the levels that drive the GPIO
balls from outside. -/
structure Ctl where
  core : Tab Core := []
  l1i : Tab (Option Line) := []
  l1d : Tab (Option Line) := []
  l2 : Tab (Option Line) := []
  runStack : Tab (List Nat) := []
  uart : Uart := {}
  gpioPins : Word := 0
  deriving DecidableEq, Repr


/-! ## DMA channels (R595 to R621) -/

/-- A record offered to a RECEIVE channel (R611): its bytes, the packet buffer to free once it is written or dropped (0 for
none), and whether it comes from the management port (R474). -/
structure DmaRec where
  bytes : List Byte
  buf : Nat
  mgt : Bool := false
  deriving DecidableEq, Repr

/-- A DMA channel beside its registers: the pending doorbell (R600), whether the head descriptor has been read and started,
the descriptors completed since the start or the latest wait for a trigger (R603), triggers on their way to mc (R604,
R621), the input store (R611), the bytes of a frame that TRANSMIT or INJECT has read, and those of
its head descriptor (R610), the ac count of the timer's next firing, whether the head descriptor waits for a trigger (R604), and the descriptors
that the record under way has filled, each as its address, its CTL word and the bytes placed (R612). -/
structure DmaCh where
  bell : Bool := false
  started : Bool := false
  chain : Nat := 0
  due : Nat := 0
  store : List DmaRec := []
  got : List Byte := []
  done : Nat := 0
  fireAt : Nat := 0
  waits : Bool := false
  filled : List (Nat × Word × Nat) := []
  deriving DecidableEq, Repr


/-! ## Headwater (R622 to R656) -/

/-- The cause of a reset, in the order of HW.RST_CAUSE (Table 15.1). -/
inductive ResetCause where
  | powerOn | pinWarm | pinCold | regWarm | regCold | railFault | thermal | offWake
  deriving DecidableEq, Repr

/-- The fuses (R634, R638 to R640): the burnt fuses of LC0 to LC2, the device secret, the rail table, the boot and debug
key hashes by index (twelve words each), the rollback count and the revoked boot keys. -/
structure Fuses where
  lc : List Nat := [0, 0, 0]
  secret : BitVec 256 := 0
  rails : Option (List Word) := none
  bootKeys : Tab (List Word) := []
  dbgKeys : Tab (List Word) := []
  rollback : Nat := 0
  revoked : Nat := 0
  deriving DecidableEq, Repr

/-- The image that passed (R641, R642): its slot, SVN, key, entry address and SRAM_WAYS. -/
structure BootImage where
  slot : Nat
  svn : Nat
  key : Nat
  entry : Nat
  ways : Nat
  deriving DecidableEq, Repr

/-- A PMBus transaction (R635 to R637): whether AVS asked for it, its TYPE, address, command code and data, and whether it carries a
PEC. -/
structure PmbJob where
  avs : Bool
  kind : Nat
  addr : Nat
  code : Nat
  data : Nat
  pec : Bool := false
  deriving DecidableEq, Repr

/-- Adaptive voltage scaling (R637, R688): whether it runs, the exponent of VOUT_MODE, the voltage V in mV, and its value at the latest
rise of THROTTLE. -/
structure Avs where
  run : Bool := false
  exp : Int := 0
  v : Nat := 0
  cap : Option Nat := none
  deriving DecidableEq, Repr

/-- The debug gate (R649 to R654, Table 15.11): the challenge outstanding with its level, the response being checked, the
zeroisation step running with its level (1 to 8 for Z1 to Z8; level 0 once a thaw has started), what Z1 and Z7 found, and DBG_STAT. -/
structure Debug where
  chal : Option (Nat × List Byte) := none
  checking : Option (Nat × List Byte × List Byte) := none
  seq : Option (Nat × Nat) := none
  fuseFail : Bool := false
  zeroFail : Bool := false
  level : Nat := 0
  result : Nat := 0
  locked : Bool := false
  fails : Nat := 0
  deriving DecidableEq, Repr

/-- A rail-down under way (R631): the step whose enables were driven inactive last, and how many steps had been driven active before it
began. -/
structure RailDown where
  step : Nat
  top : Nat
  deriving DecidableEq, Repr

/-- The headwater: whether it has power; whether BOOT has been ended (R45), OPEN granted (R49) and every rail is up; the
rail-up step under way (R630), a rail-down (R631), the sensing of the fuses after it (R625), the ac count of the latest change of an enable or
of the start of sensing, and the power-good inputs that count as high (R629); the level of RESET_N (true is low) and whether its low level has had
its cold reset (R624); whether T0 of line die 0 is still to be judged before cores are released (R690); the dies released; the fuses and a burn under way as OP and ARG (R639); consecutive rail
faults and the latest as kind and rail (R632); a reset requested; whether a cold start waits for RESET_N; power state OFF,
with a thermal one told apart (R683, R690); the boot slot tried next and the image that passed (R641); the kiln's ready key
and the command under way as OP, PURPOSE and KLEN (R646); the debug gate, PMBus queue, the bytes that the master drove in the latest transaction, and AVS; and the comparisons in a row
that found 155 °C (R690). -/
structure Hw where
  alive : Bool := true
  bootDone : Bool := false
  openGranted : Bool := false
  railsUp : Bool := false
  railStep : Option Nat := some 0
  railDown : Option RailDown := none
  sensing : Bool := false
  railAt : Nat := 0
  powerGood : BitVec 24 := 0
  resetLow : Bool := false
  resetTaken : Bool := false
  tempCheck : Bool := false
  released : BitVec 8 := 0
  fuses : Fuses := {}
  burn : Option (Nat × Nat) := none
  faults : Nat := 0
  fault : Option (Nat × Nat) := none
  req : Option ResetCause := none
  pinHold : Bool := false
  off : Bool := false
  thermalOff : Bool := false
  slot : Nat := 0
  boot : Option BootImage := none
  ready : Option (BitVec 256) := none
  kiln : Option (Nat × Nat × Bool) := none
  dbg : Debug := {}
  pmb : List PmbJob := []
  pmbWire : List Byte := []
  avs : Avs := {}
  hot155 : Nat := 0
  deriving DecidableEq, Repr


/-! ## Power states (R657 to R691) -/

/-- The power manager: by die the state entered or left and a wake that is waiting as SRC and INDEX (R676); by die a PAT
commit that waits for an entry, with the data and mask words of its GO (R671, R743), the ac edge since which it has been idle (R662);
the CRC-32 that each retention bank was stored with (die * 8 + bank, R681); the interrupt sources whose message waits for their die (R667); and by channel an ENTER to judge (R673), a
PS commit that waits, with its two words (R672, R743), the frames left of a phase, and ends on local wake and lost sync that
wait (R675). -/
structure Power where
  goal : Tab Nat := []
  wake : Tab (Option (Nat × Nat)) := []
  patPend : Tab (Option (List Word)) := []
  idleSince : Tab (Option Nat) := []
  banks : Tab Word := []
  levels : List Nat := []
  psEnter : Tab Bool := []
  psPend : Tab (Option (Word × Word)) := []
  psLeft : Tab Nat := []
  lwi : Tab Bool := []
  rxFail : Tab Bool := []
  deriving DecidableEq, Repr


/-! ## Counters and bandwidth windows (R692 to R705) -/

/-- A window record (Table 17.5): its flags, peak occupancy in KiB, start, and wire bytes. -/
structure BwRec where
  valid : Bool := false
  step : Bool := false
  partial_ : Bool := false
  slept : Bool := false
  peak : Nat := 0
  sec : Nat := 0
  ns : Nat := 0
  rx : Nat := 0
  tx : Nat := 0
  deriving DecidableEq, Repr

/-- The counters: the held CNT_HI writes by die times 256 plus unit times 8 plus counter (R695), the armed action of a die
as OP and the edge E it waits for (R699), and by port the window in progress and the history, latest first (R705), the dies whose window boundary network time
has reached (R703), by die how many sensors of the round have converted (R706), and by core the levels of the instructions issued whose
slots are not yet counted as RETIRING (R701, the MODEL's own). -/
structure Pmc where
  held : Tab (Option Word) := []
  armed : Tab (Option (Bool × Nat)) := []
  cur : Tab BwRec := []
  hist : Tab (List BwRec) := []
  due : List Nat := []
  conv : Tab Nat := []
  slots : Tab (List Level) := []
  deriving DecidableEq, Repr


/-! ## The machine -/

/-- Why a step stops with a fault. No command of this part ends in a fault: error responses, data aborts and bus errors
are states of the machine (R31, R571). The one constructor is kept so that the type names a reason. -/
inductive Fault where
  /-- Raised by no command: safe. -/
  | none
  deriving DecidableEq, Repr

/-- Why a step gives a command no meaning. -/
inductive Refusal where
  /-- The command's arm has no meaning yet (safe: nothing is proved of it). -/
  | notModelled (mnemonic : String)
  deriving DecidableEq, Repr

/-- The state of the whole part. -/
structure State where
  /-- The family member (R1). -/
  part : Part
  /-- The commands waiting, first in, first out. -/
  pending : List Instr
  /-- The MODEL's own: how many free values have been drawn (log 2). -/
  fresh : Nat
  /-- The registers (Table 19.3): the stored word of each, which for a register of a commit group is its shadow copy
  (R742). -/
  regs : Tab Word
  /-- The values in effect of the registers of commit groups and of those that act at a later boundary (R15, R743). -/
  eff : Tab Word
  /-- Memory (R736, R761): bytes by physical address; an unlisted byte reads 0. -/
  mem : List Host.Cell
  /-- The mesh (R19 to R37). -/
  mesh : Mesh
  /-- The clock counts (R56, R142). -/
  clk : Clocks
  /-- Network time (R72 to R93). -/
  time : NetTime
  /-- The freeze unit (R94 to R112). -/
  frz : Freeze
  /-- The serial lanes' state beside their registers (R113 to R158). -/
  lanes : Lanes
  /-- The headwater (R622 to R656). -/
  hw : Hw
  /-- The power manager (R657 to R691). -/
  pwr : Power
  /-- The PON channels (R159 to R250). -/
  pon : Pon
  /-- The memories and packet buffers (R517 to R551). -/
  dram : Store
  /-- The packet pipelines (R292 to R387). -/
  pipe : Pipe
  /-- The channel group (R251 to R291). -/
  bond : Bond
  /-- The traffic managers (R388 to R442). -/
  tm : Tm
  /-- The subscriber and management MACs (R443 to R484). -/
  macs : Macs
  /-- The cipher engines and key slots (R485 to R516). -/
  ciph : Ciph
  /-- The control complex (R552 to R594). -/
  ctl : Ctl
  /-- The DMA channels by die times 32 plus channel (R595 to R621). -/
  dma : Tab DmaCh
  /-- The counter units and bandwidth windows (R692 to R705). -/
  pmc : Pmc
  deriving DecidableEq, Repr

/-- The machine after cold reset (R14, R744): the first member the manual describes, no command waiting, every register
at its Reset value, memory with nothing listed. -/
def State.reset : State :=
  { part := .zg6480
    pending := []
    fresh := 0
    regs := []
    eff := []
    mem := []
    mesh := {}
    clk := {}
    time := {}
    frz := {}
    lanes := {}
    hw := {}
    pwr := {}
    pon := {}
    dram := {}
    pipe := {}
    bond := {}
    tm := {}
    macs := {}
    ciph := {}
    ctl := {}
    dma := []
    pmc := {} }

end Sys2Proof.Machine
end

