-- ==== Sys2Proof/Machine/Ops.lean ====
section
/-!
DEFINITION. The shared operations: places of registers, the register file by access code (R8 to R15), memory by bytes
(R761), free values, the dies and links of each part (R1, R16, R20, R21), and when a domain's events happen.
-/
namespace Sys2Proof.Machine

/-! ## Places -/

/-- Index i of a register on a die. -/
def place (die i : Nat) : Nat := die * 2 ^ 24 + i % 2 ^ 24
/-- A register of line die 0 without an index. -/
abbrev d0 : Nat := 0
/-- Element i of a register array of line die 0. -/
abbrev d0i (i : Nat) : Nat := place 0 i
/-- A register that a die holds once. -/
abbrev onDie (d : Nat) : Nat := place d 0
/-- The die that carries a channel (R3). -/
def chanDie (c : Nat) : Nat := c / 2
/-- The die that carries a port (R2). -/
def portDie (p : Nat) : Nat := 2 + p / 16
/-- The registers of channel c, on its line die (R3, R759). -/
abbrev atChan (c : Nat) : Nat := place (chanDie c) c
/-- The registers of port p, on its course die (R2, R759). -/
abbrev atPort (p : Nat) : Nat := place (portDie p) p
/-- A course die's index (R16). -/
abbrev courseIdx (d : CourseDie) : Nat := d.val + 2

/-- The key of a register word in the register file. -/
def rkey (reg at_ : Nat) : Nat := reg * 2 ^ 28 + at_ % 2 ^ 28

/-! ## Dies and links -/

/-- HW.DIE_MAP.PRESENT by part (Table 1.7). -/
def presentMask : Part → Nat
  | .zg6420 => 0x05
  | .zg6440 => 0x4D
  | .zg6480 => 0xFF

/-- Die d is populated (R28). -/
def present (p : Part) (d : Nat) : Bool := (presentMask p).testBit d

/-- The two ends of each mortar link, in the order of Table 3.2. -/
def linkEnds : List (Nat × Nat) :=
  [(0, 1), (0, 2), (0, 3), (0, 4), (0, 5), (1, 2), (1, 3), (1, 4), (1, 5), (0, 6), (0, 7), (1, 6), (1, 7),
   (2, 6), (2, 7), (3, 6), (3, 7), (4, 6), (4, 7), (5, 6), (5, 7), (2, 3), (3, 4), (4, 5), (2, 5)]

/-- The lower and the higher end of link l. -/
def linkLow (l : Nat) : Nat := (linkEnds.getD l (0, 0)).1
/-- The higher end of link l. -/
def linkHigh (l : Nat) : Nat := (linkEnds.getD l (0, 0)).2

/-- The part has link l: both its ends are populated (R20). -/
def linkPresent (p : Part) (l : Nat) : Bool := l < 25 && present p (linkLow l) && present p (linkHigh l)

/-- The link that joins two dies, if one does (Table 1.2). -/
def linkOf (a b : Nat) : Option Nat :=
  (List.range 25).find? (fun l => (linkLow l == a && linkHigh l == b) || (linkLow l == b && linkHigh l == a))

/-- The lane count of link l (Table 3.2). -/
def linkWidth (l : Nat) : Nat := if l = 0 then 4 else if 13 ≤ l && l ≤ 20 then 16 else 8

/-- The intermediate die of a two-hop route (Table 1.3). -/
def viaDie (a b : Nat) : Option Nat :=
  if (a = 2 && b = 4) || (a = 4 && b = 2) then some 3
  else if (a = 3 && b = 5) || (a = 5 && b = 3) then some 4
  else if (a = 6 && b = 7) || (a = 7 && b = 6) then some 2
  else none

/-- The hops from one die to another (R21, R22). -/
def hops (a b : Nat) : Nat := if a = b then 0 else if (viaDie a b).isSome then 2 else 1

/-! ## Reset values -/

/-- The Reset columns of a register's fields, as one word. -/
def fieldsReset (fs : List FieldDesc) : Word := fs.foldl (fun w f => setBits w f.hi f.lo f.reset) 0

/-- The PART code of HW.ID (Table 1.6). -/
def partCode : Part → Nat
  | .zg6420 => 0x20
  | .zg6440 => 0x40
  | .zg6480 => 0x80

/-- The value after cold reset of the register word with a key (R14): the Reset columns, and where a Reset column names
the part, the link, the pad group, the alarm or the die, that value. -/
def resetWord (p : Part) (key : Nat) : Word :=
  let reg := key / 2 ^ 28
  let die := key / 2 ^ 24 % 16
  let i := key % 2 ^ 24
  let w := fieldsReset (regDesc reg).fields
  if reg = Reg.HW_ID then setBits (setBits w 23 16 (partCode p)) 15 8 Config.stepping.toNat
  else if reg = Reg.HW_DIE_MAP then setBits w 7 0 (presentMask p)
  else if reg = Reg.HW_UID_HI then BitVec.ofNat 32 (Config.uid.toNat / 2 ^ 32)
  else if reg = Reg.HW_UID_LO then BitVec.ofNat 32 Config.uid.toNat
  else if reg = Reg.HW_PAD_CFG then (if i = 0 || i = 5 then setBits w 3 3 0 else w)
  else if reg = Reg.DLINK_STATUS then setBits (setBits w 29 28 (if p = .zg6480 then 2 else 1)) 20 16 (linkWidth i)
  else if reg = Reg.SENS_ALM then (if 4 ≤ i then setBits (setBits w 23 12 0xFFF) 11 0 0 else w)
  else if reg = Reg.RSV_CAPACITY || reg = Reg.RSV_FREE then
    setBits w 24 0 (if 6 ≤ die then 0x1000000 else if die = 2 && p = .zg6420 then 0x20000 else 0)
  else if reg = Reg.RSV_STAT then setBits w 13 8 (if 6 ≤ die then 32 else if die = 2 && p = .zg6420 then 16 else 0)  -- 0 where no buffer lies (log 10)
  else if reg = Reg.MEM_STAT then setBits w 20 16 (if die < 2 then 11 else 21)
  else w

/-! ## The register file -/

/-- The stored word of a register (for a register of a commit group its shadow copy, R742). -/
def State.rd (s : State) (reg at_ : Nat) : Word := Tab.get s.regs (resetWord s.part (rkey reg at_)) (rkey reg at_)

/-- Store a word in a register. -/
def State.wr (s : State) (reg at_ : Nat) (w : Word) : State :=
  { s with regs := Tab.set s.regs (resetWord s.part (rkey reg at_)) (rkey reg at_) w }

/-- A field's stored value. -/
def State.get (s : State) (f : Fld) (at_ : Nat) : Nat := bits (s.rd f.reg at_) f.hi f.lo

/-- A one-bit field as a Bool. -/
def State.is (s : State) (f : Fld) (at_ : Nat) : Bool := s.get f at_ == 1

/-- Store a field's value, the register's other bits unchanged. -/
def State.put (s : State) (f : Fld) (at_ v : Nat) : State := s.wr f.reg at_ (setBits (s.rd f.reg at_) f.hi f.lo v)

/-- The value in effect of a register of a commit group (R15, R743). -/
def State.rdEff (s : State) (reg at_ : Nat) : Word := Tab.get s.eff (resetWord s.part (rkey reg at_)) (rkey reg at_)

/-- Set the value in effect of a register. -/
def State.wrEff (s : State) (reg at_ : Nat) (w : Word) : State :=
  { s with eff := Tab.set s.eff (resetWord s.part (rkey reg at_)) (rkey reg at_) w }

/-- A field of the value in effect. -/
def State.getEff (s : State) (f : Fld) (at_ : Nat) : Nat := bits (s.rdEff f.reg at_) f.hi f.lo

/-- A one-bit field of the value in effect. -/
def State.isEff (s : State) (f : Fld) (at_ : Nat) : Bool := s.getEff f at_ == 1

/-- Make the stored word of a register its value in effect (R743). -/
def State.commit (s : State) (reg at_ : Nat) : State := s.wrEff reg at_ (s.rd reg at_)

/-- Commit elements i < n of a register array on a die, or several registers at one place. -/
def State.commitAll (s : State) (l : List (Nat × Nat)) : State := l.foldl (fun s r => s.commit r.1 r.2) s

/-- Add n to a counter field; it wraps modulo 2 to its width (R11). -/
def State.inc (s : State) (f : Fld) (at_ : Nat) (n : Nat) : State := s.put f at_ (s.get f at_ + n)

/-- Add n to a counter field that saturates at lim (R11). -/
def State.incSat (s : State) (f : Fld) (at_ n lim : Nat) : State := s.put f at_ (satAdd lim (s.get f at_) n)

/-- Add 1 to a counter register that is one 32-bit field. -/
def State.count (s : State) (reg at_ : Nat) : State := s.wr reg at_ (s.rd reg at_ + 1)

/-- Set bit n of a field of several bits, an event latch (R9). -/
def State.latch (s : State) (f : Fld) (at_ n : Nat) : State := s.put f at_ (putBit (s.get f at_) n true)

/-- Draw a free value (log 2). -/
def State.draw {α : Type} (s : State) (f : Nat → α) : α × State := (f s.fresh, { s with fresh := s.fresh + 1 })

/-! ## Access codes (R8) -/

/-- A value is an encoding the field's table does not mark reserved (R13). -/
def FieldDesc.legal (f : FieldDesc) (v : Nat) : Bool := f.min ≤ v && v ≤ f.max

/-- What a firmware write does to one field (R8): an RW field takes the value, or a free value for a reserved encoding
(R13); a 1 clears a W1C bit unless hardware sets it on that edge (R9); RO, RC and WO fields keep their value. -/
def writeField (free new same : Word) (old : Word) (f : FieldDesc) : Word :=
  match f.acc with
  | .rw => if f.legal (bits new f.hi f.lo) then setBits old f.hi f.lo (bits new f.hi f.lo)
           else setBits old f.hi f.lo (bits free f.hi f.lo)
  | .w1c =>
      let cleared := setBits old f.hi f.lo (bits (old &&& ~~~new) f.hi f.lo)
      setBits cleared f.hi f.lo (bits (cleared ||| same) f.hi f.lo)
  | .ro | .wo | .rc => old

/-- What a firmware write does to a whole register: each field by its access code, reserved bits unchanged (R12). -/
def writeWord (fs : List FieldDesc) (free old new same : Word) : Word := fs.foldl (writeField free new same) old

/-- A written word holds a reserved encoding in an RW field (R13). -/
def hasReserved (fs : List FieldDesc) (new : Word) : Bool :=
  fs.any (fun f => f.acc == .rw && !f.legal (bits new f.hi f.lo))

/-- A firmware write of some of a register's fields (R8, R9, R13). -/
def State.fwWriteFields (s : State) (fs : List FieldDesc) (reg at_ : Nat) (new same : Word) : State :=
  let w := writeWord fs (Config.freeReserved s.fresh) (s.rd reg at_) new same
  let s := if hasReserved fs new then { s with fresh := s.fresh + 1 } else s
  s.wr reg at_ w

/-- A receiver that an eye scan names (R150). -/
inductive ScanRx where
  | pon (c : Nat)
  | mgt
  | sub (p : Nat)
  | mortar (l k : Nat)
  deriving DecidableEq, Repr

/-- The mortar receive lanes of a die, in increasing link and then lane number (R150). -/
def mortarLanes (p : Part) (d : Nat) : List (Nat × Nat) :=
  ((List.range 25).filter (fun l => linkPresent p l && (linkLow l == d || linkHigh l == d))).flatMap
    (fun l => (List.range (linkWidth l)).map (fun k => (l, k)))

/-- The receiver that a TARGET selects on a die; none for a reserved value (R150). -/
def scanTarget (p : Part) (d t : Nat) : Option ScanRx :=
  if 0x80 ≤ t then (mortarLanes p d)[t - 0x80]?.map (fun x => .mortar x.1 x.2)
  else if d < 2 then (if t < 2 then some (.pon (2 * d + t)) else if t = 2 && d = 0 then some .mgt else none)
  else if d < 6 && t < 16 then some (.sub (16 * (d - 2) + t))
  else none

/-- How many instances an event of Table 17.4 has at unit u of die d, and none for a code that the table does not list for
the unit's type (R696). -/
def eventInstances (d u code : Nat) : Option Nat :=
  if code = 0 then some 256
  else if u ≠ 0 then (if 0x201 ≤ code && code ≤ 0x20A || 0x210 ≤ code && code ≤ 0x215 then some 0 else none)
  else if 6 ≤ d then (if 0x101 ≤ code && code ≤ 0x105 then some 32 else if code = 0x106 then some 0 else none)
  else if 0x00E < code then none
  else [0, 0, 17, 0, 64, 3, 3, 0, 4, if d < 2 then 0 else 16, 25, 8, if d = 0 then 32 else 16, 0][code - 1]?

/-- Give the field whose lowest bit is lo a range of legal values. -/
def ranged (fs : List FieldDesc) (lo min max : Nat) : List FieldDesc :=
  fs.map (fun f => if f.lo = lo then { f with min := min, max := max } else f)

/-- The fields of a register word for a write of it, with the encodings that depend on its place: XGS framing and its rate on
channels 0 and 2 only (R4, Tables 3.4, 3.7), 64 gate entries on a line die (R436), the receivers an eye scan can name
(Table 3.11), the streams and members of line die 1 on parts without it (Tables 6.1, 6.4), the DMA modes of a die
(R595), odd key bases (Tables 5.8, 11.5), seven day bins (Table 4.8), the operations of MDIO clause 22 (Table 10.9), and the
event codes and instances of a unit (R696). -/
def regFields (p : Part) (reg at_ : Nat) (new : Word) : List FieldDesc :=
  let fs := (regDesc reg).fields
  let d := at_ / 2 ^ 24
  let i := at_ % 2 ^ 24
  if reg = Reg.LANE_PRX_CFG && i % 2 = 1 then ranged fs 30 0 0
  else if reg = Reg.LANE_PTX_CFG && i % 2 = 1 then ranged fs 29 0 2
  else if reg = Reg.LANE_ESCAN_CTL && (scanTarget p d (bits new 29 22)).isNone then ranged fs 22 1 0
  else if reg = Reg.GATE_ADM_LEN && d < 2 then ranged fs 0 1 64
  else if reg = Reg.BOND_GROUP_CFG && p != .zg6480 then ranged fs 16 0 0
  else if reg = Reg.BOND_UGRP_B && p != .zg6480 then ranged (ranged fs 31 0 0) 30 0 0
  else if reg = Reg.DMA_CFG && (6 ≤ d || d ≠ 0 && bits new 31 30 = 2) then ranged fs 30 0 0
  else if reg = Reg.CIPH_UENC && new.getLsbD 0 then ranged fs 0 1 0
  else if reg = Reg.PTC_PID_STAGE1 && new.getLsbD 12 then ranged fs 12 1 0
  else if reg = Reg.PFR_PM_SEL && new.getLsbD 16 then ranged fs 0 0 7
  else if reg = Reg.MAC_MDIO_CMD && !new.getLsbD 29 then ranged fs 27 1 2
  else if reg = Reg.PMC_EVTSEL then
    match eventInstances d (i / 8) (bits new 9 0) with
    | none => ranged fs 0 1 0
    | some n => if bits new 23 16 < n || bits new 23 16 = 0xFF then fs else ranged fs 16 1 0
  else fs

/-- A firmware write of a register (R8, R13). -/
def State.fwWrite (s : State) (reg at_ : Nat) (new : Word) : State :=
  s.fwWriteFields (regFields s.part reg at_ new) reg at_ new 0

/-- The W1C bits of a register. -/
def w1cMask (fs : List FieldDesc) : Word :=
  fs.foldl (fun w f => if f.acc == .w1c then setBits w f.hi f.lo (2 ^ (f.hi + 1 - f.lo) - 1) else w) 0

/-- The RC bits of a register. -/
def rcMask (fs : List FieldDesc) : Word :=
  fs.foldl (fun w f => if f.acc == .rc then setBits w f.hi f.lo (2 ^ (f.hi + 1 - f.lo) - 1) else w) 0

/-- The bits of a register that a read returns: WO fields and reserved bits read 0 (R8, R12). -/
def readMask (fs : List FieldDesc) : Word :=
  fs.foldl (fun w f => if f.acc == .wo then w else setBits w f.hi f.lo (2 ^ (f.hi + 1 - f.lo) - 1)) 0

/-! ## Memory (R761) -/

/-- The byte at a physical address. -/
def State.byte (s : State) (a : Nat) : Byte := Tab.get s.mem 0 a

/-- Write one byte. -/
def State.setByte (s : State) (a : Nat) (b : Byte) : State := { s with mem := Tab.set s.mem 0 a b }

/-- The n bytes from an address, lowest first. -/
def State.bytes (s : State) : Nat → Nat → List Byte
  | _, 0 => []
  | a, n + 1 => s.byte a :: s.bytes (a + 1) n

/-- Write bytes from an address upward. -/
def State.setBytes (s : State) (a : Nat) : List Byte → State
  | [] => s
  | b :: t => (s.setByte a b).setBytes (a + 1) t

/-- A little-endian value of n bytes at an address (R761). -/
def State.load (s : State) (a n : Nat) : Nat := leNat (s.bytes a n)

/-- Store a little-endian value of n bytes (R761). -/
def State.store (s : State) (a n v : Nat) : State := s.setBytes a (leBytes n v)

/-! ## Dies, again, by state -/

/-- Die d is fenced (R28). -/
def State.fenced (s : State) (d : Nat) : Bool := bitOf (s.get Reg.HW_DIE_MAP_FENCED d0) d

/-- Die d is present and not fenced. -/
def State.reachable (s : State) (d : Nat) : Bool := present s.part d && !s.fenced d

/-- Link l of the part has LOCKED = 1 at both its ends (R118). -/
def State.linkUp (s : State) (l : Nat) : Bool :=
  s.is Reg.DLINK_STATUS_LOCKED (place (linkLow l) l) && s.is Reg.DLINK_STATUS_LOCKED (place (linkHigh l) l)

/-- The power state of a die as PWR.DIE_STAT.STATE codes it (Table 16.3): 0 is RUN. -/
def State.powerState (s : State) (d : Nat) : Nat := s.get Reg.PWR_DIE_STAT_STATE (d0i d)

/-- How traffic from die a to die b fares at the routers (R21, R30, R35, R36, R37, R145, R665). -/
inductive Route where
  /-- The route is open, with this many hops. -/
  | clear (hops : Nat)
  /-- The target, or the intermediate die, is absent or fenced (R30, R35). -/
  | absent
  /-- The first link l of the route is down; die a's router answers (R145). -/
  | firstDown (l : Nat)
  /-- The second link l is down; the intermediate die's router answers (R36). -/
  | secondDown (l via : Nat)
  /-- Die d of the route is not running, and the traffic is held (R37, R665). -/
  | asleep (d : Nat)
  deriving DecidableEq, Repr

/-- An intermediate die whose router island does not run: in DEEP, or entering or leaving it (R37). -/
def State.routerOff (s : State) (d : Nat) : Bool :=
  s.powerState d == 3 || (4 ≤ s.powerState d && Tab.get s.pwr.goal 0 d == 3)

/-- The route from die a to die b. -/
def State.route (s : State) (a b : Nat) : Route :=
  if a = b then .clear 0
  else match viaDie a b with
  | none =>
    if !s.reachable b then .absent
    else if s.powerState b != 0 then .asleep b
    else match linkOf a b with
    | none => .absent
    | some l => if s.linkUp l then .clear 1 else .firstDown l
  | some v =>
    if !s.reachable b || !s.reachable v then .absent
    else if s.routerOff v then .asleep v
    else if s.powerState b != 0 then .asleep b
    else match linkOf a v, linkOf v b with
    | some l, some k => if !s.linkUp l then .firstDown l else if !s.linkUp k then .secondDown k v else .clear 2
    | _, _ => .absent

/-- Ask the power manager to wake a die (R676): the sources are coded as HW.WAKE_SOURCE.SRC. Of the sources that wait, the one with
the lowest code stays, with the lowest index among equals. -/
def State.wakeReq (s : State) (d src idx : Nat) : State :=
  let lower := match Tab.get s.pwr.wake none d with
    | none => true
    | some (r, i) => decide (src < r) || (src == r && decide (idx < i))
  if s.powerState d = 0 || !lower then s
  else { s with pwr := { s.pwr with wake := Tab.set s.pwr.wake none d (some (src, idx)) } }

/-- Ask for every die of a route that traffic from die a to die b waits for (R37, R665): the target while it is not in RUN, and
the intermediate die while its router does not run. -/
def State.wakeRoute (s : State) (a b : Nat) : State :=
  let s := match viaDie a b with
    | some v => if s.routerOff v then s.wakeReq v 2 a else s
    | none => s
  s.wakeReq b 2 a

/-- Interrupt source n of Table 19.4 takes a level (R575, R578). -/
def State.setLevel (s : State) (n : Nat) (high : Bool) : State := s.put Reg.IRQ_SRC_STAT_LEVEL (d0i n) (b2n high)

/-! ## Event counters (R693, R694, R696) -/

/-- CNTn of unit u of die d adds k (R694): it wraps modulo 2^48 and the wrap sets OVF; the live upper 16 bits stand in
effect beside CNT_HI (R695). -/
def State.pmcAdd (s : State) (d u n k : Nat) : State :=
  let a := place d (u * 8 + n)
  let v := (s.rdEff Reg.PMC_CNT_HI a).toNat % 2 ^ 16 * 2 ^ 32 + (s.rd Reg.PMC_CNT_LO a).toNat + k
  let s := (s.wr Reg.PMC_CNT_LO a (BitVec.ofNat 32 v)).wrEff Reg.PMC_CNT_HI a (BitVec.ofNat 32 (v / 2 ^ 32 % 2 ^ 16))
  if 2 ^ 48 ≤ v then s.latch Reg.PMC_OVF_V (place d u) n else s

/-- Retention bank b of die d is lost, so that its unit is held: it takes register writes, with the actions and commits of its
start-up, and none of its own events comes about (R682, log 71). -/
def State.unitHeld (s : State) (d b : Nat) : Bool := bitOf (s.get Reg.PWR_RET_LOST_V (d0i d)) b

/-- The retention bank of a die's DMA channels (Table 16.11). -/
def dmaBank (d : Nat) : Nat := if 6 ≤ d then 1 else 6

/-- The retention bank of a die's counters and sensors (Table 16.11). -/
def pmcBank (d : Nat) : Nat := if 6 ≤ d then 2 else 7

/-- k occurrences of an event of Table 17.4 at an instance of unit u of die d: each running counter that selects the event
and the instance adds them (R693). `pass` is the level filter of the core units. -/
def State.pmcEvent (s : State) (d u code idx k : Nat) (pass : Word → Bool := fun _ => true) : State :=
  if !s.is Reg.PMC_CTL_RUN (place d u) || s.unitHeld d (pmcBank d) then s
  else (List.range 8).foldl (fun (s : State) n =>
    let e := s.rd Reg.PMC_EVTSEL (place d (u * 8 + n))
    if bits e 31 31 = 1 && bits e 9 0 = code && (bits e 23 16 = 0xFF || bits e 23 16 = idx) && pass e then s.pmcAdd d u n k
    else s) s

/-! ## Accesses of a reservoir die (R519, Table 17.4) -/

/-- The events of a read or a write of a reservoir die. -/
def rcCode (write : Bool) : Nat := if write then 0x105 else 0x104

/-- An access of n bytes of a reservoir die's buffer is counted: each 64-byte block takes an access slot of its channel (R519, Tables 12.1
and 17.4). -/
def State.rcUse (s : State) (d off n : Nat) (write : Bool) : State :=
  if d < 6 || n = 0 || 2 ^ 32 ≤ off || !s.is Reg.PMC_CTL_RUN (place d 0) then s
  else (List.range ((off + n - 1) / 64 + 1 - off / 64)).foldl (fun (s : State) i =>
    let ch := (off / 64 + i) * 64 / 2 ^ 10 % 32
    (s.pmcEvent d 0 (rcCode write) ch 1).pmcEvent d 0 0x101 ch 1) s

/-- The n bytes of a packet are read from, or written to, the buffer of a reservoir die: how many of its accesses fall on one channel depends
on the cells, which State does not place (a free value, log 81). -/
def State.rcPacket (s : State) (d n : Nat) (write : Bool) : State :=
  if d < 6 || !s.is Reg.PMC_CTL_RUN (place d 0) || s.unitHeld d (pmcBank d) then s
  else (List.range 8).foldl (fun (s : State) i =>
    let e := s.rd Reg.PMC_EVTSEL (place d i)
    if bits e 31 31 = 1 && (bits e 9 0 == 0x101 || bits e 9 0 == rcCode write) then
      let all := (n + 63) / 64
      if bits e 23 16 = 0xFF then s.pmcAdd d 0 i all
      else
        let (k, s) := s.draw Config.freeEvents
        s.pmcAdd d 0 i (k % (all + 1))
    else s) s

/-- Bytes are written at an address. -/
def State.putBytes (s : State) (a : Nat) (l : List Byte) : State := (s.rcUse (a / 2 ^ 36) (a % 2 ^ 36) l.length true).setBytes a l

/-! ## Answers and events -/

/-- A requester's number: cores 0 to 11, the TAP 12, then DMA channels and tile threads by die. -/
def reqCode : Requester → Nat
  | .core n => n.val
  | .tap => 12
  | .dma d ch => 0x1000 + d.val * 32 + ch.val
  | .tile d t => 0x10000 + d.val * 1024 + t.val

/-- The die a requester sits on (Table 1.1): cores 0 to 7 and the TAP on line die 0, cores 8 to 11 on line die 1. -/
def reqDie : Requester → Nat
  | .core n => if n.val < 8 then 0 else 1
  | .tap => 0
  | .dma d _ => d.val
  | .tile d _ => d.val

/-- HW.ABSENT_INFO.SOURCE of a requester (Table 1.8). -/
def reqSource : Requester → Nat
  | .core _ => 0
  | .dma _ _ => 1
  | .tile _ _ => 2
  | .tap => 3

/-- Give a requester its answer. -/
def State.answer (s : State) (r : Nat) (a : MeshResp) : State :=
  { s with mesh := { s.mesh with resp := Tab.set s.mesh.resp {} r a } }

/-- The answer a requester got last. -/
def State.answerOf (s : State) (r : Nat) : MeshResp := Tab.get s.mesh.resp {} r

/-- An outcome that is the next state. -/
abbrev Out := Host.Outcome State Fault Refusal

/-- The state an outcome leaves; one that is no next state leaves the state before it. -/
def Out.after (o : Out) (s : State) : State :=
  match o with
  | .next t => t
  | .fault _ | .refused _ => s

/-- The domains, as FRZ.CHAIN_SEL codes them, whose chains may hold a block's registers (R104): mc, and the domain that the block
works in. The spec does not place the flip-flops of a block that works in two (log 99). -/
def chainDomains (d blk : Nat) : List Nat :=
  match blk with
  | 0x04 => [0, 6]
  | 0x06 => [0, 2, 3, 4]
  | 0x08 | 0x09 => [0, 2]
  | 0x0A => [0, 2, 3]
  | 0x16 | 0x17 => [0, 4]
  | 0x18 => if d < 2 then [0, 2, 3] else [0, 4]
  | 0x1A => if 6 ≤ d then [0, 5] else [0]
  | 0x1C | 0x1D => [0, 1]
  | 0x1F => if d < 2 then [0, 1] else if 6 ≤ d then [0, 5] else [0]
  | _ => [0]

/-- The channel or port instance that element i of a register belongs to, if it has one (Table 2.8). -/
def chainInstance (reg i : Nat) : Option Nat :=
  let r := regDesc reg
  let x := if r.recs = 1 then i else i / r.size
  match r.own with
  | .chan | .port => some x
  | .port4 => some (x / 4)
  | .port16 => some (x / 16)
  | _ => none

/-- A chain that may hold element i of a register of die d stands at another position than 0 (R108): its flip-flops are disturbed. -/
def State.disturbed (s : State) (d reg i : Nat) : Bool :=
  s.frz.chains.any (fun x =>
    let m := x.1 / 2 ^ 16 % 8
    x.1 / 2 ^ 19 == d && x.2 != 0 && (chainDomains d (reg / 256)).contains m &&
      (!(2 ≤ m && m ≤ 4) || (chainInstance reg i).all (· == x.1 % 2 ^ 16)))

/-- The nominal mc periods that have passed, 50 to an ac (log 3). -/
def State.ticks (s : State) : Nat := s.clk.ac * 50 + s.clk.phase

/-- Every stoppable domain runs: the main rails are up (R38, R52: in COLD only the headwater runs), and no freeze has stopped
it (R97). -/
def State.running (s : State) : Bool :=
  s.hw.alive && s.hw.railsUp && s.frz.phase != .stopped && s.frz.phase != .thawing

/-- What no command changes: the family member (R1), and the queue of waiting commands. -/
def State.pinned (s t : State) : State := { t with part := s.part, pending := s.pending }

/-- What no command but the end of a burn changes: the fuses too (R639). -/
def State.kept (s t : State) : State :=
  { t with part := s.part, pending := s.pending, hw := { t.hw with fuses := s.hw.fuses } }

/-- An event of a stoppable domain: while that domain takes no edge it does not come about (log 6). -/
def State.event (s : State) (f : State → State) : Out := .next (if s.running then s.kept (f s) else s)

/-- The core island of a die takes its clocks: it does in RUN only (R657, Table 16.1). -/
def State.awake (s : State) (d : Nat) : Bool := s.powerState d == 0

/-- The unit of bank b of die d acts, a unit of the core island (R657, R682). -/
def State.unitRuns (s : State) (d b : Nat) : Bool := s.running && !s.unitHeld d b && s.awake d

/-- The unit of bank b of die d acts, one of the port island or the router island, which no sleep of its die stops (Table 16.1). -/
def State.islandRuns (s : State) (d b : Nat) : Bool := s.running && !s.unitHeld d b

/-- An event of the unit of the core island whose state bank b of die d keeps (R657, R682, Table 16.11). -/
def State.unit (s : State) (d b : Nat) (f : State → State) : Out := .next (if s.unitRuns d b then s.kept (f s) else s)

/-- An event of a unit of the port island or the router island whose state bank b of die d keeps (R682, Table 16.11). -/
def State.island (s : State) (d b : Nat) (f : State → State) : Out := .next (if s.islandRuns d b then s.kept (f s) else s)

/-- An event of the always-on ac domain, which no freeze stops (R99). -/
def State.acEvent (s : State) (f : State → State) : Out := .next (if s.hw.alive then s.kept (f s) else s)

/-- An event of the ac domain at the unit of bank b of die d (R682). -/
def State.acUnit (s : State) (d b : Nat) (f : State → State) : Out :=
  .next (if s.hw.alive && !s.unitHeld d b then s.kept (f s) else s)

/-- An event of the ac domain that ends a burn (R639). -/
def State.burnEvent (s : State) (f : State → State) : Out := .next (if s.hw.alive then s.pinned (f s) else s)

end Sys2Proof.Machine
end

