-- ==== Sys2Proof/Machine/Window.lean ====
section
/-!
DEFINITION. The register windows: which register a window offset reaches (R738 to R740, R759), who may write it (R560,
R623, R741), and what a firmware read returns.
-/
namespace Sys2Proof.Machine

/-- Walk a list of registers, each with its own words, for the word at an offset (R759 steps 1 to 3): the ordinal and
the index in the array. -/
def locateFlat : List RegDesc → Nat → Nat → Option (Nat × Nat)
  | [], _, _ => none
  | r :: t, ord, w => if w < r.size then some (ord, w) else locateFlat t (ord + 1) (w - r.size)

/-- The words a list of registers takes. -/
def wordsOf (l : List RegDesc) : Nat := l.foldl (fun n r => n + r.size) 0

/-- The register and array index at word w of a block's window (R759): the registers before the block's record group,
then the records (step 4), then the rest. -/
def locate (l : List RegDesc) (w : Nat) : Option (Nat × Nat) :=
  let pre := l.takeWhile (fun r => r.recs = 1)
  let rest := l.dropWhile (fun r => r.recs = 1)
  let grp := rest.takeWhile (fun r => r.recs ≠ 1)
  let post := rest.dropWhile (fun r => r.recs ≠ 1)
  let np := wordsOf pre
  let ng := wordsOf grp
  let recs := (grp.getD 0 ⟨0, 1, .all, false, []⟩).recs
  if w < np then locateFlat pre 0 w
  else if w < np + ng * recs then
    let q := (w - np) / ng
    (locateFlat grp pre.length ((w - np) % ng)).map
      (fun x => (x.1, q * ((l.getD x.1 ⟨0, 1, .all, false, []⟩).size) + x.2))
  else locateFlat post (pre.length + grp.length) (w - np - ng * recs)

/-- The block's first record of an array element: the record index of a register in a record group, or the element
itself. -/
def ownerIdx (r : RegDesc) (i : Nat) : Nat := if r.recs = 1 then i else i / r.size

/-- The number of DMA channels of a die (Table 1.1). -/
def dmaChans (d : Nat) : Nat := if d = 0 then 32 else 16

/-- The number of counter units of a die (Table 17.1): the mc or rc unit and one for each core. -/
def pmcUnits (d : Nat) : Nat := if d = 0 then 9 else if d = 1 then 5 else 1

/-- The source index k exists on die d (Table 8.1). -/
def srcExists (d k : Nat) : Bool := if d < 2 then k < 2 || (8 ≤ k && k ≤ 16) else k ≤ 16

/-- Element i of a register exists on die d of the part (R740). -/
def hasReg (p : Part) (r : RegDesc) (d i : Nat) : Bool :=
  let x := ownerIdx r i
  present p d &&
  match r.own with
  | .d0 => d == 0
  | .line => d < 2
  | .course => 2 ≤ d && d ≤ 5
  | .all => true
  | .one => d == 0 && x == 0
  | .lc => d ≤ 5
  | .src => d ≤ 5 && srcExists d x
  | .rsn => d ≤ 5 && 1 ≤ x
  | .chan => d < 2 && x / 2 == d
  | .port => 2 ≤ d && d ≤ 5 && portDie x == d
  | .port4 => 2 ≤ d && d ≤ 5 && portDie (x / 4) == d
  | .port16 => 2 ≤ d && d ≤ 5 && portDie (x / 16) == d
  | .link => linkPresent p x && (linkLow x == d || linkHigh x == d)
  | .cls => 2 ≤ d && d ≤ 5 && portDie (x / 8) == d
  | .weir => 2 ≤ d && d ≤ 5 && portDie (if x < 512 then x / 8 else x - 512) == d
  | .gate => if d < 2 then x < 16 else d ≤ 5 && portDie x == d
  | .px => if d < 2 then true else d ≤ 5 && x < 64 && portDie x == d
  | .dma => x < dmaChans d
  | .unit => x < pmcUnits d
  | .dies => d == 0 && present p x
  | .dies16 => d == 0 && present p (x / 16)
  | .chans => d == 0 && x < 4 && present p (x / 2)
  | .ports => d == 0 && present p (portDie x)
  | .srcs => d == 0 && present p (x / 256)
  | .irqs => d == 0 && (x < 16 || present p 1)
  | .reqs => d == 0 && (x < 8 || x == 12 || present p 1)

/-- What a window offset reaches: a register, a hole that reads 0 (R740), or no register window at all (R736). -/
inductive Target where
  | reg (reg idx : Nat)
  | hole
  | outside
  deriving DecidableEq, Repr

/-- The register at a die offset (R736, R738, R740, R759). -/
def target (p : Part) (d off : Nat) : Target :=
  if off < 0xF00000000 || 0xF021FFFFF < off then .outside
  else
    let b := (off - 0xF00000000) / 0x100000
    match locate (RegTable.block b) ((off - 0xF00000000) % 0x100000 / 4) with
    | none => .hole
    | some (ord, i) =>
      if hasReg p (regDesc (b * 256 + ord)) d i then .reg (b * 256 + ord) i else .hole

/-- A write at a privilege level reaches a register's fields (R560, R623, R698, R741): monitor-only registers take it at
monitor level only, except for their W1C fields; a user-level write to PMC is ignored. -/
def mayWrite (reg : Nat) (lv : Level) : Bool :=
  (!(regDesc reg).mon || lv == .monitor || (regDesc reg).fields.any (fun f => f.acc == .w1c)) &&
  !(reg / 256 == 0x1F && lv == .user)

/-- The fields of a register a write at a level may change (R623, and LVL of R576): below monitor level a monitor-only
register lets its W1C fields through, and IRQ.SRC_CFG keeps LVL. -/
def writableFields (p : Part) (reg at_ : Nat) (new : Word) (lv : Level) : List FieldDesc :=
  let fs := regFields p reg at_ new
  if lv == .monitor then fs
  else if (regDesc reg).mon then fs.filter (fun f => f.acc == .w1c)
  else if reg == Reg.IRQ_SRC_CFG then fs.filter (fun f => f.hi != 30)
  else fs

end Sys2Proof.Machine
end

