-- ==== Sys2Proof/Machine/Organisation.lean ====
section
/-!
DEFINITION. Device organisation and operating modes (01_device_organisation.md): fencing, absent-access reports, posted
writes, the end of BOOT and the derivation of the mode. Mesh requests and error responses stand in Machine/Mesh.lean.
-/
namespace Sys2Proof.Machine
open Reg

/-- Report a refused access to line die 0 (R32). -/
def State.report (s : State) (die source : Nat) (dir : Bool) (addr : Addr) : State :=
  { s with mesh := { s.mesh with reports := s.mesh.reports ++ [Refusal32.mk die source dir addr] } }

/-- The die whose router holds an item. -/
def Held.source : Held → Nat
  | .request r => reqDie r.req
  | .command f => f.from_
  | .posted a _ _ => a
  | .span _ req _ _ _ _ _ => reqDie req

/-- A report takes effect on line die 0 (R32): the first is latched, further ones count in MORE, which saturates. -/
def State.latchReport (s : State) (r : Refusal32) : State :=
  if s.is Reg.HW_ABSENT_INFO_VALID d0 then s.incSat Reg.HW_ABSENT_INFO_MORE d0 1 0xFF
  else
    let s := s.put Reg.HW_ABSENT_INFO_VALID d0 1
    let s := s.put Reg.HW_ABSENT_INFO_DIE d0 r.die
    let s := s.put Reg.HW_ABSENT_INFO_SOURCE d0 r.source
    let s := s.put Reg.HW_ABSENT_INFO_DIR d0 (b2n r.dir)
    let s := s.put Reg.HW_ABSENT_INFO_ADDR_HI d0 (r.addr.toNat / 2 ^ 32)
    s.wr Reg.HW_ABSENT_ADDR d0 (BitVec.ofNat 32 r.addr.toNat)

/-- ABSENT_REFUSAL_REPORT (R32): the oldest report of a die takes effect. -/
def execAbsentRefusalReport (d : Die) (s : State) : Out := s.event fun s =>
  match s.mesh.reports.find? (fun r => r.die == d.val) with
  | none => s
  | some r => { s with mesh := { s.mesh with reports := s.mesh.reports.erase r } }.latchReport r

/-- A router's refusal of an access from a die, with its report on the way to line die 0 (R30, R32, R735). -/
def State.refuse (s : State) (die source : Nat) (write : Bool) (a : Nat) : State :=
  s.report die source write (BitVec.ofNat 40 a)

/-- An access from die a to die b fails at a router: an absent or fenced die is reported (R30, R32). -/
def State.refuseIfAbsent (s : State) (a b source : Nat) (write : Bool) (addr : Nat) : State :=
  if 8 ≤ b then s.refuse a source write addr
  else match s.route a b with
  | .absent => s.refuse a source write addr
  | _ => s

/-- A discard at the sending end of link l by die a (R146). -/
def State.linkDrop (s : State) (a l n : Nat) : State := s.inc Reg.DLINK_DROP_V (place a l) n

/-- The die a posted write goes to. -/
def postedDie : Posted → Nat
  | .bytes a _ => a.toNat / 2 ^ 36
  | .level _ _ => 0

/-- Source k of die d is one that Table 19.4 lists; every other is reserved (R749). -/
def sourceListed (p : Part) (d k : Nat) : Bool :=
  let course : Bool := 2 ≤ d && d < 6
  present p d &&
  (if k < 0x20 then k < dmaChans d
   else if k < 0x40 then k < 0x30 && course || k == 0x20 && d == 0
   else if k < 0x60 then linkPresent p (k - 0x40) && (linkLow (k - 0x40) == d || linkHigh (k - 0x40) == d)
   else if k < 0x70 then k < 0x6A && d < 2
   else if k < 0x80 then d == 0 && (k < 0x74 && present p ((k - 0x70) / 2) || 0x78 ≤ k && present p (k - 0x78))
   else if k = 0x80 then d == 0
   else if k = 0x81 || k = 0x82 || k = 0x84 then d < 6
   else if k = 0x83 || k = 0x85 || k = 0x87 then true
   else if k = 0x86 || k = 0x89 || k = 0x8A then course
   else if k = 0x88 then d < 2
   else 0x90 ≤ k && k ≤ 0x94 && d == 0)

/-- A posted write acts at its die (R762): packet bytes reach memory, an interrupt level the controller, where the level of a
reserved source is always 0 (R749). -/
def State.applyPosted (s : State) : Posted → State
  | .bytes a l => s.putBytes a.toNat l
  | .level n h => s.setLevel n.val (h && sourceListed s.part (n.val / 256) (n.val % 256))

/-- A posted write from die d (R762): addressed to an absent or fenced die it is counted in HW.ABSENT_DROP, routed over a
link that is down in that link's DROP (R35, R36, R146); for a die that does not run it is held (R665). -/
def State.sendPosted (s : State) (d : Nat) (m : Posted) : State :=
  match s.route d (postedDie m) with
  | .absent => s.count HW_ABSENT_DROP d0
  | .firstDown l => s.linkDrop d l 1
  | .secondDown l v => s.linkDrop v l 1
  | .clear _ => s.applyPosted m
  | .asleep _ =>
    { s with mesh := { s.mesh with held := s.mesh.held ++ [(postedDie m, Held.posted d (postedDie m) m)] } }.wakeRoute d
      (postedDie m)

/-- POSTED_WRITE (R762). -/
def execPostedWrite (d : Die) (m : Posted) (s : State) : Out := s.event fun s => s.sendPosted d.val m

/-- DIE_FENCE (R28, R29): a populated die that has not set UP within 10 ms of its release is fenced, in BOOT only. -/
def execDieFence (d : Die) (s : State) : Out := s.event fun s =>
  if s.get Reg.HW_OPMODE_MODE d0 = 1 && present s.part d.val && s.hw.released.getLsbD d.val &&
     !bitOf (s.get Reg.HW_DIE_MAP_UP d0) d.val
  then s.latch Reg.HW_DIE_MAP_FENCED d0 d.val
  else s

/-- BOOT_CTL_DONE (R45): a write of 1 at monitor privilege sets the boot-done state; at any other level it is ignored. The
count of consecutive rail faults returns to 0 (R633). -/
def execBootCtlDone (lv : Level) (s : State) : Out := s.event fun s =>
  if lv = .monitor then { s with hw := { s.hw with bootDone := true, faults := 0 } } else s

/-! ## The mode (R38 to R44) -/

/-- Channel c exists on the part (R3). -/
def chanExists (p : Part) (c : Nat) : Bool := c < 4 && present p (chanDie c)

/-- The activation state of a channel, coded as Table 5.2: 0 O1.1, 1 O1.2, 2 O2-3, 3 O4, 4 O5, 5 O6, 6 O7. -/
def State.actState (s : State) (c : Nat) : Nat := s.get Reg.PTC_ACT_STAT_STATE (atChan c)

/-- A channel is activating (Table 1.10). -/
def State.activating (s : State) (c : Nat) : Bool := chanExists s.part c && 1 ≤ s.actState c && s.actState c ≤ 3

/-- A channel is operational (Table 1.10). -/
def State.operational (s : State) (c : Nat) : Bool := chanExists s.part c && (s.actState c == 4 || s.actState c == 5)

/-- One bit for each channel that satisfies a test. -/
def chanMask (f : Nat → Bool) : Nat := (List.range 4).foldl (fun m c => m + b2n (f c) * 2 ^ c) 0

/-- The derivation of the operating mode (R42), coded as Table 1.9. -/
def State.deriveMode (s : State) : Nat :=
  if s.is Reg.FRZ_STATUS_FROZEN d0 || s.hw.openGranted then 7
  else if !s.hw.railsUp then 0
  else if !s.hw.bootDone then 1
  else if s.is Reg.BOND_GROUP_STAT_ACTIVE d0 then 6
  else if 2 ≤ popcount 4 (chanMask s.operational) then 5
  else if popcount 4 (chanMask s.operational) = 1 then 4
  else if chanMask s.activating ≠ 0 then 3
  else 2

/-- Every die is in RUN, as it is whenever the rails are down (R55): no die is in SLEEP or DEEP in COLD. -/
def State.allRun (s : State) : State :=
  (List.range 8).foldl (fun (s : State) d => s.put PWR_DIE_STAT_STATE (d0i d) 0)
    { s with pwr := { s.pwr with goal := [], wake := [] } }

/-- Put the mode m into HW.OPMODE (R46): a change records PREV, counts and sets CHANGED. -/
def State.setMode (s : State) (m : Nat) : State :=
  if m = s.get Reg.HW_OPMODE_MODE d0 then s
  else
    let s := s.put Reg.HW_OPMODE_PREV d0 (s.get Reg.HW_OPMODE_MODE d0)
    let s := s.put Reg.HW_OPMODE_MODE d0 m
    let s := s.inc Reg.HW_OPMODE_CHANGE_CNT d0 1
    s.put Reg.HW_OPMODE_CHANGED d0 1

/-- One derivation on an ac edge (R42 to R44, R46, R47): the channel bits and the mode. -/
def State.evalMode (s : State) : State :=
  let m := s.deriveMode
  let s := s.put Reg.HW_OPMODE_CHAN_ACT d0 (chanMask s.activating)
  let s := s.put Reg.HW_OPMODE_CHAN_OP d0 (chanMask s.operational)
  s.setMode m

/-- MODE_CHANGE (R42). -/
def execModeChange (s : State) : Out := s.acEvent fun s => s.evalMode

end Sys2Proof.Machine
end

