-- ==== Sys2Proof/Machine/Store.lean ====
section
/-!
DEFINITION. What every unit shares of the memories: the regions of a die window (R736, R737, Tables 19.1, 13.2 and 12.1),
the counts of a response (Table 7.6), packet buffers and cell pools (R524 to R526, R379), the error logs (R546) and the
rows queued for self-test (R529, R538, R539).
-/
namespace Sys2Proof.Machine
open Reg

/-! ## Blocks, logs and tests -/

/-- Block b (0 RSV, 1 MEM) of die d. -/
def State.guard (s : State) (d b : Nat) : Guard := Tab.get s.dram.guard {} (d * 2 + b)
/-- Replace block b of die d. -/
def State.setGuard (s : State) (d b : Nat) (g : Guard) : State :=
  { s with dram := { s.dram with guard := Tab.set s.dram.guard {} (d * 2 + b) g } }

/-- Show the head of an error log (Table 12.8). -/
def State.showLog (s : State) (d b : Nat) : State :=
  let (w0, w1, w2) := (s.guard d b).log.headD (0, 0, 0)
  let r := if b = 0 then RSV_ELOG_W else MEM_ELOG_W
  ((s.wr r (place d 0) w0).wr r (place d 1) w1).wr r (place d 2) w2

/-- The syndrome and word an error read reports. -/
def eccSyndrome : Ecc → Nat × Nat
  | .clean => (0, 0)
  | .corrected a b => (a.toNat, b.toNat)
  | .bad a b => (a.toNat, b.toNat)

/-- The read found an error that SECDED cannot correct (R527). -/
def eccBad : Ecc → Bool
  | .bad _ _ => true
  | _ => false

/-- Log an error (R546): class, scratch and scrub flags, memory, bank and index; its event follows its class. -/
def State.logError (s : State) (d b cls : Nat) (scratch scrub : Bool) (memid bank index : Nat) (e : Ecc) : State :=
  let g := s.guard d b
  let s := if cls = 3 then s.put (if b = 0 then RSV_EVT_UNCORR else MEM_EVT_UNCORR) (onDie d) 1
    else if cls = 1 then s.put (if b = 0 then RSV_EVT_LASTING else MEM_EVT_LASTING) (onDie d) 1
    else if cls = 2 then s.put (if b = 0 then RSV_EVT_RETIRE else MEM_EVT_RETIRE) (onDie d) 1
    else s
  if 16 ≤ g.log.length then s.put (if b = 0 then RSV_EVT_LOG_OVF else MEM_EVT_LOG_OVF) (onDie d) 1
  else
    let w0 : Word := setBits (setBits (setBits (setBits (setBits (setBits 0 31 31 1) 30 28 cls) 27 27 (b2n scratch))
      26 26 (b2n scrub)) 25 22 memid) 8 0 bank
    let w2 : Word := setBits (setBits 0 15 8 (eccSyndrome e).1) 7 0 (eccSyndrome e).2
    (s.setGuard d b { g with log := g.log ++ [(w0, setBits 0 17 0 index, w2)] }).showLog d b

/-- The maintenance domain of a bank (R538): a reservoir channel, or the bank itself. -/
def domainOf (d b bank : Nat) : Nat := if b = 0 && 6 ≤ d then bank / 16 else bank

/-- The memory of a block with self-test, as Table 12.3 orders them. -/
def memidOf (d b : Nat) : Nat := if b = 0 then (if 6 ≤ d then 0 else 1) else if 2 ≤ d then 2 else 3

/-- The row is served from a scratch row (R542, R543), or is under test (R536). -/
def Guard.fromScratch (g : Guard) (dom : Nat) (r : RowId) : Bool :=
  ((Tab.get g.testing none dom).map (·.row)) == some r || ((Tab.get g.scratch none r.bank).map (·.1)) == some r

/-- A row in which an error was found is queued for test, unless it waits, is under test or lies in a scratch row, or its
domain's queue is full (R529, R538, R539). A further error of a row that waits is logged (R546), an uncorrectable one by who
found it. -/
def State.testRow (s : State) (d b : Nat) (r : RowId) (scrub : Bool) (e : Ecc) : State :=
  let g := s.guard d b
  let dom := domainOf d b r.bank
  let q := Tab.get g.waiting [] dom
  if g.fromScratch dom r then s.logError d b 0 true scrub (memidOf d b) r.bank r.row e
  else if q.any (fun x => x.row == r) then
    if eccBad e then s else s.logError d b 0 false scrub (memidOf d b) r.bank r.row e
  else if 4 ≤ q.length then s.logError d b 4 false scrub (memidOf d b) r.bank r.row e
  else s.setGuard d b { g with waiting := Tab.set g.waiting [] dom (q ++ [{ row := r, scrub := scrub, syndrome := (eccSyndrome e).1, word := (eccSyndrome e).2 }]) }

/-- What a read of a memory with self-test does about the error it found (R529, R530). -/
def State.rowError (s : State) (d b : Nat) (r : RowId) (scrub : Bool) : Ecc → State
  | .clean => s
  | .corrected x y => s.testRow d b r scrub (.corrected x y)
  | .bad x y =>
    let g := s.guard d b
    let dom := domainOf d b r.bank
    let s := s.logError d b 3 (g.fromScratch dom r) scrub (memidOf d b) r.bank r.row (.bad x y)
    if g.fromScratch dom r then s else s.testRow d b r scrub (.bad x y)

/-- What a read of a memory without self-test does about the error it found (R528): a corrected error is logged as
TRANSIENT, an uncorrectable one as UNCORRECTABLE. -/
def State.plainError (s : State) (d memid index : Nat) (scrub : Bool) : Ecc → State
  | .clean => s
  | .corrected x y => s.logError d 1 0 false scrub memid 0 index (.corrected x y)
  | .bad x y => s.logError d 1 3 false scrub memid 0 index (.bad x y)

/-- What a read of a store of frames does about the error it found (R527, R528): the frame that an uncorrectable error hits is
discarded, which is counted. -/
def State.storeError (s : State) (d : Nat) (scrub : Bool) (e : Ecc) : State :=
  let s := s.plainError d 8 0 scrub e
  if eccBad e then s.count MEM_CNT_UE_DROP (onDie d) else s

/-- The packet-buffer row at a die offset (Table 12.1; the packet SRAM's decode is the implementation's, R523). -/
def bufferRow (d off : Nat) : RowId :=
  if 6 ≤ d then { bank := off / 2 ^ 10 % 32 * 16 + off / 2 ^ 15 % 16, row := off / 2 ^ 19 % 8192 }
  else { bank := (Config.sramRow (off / 1024)).1 % 32, row := (Config.sramRow (off / 1024)).2 % 1024 }

/-! ## Cell pools and buffers (R379, R524 to R526, R545) -/

/-- The cells a packet of n bytes takes (R518). -/
def cellsOf (n : Nat) : Nat := (n + 255) / 256

/-- The dies whose packet buffer the part uses (R18, R524). -/
def poolDies : Part → List Nat
  | .zg6420 => [2]
  | .zg6440 => [6]
  | .zg6480 => [6, 7]

/-- Die d's packet buffer is in service and holds n free cells. -/
def State.poolHolds (s : State) (d n : Nat) : Bool :=
  s.reachable d && s.is RSV_STAT_READY (onDie d) && decide (n ≤ s.get RSV_FREE_V (onDie d))

/-- The pool a writer takes its next packet from (R524): reservoir dies in turn, skipping one that cannot hold it. The
die that a writer starts with is the MODEL's choice (log 20). -/
def State.pickPool (s : State) (writer n : Nat) : Option Nat :=
  let last := Tab.get s.dram.lastPool 0 writer
  let l := poolDies s.part
  ((l.filter (fun d => d != last)) ++ (l.filter (fun d => d == last))).find? (fun d => s.poolHolds d n)

/-- A buffer by number. -/
def State.bufOf (s : State) (n : Nat) : Buf := Tab.get s.dram.bufs {} n

/-- The bytes of a packet of c cells travel from their writer to the pool's die (R19): they are posted writes (R762), held
while that die sleeps and discarded, one for each cell (log 94), where a link of the route is down (R146); false where they
never arrive. -/
def State.sendCells (s : State) (writer d c : Nat) : Bool × State :=
  match s.route writer d with
  | .clear _ => (true, s)
  | .asleep _ => (true, s.wakeRoute writer d)
  | .firstDown l => (false, s.linkDrop writer l c)
  | .secondDown l v => (false, s.linkDrop v l c)
  | .absent => (false, s.wr HW_ABSENT_DROP d0 (s.rd HW_ABSENT_DROP d0 + BitVec.ofNat 32 c))

/-- Whether a new packet of die d is given a cell that a packet from before an initialisation still holds (R545): a free value, and
never before there was such a packet. -/
def State.mayShare (s : State) (d : Nat) : Bool × State :=
  if !(s.guard d 0).tainted then (false, s)
  else
    let (x, s) := s.draw Config.freeCells
    (x % 2 == 1, s)

/-- Take a buffer for a packet of n bytes (R524), or count it in RSV.CNT_NOBUF of the writer's die (R525). -/
def State.alloc (s : State) (writer n : Nat) : Option Nat × State :=
  let c := cellsOf n
  match s.pickPool writer c with
  | none => (none, s.count RSV_CNT_NOBUF (onDie writer))
  | some d =>
    let k := s.dram.nextBuf
    let s := s.put RSV_FREE_V (onDie d) (s.get RSV_FREE_V (onDie d) - c)
    let (reached, s) := s.sendCells writer d c
    let s := if reached then s.rcPacket d n true else s
    let (doubt, s) := s.mayShare d
    (some k, { s with dram := { s.dram with
      bufs := Tab.set s.dram.bufs {} k
        { die := d, cells := c, holds := 1, epoch := (s.guard d 0).epoch, unwritten := !reached, doubt := doubt }
      nextBuf := k + 1, lastPool := Tab.set s.dram.lastPool 0 writer d } })

/-- Add n holds to a buffer (R379). -/
def State.addHolds (s : State) (k n : Nat) : State :=
  { s with dram := { s.dram with bufs := Tab.mod s.dram.bufs {} k (fun b => { b with holds := b.holds + n }) } }

/-- A retired row's scratch row gives up one cell; with none left it returns to test duty (R542). -/
def Guard.dropScratch (g : Guard) (bank : Nat) : Guard :=
  match Tab.get g.scratch none bank with
  | none => g
  | some (r, n) => { g with scratch := Tab.set g.scratch none bank (if n ≤ 1 then none else some (r, n - 1)) }

/-- A buffer whose last hold is gone returns its cells to its pool, but for those in retired rows, which leave service
(R379, R542); after its pool was stopped the count of a packet that outlived it is free (R545, log 2). -/
def State.freeBuf (s : State) (k : Nat) : State :=
  let b := s.bufOf k
  let g := s.guard b.die 0
  let s := { s with dram := { s.dram with bufs := Tab.set s.dram.bufs {} k {} } }
  let s := s.setGuard b.die 0 (b.lost.foldl Guard.dropScratch g)
  if !s.is RSV_STAT_READY (onDie b.die) then s
  else if b.epoch != g.epoch then
    let (v, s) := s.draw Config.freeCells
    s.put RSV_FREE_V (onDie b.die) (v % 2 ^ 25)
  else s.put RSV_FREE_V (onDie b.die) (s.get RSV_FREE_V (onDie b.die) + (b.cells - b.lost.length))

/-- Release one hold of a packet's buffer (R379). A packet without a buffer of the part holds none. -/
def State.release (s : State) (k : Nat) : State :=
  let b := s.bufOf k
  if b.holds = 0 then s
  else if b.holds = 1 then s.freeBuf k
  else { s with dram := { s.dram with bufs := Tab.set s.dram.bufs {} k { b with holds := b.holds - 1 } } }

/-- A reader on die r gets no bytes of a buffer: they were never written, or a link of the route to them is down (R19, R145). -/
def State.cutOff (s : State) (r : Nat) (b : Buf) : Bool :=
  b.unwritten || (b.holds != 0 && match s.route r b.die with
    | .clear _ | .asleep _ => false
    | .absent | .firstDown _ | .secondDown _ _ => true)

/-- A read of a packet's buffer takes an error response (R545): its packet buffer is not READY. -/
def State.bufError (s : State) (b : Buf) : Bool := b.holds != 0 && !s.is RSV_STAT_READY (onDie b.die)

/-- The contents of a buffer are in doubt (R545): its packet outlived an initialisation, or was given a cell of one that did. -/
def State.doubtful (s : State) (b : Buf) : Bool := b.doubt || (b.holds != 0 && b.epoch != (s.guard b.die 0).epoch)

/-- The bytes that a reader on die r finds in a packet's buffer: free where their contents are in doubt (R545, log 2), where the
read takes an error response (`bufError`), and where they do not reach it, for which the spec gives the reader no outcome
(log 94). -/
def State.payload (s : State) (r : Nat) (p : Pkt) : List Byte × State :=
  let b := s.bufOf p.buf
  if s.doubtful b || s.bufError b || s.cutOff r b then
    ((List.range p.bytes.length).map (fun i => Config.freeByte (s.fresh + i)), { s with fresh := s.fresh + p.bytes.length })
  else (p.bytes, s.rcPacket b.die p.bytes.length false)

/-! ## Regions of a die window -/

/-- What backs an offset of a die's memory range (Table 19.1). -/
inductive Region where
  | tcm | l2 | sram | reservoir | unbacked
  deriving DecidableEq, Repr

/-- The cores of a line die (Table 13.1). -/
def coresOf (p : Part) (d : Nat) : Nat := if d = 0 then 8 else if d = 1 && p = .zg6480 then 4 else 0

/-- The region at a die offset below 0x8_0000_0000 (R518, R554, R736, R737). A packet buffer that is not READY answers
with an error (R545). -/
def State.region (s : State) (d off : Nat) : Region :=
  if d < 2 then
    if 0x100000000 ≤ off ∧ off < 0x100000000 + coresOf s.part d * 0x40000 then .tcm
    else if 0x200000000 ≤ off ∧ off < 0x200000000 + s.get CTL_L2_CFG_SRAM_WAYS (onDie d) * 0x40000 then .l2
    else .unbacked
  else if d = 2 && s.part = .zg6420 then
    if off < 0x2000000 ∧ s.is RSV_STAT_READY (onDie d) then .sram else .unbacked
  else if 6 ≤ d then
    if off < 0x100000000 ∧ s.is RSV_STAT_READY (onDie d) then .reservoir else .unbacked
  else .unbacked

/-- The first die offset past the region that an offset lies in (R518, R554, R736, R737). -/
def State.regionEnd (s : State) (d off : Nat) : Nat :=
  match s.region d off with
  | .tcm => 0x100000000 + coresOf s.part d * 0x40000
  | .l2 => 0x200000000 + s.get CTL_L2_CFG_SRAM_WAYS (onDie d) * 0x40000
  | .sram => 0x2000000
  | .reservoir => 0x100000000
  | .unbacked => off

/-- The fixed terms of a response in mc, with h hops (Table 7.6, R523, R737); a reservoir's 96 rc of a
read are 120 mc, and the 24 rc of a write are 30 mc (R521). -/
def respCount (rg : Region) (write : Bool) (h : Nat) : Nat :=
  44 * h + (match rg with
    | .tcm | .l2 => 20
    | .sram => if write then 8 else 16
    | .reservoir => if write then 30 else 120
    | .unbacked => 12)

/-- The largest count of the row of Table 7.6 that the address of a tile's LDM or STM names, in mc (R328); 8 for a die without
memory, which has no row. -/
def fitCount (p : Part) (d : Nat) (write : Bool) (h : Nat) : Nat :=
  if 6 ≤ d then 176
  else if d < 2 then (respCount .tcm write h + 7) / 8 * 8
  else if d = 2 && p = .zg6420 then (respCount .sram write h + 7) / 8 * 8
  else 8

/-- The first and last mc edge on which a reservoir's response arrives at THROTTLE n (R318, Table 7.6): two crossings of a hop,
96 rc, and two queues of 4 cycles and a phase each, at spread of up to 0.5 %. -/
def reservoirResp (n : Nat) : Nat × Nat :=
  ((48000 + 124375 * (20 - n) / 20) / 1000 + 1, (49000 + 126250 * (20 - n) / 20 - 1) / 1000)

/-- The mc from issue to response of a tile's access that its target answers (Table 7.6): under throttling a reservoir's is
one of its range (log 2). -/
def State.tileResp (s : State) (rg : Region) (write : Bool) (h : Nat) : Nat × State :=
  match rg with
  | .reservoir =>
    let (lo, hi) := reservoirResp (s.get PWR_THERM_STAT_THROTTLE d0)
    if lo + 7 - (lo + 7) % 8 = hi + 7 - (hi + 7) % 8 then (hi, s)
    else
      let (x, s) := s.draw Config.rcPhase
      (lo + x % (hi - lo + 1), s)
  | _ => (respCount rg write h, s)

/-- Act on the error that a read of a die's memory range found (R529, R530, R574): false is an error response. -/
def State.memFind (s : State) (d off : Nat) (e : Ecc) : Bool × State :=
  match s.region d off with
  | .unbacked => (false, s)
  | .sram | .reservoir => (!eccBad e, s.rowError d 0 (bufferRow d off) false e)
  | .tcm | .l2 =>
    match e with
    | .clean => (true, s)
    | .corrected _ _ => (true, s.count CTL_ECC_CE (onDie d))
    | .bad _ _ => (false, s.count CTL_ECC_UE (onDie d))

/-- Read n bytes of a die's memory range, little-endian (R761), acting on the error the read found: none is an error response. -/
def State.memRead (s : State) (d off n : Nat) (e : Ecc) : Option Nat × State :=
  match (s.rcUse d off n false).memFind d off e with
  | (false, s) => (none, s)
  | (true, s) => (some (s.load (d * 2 ^ 36 + off) n), s)

/-- Write n bytes of a die's memory range (R761): none is an error response. -/
def State.memWrite (s : State) (d off n v : Nat) : Option State :=
  match s.region d off with
  | .unbacked => none
  | _ => some (s.putBytes (d * 2 ^ 36 + off) (leBytes n v))

/-- Where a memory access from die a to die b ends (R30, R36, R145, R665, R737). -/
inductive Reach where
  | open_ (hops : Nat)
  | error
  | asleep (d : Nat)
  deriving DecidableEq, Repr

/-- How a request from die a reaches die b. -/
def State.reach (s : State) (a b : Nat) : Reach :=
  match s.route a b with
  | .clear h => .open_ h
  | .asleep d => .asleep d
  | _ => .error

end Sys2Proof.Machine
end

