-- ==== Sys2Proof/Machine/Caches.lean ====
section
/-!
DEFINITION. The caches of the line dies as arrays (13_control_complex.md, R553, R555, R559, R651): which set and ways a line may lie in, and
how a dirty line of an L1 data cache joins the L2. How a core reads and writes through them is in CoreMemory.lean.
-/
namespace Sys2Proof.Machine
open Reg

/-! ## Cores -/

/-- A core of the part (R552). -/
def coreExists (p : Part) (n : Nat) : Bool := n < 8 || (n < 12 && p == .zg6480)
/-- The line die of a core. -/
def coreDie (n : Nat) : Nat := if n < 8 then 0 else 1
/-- The cores of a line die. -/
def dieCores (p : Part) (d : Nat) : List Nat := (List.range 12).filter (fun n => coreExists p n && coreDie n == d)
/-- A core's state. -/
def State.core (s : State) (n : Nat) : Core := Tab.get s.ctl.core {} n
/-- Replace a core's state. -/
def State.setCore (s : State) (n : Nat) (c : Core) : State :=
  { s with ctl := { s.ctl with core := Tab.set s.ctl.core {} n c } }

/-! ## Arrays (R553) -/

/-- A cache: the L1 instruction cache or L1 data cache of a core, or the L2 of a line die. -/
inductive Cache where
  | code (n : Nat)
  | data (n : Nat)
  | l2 (d : Nat)

/-- The first place of the set that an address falls in: 256 sets of 4 ways, or 4,096 sets of 16. -/
def Cache.first (c : Cache) (pa : Nat) : Nat :=
  match c with
  | .code n | .data n => n * 1024 + pa / 64 % 256 * 4
  | .l2 d => d * 65536 + pa / 64 % 4096 * 16

/-- The ways that hold lines: those of an L2 that are not SRAM, which count down from way 15 (Table 13.3). -/
def State.ways (s : State) : Cache → Nat
  | .code _ | .data _ => 4
  | .l2 d => 16 - s.get CTL_L2_CFG_SRAM_WAYS (onDie d)

/-- The array of a cache's kind. -/
def State.lines (s : State) : Cache → Tab (Option Line)
  | .code _ => s.ctl.l1i
  | .data _ => s.ctl.l1d
  | .l2 _ => s.ctl.l2

/-- The line at a place. -/
def State.lineAt (s : State) (c : Cache) (k : Nat) : Option Line := Tab.get (s.lines c) none k

/-- Set the line at a place. -/
def State.setLineAt (s : State) (c : Cache) (k : Nat) (l : Option Line) : State :=
  match c with
  | .code _ => { s with ctl := { s.ctl with l1i := Tab.set s.ctl.l1i none k l } }
  | .data _ => { s with ctl := { s.ctl with l1d := Tab.set s.ctl.l1d none k l } }
  | .l2 _ => { s with ctl := { s.ctl with l2 := Tab.set s.ctl.l2 none k l } }

/-- The places where a cache may hold the line of an address. -/
def State.places (s : State) (c : Cache) (pa : Nat) : List Nat := (List.range (s.ways c)).map (c.first pa + ·)

/-- The place where a cache holds the line of an address. -/
def State.placeOf (s : State) (c : Cache) (pa : Nat) : Option Nat :=
  (s.places c pa).find? (fun k => (s.lineAt c k).any (fun l => l.tag == pa / 64))

/-- The line of an address that a cache holds. -/
def State.line (s : State) (c : Cache) (pa : Nat) : Option Line := (s.placeOf c pa).bind (s.lineAt c)

/-- Replace the line of an address that a cache holds, or drop it. -/
def State.setLine (s : State) (c : Cache) (pa : Nat) (l : Option Line) : State :=
  match s.placeOf c pa with
  | none => s
  | some k => s.setLineAt c k l

/-- The place of a set that a new line takes: an empty one, or one the spec does not name (log 43). -/
def State.victim (s : State) (c : Cache) (pa : Nat) : Nat × State :=
  match (s.places c pa).find? (fun k => (s.lineAt c k).isNone) with
  | some k => (k, s)
  | none =>
    let (r, s) := s.draw Config.freeWay
    (c.first pa + r % s.ways c, s)

/-! ## L1 data caches (R553, R555, R559) -/

/-- A physical address lies in the L2 SRAM of line die d (Table 13.2): its lines lie in no cache way of the L2. -/
def State.ownSram (s : State) (d addr : Nat) : Bool :=
  addr / 2 ^ 36 == d && s.region d (addr % 2 ^ 36) == .l2

/-- A dirty line of core n's L1 data cache is written to the L2 of its die, which holds every such line, or to its L2 SRAM. -/
def State.mergeLine (s : State) (n pa : Nat) : State :=
  match s.line (.data n) pa with
  | none => s
  | some l =>
    if !l.dirty then s
    else
      let s := s.setLine (.data n) pa (some { l with dirty := false })
      if s.ownSram (coreDie n) pa then s.setBytes (pa / 64 * 64) l.bytes else s.setLine (.l2 (coreDie n)) pa (some l)

/-- The L2 of a line die holds what its L1 data caches hold of a line. -/
def State.mergeAll (s : State) (d pa : Nat) : State := (dieCores s.part d).foldl (fun (s : State) n => s.mergeLine n pa) s

/-- The L1 data caches of a line die, but for one core's, no longer hold a line. -/
def State.dropOthers (s : State) (d pa : Nat) (but : Option Nat) : State :=
  (dieCores s.part d).foldl (fun (s : State) n => if but = some n then s else s.setLine (.data n) pa none) s

/-- The L1 instruction caches of a line die no longer hold a line. -/
def State.dropCode (s : State) (d pa : Nat) : State :=
  (dieCores s.part d).foldl (fun (s : State) n => s.setLine (.code n) pa none) s

/-- Every cache way of a line die's L2 is invalid, and with it the L1 data lines that it holds (R553, R555): the contents of dirty
lines are lost. Lines of the L2 SRAM stay. -/
def State.dropCache (s : State) (d : Nat) : State :=
  { s with ctl := { s.ctl with
      l2 := s.ctl.l2.filter (fun e => e.1 / 65536 != d)
      l1d := s.ctl.l1d.filter (fun e => coreDie (e.1 / 1024) != d || e.2.any (fun l => s.ownSram d (l.tag * 64))) } }

/-- The L1 data caches and store buffers of every core read zero (R651, Z5). -/
def State.zeroL1 (s : State) : State :=
  { s with ctl := { s.ctl with
      l1d := s.ctl.l1d.map (fun (e : Nat × Option Line) => (e.1, e.2.map (fun l => { l with bytes := List.replicate 64 0 })))
      core := s.ctl.core.filterMap (fun (e : Nat × Core) => if { e.2 with sb := [] } = ({} : Core) then none else some (e.1, { e.2 with sb := [] })) } }

end Sys2Proof.Machine
end

