-- ==== Sys2Proof/Machine/Time.lean ====
section
/-!
DEFINITION. Spread control and network time (02_clocks_time_freeze.md, R69 to R93, R758). The application of a committed
adjustment, which also closes bins, windows and gate cycles, stands in Machine/Freeze.lean.
-/
namespace Sys2Proof.Machine
open Reg

/-! ## Spread (R69, R70, R758) -/

/-- The period P in ac of a FREQ (R758). -/
def sscPeriod (freq : Nat) : Nat :=
  if freq = 0 then 833 else if freq = 1 then 806 else if freq = 2 then 781 else 758

/-- The counter restarts at 0 and the written spread configuration takes effect, all fields together (R70, R758). -/
def State.sscTurn (s : State) : State := (s.commit CLK_SSC_CFG d0).put CLK_SSC_POS_K d0 0

/-- The period in effect of the spread triangle (R758). -/
def State.sscP (s : State) : Nat := sscPeriod (bits (s.rdEff CLK_SSC_CFG d0) 9 8)

/-- SSC_TURNING_POINT (R758, R70): the edge on which the counter, which runs while the reference is locked, reaches its
period. -/
def execSscTurningPoint (s : State) : Out := s.acEvent fun s =>
  if s.is CLK_STATUS_REF_LOCK d0 && s.sscP ≤ s.get CLK_SSC_POS_K d0 + 1 then s.sscTurn else s

/-! ## The counter (R72 to R78) -/

/-- One tc edge (R74): the counter adds TIME.INCR, which is in effect as `incr`. -/
def NetTime.advance (t : NetTime) (incr : Word) : NetTime :=
  let f := t.frac.toNat + bits incr 27 0
  let n := t.ns.toNat + bits incr 31 28 + f / 2 ^ 28
  let t := { t with frac := BitVec.ofNat 28 f }
  if 1000000000 ≤ n then { t with ns := BitVec.ofNat 30 (n - 1000000000), sec := t.sec + 1 }
  else { t with ns := BitVec.ofNat 30 n }

/-- The network time in nanoseconds, as gates and windows compare it. -/
def NetTime.nowNs (t : NetTime) : Nat := t.sec.toNat * 1000000000 + t.ns.toNat

/-- The counter as TIME registers and stamps show it: the top 16 of its 28 fraction bits (R74). -/
def NetTime.frac16 (t : NetTime) : Nat := t.frac.toNat / 2 ^ 12

/-- tc's source in effect is a channel that the part has (Table 2.4: an absent channel is treated as SRC = 1). -/
def State.tcOnChan (s : State) : Bool :=
  !s.is TIME_CFG_SRC d0 && chanExists s.part (s.get TIME_CFG_MASTER_CHAN d0)

/-- HOLDOVER is 1 while SRC = 0 and the time-master channel is on the PON reference; LOCKED is then 0 (R76). -/
def State.evalHoldover (s : State) : State :=
  let h := s.tcOnChan && bitOf (s.get CLK_STATUS_LW_ON_REF d0) (s.get TIME_CFG_MASTER_CHAN d0)
  let s := s.put TIME_STATUS_HOLDOVER d0 (b2n h)
  if h then s.put TIME_STATUS_LOCKED d0 0 else s

/-- A relock of tc starts: LOCKED is 0 until it completes (R77). -/
def State.startRelock (s : State) : State :=
  { s with time := { s.time with relocking := true } }.put TIME_STATUS_LOCKED d0 0

/-- TIME_CFG_WRITE (R75, R77): the counter starts or holds, and a relock starts, as every write is one to MASTER_CHAN and
SRC. -/
def execTimeCfgWrite (v : Word) (s : State) : Out := s.event fun s =>
  let s := s.fwWrite TIME_CFG d0 v
  { s with time := { s.time with run := s.is TIME_CFG_EN d0 } }.startRelock.evalHoldover

/-- TIME_RELOCK_DONE (R77): LOCKED rises, unless the selected channel is on the PON reference (R76). -/
def execTimeRelockDone (s : State) : Out := s.event fun s =>
  if s.time.relocking && !s.is TIME_STATUS_HOLDOVER d0 then
    { s with time := { s.time with relocking := false } }.put TIME_STATUS_LOCKED d0 1
  else s

/-! ## Commits (R79 to R82) -/

/-- A write of 1 to TIME.COMMIT.GO with an OP: the shadow copies of the group are on their way to tc (R79 to R81). A
later GO replaces the pending set (R743). -/
def State.timeCommit (s : State) (op : Nat) : State :=
  if s.get TIME_ADJ_CTL_OP d0 = op then
    { s with time := { s.time with
        pend := some ⟨op, s.rd TIME_INCR d0,
          BitVec.ofNat 48 (s.get TIME_ADJ_SEC_HI_V d0 * 2 ^ 32 + s.get TIME_ADJ_SEC_LO_V d0),
          BitVec.ofNat 30 (s.get TIME_ADJ_NS_V d0)⟩ } }
  else s

/-- TIME_COMMIT_INCR (R81): OP 0b00 applies only INCR. -/
def execTimeCommitIncr (s : State) : Out := s.event fun s => s.timeCommit 0
/-- TIME_COMMIT_OFFSET (R81): OP 0b01 adds a signed offset. -/
def execTimeCommitOffset (s : State) : Out := s.event fun s => s.timeCommit 1
/-- TIME_COMMIT_LOAD (R81): OP 0b10 loads an absolute time. -/
def execTimeCommitLoad (s : State) : Out := s.event fun s => s.timeCommit 2

/-- The counter after a committed adjustment (R81, R82): an offset keeps the fraction, a load clears it, and ADJ_NS of
1,000,000,000 or more leaves a free value. -/
def State.applyAdj (s : State) (a : TimeAdj) : State :=
  let t := s.time
  if a.op = 0 then s
  else if 1000000000 ≤ a.ns.toNat then
    { s with
      fresh := s.fresh + 1
      time := { t with sec := Config.freeTimeSec s.fresh, ns := Config.freeTimeNs s.fresh, frac := Config.freeTimeFrac s.fresh } }
  else if a.op = 1 then
    let n := t.ns.toNat + a.ns.toNat
    { s with time := { t with
        sec := t.sec + a.sec + (if 1000000000 ≤ n then 1 else 0)
        ns := BitVec.ofNat 30 (if 1000000000 ≤ n then n - 1000000000 else n) } }
  else { s with time := { t with sec := a.sec, ns := a.ns, frac := 0 } }

/-! ## Snapshots and captures (R84 to R90) -/

/-- TIME_SNAP (R84 step 1): VALID clears and the GO is on its way; it replaces an earlier one. -/
def execTimeSnap (s : State) : Out := s.event fun s =>
  { s with time := { s.time with snap := .going } }.put TIME_SNAP_VALID d0 0

/-- Copy the counter into a seconds-high, seconds-low, nanoseconds group of registers. -/
def State.copyTime (s : State) (hi lo ns : Nat) : State :=
  let s := s.wr hi d0 (BitVec.ofNat 32 (s.time.sec.toNat / 2 ^ 32))
  let s := s.wr lo d0 (BitVec.ofNat 32 s.time.sec.toNat)
  s.wr ns d0 (BitVec.ofNat 32 s.time.ns.toNat)

/-- TIME_SNAP_CAPTURE (R84 step 2). -/
def execTimeSnapCapture (s : State) : Out := s.event fun s =>
  if s.time.snap = .going then
    let s := s.copyTime TIME_SNAP_SEC_HI TIME_SNAP_SEC_LO TIME_SNAP_NS
    let s := s.put TIME_SNAP_FRAC_V d0 s.time.frac16
    { s with time := { s.time with snap := .copied } }
  else s

/-- TIME_SNAP_VALID (R84 step 3). -/
def execTimeSnapValid (s : State) : Out := s.event fun s =>
  if s.time.snap = .copied then { s with time := { s.time with snap := .idle } }.put TIME_SNAP_VALID d0 1 else s

/-- TOD_CAP_ARM (R85). -/
def execTodCapArm (sfLo : BitVec 30) (s : State) : Out := s.event fun s =>
  (s.put TIME_TOD_CAP_CTL_SF_LO d0 sfLo.toNat).put TIME_TOD_CAP_CTL_ARM d0 1

/-- The local superframe count of the time-master channel (R85, R169). -/
def State.masterSfc (s : State) : BitVec 51 := (Tab.get s.pon.framer {} (s.get TIME_CFG_MASTER_CHAN d0)).sfc

/-- TOD_CAPTURE (R85, R86): at the PSync detection of the armed frame of the time-master channel. A count that is not the one of its
framer names no frame of it (log 6). -/
def execTodCapture (sfc : BitVec 51) (s : State) : Out := s.event fun s =>
  if sfc == s.masterSfc && s.is TIME_TOD_CAP_CTL_ARM d0 && chanExists s.part (s.get TIME_CFG_MASTER_CHAN d0) &&
     sfc.toNat % 2 ^ 30 == s.get TIME_TOD_CAP_CTL_SF_LO d0 then
    let s := s.copyTime TIME_TOD_CAP_SEC_HI TIME_TOD_CAP_SEC_LO TIME_TOD_CAP_NS
    let s := s.put TIME_TOD_CAP_FRAC_V d0 s.time.frac16
    (s.put TIME_TOD_CAP_STAT_DONE d0 1).put TIME_TOD_CAP_CTL_ARM d0 0
  else s

/-- A tc edge on which the counter adds `incr` takes it through the second boundary less `adv` ns (R87). -/
def NetTime.passes (t : NetTime) (incr : Word) (adv : Nat) : Bool :=
  let n := t.ns.toNat + bits incr 31 28 + (t.frac.toNat + bits incr 27 0) / 2 ^ 28
  decide (t.ns.toNat + adv < 1000000000) && decide (1000000000 ≤ n + adv)

/-- PPS_OUT_RISE (R87, R88): the ball rises after the counter has passed the boundary, for WIDTH_US counted in tc (500 edges a
microsecond), and a time-of-day message of its own falls due DELAY_MS later (R92). A boundary that a backward step brings back
while the ball is still high raises nothing, and the ball falls at its normal time. -/
def execPpsOutRise (s : State) : Out := s.event fun s =>
  if !s.time.ppsDue then s
  else if s.time.ppsOut then { s with time := { s.time with ppsDue := false } }
  else { s with time := { s.time with
        ppsDue := false, ppsOut := true, ppsLow := s.get TIME_PPS_CFG_WIDTH_US d0 * 500
        todWaits := s.time.todWaits ++ [s.get TIME_TOD_CFG_DELAY_MS d0 * 500000] } }

/-- PPS_OUT_FALL (R87): WIDTH_US has passed. -/
def execPpsOutFall (s : State) : Out := s.event fun s =>
  if s.time.ppsLow ≠ 0 then s else { s with time := { s.time with ppsOut := false } }

/-- PPS_IN_CAPTURE (R89, R90). -/
def execPpsInCapture (s : State) : Out := s.event fun s =>
  if !s.is TIME_PPS_CFG_IN_EN d0 then s
  else if s.is TIME_PPS_IN_STAT_VALID d0 then s.incSat TIME_PPS_IN_STAT_MISSED d0 1 0xFF
  else (s.copyTime TIME_PPS_IN_SEC_HI TIME_PPS_IN_SEC_LO TIME_PPS_IN_NS).put TIME_PPS_IN_STAT_VALID d0 1

/-- The bytes of the TIME.TOD_TX buffer (R92), four to a word, lowest first: the rule names a buffer and no layout (PRESUMED from
R761, log 98). -/
def State.todBuffer (s : State) : List Byte :=
  ((List.range 16).map (fun i => leBytes 4 (s.rd TIME_TOD_TX_BUF (d0i i)).toNat)).flatten

/-- TOD_TX_START (R92): DELAY_MS after each rise, the buffer is sent if READY, else TX_SKIP counts. A LEN of 0 sends no byte and
one above 64 the whole buffer, READY clearing (DESIGN CHOICE, log 90: the rule gives 1 to 64). -/
def execTodTxStart (s : State) : Out := s.event fun s =>
  if !s.time.todWaits.contains 0 then s
  else
    let s := { s with time := { s.time with todWaits := s.time.todWaits.erase 0 } }
    if s.is TIME_TOD_TX_READY d0 then
      { s with time := { s.time with todOut := s.todBuffer.take (s.get TIME_TOD_TX_LEN d0) } }.put TIME_TOD_TX_READY d0 0
    else s.inc TIME_TOD_STAT_TX_SKIP d0 1

/-- TOD_RX_BYTE (R93). TIME.TOD_RX_TS holds the nanoseconds of the time alone (DESIGN CHOICE, log 90). -/
def execTodRxByte (b : Byte) (afterIdle : Bool) (s : State) : Out := s.event fun s =>
  let s := if afterIdle then s.put TIME_TOD_RX_TS_NS d0 s.time.ns.toNat else s
  if 64 ≤ s.time.todFifo.length then s.put TIME_TOD_STAT_RX_OVF d0 1
  else { s with time := { s.time with todFifo := s.time.todFifo ++ [b] } }

end Sys2Proof.Machine
end

