-- ==== Sys2Proof/Machine/Lanes.lean ====
section
/-!
DEFINITION. Serial lanes (03_serial_lanes.md): equalisers, receivers, mortar links, eye scan and the optics I2C master,
whose transactions the cage I2C master of Machine/Macs.lean shares.
-/
namespace Sys2Proof.Machine
open Reg

/-! ## Equalisers and receivers (R120 to R129) -/

/-- The register and place of a lane's transmit equaliser (R120). -/
def eqPlace : TxLane → Nat × Nat
  | .pon c => (LANE_PTX_EQ, atChan c.val)
  | .sub p => (LANE_SUB_TX_EQ, atPort p.val)
  | .mgt => (LANE_MGT_TX_EQ, d0)
  | .link l d => (DLINK_TX_EQ, place d.val l.val)

/-- The limits on a written equaliser setting (R121). -/
def eqLegal (v : Word) : Bool :=
  bits v 11 8 + bits v 29 24 + bits v 20 16 ≤ 63 && 12 + bits v 11 8 + bits v 20 16 ≤ bits v 29 24

/-- The lane exists on the part: a link's equaliser on either of its ends (R120). -/
def eqExists (p : Part) : TxLane → Bool
  | .pon c => chanExists p c.val
  | .sub q => present p (portDie q.val)
  | .mgt => true
  | .link l d => linkPresent p l.val && (linkLow l.val == d.val || linkHigh l.val == d.val)

/-- TX_EQ_WRITE (R121, R122): applied whole within the limits, clearing REJECT; otherwise the setting stays. -/
def execTxEqWrite (lane : TxLane) (v : Word) (s : State) : Out := s.event fun s =>
  let (r, a) := eqPlace lane
  if !eqExists s.part lane then s
  else if eqLegal v then
    let w := setBits (s.rd r a) 29 24 (bits v 29 24)
    let w := setBits (setBits w 20 16 (bits v 20 16)) 11 8 (bits v 11 8)
    s.wr r a (setBits w 31 31 0)
  else s.wr r a (setBits (s.rd r a) 31 31 1)

/-- The receiver of a channel loses downstream data: its lw follows the PON reference (R60), and the time-master
channel enters holdover (R76). -/
def State.cdrLoss (s : State) (c : Nat) : State :=
  let s := s.put CLK_STATUS_LW_LOCKED d0 (putBit (s.get CLK_STATUS_LW_LOCKED d0) c false)
  let s := s.put CLK_STATUS_LW_ON_REF d0 (putBit (s.get CLK_STATUS_LW_ON_REF d0) c true)
  let s := s.put LANE_PRX_STAT_CDR_LOCK (atChan c) 0
  s.evalHoldover

/-- The receiver of a channel locks to downstream data; on the time-master channel tc starts a relock (R76, R77). -/
def State.cdrGain (s : State) (c : Nat) : State :=
  let back := bitOf (s.get CLK_STATUS_LW_ON_REF d0) c
  let s := s.put CLK_STATUS_LW_LOCKED d0 (putBit (s.get CLK_STATUS_LW_LOCKED d0) c true)
  let s := s.put CLK_STATUS_LW_ON_REF d0 (putBit (s.get CLK_STATUS_LW_ON_REF d0) c false)
  let s := s.put LANE_PRX_STAT_CDR_LOCK (atChan c) 1
  let s := if back && s.tcOnChan && s.get TIME_CFG_MASTER_CHAN d0 == c then s.startRelock else s
  s.evalHoldover

/-- The receiver of channel c of the part is enabled and powered (Table 3.4, R184). -/
def State.rxPowered (s : State) (c : Nat) : Bool :=
  chanExists s.part c && s.is LANE_PRX_CFG_EN (atChan c) && s.is PWR_PS_STAT_RX_ON (d0i c)

/-- CDR_LOCK_CHANGE (R60, R76, R125): a lock needs a receiver that runs and a signal. -/
def execCdrLockChange (c : Chan) (lock : Bool) (s : State) : Out := s.event fun s =>
  if !chanExists s.part c.val then s
  else if lock then (if s.rxPowered c.val && s.is LANE_PRX_STAT_SD (atChan c.val) then s.cdrGain c.val else s)
  else s.cdrLoss c.val

/-- The equaliser of channel c adapts from live data (R117, R125, R127). -/
def State.adapts (s : State) (c : Nat) : Bool :=
  s.is LANE_PRX_EQ_CTL_ADAPT_EN (atChan c) && s.is LANE_PRX_CFG_EN (atChan c) && s.is LANE_PRX_STAT_SD (atChan c)

/-- A coefficient of channel c has moved by now (Table 3.5). -/
def State.coefMoved (s : State) (c : Nat) : State :=
  { s with lanes := { s.lanes with coefAt := Tab.set s.lanes.coefAt 0 c s.clk.rc } }

/-- The lw since a coefficient of channel c moved, at nominal frequencies (R59, log 3), by the count of rc of 1 ns. -/
def State.coefStill (s : State) (c : Nat) : Nat :=
  (s.clk.rc - Tab.get s.lanes.coefAt 0 c) * 972 / (if s.isEff LANE_PRX_CFG_XGS (atChan c) then 25000 else 5000)

/-- PRX_STAT.ADAPTED (Table 3.5): 1 once every coefficient has been held for 65,536 lw. While the equaliser adapts, or less than
that after it did, whether each has moved by less than 2 LSB is free (log 100); with EN = 0 it reads 0. -/
def State.adapted (s : State) (c : Nat) : Bool × State :=
  if !s.is LANE_PRX_CFG_EN (atChan c) then (false, s)
  else if !s.adapts c && decide (65536 ≤ s.coefStill c) then (true, s)
  else s.draw Config.freeAlarm

/-- The coefficients of an equaliser that adapts move: each word becomes a free value (R127). -/
def State.adapt (s : State) (c : Nat) : State :=
  if !s.adapts c then s
  else [LANE_PRX_FFE0, LANE_PRX_FFE1, LANE_PRX_DFE].foldl (fun (s : State) r =>
    let (w, s) := s.draw Config.freeReserved
    s.wrEff r (atChan c) (writeWord (regDesc r).fields w 0 w 0)) (s.coefMoved c)

/-- SD of a channel takes a value (Table 3.5): its fall sets SD_LOST and leaves the coefficients as they had adapted until then,
and while it is 0 lw follows the PON reference (R125). -/
def State.setSd (s : State) (c : Nat) (sd : Bool) : State :=
  let a := atChan c
  let s := if sd then s else s.adapt c
  let fell := s.is LANE_PRX_STAT_SD a && !sd
  let s := s.put LANE_PRX_STAT_SD a (b2n sd)
  let s := if fell then s.put LANE_PRX_STAT_SD_LOST a 1 else s
  if sd then s else s.cdrLoss c

/-- SIGNAL_DETECT_CHANGE (R125): SD follows the ball after SD_POL. -/
def execSignalDetectChange (c : Chan) (high : Bool) (s : State) : Out := s.event fun s =>
  if !chanExists s.part c.val then s else s.setSd c.val (high != s.is LANE_PRX_CFG_SD_POL (atChan c.val))

/-- PRX_EQ_COMMIT (R126, R128): every shadow coefficient is loaded on one lw edge. -/
def execPrxEqCommit (c : Chan) (s : State) : Out := s.event fun s =>
  (s.commitAll [(LANE_PRX_FFE0, atChan c.val), (LANE_PRX_FFE1, atChan c.val), (LANE_PRX_DFE, atChan c.val)]).coefMoved c.val

/-! ## Mortar links (R114 to R119, R135 to R149, R765) -/

/-- The key of lane k of a link in one direction. -/
def laneKey (l : Nat) (back : Bool) (k : Nat) : Nat := l * 32 + b2n back * 16 + k

/-- A lane has lock. -/
def State.laneLocked (s : State) (l : Nat) (back : Bool) (k : Nat) : Bool := Tab.get s.lanes.lock false (laneKey l back k)

/-- Set a lane's lock. -/
def State.setLane (s : State) (l : Nat) (back : Bool) (k : Nat) (b : Bool) : State :=
  { s with lanes := { s.lanes with lock := Tab.set s.lanes.lock false (laneKey l back k) b } }

/-- Every lane of a link, in both directions, has lock. -/
def State.allLanes (s : State) (l : Nat) : Bool :=
  (List.range (linkWidth l)).all (fun k => s.laneLocked l false k && s.laneLocked l true k)

/-- Every lane of a link hunts again. -/
def State.dropLanes (s : State) (l : Nat) : State :=
  (List.range (linkWidth l)).foldl (fun s k => (s.setLane l false k false).setLane l true k false) s

/-- A die's mortar lanes are enabled (R116): it has left reset and its PLLs have locked. -/
def State.lanesOn (s : State) (d : Nat) : Bool :=
  s.hw.released.toNat.testBit d && bitOf (s.get CLK_STATUS_DIE_PLL d0) d

/-- Both ends of a link send (R116). -/
def State.linkSends (s : State) (l : Nat) : Bool := s.lanesOn (linkLow l) && s.lanesOn (linkHigh l)

/-- LANE_LOCK (R110, R116, R135, R139): on 64 consecutive valid sync headers, or on the confirming comma, from a lane that is
enabled at both ends. Lanes relock in a thaw too, but not while every lane is at electrical idle (R100). -/
def execLaneLock (l : Fin 25) (back : Bool) (lane : Fin 16) (headers : Nat) (comma : Bool) (s : State) : Out :=
  s.acEvent fun s =>
  let good := if s.part = .zg6480 then comma else decide (64 ≤ headers)
  if good && linkPresent s.part l.val && s.linkSends l.val && lane.val < linkWidth l.val && s.frz.phase != .stopped then s.setLane l.val back lane.val true else s

/-- LANE_LOCK_LOSS (R136, R140, R765): not judged while the part is frozen. -/
def execLaneLockLoss (l : Fin 25) (back : Bool) (lane : Fin 16) (invalid missing crcBad : Nat) (s : State) : Out :=
  s.event fun s =>
  let bad := if s.part = .zg6480 then decide (2 ≤ missing) || decide (16 ≤ crcBad) else decide (16 ≤ invalid)
  if bad && !s.is FRZ_STATUS_FROZEN d0 then s.setLane l.val back lane.val false else s

/-- Put a STATUS field of link l at both its ends. -/
def State.putLink (s : State) (f : Fld) (l v : Nat) : State :=
  (s.put f (place (linkLow l) l) v).put f (place (linkHigh l) l) v

/-- Every link between die d and another present die is locked (R119). -/
def State.dieLinked (s : State) (d : Nat) : Bool :=
  (List.range 25).all (fun l => !(linkPresent s.part l && (linkLow l == d || linkHigh l == d)) || s.linkUp l)

/-- Die d sets UP once its links are locked (R119); UP changes only while the mode is BOOT (R29). -/
def State.evalUp (s : State) (d : Nat) : State :=
  if s.get HW_OPMODE_MODE d0 = 1 && present s.part d && s.dieLinked d && s.hw.released.getLsbD d
  then s.latch HW_DIE_MAP_UP d0 d else s

/-- A link that was fixed before must reproduce its delay: at thaw (R149) and at the end of a DEEP exit (R658). -/
def State.mustRepeat (s : State) (l : Nat) : Bool :=
  s.frz.phase == .thawing || s.powerState (linkLow l) == 5 || s.powerState (linkHigh l) == 5

/-- The lanes of a link can be deskewed (R137, R141): a marker has been seen on every lane, which the comma frame that locks a
lane is on the ZG-6480, and the lanes are at most 64 UI apart. -/
def deskews (p : Part) (l : Nat) (x : Deskew) : Bool :=
  (p == .zg6480 || (List.range (linkWidth l)).all (fun k => x.marked.getLsbD k)) && x.skew ≤ 64

/-- DLINK_LOCKED (R118, R119, R137, R141 to R143, R148, R149, R765): deskew and latency fixing complete. It runs in a thaw too,
but not between the synchronised freeze and the thaw, nor after a thaw that failed. -/
def execDlinkLocked (l : Fin 25) (x : Deskew) (slack : Option (Fin 16)) (s : State) : Out := s.acEvent fun s =>
  if !linkPresent s.part l.val || !s.allLanes l.val || !s.hw.railsUp || !deskews s.part l.val x ||
     (s.is FRZ_STATUS_FROZEN d0 && s.frz.phase != .thawing) then s
  else if s.mustRepeat l.val && Tab.get s.lanes.fixedDelay 0 l.val != x.delay then s
  else match slack with
  | none => s.putLink DLINK_STATUS_LAT_FAIL l.val 1
  | some k =>
    let s := s.putLink DLINK_STATUS_LOCKED l.val 1
    let s := s.putLink DLINK_STATUS_LAT_FAIL l.val 0
    let s := s.putLink DLINK_STATUS_SLACK l.val k.val
    let s := { s with lanes := { s.lanes with
                 fixedDelay := Tab.set s.lanes.fixedDelay 0 l.val x.delay
                 down := Tab.set s.lanes.down false l.val false } }
    (s.evalUp (linkLow l.val)).evalUp (linkHigh l.val)

/-- The die at the sending end of link l for a command in flight that link l's receiving router has not registered yet
(R142, R146): a hop takes 22 mc, the first from the launch edge on (log 92). -/
def Fwd.onLink (f : Fwd) (now l : Nat) : Option Nat :=
  match viaDie f.from_ f.die with
  | none => if linkOf f.from_ f.die == some l && now < f.launch + 22 then some f.from_ else none
  | some v =>
    if linkOf f.from_ v == some l && now < f.launch + 22 then some f.from_
    else if linkOf v f.die == some l && now < f.launch + 44 then some v
    else none

/-- The replay store of link l (R101): what a transmitter of it sent in its last 32 mc, as far as State holds it on its way. -/
def State.replayStore (s : State) (l : Nat) : List Fwd :=
  s.pipe.flight.filter (fun f => (match viaDie f.from_ f.die with
    | none => linkOf f.from_ f.die == some l && decide (s.clk.mc < f.launch + 32)
    | some v => (linkOf f.from_ v == some l && decide (s.clk.mc < f.launch + 32)) ||
        (linkOf v f.die == some l && decide (f.launch + 22 ≤ s.clk.mc) && decide (s.clk.mc < f.launch + 54))))

/-- After relock link l sends again what its receiver had not registered before the stop (R101): the hop starts anew. -/
def State.resend (s : State) (l : Nat) : State :=
  let again (f : Fwd) : Fwd :=
    if (s.replayStore l).contains f && (f.onLink s.clk.mc l).isSome then
      { f with launch := if f.onLink s.clk.mc l == some f.from_ then s.clk.mc else s.clk.mc - 22 }
    else f
  { s with pipe := { s.pipe with flight := s.pipe.flight.map again } }

/-- The commands in flight over a link that lost lock are discarded: each is counted at its sending end and gives its buffer
hold back (R36, R146). -/
def State.dropFlight (s : State) (l : Nat) : State :=
  let gone (f : Fwd) := f.onLink s.clk.mc l
  (s.pipe.flight.filter (fun f => (gone f).isSome)).foldl
    (fun (s : State) f => (s.linkDrop ((f.onLink s.clk.mc l).getD 0) l 1).release f.pkt.buf)
    { s with pipe := { s.pipe with flight := s.pipe.flight.filter (fun f => (gone f).isNone) } }

/-- DLINK_LOCK_LOSS (R36, R144, R146, R147, R765): outside a freeze, a locked link loses lock. The forwarding commands on it
are discarded, and so are the posted writes that its two ends had sent, of which the operands tell the number. The requests on
it lose any response and wait for their error response. -/
def execDlinkLockLoss (l : Fin 25) (lost : List (Requester × Addr × Bool)) (dropLow dropHigh : Nat) (s : State) : Out :=
  s.event fun s =>
  if !s.linkUp l.val || s.is FRZ_STATUS_FROZEN d0 then s
  else
    let s := s.putLink DLINK_STATUS_LOCKED l.val 0
    let s := s.incSat DLINK_STATUS_DOWN_CNT (place (linkLow l.val) l.val) 1 0xFF
    let s := s.incSat DLINK_STATUS_DOWN_CNT (place (linkHigh l.val) l.val) 1 0xFF
    let s := s.linkDrop (linkLow l.val) l.val dropLow
    let s := s.linkDrop (linkHigh l.val) l.val dropHigh
    let s := (s.dropLanes l.val).dropFlight l.val
    let s := lost.foldl (fun (s : State) x => s.answer (reqCode x.1) {}) s
    { s with
      lanes := { s.lanes with down := Tab.set s.lanes.down false l.val true }
      mesh := { s.mesh with lost := s.mesh.lost ++ lost.map (fun x => ⟨x.1, x.2.1, x.2.2⟩) } }

/-- LINK_LOSS_ERROR_RESPONSE (R147): 4,096 mc after it left, a lost request is answered with an error response. -/
def execLinkLossErrorResponse (req : Requester) (s : State) : Out := s.event fun s =>
  match s.mesh.lost.find? (fun e => e.req == req) with
  | none => s
  | some e =>
    let s := s.answer (reqCode req) { err := true, count := 4096 }
    { s with mesh := { s.mesh with lost := s.mesh.lost.erase e, errs := s.mesh.errs ++ [e] } }

/-! ## Eye scan (R150 to R153) -/

/-- The scan point in progress on a die. -/
def State.scanOf (s : State) (d : Nat) : Option ScanPoint := Tab.get s.lanes.scan none d

/-- Set the scan point of a die. -/
def State.setScan (s : State) (d : Nat) (p : Option ScanPoint) : State :=
  { s with lanes := { s.lanes with scan := Tab.set s.lanes.scan none d p } }

/-- ESCAN_START (R151, R152): the fields are written; with no point running they are latched and ESCAN_ERR clears. -/
def execEscanStart (d : Die) (v : Word) (s : State) : Out := s.event fun s =>
  let a := onDie d.val
  let busy := s.is LANE_ESCAN_STAT_BUSY a
  let s := s.fwWrite LANE_ESCAN_CTL a v
  if busy then s
  else
    let s := s.setScan d.val (some ⟨s.get LANE_ESCAN_CTL_TARGET a, s.get LANE_ESCAN_CTL_PHASE a,
      s.get LANE_ESCAN_CTL_VOFF a, s.get LANE_ESCAN_CTL_DWELL a, 0⟩)
    (s.wr LANE_ESCAN_ERR a 0).put LANE_ESCAN_STAT_BUSY a 1

/-- A point ends with the mismatches counted, which saturate; an early end sets ABORTED and its CAUSE, not DONE (R153). Until then
ESCAN_ERR reads a free value: the rule does not say whether it shows the count as it runs (log 101). -/
def State.endScan (s : State) (d errors : Nat) (early : Option Nat) : State :=
  let a := onDie d
  let s := s.setScan d none
  let s := s.wr LANE_ESCAN_ERR a (BitVec.ofNat 32 (Nat.min errors 0xFFFFFFFF))
  let s := s.put LANE_ESCAN_STAT_BUSY a 0
  match early with
  | none => s.put LANE_ESCAN_STAT_DONE a 1
  | some c => (s.put LANE_ESCAN_STAT_ABORTED a 1).put LANE_ESCAN_STAT_CAUSE a c

/-- ESCAN_ABORT (R153): CAUSE 0b000. -/
def execEscanAbort (d : Die) (v : Word) (errors : Nat) (s : State) : Out := s.event fun s =>
  let s := s.fwWrite LANE_ESCAN_CTL (onDie d.val) v
  if (s.scanOf d.val).isSome then s.endScan d.val errors (some 0) else s

/-- A receiver that an eye scan reads is disabled or powered down (Table 3.12). -/
def State.scanOff (s : State) (d : Nat) : ScanRx → Bool
  | .pon c => !s.rxPowered c
  | .sub p => !s.is LANE_SUB_CFG_EN (atPort p)
  | .mgt => !s.is LANE_MGT_CFG_EN d0
  | .mortar l _ => !s.lanesOn d || !s.linkSends l

/-- A receiver that an eye scan reads has no lock (Table 3.12); of a subscriber or management lane State holds none. -/
def State.scanLost (s : State) (d : Nat) : ScanRx → Option Bool
  | .pon c => some (!s.is LANE_PRX_STAT_CDR_LOCK (atChan c))
  | .sub _ | .mgt => none
  | .mortar l k => some (!s.laneLocked l (linkLow l == d) k)

/-- A point on a die may end so (R150, R153, Table 3.12): completely while its receiver runs with lock, early with CAUSE 1 without
lock and with CAUSE 2 where it is off. A reserved TARGET ends in any of these ways (R13). -/
def State.scanEnds (s : State) (d : Nat) (p : ScanPoint) (early : Option (Fin 3)) : Bool :=
  match scanTarget s.part d p.target, early with
  | none, e => e != some 0
  | some r, none => !s.scanOff d r && s.scanLost d r != some true
  | some r, some 1 => !s.scanOff d r && s.scanLost d r != some false
  | some r, some 2 => s.scanOff d r
  | some _, some _ => false

/-- ESCAN_DONE (R153): every bit compared, or an early end. -/
def execEscanDone (d : Die) (errors : Nat) (early : Option (Fin 3)) (s : State) : Out := s.event fun s =>
  match s.scanOf d.val with
  | none => s
  | some p => if s.scanEnds d.val p early then s.endScan d.val errors (early.map Fin.val) else s

/-! ## I2C transactions (R154 to R158, R479) -/

/-- The registers of an I2C master: CFG, CMD, STAT, DATA0, DATA1 and its die. Both masters share the layout of Tables
3.13 and 3.14; the cage master's CMD also holds BUS. -/
structure I2cRegs where
  cfg : Nat
  cmd : Nat
  stat : Nat
  data0 : Nat
  data1 : Nat
  at_ : Nat

/-- CFG is written (R158): while BUSY is 1 it applies from the next transaction, IEN with it, which acts as it stands in effect. -/
def State.i2cCfg (s : State) (m : I2cRegs) (v : Word) : State :=
  let s := s.fwWrite m.cfg m.at_ v
  if bits (s.rd m.cmd m.at_) 30 30 = 1 then s else s.commit m.cfg m.at_

/-- A write of CMD with GO (R155, R157, R158): the fields are written; a GO while BUSY is ignored and sets REJ;
otherwise the transaction starts with the settings of that moment. With EN = 0 a GO starts nothing and sets no flag (DESIGN
CHOICE, log 93: the rules give it no effect). -/
def State.i2cGo (s : State) (m : I2cRegs) (v : Word) (rd : Bool) : State × Option I2cJob :=
  let busy := bits (s.rd m.cmd m.at_) 30 30 == 1
  let s := s.fwWrite m.cmd m.at_ (setBits v 27 27 (b2n rd))
  let w := s.rd m.cmd m.at_
  if busy then (s.wr m.stat m.at_ (setBits (s.rd m.stat m.at_) 30 30 1), none)
  else if bits (s.rd m.cfg m.at_) 31 31 = 0 then (s, none)
  else
    ((s.wr m.cmd m.at_ (setBits w 30 30 1)).commit m.cfg m.at_,
     some { read := rd, len := bits w 23 20, addr := bits w 18 12, reg := bits w 7 0,
            data := BitVec.ofNat 64 ((s.rd m.data0 m.at_).toNat + (s.rd m.data1 m.at_).toNat * 2 ^ 32),
            bus := bits w 11 8, fast := bits (s.rd m.cfg m.at_) 30 30 == 1, stretched := false })

/-- The ERR code of a transaction's end (Table 3.14). -/
def i2cErr (j : I2cJob) : I2cEnd → Nat
  | .acked => if j.stretched then 3 else 0
  | .noAddr => if j.stretched then 3 else 1
  | .noData => if j.stretched then 3 else 2

/-- The data registers after a read of len bytes: bytes not received read 0, bytes beyond the length stay (R155, R156). -/
def i2cData (j : I2cJob) (old : List Byte) (got : List Byte) : List Byte :=
  (List.range 8).map (fun i => if i < j.len then got.getD i 0 else old.getD i 0)

/-- A transaction ends (R156, R157): a read's bytes, ERR, BUSY falls and DONE is set. Data that was written while a read was BUSY
stands where the read put no byte (DESIGN CHOICE, log 93: R158 does not say how the two meet). -/
def State.i2cFinish (s : State) (m : I2cRegs) (j : I2cJob) (res : I2cEnd) (got : List Byte) : State :=
  let old := leBytes 4 (s.rd m.data0 m.at_).toNat ++ leBytes 4 (s.rd m.data1 m.at_).toNat
  let l := if j.read then i2cData j old got else old
  let s := s.wr m.data0 m.at_ (BitVec.ofNat 32 (leNat (l.take 4)))
  let s := s.wr m.data1 m.at_ (BitVec.ofNat 32 (leNat (l.drop 4)))
  let s := s.wr m.cmd m.at_ (setBits (setBits (s.rd m.cmd m.at_) 30 30 0) 29 28 (i2cErr j res))
  s.wr m.stat m.at_ (setBits (s.rd m.stat m.at_) 31 31 1)

/-- The optics I2C master of a line die. -/
def optRegs (n : Nat) : I2cRegs :=
  ⟨LANE_OPT_I2C_CFG, LANE_OPT_I2C_CMD, LANE_OPT_I2C_STAT, LANE_OPT_I2C_DATA0, LANE_OPT_I2C_DATA1, onDie n⟩

/-- Start an optics transaction. -/
def State.optGo (s : State) (n : Nat) (v : Word) (rd : Bool) : State :=
  match s.i2cGo (optRegs n) v rd with
  | (s, none) => s
  | (s, some j) => { s with lanes := { s.lanes with optI2c := Tab.set s.lanes.optI2c none n (some j) } }

/-- OPT_I2C_WRITE (R155): CMD.GO with RD = 0. -/
def execOptI2cWrite (n : LineDie) (v : Word) (s : State) : Out := s.acEvent fun s => s.optGo n.val v false
/-- OPT_I2C_READ (R155): CMD.GO with RD = 1. -/
def execOptI2cRead (n : LineDie) (v : Word) (s : State) : Out := s.acEvent fun s => s.optGo n.val v true

/-- OPT_I2C_STRETCH_TIMEOUT (R156): the transaction will end with ERR 0b11. -/
def execOptI2cStretchTimeout (n : LineDie) (s : State) : Out := s.acEvent fun s =>
  match Tab.get s.lanes.optI2c none n.val with
  | none => s
  | some j => { s with lanes := { s.lanes with optI2c := Tab.set s.lanes.optI2c none n.val (some { j with stretched := true }) } }

/-- OPT_I2C_DONE (R157). -/
def execOptI2cDone (n : LineDie) (res : I2cEnd) (got : List Byte) (s : State) : Out := s.acEvent fun s =>
  match Tab.get s.lanes.optI2c none n.val with
  | none => s
  | some j =>
    { s with lanes := { s.lanes with optI2c := Tab.set s.lanes.optI2c none n.val none } }.i2cFinish (optRegs n.val) j res got

end Sys2Proof.Machine
end

