-- ==== Sys2Proof/Machine/Framer.lean ====
section
/-!
DEFINITION. Downstream framing, defects and performance data (04_downstream_framing.md). The frame tick as a whole, with
the activation and power-saving state it moves, stands in Machine/FrameTick.lean.
-/
namespace Sys2Proof.Machine
open Reg

/-- The framer of a channel. -/
def State.framer (s : State) (c : Nat) : Framer := Tab.get s.pon.framer {} c
/-- Replace the framer of a channel. -/
def State.setFramer (s : State) (c : Nat) (f : Framer) : State :=
  { s with pon := { s.pon with framer := Tab.set s.pon.framer {} c f } }
/-- The performance monitor of a channel. -/
def State.pm (s : State) (c : Nat) : Pm := Tab.get s.pon.pm {} c
/-- Replace the performance monitor of a channel. -/
def State.setPm (s : State) (c : Nat) (p : Pm) : State :=
  { s with pon := { s.pon with pm := Tab.set s.pon.pm {} c p } }

/-- The framer runs (R159). -/
def State.rxEnabled (s : State) (c : Nat) : Bool := s.is LANE_PRX_CFG_EN (atChan c)

/-! ## Defects (R174 to R179) -/

/-- The reported states from the raw ones (R176, R177, Table 4.5). -/
def reported (raw : Nat) : Nat :=
  let los := raw.testBit 0
  let lol := raw.testBit 1 && !los
  let lods := raw.testBit 2 && !los && !lol
  let quiet := !los && !lol && !lods
  let ucw := raw.testBit 3 && quiet
  let sf := raw.testBit 4 && quiet
  let sd := raw.testBit 5 && quiet && !sf
  b2n los + 2 * b2n lol + 4 * b2n lods + 8 * b2n ucw + 16 * b2n sf + 32 * b2n sd

/-- The raw states take a value: the reported ones follow, and the latch records each that rises or falls (R174). -/
def State.setRaw (s : State) (c raw : Nat) : State :=
  let a := atChan c
  let old := s.get PFR_DEF_V a
  let new := reported raw
  let s := s.put PFR_DEF_RAW_V a raw
  let s := s.put PFR_DEF_V a new
  let s := s.put PFR_DEF_LATCH_RISE a (s.get PFR_DEF_LATCH_RISE a ||| (new &&& (old ^^^ new)))
  let s := s.put PFR_DEF_LATCH_FALL a (s.get PFR_DEF_LATCH_FALL a ||| (old &&& (old ^^^ new)))
  let p := s.pm c
  s.setPm c { p with bad := p.bad || raw % 8 != 0 }

/-- One raw defect is raised or cleared, unless the framer does not run or the defects are held (R175, R184). -/
def State.setDefect (s : State) (c k : Nat) (b : Bool) : State :=
  if !s.rxEnabled c || (s.framer c).held then s
  else s.setRaw c (putBit (s.get PFR_DEF_RAW_V (atChan c)) k b)

/-! ## Performance counts (R187 to R201) -/

/-- Apply a change to both bins in progress. -/
def Pm.bins (p : Pm) (f : PmBin → PmBin) : Pm := { p with cur15 := p.cur15.map f, curDay := p.curDay.map f }

/-- Count events of group FRM: raw counts in EVENT mode (R187 to R189, R198), error events of the second in progress
(R191). Nothing counts while the receiver is disabled (R197). -/
def State.countFrm (s : State) (c : Nat) (ev : Nat) (f : PmBin → PmBin) : State :=
  if !s.rxEnabled c then s
  else
    let p := s.pm c
    let p := { p with evFrm := p.evFrm + ev }
    s.setPm c (if s.isEff PFR_PM_CFG_FRM_MODE (atChan c) then p else p.bins f)

/-- Count events of group FEC. -/
def State.countFec (s : State) (c : Nat) (ev : Nat) (f : PmBin → PmBin) : State :=
  if !s.rxEnabled c then s
  else
    let p := s.pm c
    let p := { p with evFec := p.evFec + ev }
    s.setPm c (if s.isEff PFR_PM_CFG_FEC_MODE (atChan c) then p else p.bins f)

/-- The largest values of 16-bit, 32-bit and 48-bit counts (R198). -/
def max16 : Nat := 0xFFFF
def max32 : Nat := 0xFFFFFFFF
def max48 : Nat := 0xFFFFFFFFFFFF

/-- The words W0 to W12 of a bin (Table 4.9): a bin that spans a mode change holds a sum across the modes (R189). -/
def PmBin.words (b : PmBin) (pending : Bool) : List Nat :=
  let dec := satAdd max48 b.cw b.fecEs
  [satAdd max32 b.psync b.frmEs,
   satAdd max32 b.hecBad b.frmSes,
   satAdd max32 b.hecCor b.frmUas,
   b.jumps * 2 ^ 16 + b.lods,
   dec % 2 ^ 32,
   satAdd max32 (b.cor / 2 ^ 32 * 2 ^ 16 + dec / 2 ^ 32) b.fecSes,
   satAdd max32 (b.cor % 2 ^ 32) b.fecUas,
   b.unc,
   b.flips % 2 ^ 32,
   b.flips / 2 ^ 32,
   b.start % 2 ^ 32,
   2 ^ 31 + b2n b.suspect * 2 ^ 30 + b2n b.short * 2 ^ 29 + b2n b.chOff * 2 ^ 28 + b2n b.asleep * 2 ^ 27
     + b2n b.frmSec * 2 ^ 26 + b2n b.fecSec * 2 ^ 25 + b2n pending * 2 ^ 24 + Nat.min b.elapsed 0x1FFFF,
   b.closed % 2 ^ 32]

/-- The timebase seconds value after the second that ends (R187, R188). -/
def State.pmNow (s : State) (c : Nat) : Nat :=
  if s.isEff PFR_PM_CFG_TIMEBASE (atChan c) then (s.pm c).secs else s.time.sec.toNat

/-- A boundary of R188 falls at timebase seconds value n. -/
def State.pmBoundary (s : State) (c n len : Nat) : Bool :=
  (n + 86400 - s.getEff PFR_PM_CFG_DAY_OFFSET (atChan c) % 86400) % len == 0

/-- A new bin that starts at n. -/
def freshBin (n serial : Nat) (short : Bool) : PmBin := { start := n, serial := serial, short := short }

/-- Close a bin: the modes as they stand, its number, and a mark (R188, R189, Table 4.9 W12). -/
def closeBin (b : PmBin) (frm fec : Bool) (n : Nat) (suspect short : Bool) : PmBin :=
  { b with frmSec := frm, fecSec := fec, closed := n, suspect := b.suspect || suspect, short := b.short || short }

/-- Close the fifteen-minute bin in progress (R188). -/
def State.pmClose15 (s : State) (c : Nat) (suspect short : Bool) : State :=
  let a := atChan c
  let p := s.pm c
  match p.cur15 with
  | none => s
  | some b =>
    let b := closeBin b (s.isEff PFR_PM_CFG_FRM_MODE a) (s.isEff PFR_PM_CFG_FEC_MODE a) (p.n15 + 1) suspect short
    s.setPm c { p with cur15 := none, n15 := p.n15 + 1, waiting := p.waiting ++ [(false, b)] }

/-- Close the one-day bin in progress. -/
def State.pmCloseDay (s : State) (c : Nat) (suspect short : Bool) : State :=
  let a := atChan c
  let p := s.pm c
  match p.curDay with
  | none => s
  | some b =>
    let b := closeBin b (s.isEff PFR_PM_CFG_FRM_MODE a) (s.isEff PFR_PM_CFG_FEC_MODE a) (p.nDay + 1) suspect short
    s.setPm c { p with curDay := none, nDay := p.nDay + 1, waiting := p.waiting ++ [(true, b)] }

/-- Close the bins in progress of the lengths told; where a fifteen-minute bin closed, the written fields then take effect for
both lengths (R188, R189). -/
def State.pmClose (s : State) (c : Nat) (quarter day suspect short : Bool) : State :=
  let a := atChan c
  let closed := quarter && (s.pm c).cur15.isSome
  let s := if quarter then s.pmClose15 c suspect short else s
  let s := if day then s.pmCloseDay c suspect short else s
  if closed then s.commitAll [(PFR_PM_CFG, a), (PFR_PM_SES, a)] else s

/-- Start the bins that are not in progress, at timebase seconds value n. -/
def State.pmStart (s : State) (c n : Nat) (short : Bool) : State :=
  let p := s.pm c
  s.setPm c { p with
    cur15 := if p.cur15.isNone then some (freshBin n (p.serial + 1) short) else p.cur15
    curDay := if p.curDay.isNone then some (freshBin n (p.serial + 2) short) else p.curDay
    serial := p.serial + 2
    starting := false }

/-- Add a final second to the bin it began in (R191 to R193): an unavailable second counts only in UAS, and one in which the
receiver was held throughout is available and error-free (R194). -/
def addSecond (q : PmSec) (unaFrm unaFec : Bool) (b : PmBin) : PmBin :=
  if !(b.serial == q.bin15 || b.serial == q.binDay) || !q.counted || q.asleep then b
  else
    let b := if !q.frmMode then b
             else if unaFrm then { b with frmUas := satAdd max32 b.frmUas 1 }
             else { b with frmEs := satAdd max32 b.frmEs (b2n q.frmErr), frmSes := satAdd max32 b.frmSes (b2n q.frmSes) }
    if !q.fecMode then b
    else if unaFec then { b with fecUas := satAdd max32 b.fecUas 1 }
    else { b with fecEs := satAdd max32 b.fecEs (b2n q.fecErr), fecSes := satAdd max32 b.fecSes (b2n q.fecSes) }

/-- Whether the unavailable state changes at the oldest of these seconds (R192): ten in a row severely errored begin an
unavailable period, ten in a row not severely errored end it. -/
def unaAfter (una : Bool) (ses : List Bool) : Bool :=
  if ses.length < 10 then una
  else if una then !((ses.take 10).all (fun b => !b))
  else (ses.take 10).all (fun b => b)

/-- The classification of the oldest pending second becomes final (R193). -/
def Pm.finalOne (p : Pm) : Pm :=
  match p.pend with
  | [] => p
  | q :: t =>
    let uf := unaAfter p.unaFrm (p.pend.map (·.frmSes))
    let ue := unaAfter p.unaFec (p.pend.map (·.fecSes))
    let f := addSecond q uf ue
    { p with pend := t, unaFrm := uf, unaFec := ue,
             cur15 := p.cur15.map f, curDay := p.curDay.map f, waiting := p.waiting.map (fun x => (x.1, f x.2)) }

/-- Every pending classification becomes final with no further seconds (R195). -/
def Pm.finalAll : Nat → Pm → Pm
  | 0, p => p
  | n + 1, p => Pm.finalAll n p.finalOne

/-- Write the closed bins to history, oldest first: each write shifts its history by one place (R196). -/
def Pm.writeOut (p : Pm) : List (Bool × PmBin) → Pm
  | [] => p
  | (true, b) :: t => Pm.writeOut { p with histDay := (b :: p.histDay).take 7 } t
  | (false, b) :: t => Pm.writeOut { p with hist15 := (b :: p.hist15).take 32 } t

/-- Write every closed bin to history at once (R190, R195, R196) and set BIN15 and BINDAY (R201). -/
def State.pmFlush (s : State) (c : Nat) : State :=
  let p := s.pm c
  let a := atChan c
  let s := if p.waiting.any (fun x => !x.1) then s.put PFR_PM_STAT_BIN15 a 1 else s
  let s := if p.waiting.any (fun x => x.1) then s.put PFR_PM_STAT_BINDAY a 1 else s
  s.setPm c ({ p with waiting := [] }.writeOut p.waiting)

/-- The second in progress ends: it joins its bins and waits for its classification (R191, R193, R194, R197). -/
def State.pmCountSecond (s : State) (c : Nat) : State :=
  let a := atChan c
  let p := s.pm c
  match p.cur15, p.curDay with
  | some b, some d =>
    let off := p.off || !s.rxEnabled c
    let asleep := !p.awake && (s.framer c).held
    let bad := p.bad && !asleep
    let q : PmSec :=
      { bin15 := b.serial, binDay := d.serial
        frmMode := s.isEff PFR_PM_CFG_FRM_MODE a, fecMode := s.isEff PFR_PM_CFG_FEC_MODE a
        frmErr := (decide (0 < p.evFrm) && !asleep) || bad
        frmSes := (decide (s.getEff PFR_PM_SES_FRM_SES_THR a ≤ p.evFrm) && !asleep) || bad
        fecErr := (decide (0 < p.evFec) && !asleep) || bad
        fecSes := (decide (s.getEff PFR_PM_SES_FEC_SES_THR a ≤ p.evFec) && !asleep) || bad
        counted := s.rxEnabled c, asleep := asleep }
    let f := fun (x : PmBin) => { x with elapsed := x.elapsed + 1, chOff := x.chOff || off, asleep := x.asleep || asleep }
    s.setPm c ({ p with pend := p.pend ++ [q] }.bins f)
  | _, _ => s

/-- What the next second has seen at its start. -/
def State.pmNewSecond (s : State) (c : Nat) : State :=
  let p := s.pm c
  s.setPm c { p with
    evFrm := 0, evFec := 0, bad := s.get PFR_DEF_RAW_V (atChan c) % 8 != 0
    awake := !(s.framer c).held, off := !s.rxEnabled c }

/-- PM_SECOND_END (R187, R188, R190): no second ends while PM is disabled, or on a held network counter. -/
def execPmSecondEnd (c : Chan) (s : State) : Out := s.event fun s =>
  let c := c.val
  let a := atChan c
  if !s.is PFR_PM_CFG_EN a || (!s.isEff PFR_PM_CFG_TIMEBASE a && !s.is TIME_CFG_EN d0) then s
  else
    let s := s.pmCountSecond c
    let s := s.setPm c { s.pm c with secs := (s.pm c).secs + 1 }
    let n := s.pmNow c
    let s := s.pmClose c (s.pmBoundary c n 900) (s.pmBoundary c n 86400) false false
    (s.pmStart c (s.pmNow c) (s.pm c).starting).pmNewSecond c

/-- PM_CLASSIFICATION_FINAL (R193): 9 s after it ended, that is once nine more seconds have ended. -/
def execPmClassificationFinal (c : Chan) (s : State) : Out := s.event fun s =>
  let p := s.pm c.val
  if 10 ≤ p.pend.length then s.setPm c.val p.finalOne else s

/-- PM_HISTORY_WRITE (R196, R201): the oldest closed bin of that length enters its history. -/
def execPmHistoryWrite (c : Chan) (day : Bool) (s : State) : Out := s.event fun s =>
  let p := s.pm c.val
  match p.waiting.find? (fun x => x.1 == day) with
  | none => s
  | some x =>
    (s.setPm c.val ({ p with waiting := p.waiting.erase x }.writeOut [x])).put
      (if day then PFR_PM_STAT_BINDAY else PFR_PM_STAT_BIN15) (atChan c.val) 1

/-- PM_ENABLE (R190): EN from 0 to 1, each group's unavailable state as it stood (DESIGN CHOICE, log 105); with no bin in progress the written modes are in effect at once, and bins start at
the next PM second. -/
def execPmEnable (c : Chan) (v : Word) (s : State) : Out := s.event fun s =>
  let a := atChan c.val
  let was := s.is PFR_PM_CFG_EN a
  let s := s.fwWrite PFR_PM_CFG a (setBits v 31 31 1)
  if was then s
  else (s.commitAll [(PFR_PM_CFG, a), (PFR_PM_SES, a)]).setPm c.val { s.pm c.val with starting := true, secs := 0 }

/-- PM_DISABLE (R190): both bins in progress close as PARTIAL and are written to history at once, the classifications that wait
becoming final with no further seconds (DESIGN CHOICE, log 105); a receiver that was disabled in
the second in progress marks them (R197). -/
def execPmDisable (c : Chan) (v : Word) (s : State) : Out := s.event fun s =>
  let a := atChan c.val
  let was := s.is PFR_PM_CFG_EN a
  let s := s.fwWrite PFR_PM_CFG a (setBits v 31 31 0)
  if !was then s
  else
    let p := s.pm c.val
    let off := p.off || !s.rxEnabled c.val
    let p := { p.finalAll p.pend.length with starting := false }.bins (fun b => { b with chOff := b.chOff || off })
    ((s.setPm c.val p).pmClose c.val true true false true).pmFlush c.val

/-- A step of network time or a thaw (R195): the second ends, pending classifications become final, both bins close as
SUSPECT and are written, and PARTIAL bins start. -/
def State.pmStep (s : State) (c : Nat) : State :=
  if !s.is PFR_PM_CFG_EN (atChan c) then s
  else
    let s := s.pmCountSecond c
    let p := s.pm c
    let s := s.setPm c { p.finalAll p.pend.length with secs := p.secs + 1 }
    let s := (s.pmClose c true true true false).pmFlush c
    (s.pmStart c (s.pmNow c) true).pmNewSecond c

/-- PM_SNAP (R197, R199, R200): the selected bin into PM_W0 to PM_W12, the bin in progress with what the present second has seen
of its receiver. A reserved INDEX of a day bin gives free words (R13). -/
def execPmSnap (c : Chan) (v : Word) (s : State) : Out := s.event fun s =>
  let a := atChan c.val
  let s := s.fwWrite PFR_PM_SEL a v
  let p := s.pm c.val
  let day := s.is PFR_PM_SEL_DAY a
  let i := s.get PFR_PM_SEL_INDEX a
  let frm := s.isEff PFR_PM_CFG_FRM_MODE a
  let fec := s.isEff PFR_PM_CFG_FEC_MODE a
  let bin := if i = 0 then ((if day then p.curDay else p.cur15).map
               (fun b => { b with frmSec := frm, fecSec := fec, closed := if day then p.nDay else p.n15
                                  chOff := b.chOff || p.off || !s.rxEnabled c.val }))
             else (if day then p.histDay else p.hist15)[i - 1]?
  let words : List Nat := match bin with
    | some b => b.words (i == 0)
    | none => if day && 7 < i then (List.range 13).map (fun k => (Config.freeReserved (s.fresh + k)).toNat)
              else List.replicate 13 0
  let s := if day && 7 < i then { s with fresh := s.fresh + 13 } else s
  (List.range 13).foldl (fun s k => s.wr PFR_PM_W (place (chanDie c.val) (c.val * 13 + k)) (BitVec.ofNat 32 (words.getD k 0))) s

/-! ## Codewords, windows and thresholds (R172 to R183) -/

/-- CODEWORD_DECODE (R172, R173, R180): only in SYNC. -/
def execCodewordDecode (c : Chan) (flipped : Nat) (good : Bool) (s : State) : Out := s.event fun s =>
  let f := s.framer c.val
  if !s.rxEnabled c.val || f.sync != .sync then s
  else
    let w := s.getEff PFR_SFSD_CFG_UCW_WEIGHT (atChan c.val)
    let f := { f with winSum := satAdd (2 ^ 36 - 1) f.winSum (flipped + (if good then 0 else w)), frameBad := f.frameBad || !good }
    (s.setFramer c.val f).countFec c.val (b2n (!good)) fun b =>
      { b with cw := satAdd max48 b.cw 1, cor := satAdd max48 b.cor (b2n (good && 0 < flipped)),
               flips := satAdd max48 b.flips flipped, unc := satAdd max32 b.unc (b2n (!good)) }

/-- The registers of commit group PFR.SFSD (R183). -/
def sfsdRegs : List Nat := [PFR_SFSD_CFG, PFR_SF_SET, PFR_SF_CLR, PFR_SD_SET, PFR_SD_CLR, PFR_UCW_CFG]

/-- SFSD_COMMIT (R183, R743): the shadow copies of that edge wait for the start of the next window. -/
def execSfsdCommit (c : Chan) (s : State) : Out := s.event fun s =>
  s.setFramer c.val { s.framer c.val with sfsdPend := some (sfsdRegs.map (fun r => s.rd r (atChan c.val))) }

/-- A window starts (R181): a committed group is loaded and the UCW runs restart (R183). -/
def State.windowStart (s : State) (c : Nat) : State :=
  let f := s.framer c
  let s := s.setFramer c { f with winFrames := 0, winSum := 0 }
  match f.sfsdPend with
  | none => s
  | some l =>
    let s := s.setFramer c { s.framer c with sfsdPend := none, badRun := 0, goodRun := 0 }
    (sfsdRegs.zip l).foldl (fun s x => s.wrEff x.1 (atChan c) x.2) s

/-- A defect decided against its thresholds, which count units of 16 bits; a clear threshold above the set threshold
leaves a free result (Table 4.5, R182). -/
def decideWindow (raw : Bool) (sum set clr : Nat) (free : Bool) : Bool :=
  if set < clr then free
  else if set * 16 ≤ sum then true
  else if sum < clr * 16 then false
  else raw

/-- SFSD_WINDOW_END (R181, R183, Table 4.5): once WIN frames in SYNC have passed. -/
def execSfsdWindowEnd (c : Chan) (s : State) : Out := s.event fun s =>
  let c := c.val
  let a := atChan c
  let f := s.framer c
  if f.sync != .sync || f.winFrames < s.getEff PFR_SFSD_CFG_WIN a then s
  else
    let raw := s.get PFR_DEF_RAW_V a
    let sf := decideWindow (raw.testBit 4) f.winSum (s.getEff PFR_SF_SET_V a) (s.getEff PFR_SF_CLR_V a)
                (Config.freeDefect s.fresh)
    let sd := decideWindow (raw.testBit 5) f.winSum (s.getEff PFR_SD_SET_V a) (s.getEff PFR_SD_CLR_V a)
                (Config.freeDefect (s.fresh + 1))
    let s := { s with fresh := s.fresh + 2 }
    let s := if f.held then s else s.setRaw c (putBit (putBit raw 4 sf) 5 sd)
    s.windowStart c

/-! ## The superframe counter (R167 to R170) -/

/-- SFC_LO_READ (R170): bits [31:0], and bits [50:32] into SFC_HI on the same edge. -/
def execSfcLoRead (req : Requester) (c : Chan) (s : State) : Out := s.event fun s =>
  let v := (s.framer c.val).sfc.toNat
  let s := s.put PFR_SFC_HI_V (atChan c.val) (v / 2 ^ 32)
  s.answer (reqCode req) { data := BitVec.ofNat 64 (v % 2 ^ 32) }

/-! ## One frame tick of the framer (R160 to R171) -/

/-- The value of a structure with a valid or corrected HEC. -/
def hecValue : Hec → Option (BitVec 51)
  | .valid v => some v
  | .corrected v => some v
  | .bad => none

/-- A HEC that was corrected. -/
def hecCorrected : Hec → Bool
  | .corrected _ => true
  | _ => false

/-- The local counter on a tick (R167): once loaded it adds 1 modulo 2^51 in every state. The new frame is decrypted with the
count that a reload on the same tick leaves to the next one (R169). -/
def Framer.countUp (f : Framer) : Framer :=
  let n := if f.loaded then f.sfc + 1 else f.sfc
  { f with sfc := n, dec := n, decPrev := f.dec }

/-- The framer's next synchronisation state and count (R161 to R164, R166). -/
def syncNext (f : Framer) (rx : FrameRx) (tol confirm lose : Nat) : Sync × Nat :=
  let ok := match rx.psync with
    | some e => decide (e ≤ tol)
    | none => false
  match f.sync with
  | .hunt => if ok then (.preSync, 0) else (.hunt, 0)
  | .preSync =>
    if !ok then (.hunt, 0)
    else if confirm ≤ f.cnt + 1 && (hecValue rx.sfc).isSome then (.sync, 0)
    else (.preSync, f.cnt + 1)
  | .sync => if ok then (.sync, 0) else if lose ≤ f.cnt + 1 then (.hunt, 0) else (.sync, f.cnt + 1)

/-- SYNC_STAT.STATE of a framer (Table 4.3): HELD while the hold of R184 and R185 lasts. -/
def Framer.code (f : Framer) : Nat :=
  if f.held then 3 else match f.sync with
  | .hunt => 0
  | .preSync => 1
  | .sync => 2

/-- A channel's framing as sampled (R124): XGS-PON framing is on channels 0 and 2 only (R4). -/
def State.xgs (s : State) (c : Nat) : Bool := s.isEff LANE_PRX_CFG_XGS (atChan c) && c % 2 == 0

/-- Show the framer's state, counts and framing in its registers (R165, R170, Table 4.3): COUNT is the low bits of a running
count, which wraps (R11, R162), that of the framer's own state also while STATE reads HELD (DESIGN CHOICE, log 104). -/
def State.showFramer (s : State) (c : Nat) : State :=
  let a := atChan c
  let f := s.framer c
  let s := s.put PFR_SYNC_STAT_STATE a f.code
  let s := s.put PFR_SYNC_STAT_COUNT a (if f.sync = .hunt then 0 else f.cnt % 16)
  let s := s.put PFR_SYNC_STAT_XGS a (b2n (s.xgs c))
  s.wr PFR_SFC_LO a (BitVec.ofNat 32 f.sfc.toNat)

/-- Compare a received superframe count with the local counter in SYNC (R168, R169). -/
def State.compareSfc (s : State) (c : Nat) (h : Hec) : State :=
  let f := s.framer c
  match hecValue h with
  | none => s
  | some v =>
    if v = f.sfc then s.setFramer c { f with mismatch := false }
    else if f.mismatch then
      let s := s.setFramer c { f with sfc := v, mismatch := false }
      let s := s.put PFR_DEF_LATCH_SFC_JUMP (atChan c) 1
      s.countFrm c 0 fun b => { b with jumps := satAdd max16 b.jumps 1 }
    else s.setFramer c { f with mismatch := true }

/-- Copy the third PSBd structure in SYNC (R171). -/
def State.copyThird (s : State) (c : Nat) (h : Hec) : State :=
  let f := s.framer c
  match hecValue h with
  | none => s
  | some v =>
    let s := s.wr PFR_OC_LO (atChan c) (BitVec.ofNat 32 v.toNat)
    let s := s.put PFR_OC_HI_V (atChan c) (v.toNat / 2 ^ 32)
    let s := if f.oc.isSome && f.oc != some v then s.put PFR_DEF_LATCH_OC_CHG (atChan c) 1 else s
    s.setFramer c { f with oc := some v }

/-- The UCW runs at the end of a frame in SYNC (Table 4.5), the one that ends SYNC among them. A run does not go on over time out of
SYNC (DESIGN CHOICE, log 102). -/
def State.countUcw (s : State) (c : Nat) : State :=
  let a := atChan c
  let f := s.framer c
  let bad := if f.frameBad then f.badRun + 1 else 0
  let good := if f.frameBad then 0 else f.goodRun + 1
  let s := s.setFramer c { f with frameBad := false, badRun := bad, goodRun := good }
  let s := if s.getEff PFR_UCW_CFG_UCW_SET a ≤ bad then s.setDefect c 3 true else s
  if s.getEff PFR_UCW_CFG_UCW_CLR a ≤ good then s.setDefect c 3 false else s

/-- Performance counts of a tick in PRE_SYNC or SYNC (Table 4.9). -/
def State.countTick (s : State) (c : Nat) (rx : FrameRx) (ok : Bool) : State :=
  let hecBad := (hecValue rx.sfc).isNone
  s.countFrm c (b2n (!ok) + b2n hecBad) fun b =>
    { b with psync := satAdd max32 b.psync (b2n (!ok)), hecBad := satAdd max32 b.hecBad (b2n hecBad)
             hecCor := satAdd max32 b.hecCor (b2n (hecCorrected rx.sfc)) }

/-- Entry to SYNC (R163, R167, R181): the counter is loaded, a window starts and LODS clears. Where the counter was loaded before,
decryption follows the reloaded value from the next frame (R169). -/
def State.enterSync (s : State) (c : Nat) (v : BitVec 51) : State :=
  let a := atChan c
  let s := s.setFramer c { s.framer c with sfc := v, dec := if (s.framer c).loaded then (s.framer c).dec else v, loaded := true, mismatch := false, oc := none, frameBad := false }
  let s := s.put PFR_SYNC_STAT_SFC_VALID a 1
  let s := s.incSat PFR_SYNC_STAT_SYNC_ENTRIES a 1 0xFF
  let s := s.windowStart c
  s.setDefect c 2 false

/-- Entry to HUNT from PRE_SYNC or SYNC (R164, R181): the partial window is discarded. Leaving SYNC raises LODS. -/
def State.enterHunt (s : State) (c : Nat) (fromSync : Bool) : State :=
  let s := s.setFramer c { s.framer c with winFrames := 0, winSum := 0, frameBad := false, badRun := 0, goodRun := 0 }
  let s := s.put PFR_SYNC_STAT_SFC_VALID (atChan c) 0
  if fromSync && !(s.framer c).held then
    (s.countFrm c 0 fun b => { b with lods := satAdd max16 b.lods 1 }).setDefect c 2 true
  else s

/-- The framer's part of a frame tick (R160 to R171): written thresholds take effect, the PSync is evaluated, and the
state, the counter, the copies and the counts follow. The tick that ends SYNC compares the superframe count and copies no third
structure (DESIGN CHOICE, log 103). -/
def State.framerTick (s : State) (c : Nat) (rx : FrameRx) : State :=
  let a := atChan c
  let s := s.commit PFR_SYNC_CFG a
  let f := s.framer c
  if f.rxDown then (s.setFramer c f.countUp).showFramer c
  else
    let tol := s.getEff PFR_SYNC_CFG_PSYNC_TOL a
    let (next, cnt) := syncNext f rx tol (s.getEff PFR_SYNC_CFG_SYNC_CONFIRM a) (s.getEff PFR_SYNC_CFG_SYNC_LOSE a)
    let ok := match rx.psync with
      | some e => decide (e ≤ tol)
      | none => false
    let s := if f.sync = .hunt then s else s.countTick c rx ok
    let s := if f.sync = .sync then s.countUcw c else s
    let f := s.framer c
    let s := s.setFramer c { f.countUp with sync := next, cnt := cnt, grace := f.grace + 1 }
    let s := match f.sync, next, (hecValue rx.sfc) with
      | .preSync, .sync, some v => s.enterSync c v
      | .sync, .hunt, _ => s.enterHunt c true
      | .preSync, .hunt, _ => s.enterHunt c false
      | _, _, _ => s
    let s := if f.sync = .sync then s.compareSfc c rx.sfc else s
    let s := if next = .sync then s.copyThird c rx.third else s
    let s := if f.sync = .sync && next = .sync then s.setFramer c { s.framer c with winFrames := (s.framer c).winFrames + 1 }
      else s
    s.showFramer c

/-! ## Receiver power (R184, R185) -/

/-- SKEW_DONE is set when CAPTURED equals ARMED (R263). -/
def State.evalSkew (s : State) : State :=
  if s.get BOND_SKEW_STAT_CAPTURED d0 = s.get BOND_SKEW_STAT_ARMED d0 then s.put BOND_EVT_SKEW_DONE d0 1 else s

/-- An armed channel that leaves SYNC before it captures is removed from ARMED (R263). -/
def State.skewLeave (s : State) (c : Nat) : State :=
  if bitOf (s.get BOND_SKEW_STAT_ARMED d0) c && !bitOf (s.get BOND_SKEW_STAT_CAPTURED d0) c then
    (s.put BOND_SKEW_STAT_ARMED d0 (putBit (s.get BOND_SKEW_STAT_ARMED d0) c false)).evalSkew
  else s

/-- A channel's receiver is powered down (R184): STATE reads HELD and the defects hold; the counter continues from the
last expected position. It is off its data, so that lw is on the PON reference (R60, R76), and leaves SYNC (R263). -/
def State.rxPowerDown (s : State) (c : Nat) : State :=
  let s := (s.cdrLoss c).skewLeave c
  let s := s.setFramer c { s.framer c with held := true, rxDown := true, sync := .hunt, cnt := 0, winFrames := 0, winSum := 0
                                           frameBad := false, badRun := 0, goodRun := 0 }
  (s.put PWR_PS_STAT_RX_ON (d0i c) 0).showFramer c

/-- The hold of a channel's defects ends (R185); the second in progress is no longer one that was held throughout (R194). -/
def State.endHold (s : State) (c : Nat) : State :=
  (s.setFramer c { s.framer c with held := false }).setPm c { s.pm c with awake := true }

/-- A channel's receiver powers up (R170, R185): the framer enters HUNT and the hold continues for WAKE_GRACE ticks, as that stands
in effect on each of them (R166); where the framer does not run there is nothing to hold. -/
def State.rxPowerUp (s : State) (c : Nat) : State :=
  let f := s.framer c
  let s := if !f.rxDown then s
    else
      let s := (s.setFramer c { f with rxDown := false, sync := .hunt, cnt := 0, grace := 0 }).put PFR_SYNC_STAT_SFC_VALID (atChan c) 0
      if s.rxEnabled c then s else s.endHold c
  (s.put PWR_PS_STAT_RX_ON (d0i c) 1).showFramer c

/-- RECEIVER_POWER_UP (R185). -/
def execReceiverPowerUp (c : Chan) (s : State) : Out := s.event fun s => s.rxPowerUp c.val

end Sys2Proof.Machine
end

