-- ==== Sys2Proof/Machine/Queues.lean ====
section
/-!
DEFINITION. The queues of the traffic managers as every unit sees them: their counts, retirement (R393, R544), loss of a
queue's state (R531), finish tags (R419 to R423), and the pieces a discarded burst gives back (R248, R282).
-/
namespace Sys2Proof.Machine
open Reg

/-- Queue q of die d. -/
def State.queue (s : State) (d q : Nat) : Queue := Tab.get s.tm.queues {} (d * 2 ^ 18 + q)
/-- Replace queue q of die d. -/
def State.setQueue (s : State) (d q : Nat) (x : Queue) : State :=
  { s with tm := { s.tm with queues := Tab.set s.tm.queues {} (d * 2 ^ 18 + q) x } }

/-- The queues of a die (Table 9.1). -/
def queuesOf (d : Nat) : Nat := if d < 2 then 8192 else 2 ^ 18
/-- The port of a flow queue of course die d (R389). -/
def qPort (d q : Nat) : Nat := 16 * (d - 2) + q / 2 ^ 14
/-- The class of a queue (R389, R392). -/
def qClass (d q : Nat) : Nat := if d < 2 then q % 8 else q % 2 ^ 14 / 2048
/-- The index x of a queue's refusal counters (R401): its port, or its Alloc-ID entry. -/
def qOwner (d q : Nat) : Nat := if d < 2 then q / 8 else qPort d q
/-- The key of the class of a port that a flow queue belongs to. -/
def qCls (d q : Nat) : Nat := 8 * qPort d q + qClass d q
/-- BYTES of a queue (Table 9.4): output lengths. -/
def Queue.bytes (x : Queue) : Nat := x.pkts.foldl (fun n p => n + p.bytes.length) 0
/-- The frame size Lf of a packet on a port (R416). -/
def frameLen (n : Nat) : Nat := Nat.max n 60 + 4
/-- n rounded up to a multiple of 4 (R244). -/
def roundup4 (n : Nat) : Nat := (n + 3) / 4 * 4

/-! ## Bandwidth windows (R703, R704) -/

/-- Bandwidth windows run on a port's die: BW_CFG.EN in effect. -/
def State.bwOn (s : State) (p : Nat) : Bool := s.isEff PMC_BW_CFG_EN (onDie (portDie p))
/-- Change the window in progress of a port. -/
def State.bwMod (s : State) (p : Nat) (f : BwRec → BwRec) : State :=
  if s.bwOn p then { s with pmc := { s.pmc with cur := Tab.mod s.pmc.cur {} p f } } else s
/-- A frame of n bytes with FCS completes at the receive balls of a port (R704). -/
def State.bwRx (s : State) (p n : Nat) : State := s.bwMod p (fun r => { r with rx := satAdd 0xFFFFFFFF r.rx (n + 20) })
/-- A frame of n bytes with FCS has been sent by a port (R704). -/
def State.bwTx (s : State) (p n : Nat) : State := s.bwMod p (fun r => { r with tx := satAdd 0xFFFFFFFF r.tx (n + 20) })
/-- PEAK follows TM.PORT_OCC, in KiB rounded up (R704). -/
def State.bwPeak (s : State) (p : Nat) : State :=
  let k := ((s.rd TM_PORT_OCC (atPort p)).toNat + 1023) / 1024
  s.bwMod p (fun r => { r with peak := Nat.max r.peak (Nat.min k 0xFFFFF) })

/-- CLS_HWM takes the bytes that a class holds, where they are the most since its last read (R440). -/
def State.highWater (s : State) (a : Nat) : State :=
  if (s.rd TM_CLS_HWM a).toNat < (s.rd TM_CLS_OCC a).toNat then s.wr TM_CLS_HWM a (s.rd TM_CLS_OCC a) else s

/-- n more packets' cells and bytes stand in the queues of die d (R400, R405, R440). -/
def State.occAdd (s : State) (d q bytes cells : Nat) : State :=
  let s := s.put TM_POOL_OCC_V (onDie d) (s.get TM_POOL_OCC_V (onDie d) + cells)
  if d < 2 then s
  else
    let a := place d (qCls d q)
    let s := s.wr TM_CLS_OCC a (s.rd TM_CLS_OCC a + BitVec.ofNat 32 bytes)
    let s := s.highWater a
    (s.wr TM_PORT_OCC (place d (qPort d q)) (s.rd TM_PORT_OCC (place d (qPort d q)) + BitVec.ofNat 32 bytes)).bwPeak (qPort d q)

/-- Packets leave the queues of die d (R403, R405, R440). -/
def State.occSub (s : State) (d q bytes cells : Nat) : State :=
  let s := s.put TM_POOL_OCC_V (onDie d) (s.get TM_POOL_OCC_V (onDie d) - cells)
  if d < 2 then s
  else
    let a := place d (qCls d q)
    let s := s.highWater a
    let s := s.wr TM_CLS_OCC a (s.rd TM_CLS_OCC a - BitVec.ofNat 32 bytes)
    s.wr TM_PORT_OCC (place d (qPort d q)) (s.rd TM_PORT_OCC (place d (qPort d q)) - BitVec.ofNat 32 bytes)

/-- The cells a packet's buffer holds, as the pool counts them (R400). -/
def Pkt.cells (p : Pkt) : Nat := cellsOf p.bytes.length

/-- The cells of a queue's packets. -/
def Queue.cells (x : Queue) : Nat := x.pkts.foldl (fun n p => n + p.cells) 0

/-! ## Virtual time and calendars (R419 to R424) -/

/-- RECIP of a weight (R419). -/
def recip (w : Nat) : Nat := 2 ^ 24 / w
/-- The distance from V to a tag, modulo 2^48. -/
def tagAhead (v f : Nat) : Nat := (f + 2 ^ 48 - v % 2 ^ 48) % 2 ^ 48
/-- V after a tag is served (R421). -/
def serveTag (v f : Nat) : Nat := if tagAhead v f < 2 ^ 47 then f else v

/-- A class of a port. -/
def State.tmClass (s : State) (pc : Nat) : TmClass := Tab.get s.tm.cls {} pc
/-- Replace a class of a port. -/
def State.setTmClass (s : State) (pc : Nat) (x : TmClass) : State :=
  { s with tm := { s.tm with cls := Tab.set s.tm.cls {} pc x } }

/-- The bucket a tag goes in, and whether it was clamped (R422, R423). -/
def bucketOf (gran v f : Nat) : Nat × Bool :=
  if 4095 * 2 ^ gran ≤ tagAhead v f then ((v / 2 ^ gran % 4096 + 4095) % 4096, true) else (f / 2 ^ gran % 4096, false)

/-- Put flow queue q of course die d in its calendar with the tag it has (R422, R423). -/
def State.calInsert (s : State) (d q : Nat) : State :=
  let pc := qCls d q
  let c := s.tmClass pc
  let (b, clamped) := bucketOf (s.getEff TM_CLS_CFG_GRAN (place d pc)) c.v (s.queue d q).tag
  let s := s.setTmClass pc { c with cal := c.cal ++ [(b, q)] }
  if clamped then s.count TM_CNT_CLAMP (onDie d) else s

/-- Take a flow queue out of its calendar. -/
def State.calRemove (s : State) (d q : Nat) : State :=
  let pc := qCls d q
  let c := s.tmClass pc
  s.setTmClass pc { c with cal := c.cal.filter (fun x => x.2 != q) }

/-- The first flow of a calendar at or after b(V), with wrap (R422); equal buckets in order of insertion. -/
def calFirst (b0 : Nat) : List (Nat × Nat) → Option (Nat × Nat)
  | [] => none
  | x :: t => match calFirst b0 t with
    | none => some x
    | some y => if (y.1 + 4096 - b0) % 4096 < (x.1 + 4096 - b0) % 4096 then some y else some x

/-- The flow queue that a class serves next (R415, R422). -/
def State.nextFlow (s : State) (d pc : Nat) : Option Nat :=
  let c := s.tmClass pc
  (calFirst (c.v / 2 ^ s.getEff TM_CLS_CFG_GRAN (place d pc) % 4096) c.cal).map (·.2)

/-! ## Upstream tags (R438) -/

/-- Entry i of line die n holds the class queues of an enabled bonded group (R276). -/
def State.isQent (s : State) (n i : Nat) : Bool :=
  s.is BOND_GROUP_STAT_EN_EFF d0 && s.getEff BOND_GROUP_CFG_HOME d0 == n &&
  (List.range 64).any (fun g => s.getEff BOND_UGRP_A_QENT (d0i g) == i &&
    (bits (s.rdEff BOND_UGRP_A (d0i g)) 31 30 != 0 || bits (s.rdEff BOND_UGRP_B (d0i g)) 31 30 != 0))

/-- The weight of class k of entry i (R437). -/
def State.upWeight (s : State) (n i k : Nat) : Nat :=
  let p := s.get TM_UQ_CFG_UPROF (place n i)
  let w := if k < 4 then s.rdEff TM_UPROF_W0 (place n p) else s.rdEff TM_UPROF_W1 (place n p)
  bits w (8 * (k % 4) + 7) (8 * (k % 4))

/-- The cost of a frame of n bytes of entry i (R438): a bonded piece carries a tag. -/
def State.upCost (s : State) (n i len : Nat) : Nat :=
  8 + roundup4 (len + (if s.isQent n i then 4 else 0))

/-- The tag increment of a queue for a packet of n bytes (R420, R421, R438). A weight of 0 is a reserved encoding and never
stands in a queue. -/
def State.tagStep (s : State) (d q len : Nat) : Nat :=
  if d < 2 then s.upCost d (q / 8) len * recip (s.upWeight d (q / 8) (q % 8))
  else frameLen len * recip (s.queue d q).w

/-- The virtual time a queue's tags stand against. -/
def State.vtime (s : State) (d q : Nat) : Nat :=
  if d < 2 then Tab.get s.tm.upV 0 (d * 1024 + q / 8) else (s.tmClass (qCls d q)).v

/-- Set that virtual time. -/
def State.setVtime (s : State) (d q v : Nat) : State :=
  if d < 2 then { s with tm := { s.tm with upV := Tab.set s.tm.upV 0 (d * 1024 + q / 8) v } }
  else s.setTmClass (qCls d q) { s.tmClass (qCls d q) with v := v }

/-- A class of a port holds no packet. -/
def State.classEmpty (s : State) (d q : Nat) : Bool := (s.tmClass (qCls d q)).cal.isEmpty

/-- Admit a packet at the tail of a queue (R400 step 9, R420): an empty queue wakes at the current virtual time. A class
that held no packet takes its written granularity (R424). -/
def State.queueAdd (s : State) (d q : Nat) (p : Pkt) : State :=
  let x := s.queue d q
  let wake := x.pkts.isEmpty
  let s := if 2 ≤ d && wake && s.classEmpty d q then s.commit TM_CLS_CFG (place d (qCls d q)) else s
  let tag := if wake then (s.vtime d q + s.tagStep d q p.bytes.length) % 2 ^ 48 else x.tag
  let s := s.setQueue d q { x with pkts := x.pkts ++ [p], tag := tag }
  let s := s.occAdd d q p.bytes.length p.cells
  if 2 ≤ d && wake then s.calInsert d q else s

/-- Take the head packet of a queue (R403, R421, R439): V, the next tag and the calendar follow. -/
def State.takeHead (s : State) (d q : Nat) : Option Pkt × State :=
  let x := s.queue d q
  match x.pkts with
  | [] => (none, s)
  | p :: rest =>
    let s := s.setVtime d q (serveTag (s.vtime d q) x.tag)
    let tag := match rest with
      | [] => x.tag
      | r :: _ => (x.tag + s.tagStep d q r.bytes.length) % 2 ^ 48
    let s := s.setQueue d q { x with pkts := rest, tag := tag, back := x.back.drop 1 }
    let s := s.occSub d q p.bytes.length p.cells
    if d < 2 then (some p, s)
    else
      let s := s.calRemove d q
      (some p, if rest.isEmpty then s else s.calInsert d q)

/-- Every packet of a queue leaves it uncounted but by the die's totals; the queue keeps its configuration. -/
def State.emptyQueue (s : State) (d q : Nat) : State :=
  let x := s.queue d q
  let s := s.occSub d q x.bytes x.cells
  let s := s.setQueue d q { x with pkts := [], back := [] }
  if d < 2 then s else s.calRemove d q

/-! ## Queue state: retirement and errors (R393, R531, R543, R544) -/

/-- Queue q of die d is marked retired (R544). -/
def State.retired (s : State) (d q : Nat) : Bool := bitOf (s.get MEM_QUEUE_RETIRED_V (place d (q / 32))) (q % 32)

/-- The row that holds a queue's state (R543): on a line die the one bank's row is the entry. -/
def queueRow (d q : Nat) : RowId := if d < 2 then ⟨0, q / 8⟩ else ⟨q / 2 ^ 14, q % 2 ^ 14 / 16⟩

/-- A packet whose queue state is lost takes its cells with it (R531): they are counted once in LOST_CELLS. -/
def State.leak (s : State) (k : Nat) : State :=
  let b := s.bufOf k
  if b.holds = 0 || b.leaked then s
  else
    let s := { s with dram := { s.dram with bufs := Tab.set s.dram.bufs {} k { b with leaked := true } } }
    s.put RSV_LOST_CELLS_V (onDie b.die) (s.get RSV_LOST_CELLS_V (onDie b.die) + b.cells)

/-- QUEUE_STATE_UE (R531): the queue is disabled, empty and without a tag; its packets and their cells are lost. -/
def State.queueLost (s : State) (d q : Nat) : State :=
  let ps := (s.queue d q).pkts
  let s := s.emptyQueue d q
  let s := s.setQueue d q { s.queue d q with en := false, tag := 0 }
  ps.foldl (fun (s : State) p => s.leak p.buf) s

/-- What a read of a queue's state does about the error it found (R529, R531): the log entry carries the queue index. -/
def State.queueRead (s : State) (d q : Nat) (scrub : Bool) : Ecc → State
  | .clean => s
  | .corrected x y => s.testRow d 1 (queueRow d q) scrub (.corrected x y)
  | .bad x y =>
    let r := queueRow d q
    let scr := (s.guard d 1).fromScratch (domainOf d 1 r.bank) r
    let s := s.logError d 1 3 scr scrub (memidOf d 1) r.bank q (.bad x y)
    let s := if scr then s else s.testRow d 1 r scrub (.bad x y)
    s.queueLost d q

/-! ## Pieces of discarded bursts (R248, R282) -/

/-- A frame stands in its queue again (R248): among those that discarded bursts left there in the order in which they were served,
and before every other; at the head under the tag it stood under. -/
def State.unTake (s : State) (x : Piece) : State :=
  let q := s.queue x.die x.queue
  let i := (q.back.filter (fun n => decide (n < x.ord))).length
  (s.setQueue x.die x.queue { q with
    pkts := q.pkts.take i ++ x.pkt :: q.pkts.drop i, back := q.back.take i ++ x.ord :: q.back.drop i
    tag := if i = 0 then x.tag else q.tag }).occAdd x.die x.queue x.pkt.bytes.length x.pkt.cells

/-- The rest of a frame joins its first part, which a burst discarded before has left at place i of the queue. -/
def State.rejoin (s : State) (x : Piece) (i : Nat) : State :=
  let q := s.queue x.die x.queue
  let p := q.pkts.getD i {}
  let w := { p with bytes := p.bytes ++ x.pkt.bytes }
  (s.setQueue x.die x.queue { q with pkts := listSet q.pkts i w }).occAdd x.die x.queue x.pkt.bytes.length (w.cells - p.cells)

/-- A piece of a discarded burst is where it came from (R248): joined to what is pending of its frame, it is a frame of its queue,
the rest of one whose first part stands there, or the pending remainder. -/
def State.putBack (s : State) (x : Piece) : State :=
  let rk := x.die * 1024 + x.queue / 8
  let setRem (s : State) (r : Option Piece) : State := { s with tm := { s.tm with rem := Tab.set s.tm.rem none rk r } }
  let (x, s) := match x.last, Tab.get s.tm.rem none rk with
    | false, some r =>
      if r.pkt.buf = x.pkt.buf then ({ x with pkt := { x.pkt with bytes := x.pkt.bytes ++ r.pkt.bytes } }, setRem s none) else (x, s)
    | _, _ => (x, s)
  let q := s.queue x.die x.queue
  if !x.rem then s.unTake x
  else match (List.range q.back.length).find? (fun i => (q.pkts.getD i {}).buf == x.pkt.buf) with
  | some i => s.rejoin x i
  | none => match Tab.get s.tm.rem none rk with
    | none => setRem s (some { x with last := true })
    | some r => setRem (s.unTake r) (some { x with last := true })

/-- The pieces of a discarded burst, latest first, are offered again. -/
def State.putBackAll (s : State) (l : List Piece) : State := l.reverse.foldl State.putBack s

end Sys2Proof.Machine
end

