-- ==== Sys2Proof/Machine/Activation.lean ====
section
/-!
DEFINITION. Activation, PLOAM, the Port-ID and Alloc-ID tables, the bandwidth map and the burst plan
(05_activation_and_bursts.md). Filling and launching a burst stand in Machine/Estuary.lean, received XGEM frames in
Machine/Xgem.lean.
-/
namespace Sys2Proof.Machine
open Reg

/-- The transmission convergence state of a channel. -/
def State.conv (s : State) (c : Nat) : Conv := Tab.get s.pon.conv {} c
/-- Replace the transmission convergence state of a channel. -/
def State.setConv (s : State) (c : Nat) (v : Conv) : State :=
  { s with pon := { s.pon with conv := Tab.set s.pon.conv {} c v } }

/-! ## Faulty grants and discarded bursts (R248) -/

/-- The nine causes of Table 5.11, by their GRANT_EVT bit. -/
inductive GrantFault where
  | hec | malformed | zero | profile | late | overlap | planFull | state | txOff
  deriving DecidableEq, Repr

/-- A cause's GRANT_EVT bit and counter (Table 5.11). -/
def faultBit : GrantFault → Nat × Nat
  | .hec => (0, EST_CNT_HEC)
  | .malformed => (1, EST_CNT_MALFORMED)
  | .zero => (2, EST_CNT_ZERO)
  | .profile => (3, EST_CNT_PROFILE)
  | .late => (4, EST_CNT_LATE)
  | .overlap => (5, EST_CNT_OVERLAP)
  | .planFull => (6, EST_CNT_PLAN_FULL)
  | .state => (7, EST_CNT_STATE)
  | .txOff => (8, EST_CNT_TX_OFF)

/-- Count n faults of a cause and set its event. -/
def State.grantFault (s : State) (c : Nat) (f : GrantFault) (n : Nat) : State :=
  if n = 0 then s
  else
    let s := s.latch EST_GRANT_EVT_V (atChan c) (faultBit f).1
    s.wr (faultBit f).2 (atChan c) (s.rd (faultBit f).2 (atChan c) + BitVec.ofNat 32 n)

/-- The bond tags that a burst's pieces took (R279). -/
def Burst.tagsTaken (b : Burst) : Nat := b.allocs.foldl (fun n a => n + a.tags) 0

/-- Tags of a burst discarded after its fill point are skipped, never reused (R282). -/
def State.skipTags (s : State) (n : Nat) : State :=
  if n = 0 then s
  else (s.put BOND_EVT_UP_GAP d0 1).wr BOND_CNT_UP_GAP d0 (s.rd BOND_CNT_UP_GAP d0 + BitVec.ofNat 32 n)

/-- The pieces a burst's allocations placed, in order. -/
def Burst.pieces (b : Burst) : List Piece := (b.allocs.map (·.pieces)).flatten

/-- Discard planned bursts that satisfy a test, counted under a cause: the tags they took are skipped, their pieces are offered
again (R213, R248, R282), and a 0xFFFF entry finds no burst to join. -/
def State.dropBursts (s : State) (c : Nat) (f : GrantFault) (p : Burst → Bool) : State :=
  let v := s.conv c
  let gone := v.bursts.filter p
  let s := s.setConv c { v with bursts := v.bursts.filter (fun b => !p b), joined := v.joined && !(v.bursts.getLast?.any p) }
  let s := (s.grantFault c f gone.length).skipTags (gone.foldl (fun n b => n + b.tagsTaken) 0)
  s.putBackAll ((gone.map (·.pieces)).flatten)

/-! ## The channel group's activity (R289) -/

/-- The group is active while EN is in effect and a member in effect is in O5 or O6; a change sets ACTIVE_CHG. -/
def State.evalGroup (s : State) : State :=
  let act := s.is BOND_GROUP_STAT_EN_EFF d0 &&
    (List.range 4).any (fun c => bitOf (s.get BOND_GROUP_STAT_MEMBERS_EFF d0) c && s.operational c)
  if act = s.is BOND_GROUP_STAT_ACTIVE d0 then s
  else (s.put BOND_GROUP_STAT_ACTIVE d0 (b2n act)).put BOND_EVT_ACTIVE_CHG d0 1

/-! ## Words, bursts in progress and TX_BEN (R203, R242, R246, R247) -/

/-- The upstream word width W in bits and the granules per word, by PTX_CFG.RATE (Table 5.1). -/
def upWidth (rate : Nat) : Nat := if rate = 0 then 64 else if rate = 1 then 128 else 256

/-- The frame length in uw, and the fill lead (R203, R243), by framing. -/
def frameUw (xgs : Bool) : Nat := if xgs then 4860 else 24300
/-- FILL_LEAD in uw (R243). -/
def fillLead (xgs : Bool) : Nat := if xgs then 256 else 1024

/-- A channel's upstream word width as sampled (R130); a RATE that does not go with the framing leaves it free (R204). -/
def State.upW (s : State) (c : Nat) : Nat :=
  let rate := s.getEff LANE_PTX_CFG_RATE (atChan c)
  if (rate == 3) == s.xgs c then upWidth rate else Config.oddWidth rate (s.xgs c)

/-- The PSBu of a profile in bits (Table 5.10). -/
def psbuBits (cfg : Word) : Nat := (8 * bits cfg 7 0 + 8) * 8

/-- The bytes of a burst (R242): PSBu, FS header, PLOAMu, allocations, FS trailer, FEC parity. -/
def Burst.length (b : Burst) : Nat :=
  let body := 4 + (if b.ploamuFlag then 48 else 0) +
    (if b.kind = .serial then 0 else b.allocs.foldl (fun n a => n + a.size * 4) 0) + 4
  psbuBits b.profCfg / 8 + body + (if bits b.profCfg 30 30 = 1 then Config.fecParity b.rate body else 0)

/-- The first byte of the first allocation of a burst (R242). -/
def Burst.head (b : Burst) : Nat := psbuBits b.profCfg / 8 + 4 + b.ploamu.length

/-- Allocations, each with the byte of the burst at which it begins. -/
def placed : Nat → List Alloc → List (Nat × Alloc)
  | _, [] => []
  | n, a :: t => (n, a) :: placed (n + a.content.length) t

/-- The payloads of a burst that CIPH works on, with their byte offsets in it. -/
def Burst.crypts (b : Burst) : List (Nat × Crypt) :=
  (placed b.head b.allocs).flatMap (fun x => x.2.crypt.map (fun k => (x.1 + k.off, k)))

/-- The bytes of a burst (R242, R216): the PSBu is PRE_REP preambles and the delimiter, and the FEC parity is as long as it is
planned. -/
def Burst.bytes (b : Burst) : List Byte :=
  let psbu := (List.replicate (bits b.profCfg 7 0) (beBytes 8 b.preamble.toNat)).flatten ++ beBytes 8 b.delim.toNat
  let head := slice (Config.fsHeader b.onu) 0 4 ++ b.ploamu ++ (b.allocs.map (·.content)).flatten
  let body := head ++ slice (Config.fsTrailer head) 0 4
  psbu ++ body ++ (if bits b.profCfg 30 30 = 1 then slice (Config.fecBytes b.rate body) 0 (Config.fecParity b.rate body.length) else [])

/-- A burst of channel c takes another content, in the plan and, where it is the one sent last, on the line. -/
def State.setBurst (s : State) (c : Nat) (b : Burst) : State :=
  let v := s.conv c
  s.setConv c { v with
    bursts := v.bursts.map (fun y => if y.num == b.num then b else y)
    sent := v.sent.map (fun t => if t.num == b.num then { t with bytes := b.bytes } else t) }

/-- The upstream words a burst takes (R220). -/
def Burst.words (b : Burst) : Nat := (b.pos % b.wordBits + 8 * b.length + b.wordBits - 1) / b.wordBits

/-- Its launched words have not all crossed the balls; its first word does so FILL_LEAD uw after its fill point (R243). -/
def Burst.inProgress (b : Burst) (xgs : Bool) : Bool := b.launched && decide (b.age < fillLead xgs + b.words)

/-- TX_BEN is active for a burst (R246), `late` uw after the register: 0 at the register, 2 at the ball. -/
def Burst.ben (b : Burst) (xgs : Bool) (late : Nat) : Bool :=
  b.filled && decide (fillLead xgs + late ≤ b.age + b.lead + 2) && decide (b.age + 2 < fillLead xgs + b.words + b.lag + late)

/-- The laser disable of a channel is asserted (R53, R131, Table 5.2). -/
def State.laserOff (s : State) (c : Nat) : Bool :=
  s.is LANE_PTX_CFG_FORCE_DIS (atChan c) || s.actState c == 0 || s.actState c == 1 || s.actState c == 6 ||
  s.is FRZ_STATUS_FROZEN d0

/-- TX_BEN of a channel (R132, R246, R247): active inside the windows of its bursts, which run together where they touch. -/
def State.txBen (s : State) (c late : Nat) : Bool :=
  s.is LANE_PTX_CFG_EN (atChan c) && !s.laserOff c && (s.conv c).bursts.any (fun b => b.ben (s.xgs c) late)

/-- The level of ball TX_BEN (Table 3.7 BEN_POL). -/
def State.txBenBall (s : State) (c : Nat) : Bool := s.txBen c 2 != s.is LANE_PTX_CFG_BEN_POL (atChan c)

/-- The uw edges of a channel in the mc period n at nominal frequencies: 194.4 MHz, or 38.88 MHz, against 1.25 GHz (R59, log 3). -/
def uwIn (xgs : Bool) (n : Nat) : Nat :=
  let d := if xgs then 31250 else 6250
  (n + 1) * 972 / d - n * 972 / d

/-- The uw of one nominal mc period pass for the bursts of a channel since their fill points. -/
def State.uwEdges (s : State) (c : Nat) : State :=
  let v := s.conv c
  let n := uwIn (s.xgs c) s.ticks
  if n = 0 || v.bursts.isEmpty then s
  else s.setConv c { v with bursts := v.bursts.map (fun b => if b.filled then { b with age := b.age + n } else b) }

/-- The bytes of a burst whose words are at or past the point that is n uw from the balls. -/
def Burst.passed (b : Burst) (xgs : Bool) (n : Nat) : Nat := ((b.age + n - fillLead xgs) * b.wordBits - b.pos % b.wordBits) / 8

/-- TX_BEN is, at the register or at the ball, active for a burst, or its words are on their way (R246). -/
def Burst.onAir (b : Burst) (xgs : Bool) : Bool := b.inProgress xgs || b.ben xgs 0 || b.ben xgs 2

/-- The buffers of the frames whose last piece lies in a burst are released. -/
def State.releasePieces (s : State) (b : Burst) : State :=
  b.pieces.foldl (fun (s : State) p => if p.last then s.release p.pkt.buf else s) s

/-- The burst for which TX_BEN is active is cut and lost (R53, R54, R214): what had not crossed the balls does not, so that TX_BEN
stays low until another burst starts. One that had not launched is lost with its frames (DESIGN CHOICE, log 97). -/
def State.cutBursts (s : State) (c : Nat) : State :=
  let v := s.conv c
  let x := s.xgs c
  let sent := v.sent.map (fun t => match v.bursts.find? (fun b => b.num == t.num && b.inProgress x) with
    | some b => { t with bytes := t.bytes.take (b.passed x 0), cut := true }
    | none => t)
  let gone := v.bursts.filter (·.onAir x)
  if gone.isEmpty then s
  else (gone.filter (fun b => !b.launched)).foldl State.releasePieces
    (s.setConv c { v with bursts := v.bursts.filter (fun b => !b.onAir x), sent := sent
                          joined := v.joined && !(v.bursts.getLast?.any (·.onAir x)) })

/-! ## Transitions (R205 to R214) -/

/-- Move channel c to an activation state (R205): on leaving O2-3, O4 or O5 the bursts not launched are discarded
(R213), and likewise on entry to O7, which also cuts a burst in progress (R214); TO1 starts on entry to O2-3 and TO2 on entry to O6 (R212). -/
def State.setAct (s : State) (c new : Nat) : State :=
  let old := s.actState c
  let s := s.put PTC_ACT_STAT_STATE (atChan c) new
  let s := if new = 6 then
      (s.dropBursts c .state (fun b => !b.launched)).cutBursts c
    else if (old = 2 || old = 3 || old = 4) && new != old then
      s.dropBursts c .state (fun b => !b.launched)
    else s
  let s := if new = 2 then s.setConv c { s.conv c with to1 := 0 } else s
  let s := if new = 5 then s.setConv c { s.conv c with to2 := 0 } else s
  s.evalGroup

/-- Raw LODS rises (R207). -/
def State.lodsRise (s : State) (c : Nat) : State :=
  let st := s.actState c
  if 1 ≤ st ∧ st ≤ 3 then (s.setAct c 0).put PTC_ACT_STAT_LODS_DROP (atChan c) 1
  else if st = 4 then (s.setAct c 5).put PTC_ACT_STAT_O6_ENTRY (atChan c) 1
  else s

/-- Raw LODS falls (R207, R212). -/
def State.lodsFall (s : State) (c : Nat) : State :=
  if s.actState c = 5 then (s.setAct c 4).put PTC_ACT_STAT_O6_EXIT (atChan c) 1 else s

/-- A firmware request from a state to a state is one of Table 5.3. -/
def requestListed (cur want : Nat) : Bool :=
  (cur == 1 && want == 2) || (cur == 2 && want == 3) || (cur == 3 && want == 4) ||
  (want == 0 && 1 ≤ cur && cur ≤ 6) || (want == 6 && cur != 6)

/-- A firmware request (R207 to R211): rejected in BOOT or with EN = 0 unless it asks for O7. -/
def State.request (s : State) (c want : Nat) (v : Word) : State :=
  let a := atChan c
  let s := s.fwWrite PTC_ACT_CTL a (setBits v 26 24 want)
  let ok := requestListed (s.actState c) want &&
    (want == 6 || (s.get HW_OPMODE_MODE d0 != 1 && s.isEff PTC_ACT_CTL_EN a))
  if ok then
    let s := (s.setAct c want).put PTC_ACT_STAT_REJECT a 0
    if want = 6 then s.put PTC_ACT_STAT_O7_ENTRY a 1 else s
  else (s.put PTC_ACT_STAT_REJECT a 1).put PTC_ACT_STAT_CMD_REJ a 1

/-- ACT_REQ_O23 (R207). -/
def execActReqO23 (c : Chan) (v : Word) (s : State) : Out := s.event fun s => s.request c.val 2 v
/-- ACT_REQ_O4 (R207). -/
def execActReqO4 (c : Chan) (v : Word) (s : State) : Out := s.event fun s => s.request c.val 3 v
/-- ACT_REQ_O5 (R207). -/
def execActReqO5 (c : Chan) (v : Word) (s : State) : Out := s.event fun s => s.request c.val 4 v
/-- ACT_REQ_O11 (R207). -/
def execActReqO11 (c : Chan) (v : Word) (s : State) : Out := s.event fun s => s.request c.val 0 v
/-- ACT_REQ_O7 (R210, R214). -/
def execActReqO7 (c : Chan) (v : Word) (s : State) : Out := s.event fun s => s.request c.val 6 v

/-- TO1_EXPIRY (R207, R212): on its (TO1_MS × 8)-th counted tick in O2-3 or O4. -/
def execTo1Expiry (c : Chan) (s : State) : Out := s.event fun s =>
  let c := c.val
  if (s.actState c = 2 || s.actState c = 3) && s.getEff PTC_ACT_TMR_TO1_MS (atChan c) * 8 ≤ (s.conv c).to1 then
    (s.setAct c 0).put PTC_ACT_STAT_TO1_EXP (atChan c) 1
  else s

/-- TO2_EXPIRY (R207, R212): on its TO2_FR-th counted tick in O6. -/
def execTo2Expiry (c : Chan) (s : State) : Out := s.event fun s =>
  let c := c.val
  if s.actState c = 5 && s.getEff PTC_ACT_TMR_TO2_FR (atChan c) ≤ (s.conv c).to2 then
    (s.setAct c 0).put PTC_ACT_STAT_TO2_EXP (atChan c) 1
  else s

/-! ## PLOAM (R215, R223, R224) -/

/-- The message in the PLOAMU_DATA words (R215): byte 4k + j is bits [8j + 7:8j] of word k. -/
def State.ploamuStage (s : State) (c : Nat) : List Byte :=
  ((List.range 12).map (fun k => leBytes 4 (s.rd PTC_PLOAMU_DATA (place (chanDie c) (c * 12 + k))).toNat)).flatten

/-- PLOAMU_PUSH (R215): at the tail of the eight-entry queue, or FULL_REJ. -/
def execPloamuPush (c : Chan) (s : State) : Out := s.event fun s =>
  let c := c.val
  let v := s.conv c
  if 8 ≤ v.ploamu.length then s.put PTC_PLOAMU_STAT_FULL_REJ (atChan c) 1
  else
    (s.setConv c { v with ploamu := v.ploamu ++ [s.ploamuStage c] }).put PTC_PLOAMU_STAT_LEVEL (atChan c) (v.ploamu.length + 1)

/-- PLOAMU_DEF (R215). -/
def execPloamuDef (c : Chan) (s : State) : Out := s.event fun s =>
  s.setConv c.val { s.conv c.val with ploamuDef := s.ploamuStage c.val }

/-- Show the head of the PLOAMd FIFO and its level; with no head the data words are free (log 2). -/
def State.showPloamd (s : State) (c : Nat) : State :=
  let v := s.conv c
  let s := s.put PTC_PLOAMD_STAT_LEVEL (atChan c) v.ploamd.length
  let words : List Word := match v.ploamd with
    | [] => (List.range 12).map (fun k => Config.freeStale (s.fresh + k))
    | m :: _ => (List.range 12).map (fun k => BitVec.ofNat 32 (leNat (slice m (4 * k) 4)))
  let s := if v.ploamd.isEmpty then { s with fresh := s.fresh + 12 } else s
  (List.range 12).foldl (fun s k => s.wr PTC_PLOAMD_DATA (place (chanDie c) (c * 12 + k)) (words.getD k 0)) s

/-- PLOAMD_RECEIVE (R223, R224): a message for this ONU or broadcast enters the 32-entry FIFO, or is dropped and
counted; any other is discarded uncounted. -/
def execPloamdReceive (c : Chan) (onu : BitVec 10) (msg : List Byte) (s : State) : Out := s.event fun s =>
  let c := c.val
  let a := atChan c
  let mine := onu.toNat == 0x3FF || (s.isEff PTC_ONU_ID_VALID a && s.getEff PTC_ONU_ID_ID a == onu.toNat)
  let v := s.conv c
  if (s.framer c).sync != .sync || !mine then s
  else if 32 ≤ v.ploamd.length then s.incSat PTC_PLOAMD_STAT_OVF_CNT a 1 0xFFFF
  else (s.setConv c { v with ploamd := v.ploamd ++ [slice msg 0 48] }).showPloamd c

/-- PLOAMD_POP (R224): the head entry is removed; on an empty FIFO nothing happens. -/
def execPloamdPop (c : Chan) (s : State) : Out := s.event fun s =>
  let v := s.conv c.val
  match v.ploamd with
  | [] => s
  | _ :: t => (s.setConv c.val { v with ploamd := t }).showPloamd c.val

/-! ## Tables (R231, R239) -/

/-- PID_TABLE_WRITE (R231): the staging registers into entry INDEX. -/
def execPidTableWrite (n : LineDie) (v : Word) (s : State) : Out := s.event fun s =>
  let a := onDie n.val
  let s := s.fwWrite PTC_PID_WR a v
  let e : BitVec 64 := BitVec.ofNat 64 ((s.rd PTC_PID_STAGE1 a).toNat * 2 ^ 32 + (s.rd PTC_PID_STAGE0 a).toNat)
  { s with pon := { s.pon with pid := Tab.set s.pon.pid 0 (n.val * 4096 + s.get PTC_PID_WR_INDEX a) e } }

/-- PID_TABLE_READ (R231). -/
def execPidTableRead (n : LineDie) (v : Word) (s : State) : Out := s.event fun s =>
  let a := onDie n.val
  let s := s.fwWrite PTC_PID_WR a v
  let e := Tab.get s.pon.pid 0 (n.val * 4096 + s.get PTC_PID_WR_INDEX a)
  (s.wr PTC_PID_STAGE0 a (e.setWidth 32)).wr PTC_PID_STAGE1 a ((e >>> 32).setWidth 32)

/-- ALLOC_TABLE_WRITE (R239). -/
def execAllocTableWrite (n : LineDie) (v : Word) (s : State) : Out := s.event fun s =>
  let a := onDie n.val
  let s := s.fwWrite EST_ALLOC_WR a v
  { s with pon := { s.pon with
      alloc := Tab.set s.pon.alloc 0 (n.val * 1024 + s.get EST_ALLOC_WR_INDEX a) (s.rd EST_ALLOC_STAGE a) } }

/-- ALLOC_TABLE_READ (R239). -/
def execAllocTableRead (n : LineDie) (v : Word) (s : State) : Out := s.event fun s =>
  let a := onDie n.val
  let s := s.fwWrite EST_ALLOC_WR a v
  s.wr EST_ALLOC_STAGE a (Tab.get s.pon.alloc 0 (n.val * 1024 + s.get EST_ALLOC_WR_INDEX a))

/-- Key of the first table entry of line die n, at stride w, that a test accepts: the lowest index wins (R229, R239). -/
def firstEntry {α : Type} (t : Tab α) (n w : Nat) (p : α → Bool) : Option (Nat × α) :=
  (t.find? (fun x => x.1 / w == n && p x.2)).map (fun x => (x.1 % w, x.2))

/-- The Alloc-ID entry a grant on channel c matches (R235, R239). -/
def State.allocEntry (s : State) (c id : Nat) : Option (Nat × Word) :=
  firstEntry s.pon.alloc (chanDie c) 1024 fun e =>
    bits e 31 31 == 1 && (bits e 30 29).testBit (c % 2) && bits e 13 0 == id

/-- The Port-ID entry a frame on channel c matches (R229). -/
def State.pidEntry (s : State) (c port : Nat) : Option (Nat × BitVec 64) :=
  firstEntry s.pon.pid (chanDie c) 4096 fun e =>
    e.getLsbD 63 && e.getLsbD (61 + c % 2) && (e.toNat / 2 ^ 16) % 2 ^ 16 == port

/-! ## Commits (R222, R240) -/

/-- EQD_COMMIT (R222, R743): for the map of the next frame. -/
def execEqdCommit (c : Chan) (s : State) : Out := s.event fun s =>
  s.setConv c.val { s.conv c.val with eqdPend := some (s.rd PTC_EQD (atChan c.val), s.rd PTC_RSP_CFG (atChan c.val)) }

/-- The registers of a burst profile (R239). -/
def profRegs : List Nat := [EST_PROF_CFG, EST_PROF_PRE_HI, EST_PROF_PRE_LO, EST_PROF_DEL_HI, EST_PROF_DEL_LO]

/-- The registers of channel c's four profiles, with their places (R240). -/
def profPlaces (c : Nat) : List (Nat × Nat) :=
  (profRegs.map (fun r => (List.range 4).map (fun n => (r, place (chanDie c) (c * 4 + n))))).flatten

/-- PROF_COMMIT (R240, R743): for the map of the next frame. -/
def execProfCommit (c : Chan) (s : State) : Out := s.event fun s =>
  s.setConv c.val { s.conv c.val with profPend := some ((profPlaces c.val).map (fun x => s.rd x.1 x.2)) }

/-- The waiting commits take effect for the map of a new frame (R222, R240). -/
def State.applyCommits (s : State) (c : Nat) : State :=
  let v := s.conv c
  let s := match v.eqdPend with
    | none => s
    | some (e, r) => (s.wrEff PTC_EQD (atChan c) e).wrEff PTC_RSP_CFG (atChan c) r
  let s := match v.profPend with
    | none => s
    | some l => (List.zip (profPlaces c) l).foldl (fun (s : State) (x : (Nat × Nat) × Word) => s.wrEff x.1.1 x.1.2 x.2) s
  s.setConv c { v with eqdPend := none, profPend := none }

/-! ## The bandwidth map and the plan (R219 to R221, R235 to R242) -/

/-- The bit position of a burst from edge 0, and whether the total was negative (R220). -/
def burstPos (eqd : Nat) (trim : Int) (rsp w start psbu d : Nat) : Nat × Bool :=
  let total : Int := (eqd : Int) + trim
  let neg := decide (total < 0)
  let t : Nat := if neg then 0 else total.toNat
  (rsp * w + t + 32 * start + d * w - psbu, neg)

/-- The burst's first bit and the bit after its last, in one running count (frames since the framer started). -/
def Burst.span (b : Burst) (frameBits : Nat) : Nat × Nat :=
  (b.frame * frameBits + b.pos, b.frame * frameBits + b.pos + 8 * b.length)

/-- What the channel may do with a grant that concerns it (R206, R216, R218, Table 5.2): the kind of burst, if any. -/
def State.grantKind (s : State) (c : Nat) (g : Grant) (entry : Option (Nat × Word)) : Option BurstKind :=
  let a := atChan c
  let mine := s.isEff PTC_ONU_ID_VALID a && s.getEff PTC_ONU_ID_ID a == g.allocId.toNat
  let st := s.actState c
  if st = 2 then (if g.allocId.toNat = s.getEff PTC_SN_CFG_SN_ALLOC a && g.ploamu then some .serial else none)
  else if st = 3 then (if mine && g.ploamu then some .ranging else none)
  else if st = 4 then (if mine || entry.isSome then some .data else none)
  else none

/-- Start a new burst for a grant (R217, R220, R237, R240, R247). -/
def State.newBurst (s : State) (c : Nat) (g : Grant) (k : BurstKind) (al : Alloc) : State :=
  let a := atChan c
  let v := s.conv c
  let pl := place (chanDie c) (c * 4 + g.prof.val)
  let cfg := s.rdEff EST_PROF_CFG pl
  let (d, s) := if k = .serial then
      s.draw (fun n => Config.freeSerialDelay n % (s.getEff PTC_SN_CFG_DELAY_MAX a + 1))
    else (0, s)
  let (pos, neg) := burstPos (s.getEff PTC_EQD_V a) (signed 12 (s.getEff PTC_RSP_CFG_TRIM a))
    (s.getEff PTC_RSP_CFG_RSP_TIME a) (s.upW c) g.start.toNat (psbuBits cfg) d
  let b : Burst :=
    { num := v.planned, rate := s.getEff LANE_PTX_CFG_RATE (atChan c), kind := k, start := g.start.toNat, delay := d, prof := g.prof.val, profCfg := cfg
      preamble := BitVec.ofNat 64 ((s.rdEff EST_PROF_PRE_HI pl).toNat * 2 ^ 32 + (s.rdEff EST_PROF_PRE_LO pl).toNat)
      delim := BitVec.ofNat 64 ((s.rdEff EST_PROF_DEL_HI pl).toNat * 2 ^ 32 + (s.rdEff EST_PROF_DEL_LO pl).toNat)
      sfc := (s.framer c).sfc, frame := v.frames, pos := pos, wordBits := s.upW c
      lead := s.getEff EST_BEN_CFG_LEAD a, lag := s.getEff EST_BEN_CFG_LAG a
      ploamuFlag := g.ploamu, allocs := [al] }
  let s := s.setConv c { v with
    bursts := v.bursts ++ [b], waits := v.waits ++ [v.planned], planned := v.planned + 1
    nBursts := v.nBursts + 1, nAllocs := v.nAllocs + 1, joined := true, full := false }
  if neg then s.put PTC_ACT_STAT_EQD_NEG a 1 else s

/-- Join a 0xFFFF entry to the burst planned last (R237, R249). -/
def State.joinBurst (s : State) (c : Nat) (g : Grant) (al : Alloc) : State :=
  let v := s.conv c
  match v.bursts.getLast? with
  | none => s
  | some b =>
    let b := { b with ploamuFlag := b.ploamuFlag || g.ploamu, allocs := b.allocs ++ [al] }
    s.setConv c { v with bursts := v.bursts.dropLast ++ [b], waits := v.waits ++ [b.num], nAllocs := v.nAllocs + 1 }

/-- Judge an entry that concerns the channel (R206, R216 to R218, R237, R241, Table 5.11); while the channel's transmitter is
off it is only counted (R674). -/
def State.judgeGrant (s : State) (c : Nat) (g : Grant) (entry : Option (Nat × Word)) : State :=
  let v := s.conv c
  let cont := g.start.toNat == 0xFFFF
  let serial := s.actState c == 2
  let s := if g.fwi && s.is PWR_PS_STAT_RX_ON (d0i c) then s.setConv c { v with fwi := true } else s
  let v := s.conv c
  let al : Alloc := { id := g.allocId.toNat, entry := entry.map (·.1), size := g.size.toNat, dbru := g.dbru }
  if !s.is PWR_PS_STAT_TX_ON (d0i c) then (s.count PWR_CNT_PS_GRANT (d0i c)).setConv c { v with joined := false }
  else if !cont && frameUw (s.xgs c) * s.upW c / 32 ≤ g.start.toNat then
    (s.grantFault c .malformed 1).setConv c { v with joined := false }
  else if cont && !v.seen then s.grantFault c .malformed 1
  else if !serial && g.size = 0 && g.dbru then
    (s.grantFault c .malformed 1).setConv c (if cont then v else { v with joined := false })
  else if !serial && g.size = 0 && !g.ploamu then s.grantFault c .zero 1
  else match s.grantKind c g entry with
  | none => if cont then s else s.setConv c { v with joined := false }
  | some k =>
    if 256 ≤ v.nAllocs || (!cont && 64 ≤ v.nBursts) || (cont && !v.joined && v.full) then
      (if cont then s else s.setConv c { v with joined := false, full := true }).grantFault c .planFull 1
    else if cont && !v.joined then s
    else if cont then s.joinBurst c g al
    else s.newBurst c g k al

/-- BWMAP_ENTRY_PARSE (R235, R237, R238, R241, R248): in SYNC, every entry's HEC is checked and the entries that concern
the channel are judged. -/
def execBwmapEntryParse (c : Chan) (g : Grant) (s : State) : Out := s.event fun s =>
  let c := c.val
  let a := atChan c
  let v := s.conv c
  if (s.framer c).sync != .sync then s
  else if !g.hecOk then (s.grantFault c .hec 1).setConv c { v with seen := true, broken := true }
  else
    let cont := g.start.toNat == 0xFFFF
    let entry := s.allocEntry c g.allocId.toNat
    let concerns := g.allocId.toNat == s.getEff PTC_SN_CFG_SN_ALLOC a ||
      (s.isEff PTC_ONU_ID_VALID a && s.getEff PTC_ONU_ID_ID a == g.allocId.toNat) || entry.isSome
    if cont && v.broken then s
    else
      let s := if concerns then s.judgeGrant c g entry else s
      s.setConv c { s.conv c with seen := true, broken := cont && v.broken }

/-- BURST_PLAN_READY (R236, R248): the plan of the oldest entry that is not ready, for its burst if that still stands. PROFILE,
LATE and OVERLAP discard the burst with its first entry, LATE with a joined one too. -/
def execBurstPlanReady (c : Chan) (at_ : Nat) (s : State) : Out := s.event fun s =>
  let c := c.val
  let v := s.conv c
  match v.waits with
  | [] => s
  | n :: t =>
    let s := s.setConv c { v with waits := t }
    match v.bursts.find? (fun b => b.num == n) with
    | none => s
    | some b =>
      let fb := frameUw (s.xgs c) * b.wordBits
      let others := v.bursts.filter (fun x => x.ready)
      let gone (f : GrantFault) : State := s.dropBursts c f (fun x => x.num == n)
      if !b.ready && bits b.profCfg 31 31 = 0 then gone .profile
      else if b.pos / b.wordBits < at_ + fillLead (s.xgs c) then gone .late
      else if !b.ready && others.any (fun x => (b.span fb).1 < (x.span fb).2) then gone .overlap
      else s.setConv c { s.conv c with bursts := v.bursts.map (fun x => if x.num == n then { x with ready := true } else x) }

end Sys2Proof.Machine
end

