-- ==== Sys2Proof/Machine/Flags.lean ====
section
/-!
DEFINITION. The flags of a tile thread (R302) and the results that set them (R308), and the checksums and hashes of
R308, R336 and R356.
-/
namespace Sys2Proof.Machine.Tile

/-- The flag register: H in [4], V in [3], C in [2], N in [1] and Z in [0] (R302). -/
abbrev Flags := BitVec 5

/-- A flag register of its five flags. -/
def mkFlags (h v c n z : Bool) : Flags := BitVec.ofNat 5 (b2n h * 16 + b2n v * 8 + b2n c * 4 + b2n n * 2 + b2n z)
/-- The flag H. -/
def flagH (f : Flags) : Bool := f.getLsbD 4
/-- The flag V. -/
def flagV (f : Flags) : Bool := f.getLsbD 3
/-- The flag C. -/
def flagC (f : Flags) : Bool := f.getLsbD 2
/-- The flag N. -/
def flagN (f : Flags) : Bool := f.getLsbD 1
/-- The flag Z. -/
def flagZ (f : Flags) : Bool := f.getLsbD 0

/-- Z and N of a result, with given C and V; H is kept (R302, R308). -/
def resultFlags (f : Flags) (r : Word) (c v : Bool) : Flags := mkFlags (flagH f) v c r.msb (r == 0)

/-- A result and the flags it leaves. -/
structure Res where
  val : Word
  flags : Flags
  deriving DecidableEq, Repr

/-- A result that clears C and V (R308). -/
def logicRes (f : Flags) (r : Word) : Res := ⟨r, resultFlags f r false false⟩

/-- ADD and ADDI (R308): C is the carry out and V the signed overflow. -/
def addRes (f : Flags) (a b : Word) : Res :=
  let r := a + b
  ⟨r, resultFlags f r (decide (2 ^ 32 ≤ a.toNat + b.toNat)) ((a.msb == b.msb) && (r.msb != a.msb))⟩

/-- SUB, CMP and CMPI (R308): C is bit 32 of ra + (not rb) + 1, and V the signed overflow. -/
def subRes (f : Flags) (a b : Word) : Res :=
  let r := a - b
  ⟨r, resultFlags f r (decide (b.toNat ≤ a.toNat)) ((a.msb != b.msb) && (r.msb != a.msb))⟩

/-- An arithmetic right shift. -/
def sar (a : Word) (n : Nat) : Word := a.sshiftRight n

/-- A sixteen-bit one's-complement sum (R308). -/
def onesAdd (a b : Nat) : Nat := (a + b) % 65536 + (a + b) / 65536

/-- The one's-complement sum of the 16-bit words of bytes, a zero byte appended to an odd number (R308). -/
def onesSum (s : Nat) : List Byte → Nat
  | [] => s
  | [a] => onesAdd s (a.toNat * 256)
  | a :: b :: t => onesSum (onesAdd s (a.toNat * 256 + b.toNat)) t

/-- The condition of a branch (Table 7.4). -/
def holds (c : Nat) (f : Flags) : Bool :=
  match c with
  | 0x0 => true
  | 0x1 => flagZ f
  | 0x2 => !flagZ f
  | 0x3 => flagN f != flagV f
  | 0x4 => flagN f == flagV f
  | 0x5 => !flagC f
  | 0x6 => flagC f
  | 0x7 => flagH f
  | 0x8 => !flagH f
  | 0x9 => !flagZ f && flagN f == flagV f
  | 0xA => flagZ f || flagN f != flagV f
  | _ => false

/-- One bit of a bit-reflected CRC with a reflected polynomial. -/
def crcBit (poly : Word) (c : Word) : Word := if c.getLsbD 0 then (c >>> 1) ^^^ poly else c >>> 1

/-- One byte of a bit-reflected CRC. -/
def crcByte (poly : Word) (c : Word) (b : Byte) : Word :=
  (List.range 8).foldl (fun c _ => crcBit poly c) (c ^^^ b.setWidth 32)

/-- A 32-bit CRC with reflected input and output, initial value and final XOR 0xFFFF_FFFF. -/
def crc32 (poly : Word) (l : List Byte) : Word := (l.foldl (crcByte poly) 0xFFFFFFFF) ^^^ 0xFFFFFFFF

/-- CRC-32 of IEEE 802.3 (R336): the polynomial 0x04C1_1DB7, reflected. -/
def crcIeee (l : List Byte) : Word := crc32 0xEDB88320 l

/-- CRC-32C (R308, HASH): the Castagnoli polynomial 0x1EDC_6F41, reflected; the spec names it and gives no polynomial
(PRESUMED, log 21). -/
def crc32c (l : List Byte) : Word := crc32 0x82F63B78 l

/-- CRC-32C of words, each most significant byte first (R308, R356). -/
def hashWords (l : List Word) : Word := crc32c ((l.map (fun w => beBytes 4 w.toNat)).flatten)

end Sys2Proof.Machine.Tile
end

