-- ==== Sys2Proof/Machine/Forward.lean ====
section
/-!
DEFINITION. Forwarding commands between dies (R320, R375, R376): where one goes when it is launched, what a router does
with it for an absent die (R33), over a lost link (R36, R146) or for a die that is not in RUN (R665, R666), and the order
in which commands become visible (R402).
-/
namespace Sys2Proof.Machine
open Reg

/-- What is held is a forwarding command at the router of die a. -/
def Held.commandOf (a : Nat) : Held → Bool
  | .command f => f.from_ == a
  | .request _ | .posted _ _ _ | .span _ _ _ _ _ _ _ => false

/-- A router holds a command for a die that is not in RUN (R665), at most 1,024 for each (R666), and wakes that die. -/
def State.holdCommand (s : State) (f : Fwd) : State :=
  let n := (s.mesh.held.filter (fun x => x.1 == f.die && x.2.commandOf f.from_)).length
  if 1024 ≤ n then (s.count PWR_CNT_HOLD_DROP (d0i f.die)).release f.pkt.buf
  else (({ s with mesh := { s.mesh with held := s.mesh.held ++ [(f.die, Held.command f)] } }).wakeRoute f.from_ f.die).pmcEvent
      f.from_ 0 0x00C f.die 1

/-- Launch a forwarding command (R320, R375): it is on its way, or discarded with its buffer hold released (R33, R146), or
held (R665). -/
def State.launch (s : State) (f : Fwd) : State :=
  match s.route f.from_ f.die with
  | .clear _ => { s with pipe := { s.pipe with flight := s.pipe.flight ++ [f] } }
  | .absent => (s.count HW_ABSENT_DROP d0).release f.pkt.buf
  | .firstDown l => (s.count DLINK_DROP (place f.from_ l)).release f.pkt.buf
  | .secondDown l v => (s.count DLINK_DROP (place v l)).release f.pkt.buf
  | .asleep _ => s.holdCommand f

/-- The edge on which a command becomes visible or reaches the delta (R320, R375, R376). -/
def Fwd.arrives (f : Fwd) : Nat :=
  f.launch + (if f.mcast then 12 else if f.copy then 16 else 20) + 22 * hops f.from_ f.die

/-- The place of a command among those of one edge (R402): the die's own tiles by index, then delta copies, then links. -/
def Fwd.rank (f : Fwd) : Nat :=
  if f.from_ = f.die then (if f.copy then 1000 else f.tile)
  else 2000 + (linkOf (match viaDie f.from_ f.die with | some v => v | none => f.from_) f.die).getD 0

/-- Command a comes before command b. -/
def Fwd.before (a b : Fwd) : Bool :=
  decide (a.arrives < b.arrives) || (a.arrives == b.arrives && decide (a.rank < b.rank))

/-- The first of a list of commands in arrival order (R402); of two equal ones, the earlier of the list. -/
def firstFwd : List Fwd → Option Fwd
  | [] => none
  | a :: t => match firstFwd t with
    | none => some a
    | some b => if b.before a then some b else some a

/-- Take the first command in flight that a test accepts. -/
def State.takeFlight (s : State) (p : Fwd → Bool) : Option (Fwd × State) :=
  (firstFwd (s.pipe.flight.filter p)).map
    (fun f => (f, { s with pipe := { s.pipe with flight := s.pipe.flight.erase f } }))

end Sys2Proof.Machine
end

