-- ==== Sys2Proof/Machine/Operands.lean ====
section
/-!
DEFINITION. The formats of tile instruction words (Table 7.2): their fields, the words that encode each instruction of
Table 7.3, and the rules that Tables 7.2 and 7.3 set for a word whose opcode and function are valid (R305, R306).
-/
namespace Sys2Proof.Machine.Tile

/-- OP, bits [31:26] of every format. -/
def op (w : Word) : Nat := bits w 31 26
/-- RD, bits [25:21]. -/
def rd (w : Word) : Nat := bits w 25 21
/-- RA or KA, bits [20:16]. -/
def ra (w : Word) : Nat := bits w 20 16
/-- RB of formats R and C, bits [15:11]. -/
def rb (w : Word) : Nat := bits w 15 11
/-- FN of format R. -/
def fn (w : Word) : Nat := bits w 10 6
/-- IMM of format I, OFFS of format B. -/
def imm (w : Word) : Nat := bits w 15 0
/-- TYPE of format S. -/
def ty (w : Word) : Nat := bits w 15 14
/-- AMT of format S, LENM1 of format X. -/
def amt (w : Word) : Nat := bits w 4 0
/-- POS of format X. -/
def pos (w : Word) : Nat := bits w 9 5
/-- C of format H. -/
def cRel (w : Word) : Nat := bits w 15 15
/-- SZ of format H. -/
def sz (w : Word) : Nat := bits w 14 13
/-- OFF of format H. -/
def off (w : Word) : Nat := bits w 7 0
/-- MN of format M, TBL of format L. -/
def mn (w : Word) : Nat := bits w 15 12
/-- DIR of format M. -/
def dir (w : Word) : Nat := bits w 0 0
/-- BANK of format C. -/
def bank (w : Word) : Nat := bits w 10 7
/-- COND of format B. -/
def cond (w : Word) : Nat := bits w 25 22
/-- TARGET of format J. -/
def target (w : Word) : Nat := bits w 12 0
/-- ARG of format F. -/
def arg (w : Word) : Nat := bits w 5 0

/-- The bytes that SZ names (Table 7.2). -/
def size (w : Word) : Nat := 2 ^ sz w

/-! ## Words -/

/-- A word of format R. -/
def encR (o d a b f : Nat) : Word := BitVec.ofNat 32 (o * 2 ^ 26 + d * 2 ^ 21 + a * 2 ^ 16 + b * 2 ^ 11 + f * 2 ^ 6)
/-- A word of format I. -/
def encI (o d a i : Nat) : Word := BitVec.ofNat 32 (o * 2 ^ 26 + d * 2 ^ 21 + a * 2 ^ 16 + i)
/-- A word of format S. -/
def encS (d a t n : Nat) : Word := BitVec.ofNat 32 (0x07 * 2 ^ 26 + d * 2 ^ 21 + a * 2 ^ 16 + t * 2 ^ 14 + n)
/-- A word of format X. -/
def encX (o d a p l : Nat) : Word := BitVec.ofNat 32 (o * 2 ^ 26 + d * 2 ^ 21 + a * 2 ^ 16 + p * 2 ^ 5 + l)
/-- A word of format H. -/
def encH (o d a c z i : Nat) : Word :=
  BitVec.ofNat 32 (o * 2 ^ 26 + d * 2 ^ 21 + a * 2 ^ 16 + c * 2 ^ 15 + z * 2 ^ 13 + i)
/-- A word of format M. -/
def encM (o d a m r : Nat) : Word := BitVec.ofNat 32 (o * 2 ^ 26 + d * 2 ^ 21 + a * 2 ^ 16 + m * 2 ^ 12 + r)
/-- A word of format L. -/
def encL (o d k t : Nat) : Word := BitVec.ofNat 32 (o * 2 ^ 26 + d * 2 ^ 21 + k * 2 ^ 16 + t * 2 ^ 12)
/-- A word of format C. -/
def encC (o a b k : Nat) : Word := BitVec.ofNat 32 (o * 2 ^ 26 + a * 2 ^ 16 + b * 2 ^ 11 + k * 2 ^ 7)
/-- A word of format B. -/
def encB (c i : Nat) : Word := BitVec.ofNat 32 (0x18 * 2 ^ 26 + c * 2 ^ 22 + i)
/-- A word of format J. -/
def encJ (d t : Nat) : Word := BitVec.ofNat 32 (0x19 * 2 ^ 26 + d * 2 ^ 21 + t)
/-- A word of format F. -/
def encF (o a g : Nat) : Word := BitVec.ofNat 32 (o * 2 ^ 26 + a * 2 ^ 16 + g)

/-! ## Rules (R305, R306, Table 7.3) -/

/-- Format R: bits [5:0] are 0. -/
def okR (w : Word) : Bool := bits w 5 0 == 0
/-- Format S: bits [13:5] are 0. -/
def okS (w : Word) : Bool := bits w 13 5 == 0
/-- Format X: bits [15:10] are 0. -/
def okX (w : Word) : Bool := bits w 15 10 == 0
/-- Format X with POS = 0, of MOVH and CSUM. -/
def okX0 (w : Word) : Bool := bits w 15 5 == 0
/-- Format H: bits [12:8] are 0 and SZ is not 0b11. -/
def okH (w : Word) : Bool := bits w 12 8 == 0 && sz w != 3
/-- Format M: bits [11:1] are 0. -/
def okM (w : Word) : Bool := bits w 11 1 == 0
/-- Format L: bits [11:0] are 0. -/
def okL (w : Word) : Bool := bits w 11 0 == 0
/-- Format F: bits [25:21] and [15:6] are 0. -/
def okF (w : Word) : Bool := rd w == 0 && bits w 15 6 == 0
/-- Format B: bits [21:16] are 0 and COND is not reserved (Table 7.4). -/
def okB (w : Word) : Bool := bits w 21 16 == 0 && cond w ≤ 0xA
/-- Format J: bits [20:13] are 0. -/
def okJ (w : Word) : Bool := bits w 20 13 == 0
/-- Format C: bits [25:21] and [6:0] are 0. -/
def okC (w : Word) : Bool := rd w == 0 && bits w 6 0 == 0
/-- RD must be 0. -/
def rd0 (w : Word) : Bool := rd w == 0
/-- RA must be 0. -/
def ra0 (w : Word) : Bool := ra w == 0
/-- The key register is a multiple of 4. -/
def ka4 (w : Word) : Bool := ra w % 4 == 0
/-- The result register is even. -/
def rdEven (w : Word) : Bool := rd w % 2 == 0

/-- The opcodes of Table 7.3. -/
def opcodes : List Nat :=
  [0x00, 0x01, 0x02, 0x03, 0x04, 0x05, 0x06, 0x07, 0x08, 0x09, 0x0A, 0x0B, 0x0C, 0x0D, 0x10, 0x11, 0x12, 0x13, 0x14, 0x15,
   0x18, 0x19, 0x1A, 0x20, 0x21, 0x22, 0x23, 0x24, 0x25, 0x30, 0x31, 0x32, 0x33, 0x34, 0x35, 0x36]

/-- The word's opcode, or its function under OP 0x00, is reserved (R306, R307). -/
def reserved (w : Word) : Bool := !opcodes.contains (op w) || (op w == 0 && 0x0C ≤ fn w)

end Sys2Proof.Machine.Tile
end

