-- ==== Sys2Proof/Machine/Tiles.lean ====
section
/-!
DEFINITION. The tiles and their packet instructions (07_rilonef_p.md), except the lookups and counters of
Machine/Lookup.lean. A thread issues the word at its program counter (R292, R298): the command names the thread, and the
word is the machine's. The edge of the issue slot is the sender's (log 7).
-/
namespace Sys2Proof.Machine
open Reg

/-! ## Threads -/

/-- The key of a thread. -/
def threadKey (d t : Nat) : Nat := d * 1024 + t
/-- A thread that carries a packet, if it does. -/
def State.thread (s : State) (d t : Nat) : Option Thread := Tab.get s.pipe.threads none (threadKey d t)
/-- Replace a thread. -/
def State.setThread (s : State) (d t : Nat) (v : Option Thread) : State :=
  { s with pipe := { s.pipe with threads := Tab.set s.pipe.threads none (threadKey d t) v } }

/-- The threads of a die: 128 tiles on a course die, 48 on a line die, of eight threads each. -/
def threadsOf (d : Nat) : Nat := if d < 2 then 384 else 1024

/-- A general register: g0 reads 0 (R297). -/
def Thread.reg (t : Thread) (i : Nat) : Word := if i = 0 then 0 else t.g.getD i 0
/-- Write a general register; writes to g0 have no effect (R297). -/
def Thread.setReg (t : Thread) (i : Nat) (v : Word) : Thread := if i = 0 then t else { t with g := listSet t.g i v }
/-- A metadata register. -/
def Thread.mreg (t : Thread) (i : Nat) : Word := t.m.getD i 0
/-- Replace a metadata register. -/
def Thread.setMreg (t : Thread) (i : Nat) (v : Word) : Thread := { t with m := listSet t.m i v }
/-- Write a register with a result and take its flags. -/
def Thread.result (t : Thread) (i : Nat) (r : Tile.Res) : Thread := { t.setReg i r.val with flags := r.flags }

/-- m0.KIND. -/
def Thread.kind (t : Thread) : Nat := bits (t.mreg 0) 31 28
/-- m0.PASS. -/
def Thread.pass (t : Thread) : Nat := bits (t.mreg 0) 27 26
/-- m0.GEN. -/
def Thread.gen (t : Thread) : Bool := bits (t.mreg 0) 25 25 == 1
/-- m0.BANK. -/
def Thread.bank (t : Thread) : Nat := bits (t.mreg 0) 24 24
/-- m0.LEN. -/
def Thread.len (t : Thread) : Nat := bits (t.mreg 0) 13 0
/-- m5.CUR. -/
def Thread.cur (t : Thread) : Nat := bits (t.mreg 5) 8 0
/-- m5.LEVEL. -/
def Thread.level (t : Thread) : Nat := bits (t.mreg 5) 19 16
/-- m6.ED_END. -/
def Thread.edEnd (t : Thread) : Nat := bits (t.mreg 6) 24 16
/-- m6.ED_SKIP. -/
def Thread.edSkip (t : Thread) : Nat := bits (t.mreg 6) 8 0

/-- The word that a write has stored at a bank and address of the instruction memories of a die (R333). -/
def State.imemStored (s : State) (d bank pc : Nat) : Option Word := Tab.get s.pipe.imem none (d * 16384 + bank * 8192 + pc)

/-- The word of a tile's instruction memory: one that nothing has written is the implementation's (log 9). -/
def State.imemAt (s : State) (d tile bank pc : Nat) : Word :=
  (s.imemStored d bank pc).getD (Config.imemWord ((d * 128 + tile) * 16384 + bank * 8192 + pc))

/-- The length of the output packet (R303). -/
def Thread.outLen (t : Thread) : Nat := t.len - t.edSkip + t.edEnd

/-- The output packet (R303): the edited window bytes, then the original bytes from ED_SKIP. -/
def Thread.output (t : Thread) : List Byte := slice t.h 0 t.edEnd ++ (t.bytes.take t.len).drop t.edSkip

/-- The checks of R304. -/
def Thread.outOk (t : Thread) : Bool := t.edSkip ≤ t.len && t.outLen ≤ 16383

/-- m8 with a reason and the program counter of the instruction that set it (Table 7.1). -/
def Thread.mark (t : Thread) (reason : Nat) : Thread := t.setMreg 8 (setBits (setBits 0 21 16 reason) 12 0 t.pc)

/-! ## How an instruction ends -/

/-- How an instruction ends: it goes on at a program counter, after the slots of its count or after n of them (R318), its pass
is over, it raises an exception class (Table 7.7), its mesh access fails after n slots (R317, R318), or its mesh request is held
and it has not issued (R665). -/
inductive TileEnd where
  | go (t : Thread) (pc : Nat) (s : State)
  | took (n : Nat) (t : Thread) (pc : Nat) (s : State)
  | over (s : State)
  | exc (cls : Nat) (s : State)
  | err (n : Nat) (s : State)
  | wait (s : State)

/-- Take an exception (R326): the packet as at the start of the pass goes to the spillway with REASON and PC set. -/
def State.tileExc (s : State) (d k : Nat) (t : Thread) (cls : Nat) : State :=
  let t := t.mark cls
  let s := s.count TILE_EXC_CNT (place d cls)
  let s := { s with pipe := { s.pipe with
    spill := s.pipe.spill ++ [Spill.mk d cls { buf := t.buf, bytes := t.bytes, m := t.m }] } }
  s.setThread d k none

/-- An uncorrectable instruction fetch stops the tile (R533): each packet in its threads is dropped and counted, and the
tile's TILE_OFF bit is set. -/
def State.tileFetchUe (s : State) (d tile pc : Nat) (e : Ecc) : State :=
  let s := s.plainError d 7 pc false e
  let s := (List.range 8).foldl (fun (s : State) i =>
    match s.thread d (tile * 8 + i) with
    | none => s
    | some t => ((s.setThread d (tile * 8 + i) none).release t.buf).count MEM_CNT_TILE_UE (onDie d)) s
  s.latch MEM_TILE_OFF_V (place d (tile / 32)) (tile % 32)

/-- n issue slots of die d are used (Table 17.4, 0x001): one for each 8 mc of an instruction's count, and one where it raises
an exception (R294, R296). -/
def State.slotsUsed (s : State) (d n : Nat) : State := s.pmcEvent d 0 0x001 0xFF n

/-- Issue the instruction of a thread (R292, R306, R326 to R329): the word at its program counter, if it is one that
`isOp` accepts, with its slot count, the rules of its operands, and its effect. OVERRUN comes first, then ILLEGAL, which
an instruction at the bank's end that would continue raises in place of DEPTH or MEMERR (R308, R327). -/
def State.tileRun (s : State) (x : Issue) (isOp : Word → Bool) (slots : State → Thread → Word → Nat)
    (ok : Word → Bool) (body : State → Thread → Word → TileEnd) : Out := s.unit x.die.val 1 fun s =>
  let d := x.die.val
  let k := x.thread.val
  match s.thread d k with
  | none => s
  | some t =>
    let w := s.imemAt d (k / 8) t.bank t.pc
    if !isOp w then s
    else if eccBad x.fetch then s.tileFetchUe d (k / 8) t.pc x.fetch
    else
      let s := s.plainError d 7 t.pc false x.fetch
      let n := slots s t w
      let illegal := (s.slotsUsed d 1).tileExc d k t 3
      let on (m : Nat) (t' : Thread) (pc : Nat) (s' : State) : State :=
        if 8191 < pc then illegal else (s'.slotsUsed d m).setThread d k (some { t' with pc := pc, used := t.used + m })
      if t.budget < t.used + n then (s.slotsUsed d 1).tileExc d k t 1
      else if !ok w then illegal
      else match body s t w with
      | .go t' pc s' => on n t' pc s'
      | .took m t' pc s' => on m t' pc s'
      | .over s' => (s'.slotsUsed d n).setThread d k none
      | .exc cls s' => if cls = 2 && t.pc = 8191 then illegal else (s'.slotsUsed d 1).tileExc d k t cls
      | .err m s' => if t.pc = 8191 then illegal else (s'.slotsUsed d m).tileExc d k t 5
      | .wait s' => if t.pc = 8191 then illegal else s'

/-- A count of one slot (8 mc). -/
def slot1 (_ : State) (_ : Thread) (_ : Word) : Nat := 1
/-- A count of two slots (16 mc). -/
def slot2 (_ : State) (_ : Thread) (_ : Word) : Nat := 2

/-! ## ALU (R308) -/

/-- The word has opcode o. -/
def isOp (o : Nat) (w : Word) : Bool := Tile.op w == o
/-- The word has opcode 0x00 and function f. -/
def isFn (f : Nat) (w : Word) : Bool := Tile.op w == 0 && Tile.fn w == f
/-- The word is a shift by AMT of type k. -/
def isTy (k : Nat) (w : Word) : Bool := Tile.op w == 7 && Tile.ty w == k

/-- An instruction of format R: a result of ra and rb into rd, with flags. -/
def State.aluR (s : State) (x : Issue) (f : Nat) (r : Tile.Flags → Word → Word → Tile.Res) : Out :=
  s.tileRun x (isFn f) slot1 Tile.okR fun s t w =>
    .go (t.result (Tile.rd w) (r t.flags (t.reg (Tile.ra w)) (t.reg (Tile.rb w)))) (t.pc + 1) s

/-- An instruction of format I: a result of ra and IMM into rd, with flags. -/
def State.aluI (s : State) (x : Issue) (o : Nat) (ok : Word → Bool) (r : Tile.Flags → Word → Nat → Tile.Res) : Out :=
  s.tileRun x (isOp o) slot1 ok fun s t w =>
    .go (t.result (Tile.rd w) (r t.flags (t.reg (Tile.ra w)) (Tile.imm w))) (t.pc + 1) s

/-- An instruction of format S: a shift of ra by AMT into rd, with flags. -/
def State.aluS (s : State) (x : Issue) (k : Nat) (r : Tile.Flags → Word → Nat → Tile.Res) : Out :=
  s.tileRun x (isTy k) slot1 Tile.okS fun s t w =>
    .go (t.result (Tile.rd w) (r t.flags (t.reg (Tile.ra w)) (Tile.amt w))) (t.pc + 1) s

/-- A format without further rules. -/
def okAny (_ : Word) : Bool := true

/-- ADD (R308). -/
def execAdd (x : Issue) (s : State) : Out := s.aluR x 0x00 Tile.addRes
/-- SUB (R308). -/
def execSub (x : Issue) (s : State) : Out := s.aluR x 0x01 Tile.subRes
/-- AND (R308). -/
def execAnd (x : Issue) (s : State) : Out := s.aluR x 0x02 fun f a b => Tile.logicRes f (a &&& b)
/-- OR (R308). -/
def execOr (x : Issue) (s : State) : Out := s.aluR x 0x03 fun f a b => Tile.logicRes f (a ||| b)
/-- XOR (R308). -/
def execXor (x : Issue) (s : State) : Out := s.aluR x 0x04 fun f a b => Tile.logicRes f (a ^^^ b)
/-- SHL (R308). -/
def execShl (x : Issue) (s : State) : Out := s.aluR x 0x05 fun f a b => Tile.logicRes f (a <<< (b.toNat % 32))
/-- SHR (R308). -/
def execShr (x : Issue) (s : State) : Out := s.aluR x 0x06 fun f a b => Tile.logicRes f (a >>> (b.toNat % 32))
/-- SAR (R308). -/
def execSar (x : Issue) (s : State) : Out := s.aluR x 0x07 fun f a b => Tile.logicRes f (Tile.sar a (b.toNat % 32))
/-- MINU (R308). -/
def execMinu (x : Issue) (s : State) : Out := s.aluR x 0x08 fun f a b => Tile.logicRes f (if a ≤ b then a else b)
/-- MAXU (R308). -/
def execMaxu (x : Issue) (s : State) : Out := s.aluR x 0x09 fun f a b => Tile.logicRes f (if a ≤ b then b else a)
/-- CMP (R308): as SUB, without a result register. -/
def execCmp (x : Issue) (s : State) : Out :=
  s.tileRun x (isFn 0x0A) slot1 (fun w => Tile.okR w && Tile.rd0 w) fun s t w =>
    .go { t with flags := (Tile.subRes t.flags (t.reg (Tile.ra w)) (t.reg (Tile.rb w))).flags } (t.pc + 1) s
/-- MUL (R308). -/
def execMul (x : Issue) (s : State) : Out := s.aluR x 0x0B fun f a b => Tile.logicRes f (a * b)
/-- ADDI (R308): the immediate is sign-extended. -/
def execAddi (x : Issue) (s : State) : Out :=
  s.aluI x 0x01 okAny fun f a i => Tile.addRes f a ((BitVec.ofNat 16 i).signExtend 32)
/-- ANDI (R308). -/
def execAndi (x : Issue) (s : State) : Out :=
  s.aluI x 0x02 okAny fun f a i => Tile.logicRes f (a &&& BitVec.ofNat 32 i)
/-- ORI (R308). -/
def execOri (x : Issue) (s : State) : Out :=
  s.aluI x 0x03 okAny fun f a i => Tile.logicRes f (a ||| BitVec.ofNat 32 i)
/-- XORI (R308). -/
def execXori (x : Issue) (s : State) : Out :=
  s.aluI x 0x04 okAny fun f a i => Tile.logicRes f (a ^^^ BitVec.ofNat 32 i)
/-- CMPI (R308): the immediate is zero-extended. -/
def execCmpi (x : Issue) (s : State) : Out :=
  s.tileRun x (isOp 0x05) slot1 Tile.rd0 fun s t w =>
    .go { t with flags := (Tile.subRes t.flags (t.reg (Tile.ra w)) (BitVec.ofNat 32 (Tile.imm w))).flags } (t.pc + 1) s
/-- LUI (R308). -/
def execLui (x : Issue) (s : State) : Out :=
  s.aluI x 0x06 Tile.ra0 fun f _ i => Tile.logicRes f (BitVec.ofNat 32 i <<< 16)
/-- SHLI (R308). -/
def execShli (x : Issue) (s : State) : Out := s.aluS x 0 fun f a n => Tile.logicRes f (a <<< n)
/-- SHRI (R308). -/
def execShri (x : Issue) (s : State) : Out := s.aluS x 1 fun f a n => Tile.logicRes f (a >>> n)
/-- SARI (R308). -/
def execSari (x : Issue) (s : State) : Out := s.aluS x 2 fun f a n => Tile.logicRes f (Tile.sar a n)
/-- RORI (R308). -/
def execRori (x : Issue) (s : State) : Out := s.aluS x 3 fun f a n => Tile.logicRes f (a.rotateRight n)

/-! ## Bit fields (R308) -/

/-- The n low bits set. -/
def lowMask (n : Nat) : Word := BitVec.ofNat 32 (2 ^ n - 1)

/-- EXT (R308). -/
def execExt (x : Issue) (s : State) : Out :=
  s.tileRun x (isOp 0x08) slot1 Tile.okX fun s t w =>
    .go (t.setReg (Tile.rd w) ((t.reg (Tile.ra w) >>> Tile.pos w) &&& lowMask (Tile.amt w + 1))) (t.pc + 1) s

/-- DEP (R308): bits that would lie above bit 31 are dropped. -/
def execDep (x : Issue) (s : State) : Out :=
  s.tileRun x (isOp 0x09) slot1 Tile.okX fun s t w =>
    let m := lowMask (Tile.amt w + 1) <<< Tile.pos w
    .go (t.setReg (Tile.rd w) ((t.reg (Tile.rd w) &&& ~~~m) ||| ((t.reg (Tile.ra w) <<< Tile.pos w) &&& m))) (t.pc + 1) s

/-- HASH (R308). -/
def execHash (x : Issue) (s : State) : Out :=
  s.tileRun x (isOp 0x0A) slot1 (fun w => Tile.okL w && Tile.ka4 w && Tile.mn w == 0) fun s t w =>
    .go (t.setReg (Tile.rd w) (Tile.hashWords ((List.range 4).map (fun i => t.reg (Tile.ra w + i))))) (t.pc + 1) s

/-! ## Metadata and flags (R300 to R302, R308) -/

/-- MFM (R308). -/
def execMfm (x : Issue) (s : State) : Out :=
  s.tileRun x (isOp 0x0B) slot1 (fun w => Tile.okM w && Tile.ra0 w && Tile.dir w == 0) fun s t w =>
    .go (t.setReg (Tile.rd w) (t.mreg (Tile.mn w))) (t.pc + 1) s

/-- The RW bits of each metadata register (Table 7.1). -/
def metaMask (i : Nat) : Word :=
  if i = 5 then 0x000F01FF else if i = 6 then 0x01FF01FF else if i = 7 then 0xFF8000FF else if 11 ≤ i then 0xFFFFFFFF else 0

/-- MTM (R301, R308). -/
def execMtm (x : Issue) (s : State) : Out :=
  s.tileRun x (isOp 0x0C) slot1 (fun w => Tile.okM w && Tile.rd0 w && Tile.dir w == 0) fun s t w =>
    let v := t.reg (Tile.ra w)
    let i := Tile.mn w
    if i = 5 && (12 < bits v 19 16 || 256 < bits v 8 0) then .exc 2 s
    else if i = 6 && (256 < bits v 24 16 || 256 < bits v 8 0) then .exc 2 s
    else .go (t.setMreg i ((t.mreg i &&& ~~~metaMask i) ||| (v &&& metaMask i))) (t.pc + 1) s

/-- FLG with DIR 0 (R302). -/
def execFlgRead (x : Issue) (s : State) : Out :=
  s.tileRun x (fun w => isOp 0x0D w && Tile.dir w == 0) slot1 (fun w => Tile.okM w && Tile.ra0 w && Tile.mn w == 0)
    fun s t w => .go (t.setReg (Tile.rd w) (t.flags.setWidth 32)) (t.pc + 1) s

/-- FLG with DIR 1 (R302). -/
def execFlgWrite (x : Issue) (s : State) : Out :=
  s.tileRun x (fun w => isOp 0x0D w && Tile.dir w == 1) slot1 (fun w => Tile.okM w && Tile.rd0 w && Tile.mn w == 0)
    fun s t w => .go { t with flags := (t.reg (Tile.ra w)).setWidth 5 } (t.pc + 1) s

/-! ## Header window (R308, R309) -/

/-- The window address of LDH and STH (R308). -/
def winAddr (t : Thread) (w : Word) : Nat :=
  (t.reg (Tile.ra w)).toNat + Tile.off w + (if Tile.cRel w = 1 then t.cur else 0)

/-- LDH (R308, R309). -/
def execLdh (x : Issue) (s : State) : Out :=
  s.tileRun x (isOp 0x10) slot1 Tile.okH fun s t w =>
    let a := winAddr t w
    let n := Tile.size w
    if 256 < a + n then .exc 2 s
    else .go (t.setReg (Tile.rd w) (BitVec.ofNat 32 (beNat (slice t.h a n)))) (t.pc + 1) s

/-- STH (R308). -/
def execSth (x : Issue) (s : State) : Out :=
  s.tileRun x (isOp 0x11) slot1 Tile.okH fun s t w =>
    let a := winAddr t w
    let n := Tile.size w
    if 256 < a + n then .exc 2 s
    else .go { t with h := splice t.h a (beBytes n (t.reg (Tile.rd w)).toNat) } (t.pc + 1) s

/-- MOVH (R308): 1 to 32 bytes, as through a temporary buffer. -/
def execMovh (x : Issue) (s : State) : Out :=
  s.tileRun x (isOp 0x12) slot2 Tile.okX0 fun s t w =>
    let n := Tile.amt w + 1
    let dst := (t.reg (Tile.rd w)).toNat
    let src := (t.reg (Tile.ra w)).toNat
    if 256 < dst + n || 256 < src + n then .exc 2 s
    else .go { t with h := splice t.h dst (slice t.h src n) } (t.pc + 1) s

/-- NXT (R308). -/
def execNxt (x : Issue) (s : State) : Out :=
  s.tileRun x (isOp 0x13) slot1 (fun w => Tile.rd0 w && bits w 15 9 == 0) fun s t w =>
    let c := t.cur + (t.reg (Tile.ra w)).toNat + bits w 8 0
    let l := t.level + 1
    if 12 < l || 256 < c then .exc 2 s
    else .go (t.setMreg 5 (setBits (setBits (t.mreg 5) 8 0 c) 19 16 l)) (t.pc + 1) s

/-- CSUM (R308): sets Z. -/
def execCsum (x : Issue) (s : State) : Out :=
  s.tileRun x (isOp 0x14) slot2 Tile.okX0 fun s t w =>
    let n := Tile.amt w + 1
    let a := (t.reg (Tile.ra w)).toNat
    if 256 < a + n then .exc 2 s
    else
      let v := Tile.onesSum (bits (t.reg (Tile.rd w)) 15 0) (slice t.h a n)
      let t := t.setReg (Tile.rd w) (BitVec.ofNat 32 v)
      .go { t with flags := Tile.mkFlags (Tile.flagH t.flags) (Tile.flagV t.flags) (Tile.flagC t.flags)
                              (Tile.flagN t.flags) (v == 0) } (t.pc + 1) s

/-- CSI (R308): the checksum update of RFC 1624. -/
def execCsi (x : Issue) (s : State) : Out :=
  s.tileRun x (isOp 0x15) slot1 (fun w => Tile.okR w && Tile.fn w == 0) fun s t w =>
    let v := Tile.onesAdd (Tile.onesAdd (65535 - bits (t.reg (Tile.rd w)) 15 0) (65535 - bits (t.reg (Tile.ra w)) 15 0))
      (bits (t.reg (Tile.rb w)) 15 0)
    .go (t.setReg (Tile.rd w) (BitVec.ofNat 32 (65535 - v))) (t.pc + 1) s

/-! ## Control (R308) -/

/-- Bcc (R308): a target outside the bank raises ILLEGAL at the branch. -/
def execBcc (x : Issue) (s : State) : Out :=
  s.tileRun x (isOp 0x18) slot1 Tile.okB fun s t w =>
    if Tile.holds (Tile.cond w) t.flags then
      let tgt : Int := (t.pc : Int) + signed 16 (Tile.imm w)
      if tgt < 0 ∨ 8191 < tgt then .exc 3 s else .go t tgt.toNat s
    else .go t (t.pc + 1) s

/-- JAL (R308): rd takes pc + 1. -/
def execJal (x : Issue) (s : State) : Out :=
  s.tileRun x (isOp 0x19) slot1 Tile.okJ fun s t w =>
    .go (t.setReg (Tile.rd w) (BitVec.ofNat 32 (t.pc + 1))) (Tile.target w) s

/-- JR (R308): to ra[12:0]. -/
def execJr (x : Issue) (s : State) : Out :=
  s.tileRun x (isOp 0x1A) slot1 (fun w => Tile.okR w && Tile.rd0 w && Tile.rb w == 0 && Tile.fn w == 0) fun s t w =>
    .go t (bits (t.reg (Tile.ra w)) 12 0) s

/-! ## Memory (R316 to R318, R328) -/

/-- The 40-bit address of LDM and STM (Table 7.3). -/
def memAddr (t : Thread) (w : Word) : Nat := bits (t.reg (Tile.ra w)) 7 0 * 2 ^ 32 + (t.reg (Tile.rb w)).toNat

/-- An address that LDM and STM refuse (R316, R735, R745). -/
def addrIllegal (a : Nat) : Bool := a % 4 != 0 || 8 ≤ a / 2 ^ 36 || 0x800000000 ≤ a % 2 ^ 36

/-- The slots that the fit of LDM or STM is judged on (R328): the row of Table 7.6 that its address names. -/
def memSlots (write : Bool) (x : Issue) (s : State) (t : Thread) (w : Word) : Nat :=
  let a := memAddr t w
  if addrIllegal a then 1 else fitCount s.part (a / 2 ^ 36) write (hops x.die.val (a / 2 ^ 36)) / 8

/-- The slots up to the error response of a router (R30, R36, R145, R318). -/
def errSlots : Route → Nat
  | .secondDown _ _ => 7
  | .clear _ | .absent | .firstDown _ | .asleep _ => 2

/-- The slots that an access to memory took, from the mc of its response (R318). -/
def slotsOf (n : Nat) : Nat := (n + 7) / 8

/-- LDM and STM at an address (R316 to R318, R147): the access, on a state whose target answers, gives what the thread goes on
as, or an error response. One whose link is lost in flight is answered with an error after 4,096 mc, whether the target acted
or not. -/
def State.tileMem (s : State) (x : Issue) (a : Nat) (write : Bool) (f : State → Option Thread × State) : TileEnd :=
  let d := a / 2 ^ 36
  if addrIllegal a then .exc 3 s
  else match s.reach x.die.val d with
  | .error => .err (errSlots (s.route x.die.val d)) (s.refuseIfAbsent x.die.val d 2 write a)
  | .asleep _ => .wait (s.wakeRoute x.die.val d)
  | .open_ h =>
    if x.lost && h ≠ 0 then
      let (b, s) := s.draw Config.freeHit
      .err 512 (if b then (f s).2 else s)
    else
      let (n, s) := s.tileResp (s.region d (a % 2 ^ 36)) write h
      match f s with
      | (none, s) => .err (slotsOf n) s
      | (some t, s) => .took (slotsOf n) t (t.pc + 1) s

/-- LDM (R316 to R318). -/
def execLdm (x : Issue) (s : State) : Out :=
  s.tileRun x (isOp 0x24) (memSlots false x) (fun w => Tile.okR w && Tile.fn w == 0) fun s t w =>
    let a := memAddr t w
    s.tileMem x a false fun s =>
      match s.memRead (a / 2 ^ 36) (a % 2 ^ 36) 4 x.mem with
      | (none, s) => (none, s)
      | (some v, s) => (some (t.setReg (Tile.rd w) (BitVec.ofNat 32 v)), s)

/-- STM (R316 to R318): completes when the target acknowledges it. -/
def execStm (x : Issue) (s : State) : Out :=
  s.tileRun x (isOp 0x25) (memSlots true x) (fun w => Tile.okR w && Tile.fn w == 0) fun s t w =>
    let a := memAddr t w
    s.tileMem x a true fun s =>
      match s.memWrite (a / 2 ^ 36) (a % 2 ^ 36) 4 (t.reg (Tile.rd w)).toNat with
      | none => (none, s)
      | some s => (some t, s)

/-! ## Packet fate (R303, R304, R319 to R325, R347 to R349) -/

/-- A queue handle that ENQ, MIRROR and DFLT take (R319). -/
def handleOk (die mid queue : Nat) : Bool := die ≤ 5 && mid == 0 && (if die < 2 then decide (queue < 8192) else true)

/-- A queue handle in a register. -/
def regHandleOk (v : Word) : Bool := handleOk (bits v 31 28) (bits v 27 18) (bits v 17 0)

/-- The packet a thread sends on: the output packet with the thread's metadata. -/
def Thread.packet (t : Thread) : Pkt := { buf := t.buf, bytes := t.output, m := t.m }

/-- Send a forwarding command of an ENQ, MCAST or DFLT: of an ordered source it is held to D + ORDER_HOLD (R347), or,
past it, sent at once and counted late (R348). -/
def State.sendOrdered (s : State) (t : Thread) (f : Fwd) : State :=
  match t.hold with
  | none => s.launch f
  | some h =>
    if s.clk.mc < t.first + h then
      { s with pipe := { s.pipe with hold := s.pipe.hold ++ [{ f with launch := t.first + h }] } }
    else if s.clk.mc = t.first + h then s.launch f
    else (s.count DISP_CNT_ORDER_LATE (onDie f.from_)).launch f

/-- The enqueue command of a thread's output packet. -/
def State.enqOf (s : State) (x : Issue) (t : Thread) (die queue : Nat) : Fwd :=
  { from_ := x.die.val, tile := x.thread.val / 8, die := die, queue := queue, pkt := t.packet, launch := s.clk.mc }

/-- Send a packet to its reason's sluice (R324, R380). -/
def State.toSpill (s : State) (d reason : Nat) (t : Thread) : State :=
  let t := t.mark reason
  { s with pipe := { s.pipe with spill := s.pipe.spill ++ [Spill.mk d reason t.packet] } }

/-- Return a dropped packet's buffer and count its reason (R324). -/
def State.dropPkt (s : State) (d reason : Nat) (t : Thread) : State :=
  (s.release t.buf).count TILE_DROP_CNT (place d reason)

/-- ENQ (R304, R319, R320). -/
def execEnq (x : Issue) (s : State) : Out :=
  s.tileRun x (isOp 0x30) slot1 (fun w => Tile.okF w && Tile.arg w == 0) fun s t w =>
    let v := t.reg (Tile.ra w)
    if !t.outOk || !regHandleOk v then .exc 3 s
    else .over (s.sendOrdered t (s.enqOf x t (bits v 31 28) (bits v 17 0)))

/-- MCAST (R304, R321, R374). -/
def execMcast (x : Issue) (s : State) : Out :=
  s.tileRun x (isOp 0x31) slot1 (fun w => Tile.okF w && Tile.arg w == 0) fun s t w =>
    let v := t.reg (Tile.ra w)
    let die := bits v 31 28
    if !t.outOk || die < 2 || 5 < die || bits v 27 16 != 0 || 16384 ≤ bits v 15 0 then .exc 3 s
    else .over (s.sendOrdered t { s.enqOf x t die (bits v 15 0) with mcast := true })

/-- MIRROR (R304, R319, R322, R349): the first two of a pass send a copy; later ones are only counted. -/
def execMirror (x : Issue) (s : State) : Out :=
  s.tileRun x (isOp 0x32) slot2 (fun w => Tile.okF w && Tile.arg w == 0) fun s t w =>
    let v := t.reg (Tile.ra w)
    if !t.outOk || !regHandleOk v then .exc 3 s
    else if 2 ≤ t.mirrors then .go t (t.pc + 1) (s.count TILE_CNT_MIRROR_LIM (onDie x.die.val))
    else .go { t with mirrors := t.mirrors + 1 } (t.pc + 1)
      ((s.addHolds t.buf 1).launch (s.enqOf x t (bits v 31 28) (bits v 17 0)))

/-- The metadata of the next pass (R300, R323): the kept fields and those of the source keep their value, PASS and LEN
follow, every other field takes its Reset value (m10 is loaded again at dispatch, R345). -/
def Thread.nextMeta (t : Thread) : List Word :=
  let n := t.outLen
  let e := Nat.min n 256
  [setBits (setBits (t.mreg 0) 27 26 (t.pass + 1)) 13 0 n, t.mreg 1, t.mreg 2, t.mreg 3, t.mreg 4, 0,
   setBits (setBits 0 24 16 e) 8 0 e, t.mreg 7, 0, t.mreg 9, t.mreg 10, t.mreg 11, t.mreg 12, t.mreg 13, t.mreg 14, t.mreg 15]

/-- RECIRC (R304, R323, R372). -/
def execRecirc (x : Issue) (s : State) : Out :=
  s.tileRun x (isOp 0x33) slot1 (fun w => Tile.okF w && Tile.ra0 w && bits w 5 3 == 0) fun s t w =>
    if !t.outOk then .exc 3 s
    else if t.pass = 2 then .exc 4 s
    else
      let d := x.die.val
      let e : EddyPkt := { m := t.nextMeta, bytes := t.output, buf := t.buf, entry := bits w 2 0, src := t.src,
                           first := t.first, hold := t.hold, entries := t.entries }
      .over { s with pipe := { s.pipe with eddy := Tab.mod s.pipe.eddy [] d (fun l => l ++ [e]) } }

/-- PUNT (R304, R324). -/
def execPunt (x : Issue) (s : State) : Out :=
  s.tileRun x (isOp 0x34) slot1 (fun w => Tile.okF w && Tile.ra0 w && 8 ≤ Tile.arg w) fun s t w =>
    if !t.outOk then .exc 3 s else .over (s.toSpill x.die.val (Tile.arg w) t)

/-- DROP (R324). -/
def execDrop (x : Issue) (s : State) : Out :=
  s.tileRun x (isOp 0x35) slot1 (fun w => Tile.okF w && Tile.ra0 w && 8 ≤ Tile.arg w) fun s t w =>
    .over (s.dropPkt x.die.val (Tile.arg w) t)

/-- DFLT (R325, R352): the default action of m10. -/
def execDflt (x : Issue) (s : State) : Out :=
  s.tileRun x (isOp 0x36) slot1 (fun w => Tile.okF w && Tile.ra0 w && Tile.arg w == 0) fun s t _ =>
    let v := t.mreg 10
    let act := bits v 31 30
    let r := bits v 29 24
    if act = 0 then
      if !t.outOk || !handleOk (bits v 21 18) 0 (bits v 17 0) then .exc 3 s
      else .over (s.sendOrdered t (s.enqOf x t (bits v 21 18) (bits v 17 0)))
    else if act = 1 then if r < 8 then .exc 3 s else .over (s.dropPkt x.die.val r t)
    else if act = 2 then if r < 8 || !t.outOk then .exc 3 s else .over (s.toSpill x.die.val r t)
    else .exc 3 s

/-- RESERVED_WORD_ISSUE (R306): a reserved opcode or function counts as one slot and raises ILLEGAL. -/
def execReservedWordIssue (x : Issue) (s : State) : Out :=
  s.tileRun x Tile.reserved slot1 okAny fun s _ _ => .exc 3 s

end Sys2Proof.Machine
end

