-- ==== Sys2Proof/Machine/Lookup.lean ====
section
/-!
DEFINITION. The lookup engines, their entries and descriptors, the counters and the rule-set generations
(R310 to R315, R354 to R371 of 08_packet_pipeline.md and 07_rilonef_p.md).
-/
namespace Sys2Proof.Machine
open Reg

/-! ## Sizes (Table 8.5) -/

/-- Exact-match buckets of a die. -/
def emBuckets (d : Nat) : Nat := if d < 2 then 32768 else 131072
/-- Ternary entries of a die. -/
def tcEntries (d : Nat) : Nat := if d < 2 then 4096 else 16384
/-- Counter pairs of a die. -/
def cntPairs (d : Nat) : Nat := if d < 2 then 65536 else 262144

/-! ## Lookups (R310 to R313, R355 to R358) -/

/-- Entry index i of the exact-match engine of die d. -/
def State.emEntry (s : State) (d i : Nat) : EmEntry := Tab.get s.pipe.em {} (d * 2 ^ 19 + i)
/-- Replace an exact-match entry. -/
def State.setEm (s : State) (d i : Nat) (e : EmEntry) : State :=
  { s with pipe := { s.pipe with em := Tab.set s.pipe.em {} (d * 2 ^ 19 + i) e } }

/-- The eight entry indices that a lookup of hash h compares, in order (R356). -/
def emPlaces (base logNb : Nat) (h : Word) : List Nat :=
  let b0 := base + h.toNat % 2 ^ logNb
  let b1 := base + (h.rotateRight 16).toNat % 2 ^ logNb
  (List.range 4).map (fun w => b0 * 4 + w) ++ (List.range 4).map (fun w => b1 * 4 + w)

/-- An exact-match lookup (R356): the index and entry of the first hit. -/
def State.emLookup (s : State) (d t : Nat) (gen : Bool) (key : List Word) : Option (Nat × EmEntry) :=
  let c := s.rdEff LKP_EM_TBL (place d t)
  if bits c 31 31 = 0 then none
  else
    let k := BitVec.ofNat 128 (beNat ((key.map (fun w => beBytes 4 w.toNat)).flatten))
    ((emPlaces (bits c 16 0) (bits c 21 17) (Tile.hashWords key)).map (fun i => (i, s.emEntry d i))).find?
      (fun x => x.2.tbl == t && x.2.key == k && (if gen then x.2.g1 else x.2.g0))

/-- A ternary lookup (R357): the matching entry of lowest index. -/
def State.tcLookup (s : State) (d t : Nat) (gen : Bool) (key : BitVec 512) : Option (Nat × TcEntry) :=
  let c := s.rdEff LKP_TC_TBL (place d t)
  if bits c 31 31 = 0 then none
  else s.pipe.tc.find? fun x =>
    x.1 / 2 ^ 14 == d && bits c 13 0 ≤ x.1 % 2 ^ 14 && x.1 % 2 ^ 14 < bits c 13 0 + bits c 30 16 &&
    (x.2.key ^^^ key) &&& x.2.mask == 0 && (if gen then x.2.g1 else x.2.g0)

/-- The longest-prefix entries of a die. -/
def State.lpmList (s : State) (d : Nat) : List LpmEntry := Tab.get s.pipe.lpm [] d

/-- A prefix covers a key. -/
def LpmEntry.covers (e : LpmEntry) (key : BitVec 128) : Bool := (e.pfx ^^^ key) >>> (128 - e.len) == 0

/-- The longer of two matches. -/
def longer (a : Option LpmEntry) (b : LpmEntry) : Option LpmEntry :=
  match a with
  | none => some b
  | some x => if x.len < b.len then some b else some x

/-- A longest-prefix lookup (R358). -/
def State.lpmLookup (s : State) (d t : Nat) (gen : Bool) (key : BitVec 128) : Option LpmEntry :=
  let c := s.rdEff LKP_LPM_TBL (place d t)
  if bits c 31 31 = 0 then none
  else ((s.lpmList d).filter (fun e => e.tbl == t && e.v6 == (bits c 30 30 == 1) && e.covers key &&
    (if gen then e.v1 else e.v0))).foldl longer none

/-- Put a 64-bit result in rd and rd + 1 and set H (R310). -/
def Thread.hit (t : Thread) (rd : Nat) (hi lo : Word) (h : Bool) : Thread :=
  let t := (t.setReg rd hi).setReg (rd + 1) lo
  { t with flags := Tile.mkFlags h (Tile.flagV t.flags) (Tile.flagC t.flags) (Tile.flagN t.flags) (Tile.flagZ t.flags) }

/-- What a read of an exact-match entry does about the error it found (R527, R528): one that cannot be corrected clears the entry's
generation bits. -/
def State.emErr (s : State) (d i : Nat) (e : Ecc) : State :=
  let s := s.plainError d 4 i false e
  if eccBad e then s.setEm d i { s.emEntry d i with g1 := false, g0 := false } else s

/-- The entry in which an error of a lookup lies: the one that hits, or else the first that it compares (log 108). -/
def State.emFirst (s : State) (d t : Nat) (gen : Bool) (key : List Word) : Nat :=
  let c := s.rdEff LKP_EM_TBL (place d t)
  match s.emLookup d t gen key with
  | some x => x.1
  | none => (emPlaces (bits c 16 0) (bits c 21 17) (Tile.hashWords key)).headD 0

/-- LKE (R310, R356): a held lookup unit answers nothing (R682), and an entry with an uncorrectable error loses its generation bits and misses (R527). -/
def execLke (x : Issue) (s : State) : Out :=
  s.tileRun x (isOp 0x20) (fun _ _ _ => 3) (fun w => Tile.okL w && Tile.ka4 w && Tile.rdEven w) fun s t w =>
    if s.unitHeld x.die.val 2 then .wait s
    else
    let d := x.die.val
    let key := (List.range 4).map (fun i => t.reg (Tile.ra w + i))
    let s := s.emErr d (s.emFirst d (Tile.mn w) t.gen key) x.mem
    let s := s.pmcEvent d 0 0x006 0 1
    match s.emLookup d (Tile.mn w) t.gen key with
    | none => .go (t.hit (Tile.rd w) 0 0 false) (t.pc + 1) s
    | some (_, e) => .go (t.hit (Tile.rd w) ((e.data >>> 32).setWidth 32) (e.data.setWidth 32) true) (t.pc + 1)
        (s.pmcEvent d 0 0x007 0 1)

/-- LKT (R311, R357): `flipped` says that a match-array bit of the table has flipped and is not repaired, and the result
is then free (R532, log 2). -/
def execLkt (x : Issue) (flipped : Bool) (s : State) : Out :=
  s.tileRun x (isOp 0x21) (fun _ _ _ => 2)
    (fun w => Tile.okL w && (Tile.ra w == 0 || Tile.ra w == 16) && Tile.rdEven w) fun s t w =>
    if s.unitHeld x.die.val 2 then .wait s
    else
    let key := BitVec.ofNat 512 (beNat (((List.range 16).map (fun i => beBytes 4 (t.reg (Tile.ra w + i)).toNat)).flatten))
    let r := (s.tcLookup x.die.val (Tile.mn w) t.gen key).map (fun e => e.2.data)
    let r := if flipped then (if Config.freeHit s.fresh then some (Config.freeAction s.fresh) else none) else r
    let s := (if flipped then { s with fresh := s.fresh + 1 } else s).pmcEvent x.die.val 0 0x006 1 1
    match r with
    | none => .go (t.hit (Tile.rd w) 0 0 false) (t.pc + 1) s
    | some v => .go (t.hit (Tile.rd w) ((v >>> 32).setWidth 32) (v.setWidth 32) true) (t.pc + 1)
        (s.pmcEvent x.die.val 0 0x007 1 1)

/-- Replace the longest-prefix entries of a die, and show the entries in use (R360). -/
def State.setLpm (s : State) (d : Nat) (l : List LpmEntry) : State :=
  let s := { s with pipe := { s.pipe with lpm := Tab.set s.pipe.lpm [] d l } }
  (s.put LKP_LPM_USE_V (onDie d) (l.filter (fun e => !e.v6)).length).put LKP_LPM_USE6_V (onDie d)
    (l.filter (fun e => e.v6)).length

/-- The key of a longest-prefix lookup (R312): g[KA] for an IPv4 table, g[KA] to g[KA+3] for an IPv6 table. -/
def lpmKey (t : Thread) (v6 : Bool) (ka : Nat) : BitVec 128 :=
  if v6 then BitVec.ofNat 128 (beNat (((List.range 4).map (fun i => beBytes 4 (t.reg (ka + i)).toNat)).flatten))
  else BitVec.ofNat 128 ((t.reg ka).toNat * 2 ^ 96)

/-- LKL (R312, R358): course dies only; on a line die it raises ILLEGAL. An entry with an uncorrectable error loses its
generation bits (R527). -/
def execLkl (x : Issue) (s : State) : Out :=
  s.tileRun x (isOp 0x22) (fun _ _ _ => 4) (fun w => Tile.okL w && Tile.ka4 w && Tile.rdEven w && 2 ≤ x.die.val)
    fun s t w =>
    if s.unitHeld x.die.val 2 then .wait s
    else
    let d := x.die.val
    let v6 := bits (s.rdEff LKP_LPM_TBL (place d (Tile.mn w))) 30 30 == 1
    let key := lpmKey t v6 (Tile.ra w)
    let s := s.plainError d 4 0 false x.mem
    let s := match s.lpmLookup d (Tile.mn w) t.gen key with
      | none => s
      | some e => if eccBad x.mem then s.setLpm d ((s.lpmList d).erase e) else s
    let s := s.pmcEvent d 0 0x006 2 1
    match s.lpmLookup d (Tile.mn w) t.gen key with
    | none => .go (t.hit (Tile.rd w) 0 0 false) (t.pc + 1) s
    | some e => .go (t.hit (Tile.rd w) (if t.gen then e.res1 else e.res0) (BitVec.ofNat 32 e.len) true) (t.pc + 1)
        (s.pmcEvent d 0 0x007 2 1)

/-! ## Counters (R315, R361, R362) -/

/-- Counter pair i of die d: packets and bytes. -/
def State.pair (s : State) (d i : Nat) : Nat × Nat := Tab.get s.pipe.pairs (0, 0) (d * 2 ^ 18 + i)
/-- Replace a counter pair; the packet count is 40 bits and the byte count 56, and both wrap (R361). -/
def State.setPair (s : State) (d i p b : Nat) : State :=
  { s with pipe := { s.pipe with pairs := Tab.set s.pipe.pairs (0, 0) (d * 2 ^ 18 + i) (p % 2 ^ 40, b % 2 ^ 56) } }

/-- A read of a counter pair (R527, R528): a pair with an uncorrectable error is zeroed. -/
def State.pairErr (s : State) (d i : Nat) (e : Ecc) : State :=
  let s := s.plainError d 5 i false e
  if eccBad e then s.setPair d i 0 0 else s

/-- CNT (R315, R361): a CNT to a disabled bank has no effect; a pair with an uncorrectable error is zeroed (R527). -/
def execCnt (x : Issue) (s : State) : Out :=
  s.tileRun x (isOp 0x23) slot1 Tile.okC fun s t w =>
    let d := x.die.val
    let c := s.rdEff LKP_CNT_BANK (place d (Tile.bank w))
    if bits c 31 31 = 0 || s.unitHeld d 2 then .go t (t.pc + 1) s
    else
      let i := bits c 17 0 + (t.reg (Tile.rb w)).toNat % 2 ^ bits c 22 18
      let s := s.pairErr d i x.mem
      let p := s.pair d i
      .go t (t.pc + 1) (s.setPair d i (p.1 + 1) (p.2 + bits (t.reg (Tile.ra w)) 15 0))

/-- COUNTER_READ (R362, R527, R585): LKP.CNT_RD with GO, and CLR to zero the pair on the same edge. -/
def execCounterRead (x : Checked LcDie) (v : Word) (s : State) : Out := s.event fun s =>
  let d := x.at_
  let a := onDie d.val
  let s := s.fwWrite LKP_CNT_RD a v
  let i := s.get LKP_CNT_RD_INDEX a
  let s := s.pairErr d.val i x.e
  let p := s.pair d.val i
  let s := ((s.put LKP_CNT_PKT_HI_V a (p.1 / 2 ^ 32)).put LKP_CNT_PKT_LO_V a (p.1 % 2 ^ 32))
  let s := ((s.put LKP_CNT_BYTE_HI_V a (p.2 / 2 ^ 32)).put LKP_CNT_BYTE_LO_V a (p.2 % 2 ^ 32))
  if bits v 30 30 = 1 then s.setPair d.val i 0 0 else s

/-! ## Entry writes (R363 to R365) -/

/-- The staged exact-match entry (Table 8.7). -/
def State.emStaged (s : State) (d : Nat) : EmEntry :=
  let w (i : Nat) : Nat := (s.rd LKP_EM_STAGE (place d i)).toNat
  let c := s.rd LKP_EM_STAGE6 (onDie d)
  { g1 := bits c 31 31 == 1, g0 := bits c 30 30 == 1, tbl := bits c 19 16
    data := BitVec.ofNat 64 (w 4 * 2 ^ 32 + w 5)
    key := BitVec.ofNat 128 (((w 0 * 2 ^ 32 + w 1) * 2 ^ 32 + w 2) * 2 ^ 32 + w 3) }

/-- The staged ternary entry (R357). -/
def State.tcStaged (s : State) (d : Nat) : TcEntry :=
  let cat (r : Nat) : BitVec 512 := BitVec.ofNat 512 (beNat (((List.range 16).map
    (fun i => beBytes 4 (s.rd r (place d i)).toNat)).flatten))
  { g1 := s.is LKP_TC_CTL_G1 (onDie d), g0 := s.is LKP_TC_CTL_G0 (onDie d), key := cat LKP_TC_KEY, mask := cat LKP_TC_MASK
    data := BitVec.ofNat 64 ((s.rd LKP_TC_DATA (place d 0)).toNat * 2 ^ 32 + (s.rd LKP_TC_DATA (place d 1)).toNat) }

/-- EM_ENTRY_WRITE (R363, R365): an index beyond the engine names no entry. -/
def execEmEntryWrite (d : LcDie) (v : Word) (s : State) : Out := s.event fun s =>
  let a := onDie d.val
  let s := s.fwWrite LKP_EM_WR a v
  if s.is LKP_WR_STAT_EM_BUSY a then s.put LKP_WR_STAT_REJ a 1
  else if emBuckets d.val * 4 ≤ s.get LKP_EM_WR_INDEX a then s
  else
    let e := s.emStaged d.val
    let s := s.put LKP_WR_STAT_EM_BUSY a 1
    { s with pipe := { s.pipe with emBusy := Tab.set s.pipe.emBusy none d.val (some (s.get LKP_EM_WR_INDEX a, e)) } }

/-- EM_ENTRY_READ (R363, R365, R527). -/
def execEmEntryRead (x : Checked LcDie) (v : Word) (s : State) : Out := s.event fun s =>
  let d := x.at_
  let a := onDie d.val
  let s := s.fwWrite LKP_EM_WR a v
  if s.is LKP_WR_STAT_EM_BUSY a then s.put LKP_WR_STAT_REJ a 1
  else
    let s := s.emErr d.val (s.get LKP_EM_WR_INDEX a) x.e
    let e := s.emEntry d.val (s.get LKP_EM_WR_INDEX a)
    let ctl : Word := setBits (setBits (setBits 0 31 31 (b2n e.g1)) 30 30 (b2n e.g0)) 19 16 e.tbl
    let k := e.key.toNat
    let ws : List Nat := [k / 2 ^ 96, k / 2 ^ 64, k / 2 ^ 32, k, e.data.toNat / 2 ^ 32, e.data.toNat]
    ((List.zip (List.range 6) ws).foldl (fun (s : State) x => s.wr LKP_EM_STAGE (place d.val x.1) (BitVec.ofNat 32 x.2)) s).wr
      LKP_EM_STAGE6 a ctl

/-- TC_ENTRY_WRITE (R363, R365). -/
def execTcEntryWrite (d : LcDie) (v : Word) (s : State) : Out := s.event fun s =>
  let a := onDie d.val
  let s := s.fwWrite LKP_TC_WR a v
  if s.is LKP_WR_STAT_TC_BUSY a then s.put LKP_WR_STAT_REJ a 1
  else if tcEntries d.val ≤ s.get LKP_TC_WR_INDEX a then s
  else
    let e := s.tcStaged d.val
    let s := s.put LKP_WR_STAT_TC_BUSY a 1
    { s with pipe := { s.pipe with tcBusy := Tab.set s.pipe.tcBusy none d.val (some (s.get LKP_TC_WR_INDEX a, e)) } }

/-- TC_ENTRY_READ (R363, R365). -/
def execTcEntryRead (d : LcDie) (v : Word) (s : State) : Out := s.event fun s =>
  let a := onDie d.val
  let s := s.fwWrite LKP_TC_WR a v
  if s.is LKP_WR_STAT_TC_BUSY a then s.put LKP_WR_STAT_REJ a 1
  else
    let e := Tab.get s.pipe.tc {} (d.val * 2 ^ 14 + s.get LKP_TC_WR_INDEX a)
    let s := (List.range 16).foldl (fun (s : State) i =>
      (s.wr LKP_TC_KEY (place d.val i) ((e.key >>> (32 * (15 - i))).setWidth 32)).wr LKP_TC_MASK (place d.val i)
        ((e.mask >>> (32 * (15 - i))).setWidth 32)) s
    let s := (s.wr LKP_TC_DATA (place d.val 0) ((e.data >>> 32).setWidth 32)).wr LKP_TC_DATA (place d.val 1) (e.data.setWidth 32)
    (s.put LKP_TC_CTL_G1 a (b2n e.g1)).put LKP_TC_CTL_G0 a (b2n e.g0)

/-- LKP_ENTRY_WRITE_DONE (R364): the whole new entry is in place and BUSY falls. -/
def execLkpEntryWriteDone (d : LcDie) (ternary : Bool) (s : State) : Out := s.unit d.val 2 fun s =>
  let a := onDie d.val
  if ternary then
    match Tab.get s.pipe.tcBusy none d.val with
    | none => s
    | some (i, e) =>
      let s := s.put LKP_WR_STAT_TC_BUSY a 0
      { s with pipe := { s.pipe with tc := Tab.set s.pipe.tc {} (d.val * 2 ^ 14 + i) e
                                     tcBusy := Tab.set s.pipe.tcBusy none d.val none } }
  else
    match Tab.get s.pipe.emBusy none d.val with
    | none => s
    | some (i, e) =>
      let s := (s.put LKP_WR_STAT_EM_BUSY a 0).setEm d.val i e
      { s with pipe := { s.pipe with emBusy := Tab.set s.pipe.emBusy none d.val none } }

/-! ## Longest-prefix commands (R359, R360) -/

/-- Start a longest-prefix command (R359): the fields are written (R387); while a command runs, the GO is rejected. -/
def State.lpmGo (s : State) (d op : Nat) (v : Word) : State :=
  let a := onDie d
  let s := s.fwWrite LKP_LPM_CTL a v
  if s.is LKP_LPM_CTL_BUSY a then s.put LKP_LPM_CTL_STATUS a 3
  else
    let s := s.put LKP_LPM_CTL_BUSY a 1
    let t := s.get LKP_LPM_CTL_TBL a
    let v6 := s.isEff LKP_LPM_TBL_AF (place d t)
    let w (i : Nat) : Nat := (s.rd LKP_LPM_PFX (place d i)).toNat
    let n := s.get LKP_LPM_CTL_LEN a
    let raw : Nat := if v6 then ((w 0 * 2 ^ 32 + w 1) * 2 ^ 32 + w 2) * 2 ^ 32 + w 3 else w 0 * 2 ^ 96
    let c : LpmCmd :=
      { op := op, gen := s.is LKP_LPM_CTL_GEN a, tbl := t, v6 := v6, len := n
        pfx := (BitVec.ofNat 128 raw >>> (128 - n)) <<< (128 - n), res := s.rd LKP_LPM_RES a }
    { s with pipe := { s.pipe with lpmBusy := Tab.set s.pipe.lpmBusy none d (some c) } }

/-- LPM_SET (R359, R360). -/
def execLpmSet (d : CourseDie) (v : Word) (s : State) : Out := s.event fun s => s.lpmGo (courseIdx d) 0 v
/-- LPM_CLEAR (R359, R360). -/
def execLpmClear (d : CourseDie) (v : Word) (s : State) : Out := s.event fun s => s.lpmGo (courseIdx d) 1 v
/-- The entry a command names. -/
def LpmCmd.names (c : LpmCmd) (e : LpmEntry) : Bool :=
  e.tbl == c.tbl && e.v6 == c.v6 && e.len == c.len && e.pfx == c.pfx

/-- LPM_READ (R359, R527): an entry in which the read finds an uncorrectable error loses its generation bits. -/
def execLpmRead (x : Checked CourseDie) (v : Word) (s : State) : Out := s.event fun s =>
  let d := courseIdx x.at_
  let busy := s.is LKP_LPM_CTL_BUSY (onDie d)
  let s := s.lpmGo d 2 v
  if busy then s
  else
    let s := s.plainError d 4 0 false x.e
    match Tab.get s.pipe.lpmBusy none d with
    | some c => if eccBad x.e then s.setLpm d ((s.lpmList d).filter (fun y => !c.names y)) else s
    | none => s

/-- An entry with the result and valid bit of one generation set or cleared. -/
def LpmEntry.setGen (e : LpmEntry) (gen valid : Bool) (res : Word) : LpmEntry :=
  if gen then { e with res1 := res, v1 := valid } else { e with res0 := res, v0 := valid }

/-- The entries of a die after a command, its status, and the entry it read (R359, R360, Table 8.9). -/
def LpmCmd.run (c : LpmCmd) (l : List LpmEntry) : List LpmEntry × Nat × Option LpmEntry :=
  match l.find? c.names with
  | none =>
    if c.op = 0 then
      if (if c.v6 then 65536 else 262144) ≤ (l.filter (fun e => e.v6 == c.v6)).length then (l, 1, none)
      else
        let e : LpmEntry := { tbl := c.tbl, v6 := c.v6, pfx := c.pfx, len := c.len }
        (l ++ [e.setGen c.gen true c.res], 0, none)
    else (l, 2, none)
  | some e =>
    if c.op = 0 then (l.map (fun x => if c.names x then x.setGen c.gen true c.res else x), 0, none)
    else if !(if c.gen then e.v1 else e.v0) then (l, 2, none)
    else if c.op = 1 then
      let e' := e.setGen c.gen false (if c.gen then e.res1 else e.res0)
      (if e'.v0 || e'.v1 then l.map (fun x => if c.names x then e' else x) else l.filter (fun x => !c.names x), 0, none)
    else (l, 0, some e)

/-- LPM_COMMAND_DONE (R359): the effect becomes visible on one edge, and STATUS tells the result. -/
def execLpmCommandDone (d : CourseDie) (s : State) : Out := s.unit (courseIdx d) 2 fun s =>
  let d := courseIdx d
  let a := onDie d
  match Tab.get s.pipe.lpmBusy none d with
  | none => s
  | some c =>
    let (l, st, e) := c.run (s.lpmList d)
    let s := ((s.setLpm d l).put LKP_LPM_CTL_BUSY a 0).put LKP_LPM_CTL_STATUS a st
    let s := { s with pipe := { s.pipe with lpmBusy := Tab.set s.pipe.lpmBusy none d none } }
    match e with
    | none => s
    | some e =>
      let s := s.wr LKP_LPM_RES a (if c.gen then e.res1 else e.res0)
      (List.range 4).foldl (fun (s : State) i =>
        s.wr LKP_LPM_PFX (place d i) ((e.pfx >>> (32 * (3 - i))).setWidth 32)) s

/-! ## Descriptors and generations (R366 to R371) -/

/-- The registers of commit group LKP.TBL on a die. -/
def tblGroup (d : Nat) : List (Nat × Nat) :=
  ([LKP_EM_TBL, LKP_TC_TBL, LKP_LPM_TBL, LKP_CNT_BANK].map (fun r => (List.range 16).map (fun i => (r, place d i)))).flatten

/-- Every enabled descriptor of the shadow copies lies within its engine (R366). -/
def State.tblOk (s : State) (d : Nat) : Bool :=
  (List.range 16).all fun i =>
    let em := s.rd LKP_EM_TBL (place d i)
    let tc := s.rd LKP_TC_TBL (place d i)
    let cb := s.rd LKP_CNT_BANK (place d i)
    (bits em 31 31 == 0 || bits em 16 0 + 2 ^ bits em 21 17 ≤ emBuckets d) &&
    (bits tc 31 31 == 0 || (bits tc 30 16 != 0 && bits tc 13 0 + bits tc 30 16 ≤ tcEntries d)) &&
    (bits cb 31 31 == 0 || bits cb 17 0 + 2 ^ bits cb 22 18 ≤ cntPairs d)

/-- TBL_COMMIT (R366). -/
def execTblCommit (d : LcDie) (s : State) : Out := s.event fun s =>
  if s.tblOk d.val then s.commitAll (tblGroup d.val) else s.put LKP_TBL_STAT_REJ (onDie d.val) 1

/-- The packets on a die stamped with a generation: in its threads, its eddy and its delta (R370). -/
def State.genRefs (s : State) (d : Nat) (gen : Bool) : Nat :=
  let is (m : List Word) : Bool := (bits (m.getD 0 0) 25 25 == 1) == gen
  (s.pipe.threads.filter (fun x => x.1 / 1024 == d && (match x.2 with | none => false | some t => is t.m))).length +
  ((Tab.get s.pipe.eddy [] d).filter (fun e => is e.m)).length +
  ((Tab.get s.pipe.delta [] d).filter (fun e => is e.2.m)).length

/-- The generation stamped at first dispatch on a die. -/
def State.activeGen (s : State) (d : Nat) : Bool := s.is LKP_GEN_STAT_ACTIVE (onDie d)

/-- DRAINED falls while packets stamped with the inactive generation remain (Table 8.12). -/
def State.genFall (s : State) (d : Nat) : State :=
  if s.genRefs d (!s.activeGen d) = 0 then s else s.put LKP_GEN_STAT_DRAINED (onDie d) 0

/-- The generation in effect becomes NEXT (R367). -/
def State.genSwitch (s : State) (d next : Nat) : State :=
  ((s.put LKP_GEN_STAT_ACTIVE (onDie d) next).put LKP_GEN_STAT_ARMED (onDie d) 0).genFall d

/-- A GO of LKP.GEN_CTL that R369 rejects. -/
def State.genRejects (s : State) (d : Nat) : Bool :=
  let a := onDie d
  s.get LKP_GEN_CTL_NEXT a == s.get LKP_GEN_STAT_ACTIVE a || !s.is LKP_GEN_STAT_DRAINED a || s.is LKP_GEN_STAT_ARMED a

/-- GEN_SWITCH_NOW (R367, R369). -/
def execGenSwitchNow (d : LcDie) (v : Word) (s : State) : Out := s.event fun s =>
  let a := onDie d.val
  let s := s.fwWrite LKP_GEN_CTL a (setBits v 30 30 0)
  if s.genRejects d.val then s.put LKP_GEN_STAT_REJ a 1
  else ((s.commit LKP_GEN_CTL a).commit LKP_GEN_AT a).genSwitch d.val (s.get LKP_GEN_CTL_NEXT a)

/-- GEN_SWITCH_ARM (R367 to R369). -/
def execGenSwitchArm (d : LcDie) (v : Word) (s : State) : Out := s.event fun s =>
  let a := onDie d.val
  let s := s.fwWrite LKP_GEN_CTL a (setBits v 30 30 1)
  if s.genRejects d.val then s.put LKP_GEN_STAT_REJ a 1
  else
    let ahead := ((s.rd LKP_GEN_AT a) - BitVec.ofNat 32 s.clk.mc).toNat
    if 1 ≤ ahead ∧ ahead < 2 ^ 31 then
      ((s.commit LKP_GEN_CTL a).commit LKP_GEN_AT a).put LKP_GEN_STAT_ARMED a 1
    else s.put LKP_GEN_STAT_MISSED a 1

/-- GEN_SWITCH_ARMED (R367): on the edge where E mod 2^32 is GEN_AT. -/
def execGenSwitchArmed (d : LcDie) (s : State) : Out := s.unit d.val 2 fun s =>
  let a := onDie d.val
  if s.is LKP_GEN_STAT_ARMED a && BitVec.ofNat 32 s.clk.mc == s.rdEff LKP_GEN_AT a then
    s.genSwitch d.val (s.getEff LKP_GEN_CTL_NEXT a)
  else s

/-- GEN_DRAINED (R370, Table 8.12). -/
def execGenDrained (d : LcDie) (s : State) : Out := s.unit d.val 2 fun s =>
  let a := onDie d.val
  if !s.is LKP_GEN_STAT_DRAINED a && s.genRefs d.val (!s.activeGen d.val) == 0 then
    (s.put LKP_GEN_STAT_DRAINED a 1).put LKP_GEN_STAT_DRAIN_EVT a 1
  else s

end Sys2Proof.Machine
end

