-- ==== Sys2Proof/Machine/Pipeline.lean ====
section
/-!
DEFINITION. Dispatch and the order hold, tile images, the delta and the spillway (R331 to R353, R372 to R385 of
07_rilonef_p.md and 08_packet_pipeline.md).
-/
namespace Sys2Proof.Machine
open Reg

/-! ## Dispatch (R292, R293, R339 to R346, R764) -/

/-- The key of a dispatch source. -/
def srcKey (d k : Nat) : Nat := d * 32 + k

/-- Hand a packet to a dispatch source (R339); it enters the FIFO when it arrives there. -/
def State.toSource (s : State) (d k : Nat) (p : SrcPkt) : State :=
  { s with pipe := { s.pipe with coming := Tab.mod s.pipe.coming [] (srcKey d k) (fun l => l ++ [p]) } }

/-- DISPATCH_SOURCE_ARRIVAL (R339 to R341): a PON frame wakes a line die that is not in RUN (R676). -/
def execDispatchSourceArrival (d : LcDie) (k : Fin 32) (s : State) : Out := s.island d.val 0 fun s =>
  let key := srcKey d.val k.val
  match Tab.get s.pipe.coming [] key with
  | [] => s
  | p :: rest =>
    let s := { s with pipe := { s.pipe with coming := Tab.set s.pipe.coming [] key rest } }
    let s := if d.val < 2 && k.val < 2 then s.wakeReq d.val 5 (2 * d.val + k.val) else s
    let q := Tab.get s.pipe.fifo [] key
    if !s.is DISP_SRC_CFG_EN (place d.val k.val) then (s.release p.buf).count DISP_CNT_DIS (place d.val k.val)
    else if 32 ≤ q.length then (s.release p.buf).count DISP_CNT_FULL (place d.val k.val)
    else { s with pipe := { s.pipe with fifo := Tab.set s.pipe.fifo [] key (q ++ [p]) } }

/-- The tiles of a die. -/
def tilesOf (d : Nat) : Nat := threadsOf d / 8

/-- The thread of a tile whose issue slot is 4 mc after edge E (R292, R293). -/
def slotThread (d tile e : Nat) : Nat := (e + 4 + 8 - Config.tilePhase d tile % 8) % 8

/-- The first tile, after the one served last, with an idle thread whose slot is 4 mc ahead and that is not off (R343,
R533), with that thread. Before the first dispatch the rotation starts at tile 0 (log 8). -/
def State.pickThread (s : State) (d : Nat) : Option (Nat × Nat) :=
  let n := tilesOf d
  let last := Tab.get s.pipe.lastTile (n - 1) d
  let order := (List.range n).map (fun i => (last + 1 + i) % n)
  (order.find? (fun j => !bitOf (s.get MEM_TILE_OFF_V (place d (j / 32))) (j % 32) &&
    (s.thread d (j * 8 + slotThread d j s.clk.mc)).isNone)).map (fun j => (j, j * 8 + slotThread d j s.clk.mc))

/-- The first source, in rotation after the source served last, with a packet (R342; log 8 for the first). -/
def State.pickSource (s : State) (d : Nat) : Option (Nat × SrcPkt) :=
  let last := Tab.get s.pipe.lastSrc 31 d
  (((List.range 32).map (fun i => (last + 1 + i) % 32)).filterMap
    (fun k => ((Tab.get s.pipe.fifo [] (srcKey d k)).head?).map (fun p => (k, p)))).head?

/-- m6 at the start of a pass (Table 7.1). -/
def freshM6 (n : Nat) : Word := setBits (setBits 0 24 16 (Nat.min n 256)) 8 0 (Nat.min n 256)

/-- The metadata of a first pass (R300, R345, R764). -/
def State.firstMeta (s : State) (d k : Nat) (p : SrcPkt) : List Word :=
  let m0 : Word := setBits (setBits (setBits (setBits 0 31 28 p.kind) 25 25 (s.get LKP_GEN_STAT_ACTIVE (onDie d)))
    24 24 (s.getEff TILE_CFG_BANK (onDie d))) 13 0 p.bytes.length
  let m1 : Word := setBits (setBits (setBits 0 31 24 p.src) 23 16 p.stream) 15 0 p.tag
  [m0, m1, Config.bufHandle p.buf, setBits 0 29 0 p.ns, BitVec.ofNat 32 p.sec, 0, freshM6 p.bytes.length, 0, 0, p.m9,
   s.rd DISP_DEFAULT (place d k), 0, 0, 0, 0, 0]

/-- The entries in effect on a die (R331, R332). -/
def State.entries (s : State) (d : Nat) : List Nat := (List.range 8).map (fun k => s.getEff TILE_ENTRY_PC (place d k))

/-- A thread at the start of a pass (R299, R328): at an entry of those that its packet was first dispatched under (R332). -/
def State.startThread (s : State) (d : Nat) (m : List Word) (bytes : List Byte) (buf entry src first : Nat)
    (hold : Option Nat) (entries : List Nat) : Thread :=
  { g := List.replicate 32 0, h := slice bytes 0 256, m := m, flags := 0
    pc := entries.getD entry 0, budget := s.getEff TILE_CFG_BUDGET (onDie d), used := 0, mirrors := 0
    bytes := bytes, buf := buf, src := src, first := first, hold := hold, entries := entries }

/-- A packet that an uncorrectable error hits as it leaves its store is discarded (R527). -/
def State.storeDrop (s : State) (d buf : Nat) (e : Ecc) : State := (s.storeError d false e).release buf

/-- DISPATCH (R342, R343, R345, R346, R527): the eddy's oldest packet, or else the head packet of a source. -/
def execDispatch (x : Checked LcDie) (s : State) : Out := s.unit x.at_.val 0 fun s =>
  let d := x.at_.val
  let bad := eccBad x.e
  match s.pickThread d with
  | none => s
  | some (tile, k) =>
    let mark (s : State) : State := { s with pipe := { s.pipe with lastTile := Tab.set s.pipe.lastTile (tilesOf d - 1) d tile } }
    match Tab.get s.pipe.eddy [] d with
    | e :: rest =>
      let m := listSet e.m 10 (s.rd DISP_DEFAULT (place d e.src))
      let s := { s with pipe := { s.pipe with eddy := Tab.set s.pipe.eddy [] d rest } }
      if bad then s.storeDrop d e.buf x.e
      else
      let s := s.storeError d false x.e
      let s := if bits (m.getD 0 0) 27 26 = 1 then s.count EDDY_CNT_PASS1 (onDie d) else s.count EDDY_CNT_PASS2 (onDie d)
      (mark (s.pmcEvent d 0 0x004 0xFF 1)).setThread d k (some (s.startThread d m e.bytes e.buf e.entry e.src e.first e.hold e.entries))
    | [] =>
      if !s.is DISP_CFG_RUN (onDie d) then s
      else match s.pickSource d with
      | none => s
      | some (src, p) =>
        let s := { s with pipe := { s.pipe with
          fifo := Tab.mod s.pipe.fifo [] (srcKey d src) List.tail, lastSrc := Tab.set s.pipe.lastSrc 31 d src } }
        if bad then s.storeDrop d p.buf x.e
        else
        let s := s.storeError d false x.e
        let hold := if s.is DISP_SRC_CFG_ORDER (place d src) then some (s.get DISP_CFG_ORDER_HOLD (onDie d)) else none
        (mark (s.pmcEvent d 0 0x003 src 1)).setThread d k
          (some (s.startThread d (s.firstMeta d src p) p.bytes p.buf p.kind src s.clk.mc hold (s.entries d)))

/-- DISP_RUN (R346): a write of DISP.CFG. Packets in threads and in the eddy finish their passes. -/
def execDispRun (d : LcDie) (v : Word) (s : State) : Out := s.event fun s => s.fwWrite DISP_CFG (onDie d.val) v

/-- The command of a list with the earliest launch edge; of two, the earlier of the list. -/
def firstLaunch : List Fwd → Option Fwd
  | [] => none
  | a :: t => match firstLaunch t with
    | none => some a
    | some b => if b.launch < a.launch then some b else some a

/-- ORDER_HOLD_LAUNCH (R347, R527): the held command of the die whose launch edge comes first leaves once that edge has come. -/
def execOrderHoldLaunch (x : Checked LcDie) (s : State) : Out := s.unit x.at_.val 0 fun s =>
  let d := x.at_.val
  match firstLaunch (s.pipe.hold.filter (fun f => f.from_ == d)) with
  | none => s
  | some f =>
    if s.clk.mc < f.launch then s
    else
      let s := { s with pipe := { s.pipe with hold := s.pipe.hold.erase f } }
      if eccBad x.e then s.storeDrop d f.pkt.buf x.e else (s.storeError d false x.e).launch f

/-! ## Images and banks (R331 to R337) -/

/-- TILE_COMMIT (R332): TILE.CFG and TILE.ENTRY[0] to TILE.ENTRY[7]. -/
def execTileCommit (d : LcDie) (s : State) : Out := s.event fun s =>
  let s := s.commitAll ((TILE_CFG, onDie d.val) :: (List.range 8).map (fun k => (TILE_ENTRY, place d.val k)))
  s.put TILE_BANK_STAT_ACTIVE (onDie d.val) (s.getEff TILE_CFG_BANK (onDie d.val))

/-- The packets of a die stamped with a bank: in its threads and its eddy (R335). -/
def State.bankRefs (s : State) (d bank : Nat) : Nat :=
  let is (m : List Word) : Bool := bits (m.getD 0 0) 24 24 == bank
  (s.pipe.threads.filter (fun x => x.1 / 1024 == d && (match x.2 with | none => false | some t => is t.m))).length +
  ((Tab.get s.pipe.eddy [] d).filter (fun e => is e.m)).length

/-- The bank that TILE.CFG.BANK in effect does not name (R333). -/
def State.inactiveBank (s : State) (d : Nat) : Nat := 1 - s.getEff TILE_CFG_BANK (onDie d)

/-- IMEM_DATA_WRITE (R333, R334, R336). -/
def execImemDataWrite (d : LcDie) (v : Word) (s : State) : Out := s.event fun s =>
  let a := onDie d.val
  let b := s.inactiveBank d.val
  if s.bankRefs d.val b != 0 || s.is TILE_IMEM_STAT_CHK_BUSY a then s.put TILE_IMEM_STAT_REJ a 1
  else
    let k := s.get TILE_IMEM_ADDR_ADDR a
    let s := { s with pipe := { s.pipe with
      imem := Tab.set s.pipe.imem none (d.val * 16384 + b * 8192 + k) (some v) } }
    if s.is TILE_IMEM_ADDR_INC a then s.put TILE_IMEM_ADDR_ADDR a ((k + 1) % 8192) else s

/-- The CRC of the first n words of a bank of a tile (R336). -/
def State.imemCrc (s : State) (d tile bank n : Nat) : Word :=
  Tile.crcIeee ((List.range n).map (fun i => leBytes 4 (s.imemAt d tile bank i).toNat)).flatten

/-- IMEM_CHECK (R336): the tiles of a die can differ only in words that nothing has written. The CRC covers the words as they stand at the GO. -/
def execImemCheck (d : LcDie) (v : Word) (s : State) : Out := s.event fun s =>
  let a := onDie d.val
  let s := s.fwWrite TILE_IMEM_CHK a v
  if s.is TILE_IMEM_STAT_CHK_BUSY a then s.put TILE_IMEM_STAT_REJ a 1
  else
    let s := s.put TILE_IMEM_STAT_CHK_BUSY a 1
    let n := s.get TILE_IMEM_CHK_LEN a
    let crc (j : Nat) : Word := s.imemCrc d.val j (s.inactiveBank d.val) n
    let same := (List.range n).all (fun i => (s.imemStored d.val (s.inactiveBank d.val) i).isSome) ||
      (List.range (tilesOf d.val)).all (fun j => crc j == crc 0)
    { s with pipe := { s.pipe with check := Tab.set s.pipe.check none d.val (some (crc 0, !same)) } }

/-- IMEM_CHECK_DONE (R336). -/
def execImemCheckDone (d : LcDie) (s : State) : Out := s.unit d.val 1 fun s =>
  let a := onDie d.val
  match Tab.get s.pipe.check none d.val with
  | none => s
  | some (c, differ) =>
    let s := { s with pipe := { s.pipe with check := Tab.set s.pipe.check none d.val none } }
    (((s.wr TILE_IMEM_CRC a c).put TILE_IMEM_STAT_MISMATCH a (b2n differ)).put TILE_IMEM_STAT_DONE a 1).put TILE_IMEM_STAT_CHK_BUSY a 0

/-! ## The delta (R374 to R379) -/

/-- DELTA_ARRIVAL (R375): the queue of 512 packets, in arrival order. -/
def execDeltaArrival (d : CourseDie) (s : State) : Out := s.unit (courseIdx d) 2 fun s =>
  let d := courseIdx d
  match s.takeFlight (fun f => f.mcast && f.die == d) with
  | none => s
  | some (f, s) =>
    let q := Tab.get s.pipe.delta [] d
    if 512 ≤ q.length then (s.count DELTA_CNT_FULL (onDie d)).release f.pkt.buf
    else ({ s with pipe := { s.pipe with delta := Tab.set s.pipe.delta [] d (q ++ [(f.queue, f.pkt)]) } }).genFall d

/-- A group's list for a generation (Table 8.13): its first copy entry and the number of copies, if it is valid. -/
def groupList (e : BitVec 64) (gen : Bool) : Option (Nat × Nat) :=
  let h : Word := if gen then (e >>> 32).setWidth 32 else e.setWidth 32
  if bits h 31 31 = 1 then some (bits h 16 0, bits h 30 24) else none

/-- The copy entries of a list, wrapping modulo 131,072 (R374). -/
def State.copyList (s : State) (d first n : Nat) : List Word :=
  (List.range n).map (fun i => Tab.get s.pipe.copies 0 (d * 2 ^ 17 + (first + i) % 2 ^ 17))

/-- A copy that would return to its packet's source port (R377). -/
def suppressed (p : Pkt) (e : Word) : Bool :=
  bits e 27 27 == 1 && bits (p.m.getD 0 0) 31 28 == 0 && 2 ≤ bits e 31 28 &&
  16 * (bits e 31 28 - 2) + bits e 17 0 / 16384 == bits (p.m.getD 1 0) 31 24

/-- The packet of a copy: its class replaced under CLS_EN (Table 8.14). -/
def copyPkt (p : Pkt) (e : Word) : Pkt :=
  if bits e 26 26 = 1 then { p with m := listSet p.m 7 (setBits (p.m.getD 7 0) 31 29 (bits e 25 23)) } else p

/-- A delta group without its two generation bits (Table 8.13). -/
def groupClear (e : BitVec 64) : BitVec 64 := e &&& ~~~(1#64 <<< 63 ||| 1#64 <<< 31)

/-- A group that a read with an uncorrectable error hits loses its generation bits, and misses (R527). -/
def State.groupLost (s : State) (d g : Nat) : State :=
  { s with pipe := { s.pipe with groups := Tab.mod s.pipe.groups 0 (d * 2 ^ 14 + g) groupClear } }

/-- DELTA_ACCEPT (R376, R377, R379, R527): one copy for each entry of the list that is neither suppressed nor bad. A copy entry
has no generation bits of its own: an uncorrectable error in one makes the group miss (log 108). -/
def execDeltaAccept (x : DeltaRead) (s : State) : Out := s.unit (courseIdx x.die) 2 fun s =>
  let d := courseIdx x.die
  match Tab.get s.pipe.delta [] d with
  | [] => s
  | (g, p) :: rest =>
    let s := { s with pipe := { s.pipe with delta := Tab.set s.pipe.delta [] d rest } }
    if eccBad x.queue then s.storeDrop d p.buf x.queue
    else
    let s := ((s.storeError d false x.queue).plainError d 4 g false x.group).plainError d 4 0 false x.copy
    let s := if eccBad x.group || eccBad x.copy then s.groupLost d g else s
    let gen := bits (p.m.getD 0 0) 25 25 == 1
    let l := match groupList (Tab.get s.pipe.groups 0 (d * 2 ^ 14 + g)) gen with
      | none => []
      | some (f, n) => s.copyList d f n
    let okCopy (e : Word) : Bool := handleOk (bits e 31 28) 0 (bits e 17 0)
    let live := l.filter (fun e => !suppressed p e)
    let s := s.wr DELTA_CNT_BAD_COPY (onDie d)
      (s.rd DELTA_CNT_BAD_COPY (onDie d) + BitVec.ofNat 32 (live.filter (fun e => !okCopy e)).length)
    let send := live.filter okCopy
    if send.isEmpty then (s.release p.buf).count DELTA_CNT_EMPTY (onDie d)
    else
      let s := (s.addHolds p.buf (send.length - 1)).pmcEvent d 0 0x00E 0xFF send.length
      let first := Nat.max (s.clk.mc + 4) (Tab.get s.pipe.lastCopy 0 d + 1)
      let s := { s with pipe := { s.pipe with lastCopy := Tab.set s.pipe.lastCopy 0 d (first + send.length - 1) } }
      (List.zip (List.range send.length) send).foldl (fun (s : State) x =>
        s.launch { from_ := d, copy := true, die := bits x.2 31 28, queue := bits x.2 17 0, pkt := copyPkt p x.2
                   launch := first + x.1 }) s

/-- DELTA_GROUP_WRITE (R374, Table 8.13). -/
def execDeltaGroupWrite (d : CourseDie) (v : Word) (s : State) : Out := s.event fun s =>
  let a := onDie (courseIdx d)
  let s := s.fwWrite DELTA_GRP_WR a v
  let e := BitVec.ofNat 64 ((s.rd DELTA_GRP_STAGE1 a).toNat * 2 ^ 32 + (s.rd DELTA_GRP_STAGE0 a).toNat)
  { s with pipe := { s.pipe with groups := Tab.set s.pipe.groups 0 (courseIdx d * 2 ^ 14 + s.get DELTA_GRP_WR_INDEX a) e } }

/-- DELTA_GROUP_READ (R374, R527). -/
def execDeltaGroupRead (x : Checked CourseDie) (v : Word) (s : State) : Out := s.event fun s =>
  let d := courseIdx x.at_
  let a := onDie d
  let s := s.fwWrite DELTA_GRP_WR a v
  let g := s.get DELTA_GRP_WR_INDEX a
  let s := s.plainError d 4 g false x.e
  let s := if eccBad x.e then s.groupLost d g else s
  let e := Tab.get s.pipe.groups 0 (d * 2 ^ 14 + g)
  (s.wr DELTA_GRP_STAGE1 a ((e >>> 32).setWidth 32)).wr DELTA_GRP_STAGE0 a (e.setWidth 32)

/-- DELTA_COPY_WRITE (R374, Table 8.14): one copy entry at CPY_WR_ADDR. -/
def execDeltaCopyWrite (d : CourseDie) (v : Word) (s : State) : Out := s.event fun s =>
  let a := onDie (courseIdx d)
  let s := s.fwWrite DELTA_CPY_WR_DATA a v
  { s with pipe := { s.pipe with
      copies := Tab.set s.pipe.copies 0 (courseIdx d * 2 ^ 17 + s.get DELTA_CPY_WR_ADDR_V a) (s.rd DELTA_CPY_WR_DATA a) } }

/-! ## The spillway (R380 to R385) -/

/-- The key of a spillway sluice. -/
def sluiceKey (d r : Nat) : Nat := d * 64 + r
/-- The credit of a sluice at cold reset (R382): BURST × 1,000,000. -/
def fullCredit : Nat := 0x40 * 1000000
/-- The credit of a spillway sluice (R381). -/
def State.credit (s : State) (d r : Nat) : Nat := Tab.get s.pipe.credit fullCredit (sluiceKey d r)
/-- Replace the credit of a spillway sluice. -/
def State.setCredit (s : State) (d r v : Nat) : State :=
  { s with pipe := { s.pipe with credit := Tab.set s.pipe.credit fullCredit (sluiceKey d r) v } }

/-- A spillway record (Table 8.17). -/
def spillRecord (d reason : Nat) (seq : Word) (p : Pkt) : List Byte :=
  let w0 : Word := setBits (setBits (setBits 0 31 28 d) 27 22 reason) 13 0 p.bytes.length
  leBytes 4 w0.toNat ++ leBytes 4 seq.toNat ++ List.replicate 8 0 ++
    ((List.range 16).map (fun i => leBytes 4 (p.m.getD i 0).toNat)).flatten ++ p.bytes

/-- A DMA channel of a die. -/
def State.dmaCh (s : State) (d ch : Nat) : DmaCh := Tab.get s.dma {} (d * 32 + ch)
/-- Replace a DMA channel. -/
def State.setDma (s : State) (d ch : Nat) (x : DmaCh) : State := { s with dma := Tab.set s.dma {} (d * 32 + ch) x }

/-- Offer a record to a DMA channel (R596, R611): `buf` is the buffer to free once it is written or dropped, or 0. -/
def State.offer (s : State) (d ch : Nat) (bytes : List Byte) (buf : Nat) (mgt : Bool) : State :=
  let a := place d ch
  let x := s.dmaCh d ch
  if s.get DMA_STAT_STATE a = 0 || s.getEff DMA_CFG_MODE a != 1 then (s.release buf).count DMA_CNT_OFF a
  else if 16 ≤ x.store.length || 32768 < x.store.foldl (fun n r => n + r.bytes.length) 0 + bytes.length then
    (s.release buf).count DMA_CNT_IN_FULL a
  else s.setDma d ch { x with store := x.store ++ [{ bytes := bytes, buf := buf, mgt := mgt }] }

/-- SPILLWAY_ARRIVAL (R380, R381, R383, R384): the die's oldest spilled packet meets the sluice of its reason. -/
def execSpillwayArrival (d : LcDie) (s : State) : Out := s.event fun s =>
  let d := d.val
  match s.pipe.spill.find? (fun x => x.die == d) with
  | none => s
  | some x =>
    let s := { s with pipe := { s.pipe with spill := s.pipe.spill.erase x } }
    let at_ := place d x.reason
    let c := s.credit d x.reason
    if !s.is SPW_MAP_EN at_ || c < 1000000 then (s.release x.pkt.buf).count SPW_CNT_DROP at_
    else
      let q : Word := Tab.get s.pipe.seq 0 d
      let s := (s.setCredit d x.reason (c - 1000000)).count SPW_CNT_PASS at_
      let s := { s with pipe := { s.pipe with seq := Tab.set s.pipe.seq 0 d (q + 1) } }
      (s.pmcEvent d 0 0x005 x.reason 1).offer d (s.get SPW_MAP_CH at_) (spillRecord d x.reason q x.pkt) x.pkt.buf false

/-- SPILLWAY_REFILL (R381, R382): a write of SPW.SLU[r] takes effect at the refill, which keeps and caps the credit. -/
def execSpillwayRefill (d : LcDie) (r : Fin 64) (s : State) : Out := s.event fun s =>
  let at_ := place d.val r.val
  let s := s.commit SPW_SLU at_
  s.setCredit d.val r.val
    (Nat.min (s.credit d.val r.val + s.getEff SPW_SLU_RATE at_) (s.getEff SPW_SLU_BURST at_ * 1000000))

end Sys2Proof.Machine
end

