-- ==== Sys2Proof/Machine/Bond.lean ====
section
/-!
DEFINITION. The channel group: skew buffers, the reorder engine, membership and commits (06_channel_groups.md). The
upstream spreading of R276 to R283 stands with the fill point, in Machine/Estuary.lean.
-/
namespace Sys2Proof.Machine
open Reg

/-! ## Parts of the group -/

/-- The group is enabled, in effect. -/
def State.bondOn (s : State) : Bool := s.is BOND_GROUP_STAT_EN_EFF d0
/-- Channel c is a member in effect. -/
def State.bondMember (s : State) (c : Nat) : Bool := bitOf (s.get BOND_GROUP_STAT_MEMBERS_EFF d0) c
/-- Replace the channel group's state. -/
def State.setBond (s : State) (b : Bond) : State := { s with bond := b }

/-- Set GROUP_STAT.SKEW_EMPTY and GROUP_STAT.HELD from the buffers (Table 6.5). -/
def State.showBond (s : State) : State :=
  let e := (List.range 4).foldl (fun n c => n + (if (Tab.get s.bond.skew [] c).isEmpty then 2 ^ c else 0)) 0
  (s.put BOND_GROUP_STAT_SKEW_EMPTY d0 e).put BOND_GROUP_STAT_HELD d0 (s.bond.held.length + s.bond.refused.length)

/-- The cells of a list of frames (R260, R269). -/
def cellSum (l : List BondFrame) : Nat := l.foldl (fun n x => n + x.cells) 0

/-- The part of a frame's tag that Table 6.2 gives, read from its first four bytes, which are removed (R255, R258). -/
def untag (x : BondFrame) : BondFrame :=
  let t : Word := BitVec.ofNat 32 (beNat (slice x.bytes 0 4))
  { x with bytes := x.bytes.drop 4, stream := bits t 29 27, resync := bits t 26 26 == 1, seq := bits t 23 0
           cells := (x.bytes.length + 31) / 32 }

/-- The frame's tag has VER 0b01 (R255). -/
def tagValid (x : BondFrame) : Bool := bits (BitVec.ofNat 32 (beNat (slice x.bytes 0 4))) 31 30 == 1

/-! ## Skew buffers (R257 to R260) -/

/-- BOND_FRAME_RECEIVE (R257, R260). -/
def execBondFrameReceive (c : Chan) (s : State) : Out := s.island (chanDie c.val) 7 fun s =>
  let c := c.val
  match Tab.get s.bond.inbox [] c with
  | [] => s
  | x :: rest =>
    let s := s.setBond { s.bond with inbox := Tab.set s.bond.inbox [] c rest }
    let q := Tab.get s.bond.skew [] c
    if !tagValid x then s.count BOND_CNT_BADTAG d0
    else if !s.bondOn || !s.bondMember c then s.count BOND_CNT_NOT_MEMBER d0
    else if 65536 < cellSum q + (untag x).cells || 24576 ≤ q.length then
      (s.count BOND_CNT_SKEW_OVF (d0i c)).put BOND_EVT_SKEW_OVF d0 1
    else (s.setBond { s.bond with skew := Tab.set s.bond.skew [] c (q ++ [untag x]) }).showBond

/-- SKEW_RELEASE (R259, R287, R527): the oldest frame of a skew buffer leaves for the engine, or is discarded when its channel
is no longer a member of an enabled group, or for an uncorrectable error in it. -/
def execSkewRelease (x : Checked Chan) (s : State) : Out := s.island (chanDie x.at_.val) 7 fun s =>
  let c := x.at_.val
  let e := x.e
  match Tab.get s.bond.skew [] c with
  | [] => s
  | x :: rest =>
    let s := (s.setBond { s.bond with skew := Tab.set s.bond.skew [] c rest }).storeError (chanDie c) false e
    if eccBad e then s.showBond
    else if s.bondOn && s.bondMember c then
      (s.setBond { s.bond with coming := Tab.mod s.bond.coming [] c (fun l => l ++ [x]) }).showBond
    else (s.count BOND_CNT_NOT_MEMBER d0).showBond

/-! ## The reorder engine (R264 to R270) -/

/-- E[s]. -/
def State.bondExp (s : State) (k : Nat) : Nat := Tab.get s.bond.exp 0 k
/-- Numbers modulo 2^24: how far b lies ahead of a (R265). -/
def ahead (a b : Nat) : Nat := (b + 2 ^ 24 - a % 2 ^ 24) % 2 ^ 24

/-- L[m][s] is none once E[s] has reached 2^22 beyond it (R267). -/
def pruneLast (old new : Nat) (l : Option Nat) : Option Nat :=
  l.filter fun q =>
    !(decide (2 ^ 22 ≤ ahead q new) && decide (ahead q new < 2 ^ 23)) &&
    !(decide (ahead q old < 2 ^ 22) && decide (ahead old new < 2 ^ 23) && decide (2 ^ 22 ≤ ahead q old + ahead old new))

/-- E[s] takes a new value (R265, R267). -/
def State.setExp (s : State) (k e : Nat) : State :=
  let old := s.bondExp k
  let s := s.setBond { s.bond with exp := Tab.set s.bond.exp 0 k (e % 2 ^ 24) }
  (List.range 4).foldl (fun (s : State) m =>
    s.setBond { s.bond with last := Tab.mod s.bond.last none (m * 8 + k) (pruneLast old (e % 2 ^ 24)) }) s

/-- The line die whose dispatcher takes stream k (R254): line die 0 where the part has no other. -/
def State.streamDie (s : State) (k : Nat) : Nat :=
  if s.part = .zg6480 && bitOf (s.getEff BOND_GROUP_CFG_STREAM_DIE d0) k then 1 else 0

/-- The home die of the group (R253): line die 0 where the part has no other. -/
def State.bondHome (s : State) : Nat :=
  if s.part = .zg6480 then s.getEff BOND_GROUP_CFG_HOME d0 else 0

/-- A released frame reaches its dispatcher (R258, R270): it takes a packet buffer as it is written (R524, R525). On its way to
the other line die it is lost with the link (R19), as a command is (DESIGN CHOICE, log 94). -/
def State.bondPass (s : State) (x : BondFrame) : State :=
  let d := s.streamDie x.stream
  match s.route s.bondHome d with
  | .firstDown l | .secondDown l _ => s.linkDrop s.bondHome l 1
  | .absent => s
  | .clear _ | .asleep _ => match s.alloc d x.bytes.length with
    | (none, s) => s
    | (some b, s) => s.toSource d (8 + x.stream)
        { kind := 2, src := x.chan, stream := x.stream, tag := x.dtag, sec := x.sec, ns := x.ns, buf := b, bytes := x.bytes }

/-- The dispatcher refuses a frame of stream k (R270): its FIFO of 32 packets is spoken for, or earlier frames wait. -/
def State.bondRefused (s : State) (k : Nat) : Bool :=
  let key := srcKey (s.streamDie k) (8 + k)
  decide (32 ≤ (Tab.get s.pipe.fifo [] key).length + (Tab.get s.pipe.coming [] key).length)

/-- A frame of stream k can pass on (R270): its dispatcher does not refuse it, and no frame released before it still waits. -/
def State.mayPass (s : State) (k : Nat) : Bool :=
  !s.bondRefused k && !s.bond.refused.any (fun y => y.stream == k)

/-- Release a frame whatever its dispatcher says, as R265 and R288 have every held frame released: one that is refused keeps its
place in the store (R270). -/
def State.bondRelease (s : State) (x : BondFrame) : State :=
  if s.mayPass x.stream then s.bondPass x else s.setBond { s.bond with refused := s.bond.refused ++ [x] }

/-- The held frame of stream k with number q, if there is one; one that was released and is refused still counts as held (R270). -/
def State.isHeld (s : State) (k q : Nat) : Bool :=
  (s.bond.held ++ s.bond.refused).any (fun x => x.stream == k && x.seq == q)

/-- The frame of stream k with number q that waits for its turn, if there is one. -/
def State.heldAt (s : State) (k q : Nat) : Option BondFrame :=
  s.bond.held.find? (fun x => x.stream == k && x.seq == q)

/-- The held frame of stream k with the lowest number, counted from E[k]. -/
def lowestHeld (e : Nat) : List BondFrame → Option BondFrame
  | [] => none
  | x :: t => match lowestHeld e t with
    | none => some x
    | some y => if ahead e y.seq < ahead e x.seq then some y else some x

/-- The frames of stream k in the reorder store that wait for their turn. -/
def State.heldOf (s : State) (k : Nat) : List BondFrame := s.bond.held.filter (fun x => x.stream == k)

/-- Release one held frame, as it is read from the store (R527). -/
def State.releaseHeld (s : State) (x : BondFrame) (e : Ecc) : State :=
  let s := (s.setBond { s.bond with held := s.bond.held.erase x }).storeError s.bondHome false e
  if eccBad e then s else s.bondRelease x

/-- drain(k) of R265, at most n frames: a frame that its dispatcher refuses stays held, and E[k] with it (R270). `e` is what
the read of the first one finds. -/
def State.drain : Nat → Nat → Ecc → State → State
  | 0, _, _, s => s
  | n + 1, k, e, s => match s.heldAt k (s.bondExp k) with
    | none => s
    | some x => if s.mayPass k then State.drain n k .clean ((s.releaseHeld x e).setExp k (x.seq + 1)) else s

/-- Release every held frame of stream k in SEQ order, at most n frames (R265). -/
def State.releaseAll : Nat → Nat → Ecc → State → State
  | 0, _, _, s => s
  | n + 1, k, e, s => match lowestHeld (s.bondExp k) (s.heldOf k) with
    | none => s
    | some x => State.releaseAll n k .clean (s.releaseHeld x e)

/-- The frames that were refused pass on, in order, as their dispatchers take them, and the streams drain (R270). -/
def State.bondPump (s : State) : State :=
  if s.bond.refused.isEmpty && s.bond.held.isEmpty then s
  else
    let s := s.bond.refused.foldl (fun (s : State) x => s.bondRelease x) (s.setBond { s.bond with refused := [] })
    ((List.range 8).foldl (fun (s : State) k => State.drain s.bond.held.length k .clean s) s).showBond

/-- Stream k skips its gap (R268, R269): E[k] becomes the lowest held number, the numbers skipped are counted, and the
stream drains. -/
def State.skipGap (s : State) (k cnt : Nat) (e : Ecc) : State :=
  match lowestHeld (s.bondExp k) (s.heldOf k) with
  | none => s
  | some x =>
    let n := ahead (s.bondExp k) x.seq
    let s := (s.wr BOND_CNT_LOST d0 (s.rd BOND_CNT_LOST d0 + BitVec.ofNat 32 n)).count cnt d0
    State.drain s.bond.held.length k e (s.setExp k x.seq)

/-- Stream k holds frames but not E[k] (R268). -/
def State.gapped (s : State) (k : Nat) : Bool := !(s.heldOf k).isEmpty && (s.heldAt k (s.bondExp k)).isNone

/-- The reorder store has no room for a frame (R269). -/
def State.storeFull (s : State) (x : BondFrame) : Bool :=
  decide (131072 < cellSum s.bond.held + cellSum s.bond.refused + x.cells) ||
  decide (8192 ≤ s.bond.held.length + s.bond.refused.length)

/-- Forced skips, until the frame fits (R269), at most n: each of the stream with the oldest held frame of those that have a gap,
for a stream whose E[s] is held and refused (R270) has none to skip (log 107). -/
def State.forceSkips : Nat → BondFrame → Ecc → State → State
  | 0, _, _, s => s
  | n + 1, x, e, s =>
    if !s.storeFull x then s
    else match s.bond.held.find? (fun o => s.gapped o.stream) with
    | none => s
    | some o => State.forceSkips n x .clean ((s.skipGap o.stream BOND_CNT_FORCE e).put BOND_EVT_SKIP_FORCE d0 1)

/-- Hold a frame and drain its stream. -/
def State.holdFrame (s : State) (x : BondFrame) (e : Ecc) : State :=
  let s := s.setBond { s.bond with held := s.bond.held ++ [{ x with edge := s.clk.mc }] }
  State.drain s.bond.held.length x.stream e s

/-- Hold the frame x of member c (R265, R269), which `rest` follows. A frame that is E[s] itself and passes on at once needs no
room; another needs a forced skip where the store is full. After forced skips a frame that now lies behind E[s] is late
(log 30), and one that finds no room even so, because a dispatcher refuses frames, waits at the engine's input. -/
def State.holdRoom (s : State) (c : Nat) (x : BondFrame) (rest : List BondFrame) (e : Ecc) : State :=
  let k := x.stream
  if s.bondExp k = x.seq && s.mayPass k then (s.holdFrame x e).showBond
  else
    let full := s.storeFull x
    let s := State.forceSkips s.bond.held.length x e s
    if 2 ^ 23 ≤ ahead (s.bondExp k) x.seq then (s.count BOND_CNT_LATE d0).showBond
    else if s.storeFull x then (s.setBond { s.bond with coming := Tab.set s.bond.coming [] c (x :: rest) }).showBond
    else (s.holdFrame x (if full then .clean else e)).showBond

/-- The engine takes the frame x of member c (R265, R269); `rest` follows it on its way, and `e` is what the first read of the
reorder store finds. The steps of R265 that resynchronise or jump are done once, be it that the frame then waits for room. -/
def State.reorder (s : State) (c : Nat) (x : BondFrame) (rest : List BondFrame) (e : Ecc) : State :=
    let s := s.setBond { s.bond with coming := Tab.set s.bond.coming [] c rest }
    let k := x.stream
    if s.isHeld k x.seq then s.count BOND_CNT_DUP d0
    else
      let s := s.setBond { s.bond with last := Tab.set s.bond.last none (c * 8 + k) (some x.seq) }
      let e' := if (s.heldOf k).isEmpty then e else .clean
      if !Tab.get s.bond.synced false k || x.resync then
        let s := (State.releaseAll s.bond.held.length k e s).setExp k x.seq
        let s := s.setBond { s.bond with synced := Tab.set s.bond.synced false k true }
        s.holdRoom c { x with resync := false } rest e'
      else
        let d := ahead (s.bondExp k) x.seq
        if 2 ^ 23 ≤ d then (s.count BOND_CNT_LATE d0).showBond
        else if s.getEff BOND_GROUP_CFG_WINDOW d0 ≤ d then
          (((State.releaseAll s.bond.held.length k e s).setExp k x.seq).count BOND_CNT_JUMP d0).holdRoom c x rest e'
        else s.holdRoom c x rest e

/-- REORDER_ARRIVAL (R264, R265, R269, R676): the oldest frame of member c on its way to the engine on the home die. It wakes a
home die that is not in RUN, and is lost with a link that is down (R19), as a command is (DESIGN CHOICE, log 94). -/
def execReorderArrival (x : Checked Chan) (s : State) : Out := s.island s.bondHome 7 fun s =>
  let c := x.at_.val
  let e := x.e
  match Tab.get s.bond.coming [] c with
  | [] => s
  | x :: rest =>
    match s.route (chanDie c) s.bondHome with
    | .firstDown l | .secondDown l _ =>
      (s.setBond { s.bond with coming := Tab.set s.bond.coming [] c rest }).linkDrop (chanDie c) l 1
    | .asleep _ => s.wakeReq s.bondHome 5 c
    | .absent | .clear _ => (s.wakeReq s.bondHome 5 c).reorder c x rest e

/-- Member m has passed E[k] (R267). -/
def State.passed (s : State) (m k : Nat) : Bool :=
  match Tab.get s.bond.last none (m * 8 + k) with
  | none => false
  | some q => decide (1 ≤ ahead (s.bondExp k) q) && decide (ahead (s.bondExp k) q < 2 ^ 23)

/-- The fast-skip condition (R268). -/
def State.fastSkip (s : State) (k : Nat) : Bool :=
  (List.range 4).all (fun m => !s.bondMember m || s.passed m k ||
    (!bitOf (s.get BOND_GROUP_STAT_RX_UP d0) m && (Tab.get s.bond.skew [] m).isEmpty))

/-- REORDER_TIMEOUT_SKIP (R268): a gap that also meets the fast-skip condition skips as fast. -/
def execReorderTimeoutSkip (x : Checked (Fin 8)) (s : State) : Out := s.unit s.bondHome 7 fun s =>
  let k := x.at_.val
  match (s.heldOf k).head? with
  | none => s
  | some o =>
    if s.gapped k && !s.fastSkip k && o.edge + s.getEff BOND_GROUP_TMO_TIMEOUT d0 * 1250 ≤ s.clk.mc then
      ((s.skipGap k BOND_CNT_TMO x.e).put BOND_EVT_SKIP_TMO d0 1).showBond
    else s

/-- REORDER_FAST_SKIP (R268). -/
def execReorderFastSkip (x : Checked (Fin 8)) (s : State) : Out := s.unit s.bondHome 7 fun s =>
  if s.gapped x.at_.val && s.fastSkip x.at_.val then (s.skipGap x.at_.val BOND_CNT_FAST x.e).showBond else s

/-! ## Measuring skew (R261 to R263) -/

/-- SKEW_ARM (R262). -/
def execSkewArm (v : Word) (s : State) : Out := s.event fun s =>
  let s := s.fwWrite BOND_SKEW_CTL d0 v
  let armed := (List.range 4).foldl (fun n c => n + (if (s.framer c).sync = .sync then 2 ^ c else 0)) 0
  ((s.put BOND_SKEW_STAT_ARMED d0 armed).put BOND_SKEW_STAT_CAPTURED d0 0).evalSkew

/-- SKEW_CAPTURE (R261, R262): the tc edge count, at the PSync of the frame whose count ends in SF_LO. -/
def execSkewCapture (c : Chan) (s : State) : Out := s.island 0 7 fun s =>
  let c := c.val
  let f := s.framer c
  if bitOf (s.get BOND_SKEW_STAT_ARMED d0) c && !bitOf (s.get BOND_SKEW_STAT_CAPTURED d0) c && f.sync == .sync &&
      f.sfc.toNat % 2 ^ 16 == s.get BOND_SKEW_CTL_SF_LO d0 then
    ((s.wr BOND_SKEW_CAP (d0i c) (BitVec.ofNat 32 s.clk.tc)).put BOND_SKEW_STAT_CAPTURED d0
      (putBit (s.get BOND_SKEW_STAT_CAPTURED d0) c true)).evalSkew
  else s

/-! ## Members (R271 to R274) -/

/-- The conditions of receive-up (R271). -/
def State.receiveUp (s : State) (c : Nat) : Bool :=
  s.get PFR_DEF_RAW_V (atChan c) % 8 == 0 && !(s.framer c).held && s.actState c == 4

/-- MEMBER_RX_CHANGE (R267, R271). -/
def execMemberRxChange (c : Chan) (s : State) : Out := s.island 0 7 fun s =>
  let c := c.val
  let up := s.receiveUp c
  let now := s.get BOND_GROUP_STAT_RX_UP d0
  if !s.bondMember c || bitOf now c == up then s
  else
    let s := s.put BOND_GROUP_STAT_RX_UP d0 (putBit now c up)
    if up then s.latch BOND_EVT_RX_UP d0 c
    else
      let s := s.setBond { s.bond with
        last := (List.range 8).foldl (fun t k => Tab.set t none (c * 8 + k) none) s.bond.last }
      s.latch BOND_EVT_RX_DOWN d0 c

/-! ## Commits (R284 to R290) -/

/-- The registers of commit group BOND.GROUP with their places (R284). -/
def bondGroupRegs : List (Nat × Nat) :=
  [(BOND_GROUP_CFG, d0), (BOND_GROUP_TMO, d0)] ++ (List.range 4).map (fun c => (BOND_MEMBER, d0i c))

/-- The cause that rejects a commit, 0 if none does (R285, Table 6.5). -/
def State.groupCause (s : State) : Nat :=
  let en := s.is BOND_GROUP_CFG_EN d0
  let m := s.get BOND_GROUP_CFG_MEMBERS d0
  let home := s.get BOND_GROUP_CFG_HOME d0
  let mem := bitList 4 m
  if en && popcount 4 m < 2 then 1
  else if mem.any (fun c => !s.reachable (chanDie c)) then 2
  else if mem.any (fun c => s.xgs c) then 3
  else if !present s.part home || (en && s.bondOn && home != s.getEff BOND_GROUP_CFG_HOME d0) then 4
  else if (List.range 4).any (fun c => 49766 < s.get BOND_MEMBER_DELAY (d0i c)) then 5
  else 0

/-- Discard the frames of a removed member that are not yet at the engine (R288). -/
def State.dropMember (s : State) (c : Nat) : State :=
  let n := (Tab.get s.bond.skew [] c).length + (Tab.get s.bond.coming [] c).length
  let s := s.wr BOND_CNT_NOT_MEMBER d0 (s.rd BOND_CNT_NOT_MEMBER d0 + BitVec.ofNat 32 n)
  s.setBond { s.bond with skew := Tab.set s.bond.skew [] c [], coming := Tab.set s.bond.coming [] c [] }

/-- BOND_GROUP_COMMIT (R284 to R289). -/
def execBondGroupCommit (s : State) : Out := s.event fun s =>
  let cause := s.groupCause
  if cause ≠ 0 then
    ((s.put BOND_GROUP_STAT_REJECT d0 1).put BOND_GROUP_STAT_REJ_CAUSE d0 cause).put BOND_EVT_COMMIT_REJ d0 1
  else
    let was := s.bondOn
    let old := s.get BOND_GROUP_STAT_MEMBERS_EFF d0
    let s := (s.put BOND_GROUP_STAT_REJECT d0 0).put BOND_GROUP_STAT_REJ_CAUSE d0 0
    let s := s.commitAll bondGroupRegs
    let en := s.isEff BOND_GROUP_CFG_EN d0
    let m := s.getEff BOND_GROUP_CFG_MEMBERS d0
    let s := (s.put BOND_GROUP_STAT_EN_EFF d0 (b2n en)).put BOND_GROUP_STAT_MEMBERS_EFF d0 m
    let up := chanMask (fun c => bitOf m c && (if bitOf old c then bitOf (s.get BOND_GROUP_STAT_RX_UP d0) c else s.receiveUp c))
    let s := s.put BOND_GROUP_STAT_RX_UP d0 up
    let s := (bitList 4 (old &&& (old ^^^ m))).foldl State.dropMember s
    let s := if !was && en then
        s.setBond { s.bond with synced := [], last := [], upSeq := [], upBegun := [] }
      else if was && !en then
        (List.range 8).foldl (fun (s : State) k => State.releaseAll s.bond.held.length k .clean s) s
      else s
    s.showBond.evalGroup

/-- An upstream group has a member entry (Tables 6.3 and 6.4). -/
def ugrpUsed (a b : Word) : Bool := bits a 31 30 != 0 || bits b 31 30 != 0

/-- UGRP_COMMIT (R279, R290): group INDEX; a group that gains its first member starts its streams anew. -/
def execUgrpCommit (v : Word) (s : State) : Out := s.event fun s =>
  let s := s.fwWrite BOND_UGRP_COMMIT d0 v
  let g := s.get BOND_UGRP_COMMIT_INDEX d0
  let was := ugrpUsed (s.rdEff BOND_UGRP_A (d0i g)) (s.rdEff BOND_UGRP_B (d0i g))
  let s := s.commitAll [(BOND_UGRP_A, d0i g), (BOND_UGRP_B, d0i g)]
  if !was && ugrpUsed (s.rdEff BOND_UGRP_A (d0i g)) (s.rdEff BOND_UGRP_B (d0i g)) then
    s.setBond { s.bond with
      upSeq := (List.range 8).foldl (fun t k => Tab.set t 0 (g * 8 + k) 0) s.bond.upSeq
      upBegun := (List.range 8).foldl (fun t k => Tab.set t false (g * 8 + k) false) s.bond.upBegun }
  else s

end Sys2Proof.Machine
end

