-- ==== Sys2Proof/Machine/Traffic.lean ====
section
/-!
DEFINITION. The traffic managers: admission, sluices, queue operations, downstream scheduling, weirs and gate lists
(09_traffic_manager.md). Upstream service stands with the fill point, in Machine/Estuary.lean.
-/
namespace Sys2Proof.Machine
open Reg

/-! ## Admission (R391, R393, R400 to R402) -/

/-- The queue a command enters (R391, R392). -/
def State.modeQueue (s : State) (d q : Nat) (p : Pkt) : Nat :=
  if d < 2 then q
  else if s.is TM_PORT_CFG_QMODE (place d (qPort d q)) then
    q / 2 ^ 14 * 2 ^ 14 + bits (p.m.getD 7 0) 31 29 * 2048 + q % 2048
  else q

/-- The class default queue of a queue's class (R390). -/
def State.defaultQueue (s : State) (d q : Nat) : Nat :=
  if d < 2 then s.get TM_UDEF_ENTRY (onDie d) * 8 + q % 8 else q / 2048 * 2048

/-- The four reasons of a refusal, with their counters (R401). -/
inductive Refuse where
  | qdis | red | qlim | pool
  deriving DecidableEq, Repr

/-- The counter of a reason. -/
def Refuse.counter : Refuse → Nat
  | .qdis => TM_CNT_QDIS
  | .red => TM_CNT_RED
  | .qlim => TM_CNT_QLIM
  | .pool => TM_CNT_POOL

/-- The instance of a reason in Table 17.4. -/
def Refuse.index : Refuse → Nat
  | .qdis => 0
  | .red => 1
  | .qlim => 2
  | .pool => 3

/-- Refuse a packet (R401). -/
def State.refuseAt (s : State) (d q : Nat) (p : Pkt) (r : Refuse) : State :=
  let x := s.queue d q
  let s := s.setQueue d q { x with drop := satAdd 0xFFFF x.drop 1 }
  ((s.count r.counter (place d (qOwner d q))).release p.buf).pmcEvent d 0 0x009 r.index 1

/-- A sluice of a die. -/
def State.sluice (s : State) (d i : Nat) : Sluice := Tab.get s.tm.slu {} (d * 2 ^ 14 + i)
/-- Replace a sluice of a die. -/
def State.setSluice (s : State) (d i : Nat) (x : Sluice) : State :=
  { s with tm := { s.tm with slu := Tab.set s.tm.slu {} (d * 2 ^ 14 + i) x } }

/-- Colours as m7.COLOUR codes them: 0 green, 1 yellow, 2 red; 3 is taken as red (R400). -/
def colourOf (m7 : Word) : Nat := Nat.min (bits m7 28 27) 2

/-- What a sluice makes of a packet of B units whose input colour is `c` (R409): the colour, and the two buckets. -/
def meter (rfc4115 : Bool) (c b tc tp : Nat) : Nat × Nat × Nat :=
  if rfc4115 then
    if c = 0 ∧ b ≤ tc then (0, tc - b, tp)
    else if c ≠ 2 ∧ b ≤ tp then (1, tc, tp - b)
    else (2, tc, tp)
  else
    if c = 2 ∨ tp < b then (2, tc, tp)
    else if c = 1 ∨ tc < b then (1, tc, tp - b)
    else (0, tc - b, tp - b)

/-- Meter a packet of n bytes at an enabled sluice (R409, R410). -/
def Sluice.apply (x : Sluice) (m7 : Word) (n : Nat) : Nat × Sluice :=
  let c := if bits x.w0 29 29 = 1 then colourOf m7 else 0
  let (k, tc, tp) := meter (bits x.w0 30 30 == 1) c ((n + 4) * 1024) x.tc x.tp
  (k, { x with tc := tc, tp := tp, g := if k = 0 then x.g + 1 else x.g, y := if k = 1 then x.y + 1 else x.y
               r := if k = 2 then x.r + 1 else x.r })

/-- The colour of a packet at a queue (R400 step 5), and whether RED_DROP refuses red packets there. -/
def State.colour (s : State) (d q : Nat) (p : Pkt) : Nat × Bool × State :=
  let i := (s.queue d q).slu
  let x := s.sluice d i
  if i = 0 || bits x.w0 31 31 = 0 then (colourOf (p.m.getD 7 0), false, s)
  else
    let (k, x) := x.apply (p.m.getD 7 0) p.bytes.length
    (k, bits x.w0 28 28 == 1, s.setSluice d i x)

/-- A queue profile's limit for a colour, in KiB (R404). -/
def State.profLimit (s : State) (d prof k : Nat) : Nat :=
  if k = 0 then s.getEff TM_APROF_A_GREEN_KIB (place d prof)
  else if k = 1 then s.getEff TM_APROF_A_YELLOW_KIB (place d prof)
  else s.getEff TM_APROF_B_RED_KIB (place d prof)

/-- TM.POOL_LIM for a colour (R405). -/
def State.poolLimit (s : State) (d k : Nat) : Nat :=
  if k = 0 then s.getEff TM_POOL_LIM_G_V (onDie d)
  else if k = 1 then s.getEff TM_POOL_LIM_Y_V (onDie d)
  else s.getEff TM_POOL_LIM_R_V (onDie d)

/-- A frame admitted to a class queue of an Alloc-ID entry is a local wake indication for each channel that the entry names
and that is in a power-saving phase (R675). -/
def State.localWake (s : State) (d q : Nat) : State :=
  if 2 ≤ d then s
  else
    let e : Word := Tab.get s.pon.alloc 0 (d * 1024 + q / 8)
    [2 * d, 2 * d + 1].foldl (fun (s : State) c =>
      if bitOf (bits e 30 29) (c % 2) && s.get PWR_PS_STAT_PHASE (d0i c) != 0 then
        { s with pwr := { s.pwr with lwi := Tab.set s.pwr.lwi false c true } }
      else s) s

/-- Steps 4 to 9 of R400 at queue q. -/
def State.judge (s : State) (d q : Nat) (p : Pkt) : State :=
  if !(s.queue d q).en then s.refuseAt d q p .qdis
  else
    let (k, redDrop, s) := s.colour d q p
    let x := s.queue d q
    if k = 2 && redDrop then s.refuseAt d q p .red
    else if s.profLimit d x.prof k * 1024 < x.bytes + p.bytes.length then s.refuseAt d q p .qlim
    else if s.poolLimit d k < s.get TM_POOL_OCC_V (onDie d) + p.cells then s.refuseAt d q p .pool
    else (s.queueAdd d q { p with m := listSet p.m 7 (setBits (p.m.getD 7 0) 28 27 k) }).localWake d q

/-- Admission of a packet that a command brings to a queue of die d (R400). -/
def State.enqueue (s : State) (d q : Nat) (p : Pkt) (e : Ecc) : State :=
  if !s.is TM_STAT_READY (onDie d) then (s.count TM_CNT_NOTREADY (onDie d)).release p.buf
  else
    let q := s.modeQueue d q p
    let q' := if s.retired d q then s.defaultQueue d q else q
    if s.retired d q && s.retired d q' then (s.count TM_CNT_RETIRED (onDie d)).release p.buf
    else (s.queueRead d q' false e).judge d q' p

/-- ENQUEUE_VISIBLE (R400 to R402): the command of the die that comes first in the order of R402. -/
def execEnqueueVisible (d : LcDie) (e : Ecc) (s : State) : Out := s.unit d.val 3 fun s =>
  match s.takeFlight (fun f => !f.mcast && f.die == d.val) with
  | none => s
  | some (f, s) => (s.pmcEvent d.val 0 0x008 0xFF 1).enqueue d.val f.queue f.pkt e

/-- TM_STATE_CLEAR_DONE (R394). -/
def execTmStateClearDone (d : LcDie) (s : State) : Out := s.unit d.val 3 fun s => s.put TM_STAT_READY (onDie d.val) 1

/-! ## Queue operations (R395 to R399) -/

/-- The fields are written (R442); a GO that finds BUSY or no READY is ignored and sets REJ (Table 9.3). -/
def State.qopGo (s : State) (d : Nat) (v : Word) (f : State → State) : State :=
  let a := onDie d
  let s := s.fwWrite TM_QOP a v
  if s.is TM_QOP_BUSY a || !s.is TM_STAT_READY a then s.put TM_QOP_REJ a 1 else f s

/-- Write the staging configuration into a queue: its packets, counts but DROP, and tag stay (R395, Table 9.4). -/
def State.configQueue (s : State) (d q : Nat) : State :=
  let a := onDie d
  if queuesOf d ≤ q then s
  else s.setQueue d q { s.queue d q with
    en := s.is TM_Q_STAGE0_EN a, prof := s.get TM_Q_STAGE0_PROF a, slu := s.get TM_Q_STAGE0_SLU a
    w := s.get TM_Q_STAGE1_W a, drop := 0 }

/-- The read of a queue's state that a queue operation makes first, where the die has that queue (R529, R531). -/
def State.qopRead (s : State) (d q : Nat) (e : Ecc) : State := if queuesOf d ≤ q then s else s.queueRead d q false e

/-- QOP_WRITE (R395, R396, R531). -/
def execQopWrite (x : Checked LcDie) (v : Word) (s : State) : Out := s.event fun s =>
  let d := x.at_
  s.qopGo d.val v fun s =>
    let q := s.get TM_QOP_INDEX (onDie d.val)
    (s.qopRead d.val q x.e).configQueue d.val q

/-- QOP_READ (R398, R531). -/
def execQopRead (x : Checked LcDie) (v : Word) (s : State) : Out := s.event fun s =>
  let d := x.at_
  let e := x.e
  s.qopGo d.val v fun s =>
    let s := s.qopRead d.val (s.get TM_QOP_INDEX (onDie d.val)) e
    let a := onDie d.val
    let x := s.queue d.val (s.get TM_QOP_INDEX a)
    let s := s.wr TM_Q_STAGE0 a (setBits (setBits (setBits 0 31 31 (b2n x.en)) 30 27 x.prof) 13 0 x.slu)
    let s := s.wr TM_Q_STAGE1 a (setBits 0 15 0 x.w)
    let s := s.wr TM_Q_STAT (place d.val 0) (setBits (setBits 0 31 31 (b2n !x.pkts.isEmpty)) 20 0 x.pkts.length)
    let s := s.wr TM_Q_STAT (place d.val 1) (setBits 0 25 0 x.bytes)
    let s := s.wr TM_Q_STAT (place d.val 2) (setBits (setBits 0 31 16 x.drop) 15 0 (x.tag / 2 ^ 32))
    s.wr TM_Q_STAT (place d.val 3) (BitVec.ofNat 32 x.tag)

/-- QOP_FILL (R395, R531): queues INDEX to INDEX + QOP_CNT − 1; the error is found in the first. -/
def execQopFill (x : Checked LcDie) (v : Word) (s : State) : Out := s.event fun s =>
  let d := x.at_
  s.qopGo d.val v fun s =>
    let a := onDie d.val
    let s := if s.get TM_QOP_CNT_V a = 0 then s else s.qopRead d.val (s.get TM_QOP_INDEX a) x.e
    (List.range (s.get TM_QOP_CNT_V a)).foldl (fun (s : State) i => s.configQueue d.val (s.get TM_QOP_INDEX a + i)) s

/-- QOP_FLUSH (R399, R531): a packet chosen at a slot and not yet dequeued stays. -/
def execQopFlush (x : Checked LcDie) (v : Word) (s : State) : Out := s.event fun s =>
  let e := x.e
  let d := x.at_.val
  s.qopGo d v fun s =>
    let q := s.get TM_QOP_INDEX (onDie d)
    let s := s.qopRead d q e
    let x := s.queue d q
    let keep := if 2 ≤ d && ((Tab.get s.tm.chosen none (qPort d q)).map (·.queue)) == some q then 1 else 0
    let gone := x.pkts.drop keep
    let s := s.occSub d q (gone.foldl (fun n p => n + p.bytes.length) 0) (gone.foldl (fun n p => n + p.cells) 0)
    let s := s.setQueue d q { x with pkts := x.pkts.take keep, back := x.back.take keep }
    let s := if 2 ≤ d && (x.pkts.take keep).isEmpty then s.calRemove d q else s
    let s := s.wr TM_CNT_FLUSH (onDie d) (s.rd TM_CNT_FLUSH (onDie d) + BitVec.ofNat 32 gone.length)
    gone.foldl (fun (s : State) p => s.release p.buf) s

/-! ## Sluices and weirs (R406 to R410, R425 to R428) -/

/-- The sluices of a die (R388): index 1 to this. -/
def sluicesOf (d : Nat) : Nat := if d < 2 then 4095 else 16383

/-- SLU_WRITE (R406, R407): the later of two latched configurations wins. -/
def execSluWrite (d : LcDie) (v : Word) (s : State) : Out := s.event fun s =>
  let d := d.val
  let s := s.fwWrite SLU_WR (onDie d) v
  let i := s.get SLU_WR_INDEX (onDie d)
  if i = 0 || sluicesOf d < i then s
  else s.setSluice d i { s.sluice d i with
    pend := some (s.rd SLU_STAGE0 (onDie d), s.rd SLU_STAGE1 (onDie d), s.rd SLU_STAGE2 (onDie d)) }

/-- SLU_READ (R406). -/
def execSluRead (d : LcDie) (v : Word) (s : State) : Out := s.event fun s =>
  let d := d.val
  let s := s.fwWrite SLU_WR (onDie d) v
  let x := s.sluice d (s.get SLU_WR_INDEX (onDie d))
  ((s.wr SLU_STAGE0 (onDie d) x.w0).wr SLU_STAGE1 (onDie d) x.w1).wr SLU_STAGE2 (onDie d) x.w2

/-- SLU_COUNTER_READ (R410). -/
def execSluCounterRead (d : LcDie) (v : Word) (s : State) : Out := s.event fun s =>
  let d := d.val
  let s := s.fwWrite SLU_CNT_RD (onDie d) v
  let i := s.get SLU_CNT_RD_INDEX (onDie d)
  let x := s.sluice d i
  let s := ((s.wr SLU_CNT_G (onDie d) x.g).wr SLU_CNT_Y (onDie d) x.y).wr SLU_CNT_R (onDie d) x.r
  if bits v 30 30 = 1 then s.setSluice d i { x with g := 0, y := 0, r := 0 } else s

/-- The credit of a rate word per refill (Tables 9.5 and 9.7). -/
def rateOf (w : Word) : Nat := bits w 30 19 * 2 ^ bits w 18 15
/-- The depth of a bucket in units of 1/1,024 byte (R408). -/
def burstOf (w : Word) : Nat := bits w 14 0 * 131072

/-- A sluice's refill (R407, R408). -/
def Sluice.refill (x : Sluice) : Sluice :=
  let was := bits x.w0 31 31 == 1
  let x := match x.pend with
    | none => x
    | some (a, b, c) => { x with w0 := a, w1 := b, w2 := c, pend := none
                                 tc := Nat.min x.tc (burstOf b), tp := Nat.min x.tp (burstOf c) }
  if bits x.w0 31 31 = 0 then x
  else if !was then { x with tc := burstOf x.w1, tp := burstOf x.w2 }
  else { x with tc := Nat.min (x.tc + rateOf x.w1) (burstOf x.w1), tp := Nat.min (x.tp + rateOf x.w2) (burstOf x.w2) }

/-- A weir's balance (R425, R426). -/
def State.balance (s : State) (w : Nat) : Int := Tab.get s.tm.bal 0 w
/-- Replace a weir's balance, which BAL shows (Table 9.7). -/
def State.setBalance (s : State) (d w : Nat) (b : Int) : State :=
  { s with tm := { s.tm with bal := Tab.set s.tm.bal 0 w b } }.wr WEIR_BAL (place d w) (BitVec.ofInt 32 b)

/-- A weir's refill (R426, R428). -/
def State.refillWeir (s : State) (d w : Nat) : State :=
  let was := s.isEff WEIR_CFG_EN (place d w)
  let s := s.commit WEIR_CFG (place d w)
  let c := s.rdEff WEIR_CFG (place d w)
  if bits c 31 31 = 0 then s
  else if !was then s.setBalance d w (burstOf c : Int)
  else s.setBalance d w (min (s.balance w + (rateOf c : Int)) (burstOf c : Int))

/-- The weirs of a course die (R425). -/
def weirsOf (d : Nat) : List Nat :=
  if d < 2 then []
  else (List.range 128).map (fun i => 128 * (d - 2) + i) ++ (List.range 16).map (fun i => 512 + 16 * (d - 2) + i)

/-- TM_REFILL (R408, R426, R428). -/
def execTmRefill (d : LcDie) (s : State) : Out := s.unit d.val 3 fun s =>
  let d := d.val
  let s := { s with tm := { s.tm with slu := s.tm.slu.map (fun x => if x.1 / 2 ^ 14 = d then (x.1, x.2.refill) else x) } }
  (weirsOf d).foldl (fun (s : State) w => s.refillWeir d w) s

/-- Debit a weir on a dequeue edge (R427, R428). -/
def State.debit (s : State) (d w n : Nat) : State :=
  if s.isEff WEIR_CFG_EN (place d w) then s.setBalance d w (s.balance w - (n * 1024 : Int)) else s

/-- A weir is eligible (R427, Table 9.7). -/
def State.weirOk (s : State) (d w : Nat) : Bool := !s.isEff WEIR_CFG_EN (place d w) || decide (0 ≤ s.balance w)

/-! ## Wire time (R416, R443, R502) -/

/-- The unit of wire times: this many to a nanosecond. -/
def unitNs : Nat := 825 * 2 ^ 28
/-- Network time in that unit. -/
def NetTime.units (t : NetTime) : Nat := (t.nowNs * 2 ^ 28 + t.frac.toNat) * 825
/-- t_now: the replica lags the counter by 3.2 ns to 6.0 ns (R416, log 2); a held counter is its replica. -/
def State.tNow (s : State) : Nat × State :=
  if s.time.run then
    let (x, s) := s.draw Config.replicaLag
    (s.time.units - (unitNs * 16 / 5 + x % (unitNs * 14 / 5 + 1)), s)
  else (s.time.units, s)

/-- The state of a MAC: port p, or 64 for the management port. -/
def State.mac (s : State) (k : Nat) : Mac := Tab.get s.macs.mac {} k
/-- Replace the state of a MAC. -/
def State.setMac (s : State) (k : Nat) (m : Mac) : State :=
  { s with macs := { s.macs with mac := Tab.set s.macs.mac {} k m } }

/-- The speed of a port at RATE 0b001, coded as CFG.SPEED (R443). -/
def State.sgmiiSpeed (s : State) (p : Nat) : Nat :=
  if s.is LANE_SUB_CFG_AN_EN (atPort p) then (s.mac p).speed else s.get MAC_CFG_SPEED (atPort p)

/-- The wire time of one byte, in units of 1/25 ns (Table 3.8, R443). -/
def State.byte25 (s : State) (p : Nat) : Nat :=
  match s.getEff LANE_SUB_CFG_RATE (atPort p) with
  | 0 => 200
  | 1 => if s.sgmiiSpeed p = 0 then 20000 else if s.sgmiiSpeed p = 1 then 2000 else 200
  | 2 => 80
  | 3 => 20
  | _ => 8

/-- The wire time of n bytes on port p. -/
def State.wireTime (s : State) (p n : Nat) : Nat := n * s.byte25 p * (unitNs / 25)

/-- One sw period of port p (Table 3.8): 4 ns, 3.2 ns, 512/165 ns or 2,048/825 ns. -/
def State.swPeriod (s : State) (p : Nat) : Nat :=
  match s.getEff LANE_SUB_CFG_RATE (atPort p) with
  | 0 | 1 => 4 * unitNs
  | 2 => unitNs / 5 * 16
  | 3 => 512 * 5 * 2 ^ 28
  | _ => 2048 * 2 ^ 28

/-- The bytes that MACsec adds to L in D and the fit test (R502). -/
def State.secExtra (s : State) (p : Nat) : Nat :=
  if s.isEff CIPH_MS_TX_EN (atPort p) then (if s.isEff CIPH_MS_TX_SCI_INC (atPort p) then 32 else 24) else 0

/-- D of a packet of n bytes (R416, R502). -/
def State.wireD (s : State) (p n : Nat) : Nat := s.wireTime p (8 + frameLen (n + s.secExtra p) + 12)

/-- The least TX_LAT of a port in 0.01 ns by its rate, coded as Table 3.8, and what MACsec adds (Table 20.3, R418, R756). -/
def leastTxLat (p : Part) (rate : Nat) (macsec : Bool) : Option Nat :=
  let row : Option (Nat × Nat × Nat) :=
    match rate with
    | 0 | 1 => some (22730, 9977, 3200)
    | 2 => some (21530, 8777, 2560)
    | 3 => some (21385, 8632, 2482)
    | 4 => some (20454, 7701, 1986)
    | _ => none
  row.map (fun x => (if p = .zg6420 then x.2.1 else x.1) + (if macsec then x.2.2 else 0))

/-- The mc of Table 20.3's row at a part: those of R754 and R411, and a queue's. -/
def txLatMc (p : Part) : Nat := if p = .zg6420 then 42 else 75

/-- The least TX_LAT of port p for a packet, in 0.01 ns (R687, R756): at a THROTTLE the mc part is divided by 1 − 0.05 × THROTTLE, and
CS_L4 adds ceil(L / 64) mc, each mc taken at −0.5 % spread. -/
def State.needLat (s : State) (p : Nat) (k : Pkt) : Nat :=
  let n := s.get PWR_THERM_STAT_THROTTLE d0
  let cs := if bits (k.m.getD 7 0) 25 25 = 1 then (k.bytes.length + 63) / 64 else 0
  let m := txLatMc s.part
  let d := 199 * (20 - n)
  (leastTxLat s.part (s.getEff LANE_SUB_CFG_RATE (atPort p)) (s.isEff CIPH_MS_TX_EN (atPort p))).getD 0 +
    (16000 * (20 * (m + cs) - (20 - n) * m) + d - 1) / d

/-! ## Gate lists (R429 to R436) -/

/-- Gate list i of die d. -/
def State.gate (s : State) (d i : Nat) : GateUnit := Tab.get s.tm.gates {} (d * 64 + i)
/-- Replace gate list i of die d. -/
def State.setGate (s : State) (d i : Nat) (g : GateUnit) : State :=
  { s with tm := { s.tm with gates := Tab.set s.tm.gates {} (d * 64 + i) g } }

/-- Die d has gate list i (R429, R436). -/
def hasGate (d i : Nat) : Bool := if d < 2 then i < 16 else portDie i == d

/-- The spans of a list within its cycle, in ns from its start: entry, first ns, end, states (R432). -/
def gateSpans : List Word → Nat → Nat → Nat → List (Nat × Nat × Nat × Nat)
  | [], _, _, _ => []
  | w :: t, j, x, c =>
    let n := bits w 23 0
    if n = 0 || c ≤ x then gateSpans t (j + 1) x c
    else (j, x, Nat.min (x + n) c, bits w 31 24) :: gateSpans t (j + 1) (x + n) c

/-- The spans with the last one stretched to the end of the cycle (R432); a list without one has free states. -/
def GateList.spans (g : GateList) : List (Nat × Nat × Nat × Nat) :=
  match (gateSpans g.entries 0 0 g.cycle).reverse with
  | [] => [(0, 0, g.cycle, Config.freeGates g.start % 256)]
  | (j, x, _, st) :: t => ((j, x, g.cycle, st) :: t).reverse

/-- The place in the cycle of a time in units, in units (R432). -/
def GateList.phase (g : GateList) (t : Nat) : Nat :=
  (((t : Int) - (g.start * unitNs : Nat)) % ((Nat.max g.cycle 1 * unitNs : Nat) : Int)).toNat

/-- The span in force at a time (R432). -/
def GateList.at_ (g : GateList) (t : Nat) : Nat × Nat × Nat × Nat :=
  (g.spans.find? (fun x => decide (g.phase t < x.2.2.1 * unitNs))).getD (0, 0, 0, 0)

/-- Gate c is open in a span. -/
def spanOpen (x : Nat × Nat × Nat × Nat) (c : Nat) : Bool := bitOf x.2.2.2 c

/-- The time from t to the next close of gate c, at most one cycle ahead; none for a gate open for the whole cycle
(R434). -/
def GateList.close (g : GateList) (c t : Nat) : Option Nat :=
  let cy := g.cycle * unitNs
  let l := (g.spans.filter (fun x => !spanOpen x c)).map (fun x => (x.2.1 * unitNs + cy - g.phase t) % cy)
  l.foldl (fun a x => match a with | none => some x | some y => some (Nat.min x y)) none

/-- The longest open run of gate c; none for a gate open for the whole cycle (R435). -/
def GateList.longest (g : GateList) (c : Nat) : Option Nat :=
  let shut := g.spans.filter (fun x => !spanOpen x c)
  if shut.isEmpty then none
  else
    let gap (e : Nat) : Nat := (shut.map (fun x => (x.2.1 + g.cycle - e) % g.cycle)).foldl Nat.min g.cycle
    some ((shut.map (fun x => gap (x.2.2.1 % g.cycle))).foldl Nat.max 0 * unitNs)

/-- The list that governs a wire time: the committed one from its swap time on (R431). -/
def GateUnit.listAt (g : GateUnit) (t : Nat) : Option GateList :=
  match g.pend with
  | some n => if n.start * unitNs ≤ t then some n else g.oper
  | none => g.oper

/-- A packet of wire time D at a planned start passes the fit test of gate c (R429, R434). -/
def State.fits (s : State) (p c start wire : Nat) : Bool :=
  let d := portDie p
  let g := s.gate d p
  let endT := start + wire + s.swPeriod p
  if !s.is GATE_CTL_EN (place d p) then true
  else
    let byList := match g.listAt start with
      | none => true
      | some l => spanOpen (l.at_ start) c && (match l.close c start with
          | none => true
          | some n => decide (endT ≤ start + n))
    let bySwap := match g.pend with
      | none => true
      | some n => decide (n.start * unitNs ≤ start) || decide (endT ≤ n.start * unitNs)
    byList && bySwap

/-- A packet that no open run of its gate can carry (R435). -/
def State.tooLong (s : State) (p c wire : Nat) : Bool :=
  let d := portDie p
  s.is GATE_CTL_EN (place d p) &&
  match (s.gate d p).oper with
  | none => false
  | some l => match l.longest c with
    | none => false
    | some n => decide (n < wire + s.swPeriod p)

/-- A write to a GATE.ADMIN register while PENDING is 1 is rejected (R430). -/
def State.gatePending (s : State) (d i : Nat) : Bool := s.is GATE_STAT_PENDING (place d i)

/-- GATE_ADMIN_DATA_WRITE (R430). -/
def execGateAdminDataWrite (d : LcDie) (i : Fin 64) (v : Word) (s : State) : Out := s.event fun s =>
  let (d, i) := (d.val, i.val)
  let a := place d i
  if !hasGate d i then s
  else if s.gatePending d i then s.put GATE_STAT_REJ a 1
  else
    let g := s.gate d i
    let k := s.get GATE_ADM_ADDR_ADDR a
    let s := if d < 2 && 64 ≤ k then s else s.setGate d i { g with admin := Tab.set g.admin 0 k v }
    s.put GATE_ADM_ADDR_ADDR a (k + 1)

/-- The smallest S = B + n × C that is no earlier than N + 10 µs, in ns (R431); N in units. -/
def swapTime (b c n : Nat) : Nat :=
  let m := (n + unitNs - 1) / unitNs + 10000
  if m ≤ b then b else b + (m - b + Nat.max c 1 - 1) / Nat.max c 1 * Nat.max c 1

/-- GATE_COMMIT (R430, R431): GATE.CTL is written with GO. -/
def execGateCommit (d : LcDie) (i : Fin 64) (v : Word) (s : State) : Out := s.event fun s =>
  let (d, i) := (d.val, i.val)
  let a := place d i
  if !hasGate d i then s
  else
    let s := s.fwWrite GATE_CTL a v
    if s.gatePending d i then s.put GATE_STAT_REJ a 1
    else
      let (now, s) := s.tNow
      let b := (s.get GATE_ADM_BASE_SEC_HI_V a * 2 ^ 32 + s.get GATE_ADM_BASE_SEC_LO_V a) * 1000000000 + s.get GATE_ADM_BASE_NS_V a
      let c := s.get GATE_ADM_CYCLE_V a
      let g := s.gate d i
      let l : GateList := { start := swapTime b c now, cycle := c
                            entries := (List.range (s.get GATE_ADM_LEN_LEN a)).map (fun k => Tab.get g.admin 0 k) }
      (s.setGate d i { g with pend := some l }).put GATE_STAT_PENDING a 1

/-- The entries of a list as a bank. -/
def bankOf : List Word → Nat → Tab Word → Tab Word
  | [], _, t => t
  | w :: r, k, t => bankOf r (k + 1) (Tab.set t 0 k w)

/-- GATE_SWAP (R431, R433): at S the two banks change places. -/
def execGateSwap (d : LcDie) (i : Fin 64) (s : State) : Out := s.unit d.val 3 fun s =>
  let (d, i) := (d.val, i.val)
  let a := place d i
  let g := s.gate d i
  match g.pend with
  | none => s
  | some l =>
    if s.time.units < l.start * unitNs then s
    else
      let old := match g.oper with | none => [] | some o => o.entries
      let s := s.setGate d i { oper := some l, admin := bankOf old 0 [], pend := none }
      ((s.put GATE_STAT_OPER a 1).put GATE_STAT_PENDING a 0).put GATE_STAT_SWAPPED a 1

/-- Gate k of upstream list u of line die n is open at t_now (R436). -/
def State.upGateOpen (s : State) (n u k now : Nat) : Bool :=
  if !s.is GATE_CTL_EN (place n u) then true
  else match (s.gate n u).listAt now with
    | none => true
    | some l => spanOpen (l.at_ now) k

/-! ## Downstream scheduling (R411 to R418, R458, R460) -/

/-- W_p (R416). -/
def State.cursor (s : State) (p : Nat) : Nat := Tab.get s.tm.cursor 0 p
/-- Set W_p. -/
def State.setCursor (s : State) (p v : Nat) : State := { s with tm := { s.tm with cursor := Tab.set s.tm.cursor 0 p v } }
/-- The packet chosen for a port and not yet dequeued. -/
def State.setChosen (s : State) (p : Nat) (c : Option Chosen) : State :=
  { s with tm := { s.tm with chosen := Tab.set s.tm.chosen none p c } }

/-- Class c of port p is under priority flow control pause (R414, R456). -/
def State.pfcPaused (s : State) (p c : Nat) : Bool :=
  (List.range 8).any (fun q => bitOf (s.get MAC_STAT_PFC_PAUSED (atPort p)) q &&
    s.getEff MAC_FC_CFG_PFC_MAP (atPort p) / 8 ^ q % 8 == c)

/-- Some class of port p holds a packet. -/
def State.portBacklog (s : State) (p : Nat) : Bool :=
  (List.range 8).any (fun c => !(s.tmClass (8 * p + c)).cal.isEmpty)

/-- The conditions of R413, at a given t_now. -/
def State.portEligible (s : State) (p now : Nat) : Bool :=
  let a := atPort p
  s.is TM_PORT_CFG_EN a && s.is MAC_STAT_LINK a && !s.is MAC_STAT_PAUSE a && s.weirOk (portDie p) (512 + p) &&
  decide (s.cursor p ≤ now + (s.get TM_PORT_CFG_TX_LAT a + 32) * unitNs)

/-- Take the classes of port p from the highest down (R414, R415, R435): a head packet that can never be sent is removed
and its class waits for the next slot; the first class that is eligible is chosen. `e` is what the read of the state of the
first queue finds; a queue that loses its packets by it leaves its class to wait for the next slot (R531). -/
def State.chooseClass (s : State) (p now start : Nat) (e : Ecc) : List Nat → State
  | [] => s
  | c :: t =>
    let d := portDie p
    match s.nextFlow d (8 * p + c) with
    | none => s.chooseClass p now start e t
    | some q =>
      let s := s.queueRead d q false e
      if eccBad e then s.chooseClass p now start .clean t
      else
      let n := ((s.queue d q).pkts.headD {}).bytes.length
      let wire := s.wireD p n
      if !s.weirOk d (8 * p + c) || s.pfcPaused p c then s.chooseClass p now start .clean t
      else if s.tooLong p c wire then
        match s.takeHead d q with
        | (none, s) => s.chooseClass p now start .clean t
        | (some k, s) => State.chooseClass ((s.count TM_CNT_TOOLONG (atPort p)).release k.buf) p now start .clean t
      else if s.fits p c start wire then
        s.setChosen p (some { queue := q, cls := c, start := start, wire := wire, slot := now })
      else s.chooseClass p now start .clean t

/-- DECISION_SLOT (R411 to R416, R418, R435, R458, R460, R531). -/
def execDecisionSlot (x : Checked Port) (s : State) : Out := s.unit (portDie x.at_.val) 3 fun s =>
  let p := x.at_.val
  let a := atPort p
  let m := s.mac p
  if (Tab.get s.tm.chosen none p).isSome then s
  else
    let (now, s) := s.tNow
    let start := Nat.max (now + s.get TM_PORT_CFG_TX_LAT a * unitNs) (s.cursor p)
    if s.is MAC_STAT_TX_LPI a && (s.portBacklog p || m.pauseTx.isSome) then
      (s.put MAC_STAT_TX_LPI a 0).setCursor p (Nat.max (s.cursor p) (now + s.get MAC_EEE_CFG_TW_NS a * unitNs))
    else match m.pauseTx with
    | some q =>
      if !s.is MAC_STAT_LINK a then s
      else (s.setMac p { m with pauseTx := none, tx := m.tx ++ [{ start := start, pause := some q }] }).setCursor p
        (start + s.wireTime p 84)
    | none => if s.portEligible p now then s.chooseClass p now start x.e [7, 6, 5, 4, 3, 2, 1, 0] else s

/-- A frame of port p that is discarded before its first bit takes its stamp number, where it was to be stamped (R469). -/
def State.skipSeq (s : State) (p : Nat) (m7 : Word) : State :=
  if bits m7 24 24 = 1 then s.put MAC_TS_STAT_NEXT_SEQ (atPort p) (s.get MAC_TS_STAT_NEXT_SEQ (atPort p) + 1) else s

/-- DEQUEUE (R403, R411, R416, R421, R427, R531): the packet chosen at the port's slot goes to the MAC, which drops it while
its link is down (R470), a frame to be stamped taking its number (R469); event 0x00A counts it (R693). -/
def execDequeue (p : Port) (e : Ecc) (s : State) : Out := s.unit (portDie p.val) 3 fun s =>
  let p := p.val
  let d := portDie p
  match Tab.get s.tm.chosen none p with
  | none => s
  | some c =>
    let s := (s.setChosen p none).queueRead d c.queue false e
    match s.takeHead d c.queue with
    | (none, s) => s
    | (some k, s) =>
      let s := s.pmcEvent d 0 0x00A (p % 16) 1
      let n := frameLen k.bytes.length + s.get TM_PORT_CFG_OVH (atPort p)
      let s := (s.debit d (8 * p + c.cls) n).debit d (512 + p) n
      let s := s.setCursor p (c.start + c.wire)
      let m := s.mac p
      if s.is MAC_STAT_LINK (atPort p) then
        let need := s.needLat p k
        s.setMac p { m with tx := m.tx ++ [{ pkt := k, cls := c.cls, start := c.start, ready := c.slot + need * (unitNs / 100)
                                             late := decide (s.get TM_PORT_CFG_TX_LAT (atPort p) * 100 < need) }] }
      else ((s.count MAC_CNT_TX_LINK_DROP (atPort p)).skipSeq p (k.m.getD 7 0)).release k.buf

/-! ## Commits (R441) -/

/-- APROF_COMMIT (R441). -/
def execAprofCommit (d : LcDie) (s : State) : Out := s.event fun s =>
  s.commitAll (((List.range 16).map (fun n => (TM_APROF_A, place d.val n))) ++ (List.range 16).map (fun n => (TM_APROF_B, place d.val n)))

/-- POOL_COMMIT (R441). -/
def execPoolCommit (d : LcDie) (s : State) : Out := s.event fun s =>
  s.commitAll [(TM_POOL_LIM_G, onDie d.val), (TM_POOL_LIM_Y, onDie d.val), (TM_POOL_LIM_R, onDie d.val)]

/-- UPROF_COMMIT (R441). -/
def execUprofCommit (n : LineDie) (s : State) : Out := s.event fun s =>
  s.commitAll (((List.range 16).map (fun k => [(TM_UPROF_SP, place n.val k), (TM_UPROF_W0, place n.val k),
    (TM_UPROF_W1, place n.val k)])).flatten)

end Sys2Proof.Machine
end

