-- ==== Sys2Proof/Machine/Cipher.lean ====
section
/-!
DEFINITION. Key slots, OMCI integrity and MACsec (11_cipher_engines.md, R485 to R507). The look-aside engine stands in
Machine/LookAside.lean.
-/
namespace Sys2Proof.Machine
open Reg

/-- From the start of Z1 until the sequence ends, every KILN and KSLOT command is rejected (R651). -/
def Hw.zeroising (h : Hw) : Bool := h.dbg.seq.isSome

/-! ## The lifecycle and derived keys (R638, R644) -/

/-- The lifecycle state that the fuses read (R638): a bit reads 1 when at least 2 of its 3 fuses are burnt. -/
def Fuses.lifecycle (f : Fuses) : Nat :=
  let b (i : Nat) : Bool := decide (2 ≤ f.lc.getD i 0)
  if !b 0 && !b 1 && !b 2 then 0 else if b 0 && !b 1 && !b 2 then 1 else if b 0 && b 1 && !b 2 then 2 else 3

/-- A derived key (R644): counter-mode derivation from the device secret over a label and a context. -/
def Fuses.derive (f : Fuses) (label context : List Byte) : BitVec 256 :=
  let prf (i : Byte) : BitVec 128 := Config.aesCmac f.secret ([i] ++ label ++ [0] ++ context ++ [1, 0])
  prf 1 ++ prf 2

/-- The lifecycle byte of a derivation (R644). -/
def Fuses.lcByte (f : Fuses) : Byte := BitVec.ofNat 8 f.lifecycle
/-- The look-aside context key (R512, R644): label KCTX. -/
def Fuses.contextKey (f : Fuses) : BitVec 256 := f.derive [0x4B, 0x43, 0x54, 0x58] [f.lcByte]

/-! ## Key slots (R486 to R492) -/

/-- Pools as KSLOT.CMD.POOL codes them. -/
abbrev poolPon : Nat := 0
abbrev poolLa : Nat := 1
abbrev poolMs : Nat := 2

/-- The slots of a pool on a die (Table 11.1); 0 where the die has no such pool. -/
def poolSize (d pool : Nat) : Nat :=
  if pool = poolPon then (if d < 2 then 4096 else 0)
  else if pool = poolLa then (if d < 2 then 64 else 0)
  else if pool = poolMs then (if 2 ≤ d && d ≤ 5 then 2048 else 0)
  else 0

/-- The key of a slot in the table. -/
def slotKey (d pool i : Nat) : Nat := d * 2 ^ 14 + pool * 2 ^ 12 + i
/-- A slot by its key. -/
def State.slotAt (s : State) (k : Nat) : KeySlot := Tab.get s.ciph.slots {} k
/-- Replace a slot by its key. -/
def State.setSlotAt (s : State) (k : Nat) (x : KeySlot) : State :=
  { s with ciph := { s.ciph with slots := Tab.set s.ciph.slots {} k x } }
/-- A copy of a slot. -/
def KeySlot.copy (x : KeySlot) (second : Bool) : KeyCopy := if second then x.b else x.a
/-- The copy in effect. -/
def KeySlot.now (x : KeySlot) : KeyCopy := x.copy x.second

/-- The payloads of a channel's bursts in progress that CIPH, 12 uw before the balls (R494), has begun and not ended. -/
def State.cryptsNow (s : State) (c : Nat) : List Crypt :=
  ((s.conv c).bursts.filter (·.inProgress (s.xgs c))).flatMap (fun b =>
    (b.crypts.filter (fun k => k.2.begun && decide (b.passed (s.xgs c) 12 < k.1 + k.2.len))).map (·.2))

/-- A message uses a copy of PON slot i. -/
def OmciKey.uses (k : OmciKey) (i : Nat) (second : Bool) : Bool := k.slot == i && k.second == some second

/-- The integrity keys that OMCI messages of channel c use: those received in part, those buffered, and those under way upstream
(R490). -/
def State.omciKeys (s : State) (c : Nat) : List OmciKey :=
  (s.conv c).reasm.filterMap (·.key) ++ (Tab.get s.ciph.omci [] c).filterMap (·.key) ++
  (s.ciph.mics.filter (fun u => u.chan == c)).map (·.key)

/-- A PON slot's copy is used (R489, R490, R499): by an upstream frame of which a word has reached CIPH, or by an OMCI message. -/
def State.ponUsed (s : State) (d i : Nat) (second : Bool) : Bool :=
  [2 * d, 2 * d + 1].any (fun c =>
    (s.cryptsNow c).any (fun k => k.slot == some i && k.second == some second) ||
    (s.omciKeys c).any (fun k => k.uses i second))

/-- An operation under way uses a copy of a slot (R489, R490): a frame on the wire, an upstream frame or OMCI message, or a
suspended bulk job. -/
def State.copyUsed (s : State) (k : Nat) (second : Bool) : Bool :=
  let d := k / 2 ^ 14
  (s.macs.mac.any (fun x => portDie x.1 == d && x.1 < 64 && (match x.2.sending with
    | some f => (match f.slot with
      | some (i, b) => slotKey d poolMs i == k && b == second
      | none => false)
    | none => false))) ||
  (match Tab.get s.ciph.bulk none d with
   | some j => slotKey d poolLa j.slot == k && j.second == second
   | none => false) ||
  (decide (d < 2) && k / 2 ^ 12 % 4 == poolPon && s.ponUsed d (k % 2 ^ 12) second)

/-- The contents of the staging registers of a die (R487). -/
def State.stagedKey (s : State) (d : Nat) (long : Bool) : KeyCopy :=
  let w (i : Nat) : Nat := (s.rd KSLOT_STAGE (place d i)).toNat
  let n := (List.range 8).foldl (fun a i => a * 2 ^ 32 + (if i < 4 || long then w i else 0)) 0
  { key := BitVec.ofNat 256 n, long := long, salt := BitVec.ofNat 96 ((w 8 * 2 ^ 32 + w 9) * 2 ^ 32 + w 10)
    ssci := BitVec.ofNat 32 (w 11) }

/-- Zero the staging registers (R488). -/
def State.clearStage (s : State) (d : Nat) : State :=
  (List.range 12).foldl (fun (s : State) i => s.wr KSLOT_STAGE (place d i) 0) s

/-- A write into the copy not in effect, which becomes the one in effect (R488): an LA slot draws a fixed IV field and
starts its invocation counter at 0. -/
def State.fillSlot (s : State) (k : Nat) (c : KeyCopy) : State :=
  let x := s.slotAt k
  let (c, s) := if k / 2 ^ 12 % 4 = poolLa then
      let (r, s) := s.draw Config.drbg
      ({ c with fixedIv := BitVec.ofNat 32 r, counter := 0 }, s)
    else (c, s)
  let x := if x.second then { x with a := c } else { x with b := c }
  (s.setSlotAt k { x with second := !x.second, valid := true, serial := x.serial + 1 }).clearStage (k / 2 ^ 14)

/-- Reject a KSLOT command with a cause (Table 11.3). -/
def State.kslotReject (s : State) (d cause : Nat) : State :=
  (s.put KSLOT_STAT_REJ (onDie d) 1).put KSLOT_STAT_REJ_CAUSE (onDie d) cause

/-- STAT.SERIAL shows the load serial, as it stands, of the slot that the latest accepted command of a die named (Table 11.3). -/
def State.reshowSerial (s : State) (d : Nat) : State :=
  match Tab.get s.ciph.latest none d with
  | none => s
  | some k => s.put KSLOT_STAT_SERIAL (onDie d) (s.slotAt k).serial.toNat

/-- A command that names slot k is accepted on die d (Table 11.3). -/
def State.showSerial (s : State) (d k : Nat) : State :=
  ({ s with ciph := { s.ciph with latest := Tab.set s.ciph.latest none d (some k) } } : State).reshowSerial d

/-- Write a slot, or hold the write while an operation uses its target copy (R490). -/
def State.slotWrite (s : State) (d k : Nat) (c : KeyCopy) : State :=
  let s := s.put KSLOT_STAT_REJ_CAUSE (onDie d) 0
  if s.copyUsed k (!(s.slotAt k).second) then
    let s := { s with ciph := { s.ciph with held := Tab.set s.ciph.held none d (some (k, c)) } }
    ((s.put KSLOT_STAT_BUSY (onDie d) 1).put KSLOT_STAT_HELD (onDie d) 1).showSerial d k
  else (s.fillSlot k c).showSerial d k

/-- The slot that KSLOT.CMD names. -/
def State.cmdSlot (s : State) (d : Nat) : Nat :=
  slotKey d (s.get KSLOT_CMD_POOL (onDie d)) (s.get KSLOT_CMD_INDEX (onDie d))

/-- The tests every KSLOT write and load passes first (Table 11.3, R490, R651): a cause, or 0. -/
def State.kslotCause (s : State) (d : Nat) : Nat :=
  let a := onDie d
  if s.hw.zeroising then 4
  else if s.is KSLOT_STAT_BUSY a then 1
  else if poolSize d (s.get KSLOT_CMD_POOL a) ≤ s.get KSLOT_CMD_INDEX a then 2
  else if s.is KSLOT_CMD_KLEN a && s.get KSLOT_CMD_POOL a == poolPon then 3
  else 0

/-- KSLOT_WRITE (R488, R490). -/
def execKslotWrite (d : LcDie) (v : Word) (s : State) : Out := s.event fun s =>
  let d := d.val
  let s := s.fwWrite KSLOT_CMD (onDie d) v
  if s.kslotCause d ≠ 0 then s.kslotReject d (s.kslotCause d)
  else s.slotWrite d (s.cmdSlot d) (s.stagedKey d (s.is KSLOT_CMD_KLEN (onDie d)))

/-- The kiln's purpose for a pool (R645, R647). -/
def poolPurpose (pool : Nat) : Nat := if pool = poolPon then 1 else if pool = poolMs then 2 else 3

/-- KSLOT_LOAD_KILN (R492, R647): the ready key goes to the slot, with the attributes of staging. -/
def execKslotLoadKiln (d : LcDie) (v : Word) (s : State) : Out := s.event fun s =>
  let d := d.val
  let a := onDie d
  let s := s.fwWrite KSLOT_CMD a v
  let long := s.is KSLOT_CMD_KLEN a
  if s.kslotCause d ≠ 0 then s.kslotReject d (s.kslotCause d)
  else match s.hw.ready with
    | none => s.kslotReject d 4
    | some key =>
      if s.get KILN_STAT_R_PURPOSE d0 != poolPurpose (s.get KSLOT_CMD_POOL a) || s.is KILN_STAT_R_KLEN d0 != long then
        s.kslotReject d 4
      else
        let c := { s.stagedKey d long with key := key }
        let s := ({ s with hw := { s.hw with ready := none } }.put KILN_STAT_READY d0 0)
        s.slotWrite d (s.cmdSlot d) c

/-- A frame on the wire whose key is erased (Table 11.4): the rest goes as zeros and its FCS is inverted. -/
def State.cutFrame (s : State) (p : Nat) : State :=
  let m := s.mac p
  match m.sending with
  | none => s
  | some f =>
    let (n, s) := s.draw Config.freeCut
    let body := f.wire.take (f.wire.length - 4)
    let cut := n % (body.length + 1)
    let body := body.take cut ++ List.replicate (body.length - cut) 0
    let fcs := leBytes 4 (~~~(Tile.crcIeee body)).toNat
    (s.setMac p { m with sending := some { f with wire := body ++ fcs, slot := none } }).count CIPH_CNT_MS_TX_ERASED (atPort p)

/-- The ports of course die d whose frame on the wire uses MS slot i. -/
def State.usersOf (s : State) (d i : Nat) : List Nat :=
  (List.range 64).filter (fun p => portDie p == d && (match (s.mac p).sending with
    | some f => (f.slot.map (·.1)) == some i
    | none => false))

/-- A payload under way uses slot i and has words that have not passed CIPH: byte p of its allocation is the first of them. -/
def Crypt.cutBy (k : Crypt) (i p : Nat) : Bool := k.begun && k.slot == some i && k.second.isSome && decide (p < k.off + k.len)

/-- The rest of the payloads of an allocation under slot i, from byte p of it on, goes as zeros (Table 11.4). -/
def Alloc.cutKey (a : Alloc) (i p : Nat) : Alloc :=
  let zero (l : List Byte) (k : Crypt) : List Byte :=
    let o := Nat.max p k.off
    if k.cutBy i p then l.take o ++ List.replicate (k.off + k.len - o) 0 ++ l.drop (k.off + k.len) else l
  { a with content := a.crypt.foldl zero a.content
           crypt := a.crypt.map (fun k => if k.cutBy i p then { k with second := none, pad := [] } else k) }

/-- The MIC of message m goes as zeros where it has not passed CIPH yet, encrypted as its frame is (R499, Table 11.4). -/
def Alloc.cutMic (a : Alloc) (m p : Nat) : Alloc :=
  let zero (l : List Byte) (k : Crypt) : List Byte :=
    match k.mic with
    | none => l
    | some x =>
      let o := x.at_ + x.n - 4
      if k.begun && x.msg == m && x.last then
        (List.range 4).foldl (fun l j => if p ≤ o + j then listSet l (o + j) (k.pad.getD (o + j - k.off) 0) else l) l
      else l
  { a with content := a.crypt.foldl zero a.content }

/-- Change the allocations of the burst in progress of channel c, each told the first of its bytes that has not passed CIPH. -/
def State.changeAllocs (s : State) (c : Nat) (f : Nat → Alloc → Alloc) : State :=
  match (s.conv c).bursts.find? (·.inProgress (s.xgs c)) with
  | none => s
  | some b =>
    s.setBurst c { b with allocs := (placed b.head b.allocs).map (fun x => f (b.passed (s.xgs c) 12 - x.1) x.2) }

/-- Add n to CNT_ERASED of channel c. -/
def State.countErased (s : State) (c n : Nat) : State :=
  s.wr CIPH_CNT_ERASED (atChan c) (s.rd CIPH_CNT_ERASED (atChan c) + BitVec.ofNat 32 n)

/-- The key of upstream frames is erased (Table 11.4): what has not passed CIPH of each frame under it goes as zeros. -/
def State.cutCrypt (s : State) (i c : Nat) : State :=
  let n := ((s.cryptsNow c).filter (fun k => k.slot == some i && k.second.isSome)).length
  (s.changeAllocs c (fun p a => a.cutKey i p)).countErased c n

/-- A key that is erased. -/
def OmciKey.erase (k : OmciKey) (i : Nat) : OmciKey :=
  if k.slot == i && k.second.isSome then { k with second := none, erased := true } else k

/-- The integrity key of OMCI messages of channel c is erased (Table 11.4): the MIC of those under way upstream goes as zeros, and
those received will be discarded. -/
def State.cutOmci (s : State) (i c : Nat) : State :=
  let hit := s.ciph.mics.filter (fun u => u.chan == c && u.key.slot == i && u.key.second.isSome)
  let s := hit.foldl (fun (s : State) u => s.changeAllocs c (fun p a => a.cutMic u.msg p)) s
  let v := s.conv c
  let s := s.setConv c { v with reasm := v.reasm.map (fun r => { r with key := r.key.map (·.erase i) }) }
  let mics := s.ciph.mics.map (fun u => if u.chan == c then { u with key := u.key.erase i } else u)
  let omci := Tab.mod s.ciph.omci [] c (fun l => l.map (fun m => { m with key := m.key.map (·.erase i) }))
  ({ s with ciph := { s.ciph with mics := mics, omci := omci } } : State).countErased c hit.length

/-- The work of line die d under PON slot i when its key is erased (R491, Table 11.4). -/
def State.cutPon (s : State) (d i : Nat) : State :=
  [2 * d, 2 * d + 1].foldl (fun (s : State) c => (s.cutCrypt i c).cutOmci i c) s

/-- Both copies of a slot are zeroed (R491); a held write to it is cancelled; the frames that use it are cut. The
suspended bulk job of an LA slot is aborted where the slot is erased, in Machine/LookAside.lean. -/
def State.eraseSlot (s : State) (k : Nat) : State :=
  let d := k / 2 ^ 14
  let x := s.slotAt k
  let s := s.setSlotAt k { serial := x.serial + 1 }
  let s := match Tab.get s.ciph.held none d with
    | some (h, _) =>
      if h = k then
        ({ s with ciph := { s.ciph with held := Tab.set s.ciph.held none d none } }.put KSLOT_STAT_BUSY (onDie d) 0).put
          KSLOT_STAT_HELD (onDie d) 0
      else s
    | none => s
  if k / 2 ^ 12 % 4 = poolMs then (s.usersOf d (k % 2 ^ 12)).foldl State.cutFrame s
  else if k / 2 ^ 12 % 4 = poolPon && d < 2 then s.cutPon d (k % 2 ^ 12)
  else s

/-- KSLOT_HELD_WRITE_DONE (R490): once no operation uses the target copy. -/
def execKslotHeldWriteDone (d : LcDie) (s : State) : Out := s.unit d.val 5 fun s =>
  let d := d.val
  match Tab.get s.ciph.held none d with
  | none => s
  | some (k, c) =>
    if s.copyUsed k (!(s.slotAt k).second) then s
    else
      let s := { s with ciph := { s.ciph with held := Tab.set s.ciph.held none d none } }
      (((s.fillSlot k c).put KSLOT_STAT_BUSY (onDie d) 0).put KSLOT_STAT_HELD (onDie d) 0).reshowSerial d

/-! ## OMCI downstream (R225, R497, R498) -/

/-- The integrity key that an OMCI message of channel c starts under (R489, R497): none while OMCI_CFG.EN is 0. -/
def State.omciStart (s : State) (c : Nat) : Option OmciKey :=
  let i := s.get CIPH_OMCI_CFG_IK_SLOT (atChan c)
  let x := s.slotAt (slotKey (chanDie c) poolPon i)
  if s.is CIPH_OMCI_CFG_EN (atChan c) then some { slot := i, second := if x.valid then some x.second else none } else none

/-- OMCI_DOWNSTREAM_CHECK (R489, R498, Table 11.4): the channel's oldest buffered message is checked under the key it started
under; one that started with EN = 0 passes unchecked. -/
def execOmciDownstreamCheck (c : Chan) (s : State) : Out := s.island (chanDie c.val) 5 fun s =>
  let c := c.val
  let d := chanDie c
  match Tab.get s.ciph.omci [] c with
  | [] => s
  | m :: rest =>
    let s := { s with ciph := { s.ciph with omci := Tab.set s.ciph.omci [] c rest } }
    let send (s : State) : State := s.offer d (s.getEff PTC_OMCI_CFG_DMA_CH (atChan c)) m.bytes 0 false
    let n := m.bytes.length - 4
    match m.key with
    | none => send s
    | some ⟨_, _, true⟩ => s.count CIPH_CNT_ERASED (atChan c)
    | some ⟨_, none, false⟩ => s.count CIPH_CNT_NO_KEY (atChan c)
    | some ⟨i, some b, false⟩ =>
      let k := (s.slotAt (slotKey d poolPon i)).copy b
      if 4 ≤ m.bytes.length && slice (Config.omciMic k.key false (m.bytes.take n)) 0 4 == m.bytes.drop n then send s
      else (s.count CIPH_CNT_OMCI_MIC (atChan c)).put CIPH_EVT_OMCI_MIC (onDie d) 1

/-! ## MACsec (R500 to R507) -/

/-- MS_TX_COMMIT (R500). -/
def execMsTxCommit (p : Port) (s : State) : Out := s.event fun s =>
  s.commitAll [(CIPH_MS_TX, atPort p.val), (CIPH_MS_SCI_HI, atPort p.val), (CIPH_MS_SCI_LO, atPort p.val)]

/-- NEXT_PN of an MS slot (R503). -/
def State.nextPn (s : State) (d i : Nat) : Nat := Tab.get s.ciph.pn 0 (d * 2048 + i)
/-- Set NEXT_PN. -/
def State.setPn (s : State) (d i v : Nat) : State := { s with ciph := { s.ciph with pn := Tab.set s.ciph.pn 0 (d * 2048 + i) v } }

/-- NEXT_PN advances to v: PN_THR is set when it reaches the threshold (R503). -/
def State.advancePn (s : State) (d i v : Nat) : State :=
  let thr := s.get CIPH_MS_PN_THR_HI_V (onDie d) * 2 ^ 32 + s.get CIPH_MS_PN_THR_LO_V (onDie d)
  let old := s.nextPn d i
  let s := s.setPn d i v
  if old < thr ∧ thr ≤ v then s.put CIPH_EVT_PN_THR (onDie d) 1 else s

/-- The largest PN of an MS slot (R503). -/
def State.maxPn (s : State) (d i : Nat) : Nat := if s.is CIPH_MS_SA_CFG_XPN (place d i) then 2 ^ 64 - 1 else 2 ^ 32 - 1

/-- MS_PN_WRITE (R504): with the latest write of MS_PN_HI. -/
def execMsPnWrite (d : CourseDie) (i : Fin 2048) (v : Word) (s : State) : Out := s.event fun s =>
  let d := courseIdx d
  let s := s.wr CIPH_MS_PN_LO (place d i.val) v
  s.setPn d i.val ((s.rd CIPH_MS_PN_HI (place d i.val)).toNat * 2 ^ 32 + v.toNat)

/-- MS_PN_READ (R504): the live value, its high half into MS_PN_HI. -/
def execMsPnRead (d : CourseDie) (i : Fin 2048) (s : State) : Out := s.event fun s =>
  let d := courseIdx d
  let n := s.nextPn d i.val
  (s.wr CIPH_MS_PN_LO (place d i.val) (BitVec.ofNat 32 n)).wr CIPH_MS_PN_HI (place d i.val) (BitVec.ofNat 32 (n / 2 ^ 32))

/-- MS_RXSC_WRITE (R505): with the latest write of MS_RXSC_HI. -/
def execMsRxscWrite (p : Port) (n : Fin 4) (v : Word) (s : State) : Out := s.event fun s =>
  let a := place (portDie p.val) (p.val * 4 + n.val)
  let s := s.wr CIPH_MS_RXSC_LO a v
  s.commitAll [(CIPH_MS_RXSC_HI, a), (CIPH_MS_RXSC_LO, a)]

/-- Bytes combined with key stream. -/
def xorBytes (a b : List Byte) : List Byte := (List.range a.length).map (fun i => a.getD i 0 ^^^ b.getD i 0)

/-- The 96-bit IV of a MACsec frame (PRESUMED from IEEE 802.1AE, log 31). -/
def macsecIv (x : KeyCopy) (xpn : Bool) (sci : BitVec 64) (pn : Nat) : BitVec 96 :=
  if xpn then x.salt ^^^ BitVec.ofNat 96 (x.ssci.toNat * 2 ^ 64 + pn % 2 ^ 64)
  else BitVec.ofNat 96 (sci.toNat * 2 ^ 32 + pn % 2 ^ 32)

/-- The counter block of a 96-bit IV and a 32-bit count. -/
def counterBlock (iv : BitVec 96) (n : Nat) : BitVec 128 := BitVec.ofNat 128 (iv.toNat * 2 ^ 32 + n)

/-- The ICV of a frame: additional data and ciphertext (PRESUMED, log 31). -/
def macsecIcv (x : KeyCopy) (iv : BitVec 96) (aad text : List Byte) : List Byte :=
  let h := Config.ghash x.key x.long (Config.ghash x.key x.long 0 aad) text
  beBytes 16 (Config.gcmFinal x.key x.long iv h aad.length text.length).toNat

/-- The EtherType of a frame, after its two addresses. -/
def etherType (l : List Byte) : Nat := beNat (slice l 12 2)

/-- The SecTAG of a transmitted frame (R501, log 31): its layout is that of IEEE 802.1AE. -/
def secTag (conf sciInc : Bool) (an : Nat) (sci : BitVec 64) (pn textLen : Nat) : List Byte :=
  [0x88, 0xE5, BitVec.ofNat 8 (b2n sciInc * 32 + b2n conf * 12 + an), BitVec.ofNat 8 (if textLen < 48 then textLen else 0)] ++
  beBytes 4 (pn % 2 ^ 32) ++ (if sciInc then beBytes 8 sci.toNat else [])

/-- What MACsec makes of a frame to send (R501, R503, Table 11.4). -/
inductive Protect where
  | clear
  | protected_ (frame : List Byte) (slot : Nat) (second : Bool)
  | noKey
  | exhausted
  deriving DecidableEq, Repr

/-- Protect a frame of port p; the packet number it takes is spent (R501, R503). -/
def State.macsecTx (s : State) (p : Nat) (l : List Byte) : Protect × State :=
  let d := portDie p
  let a := atPort p
  if !s.isEff CIPH_MS_TX_EN a || etherType l = 0x888E || etherType l = 0x8808 then (.clear, s)
  else
    let i := s.getEff CIPH_MS_TX_SLOT a
    let x := s.slotAt (slotKey d poolMs i)
    let pn := s.nextPn d i
    if !x.valid then (.noKey, s.count CIPH_CNT_MS_TX_NOKEY a)
    else if s.maxPn d i < pn then (.exhausted, s.count CIPH_CNT_MS_TX_PNEXH a)
    else
      let k := x.now
      let conf := s.isEff CIPH_MS_TX_CONF a
      let sci := BitVec.ofNat 64 ((s.rdEff CIPH_MS_SCI_HI a).toNat * 2 ^ 32 + (s.rdEff CIPH_MS_SCI_LO a).toNat)
      let text := l.drop 12
      let tag := secTag conf (s.isEff CIPH_MS_TX_SCI_INC a) (s.getEff CIPH_MS_TX_AN a) sci pn text.length
      let iv := macsecIv k (s.is CIPH_MS_SA_CFG_XPN (place d i)) sci pn
      let out := if conf then xorBytes text (Config.keyStream k.key k.long (counterBlock iv 2) text.length) else text
      let icv := if conf then macsecIcv k iv (l.take 12 ++ tag) out else macsecIcv k iv (l.take 12 ++ tag ++ text) []
      let s := (s.advancePn d i (pn + 1)).count CIPH_CNT_MS_TX_PROT a
      (.protected_ (l.take 12 ++ tag ++ out ++ icv) i x.second, s)

/-- The receive SC that a frame selects (R506 step 3): with its SCI, the lowest valid one that holds it; without, SC 0. -/
def State.rxSc (s : State) (p : Nat) (sci : Option Nat) : Option Nat :=
  let d := portDie p
  let v := s.get CIPH_MS_RXSC_CTL_V (atPort p)
  match sci with
  | none => if bitOf v 0 then some 0 else none
  | some x => (List.range 4).find? (fun n => bitOf v n &&
      (s.rdEff CIPH_MS_RXSC_HI (place d (p * 4 + n))).toNat * 2 ^ 32 + (s.rdEff CIPH_MS_RXSC_LO (place d (p * 4 + n))).toNat == x)

/-- The packet number of a received frame: with XPN the high half is recovered as IEEE 802.1AE-2018 defines it
(R506 step 4, log 31), from the lowest acceptable one. -/
def fullPn (xpn : Bool) (lowest low : Nat) : Nat :=
  if !xpn then low
  else if bitOf lowest 31 && !bitOf low 31 then (lowest / 2 ^ 32 + 1) * 2 ^ 32 + low
  else lowest / 2 ^ 32 * 2 ^ 32 + low

/-- What R506 makes of a frame without FCS that R445 would deliver on port p: the frame to deliver, or none. -/
def State.macsecRx (s : State) (p : Nat) (l : List Byte) : Option (List Byte) × State :=
  let d := portDie p
  let a := atPort p
  if !s.is CIPH_MS_RX_EN a then (some l, s)
  else if etherType l ≠ 0x88E5 then
    if etherType l = 0x888E then (some l, s) else (none, s.count CIPH_CNT_MS_RX_UNTAGGED a)
  else
    let tci := (slice l 14 1).headD 0
    let sc := tci.getLsbD 5
    let n := if sc then 28 else 20
    if tci.getLsbD 7 || l.length < n + 16 then (none, s.count CIPH_CNT_MS_RX_BADTAG a)
    else
      let sa := (s.rxSc p (if sc then some (beNat (slice l 20 8)) else none)).map
        (fun q => place d (p * 16 + 4 * q + tci.toNat % 4))
      match sa.filter (fun r => s.is CIPH_MS_RXSA_V r && (s.slotAt (slotKey d poolMs (s.get CIPH_MS_RXSA_SLOT r))).valid) with
      | none => (none, s.count CIPH_CNT_MS_RX_NOSA a)
      | some r =>
        let i := s.get CIPH_MS_RXSA_SLOT r
        let k := (s.slotAt (slotKey d poolMs i)).now
        let xpn := s.is CIPH_MS_SA_CFG_XPN (place d i)
        let next := s.nextPn d i
        let lowest := next - s.get CIPH_MS_RX_WIN_V a
        let pn := fullPn xpn lowest (beNat (slice l 16 4))
        if s.is CIPH_MS_RX_REPLAY a && pn < lowest then (none, s.count CIPH_CNT_MS_RX_REPLAY a)
        else
          let q := (r % 2 ^ 24 - p * 16) / 4
          let sci := BitVec.ofNat 64 ((s.rdEff CIPH_MS_RXSC_HI (place d (p * 4 + q))).toNat * 2 ^ 32 +
            (s.rdEff CIPH_MS_RXSC_LO (place d (p * 4 + q))).toNat)
          let iv := macsecIv k xpn sci pn
          let text := (l.drop n).take (l.length - n - 16)
          let icv := l.drop (l.length - 16)
          let conf := tci.getLsbD 3
          let want := if conf then macsecIcv k iv (l.take n) text else macsecIcv k iv (l.take n ++ text) []
          if want ≠ icv then (none, s.count CIPH_CNT_MS_RX_TAGFAIL a)
          else
            let out := if conf then xorBytes text (Config.keyStream k.key k.long (counterBlock iv 2) text.length) else text
            let s := (s.advancePn d i (Nat.max next (pn + 1))).count CIPH_CNT_MS_RX_OK a
            (some (l.take 12 ++ out), s)

end Sys2Proof.Machine
end

