-- ==== Sys2Proof/Machine/LookAside.lean ====
section
/-!
DEFINITION. Bulk accesses of engines to memory, and the look-aside engine of the line dies (11_cipher_engines.md, R508 to
R515). A LA command processes the head descriptor of a ring whole.
-/
namespace Sys2Proof.Machine
open Reg

/-! ## Bulk accesses -/

/-- How an engine on die `src` fares with n bytes at a 40-bit address: an error response, a die that is not in RUN
(R665), or open. -/
def State.spanReach (s : State) (src addr n : Nat) : Reach :=
  let d := addr / 2 ^ 36 % 16
  let off := addr % 2 ^ 36
  if n = 0 then .open_ 0
  else if 2 ^ 36 < off + n || s.region d off == .unbacked || s.region d (off + n - 1) != s.region d off then .error
  else s.reach src d

/-- How many of the n bytes at an address an engine on die `src` reaches before its first error response. -/
def State.spanGood (s : State) (src addr n : Nat) : Nat :=
  let d := addr / 2 ^ 36 % 16
  let off := addr % 2 ^ 36
  match s.spanReach src addr n with
  | .error => (match s.reach src d with
    | .error => 0
    | _ => min n (s.regionEnd d off - off))
  | _ => n

/-- The n bytes at an address, acting on the error the read found (R529, R530, R574): none is an error response. -/
def State.readSpan (s : State) (src addr n : Nat) (e : Ecc) : Option (List Byte) × State :=
  match s.spanReach src addr n with
  | .open_ _ =>
    if n = 0 then (some [], s)
    else match (s.rcUse (addr / 2 ^ 36) (addr % 2 ^ 36) n false).memFind (addr / 2 ^ 36 % 16) (addr % 2 ^ 36) e with
      | (false, s) => (none, s)
      | (true, s) => (some (s.bytes addr n), s)
  | _ => (none, s)

/-- Write bytes at an address: none is an error response. -/
def State.writeSpan (s : State) (src addr : Nat) (l : List Byte) : Option State :=
  match s.spanReach src addr l.length with
  | .open_ _ => some (s.putBytes addr l)
  | _ => none

/-! ## Descriptors (Table 11.7) -/

/-- The address of the head descriptor of ring q of line die n. -/
def State.laDesc (s : State) (n q : Nat) : Nat :=
  s.get CIPH_LA_BASE_HI_V (place n q) * 2 ^ 32 + s.get CIPH_LA_BASE_LO_V (place n q) * 64 + s.get CIPH_LA_HEAD_V (place n q) * 64

/-- A descriptor's fields (Table 11.7). -/
structure LaDesc where
  own : Bool
  op : Nat
  first : Bool
  last : Bool
  irq : Bool
  slot : Nat
  ctx : Nat
  tagw : Nat
  src : Nat
  dst : Nat
  len : Nat
  aad : Nat
  iv : List Byte
  tag : List Byte
  deriving DecidableEq, Repr

/-- Read the fields of a descriptor from its 64 bytes. -/
def laDecode (l : List Byte) : LaDesc :=
  let c : Word := BitVec.ofNat 32 (leNat (slice l 0 4))
  { own := bits c 31 31 == 1, op := bits c 30 27, first := bits c 26 26 == 1, last := bits c 25 25 == 1
    irq := bits c 24 24 == 1, slot := bits c 21 16, ctx := bits c 11 8, tagw := bits c 2 0
    src := leNat (slice l 8 8) % 2 ^ 40, dst := leNat (slice l 16 8) % 2 ^ 40
    len := leNat (slice l 24 3), aad := leNat (slice l 28 2), iv := slice l 32 16, tag := slice l 48 16 }

/-- Status codes (Table 11.7). -/
abbrev laOk : Nat := 0
abbrev laTagFail : Nat := 1
abbrev laErased : Nat := 2
abbrev laNoKey : Nat := 3
abbrev laBusErr : Nat := 4
abbrev laBadDesc : Nat := 5
abbrev laCtxInvalid : Nat := 6
abbrev laIvExhausted : Nat := 7

/-! ## Rings (R508, R514, R515) -/

/-- Ring q of line die n runs: the engine and the ring are enabled, it has not halted and waits for no doorbell. -/
def State.laRuns (s : State) (n q : Nat) : Bool :=
  s.is CIPH_LA_CFG_EN (onDie n) && s.is CIPH_LA_RING_EN (place n q) && !bitOf (s.get CIPH_LA_STAT_HALT (onDie n)) q &&
  !Tab.get s.ciph.waiting false (n * 2 + q)

/-- The head descriptor of a ring is owned by the engine. -/
def State.laOwned (s : State) (n q : Nat) : Bool :=
  match (s.readSpan n (s.laDesc n q) 64 .clean).1 with
  | none => false
  | some l => (laDecode l).own

/-- A ring waits, or no longer waits, for a doorbell. -/
def State.setWaiting (s : State) (n q : Nat) (b : Bool) : State :=
  { s with ciph := { s.ciph with waiting := Tab.set s.ciph.waiting false (n * 2 + q) b } }

/-- Latch a bus error of a ring (R515): HALT, LA_ERR and the event. -/
def State.laHalt (s : State) (n q addr : Nat) (write : Bool) : State :=
  let s := s.put CIPH_LA_STAT_HALT (onDie n) (putBit (s.get CIPH_LA_STAT_HALT (onDie n)) q true)
  let s := s.put CIPH_LA_ERR_DIR (onDie n) (b2n write)
  let s := s.put CIPH_LA_ERR_ADDR (onDie n) addr
  if q = 0 then s.put CIPH_EVT_LA_HALT0 (onDie n) 1 else s.put CIPH_EVT_LA_HALT1 (onDie n) 1

/-- Clear the bulk job that ring 1 ran. -/
def State.endBulk (s : State) (n q : Nat) : State :=
  if q = 1 then { s with ciph := { s.ciph with bulk := Tab.set s.ciph.bulk none n none } } else s

/-- The router of line die n reports an access of its look-aside engine that it refuses (R32); Table 1.8 has no SOURCE code for
the engine, so the code is open (log 2). -/
def State.laRefused (s : State) (n addr : Nat) (write : Bool) : State :=
  let (k, s) := s.draw Config.freeReserved
  s.refuseIfAbsent n (addr / 2 ^ 36) (k.toNat % 16) write addr

/-! ## Contexts (R511, R512, Table 11.9) -/

/-- A context of a line die. -/
def State.laCtx (s : State) (n c : Nat) : Option LaCtx := Tab.get s.ciph.ctx none (n * 16 + c)
/-- Set a context: LA_CTX_STAT shows the valid ones (R511). -/
def State.setLaCtx (s : State) (n c : Nat) (x : Option LaCtx) : State :=
  let s := { s with ciph := { s.ciph with ctx := Tab.set s.ciph.ctx none (n * 16 + c) x } }
  s.put CIPH_LA_CTX_STAT_V (onDie n) (putBit (s.get CIPH_LA_CTX_STAT_V (onDie n)) c x.isSome)

/-- The clear image of a context (Table 11.9). -/
def LaCtx.image (x : LaCtx) : List Byte :=
  leBytes 4 (2 ^ 28 + x.op * 2 ^ 24 + x.slot * 2 ^ 16 + x.serial.toNat) ++ leBytes 4 0 ++ leBytes 8 x.aad ++ leBytes 8 x.text ++
  beBytes 16 x.counter.toNat ++ beBytes 16 x.acc.toNat ++ beBytes 12 x.iv.toNat ++ List.replicate 28 0

/-- The context a clear image holds; none for another version. -/
def ctxOfImage (l : List Byte) : Option LaCtx :=
  let w : Word := BitVec.ofNat 32 (leNat (slice l 0 4))
  if bits w 31 28 = 1 then
    some { op := bits w 27 24, slot := bits w 21 16, serial := BitVec.ofNat 16 (bits w 15 0), aad := leNat (slice l 8 8)
           text := leNat (slice l 16 8), counter := BitVec.ofNat 128 (beNat (slice l 24 16))
           acc := BitVec.ofNat 128 (beNat (slice l 40 16)), iv := BitVec.ofNat 96 (beNat (slice l 56 12)) }
  else none

/-! ## Operations (R509 to R511, Table 11.8) -/

/-- The descriptor is malformed (R508, R511, R512): a code that R508 gives BAD_DESC. -/
def LaDesc.bad (x : LaDesc) (clearCtx : Bool) : Bool :=
  let gcm := x.op ≤ 1
  let cmac := x.op = 4 || x.op = 5
  9 < x.op || (gcm && !(x.tagw = 3 || x.tagw = 4)) || (cmac && !(1 ≤ x.tagw && x.tagw ≤ 4)) || (!gcm && x.aad ≠ 0) ||
  (x.op ≤ 5 && ((!x.last && x.len % 16 ≠ 0) || (!x.first && x.aad ≠ 0))) || (x.op = 1 && !(x.first && x.last)) ||
  ((x.op = 6 || x.op = 8) && !clearCtx)

/-- How many bytes an operation reads from SRC: AAD and text, or a context's image (R508, R512). -/
def LaDesc.inLen (x : LaDesc) : Nat := if x.op ≤ 5 then x.aad + x.len else if x.op = 8 then 96 else if x.op = 9 then 104 else 0

/-- How many bytes an operation writes to DST: its text, or a context's image (R508, R512). -/
def LaDesc.outLen (x : LaDesc) : Nat := if x.op ≤ 3 then x.len else if x.op = 6 then 96 else if x.op = 7 then 104 else 0

/-- GCM or CTR encryption. -/
def LaDesc.encrypts (x : LaDesc) : Bool := x.op = 0 || x.op = 2

/-- The state of a new job. -/
def freshJob (x : LaDesc) (serial : BitVec 16) (iv : BitVec 96) : LaCtx :=
  { op := x.op, slot := x.slot, serial := serial, aad := x.aad, text := 0
    counter := counterBlock iv (if x.op ≤ 1 then 2 else 1), acc := 0, iv := iv }

/-- The job state a part starts from: fresh for the FIRST part, else the context of the same job (R511). -/
def State.laStart (s : State) (n : Nat) (x : LaDesc) (iv : BitVec 96) : Option LaCtx :=
  let serial := (s.slotAt (slotKey n poolLa x.slot)).serial
  if x.first then some (freshJob x serial iv)
  else (s.laCtx n x.ctx).filter (fun c => c.op == x.op && c.slot == x.slot && c.serial == serial)

/-- The next counter block after n bytes of text: only its low 32 bits count. -/
def ctrAdvance (c : BitVec 128) (n : Nat) : BitVec 128 :=
  BitVec.ofNat 128 (c.toNat / 2 ^ 32 * 2 ^ 32 + (c.toNat % 2 ^ 32 + (n + 15) / 16) % 2 ^ 32)

/-- What a part of a job makes of its text: the output and the state after it. -/
def laPart (k : KeyCopy) (x : LaDesc) (c : LaCtx) (aad text : List Byte) : List Byte × LaCtx :=
  let pad := Config.keyStream k.key k.long c.counter text.length
  let out := if x.op ≤ 3 then xorBytes text pad else []
  let acc0 := if x.op ≤ 1 && x.first then Config.ghash k.key k.long c.acc aad else c.acc
  let acc := match x.op with
    | 0 => Config.ghash k.key k.long acc0 out
    | 1 => Config.ghash k.key k.long acc0 text
    | 4 | 5 => if x.last then acc0 else Config.cmacChain k.key k.long acc0 text
    | _ => acc0
  (out, { c with counter := ctrAdvance c.counter text.length, acc := acc, text := c.text + text.length })

/-- The tag of a finished job. -/
def laTag (k : KeyCopy) (x : LaDesc) (c : LaCtx) (text : List Byte) : List Byte :=
  if x.op ≤ 1 then beBytes 16 (Config.gcmFinal k.key k.long c.iv c.acc c.aad c.text).toNat
  else beBytes 16 (Config.cmacFinal k.key k.long c.acc text).toNat

/-- The first 4 × TAGW bytes of a tag, the rest 0 (Table 11.7). -/
def LaDesc.cutTag (x : LaDesc) (t : List Byte) : List Byte := slice (t.take (4 * x.tagw)) 0 16

/-- An encryption takes the slot's next IV, and the invocation counter advances (R509). -/
def State.takeIv (s : State) (n : Nat) (x : LaDesc) : BitVec 96 × State :=
  let key := slotKey n poolLa x.slot
  let k := s.slotAt key
  let c := k.now
  let c' := { c with counter := c.counter + 1 }
  (BitVec.ofNat 96 (c.fixedIv.toNat * 2 ^ 64 + c.counter.toNat),
   s.setSlotAt key (if k.second then { k with b := c' } else { k with a := c' }))

/-- Why a cipher descriptor does not start (R509, R511, Table 11.4). -/
def State.laStop (s : State) (n : Nat) (x : LaDesc) : Option Nat :=
  let slot := s.slotAt (slotKey n poolLa x.slot)
  if !slot.valid then some laNoKey
  else if x.encrypts && x.first && slot.now.counter.toNat = 2 ^ 64 - 1 then some laIvExhausted
  else if (s.laStart n x 0).isNone then some laCtxInvalid
  else none

/-- A cipher descriptor issues its first block (R489, R509): the copy in effect, the IV field it returns, and the job state it
starts from. -/
def State.laBegin (s : State) (n : Nat) (x : LaDesc) : Bool × List Byte × LaCtx × State :=
  let second := (s.slotAt (slotKey n poolLa x.slot)).second
  let (iv, s) := if x.encrypts && x.first then s.takeIv n x else (BitVec.ofNat 96 (beNat (x.iv.take 12)), s)
  let ivOut := if x.encrypts && x.first then beBytes 12 iv.toNat ++ [0, 0, 0, 0] else x.iv
  (second, ivOut, (s.laStart n x iv).getD (freshJob x 0 iv), s)

/-! ## Bus errors (R515) -/

/-- What a cipher descriptor that ends in a bus error has left (R509, R515): its output of the n first bytes of AAD and text, as far
as its output area can be written; a GCM decrypt zeroes it. A descriptor that has not issued its first block has left nothing. -/
def State.laPartial (s : State) (d : Nat) (x : LaDesc) (job : Option LaBulk) (n : Nat) : State :=
  if n = 0 || 5 < x.op || (job.isNone && (s.laStop d x).isSome) then s
  else
    let (second, _, c, s) := match job with
      | some j => (j.second, j.iv, j.start, s)
      | none => s.laBegin d x
    let l := s.bytes x.src (min n (x.aad + x.len))
    let (out, _) := laPart ((s.slotAt (slotKey d poolLa x.slot)).copy second) x c (l.take x.aad) (l.drop x.aad)
    let out := if x.op = 1 then List.replicate out.length 0 else out
    s.putBytes x.dst (out.take (s.spanGood d x.dst out.length))

/-- How much of its AAD and text a cipher descriptor had taken when an access at an address failed (R515): a read is of its source, in
blocks of 16 bytes, a write of its output. -/
def LaDesc.taken (x : LaDesc) (addr : Nat) (write : Bool) : Nat :=
  if write then (if x.dst ≤ addr && addr < x.dst + x.len then x.aad + (addr - x.dst) else 0)
  else if x.src ≤ addr && addr < x.src + x.aad + x.len then
    (let n := addr - x.src
     if n ≤ x.aad then n else x.aad + (n - x.aad) / 16 * 16)
  else 0

/-- The bulk job that ring q of line die n goes on with. -/
def State.laGoingOn (s : State) (n q : Nat) : Option LaBulk := if q = 1 then Tab.get s.ciph.bulk none n else none

/-- A bus error of ring q (R515): the status is written unless the error fell on the descriptor itself, and a GCM decrypt
zeroes what it has written up to the failing address. -/
def State.laBusError (s : State) (n q addr : Nat) (write onDesc : Bool) : State :=
  let a := s.laDesc n q
  let job := s.laGoingOn n q
  let s := (s.laRefused n addr write).laHalt n q addr write
  if onDesc then s.endBulk n q
  else match (s.readSpan n a 64 .clean).1 with
  | none => s.endBulk n q
  | some l =>
    let x := laDecode l
    let s := (s.laPartial n x job (x.taken addr write)).endBulk n q
    s.putBytes (a + 4) (leBytes 4 laBusErr)

/-- The engine reads the head of a ring that runs (R508): with OWN = 0 it waits for a doorbell. A memory die that is not in RUN is
woken, and the read waits (R665); an error response is a bus error on the descriptor (R515). -/
def State.laLook (s : State) (n q : Nat) : State :=
  let a := s.laDesc n q
  let s := s.setWaiting n q false
  if !s.laRuns n q then s
  else match s.spanReach n a 64 with
  | .asleep _ => s.wakeRoute n (a / 2 ^ 36)
  | _ => match (s.readSpan n a 64 .clean).1 with
    | none => s.laBusError n q a false true
    | some l => s.setWaiting n q (!(laDecode l).own)

/-- LA_DOORBELL (R508). -/
def execLaDoorbell (n : LineDie) (q : Fin 2) (s : State) : Out := s.event fun s => s.laLook n.val q.val

/-- LA_BUS_ERROR (R515): an access without a response within 4,096 mc, or with an error response. -/
def execLaBusError (n : LineDie) (q : Fin 2) (addr : Addr) (write onDesc : Bool) (s : State) : Out := s.unit n.val 5 fun s =>
  if s.laRuns n.val q.val && (onDesc || s.laOwned n.val q.val) then s.laBusError n.val q.val addr.toNat write onDesc else s

/-- Complete the head descriptor (R508): bytes 4 to 63 are written back, then CTL with OWN cleared; the head advances,
and the engine reads the next one. -/
def State.laComplete (s : State) (n q : Nat) (x : LaDesc) (code : Nat) (iv tag : List Byte) : State :=
  let a := s.laDesc n q
  let s := (s.putBytes (a + 4) (leBytes 4 code)).putBytes (a + 32) (iv ++ tag)
  let s := s.setByte (a + 3) (s.byte (a + 3) &&& 0x7F)
  let s := if x.irq then (if q = 0 then s.put CIPH_EVT_LA_DONE0 (onDie n) 1 else s.put CIPH_EVT_LA_DONE1 (onDie n) 1) else s
  let h := s.get CIPH_LA_HEAD_V (place n q)
  let s := s.put CIPH_LA_HEAD_V (place n q) ((h + 1) % 2 ^ s.get CIPH_LA_RING_LOG2N (place n q))
  (s.endBulk n q).laLook n q

/-! ## Cipher descriptors, saves and restores (R508 to R512) -/

/-- Store the job's state in its context, or end the job (R511). -/
def State.laKeep (s : State) (n : Nat) (x : LaDesc) (c : LaCtx) : State :=
  if x.first && x.last then s else s.setLaCtx n x.ctx (if x.last then none else some c)

/-- The end of a cipher descriptor whose text and state are known and whose output area can be written (R508 to R511). -/
def State.laFinish (s : State) (n q : Nat) (x : LaDesc) (k : KeyCopy) (c : LaCtx) (aad text iv : List Byte) : State :=
  let (out, c) := laPart k x c aad text
  let tag := laTag k x c text
  if x.op = 1 && x.cutTag tag ≠ x.cutTag x.tag then
    (s.putBytes x.dst (List.replicate out.length 0)).laComplete n q x laTagFail iv x.tag
  else if x.op = 5 && x.last && x.cutTag tag ≠ x.cutTag x.tag then (s.laKeep n x c).laComplete n q x laTagFail iv x.tag
  else ((s.putBytes x.dst out).laKeep n x c).laComplete n q x laOk iv
    (if (x.op = 0 || x.op = 4) && x.last then x.cutTag tag else x.tag)

/-- A GCM, CTR or CMAC descriptor (R489, R508 to R511, R515, Table 11.4); a resumed bulk job goes on from what it started with
(R514). A read and a write that fail are met in the order of the text. -/
def State.laCipher (s : State) (n q : Nat) (x : LaDesc) (job : Option LaBulk) (e : Ecc) : State :=
  match (if job.isSome then none else s.laStop n x) with
  | some code => s.laComplete n q x code x.iv x.tag
  | none =>
    let good := s.spanGood n x.src (x.aad + x.len)
    let room := s.spanGood n x.dst x.outLen
    if room < x.outLen && x.aad + room < good then s.laBusError n q (x.dst + room) true false
    else match s.readSpan n x.src (x.aad + x.len) e with
    | (none, s) => s.laBusError n q (x.src + (if eccBad e then 0 else good)) false false
    | (some l, s) =>
      let (second, iv, c, s) := match job with
        | some j => (j.second, j.iv, j.start, s)
        | none => s.laBegin n x
      s.laFinish n q x ((s.slotAt (slotKey n poolLa x.slot)).copy second) c (l.take x.aad) (l.drop x.aad) iv

/-- A context save (R511, R512); a context that is not valid has no image to save. -/
def State.laSave (s : State) (n q : Nat) (x : LaDesc) : State :=
  match s.laCtx n x.ctx with
  | none => s.laComplete n q x laCtxInvalid x.iv x.tag
  | some c =>
    let l := if x.op = 7 then slice (Config.ctxWrap s.hw.fuses.contextKey c.image) 0 104 else c.image
    let room := s.spanGood n x.dst l.length
    let s := s.putBytes x.dst (l.take room)
    if room < l.length then s.laBusError n q (x.dst + room) true false else s.laComplete n q x laOk x.iv x.tag

/-- A context restore (R512). -/
def State.laRestore (s : State) (n q : Nat) (x : LaDesc) (e : Ecc) : State :=
  match s.readSpan n x.src x.inLen e with
  | (none, s) => s.laBusError n q (x.src + (if eccBad e then 0 else s.spanGood n x.src x.inLen)) false false
  | (some l, s) =>
    let img := if x.op = 9 then Config.ctxUnwrap s.hw.fuses.contextKey l else some l
    match img.bind ctxOfImage with
    | none => s.laComplete n q x laCtxInvalid x.iv x.tag
    | some c =>
      if (s.slotAt (slotKey n poolLa c.slot)).serial ≠ c.serial then s.laComplete n q x laCtxInvalid x.iv x.tag
      else (s.setLaCtx n x.ctx (some c)).laComplete n q x laOk x.iv x.tag

/-- The engine may take the head of ring q (R514): a bulk job starts only while ring 0's head is not owned, and a
suspended one does not go on. -/
def State.laMay (s : State) (n q : Nat) : Bool :=
  s.laRuns n q && (q = 0 || (match Tab.get s.ciph.bulk none n with
    | some j => !j.suspended
    | none => !(s.laRuns n 0 && s.laOwned n 0)))

/-- Process a descriptor if its OP is `op` (R508): a reserved OP completes with BAD_DESC whichever operation the engine takes it
for. A memory die that is not in RUN is woken and the access waits (R665). -/
def State.laDo (s : State) (n q op : Nat) (x : LaDesc) (job : Option LaBulk) (e : Ecc) : State :=
  if !x.own then s.setWaiting n q true
  else if x.op ≠ op && x.op ≤ 9 then s
  else if x.bad (s.is CIPH_LA_CFG_CLEAR_CTX (onDie n)) then s.laComplete n q x laBadDesc x.iv x.tag
  else match s.spanReach n x.src x.inLen, s.spanReach n x.dst x.outLen with
  | .asleep _, _ => s.wakeRoute n (x.src / 2 ^ 36)
  | _, .asleep _ => s.wakeRoute n (x.dst / 2 ^ 36)
  | _, _ =>
    if x.op ≤ 5 then s.laCipher n q x job e
    else if x.op ≤ 7 then s.laSave n q x
    else s.laRestore n q x e

/-- Process the head descriptor of a ring if its OP is `op`: a bulk job that was suspended keeps the descriptor it read. -/
def State.laRun (s : State) (n q op : Nat) (e : Ecc) : State :=
  let a := s.laDesc n q
  if !s.laMay n q then s
  else match s.laGoingOn n q with
  | some j => s.laDo n q op (laDecode j.desc) (some j) e
  | none => match s.spanReach n a 64 with
    | .asleep _ => s.wakeRoute n (a / 2 ^ 36)
    | _ => match (s.readSpan n a 64 .clean).1 with
      | none => s.laBusError n q a false true
      | some l => s.laDo n q op (laDecode l) none e

/-- LA_GCM_ENCRYPT (R509). -/
def execLaGcmEncrypt (n : LineDie) (q : Fin 2) (e : Ecc) (s : State) : Out := s.unit n.val 5 fun s => s.laRun n.val q.val 0 e
/-- LA_GCM_DECRYPT (R510). -/
def execLaGcmDecrypt (n : LineDie) (q : Fin 2) (e : Ecc) (s : State) : Out := s.unit n.val 5 fun s => s.laRun n.val q.val 1 e
/-- LA_CTR_ENCRYPT (R509). -/
def execLaCtrEncrypt (n : LineDie) (q : Fin 2) (e : Ecc) (s : State) : Out := s.unit n.val 5 fun s => s.laRun n.val q.val 2 e
/-- LA_CTR_DECRYPT (R509). -/
def execLaCtrDecrypt (n : LineDie) (q : Fin 2) (e : Ecc) (s : State) : Out := s.unit n.val 5 fun s => s.laRun n.val q.val 3 e
/-- LA_CMAC_GENERATE (R508). -/
def execLaCmacGenerate (n : LineDie) (q : Fin 2) (e : Ecc) (s : State) : Out := s.unit n.val 5 fun s => s.laRun n.val q.val 4 e
/-- LA_CMAC_VERIFY (R510). -/
def execLaCmacVerify (n : LineDie) (q : Fin 2) (e : Ecc) (s : State) : Out := s.unit n.val 5 fun s => s.laRun n.val q.val 5 e
/-- LA_CONTEXT_SAVE_CLEAR (R512). -/
def execLaContextSaveClear (n : LineDie) (q : Fin 2) (e : Ecc) (s : State) : Out := s.unit n.val 5 fun s => s.laRun n.val q.val 6 e
/-- LA_CONTEXT_SAVE_WRAPPED (R512). -/
def execLaContextSaveWrapped (n : LineDie) (q : Fin 2) (e : Ecc) (s : State) : Out := s.unit n.val 5 fun s => s.laRun n.val q.val 7 e
/-- LA_CONTEXT_RESTORE_CLEAR (R512). -/
def execLaContextRestoreClear (n : LineDie) (q : Fin 2) (e : Ecc) (s : State) : Out := s.unit n.val 5 fun s => s.laRun n.val q.val 8 e
/-- LA_CONTEXT_RESTORE_WRAPPED (R512). -/
def execLaContextRestoreWrapped (n : LineDie) (q : Fin 2) (e : Ecc) (s : State) : Out := s.unit n.val 5 fun s => s.laRun n.val q.val 9 e

/-- The bulk job that ring 1's head descriptor is, once its first block has been issued (R514); none where the head is not one
that runs. -/
def State.laBulkJob (s : State) (n : Nat) : Option (LaBulk × State) :=
  match (s.readSpan n (s.laDesc n 1) 64 .clean).1 with
  | none => none
  | some l =>
    let x := laDecode l
    if !x.own || 5 < x.op || x.bad (s.is CIPH_LA_CFG_CLEAR_CTX (onDie n)) || (s.laStop n x).isSome ||
        (s.readSpan n x.src (x.aad + x.len) .clean).1.isNone then none
    else
      let (second, iv, c, s) := s.laBegin n x
      some ({ slot := x.slot, second := second, suspended := true, desc := l, iv := iv, start := c }, s)

/-- LA_BULK_SUSPEND (R514): ring 0's head becomes owned while a bulk job runs. -/
def execLaBulkSuspend (n : LineDie) (s : State) : Out := s.unit n.val 5 fun s =>
  let n := n.val
  let keep (j : LaBulk) (s : State) : State := { s with ciph := { s.ciph with bulk := Tab.set s.ciph.bulk none n (some j) } }
  if !(s.laRuns n 0 && s.laOwned n 0) then s
  else match Tab.get s.ciph.bulk none n with
  | some j => keep { j with suspended := true } s
  | none =>
    if !s.laRuns n 1 then s
    else match s.laBulkJob n with
    | some (j, s) => keep j s
    | none => s

/-- LA_BULK_RESUME (R514): once the engine has read ring 0's head with OWN = 0. -/
def execLaBulkResume (n : LineDie) (s : State) : Out := s.unit n.val 5 fun s =>
  let n := n.val
  match Tab.get s.ciph.bulk none n with
  | none => s
  | some j =>
    if s.laOwned n 0 then s
    else
      let s := s.setWaiting n 0 true
      { s with ciph := { s.ciph with bulk := Tab.set s.ciph.bulk none n (some { j with suspended := false }) } }

/-- A bulk job whose slot is erased aborts (R491, Table 11.4): its output area is zeroed, its status is ERASED and its
context becomes invalid. -/
def State.laAbort (s : State) (n slot : Nat) : State :=
  match Tab.get s.ciph.bulk none n with
  | none => s
  | some j =>
    if j.slot ≠ slot then s
    else
      let x := laDecode j.desc
      let s := if x.op ≤ 3 then (s.writeSpan n x.dst (List.replicate x.len 0)).getD s else s
      (s.setLaCtx n x.ctx none).laComplete n 1 x laErased x.iv x.tag

/-- Erase a slot, with every operation that uses it aborted (R491). -/
def State.eraseKey (s : State) (k : Nat) : State :=
  let s := s.eraseSlot k
  if k / 2 ^ 12 % 4 = poolLa then s.laAbort (k / 2 ^ 14) (k % 2 ^ 12) else s

/-- KSLOT_ERASE (R491): accepted even while BUSY is 1. -/
def execKslotErase (d : LcDie) (v : Word) (s : State) : Out := s.event fun s =>
  let d := d.val
  let a := onDie d
  let s := s.fwWrite KSLOT_CMD a v
  if s.hw.zeroising then s.kslotReject d 4
  else if poolSize d (s.get KSLOT_CMD_POOL a) ≤ s.get KSLOT_CMD_INDEX a then s.kslotReject d 2
  else
    let k := s.cmdSlot d
    ((s.put KSLOT_STAT_REJ_CAUSE a 0).eraseKey k).showSerial d k

end Sys2Proof.Machine
end

