-- ==== Sys2Proof/Machine/MacOps.lean ====
section
/-!
DEFINITION. What the MACs share: their registers (R472), time stamps (R461 to R466), checksums (R451), the address filter
(R447) and pause (R453 to R457).
-/
namespace Sys2Proof
open Machine

/-! ## Registers (R472) -/

/-- A MAC's number: its port, or 64. -/
def MacPort.key : MacPort → Nat
  | .port p => p.val
  | .mgt => 64
/-- A MAC register: the management port's stand one block above (Table 19.3). -/
def MacPort.reg (m : MacPort) (r : Nat) : Nat :=
  match m with
  | .port _ => r
  | .mgt => r + 0x100
/-- A field of a MAC register. -/
def MacPort.fld (m : MacPort) (f : Fld) : Fld := { f with reg := m.reg f.reg }
/-- The place of a MAC's registers. -/
def MacPort.at_ : MacPort → Nat
  | .port p => atPort p.val
  | .mgt => d0
/-- The retention bank that keeps a MAC's state: none keeps the management port's (Table 16.11). -/
def MacPort.bank : MacPort → Nat
  | .port _ => 4
  | .mgt => 8
/-- The die of a MAC. -/
def MacPort.die : MacPort → Nat
  | .port p => portDie p.val
  | .mgt => 0

end Sys2Proof

namespace Sys2Proof.Machine
open Reg

/-- A field of a MAC. -/
def State.mget (s : State) (m : MacPort) (f : Fld) : Nat := s.get (m.fld f) m.at_
/-- A one-bit field of a MAC. -/
def State.mis (s : State) (m : MacPort) (f : Fld) : Bool := s.is (m.fld f) m.at_
/-- Store a field of a MAC. -/
def State.mput (s : State) (m : MacPort) (f : Fld) (v : Nat) : State := s.put (m.fld f) m.at_ v
/-- Add 1 to a counter of a MAC. -/
def State.mcount (s : State) (m : MacPort) (r : Nat) : State := s.count (m.reg r) m.at_

/-- Add n to a 48-bit counter (R471): its high 16 bits stand in effect beside the HI register until LO is read. -/
def State.count48 (s : State) (m : MacPort) (lo hi : Nat) (n : Nat) : State :=
  let v := (s.rdEff (m.reg hi) m.at_).toNat % 2 ^ 16 * 2 ^ 32 + (s.rd (m.reg lo) m.at_).toNat + n
  (s.wr (m.reg lo) m.at_ (BitVec.ofNat 32 v)).wrEff (m.reg hi) m.at_ (BitVec.ofNat 32 (v / 2 ^ 32 % 2 ^ 16))

/-- The wire time of one byte of a MAC, in units of 1/25 ns (R443, R472). -/
def State.macByte25 (s : State) : MacPort → Nat
  | .port p => s.byte25 p.val
  | .mgt =>
    if s.getEff LANE_MGT_CFG_RATE d0 = 0 then 200
    else
      let v := if s.is LANE_MGT_CFG_AN_EN d0 then (s.mac 64).speed else s.get MGT_CFG_SPEED d0
      if v = 0 then 20000 else if v = 1 then 2000 else 200

/-- The lane of a MAC runs (Table 3.9). -/
def State.laneOn (s : State) : MacPort → Bool
  | .port p => s.is LANE_SUB_CFG_EN (atPort p.val)
  | .mgt => s.is LANE_MGT_CFG_EN d0
/-- The lane of a MAC loops transmit to receive (R134, Table 3.9). -/
def State.laneLoops (s : State) : MacPort → Bool
  | .port p => s.is LANE_SUB_CFG_LPBK (atPort p.val)
  | .mgt => s.is LANE_MGT_CFG_LPBK d0
/-- The link of a MAC is up: its lane runs, and LINK is 1 (Tables 3.9 and 10.5). -/
def State.carries (s : State) (m : MacPort) : Bool := s.laneOn m && s.mis m MAC_STAT_LINK

/-- One sw period of a MAC in units of 1/(825 × 2^28) ns. -/
def State.macSw (s : State) : MacPort → Nat
  | .port p => s.swPeriod p.val
  | .mgt => 4 * unitNs

/-! ## Time stamps (R461 to R463) -/

/-- A time in units of 2^-28 ns as seconds, nanoseconds and 16 bits of fraction. -/
def splitTime (t : Nat) : Nat × Nat × Nat := (t / 2 ^ 28 / 1000000000, t / 2 ^ 28 % 1000000000, t % 2 ^ 28 / 2 ^ 12)

/-- A stamp of a time t, in units of 2^-28 ns, with a correction in 2^-16 ns and an ε below one sw period (log 2). -/
def State.stampAt (s : State) (m : MacPort) (t : Int) (corr : Word) : (Nat × Nat × Nat) × State :=
  let (x, s) := s.draw Config.stampEps
  let eps := x % (s.macSw m / 825)
  (splitTime (t + signed 32 corr.toNat * 2 ^ 12 + (eps : Int)).toNat, s)

/-- A MAC's view of its die's network time, in units of 1/(825 × 2^28) ns (R461): it trails the replica by φ, which is brought
below one sw period. -/
def State.portView (s : State) (m : MacPort) (phi : Nat) : Nat := s.time.units - phi % s.macSw m

/-- Network time in units of 2^-28 ns. -/
def NetTime.t28 (t : NetTime) : Nat := t.nowNs * 2 ^ 28 + t.frac.toNat

/-! ## Edits of a transmitted frame (R451, R464 to R466) -/

/-- The offset of the EtherType after up to two tags (R451). -/
def typeOffset (l : List Byte) : Nat :=
  let tag (o : Nat) : Bool := beNat (slice l o 2) == 0x8100 || beNat (slice l o 2) == 0x88A8
  if tag 12 then (if tag 16 then 20 else 16) else 12

/-- The checksum field value that makes a one's-complement sum complete. -/
def csumValue (n : Nat) : Nat := 65535 - n

/-- CS_IP4 (R451): the header checksum written, or none where a requirement fails. -/
def ip4Csum (l : List Byte) : Option (List Byte) :=
  let o := typeOffset l
  let h := o + 2
  let ihl := (l.getD h 0).toNat % 16
  if beNat (slice l o 2) = 0x0800 && 5 ≤ ihl && h + ihl * 4 ≤ l.length then
    let z := splice l (h + 10) [0, 0]
    some (splice z (h + 10) (beBytes 2 (csumValue (Tile.onesSum 0 (slice z h (ihl * 4))))))
  else none

/-- The checksum of a TCP or UDP segment of n bytes at offset o, over a pseudo-header's sum (R451). -/
def l4Write (l : List Byte) (o n proto pseudo : Nat) : Option (List Byte) :=
  let f := o + (if proto = 6 then 16 else 6)
  if !(proto = 6 || proto = 17) || l.length < o + n || o + n < f + 2 then none
  else
    let z := splice l f [0, 0]
    let v := csumValue (Tile.onesSum pseudo (slice z o n))
    some (splice z f (beBytes 2 (if proto = 17 && v = 0 then 0xFFFF else v)))

/-- CS_L4 (R451): IPv4 without fragments, or IPv6 with TCP or UDP as its next header. -/
def l4Csum (l : List Byte) : Option (List Byte) :=
  let o := typeOffset l
  let h := o + 2
  if beNat (slice l o 2) = 0x0800 then
    let ihl := (l.getD h 0).toNat % 16
    let total := beNat (slice l (h + 2) 2)
    let frag := beNat (slice l (h + 6) 2)
    let proto := (l.getD (h + 9) 0).toNat
    if frag % 2 ^ 14 ≠ 0 || total < ihl * 4 then none
    else
      let n := total - ihl * 4
      l4Write l (h + ihl * 4) n proto (Tile.onesSum 0 (slice l (h + 12) 8 ++ beBytes 2 proto ++ beBytes 2 n))
  else if beNat (slice l o 2) = 0x86DD then
    let n := beNat (slice l (h + 4) 2)
    let proto := (l.getD (h + 6) 0).toNat
    l4Write l (h + 40) n proto (Tile.onesSum 0 (slice l (h + 8) 32 ++ beBytes 4 n ++ beBytes 4 proto))
  else none

/-- One-step insertion at TS_OFF (R464 to R466): none where its bytes do not lie wholly inside the frame. An open value stands
in correctionField where the residence is a second or more. -/
def ptpEdit (l : List Byte) (off mask : Nat) (t : Nat × Nat × Nat) (open_ : Option (BitVec 64)) : Option (List Byte) :=
  let kind := (l.getD off 0).toNat % 16
  if l.length ≤ off then none
  else if bitOf mask kind then
    if l.length < off + 44 then none else some (splice l (off + 34) (beBytes 6 t.1 ++ beBytes 4 t.2.1))
  else if l.length < off + 20 then none
  else
    let nin := beNat (slice l (off + 16) 4)
    let add := (((t.2.1 : Int) - (nin : Int)) % 1000000000).toNat * 2 ^ 16 + t.2.2
    let c := match open_ with
      | some v => v.toNat
      | none => (beNat (slice l (off + 8) 8) + add) % 2 ^ 64
    some (splice (splice l (off + 8) (beBytes 8 c)) (off + 16) [0, 0, 0, 0])

/-- Apply an edit, or count a skip. -/
def State.edit (s : State) (m : MacPort) (on : Bool) (l : List Byte) (x : Option (List Byte)) (cnt : Nat) : List Byte × State :=
  if !on then (l, s)
  else match x with
  | some l => (l, s)
  | none => (l, s.mcount m cnt)

/-- A frame with padding and FCS (R444); an inverted FCS marks a frame that must not be taken (R530, Table 11.4). -/
def wireFrame (l : List Byte) (bad : Bool) : List Byte :=
  let l := l ++ List.replicate (60 - l.length) 0
  let fcs := Tile.crcIeee l
  l ++ leBytes 4 (if bad then ~~~fcs else fcs).toNat

/-! ## What frames are received by (R483, R484) -/

/-- What a frame that began now would be received by. -/
def State.rxNow (s : State) (m : MacPort) : RxView :=
  ⟨s.rd (m.reg MAC_CFG) m.at_, s.rd (m.reg MAC_FC_CFG) m.at_, s.rd MGT_RX_CFG d0, s.rdEff (m.reg MAC_TS_RX_CORR) m.at_, (s.mac m.key).da⟩

/-- Keep it for a frame under way, before a change (R484): a frame is received by what stood as its start delimiter crossed
the balls. -/
def State.rxKeep (s : State) (m : MacPort) : State :=
  s.setMac m.key { s.mac m.key with rxOld := (s.mac m.key).rxOld ++ [(s.clk.rc, s.rxNow m)] }

/-- What a frame is received by whose first bit crossed `age` × 2^-16 ns ago (R483, R484): what stood before the first change
since, in rc of 1 ns, which THROTTLE leaves (R686) and a freeze stops. -/
def State.rxView (s : State) (m : MacPort) (age : Nat) : RxView :=
  ((((s.mac m.key).rxOld.find? (fun e => decide ((s.clk.rc - e.1) * 2 ^ 16 < age))).map (·.2)).getD (s.rxNow m))

/-- The flow control settings of the transmit direction take effect at a frame boundary (R484): at once while no frame is on the wire. -/
def State.txTake (s : State) (m : MacPort) : State :=
  if (s.mac m.key).sending.isSome then s else s.commitAll [(m.reg MAC_FC_CFG, m.at_), (m.reg MAC_FC_WD, m.at_)]

/-! ## The address filter (R447, R448) -/

/-- A field of a word. -/
def Fld.of (f : Fld) (w : Word) : Nat := bits w f.hi f.lo
/-- A one-bit field of a word. -/
def Fld.on (f : Fld) (w : Word) : Bool := f.of w == 1

/-- A filter entry's address, if it can match: VALID, and no I/G bit. -/
def filterAddr (e : BitVec 64) : Option Nat :=
  if e.getLsbD 63 && !e.getLsbD 40 then some (e.toNat % 2 ^ 48) else none

/-- The flags of m9 for a destination address, or none where the filter refuses it (R447). -/
def RxView.addrFilter (v : RxView) (da : Nat) : Option Word :=
  if da = 2 ^ 48 - 1 then (if MAC_CFG_ACCEPT_BC.on v.cfg then some 2 else none)
  else if bitOf da 40 then (if MAC_CFG_ACCEPT_MC.on v.cfg then some 1 else none)
  else match (List.range 8).find? (fun i => filterAddr (Tab.get v.da 0 i) == some da) with
    | some i => some (BitVec.ofNat 32 (2 ^ 11 + i * 2 ^ 8))
    | none => if MAC_CFG_PROMISC.on v.cfg then some 0 else none

/-! ## Pause (R453 to R457) -/

/-- The destination of MAC control frames. -/
abbrev pauseAddr : List Byte := [0x01, 0x80, 0xC2, 0x00, 0x00, 0x01]

/-- STAT shows a timer as in force or not (Table 10.5). -/
def State.showPause (s : State) (m : MacPort) (k : Nat) (on : Bool) : State :=
  if k = 8 then s.mput m MAC_STAT_PAUSE (b2n on)
  else s.mput m MAC_STAT_PFC_PAUSED (putBit (s.mget m MAC_STAT_PFC_PAUSED) k on)

/-- Set a pause timer to a number of bit times (R454); a timer the watchdog stopped ignores the frame (R457). -/
def State.setPause (s : State) (m : MacPort) (k quanta : Nat) : State :=
  let x := s.mac m.key
  if s.mis m MAC_STAT_PAUSE_WD && bitOf x.stopped k then s
  else (s.setMac m.key { x with timers := Tab.set x.timers 0 k (quanta * 512) }).showPause m k (quanta != 0)

/-- A received frame with EtherType 0x8808 (R453, R454), under an FC_CFG. -/
def State.controlFrame (s : State) (m : MacPort) (fc : Word) (l : List Byte) : State :=
  let op := beNat (slice l 14 2)
  if slice l 0 6 = pauseAddr && op = 0x0001 && MAC_FC_CFG_PAUSE_EN.on fc then
    (s.mcount m MAC_CNT_RX_PAUSE).setPause m 8 (beNat (slice l 16 2))
  else if slice l 0 6 = pauseAddr && op = 0x0101 && MAC_FC_CFG_PFC_EN.on fc then
    let v := beNat (slice l 16 2)
    (bitList 8 v).foldl (fun (s : State) q => s.setPause m q (beNat (slice l (18 + 2 * q) 2))) (s.mcount m MAC_CNT_RX_PAUSE)
  else s.mcount m MAC_CNT_RX_CTL_DROP

/-- A frame before its first bit is held by pause of its port or class (R455). -/
def State.heldByPause (s : State) (m : MacPort) (f : TxFrame) : Bool :=
  f.pause.isNone && (s.mis m MAC_STAT_PAUSE || (match m with
    | .port p => s.pfcPaused p.val f.cls
    | .mgt => false))

end Sys2Proof.Machine
end

