-- ==== Sys2Proof/Machine/Macs.lean ====
section
/-!
DEFINITION. Subscriber and management ports: receive, transmit, flow control, low-power idle, stamps, and the PHY, cage and
LED masters (10_subscriber_ports.md).
-/
namespace Sys2Proof.Machine
open Reg

/-! ## Receive (R445 to R449, R473, R474) -/

/-- The size of a wake store in bytes (R669). -/
abbrev wakeStoreBytes : Nat := 16384

/-- A frame was sent or delivered on a port: its activity starts (R481). -/
def State.touch (s : State) (k : Nat) : State := s.setMac k { s.mac k with lastAct := some s.clk.ac }

/-- Hand a frame to the dispatcher (R339, R446): it takes a packet buffer (R524, R525). -/
def State.toDispatcher (s : State) (p : Nat) (f : RxFrame) : State :=
  match s.alloc (portDie p) f.bytes.length with
  | (none, s) => s
  | (some b, s) =>
    let s := s.touch p
    let s := { s with dram := { s.dram with bufs := Tab.mod s.dram.bufs {} b (fun x => { x with rx := some (f.sec * 1000000000 + f.ns) }) } }
    s.toSource (portDie p) (p % 16)
      { kind := 0, src := p, sec := f.sec, ns := f.ns, m9 := f.m9, buf := b, bytes := f.bytes }

/-- A management receive record (Table 10.7). -/
def mgtRecord (f : RxFrame) : List Byte :=
  let w0 : Word := setBits (setBits (setBits (setBits (setBits 0 19 19 (bits f.m9 0 0)) 18 18 (bits f.m9 1 1)) 17 15
    (bits f.m9 10 8)) 14 14 (bits f.m9 11 11)) 13 0 f.bytes.length
  leBytes 4 w0.toNat ++ leBytes 4 f.sec ++ leBytes 4 f.ns ++ leBytes 4 f.frac ++ f.bytes

/-- Deliver a frame: to the dispatcher, or as a record to the management ring that RX_CFG names (R445 step 7, R473). -/
def State.deliver (s : State) (m : MacPort) (ring : Word) (f : RxFrame) : State :=
  match m with
  | .port p => s.toDispatcher p.val f
  | .mgt => if MGT_RX_CFG_EN.on ring then s.offer 0 (MGT_RX_CFG_DMA_CH.of ring) (mgtRecord f) 0 true else s

/-- Count a delivered frame of n bytes without FCS (R471). -/
def State.countRx (s : State) (m : MacPort) (n : Nat) : State :=
  (s.mcount m MAC_CNT_RX_PKTS).count48 m MAC_CNT_RX_BYTES_LO MAC_CNT_RX_BYTES_HI (n + 4)

/-- A frame matches the pattern of a die in effect (R670). -/
def State.patternMatch (s : State) (d : Nat) (l : List Byte) : Bool :=
  (List.range 16).all fun i =>
    let w : Word := BitVec.ofNat 32 (beNat (slice l (4 * i) 4))
    let k := s.rdEff PWR_PAT_MASK (place 0 (d * 16 + i))
    (w &&& k) == (s.rdEff PWR_PAT_DATA (place 0 (d * 16 + i)) &&& k)

/-- The wake mode of a MAC (R668, R671). -/
def State.wakeMode (s : State) : MacPort → Nat
  | .port p => s.get PWR_PORT_WAKE_MODE (d0i p.val)
  | .mgt => s.get PWR_MGT_WAKE_MODE d0

/-- Count a frame that the wake store does not take (R668, R669, R671). -/
def State.wakeDrop (s : State) : MacPort → State
  | .port p => s.count PWR_CNT_WAKE_DROP (d0i p.val)
  | .mgt => s.count PWR_CNT_MGT_WAKE_DROP d0

/-- A start of frame, an end of low-power idle or a change of LINK wakes a die that is not in RUN, in mode ANY (R668). -/
def State.linkWake (s : State) (m : MacPort) : State := if s.wakeMode m = 0 then s.wakeReq m.die 3 m.key else s

/-- A frame that passed R445 while its die is not in RUN (R668, R669): one that matches the pattern wakes the die in mode PATTERN. -/
def State.keepAwake (s : State) (m : MacPort) (f : RxFrame) : State :=
  let x := s.mac m.key
  let used := x.store.foldl (fun n g => n + g.bytes.length) 0
  if s.wakeMode m = 2 then s.wakeDrop m
  else if s.wakeMode m = 1 && !s.patternMatch m.die f.bytes then s.count PWR_CNT_PAT_MISS (d0i m.die)
  else
  let s := if s.wakeMode m = 1 then s.wakeReq m.die 4 m.key else s
  if wakeStoreBytes < used + f.bytes.length then s.wakeDrop m
  else (s.setMac m.key { x with store := x.store ++ [f] }).countRx m f.bytes.length

/-- A frame ends at the receive side of a MAC (R445 to R447, R453, R462, R473, R484, R506, R507, R669): the first test that
applies decides. A frame that no packet buffer can hold is counted in RSV.CNT_NOBUF alone (R525). -/
def State.receive (s : State) (m : MacPort) (frame : List Byte) (fcsOk codeErr : Bool) (age : Nat) : State :=
  let n := frame.length
  let v := s.rxView m age
  let s := s.setMac m.key { s.mac m.key with rxOld := [] }
  if !s.carries m then s
  else
  let s := match m with
    | .port p => (s.bwRx p.val (n + 4)).linkWake m
    | .mgt => s.linkWake m
  if !MAC_CFG_RX_EN.on v.cfg then s
  else if codeErr then s.mcount m MAC_CNT_RX_CODE
  else if n + 4 < 64 then s.mcount m MAC_CNT_RX_RUNT
  else if MAC_CFG_MAX_FRAME.of v.cfg < n + 4 then s.mcount m MAC_CNT_RX_LONG
  else if !fcsOk then s.mcount m MAC_CNT_RX_FCS
  else if etherType frame = 0x8808 then s.controlFrame m v.fc frame
  else match v.addrFilter (beNat (slice frame 0 6)) with
  | none => s.mcount m MAC_CNT_RX_FILT
  | some flags =>
    let (l, s) := match m with
      | .port p => s.macsecRx p.val frame
      | .mgt => (some frame, s)
    match l with
    | none => s
    | some l =>
      let (t, s) := s.stampAt m ((s.time.t28 : Int) - (age * 2 ^ 12 : Nat)) v.corr
      let f : RxFrame := { bytes := l, m9 := flags, sec := t.1, ns := t.2.1, frac := t.2.2 }
      if s.powerState m.die != 0 then s.keepAwake m f
      else match m with
      | .mgt => (s.countRx m l.length).deliver m v.ring f
      | .port p =>
        let s := if (s.pickPool (portDie p.val) (cellsOf l.length)).isSome then s.countRx m l.length else s
        s.deliver m v.ring f

/-- FRAME_RECEIVE: a frame ends at the balls; a lane that loops its own transmitter back does not receive it (R134). -/
def execFrameReceive (m : MacPort) (frame : List Byte) (fcsOk codeErr : Bool) (age : Nat) (s : State) : Out := s.island m.die m.bank fun s =>
  if s.laneLoops m then s else s.receive m frame fcsOk codeErr age

/-- PAUSE_TIMER_EXPIRY (R454): the timer reaches 0 and the pause ends. -/
def execPauseTimerExpiry (m : MacPort) (k : Fin 9) (s : State) : Out := s.island m.die m.bank fun s =>
  let x := s.mac m.key
  if Tab.get x.timers 0 k.val = 0 then s
  else (s.setMac m.key { x with timers := Tab.set x.timers 0 k.val 0 }).showPause m k.val false

/-- PAUSE_WATCHDOG (R457), by the WD_MS in effect (R484). -/
def execPauseWatchdog (m : MacPort) (k : Fin 9) (s : State) : Out := s.unit m.die m.bank fun s =>
  let x := s.mac m.key
  if Tab.get x.timers 0 k.val = 0 || s.getEff (m.fld MAC_FC_WD_WD_MS) m.at_ = 0 then s
  else
    let old := if s.mis m MAC_STAT_PAUSE_WD then x.stopped else 0
    let s := (s.setMac m.key { x with timers := Tab.set x.timers 0 k.val 0, stopped := putBit old k.val true }).showPause m k.val false
    (s.mput m MAC_STAT_PAUSE_WD 1).mcount m MAC_CNT_PAUSE_WD

/-! ## Address filter entries (R448) -/

/-- DA_FILTER_WRITE (R448). -/
def execDaFilterWrite (m : MacPort) (v : Word) (s : State) : Out := s.event fun s =>
  let s := (s.rxKeep m).fwWrite (m.reg MAC_DA_WR) m.at_ v
  let x := s.mac m.key
  let e : BitVec 64 := BitVec.ofNat 64 ((s.rd (m.reg MAC_DA_STAGE_HI) m.at_).toNat * 2 ^ 32 + (s.rd (m.reg MAC_DA_STAGE_LO) m.at_).toNat)
  s.setMac m.key { x with da := Tab.set x.da 0 (s.mget m MAC_DA_WR_INDEX) e }

/-- DA_FILTER_READ (R448). -/
def execDaFilterRead (m : MacPort) (v : Word) (s : State) : Out := s.event fun s =>
  let s := s.fwWrite (m.reg MAC_DA_WR) m.at_ v
  let e := Tab.get (s.mac m.key).da 0 (s.mget m MAC_DA_WR_INDEX)
  (s.wr (m.reg MAC_DA_STAGE_HI) m.at_ (BitVec.ofNat 32 (e.toNat / 2 ^ 32))).wr (m.reg MAC_DA_STAGE_LO) m.at_ (BitVec.ofNat 32 e.toNat)

/-! ## Transmit (R417, R450 to R452, R463 to R469, R501) -/

/-- A pause frame (R458). -/
def State.pauseFrame (s : State) (m : MacPort) (quanta : Nat) : List Byte :=
  pauseAddr ++ beBytes 6 ((Tab.get (s.mac m.key).da 0 0).toNat % 2 ^ 48) ++ [0x88, 0x08, 0x00, 0x01] ++ beBytes 2 quanta

/-- The offset of a frame's PTP header: TS_OFF, or for the management port the first byte after its EtherType. -/
def tsOffset (m : MacPort) (m7 : Word) (l : List Byte) : Nat :=
  match m with
  | .port _ => bits m7 7 0
  | .mgt => typeOffset l + 2

/-- The frame takes a transmit stamp (R467, R475). -/
def State.wantsStamp (s : State) (m : MacPort) (m7 : Word) (l : List Byte) : Bool :=
  match m with
  | .port _ => bits m7 24 24 == 1
  | .mgt => s.get MGT_TX_CFG_TS_MODE d0 == 1 ||
      (s.get MGT_TX_CFG_TS_MODE d0 == 2 && beNat (slice l (typeOffset l) 2) == 0x88F7)

/-- Take the next stamp sequence number (R467). -/
def State.takeSeq (s : State) (m : MacPort) : Nat × State :=
  let n := s.mget m MAC_TS_STAT_NEXT_SEQ
  (n, s.mput m MAC_TS_STAT_NEXT_SEQ (n + 1))

/-- Discard a frame before its first bit (R450, R469, R470): a frame to be stamped consumes its number. -/
def State.dropTx (s : State) (m : MacPort) (f : TxFrame) (cnt : Option Nat) : State :=
  let m7 := f.pkt.m.getD 7 0
  let s := if f.pause.isNone && s.wantsStamp m m7 f.pkt.bytes then (s.takeSeq m).2 else s
  let s := match cnt with | some r => s.mcount m r | none => s
  s.release f.pkt.buf

/-- The value that stands for a correctionField where the packet's buffer was filled a second or more before the stamp t
(R465). -/
def State.openCorrection (s : State) (buf : Nat) (t : Nat × Nat × Nat) : Option (BitVec 64) × State :=
  match (s.bufOf buf).rx with
  | some r =>
    if r + 1000000000 ≤ t.1 * 1000000000 + t.2.1 then
      let (v, s) := s.draw Config.freeCorrection
      (some v, s)
    else (none, s)
  | none => (none, s)

/-- The frame after its edits, before MACsec (R451, R452, R464 to R466). -/
def State.editTx (s : State) (m : MacPort) (buf : Nat) (m7 : Word) (l : List Byte) (t : Nat × Nat × Nat) : List Byte × State :=
  match m with
  | .mgt => (l, s)
  | .port _ =>
    let (v, s) := s.openCorrection buf t
    let (l, s) := s.edit m (bits m7 23 23 == 1) l
      (ptpEdit l (bits m7 7 0) (bits (s.rdEff MAC_PTP_CFG m.at_) 15 0) t v) MAC_CNT_TX_TS_SKIP
    let (l, s) := s.edit m (bits m7 26 26 == 1) l (ip4Csum l) MAC_CNT_TX_CSUM_SKIP
    s.edit m (bits m7 25 25 == 1) l (l4Csum l) MAC_CNT_TX_CSUM_SKIP

/-- The first bit of a frame leaves (R463, R467, R501). -/
def State.launchTx (s : State) (m : MacPort) (f : TxFrame) : State :=
  let (l, s) := s.payload m.die f.pkt
  let m7 := f.pkt.m.getD 7 0
  let t0 : Nat := s.time.t28 + 8 * s.macByte25 m * 2 ^ 28 / 25
  let (t, s) := s.stampAt m (t0 : Int) (s.rdEff (m.reg MAC_TS_TX_CORR) m.at_)
  let (l, s) := s.editTx m f.pkt.buf m7 l t
  let (x, s) := match m with
    | .port p => s.macsecTx p.val l
    | .mgt => (Protect.clear, s)
  match x with
  | .noKey | .exhausted => s.dropTx m f none
  | _ =>
    let (out, slot) := match x with
      | .protected_ g i b => (g, some (i, b))
      | _ => (l, none)
    let err := s.bufError (s.bufOf f.pkt.buf)
    let s := if err then s.count RSV_CNT_UE_TX (onDie m.die) else s
    let bad := f.bad || err
    let off := tsOffset m m7 l
    let (st, s) := if s.wantsStamp m m7 l then
        let (n, s) := s.takeSeq m
        (some { seq := n, mtype := (l.getD off 0).toNat % 16
                seqId := if off + 32 ≤ l.length then beNat (slice l (off + 30) 2) else 0
                sec := t.1, ns := t.2.1, frac := t.2.2 : Stamp }, s)
      else (none, s)
    let y := s.mac m.key
    s.setMac m.key { y with sending := some { wire := wireFrame out bad, buf := f.pkt.buf, pause := false, stamp := st, slot := slot, bad := bad } }

/-- Whether a frame's planned start has come for its MAC, and whether it has passed by a whole sw or more (R417, R455, R461):
only the frames of ports have one. -/
def State.startOf (s : State) (m : MacPort) (f : TxFrame) (phi : Nat) : Bool × Bool :=
  match m with
  | .mgt => (true, false)
  | .port _ =>
    let v := s.portView m phi
    (decide (f.start ≤ v) && (!f.late || decide (f.ready ≤ v)), f.late || decide (f.start + s.macSw m ≤ v))

/-- The die that a frame's bytes wait for (R756): one on the way to its packet buffer that is not in RUN. -/
def State.frameWaits (s : State) (m : MacPort) (f : TxFrame) : Bool :=
  let b := s.bufOf f.pkt.buf
  b.holds != 0 && (match s.route m.die b.die with
    | .asleep _ => true
    | .clear _ | .absent | .firstDown _ | .secondDown _ _ => false)

/-- MAC_TRANSMIT_START (R417, R450, R455, R458, R460, R475): the MAC's first frame, on the first sw edge at or after its planned
start, or when it is no longer held; the management port, which has no decision slots, sends a queued pause frame before the
frames of its ring and ends its low-power idle here. -/
def execMacTransmitStart (m : MacPort) (phi : Nat) (s : State) : Out := s.unit m.die m.bank fun s =>
  let x := s.mac m.key
  let q := match m, x.pauseTx with
    | .mgt, some n => { x with pauseTx := none, tx := { pause := some n } :: x.tx }
    | _, _ => x
  match q.tx with
  | [] => s
  | f :: rest =>
    if x.sending.isSome || !s.carries m || s.heldByPause m f then s
    else
      let (due, late) := s.startOf m f phi
      if !due then s
      else if s.frameWaits m f then
        (s.setMac m.key { q with tx := { f with late := true } :: rest }).wakeRoute m.die (s.bufOf f.pkt.buf).die
      else
      let s := s.setMac m.key { q with tx := rest }
      let s := match m with
        | .port p => if late then s.count TM_CNT_LATE_START (atPort p.val) else s
        | .mgt => s.mput .mgt MAC_STAT_TX_LPI 0
      match f.pause with
      | some n => s.setMac m.key { s.mac m.key with
          sending := some { wire := wireFrame (s.pauseFrame m n) false, buf := 0, pause := true, stamp := none } }
      | none =>
        if !s.mis m MAC_CFG_TX_EN then s.dropTx m f (some MAC_CNT_TX_DIS)
        else if s.mget m MAC_CFG_MAX_FRAME < frameLen f.pkt.bytes.length then s.dropTx m f (some MAC_CNT_TX_LONG)
        else s.launchTx m f

/-- Show the head of a stamp FIFO and its level (Table 10.4); with no head the data fields are free (log 2). -/
def State.showStamps (s : State) (m : MacPort) : State :=
  let l := (s.mac m.key).fifo
  let s := s.mput m MAC_TS_STAT_LEVEL l.length
  let w (i : Nat) (v : Word) (s : State) : State := s.wr (m.reg MAC_TSF_W) (m.at_ / 2 ^ 24 * 2 ^ 24 + m.at_ % 2 ^ 24 * 4 + i) v
  match l with
  | [] =>
    let f (i : Nat) : Word := Config.freeStale (s.fresh + i)
    let s := { s with fresh := s.fresh + 4 }
    w 3 (f 3 &&& 0x3FFFFFFF) (w 2 (f 2) (w 1 (f 1) (w 0 (setBits (f 0 &&& 0x0F00FFFF) 31 31 0) s)))
  | x :: _ =>
    w 3 (setBits 0 29 0 x.ns) (w 2 (BitVec.ofNat 32 x.sec) (w 1 (setBits (setBits 0 31 16 x.frac) 15 0 x.seqId)
      (w 0 (setBits (setBits (setBits 0 31 31 1) 27 24 x.mtype) 15 0 x.seq) s)))

/-- Push a stamp entry, or drop it when the FIFO is full (R467, R468). -/
def State.pushStamp (s : State) (m : MacPort) (x : Stamp) : State :=
  let y := s.mac m.key
  if 32 ≤ y.fifo.length then (s.mput m MAC_TS_STAT_OVF 1).mcount m MAC_CNT_TS_DROP
  else (s.setMac m.key { y with fifo := y.fifo ++ [x] }).showStamps m

/-- A frame that a lane loops back is received as it was sent (R134): its first bit crossed as many byte times ago as it has
bytes. -/
def State.loopBack (s : State) (m : MacPort) (wire : List Byte) : State :=
  let n := wire.length - 4
  if !s.laneLoops m then s
  else s.receive m (wire.take n) (wire.drop n == leBytes 4 (Tile.crcIeee (wire.take n)).toNat) false
    (wire.length * s.macByte25 m * 2 ^ 16 / 25)

/-- FRAME_TRANSMIT_END (R134, R467, R468, R471). -/
def execFrameTransmitEnd (m : MacPort) (s : State) : Out := s.unit m.die m.bank fun s =>
  let x := s.mac m.key
  match x.sending with
  | none => s
  | some f =>
    let s := (s.setMac m.key { x with sending := none, lastWire := f.wire, lastAct := some s.clk.ac }).txTake m
    let s := (s.mcount m MAC_CNT_TX_PKTS).count48 m MAC_CNT_TX_BYTES_LO MAC_CNT_TX_BYTES_HI f.wire.length
    let s := match m with
      | .port p => s.bwTx p.val f.wire.length
      | .mgt => s
    let s := if f.pause then s.mcount m MAC_CNT_TX_PAUSE else s
    let s := match f.stamp with | some st => s.pushStamp m st | none => s
    (s.release f.buf).loopBack m f.wire

/-- PAUSE_TX (R458): one pause frame is queued; a second GO before it leaves replaces its quanta. -/
def execPauseTx (m : MacPort) (v : Word) (s : State) : Out := s.event fun s =>
  let s := s.fwWrite (m.reg MAC_PAUSE_TX) m.at_ v
  let x := s.mac m.key
  let n := s.mget m MAC_PAUSE_TX_QUANTA
  s.setMac m.key (if x.tx.any (·.pause.isSome) then
      { x with tx := x.tx.map (fun f => if f.pause.isSome then { f with pause := some n } else f) }
    else { x with pauseTx := some n })

/-! ## Low-power idle and link (R459, R460, R470) -/

/-- LPI_ENTRY (R459): at 1,000 Mb/s and above, with nothing in the MAC. -/
def execLpiEntry (m : MacPort) (s : State) : Out := s.unit m.die m.bank fun s =>
  let x := s.mac m.key
  if s.mis m MAC_EEE_CFG_EN && s.macByte25 m ≤ 200 && s.mis m MAC_STAT_LINK && !s.mis m MAC_STAT_TX_LPI && x.tx.isEmpty &&
      x.sending.isNone && x.pauseTx.isNone then
    (s.mput m MAC_STAT_TX_LPI 1).mcount m MAC_CNT_TX_LPI
  else s

/-- RX_LPI_CHANGE (R459): the link partner signals low-power idle, on a lane that runs and has its link (Table 3.9). -/
def execRxLpiChange (m : MacPort) (on : Bool) (s : State) : Out := s.island m.die m.bank fun s =>
  if s.mis m MAC_STAT_RX_LPI == on || !s.carries m then s
  else
    let s := s.mput m MAC_STAT_RX_LPI (b2n on)
    if on then s.mcount m MAC_CNT_RX_LPI else s.linkWake m

/-- Discard everything in a MAC (R470). -/
def State.flushMac (s : State) (m : MacPort) : State :=
  let x := s.mac m.key
  let s := (s.setMac m.key { x with tx := [], sending := none, pauseTx := none, timers := [] }).txTake m
  let s := x.tx.foldl (fun (s : State) f => s.dropTx m f (some MAC_CNT_TX_LINK_DROP)) s
  let s := match x.sending with
    | some f => (s.mcount m MAC_CNT_TX_LINK_DROP).release f.buf
    | none => s
  let s := if x.pauseTx.isSome then s.mcount m MAC_CNT_TX_LINK_DROP else s
  ((s.mput m MAC_STAT_PAUSE 0).mput m MAC_STAT_PFC_PAUSED 0).mput m MAC_STAT_TX_LPI 0

/-- LINK changes (R470, Table 10.5). -/
def State.linkSet (s : State) (m : MacPort) (up : Bool) : State :=
  if s.mis m MAC_STAT_LINK == up then s
  else
    let s := ((s.mput m MAC_STAT_LINK (b2n up)).mput m MAC_STAT_LINK_CHG 1).linkWake m
    if up then s else (s.flushMac m).mput m MAC_STAT_RX_LPI 0

/-- LINK_CHANGE (R443, R470, Table 10.5): a lane that does not run has no link (Table 3.9). -/
def execLinkChange (m : MacPort) (up : Bool) (speed : Fin 3) (s : State) : Out := s.island m.die m.bank fun s =>
  (s.setMac m.key { s.mac m.key with speed := speed.val }).linkSet m (up && s.laneOn m)

/-- TS_FIFO_POP (R467, R468): a read of TSF_W3 with VALID = 1. -/
def execTsFifoPop (m : MacPort) (s : State) : Out := s.event fun s =>
  let x := s.mac m.key
  match x.fifo with
  | [] => s
  | _ :: t => (s.setMac m.key { x with fifo := t }).showStamps m

/-- PTP_COMMIT (R483). -/
def execPtpCommit (m : MacPort) (s : State) : Out := s.event fun s =>
  (s.rxKeep m).commitAll [(m.reg MAC_PTP_CFG, m.at_), (m.reg MAC_TS_RX_CORR, m.at_), (m.reg MAC_TS_TX_CORR, m.at_)]

/-! ## MDIO (R476 to R478, R482) -/

/-- The enable of master m takes effect as it stands (R482). -/
def State.mdioIenTake (s : State) (d m : Nat) : State :=
  s.wrEff MAC_MDIO_IEN (onDie d) (BitVec.ofNat 32 (putBit (s.rdEff MAC_MDIO_IEN (onDie d)).toNat m
    (bitOf (s.get MAC_MDIO_IEN_V (onDie d)) m)))

/-- MAC.MDIO_IEN is written (R482): the enable of a master with a frame under way applies from its next frame. -/
def State.mdioIen (s : State) (d : Nat) (v : Word) : State :=
  (List.range 4).foldl (fun (s : State) m => if s.is MAC_MDIO_CMD_BUSY (place d m) then s else s.mdioIenTake d m)
    (s.fwWrite MAC_MDIO_IEN (onDie d) v)

/-- A GO of an MDIO master of a course die of the part (R477, R478, R482, R717): the fields are written; the GO is ignored with REJ while a frame runs. -/
def State.mdioGo (s : State) (d m : Nat) (v : Word) (cl45 : Bool) (op : Nat) : State :=
  let a := place d m
  if !present s.part d then s
  else
  let s := s.fwWrite MAC_MDIO_CMD a (setBits (setBits v 29 29 (b2n cl45)) 28 27 op)
  if s.is MAC_MDIO_CMD_BUSY a then s.put MAC_MDIO_STAT_REJ (onDie d) 1
  else
    let j : MdioJob := { cl45 := cl45, op := op, prtad := s.get MAC_MDIO_CMD_PRTAD a, devad := s.get MAC_MDIO_CMD_DEVAD a
                         data := s.get MAC_MDIO_DATA_DATA a, pre := !s.is MAC_MDIO_CFG_NO_PRE a, div := s.get MAC_MDIO_CFG_DIV a }
    let s := { s with macs := { s.macs with mdio := Tab.set s.macs.mdio none (d * 4 + m) (some j) } }
    (s.mdioIenTake d m).put MAC_MDIO_CMD_BUSY a 1

/-- MDIO_C22_WRITE (R477). -/
def execMdioC22Write (d : CourseDie) (m : Fin 4) (v : Word) (s : State) : Out := s.acEvent fun s => s.mdioGo (courseIdx d) m.val v false 1
/-- MDIO_C22_READ (R477). -/
def execMdioC22Read (d : CourseDie) (m : Fin 4) (v : Word) (s : State) : Out := s.acEvent fun s => s.mdioGo (courseIdx d) m.val v false 2
/-- MDIO_C45_ADDRESS (R477). -/
def execMdioC45Address (d : CourseDie) (m : Fin 4) (v : Word) (s : State) : Out := s.acEvent fun s => s.mdioGo (courseIdx d) m.val v true 0
/-- MDIO_C45_WRITE (R477). -/
def execMdioC45Write (d : CourseDie) (m : Fin 4) (v : Word) (s : State) : Out := s.acEvent fun s => s.mdioGo (courseIdx d) m.val v true 1
/-- MDIO_C45_READ (R477). -/
def execMdioC45Read (d : CourseDie) (m : Fin 4) (v : Word) (s : State) : Out := s.acEvent fun s => s.mdioGo (courseIdx d) m.val v true 2
/-- MDIO_C45_READ_INC (R477). -/
def execMdioC45ReadInc (d : CourseDie) (m : Fin 4) (v : Word) (s : State) : Out := s.acEvent fun s => s.mdioGo (courseIdx d) m.val v true 3

/-- The frame reads (R477). -/
def MdioJob.reads (j : MdioJob) : Bool := j.op == 2 || (j.cl45 && j.op == 3)

/-- MDIO_FRAME_DONE (R477, R478): `data` is what the balls showed. -/
def execMdioFrameDone (d : CourseDie) (m : Fin 4) (data : BitVec 16) (s : State) : Out := s.acUnit (courseIdx d) 4 fun s =>
  let d := courseIdx d
  let a := place d m.val
  match Tab.get s.macs.mdio none (d * 4 + m.val) with
  | none => s
  | some j =>
    let s := { s with macs := { s.macs with mdio := Tab.set s.macs.mdio none (d * 4 + m.val) none } }
    let s := if j.reads then s.put MAC_MDIO_DATA_DATA a data.toNat else s
    (s.put MAC_MDIO_CMD_BUSY a 0).latch MAC_MDIO_STAT_DONE (onDie d) m.val

/-! ## Cage I2C (R479) -/

/-- The cage I2C master of a course die. -/
def cageRegs (d : Nat) : I2cRegs :=
  ⟨MAC_CAGE_I2C_CFG, MAC_CAGE_I2C_CMD, MAC_CAGE_I2C_STAT, MAC_CAGE_I2C_DATA0, MAC_CAGE_I2C_DATA1, onDie d⟩

/-- Start a cage transaction. -/
def State.cageGo (s : State) (d : Nat) (v : Word) (rd : Bool) : State :=
  match s.i2cGo (cageRegs d) v rd with
  | (s, none) => s
  | (s, some j) => { s with macs := { s.macs with cage := Tab.set s.macs.cage none d (some j) } }

/-- CAGE_I2C_WRITE (R479). -/
def execCageI2cWrite (d : CourseDie) (v : Word) (s : State) : Out := s.acEvent fun s => s.cageGo (courseIdx d) v false
/-- CAGE_I2C_READ (R479). -/
def execCageI2cRead (d : CourseDie) (v : Word) (s : State) : Out := s.acEvent fun s => s.cageGo (courseIdx d) v true

/-- CAGE_I2C_DONE (R156, R157, R479). -/
def execCageI2cDone (d : CourseDie) (res : I2cEnd) (stretched : Bool) (got : List Byte) (s : State) : Out := s.acUnit (courseIdx d) 4 fun s =>
  let d := courseIdx d
  match Tab.get s.macs.cage none d with
  | none => s
  | some j =>
    { s with macs := { s.macs with cage := Tab.set s.macs.cage none d none } }.i2cFinish (cageRegs d)
      { j with stretched := stretched } res got

/-! ## Port LEDs (R480, R481) -/

/-- Activity of a port (R481): 40 ms, which are 1,000,000 ac. -/
def State.active (s : State) (p : Nat) : Bool :=
  match (s.mac p).lastAct with
  | none => false
  | some t => decide (s.clk.ac < t + 1000000)

/-- LED bit b of local port lp of course die d (R481): a reserved source gives a free value (log 2). -/
def State.ledBit (s : State) (d lp b : Nat) : Bool :=
  let p := 16 * (d - 2) + lp
  let link := s.is MAC_STAT_LINK (atPort p)
  match (s.rd MAC_LED_SRC (place d lp)).toNat / 16 ^ b % 16 with
  | 0 => false
  | 1 => true
  | 2 => link
  | 3 => s.active p
  | 4 => if s.active p && s.clk.ac / 1562500 % 2 == 1 then !link else link
  | 5 => bitOf (s.get MAC_LED_FW_V (place d lp)) b
  | 6 => s.is MAC_STAT_TX_LPI (atPort p)
  | _ => Config.freeHit (s.fresh + lp * 4 + b)

/-- LED_REFRESH (R480): bit 63 is the first bit shifted out. -/
def execLedRefresh (d : CourseDie) (s : State) : Out := s.acUnit (courseIdx d) 4 fun s =>
  let d := courseIdx d
  if !s.is MAC_LED_CFG_EN (onDie d) then s
  else
    let v := (List.range 64).foldl (fun n i => n + (if s.ledBit d (i / 4) (i % 4) != s.is MAC_LED_CFG_POL (onDie d) then 2 ^ i else 0)) 0
    { s with fresh := s.fresh + 64, macs := { s.macs with led := Tab.set s.macs.led none d (some (BitVec.ofNat 64 v)) } }

end Sys2Proof.Machine
end

