-- ==== Sys2Proof/Machine/Xgem.lean ====
section
/-!
DEFINITION. Received XGEM frames: Port-ID filtering, decryption, reassembly and delivery (R225 to R234, R493, R764, R766).
-/
namespace Sys2Proof.Machine
open Reg

/-- Discard the frame in progress of a Port-ID on a channel, if there is one. -/
def State.dropReasm (s : State) (c port : Nat) : State :=
  let v := s.conv c
  s.setConv c { v with reasm := v.reasm.filter (fun r => r.port != port) }

/-- Discard a frame or fragment, with the frame in progress it belongs to (R232), counted in the counter of its cause. -/
def State.xgemDrop (s : State) (c port cnt : Nat) : State := (s.dropReasm c port).count cnt (atChan c)

/-- Network time as a stamp's seconds and nanoseconds (R764). -/
def State.pathStamp (s : State) : Nat × Nat := (s.time.sec.toNat % 2 ^ 32, s.time.ns.toNat)

/-- Pass a complete frame on by its TYPE (R225, R234): 0 data, 1 OMCI, 2 bonded data. -/
def State.xgemPass (s : State) (c kind tag : Nat) (key : Option OmciKey) (l : List Byte) : State :=
  let (sec, ns) := s.pathStamp
  if kind = 1 then
    { s with ciph := { s.ciph with omci := Tab.mod s.ciph.omci [] c (fun q => q ++ [{ bytes := l, key := key }]) } }
  else if kind = 2 then
    let x : BondFrame := { chan := c, dtag := tag, sec := sec, ns := ns, bytes := l }
    s.setBond { s.bond with inbox := Tab.mod s.bond.inbox [] c (fun q => q ++ [x]) }
  else
    let d := chanDie c
    match s.alloc d l.length with
    | (none, s) => s
    | (some b, s) => s.toSource d (c % 2) { kind := 1, src := c, tag := tag, sec := sec, ns := ns, buf := b, bytes := l }

/-- A complete frame is judged for size (R232) and passed on. -/
def State.xgemComplete (s : State) (c kind tag : Nat) (key : Option OmciKey) (l : List Byte) : State :=
  if s.getEff PTC_RX_CFG_MAX_SDU (atChan c) < l.length then s.count PTC_CNT_OVERSIZE (atChan c) else s.xgemPass c kind tag key l

/-- The downstream frame that a received frame or fragment lies in: words of one frame reach PTC after the tick of the next
(R751). -/
def State.rxFrame (s : State) (c : Nat) (x : XgemRx) : Nat := (s.conv c).frames - b2n x.tail

/-- A fragment from downstream frame k + 2 or later discards the frame in progress whose latest fragment lay in frame k
(R232). -/
def State.dropStale (s : State) (c port frame : Nat) : State :=
  match (s.conv c).reasm.find? (fun r => r.port == port) with
  | some r => if r.frame + 2 ≤ frame then s.xgemDrop c port PTC_CNT_REASM_TMO else s
  | none => s

/-- Reassembly of a decrypted frame or fragment (R232, R233); an OMCI message starts with its first word (R489). -/
def State.reassemble (s : State) (c kind tag : Nat) (x : XgemRx) (l : List Byte) : State :=
  let port := x.port.toNat
  let v := s.conv c
  match v.reasm.find? (fun r => r.port == port) with
  | none =>
    let key := if kind = 1 then s.omciStart c else none
    if x.last then s.xgemComplete c kind tag key l
    else s.setConv c { v with
      reasm := v.reasm ++ [{ port := port, frame := s.rxFrame c x, kind := kind, tag := tag, bytes := l, key := key }] }
  | some r =>
    if r.kind ≠ kind then s.xgemDrop c port PTC_CNT_PID_MISS
    else if x.last then (s.dropReasm c port).xgemComplete c kind tag r.key (r.bytes ++ l)
    else s.setConv c { v with
      reasm := v.reasm.map (fun y => if y.port == port then { y with frame := s.rxFrame c x, bytes := y.bytes ++ l } else y) }

/-- How a frame of an entry with an odd KEY_BASE fares (R230): it may be discarded, delivered, or decrypted under any slot
of the line die's PON pool, as a free value says (log 2). -/
def oddChoice (n : Nat) : Option (Option Nat) :=
  if n % 4098 = 0 then none else if n % 4098 = 1 then some none else some (some (n % 4098 - 2))

/-- What becomes of a matched frame's payload (R230, R485, R493, Table 11.4): none where it is discarded. -/
def State.xgemOpen (s : State) (c : Nat) (e : BitVec 64) (x : XgemRx) : Option (List Byte) × State :=
  let base := e.toNat / 2 ^ 44 % 2 ^ 12
  let port := x.port.toNat
  let sfc := (if x.tail then (s.framer c).decPrev else (s.framer c).dec).toNat
  let open_ (s : State) (i : Nat) : List Byte :=
    let k := (s.slotAt (slotKey (chanDie c) poolPon i)).now
    xorBytes x.payload (Config.xgemPad k.key false sfc (4 * x.pos.toNat + 8) x.payload.length)
  if base % 2 = 1 then
    let (n, s) := s.draw (fun n => (Config.freeReserved n).toNat)
    match oddChoice n with
    | none => (none, s.dropReasm c port)
    | some none => (some x.payload, s)
    | some (some i) => (some (open_ s i), s)
  else match x.keyIdx.val with
  | 0 => if e.getLsbD 58 then (none, s.xgemDrop c port PTC_CNT_ENC_REQ) else (some x.payload, s)
  | 3 => (none, s.xgemDrop c port PTC_CNT_BAD_KEYIDX)
  | k =>
    if !(s.slotAt (slotKey (chanDie c) poolPon (base + k - 1))).valid then (none, s.xgemDrop c port CIPH_CNT_NO_KEY)
    else (some (open_ s (base + k - 1)), s)

/-- An entry's TYPE (Table 5.8): the reserved one acts as any of the three (R13, log 2). -/
def State.entryKind (s : State) (e : BitVec 64) : Nat × State :=
  let t := e.toNat / 2 ^ 59 % 4
  if t = 3 then s.draw (fun n => (Config.freeReserved n).toNat % 3) else (t, s)

/-- The header lies where delineation of its frame stands (R226, R227): the frame is in SYNC, no header has ended its delineation,
and the header follows the padded payload before it; the first lies after the sections that the standard lays out. -/
def State.delineated (s : State) (c : Nat) (x : XgemRx) : Bool :=
  let v := s.conv c
  let (sync, lost, next) := if x.tail then (v.syncPrev, v.hecLostPrev, v.nextPrev) else ((s.framer c).sync == .sync, v.hecLost, v.next)
  (s.framer c).sync == .sync && sync && !lost && (next == none || next == some x.pos.toNat)

/-- Delineation goes on behind the payload (R226), or ends for the rest of the frame (R227). -/
def State.delineate (s : State) (c : Nat) (x : XgemRx) : State :=
  let v := s.conv c
  let next := some (x.pos.toNat + 2 + (x.payload.length + 3) / 4)
  s.setConv c (match x.tail, x.hecOk with
    | false, true => { v with next := next }
    | true, true => { v with nextPrev := next }
    | false, false => { v with hecLost := true }
    | true, false => { v with hecLostPrev := true })

/-- A frame or fragment with a usable header is judged (R228 to R234). An error in the header's words is judged before the
Port-ID, an error in a later word after it (R766). -/
def State.xgemJudge (s : State) (c : Nat) (x : XgemRx) : State :=
  let port := x.port.toNat
  let f := s.rxFrame c x
  if x.idle then s
  else if x.errHdr then (s.dropStale c port f).xgemDrop c port PTC_CNT_ERR_CW
  else match s.pidEntry c port with
  | none => (s.dropStale c port f).xgemDrop c port PTC_CNT_PID_MISS
  | some (_, e) =>
    match (s.dropStale c port f).xgemOpen c e x with
    | (none, s) => s
    | (some l, s) =>
      if x.errBody then s.xgemDrop c port PTC_CNT_ERR_CW
      else
        let (kind, s) := s.entryKind e
        s.reassemble c kind (e.toNat % 2 ^ 16) x l

/-- XGEM_FRAME_RECEIVE (R226 to R234, R766). -/
def execXgemFrameReceive (c : Chan) (x : XgemRx) (s : State) : Out := s.event fun s =>
  let c := c.val
  if !s.delineated c x then s
  else if !x.hecOk then (s.delineate c x).count PTC_CNT_HEC_LOSS (atChan c)
  else (s.delineate c x).xgemJudge c x

/-- REASSEMBLY_TIMEOUT (R232): every frame in progress whose latest fragment lay three or more frames back. -/
def execReassemblyTimeout (c : Chan) (s : State) : Out := s.event fun s =>
  let c := c.val
  let v := s.conv c
  let old := v.reasm.filter (fun r => decide (r.frame + 3 ≤ v.frames))
  let s := s.setConv c { v with reasm := v.reasm.filter (fun r => !decide (r.frame + 3 ≤ v.frames)) }
  s.wr PTC_CNT_REASM_TMO (atChan c) (s.rd PTC_CNT_REASM_TMO (atChan c) + BitVec.ofNat 32 old.length)

/-- The receiver is disabled: every frame in progress on the channel is discarded (R232). -/
def State.dropAllReasm (s : State) (c : Nat) : State :=
  let v := s.conv c
  let s := s.setConv c { v with reasm := [] }
  s.wr PTC_CNT_REASM_TMO (atChan c) (s.rd PTC_CNT_REASM_TMO (atChan c) + BitVec.ofNat 32 v.reasm.length)

end Sys2Proof.Machine
end

