-- ==== Sys2Proof/Machine/Estuary.lean ====
section
/-!
DEFINITION. The estuary: filling a burst from the upstream queues, and launching it (R215, R242 to R247, R276 to R283, R436
to R439, R494 to R499).
-/
namespace Sys2Proof.Machine
open Reg

/-! ## Upstream service (R244, R438, R439) -/

/-- What an allocation is served from: the die and Alloc-ID entry whose class queues it uses, its upstream group if it is
bonded (R276), the classes whose gates are closed (R436), the byte position of its fill area, from the first byte of the FS
header's frame (R494), and its channel. -/
structure Serve where
  chan : Nat
  die : Nat
  entry : Nat
  group : Option Nat
  shut : Nat
  base : Nat
  deriving DecidableEq, Repr

/-- The errors that the reads of a fill point have still to find. -/
structure FillErr where
  state : Ecc
  mem : Ecc
  off : Nat

/-- An allocation while it is filled: the bytes left, the content so far, the tags and pieces it took. -/
structure Fill where
  st : State
  err : FillErr
  left : Nat
  content : List Byte := []
  crypt : List Crypt := []
  tags : Nat := 0
  pieces : List Piece := []

/-- A class queue offers a frame. -/
def State.offers (s : State) (x : Serve) (k : Nat) : Bool :=
  !bitOf x.shut k && !(s.queue x.die (8 * x.entry + k)).pkts.isEmpty

/-- The class with the least finish tag, ties to the lower class (R438). -/
def State.leastTag (s : State) (x : Serve) : List Nat → Option Nat
  | [] => none
  | k :: t =>
    let f (j : Nat) : Nat := tagAhead (s.vtime x.die (8 * x.entry + j) + 2 ^ 47) (s.queue x.die (8 * x.entry + j)).tag
    match s.leastTag x t with
    | none => if s.offers x k then some k else none
    | some j => if s.offers x k && decide (f k ≤ f j) then some k else some j

/-- The class that offers next (R438). -/
def State.nextClass (s : State) (x : Serve) : Option Nat :=
  let sp := s.getEff TM_UPROF_SP_V (place x.die (s.get TM_UQ_CFG_UPROF (place x.die x.entry)))
  match [7, 6, 5, 4, 3, 2, 1, 0].find? (fun k => bitOf sp k && s.offers x k) with
  | some k => some k
  | none => s.leastTag x ((List.range 8).filter (fun k => !bitOf sp k))

/-- The Key Index and slot of an entry's frames, none where they go in clear (R494). -/
def State.uencOf (s : State) (x : Serve) : Option (Nat × Nat) :=
  let a := place x.die x.entry
  if s.is CIPH_UENC_EN a then
    some (s.get CIPH_UENC_KEY_IDX a, s.get CIPH_UENC_KEY_BASE a + s.get CIPH_UENC_KEY_IDX a - 1)
  else none

/-- A frame of class queue q is an OMCI message, into whose last four bytes CIPH puts the MIC (R497, R499). -/
def State.omciUp (s : State) (x : Serve) (q len : Nat) : Bool :=
  q == 8 * s.get CIPH_OMCI_CFG_UP_ENTRY (atChan x.chan) && s.is CIPH_OMCI_CFG_EN (atChan x.chan) && decide (4 ≤ len) &&
  x.die == chanDie x.chan

/-- The slot that frames go under is VALID, or they go in clear (R496). -/
def State.encOk (s : State) (c : Nat) (enc : Option (Nat × Nat)) : Bool :=
  match enc with
  | none => true
  | some (_, i) => (s.slotAt (slotKey (chanDie c) poolPon i)).valid

/-- The bond tag of the next piece of class queue k of a group (R279): SEQ advances in serving order. -/
def State.takeTag (s : State) (g k : Nat) : List Byte × State :=
  let n := Tab.get s.bond.upSeq 0 (g * 8 + k)
  let t := 2 ^ 30 + k * 2 ^ 27 + (if Tab.get s.bond.upBegun false (g * 8 + k) then 0 else 2 ^ 26) + n
  (beBytes 4 t, s.setBond { s.bond with
    upSeq := Tab.set s.bond.upSeq 0 (g * 8 + k) ((n + 1) % 2 ^ 24), upBegun := Tab.set s.bond.upBegun false (g * 8 + k) true })

/-- The remainder of an entry's frame that is pending (R244). -/
def State.remainder (s : State) (x : Serve) : Option Piece := Tab.get s.tm.rem none (x.die * 1024 + x.entry)
/-- Set it. -/
def State.setRemainder (s : State) (x : Serve) (r : Option Piece) : State :=
  { s with tm := { s.tm with rem := Tab.set s.tm.rem none (x.die * 1024 + x.entry) r } }

/-- The frame offered next: the pending remainder, or the head of the class that R438 selects; none while the slot it would go
under is not VALID (R496). -/
def State.offered (s : State) (x : Serve) : Option Piece :=
  match s.remainder x with
  | some r => if s.encOk x.chan r.enc then some r else none
  | none =>
    if !s.encOk x.chan (s.uencOf x) then none
    else match s.nextClass x with
    | none => none
    | some k =>
      let q := s.queue x.die (8 * x.entry + k)
      q.pkts.head?.map (fun p => { die := x.die, queue := 8 * x.entry + k, pkt := p, last := true, enc := s.uencOf x, tag := q.tag
                                   omci := if s.omciUp x (8 * x.entry + k) p.bytes.length then some [] else none })

/-- A piece, be it a remainder, as its bytes are read from the packet buffer between the fill point and the launch (R757). The row of
an error is tested (R529, R530); the rule gives the estuary no outcome for one that SECDED cannot correct, and the bytes are
free (log 106). -/
def State.readPiece (s : State) (x : Serve) (o : Piece) (err : FillErr) : Piece × State :=
  let d := (s.bufOf o.pkt.buf).die
  let (l, s) := s.payload (chanDie x.chan) o.pkt
  let s := s.rowError d 0 (bufferRow d err.off) false err.mem
  if eccBad err.mem then
    ({ o with pkt := { o.pkt with bytes := (List.range l.length).map (fun i => Config.freeByte (s.fresh + i)) } },
     { s with fresh := s.fresh + l.length })
  else ({ o with pkt := { o.pkt with bytes := l } }, s)

/-- The largest fragment that fits (R244): at least 16 bytes, leaving at least 16; 0 where there is none. -/
def fragBytes (p r : Nat) : Nat :=
  let f := Nat.min (r - 8) (p - 16) / 4 * 4
  if f < 16 then 0 else f

/-- Place the bytes `l` of a piece in an allocation (R242, R244, R279, R494, R499): header, tag, bytes, padding to 4; CIPH works on
the payload as its words leave. -/
def Fill.place_ (y : Fill) (x : Serve) (o : Piece) (l : List Byte) (lf : Bool) : Fill :=
  let (tag, s) := match x.group with
    | some g => y.st.takeTag g (o.queue % 8)
    | none => ([], y.st)
  let body := tag ++ l
  let out := body ++ List.replicate (roundup4 body.length - body.length) 0
  let hdr := slice (Config.xgemHeader x.entry body.length (match o.enc with | none => 0 | some e => e.1) lf) 0 8
  let at_ := y.content.length + 8
  let mic : Option MicPart := o.omci.map (fun pre =>
    { msg := o.pkt.buf, pre := pre, at_ := at_ + tag.length, n := l.length, last := lf })
  { y with
    st := s, left := y.left - (8 + roundup4 body.length), content := y.content ++ hdr ++ out
    crypt := y.crypt ++ (if o.enc.isNone && mic.isNone then []
      else [{ off := at_, len := out.length, slot := o.enc.map (·.2), pos := x.base + at_, mic := mic }])
    tags := y.tags + (if x.group.isSome then 1 else 0)
    pieces := y.pieces ++ [{ o with pkt := { o.pkt with bytes := l }, last := lf }] }

/-- The frame offered leaves its queue's counts, or the remainder its place (R403, R439). -/
def State.takeOffered (s : State) (x : Serve) (o : Piece) : State :=
  if o.rem then s.setRemainder x none
  else
    let s := (s.takeHead x.die o.queue).2
    { s with tm := { s.tm with served := s.tm.served + 1 } }

/-- What stays pending of a piece of which n bytes are placed (R244). -/
def Piece.rest (o : Piece) (n : Nat) : Piece :=
  { o with pkt := { o.pkt with bytes := o.pkt.bytes.drop n }, rem := true, omci := o.omci.map (· ++ o.pkt.bytes.take n) }

/-- The filling of R244, at most n frames; the state of the first queue served is read before it offers (R531). -/
def fillLoop : Nat → Serve → Fill → Fill
  | 0, _, y => y
  | n + 1, x, y =>
    match y.st.offered x with
    | none => y
    | some o =>
      if !o.rem && y.err.state != .clean then
        fillLoop n x { y with st := y.st.queueRead o.die o.queue false y.err.state, err := { y.err with state := .clean } }
      else
      let extra := if x.group.isSome then 4 else 0
      let o := if o.rem then o else { o with ord := y.st.tm.served }
      let len := o.pkt.bytes.length + extra
      let (p, s) := y.st.readPiece x o y.err
      let y' := { y with st := s.takeOffered x p, err := { y.err with mem := .clean } }
      if 8 + roundup4 len ≤ y.left then fillLoop n x (y'.place_ x p p.pkt.bytes true)
      else
        let f := fragBytes len y.left
        if f = 0 then y
        else
          let y' := y'.place_ x p (p.pkt.bytes.take (f - extra)) false
          { y' with st := y'.st.setRemainder x (some (o.rest (f - extra))) }

/-- Idle at the end of an allocation (R244). -/
def idleFill (r : Nat) : List Byte := if 8 ≤ r then slice (Config.idleFrame r) 0 r else List.replicate r 0

/-- The occupancy an entry reports, in granules (R245, R281). -/
def State.occupancy (s : State) (x : Serve) : Nat :=
  let cost (n : Nat) : Nat := 8 + roundup4 (n + (if x.group.isSome then 4 else 0))
  let qs := (List.range 8).foldl (fun n k =>
    (s.queue x.die (8 * x.entry + k)).pkts.foldl (fun n p => n + cost p.bytes.length) n) 0
  let r := match s.remainder x with
    | some r => cost r.pkt.bytes.length
    | none => 0
  Nat.min 0xFFFFFF ((qs + r) / 4)

/-- Upstream group g in effect lists entry i of channel c (R276). -/
def State.listsEntry (s : State) (c i g : Nat) : Bool :=
  let w := if c < 2 then s.rdEff BOND_UGRP_A (d0i g) else s.rdEff BOND_UGRP_B (d0i g)
  bits w (30 + c % 2) (30 + c % 2) == 1 && bits w (19 + 10 * (c % 2)) (10 + 10 * (c % 2)) == i

/-- The channels and upstream groups that list entry i of a line die (R276). -/
def State.listings (s : State) (n i : Nat) : List (Nat × Nat) :=
  ([2 * n, 2 * n + 1].map (fun c => ((List.range 64).filter (s.listsEntry c i)).map (fun g => (c, g)))).flatten

/-- Whether entry i of channel c is served as bonded, and for which group (R276, R283). A member entry that breaks R277,
without BONDED, with a CHAN that is not its own channel alone, or listed more than once, is served in a way that a free value
picks. -/
def State.upGroup (s : State) (c i : Nat) : (Bool × Option Nat) × State :=
  let e := Tab.get s.pon.alloc 0 (chanDie c * 1024 + i)
  let bonded := bits e 28 28 == 1
  match if s.bondOn then s.listings (chanDie c) i else [] with
  | [] => ((bonded, none), s)
  | (m, g) :: t =>
    if bonded && bits e 30 29 == 2 ^ (m % 2) && t.isEmpty then ((true, if m = c then some g else none), s)
    else
      let (w, s) := s.draw Config.freeReserved
      let n := w.toNat % 66
      (if n = 65 then (false, none) else if n = 64 then (true, none) else (true, some n), s)

/-- The classes of an entry whose gates are closed at a time (R436). -/
def State.shutClasses (s : State) (n i now : Nat) : Nat :=
  if !s.is TM_UQ_CFG_GATE_EN (place n i) then 0
  else (List.range 8).foldl (fun v k =>
    v + (if s.upGateOpen n (s.get TM_UQ_CFG_GATE_SEL (place n i)) k now then 0 else 2 ^ k)) 0

/-- The die and entry whose class queues serve an allocation of channel c (R276, R436): entry QENT of the home die for a group. -/
def State.serveOf (s : State) (c i : Nat) (g : Option Nat) (base now : Nat) : Serve :=
  let (d, j) := match g with
    | some k => (s.bondHome, s.getEff BOND_UGRP_A_QENT (d0i k))
    | none => (chanDie c, i)
  { chan := c, die := d, entry := j, group := g, shut := s.shutClasses d j now, base := base }

/-- Fill one allocation (R243 to R245, R278, R281, R283, R496): its content is the DBRu if flagged, then the fill area. A fill
point that does not reach the home die finds no frames there (R19; DESIGN CHOICE, log 94). -/
def State.fillAlloc (s : State) (c : Nat) (b : Burst) (base now : Nat) (err : FillErr) (a : Alloc) : Alloc × FillErr × State :=
  let head := if a.dbru then 4 else 0
  let area := a.size * 4 - head
  let content (n : Nat) (l : List Byte) : List Byte := (if a.dbru then slice (Config.dbru n) 0 4 else []) ++ l
  let empty : Alloc := { a with content := content 0 (idleFill area) }
  match a.entry with
  | none => (empty, err, s)
  | some i =>
    if b.kind != .data then (empty, err, s)
    else
      let ((bonded, g), s) := s.upGroup c i
      if bonded && g.isNone then (empty, err, s.count BOND_CNT_UP_ORPHAN d0)
      else
        let x := s.serveOf c i g (base + head) now
        match s.route (chanDie c) x.die with
        | .absent | .firstDown _ | .secondDown _ _ => (empty, err, s)
        | .asleep _ => (empty, err, s.wakeRoute (chanDie c) x.die)
        | .clear _ =>
          let ok := s.encOk c (s.uencOf x) && s.encOk c ((s.remainder x).bind (·.enc))
          let s := if ok then s else s.count CIPH_CNT_UP_NOKEY (atChan c)
          let y := fillLoop (area / 8 + 2) x { st := s, err := err, left := area }
          ({ a with content := content (y.st.occupancy x) (y.content ++ idleFill y.left)
                    crypt := y.crypt.map (fun k => { k with off := k.off + head, mic := k.mic.map (fun m => { m with at_ := m.at_ + head }) })
                    tags := y.tags, pieces := y.pieces }, y.err, y.st)

/-- Fill the allocations of a burst in map order. -/
def State.fillAllocs (s : State) (c : Nat) (b : Burst) (now : Nat) : FillErr → List Alloc → Nat → List Alloc × State
  | _, [], _ => ([], s)
  | err, a :: t, base =>
    let (a, err, s) := s.fillAlloc c b base now err a
    let (l, s) := s.fillAllocs c b now err t (base + a.content.length)
    (a :: l, s)

/-- The PLOAMu of a burst (R215, R242): the head of the queue, which is removed, or the default message. -/
def State.takePloamu (s : State) (c : Nat) : List Byte × State :=
  let v := s.conv c
  match v.ploamu with
  | [] => (v.ploamuDef, s)
  | m :: t => (m, (s.setConv c { v with ploamu := t }).put PTC_PLOAMU_STAT_LEVEL (atChan c) t.length)

/-- FILL_POINT (R215, R243 to R245, R276 to R283, R436 to R439, R494 to R499, R529 to R531): the channel's first burst whose plan is ready with
every entry (R236) and that is not filled; StartTime is where its FS header begins (R221). Event 0x00A counts the frames and fragments placed (R693). -/
def execFillPoint (x : FillRead) (s : State) : Out := s.event fun s =>
  let c := x.chan.val
  match (s.conv c).bursts.find? (fun b => b.ready && !b.filled && !(s.conv c).waits.contains b.num) with
  | none => s
  | some b =>
    let (now, s) := s.tNow
    let (pl, s) := if b.ploamuFlag then s.takePloamu c else ([], s)
    let (al, s) := if b.kind = .serial then ([], s) else s.fillAllocs c b now ⟨x.state, x.mem, x.off.toNat⟩ b.allocs (b.start * 4 + 4 + pl.length)
    let b' := { b with filled := true, ploamu := pl, allocs := al }
    let v := s.conv c
    (s.setConv c { v with bursts := v.bursts.map (fun y => if y.num == b.num then b' else y) }).pmcEvent (chanDie c) 0 0x00A 0xFF
      (al.map (·.pieces)).flatten.length

/-! ## Launch (R131, R132, R221, R242, R246) -/

/-- CIPH takes up an OMCI message's part at its first word (R489, R499, Table 11.4): the message starts with its first part, and its
MIC goes into the last four bytes of its last. -/
def State.beginMic (s : State) (c : Nat) (l : List Byte) (m : MicPart) : List Byte × State :=
  let i := s.get CIPH_OMCI_CFG_IK_SLOT (atChan c)
  let x := s.slotAt (slotKey (chanDie c) poolPon i)
  let s := if !m.pre.isEmpty then s
    else
      let s := { s with ciph := { s.ciph with mics :=
        s.ciph.mics ++ [⟨m.msg, c, { slot := i, second := if x.valid then some x.second else none }⟩] } }
      if x.valid then s else s.count CIPH_CNT_NO_KEY (atChan c)
  if !m.last then (l, s)
  else
    let mic := match s.ciph.mics.find? (fun u => u.msg == m.msg) with
      | some ⟨_, _, ⟨i, some b, _⟩⟩ => slice (Config.omciMic ((s.slotAt (slotKey (chanDie c) poolPon i)).copy b).key true
          (m.pre ++ (l.drop m.at_).take (m.n - 4))) 0 4
      | _ => [0, 0, 0, 0]
    (splice l (m.at_ + m.n - 4) mic, s)

/-- CIPH takes up a payload of a burst of superframe count n at its first word (R489, R494). The spec gives no effect to a slot that is
no longer VALID between fill point and first word: the payload goes as zeros (DESIGN CHOICE, log 95). -/
def State.beginCrypt (s : State) (c n : Nat) (l : List Byte) (k : Crypt) : List Byte × Crypt × State :=
  let (l, s) := match k.mic with
    | none => (l, s)
    | some m => s.beginMic c l m
  match k.slot with
  | none => (l, { k with begun := true }, s)
  | some i =>
    let x := s.slotAt (slotKey (chanDie c) poolPon i)
    let t := (l.drop k.off).take k.len
    if x.valid then
      let pad := Config.xgemPad x.now.key true n k.pos k.len
      (splice l k.off (xorBytes t pad), { k with begun := true, second := some x.second, pad := pad }, s)
    else (splice l k.off (List.replicate t.length 0), { k with begun := true }, s.countErased c 1)

/-- The payloads of an allocation whose first word is among its first p bytes, and not taken up yet, are taken up. -/
def State.beginCrypts (s : State) (c n p : Nat) : List Crypt → List Byte → List Byte × List Crypt × State
  | [], l => (l, [], s)
  | k :: t, l =>
    let (l, k, s) := if k.begun || p ≤ k.off then (l, k, s) else s.beginCrypt c n l k
    let (l, ks, s) := s.beginCrypts c n p t l
    (l, k :: ks, s)

/-- The allocations of a burst of which p bytes have passed CIPH. -/
def State.beginAllocs (s : State) (c n p : Nat) : List (Nat × Alloc) → List Alloc × State
  | [] => ([], s)
  | (o, a) :: t =>
    let (l, ks, s) := s.beginCrypts c n (p - o) a.crypt a.content
    let (as_, s) := s.beginAllocs c n p t
    ({ a with content := l, crypt := ks } :: as_, s)

/-- An upstream OMCI message is under way while a remainder of it is pending or a part of it has words that have not passed CIPH. -/
def State.micLive (s : State) (m : Nat) : Bool :=
  s.tm.rem.any (fun x => x.2.any (fun r => r.omci.isSome && r.pkt.buf == m)) ||
  [0, 1, 2, 3].any (fun c => (s.conv c).bursts.any (fun b => b.crypts.any (fun k =>
    (k.2.mic.any (·.msg == m)) && !(k.2.begun && decide (k.1 + k.2.len ≤ b.passed (s.xgs c) 12)))))

/-- CIPH works on the words of the burst in progress of channel c, 12 uw before they reach the balls (R489, R494, R499). -/
def State.cipherWords (s : State) (c : Nat) : State :=
  match (s.conv c).bursts.find? (·.inProgress (s.xgs c)) with
  | none => s
  | some b =>
    if b.crypts.isEmpty then s
    else
      let (l, s) := s.beginAllocs c b.sfc.toNat (b.passed (s.xgs c) 12) (placed b.head b.allocs)
      let s := s.setBurst c { b with allocs := l }
      { s with ciph := { s.ciph with mics := s.ciph.mics.filter (fun u => s.micLive u.msg) } }

/-- BURST_LAUNCH (R132, R221, R246, Table 5.11): the words of the channel's first filled burst leave, 12 uw before they reach the
balls, or it is discarded while the transmitter is off. Frames whose last piece has left release their buffers. -/
def execBurstLaunch (c : Chan) (s : State) : Out := s.event fun s =>
  let c := c.val
  let v := s.conv c
  match v.bursts.find? (fun b => b.filled && !b.launched) with
  | none => s
  | some b =>
    if !s.is LANE_PTX_CFG_EN (atChan c) || s.laserOff c then s.dropBursts c .txOff (fun x => x.num == b.num)
    else
      let done := { b with launched := true, age := fillLead (s.xgs c) - 12
                           allocs := b.allocs.map (fun a => { a with pieces := [] })
                           onu := if b.kind = .serial then 0x3FF else s.getEff PTC_ONU_ID_ID (atChan c) }
      let sent : SentBurst := { num := b.num, frame := b.frame, pos := b.pos, lead := b.lead, lag := b.lag, bytes := done.bytes }
      (s.setConv c { v with bursts := v.bursts.map (fun x => if x.num == b.num then done else x), sent := some sent }).releasePieces b

end Sys2Proof.Machine
end

