-- ==== Sys2Proof/Machine/Reliability.lean ====
section
/-!
DEFINITION. The reservoir and the protection of memories (12_reservoir_and_reliability.md): buffer accesses, patrol scrub,
self-tests, spares, retirement, initialisation, the error logs and the spare map window.
-/
namespace Sys2Proof.Machine
open Reg

/-! ## Accesses to a packet buffer (R521, R523, R530, R545) -/

/-- Die d carries a packet buffer that the part uses (R18). -/
def State.hasBuffer (s : State) (d : Nat) : Bool := (poolDies s.part).contains d

/-- A frame on the wire that is to end with an inverted FCS (R530). -/
def Sending.spoil (x : Sending) : Sending :=
  if x.bad then x
  else
    let n := x.wire.length - 4
    { x with wire := x.wire.take n ++ (x.wire.drop n).map (fun b => ~~~b), bad := true }

/-- A MAC's read for transmit finds an uncorrectable error: the frame that it is sending, or else its next one, ends with an
inverted FCS (R530). -/
def State.macReadBad (s : State) (m : MacPort) : State :=
  let x := s.mac m.key
  match x.sending, x.tx with
  | some f, l =>
    if !f.pause then (s.setMac m.key { x with sending := some f.spoil }).count RSV_CNT_UE_TX (onDie m.die)
    else match l with
    | [] => s
    | f :: rest => (s.setMac m.key { x with tx := { f with bad := true } :: rest }).count RSV_CNT_UE_TX (onDie m.die)
  | none, [] => s
  | none, f :: rest => (s.setMac m.key { x with tx := { f with bad := true } :: rest }).count RSV_CNT_UE_TX (onDie m.die)

/-- Event 0x106: a corrected error of a reservoir die. -/
def State.rcCorrected (s : State) (d : Nat) : Ecc → State
  | .corrected _ _ => if d < 6 then s else s.pmcEvent d 0 0x106 0xFF 1
  | .clean | .bad _ _ => s

/-- A read of n bytes of die d's buffer that takes k mc at its die: the reader gets its data, or an error. -/
def State.bufferRead (s : State) (d : Nat) (r : BufReader) (off n k : Nat) (e : Ecc) : State :=
  let (v, s) := (s.rcCorrected d e).memRead d off n e
  match r with
  | .req q => s.answer (reqCode q) { data := BitVec.ofNat 64 (v.getD 0), err := v.isNone, count := k }
  | .mac m => if v.isNone then s.macReadBad m else s

/-- A write of n bytes of die d's buffer, acknowledged after k mc. -/
def State.bufferWrite (s : State) (d : Nat) (r : Requester) (off n v k : Nat) : State :=
  match s.memWrite d off n v with
  | none => s.answer (reqCode r) { err := true, count := k }
  | some s => s.answer (reqCode r) { count := k }

/-- RESERVOIR_READ (R521, R529, R530): 96 rc from acceptance, which are 120 mc. -/
def execReservoirRead (d : Die) (r : BufReader) (off : BitVec 36) (log2 : Fin 4) (e : Ecc) (s : State) : Out :=
  s.event fun s => if d.val < 6 || !s.hasBuffer d.val then s
    else s.bufferRead d.val r off.toNat (2 ^ log2.val) 120 e

/-- RESERVOIR_WRITE (R521): acknowledged 24 rc from acceptance, which are 30 mc. -/
def execReservoirWrite (d : Die) (r : Requester) (off : BitVec 36) (log2 : Fin 4) (v : BitVec 64) (s : State) : Out :=
  s.event fun s => if d.val < 6 || !s.hasBuffer d.val then s
    else s.bufferWrite d.val r off.toNat (2 ^ log2.val) v.toNat 30

/-- PACKET_SRAM_READ (R523, R529, R530): 16 mc; ZG-6420 only. -/
def execPacketSramRead (r : BufReader) (off : BitVec 36) (log2 : Fin 4) (e : Ecc) (s : State) : Out :=
  s.event fun s => if !s.hasBuffer 2 then s else s.bufferRead 2 r off.toNat (2 ^ log2.val) 16 e

/-- PACKET_SRAM_WRITE (R523): 8 mc; ZG-6420 only. -/
def execPacketSramWrite (r : Requester) (off : BitVec 36) (log2 : Fin 4) (v : BitVec 64) (s : State) : Out :=
  s.event fun s => if !s.hasBuffer 2 then s else s.bufferWrite 2 r off.toNat (2 ^ log2.val) v.toNat 8

/-! ## Patrol scrub (R527, R528, R531, R532, R534, R540) -/

/-- Replace the frame stores of the pipeline and the channel group without the frame at place i: a store of frames gives up the
frame that an uncorrectable error hit (R527). -/
def State.frameLost (s : State) (d : Nat) : ScrubAt → State
  | .skew c i =>
    let l := Tab.get s.bond.skew [] c.val
    if l.length ≤ i then s
    else ((s.setBond { s.bond with skew := Tab.set s.bond.skew [] c.val (l.eraseIdx i) }).showBond).count MEM_CNT_UE_DROP (onDie d)
  | .reorder i =>
    if s.bond.held.length ≤ i then s
    else ((s.setBond { s.bond with held := s.bond.held.eraseIdx i }).showBond).count MEM_CNT_UE_DROP (onDie d)
  | .eddy i =>
    let l := Tab.get s.pipe.eddy [] d
    match l[i]? with
    | none => s
    | some e => ({ s with pipe := { s.pipe with eddy := Tab.set s.pipe.eddy [] d (l.eraseIdx i) } }.release e.buf).count
        MEM_CNT_UE_DROP (onDie d)
  | .orderHold i => match (s.pipe.hold.filter (fun f => f.from_ == d))[i]? with
    | none => s
    | some f => ({ s with pipe := { s.pipe with hold := s.pipe.hold.erase f } }.release f.pkt.buf).count
        MEM_CNT_UE_DROP (onDie d)
  | .delta i =>
    let l := Tab.get s.pipe.delta [] d
    match l[i]? with
    | none => s
    | some x => ({ s with pipe := { s.pipe with delta := Tab.set s.pipe.delta [] d (l.eraseIdx i) } }.release x.2.buf).count
        MEM_CNT_UE_DROP (onDie d)
  | .source k i =>
    let l := Tab.get s.pipe.fifo [] (srcKey d k.val)
    match l[i]? with
    | none => s
    | some p => ({ s with pipe := { s.pipe with fifo := Tab.set s.pipe.fifo [] (srcKey d k.val) (l.eraseIdx i) } }.release p.buf).count
        MEM_CNT_UE_DROP (onDie d)
  | .buffer _ _ | .queue _ | .exact _ | .ternary _ | .lpm _ | .group _ | .copy _ | .pair _ | .imem _ => s

/-- A group's list, of one generation or the other, takes in copy entry i (R374). -/
def listsCopy (e : BitVec 64) (i : Nat) : Bool :=
  [false, true].any (fun gen => match groupList e gen with
    | none => false
    | some (f, n) => decide ((i + 2 ^ 17 - f) % 2 ^ 17 < n))

/-- Every group of a die whose list takes in a copy entry with an uncorrectable error misses (R527, log 108). -/
def State.copyLost (s : State) (d i : Nat) : State :=
  { s with pipe := { s.pipe with groups := s.pipe.groups.map (fun x =>
      if x.1 / 2 ^ 14 = d && listsCopy x.2 i then (x.1, groupClear x.2) else x) } }

/-- What a memory's scrub visits (R534): the block (0 RSV, 1 MEM), the maintenance domain, or 32 and the memory's number where it has
none, the first 64-byte block of what is read, how many it takes, and how many the memory has. The entries of a table, whose
blocks the spec does not lay out, count as a block each (log 109). -/
structure ScrubVisit where
  b : Nat
  key : Nat
  lo : Nat
  len : Nat
  all : Nat
  deriving DecidableEq, Repr

/-- The visit of what is read: none for a prefix or a frame, whose places in their memory State does not hold (log 109). -/
def scrubVisit (d : Nat) : ScrubAt → Option ScrubVisit
  | .buffer bank row =>
    some (if 6 ≤ d then ⟨0, bank.val / 16, (row.val * 16 + bank.val % 16) * 16, 16, 2 ^ 21⟩ else ⟨0, bank.val, row.val * 16, 16, 2 ^ 14⟩)
  | .queue q => some (if d < 2 then ⟨1, 0, q.val / 2, 1, 4096⟩ else ⟨1, q.val / 2 ^ 14, q.val % 2 ^ 14 / 2, 1, 8192⟩)
  | .exact i => some ⟨1, 32, i.val, 1, emBuckets d * 4⟩
  | .ternary i => some ⟨1, 33, i.val, 1, tcEntries d⟩
  | .group i => some ⟨1, 34, i.val, 1, 2 ^ 14⟩
  | .copy i => some ⟨1, 35, i.val, 1, 2 ^ 17⟩
  | .pair i => some ⟨1, 36, i.val, 1, cntPairs d⟩
  | .imem i => some ⟨1, 37, i.val, 1, 2 ^ 14⟩
  | .lpm _ | .skew _ _ | .reorder _ | .eddy _ | .orderHold _ | .delta _ | .source _ _ => none

/-- The maintenance slots that a visit's domain has had (Table 12.4): a memory outside that table has none that the spec counts. -/
def State.slotNow (s : State) (d : Nat) (x : ScrubVisit) : Option Nat :=
  if x.b = 0 then some (if 6 ≤ d then s.clk.rc / 64 else s.clk.mc / 16)
  else if x.key < 32 then some (s.clk.mc / 8) else none

/-- SHIFT of a visit (R534). -/
def State.scrubShift (s : State) (d : Nat) (x : ScrubVisit) : Nat :=
  if x.b = 0 then s.get RSV_CTL_SCRUB_SHIFT (onDie d) else s.get MEM_SCRUB_CFG_SHIFT (onDie d)

/-- The memory takes maintenance slots (R540, R545): its die is in RUN, and a packet buffer is READY. -/
def State.maintained (s : State) (d b : Nat) : Bool :=
  s.powerState d == 0 && (b != 0 || (s.hasBuffer d && s.is RSV_STAT_READY (onDie d)))

/-- Patrol scrub reads this next (R534, R540): the memory takes slots, no test of its domain has them, 2^SHIFT of them have passed
since the block before, and the block is next in address order. -/
def State.scrubTurn (s : State) (d : Nat) (at_ : ScrubAt) : Bool :=
  match scrubVisit d at_ with
  | none => s.maintained d 1
  | some x =>
    let g := s.guard d x.b
    let p := Tab.get g.scrub 0 x.key
    s.maintained d x.b && (Tab.get g.testing none x.key).isNone && decide (x.lo ≤ p) && decide (p < x.lo + x.len) &&
      (match s.slotNow d x, Tab.get g.scrubAt none x.key with
      | some n, some t => decide (t + 2 ^ s.scrubShift d x ≤ n)
      | _, _ => true)

/-- Scrub goes on to the next block, and from the last to the first (R534). -/
def State.scrubStep (s : State) (d : Nat) (at_ : ScrubAt) : State :=
  match scrubVisit d at_ with
  | none => s
  | some x =>
    let g := s.guard d x.b
    s.setGuard d x.b { g with
      scrub := Tab.set g.scrub 0 x.key ((Tab.get g.scrub 0 x.key + 1) % x.all)
      scrubAt := match s.slotNow d x with
        | none => g.scrubAt
        | some n => Tab.set g.scrubAt none x.key (some n) }

/-- What scrub does about the error that it finds (R527 to R532, R534). A difference in a match array is repaired from the shadow
and logged TRANSIENT (R532), as a corrected error of that memory. -/
def State.scrubFound (s : State) (d : Nat) (at_ : ScrubAt) (e : Ecc) : State :=
  let bad := eccBad e
  match at_ with
  | .buffer bank row => (s.rcCorrected d e).rowError d 0 ⟨bank.val, row.val⟩ true e
  | .queue q => s.queueRead d q.val true e
  | .exact i =>
    let s := s.plainError d 4 i.val true e
    if bad then s.setEm d i.val { s.emEntry d i.val with g1 := false, g0 := false } else s
  | .ternary i => s.plainError d 6 i.val true e
  | .lpm i =>
    let s := s.plainError d 4 (i.val % 2 ^ 18) true e
    match (s.lpmList d)[i.val]? with
    | some x => if bad then s.setLpm d ((s.lpmList d).erase x) else s
    | none => s
  | .group i =>
    let s := s.plainError d 4 i.val true e
    if bad then s.groupLost d i.val else s
  | .copy i =>
    let s := s.plainError d 4 i.val true e
    if bad then s.copyLost d i.val else s
  | .pair i =>
    let s := s.plainError d 5 i.val true e
    if bad then s.setPair d i.val 0 0 else s
  | .imem i => s.plainError d 7 i.val true e
  | .skew _ _ | .reorder _ | .eddy _ | .orderHold _ | .delta _ | .source _ _ =>
    let s := s.plainError d 8 0 true e
    if bad then s.frameLost d at_ else s

/-- The die carries the memory that scrub is to read (Table 12.3), and reads it: patrol scrub of a packet buffer may be off
(Table 12.5). -/
def State.hasScrub (s : State) (d : Nat) : ScrubAt → Bool
  | .buffer bank row => s.hasBuffer d && s.is RSV_CTL_SCRUB_EN (onDie d) && (6 ≤ d || bank.val < 32 && row.val < 1024)
  | .queue q => d < 6 && q.val < queuesOf d
  | .exact _ | .ternary _ | .pair _ | .imem _ | .eddy _ | .orderHold _ | .source _ _ => d < 6
  | .lpm _ | .group _ | .copy _ | .delta _ => 2 ≤ d && d < 6
  | .skew c _ => chanDie c.val == d
  | .reorder _ => d == s.bondHome

/-- SCRUB_READ (R534, R540). -/
def execScrubRead (d : Die) (at_ : ScrubAt) (e : Ecc) (s : State) : Out := s.event fun s =>
  if s.hasScrub d.val at_ && s.scrubTurn d.val at_ then (s.scrubStep d.val at_).scrubFound d.val at_ e else s

/-! ## Spares (R535, R541, R548, Table 12.3) -/

/-- The banks of a block's memory with self-test: a die without a packet buffer has none of RSV's (Table 12.3). -/
def spareBanks (p : Part) (d b : Nat) : Nat :=
  if b = 0 then (if !(poolDies p).contains d then 0 else if 6 ≤ d then 512 else 32) else if 2 ≤ d then 16 else 1

/-- The spare rows of a bank (Table 12.3); a course die's spare bank, 0x1FF, has those of a bank (R543). -/
def spareRows (p : Part) (d b bank : Nat) : Nat :=
  if bank < spareBanks p d b || (b = 1 && 2 ≤ d && bank = 0x1FF) then
    (if b = 0 then (if 6 ≤ d then 32 else 16) else if 2 ≤ d then 21 else 11)
  else 0

/-- The key of a spare entry. -/
def spareKey (bank i : Nat) : Nat := bank * 64 + i

/-- The entry that serves spare row i of a bank (R543, R551): those of a bank that the spare bank replaces are the spare bank's, at
BANK 0x1FF, but for row 0, whose INDEX there names the replacement itself (log 110). -/
def State.spareOf (s : State) (d b bank i : Nat) : Nat :=
  if b = 1 && 2 ≤ d && i != 0 && s.is MEM_STAT_SPARE_BANK (onDie d) && bank = s.get MEM_STAT_SB_BANK (onDie d) then
    spareKey 0x1FF i
  else spareKey bank i

/-- The spare rows of a bank in use: mapped or failed. -/
def State.usedSpares (s : State) (d b bank : Nat) : Nat :=
  ((List.range (spareRows s.part d b bank)).filter (fun i => bits (Tab.get (s.guard d b).spares 0 (s.spareOf d b bank i)) 31 31 == 1)).length

/-- SPARE_MIN follows the spare map (Tables 12.6 and 12.7). -/
def State.showSpares (s : State) (d b : Nat) : State :=
  let most := (List.range (spareBanks s.part d b)).foldl (fun n k => Nat.max n (s.usedSpares d b k)) 0
  let n := spareRows s.part d b 0 - most
  if b = 0 then s.put RSV_STAT_SPARE_MIN (onDie d) n else s.put MEM_STAT_SPARE_MIN (onDie d) n

/-- The bank's next unused spare row (R541). -/
def State.nextSpare (s : State) (d b bank : Nat) : Option Nat :=
  (List.range (spareRows s.part d b bank)).find? (fun i =>
    bits (Tab.get (s.guard d b).spares 0 (s.spareOf d b bank i)) 31 31 == 0)

/-- A spare entry that maps a row (Table 12.11). -/
def mapEntry (row : Nat) : Word := setBits (setBits (setBits 0 31 31 1) 30 29 1) 17 0 row

/-- The spare that serves a row has failed (R541): its entry says so. -/
def State.failSpare (s : State) (d b : Nat) (r : RowId) : State :=
  let g := s.guard d b
  let keys := (List.range (spareRows s.part d b r.bank)).map (fun i => s.spareOf d b r.bank i)
  s.setGuard d b { g with spares := g.spares.map (fun x =>
      if keys.contains x.1 && bits x.2 31 29 == 5 && bits x.2 17 0 == r.row then (x.1, setBits x.2 30 29 2) else x) }

/-- The size of a retirement table (R550): 1,024 entries where a packet buffer lies, and 256 for queue state. -/
def retireSize (p : Part) (d b : Nat) : Nat :=
  if b = 0 then (if (poolDies p).contains d then 1024 else 0) else 256

/-- A retirement entry (Table 12.11). -/
def retireEntry (r : RowId) : Word := setBits (setBits (setBits (setBits 0 31 31 1) 30 29 3) 26 18 r.bank) 17 0 r.row

/-- A retirement takes the lowest free entry, or sets RTBL_FULL (R550). -/
def State.recordRetired (s : State) (d b : Nat) (r : RowId) : State :=
  let g := s.guard d b
  match (List.range (retireSize s.part d b)).find? (fun i => bits (Tab.get g.retired 0 i) 31 31 == 0) with
  | some i => s.setGuard d b { g with retired := Tab.set g.retired 0 i (retireEntry r) }
  | none => (s.setGuard d b { g with unrecorded := g.unrecorded + 1 }).put
      (if b = 0 then RSV_EVT_RTBL_FULL else MEM_EVT_RTBL_FULL) (onDie d) 1

/-- CAP_ALARM is set when CAPACITY falls to or below its threshold (R526). -/
def State.setCapacity (s : State) (d n : Nat) : State :=
  let falls := decide (n < s.get RSV_CAPACITY_V (onDie d))
  let s := s.put RSV_CAPACITY_V (onDie d) n
  if falls && n ≤ s.get RSV_CAP_ALARM_V (onDie d) then s.put RSV_EVT_CAP_ALARM (onDie d) 1 else s

/-- The queues of a queue-state row (R543): 16 on a course die, the 8 of an Alloc-ID entry on a line die. -/
def rowQueues (d : Nat) (r : RowId) : List Nat :=
  if d < 2 then (List.range 8).map (fun i => r.row * 8 + i) else (List.range 16).map (fun i => r.bank * 2 ^ 14 + r.row * 16 + i)

/-- Mark a row's queues in MEM.QUEUE_RETIRED (R544). -/
def State.markRetired (s : State) (d : Nat) (r : RowId) : State :=
  (rowQueues d r).foldl (fun (s : State) q => s.latch MEM_QUEUE_RETIRED_V (place d (q / 32)) (q % 32)) s

/-! ## Self-test (R535 to R543) -/

/-- The log entry of a tested row. -/
def State.logTest (s : State) (d b cls : Nat) (t : TestRow) : State :=
  s.logError d b cls false t.scrub (memidOf d b) t.row.bank t.row.row
    (.corrected (BitVec.ofNat 8 t.syndrome) (BitVec.ofNat 8 t.word))

/-- SELF_TEST_START (R538, R539): the first waiting row of a bank whose scratch row holds no data. -/
def execSelfTestStart (d : Die) (b : Fin 2) (dom : Fin 32) (s : State) : Out := s.event fun s =>
  let g := s.guard d.val b.val
  let q := Tab.get g.waiting [] dom.val
  if !s.maintained d.val b.val || (Tab.get g.testing none dom.val).isSome then s
  else match q.find? (fun t => (Tab.get g.scratch none t.row.bank).isNone) with
  | none => s
  | some t => s.setGuard d.val b.val { g with
      waiting := Tab.set g.waiting [] dom.val (q.erase t), testing := Tab.set g.testing none dom.val (some t) }

/-- ROW_RETIRE of a packet-buffer row (R542): its four cells leave service, the free ones at once, and those in use when
their packets free them. -/
def State.retireBuffer (s : State) (d : Nat) (t : TestRow) (inUse : List Nat) : State :=
  let live := (inUse.take 4).filter (fun k => (s.bufOf k).die == d && 0 < (s.bufOf k).holds)
  let s := s.setCapacity d (s.get RSV_CAPACITY_V (onDie d) - 4)
  let s := s.put RSV_FREE_V (onDie d) (s.get RSV_FREE_V (onDie d) - (4 - live.length))
  let s := live.foldl (fun (s : State) k => { s with dram := { s.dram with
    bufs := Tab.mod s.dram.bufs {} k (fun x => { x with lost := t.row.bank :: x.lost }) } }) s
  let g := s.guard d 0
  let s := if live.isEmpty then s
    else s.setGuard d 0 { g with scratch := Tab.set g.scratch none t.row.bank (some (t.row, live.length)) }
  (s.recordRetired d 0 t.row).logTest d 0 2 t

/-- A queue-state row fails with no spare row left (R543): the bank is copied to the spare bank of a course die if that is
unused, and otherwise the row is retired. -/
def State.retireQueues (s : State) (d : Nat) (t : TestRow) : State :=
  let g := s.guard d 1
  if 2 ≤ d && !s.is MEM_STAT_SPARE_BANK (onDie d) && g.copying.isNone then
    s.setGuard d 1 { g with copying := some t, scratch := Tab.set g.scratch none t.row.bank (some (t.row, 0)) }
  else
    let s := s.setGuard d 1 { g with
      scratch := Tab.set g.scratch none t.row.bank (some (t.row, (rowQueues d t.row).length)) }
    let s := s.markRetired d t.row
    let s := s.put MEM_STAT_RETIRED (onDie d) (s.get MEM_STAT_RETIRED (onDie d) + 1)
    (s.recordRetired d 1 t.row).logTest d 1 2 t

/-- The maintenance slots of a self-test of a reservoir channel (Tables 12.4 and 17.4, 0x103): 32 to move the row, 160 to
march over it, and 32 to copy it back or to its spare. -/
def State.testSlots (s : State) (d b dom : Nat) (copied : Bool) : State :=
  if d < 6 || b != 0 then s else s.pmcEvent d 0 0x103 dom (if copied then 224 else 192)

/-- SELF_TEST_END (R535, R541 to R543, R550): the row returns to service, its bank's next spare serves it, or it retires. -/
def execSelfTestEnd (d : Die) (b : Fin 2) (dom : Fin 32) (pass : Bool) (inUse : List Nat) (s : State) : Out :=
  s.event fun s =>
  let d := d.val
  let b := b.val
  let g := s.guard d b
  match Tab.get g.testing none dom.val with
  | none => s
  | some t =>
    if !s.maintained d b then s
    else
      let s := s.setGuard d b { g with testing := Tab.set g.testing none dom.val none }
      if pass then (s.testSlots d b dom.val true).logTest d b 0 t
      else
        let s := s.failSpare d b t.row
        match s.nextSpare d b t.row.bank with
        | some i =>
          let s := s.testSlots d b dom.val true
          let g := s.guard d b
          ((s.setGuard d b { g with spares := Tab.set g.spares 0 (s.spareOf d b t.row.bank i) (mapEntry t.row.row) }).showSpares d b).logTest
            d b 1 t
        | none =>
          let s := s.testSlots d b dom.val false
          if b = 0 then s.retireBuffer d t inUse else s.retireQueues d t

/-- The spare bank replaces a bank (R543, R551): it brings spare rows of its own, and those of the bank that it replaces are no
longer in use. -/
def State.useSpareBank (s : State) (d bank : Nat) : State :=
  let g := s.guard d 1
  let s := s.setGuard d 1 { g with
    spares := Tab.set (g.spares.filter (fun x => x.1 / 64 != bank)) 0 (spareKey 0x1FF 0) (mapEntry bank) }
  ((s.put MEM_STAT_SPARE_BANK (onDie d) 1).put MEM_STAT_SB_BANK (onDie d) bank).showSpares d 1

/-- SPARE_BANK_COPY_DONE (R543). -/
def execSpareBankCopyDone (d : CourseDie) (s : State) : Out := s.event fun s =>
  let d := courseIdx d
  let g := s.guard d 1
  match g.copying with
  | none => s
  | some t =>
    let bank := t.row.bank
    ((s.setGuard d 1 { g with copying := none, scratch := Tab.set g.scratch none bank none }).useSpareBank d bank).logTest d 1 5 t

/-- RETIRED_QUEUES_EMPTY (R543): the scratch row of a bank is released. -/
def execRetiredQueuesEmpty (d : LcDie) (bank : Fin 16) (s : State) : Out := s.unit d.val 3 fun s =>
  let d := d.val
  let g := s.guard d 1
  match Tab.get g.scratch none bank.val with
  | none => s
  | some (r, n) =>
    if n = 0 || !(rowQueues d r).all (fun q => (s.queue d q).pkts.isEmpty) then s
    else (s.setGuard d 1 { g with scratch := Tab.set g.scratch none bank.val none }).put MEM_EVT_QEMPTY (onDie d) 1

/-! ## Initialisation (R545, R551) -/

/-- The size in bytes of a die's packet buffer. -/
def bufferSize (d : Nat) : Nat := if 6 ≤ d then 0x100000000 else 0x2000000

/-- The cells of a die's packet buffer (R526). -/
def bufferCells (d : Nat) : Nat := bufferSize d / 256

/-- RSV_ENABLE (R545, R551): every row is being initialised; recorded retirements leave CAPACITY. A packet that still holds
a cell from before leaves contents in doubt. -/
def execRsvEnable (d : Die) (v : Word) (s : State) : Out := s.event fun s =>
  let d := d.val
  let old := s.is RSV_CTL_EN (onDie d)
  let s := s.fwWrite RSV_CTL (onDie d) v
  if old || !s.is RSV_CTL_EN (onDie d) || !s.hasBuffer d then s
  else
    let g := s.guard d 0
    let n := (g.retired.filter (fun x => bits x.2 31 31 == 1)).length + g.unrecorded
    let outlived := s.dram.bufs.any (fun x => x.2.die == d && 0 < x.2.holds && !x.2.leaked)
    let s := s.setGuard d 0 { g with initing := true, epoch := g.epoch + 1, tainted := g.tainted || outlived }
    if bufferCells d - 4 * n = s.get RSV_CAPACITY_V (onDie d) then s else s.setCapacity d (bufferCells d - 4 * n)

/-- RSV_DISABLE (R545). -/
def execRsvDisable (d : Die) (v : Word) (s : State) : Out := s.event fun s =>
  let d := d.val
  let old := s.is RSV_CTL_EN (onDie d)
  let s := s.fwWrite RSV_CTL (onDie d) v
  if !old || s.is RSV_CTL_EN (onDie d) || !s.hasBuffer d then s
  else
    let s := (s.put RSV_STAT_READY (onDie d) 0).put RSV_FREE_V (onDie d) 0
    s.setGuard d 0 { s.guard d 0 with initing := false, waiting := [], testing := [], scratch := [] }

/-- RSV_INIT_DONE (R545): every cell is zero and every cell in service is free. -/
def execRsvInitDone (d : Die) (s : State) : Out := s.unit d.val 0 fun s =>
  let d := d.val
  let g := s.guard d 0
  if !g.initing then s
  else
    let lo := d * 2 ^ 36
    let s := { s with mem := s.mem.filter (fun c => c.1 < lo || lo + bufferSize d ≤ c.1) }
    let s := s.setGuard d 0 { g with initing := false }
    (s.put RSV_FREE_V (onDie d) (s.get RSV_CAPACITY_V (onDie d) - s.get RSV_LOST_CELLS_V (onDie d))).put
      RSV_STAT_READY (onDie d) 1

/-! ## The error log and the spare map window (R546, R548 to R551) -/

/-- ELOG_POP (R546). -/
def execElogPop (d : Die) (b : Fin 2) (s : State) : Out := s.event fun s =>
  let g := s.guard d.val b.val
  (s.setGuard d.val b.val { g with log := g.log.tail }).showLog d.val b.val

/-- The registers of the window of a block. -/
def spmapCtl (b : Nat) : Nat := if b = 0 then RSV_SPMAP_CTL else MEM_SPMAP_CTL
/-- The window's data register. -/
def spmapData (b : Nat) : Nat := if b = 0 then RSV_SPMAP_DATA else MEM_SPMAP_DATA

/-- BANK and INDEX of a window command. -/
def State.spmapAt (s : State) (d b : Nat) : Nat × Nat :=
  let w := s.rd (spmapCtl b) (onDie d)
  (bits w 24 16, bits w 10 0)

/-- The window refuses a command (R548, R549). -/
def State.spmapRej (s : State) (d b : Nat) : State :=
  s.put (if b = 0 then RSV_SPMAP_CTL_REJ else MEM_SPMAP_CTL_REJ) (onDie d) 1

/-- The block exists on the die: MEM on line and course dies (Table 19.3). -/
def hasBlock (d b : Nat) : Bool := b == 0 || d < 6

/-- A write command is accepted (R549). -/
def State.spmapOpen (s : State) (d b : Nat) : Bool :=
  if b = 0 then !s.is RSV_CTL_EN (onDie d) else !s.is MEM_SPMAP_CTL_LOCKED (onDie d)

/-- The written word of SPMAP_CTL carries GO, and on MEM a LOCK written with it acts too (R549). -/
def State.spmapStart (s : State) (d b : Nat) (v : Word) : State :=
  let s := s.fwWrite (spmapCtl b) (onDie d) v
  if b = 1 && bits v 26 26 == 1 then s.put MEM_SPMAP_CTL_LOCKED (onDie d) 1 else s

/-- SPMAP_READ_SPARE (R548). -/
def execSpmapReadSpare (d : Die) (b : Fin 2) (v : Word) (s : State) : Out := s.event fun s =>
  let d := d.val
  let b := b.val
  if !hasBlock d b then s
  else
    let s := s.spmapStart d b v
    let x := s.spmapAt d b
    if spareRows s.part d b x.1 ≤ x.2 then s.spmapRej d b
    else s.wr (spmapData b) (onDie d) (Tab.get (s.guard d b).spares 0 (s.spareOf d b x.1 x.2))

/-- The queues of a queue-state row stand as the spare row that now serves it does (R551): cleared, as R394 left it (log 110). -/
def State.rowCleared (s : State) (d : Nat) (r : RowId) : State :=
  (rowQueues d r).foldl (fun (s : State) q => (s.emptyQueue d q).setQueue d q {}) s

/-- A written spare entry takes effect (R551): a mapping of another row brings that row the spare's state. -/
def State.spareWritten (s : State) (d b bank i : Nat) (w : Word) : State :=
  let g := s.guard d b
  let k := s.spareOf d b bank i
  let old := Tab.get g.spares 0 k
  let s := (s.setGuard d b { g with spares := Tab.set g.spares 0 k w }).showSpares d b
  if b = 1 && bits w 31 29 == 5 && !(bits old 31 29 == 5 && bits old 17 0 == bits w 17 0) then
    s.rowCleared d ⟨if bank = 0x1FF then s.get MEM_STAT_SB_BANK (onDie d) else bank, bits w 17 0⟩
  else s

/-- SPMAP_WRITE_SPARE (R548, R549, R551). -/
def execSpmapWriteSpare (d : Die) (b : Fin 2) (v : Word) (s : State) : Out := s.event fun s =>
  let d := d.val
  let b := b.val
  if !hasBlock d b then s
  else
    let ok := s.spmapOpen d b
    let s := s.spmapStart d b v
    let x := s.spmapAt d b
    if !ok || spareRows s.part d b x.1 ≤ x.2 then s.spmapRej d b
    else
      let g := s.guard d b
      let w := s.rd (spmapData b) (onDie d)
      if b = 1 && x.1 = 0x1FF && x.2 = 0 then
        if bits w 31 31 = 1 then
          let s := s.useSpareBank d (bits w 3 0)
          s.setGuard d b { s.guard d b with spares := Tab.set (s.guard d b).spares 0 (spareKey 0x1FF 0) w }
        else s.setGuard d b { g with spares := Tab.set g.spares 0 (spareKey 0x1FF 0) w }
      else s.spareWritten d b x.1 x.2 w

/-- SPMAP_READ_RETIREMENT (R548). -/
def execSpmapReadRetirement (d : Die) (b : Fin 2) (v : Word) (s : State) : Out := s.event fun s =>
  let d := d.val
  let b := b.val
  if !hasBlock d b then s
  else
    let s := s.spmapStart d b v
    let i := (s.spmapAt d b).2
    if retireSize s.part d b ≤ i then s.spmapRej d b
    else s.wr (spmapData b) (onDie d) (Tab.get (s.guard d b).retired 0 i)

/-- SPMAP_WRITE_RETIREMENT (R548, R549, R551): an entry for a queue-state row marks its queues at once. -/
def execSpmapWriteRetirement (d : Die) (b : Fin 2) (v : Word) (s : State) : Out := s.event fun s =>
  let d := d.val
  let b := b.val
  if !hasBlock d b then s
  else
    let ok := s.spmapOpen d b
    let s := s.spmapStart d b v
    let i := (s.spmapAt d b).2
    if !ok || retireSize s.part d b ≤ i then s.spmapRej d b
    else
      let g := s.guard d b
      let w := s.rd (spmapData b) (onDie d)
      let s := s.setGuard d b { g with retired := Tab.set g.retired 0 i w }
      if b = 1 && bits w 31 31 = 1 then s.markRetired d ⟨bits w 26 18 % spareBanks s.part d b, bits w 17 0⟩ else s

/-- SPMAP_LOCK (R549): a write of MEM.SPMAP_CTL with LOCK, and no GO, which would bring its LOCK itself. -/
def execSpmapLock (d : LcDie) (v : Word) (s : State) : Out := s.event fun s =>
  let s := s.fwWrite MEM_SPMAP_CTL (onDie d.val) v
  if bits v 26 26 = 1 then s.put MEM_SPMAP_CTL_LOCKED (onDie d.val) 1 else s

end Sys2Proof.Machine
end

