-- ==== Sys2Proof/Machine/Console.lean ====
section
/-!
DEFINITION. The control complex outside its cores (13_control_complex.md): interrupt sources and the interrupt controller
(R575 to R579, R749), the L2's configuration (R555), the release of line die 1's cores (R566), the UART and GPIO (R587 to
R592) and the semaphores (R594). The cores stand in Machine/Cores.lean.
-/
namespace Sys2Proof.Machine
open Reg

/-! ## Interrupt sources (Table 19.4) -/

/-- A MAC's source: a set bit of STAT or TS_STAT meets its enable (R470). -/
def State.macSource (s : State) (m : MacPort) : Bool :=
  (s.mis m MAC_STAT_LINK_CHG && s.mis m MAC_IEN_LINK_CHG) || (s.mis m MAC_STAT_PAUSE_WD && s.mis m MAC_IEN_PAUSE_WD) ||
  (s.mis m MAC_TS_STAT_OVF && s.mis m MAC_IEN_TS_OVF)

/-- A set bit of one register meets its enable in another. -/
def State.meets (s : State) (evt ien at_ : Nat) : Bool := s.rd evt at_ &&& s.rd ien at_ != 0

/-- Source UART (R589). -/
def State.uartSource (s : State) : Bool :=
  (s.is CTL_UART_CFG_RX_IEN d0 && (s.get CTL_UART_STAT_RX_LEVEL d0 != 0 || s.is CTL_UART_STAT_FERR d0 ||
    s.is CTL_UART_STAT_OVF d0)) ||
  (s.is CTL_UART_CFG_TX_IEN d0 && (s.is CTL_UART_STAT_TX_IDLE d0 || s.is CTL_UART_STAT_TX_DROP d0))

/-- The level of the sources of a channel of line die d (Table 19.4, k from 0x60 to 0x69). -/
def State.chanSource (s : State) (d k : Nat) : Bool :=
  let c := 2 * d + k % 2
  let a := atChan c
  if k < 0x62 then
    bits (s.rd PFR_DEF_LATCH a &&& s.rd PFR_DEF_IEN a) 5 0 != 0 ||
    bits (s.rd PFR_DEF_LATCH a) 13 8 &&& bits (s.rd PFR_DEF_IEN a) 5 0 != 0 || bits (s.rd PFR_DEF_LATCH a) 17 16 != 0
  else if k < 0x64 then s.is PFR_PM_STAT_BIN15 a || s.is PFR_PM_STAT_BINDAY a
  else if k < 0x66 then bits (s.rd PTC_ACT_STAT a &&& s.rdEff PTC_ACT_IEN a) 8 0 != 0
  else if k < 0x68 then s.get PTC_PLOAMD_STAT_LEVEL a != 0 && s.isEff PTC_PLOAMD_IEN_EN a
  else s.rd EST_GRANT_EVT a &&& s.rdEff EST_GRANT_IEN a != 0

/-- The level of source k of die d (Table 19.4); a reserved k is 0. -/
def State.sourceLevel (s : State) (d k : Nat) : Bool :=
  let a := onDie d
  let course : Bool := 2 ≤ d && d < 6
  if !present s.part d then false
  else if k < 0x20 then s.meets DMA_EVT DMA_IEN (place d k)
  else if k < 0x30 && course then s.macSource (.port (Fin.ofNat 64 (16 * (d - 2) + k % 16)))
  else if k = 0x20 && d = 0 then s.macSource .mgt
  else if 0x40 ≤ k && k < 0x59 then
    (linkLow (k - 0x40) == d || linkHigh (k - 0x40) == d) && Tab.get s.lanes.down false (k - 0x40)
  else if 0x60 ≤ k && k < 0x6A then d < 2 && s.chanSource d k
  else if 0x70 ≤ k && k < 0x74 then
    d == 0 && bits (s.rd PWR_PS_STAT (d0i (k - 0x70)) &&& s.rd PWR_PS_IEN (d0i (k - 0x70))) 7 2 != 0
  else if 0x78 ≤ k && k < 0x80 then d == 0 && s.get PWR_RET_LOST_V (d0i (k - 0x78)) != 0
  else if k = 0x80 then d == 0 && s.meets BOND_EVT BOND_IEN a
  else if k = 0x81 then d < 6 && s.is LKP_GEN_STAT_DRAIN_EVT a
  else if k = 0x82 then d < 6 && s.meets CIPH_EVT CIPH_IEN a
  else if k = 0x83 then s.meets RSV_EVT RSV_IEN a
  else if k = 0x84 then d < 6 && s.meets MEM_EVT MEM_IEN a
  else if k = 0x85 then
    (List.range (pmcUnits d)).any (fun u => s.get PMC_OVF_V (place d u) &&& s.get PMC_CTL_OVF_IEN (place d u) != 0)
  else if k = 0x86 then course && s.is PMC_BW_STAT_CLOSED a
  else if k = 0x87 then bits (s.rd SENS_EVT a &&& s.rd SENS_IEN a) 15 0 != 0
  else if k = 0x88 then d < 2 && s.is LANE_OPT_I2C_STAT_DONE a && s.isEff LANE_OPT_I2C_CFG_IEN a
  else if k = 0x89 then course && s.is MAC_CAGE_I2C_STAT_DONE a && s.isEff MAC_CAGE_I2C_CFG_IEN a
  else if k = 0x8A then course && s.get MAC_MDIO_STAT_DONE a &&& s.getEff MAC_MDIO_IEN_V a != 0
  else if k = 0x90 then d == 0 && s.is HW_OPMODE_CHANGED a
  else if k = 0x91 then d == 0 && s.is HW_SEC_EVT_ZEROISED a && s.is HW_SEC_IEN_EN a
  else if k = 0x92 then d == 0 && s.is PWR_THERM_STAT_CRIT a
  else if k = 0x93 then d == 0 && s.uartSource
  else if k = 0x94 then d == 0 && s.meets CTL_GPIO_EVT CTL_GPIO_IEN a
  else false

/-! ## The interrupt controller (R576 to R579) -/

/-- The better of two deliverable sources (R577): the higher priority, then the lower number. -/
def betterIrq (a b : Nat × Nat) : Nat × Nat :=
  if a.1 < b.1 || (a.1 == b.1 && b.2 < a.2) then b else a

/-- The timer of core n is pending (R579): TMR counts ac modulo 2^64. -/
def State.timerPending (s : State) (n : Nat) : Bool := decide ((s.core n).cmp.toNat ≤ s.clk.ac % 2 ^ 64)

/-- The pending sources that target core n at level x (0 supervisor, 1 monitor), as priority and number (R576); the two
local sources are supervisor sources whose numbers the manual does not give (R579, log 40). -/
def State.pendingIrqs (s : State) (n x : Nat) : List (Nat × Nat) :=
  let src := s.regs.filterMap fun e =>
    let k := e.1 % 2 ^ 24
    let w := e.2
    if e.1 / 2 ^ 28 == IRQ_SRC_CFG && bits w 31 31 == 1 && bits w 23 20 != 0 && bits w 3 0 == n && bits w 30 30 == x &&
       s.is IRQ_SRC_STAT_LEVEL (d0i k) then some (bits w 23 20, k)
    else none
  if x = 1 then src
  else src ++ (if s.timerPending n then [(15, Config.localIrq 0)] else []) ++
    (if bitOf (s.get IRQ_SGI_V d0) n then [(14, Config.localIrq 1)] else [])

/-- The deliverable source of highest priority (R576, R577). -/
def State.deliverable (s : State) (n x : Nat) : Option (Nat × Nat) :=
  if !coreExists s.part n then none
  else
    let run := s.get IRQ_RUNPRI_V (d0i (n * 2 + x))
    match (s.pendingIrqs n x).filter (fun p => run < p.1) with
    | [] => none
    | p :: t => some (t.foldl betterIrq p)

/-- An interrupt that is deliverable to a core whose die does not run wakes the die with source IRQ (R667). -/
def State.irqWake (s : State) (n : Nat) : State :=
  if (s.deliverable n 0).isSome || (s.deliverable n 1).isSome then s.wakeReq (coreDie n) 7 n else s

/-- IRQ_LEVEL_CHANGE (R578, R667): source n's level reaches the controller. A die in SLEEP or DEEP is woken first, and its message
follows once it runs (`State.sendLevels`). -/
def execIrqLevelChange (n : Fin 2048) (s : State) : Out := s.event fun s =>
  let d := n.val / 256
  let core := s.get IRQ_SRC_CFG_CORE (d0i n.val)
  if 2 ≤ s.powerState d && s.powerState d ≤ 3 then
    ({ s with pwr := { s.pwr with levels := n.val :: s.pwr.levels.erase n.val } }).wakeReq d 7 core
  else match s.route d 0 with
  | .clear _ => (s.sendPosted d (.level n (s.sourceLevel d (n.val % 256)))).irqWake core
  | .absent | .firstDown _ | .secondDown _ _ | .asleep _ => s.sendPosted d (.level n (s.sourceLevel d (n.val % 256)))

/-- The messages that waited for die d go (R667), each with its source's level by then. -/
def State.sendLevels (s : State) (d : Nat) : State :=
  (s.pwr.levels.filter (· / 256 == d)).foldl (fun (s : State) n =>
      (s.sendPosted d (.level (Fin.ofNat 2048 n) (s.sourceLevel d (n % 256)))).irqWake (s.get IRQ_SRC_CFG_CORE (d0i n)))
    { s with pwr := { s.pwr with levels := s.pwr.levels.filter (· / 256 != d) } }

/-- IRQ_CLAIM (R577); the word of a core that the part does not have reads 0 (R740). -/
def execIrqClaim (r : Requester) (core : Fin 12) (x : Fin 2) (s : State) : Out := s.island 0 6 fun s =>
  let i := core.val * 2 + x.val
  if !coreExists s.part core.val then s.answer (reqCode r) {}
  else match s.deliverable core.val x.val with
  | none => s.answer (reqCode r) { data := 0xFFF }
  | some (p, n) =>
    let s := { s with ctl := { s.ctl with
      runStack := Tab.mod s.ctl.runStack [] i (fun l => s.get IRQ_RUNPRI_V (d0i i) :: l) } }
    (s.put IRQ_RUNPRI_V (d0i i) p).answer (reqCode r) { data := BitVec.ofNat 64 (n % 4096) }

/-- IRQ_EOI (R577, R740): an empty stack gives nothing to pop. -/
def execIrqEoi (core : Fin 12) (x : Fin 2) (_v : Word) (s : State) : Out := s.event fun s =>
  let i := core.val * 2 + x.val
  match (if coreExists s.part core.val then Tab.get s.ctl.runStack [] i else []) with
  | [] => s
  | p :: t => { s with ctl := { s.ctl with runStack := Tab.set s.ctl.runStack [] i t } }.put IRQ_RUNPRI_V (d0i i) p

/-- SGI_SET (R579). -/
def execSgiSet (v : Word) (s : State) : Out := s.event fun s =>
  let s := s.put IRQ_SGI_V d0 (s.get IRQ_SGI_V d0 ||| bits v 11 0)
  (bitList 12 (bits v 11 0)).foldl State.irqWake s

/-- TIMER_INTERRUPT (R579, R667): the timer source, pending while TMR ≥ TMR_CMP, is deliverable where nothing of its priority runs, and
wakes the core's die. -/
def execTimerInterrupt (core : Fin 12) (s : State) : Out := s.island (coreDie core.val) 4 fun s =>
  if coreExists s.part core.val && s.timerPending core.val then s.irqWake core.val else s

/-! ## L2 and core release (R555, R566) -/

/-- L2_CFG_WRITE (R555). -/
def execL2CfgWrite (n : LineDie) (v : Word) (s : State) : Out := s.event fun s =>
  let a := onDie n.val
  let en := s.is CTL_L2_CFG_EN a
  let ways := s.get CTL_L2_CFG_SRAM_WAYS a
  let s := s.fwWrite CTL_L2_CFG a v
  let s := if en && bits v 4 0 != ways then (s.put CTL_L2_CFG_SRAM_WAYS a ways).put CTL_L2_CFG_REJ a 1 else s
  if en == s.is CTL_L2_CFG_EN a && ways == s.get CTL_L2_CFG_SRAM_WAYS a then s else s.dropCache n.val

/-- A core leaves reset at monitor level, at the address in RESET_VEC of its line die (R566). RESET_VEC holds a die offset
less its two low bits, which are 0 (log 41). -/
def State.releaseCore (s : State) (n : Nat) : State :=
  let d := coreDie n
  s.setCore n { s.core n with
    run := true, level := .monitor, pc := BitVec.ofNat 64 (d * 2 ^ 36 + (s.rd CTL_RESET_VEC (onDie d)).toNat * 4) }

/-- CORE_RUN (R566): a monitor-only write on line die 1; its cores start at its RESET_VEC. -/
def execCoreRun (lv : Level) (v : Word) (s : State) : Out := s.event fun s =>
  if lv != .monitor || s.part != .zg6480 then s
  else
    let s := s.fwWrite CTL_CORE_RUN (onDie 1) v
    if !s.is CTL_CORE_RUN_V (onDie 1) then s
    else [8, 9, 10, 11].foldl (fun (s : State) n =>
      if (s.core n).run then s else s.releaseCore n) s

/-! ## The UART (R587 to R589) -/

/-- UART_STAT follows the FIFOs and the shift register (Table 13.12). -/
def State.showUart (s : State) : State :=
  let u := s.ctl.uart
  ((s.put CTL_UART_STAT_TX_LEVEL d0 u.tx.length).put CTL_UART_STAT_RX_LEVEL d0 u.rx.length).put CTL_UART_STAT_TX_IDLE d0
    (b2n (u.tx.isEmpty && u.shift.isNone))

/-- Replace the UART's state. -/
def State.setUart (s : State) (u : Uart) : State := { s with ctl := { s.ctl with uart := u } }.showUart

/-- A write of UART_CFG (R587, R592): EN = 0 empties both FIFOs and holds UART_TX high. -/
def State.uartCfg (s : State) (v : Word) : State :=
  let s := s.fwWrite CTL_UART_CFG d0 v
  if s.is CTL_UART_CFG_EN d0 then s
  else s.setUart { s.ctl.uart with tx := [], rx := [], shift := none, rxDiv := s.get CTL_UART_CFG_DIV d0 }

/-- UART_RX_BYTE (R587, R588, R592): the frame ends, and the next one takes DIV as it stands then (log 112). -/
def execUartRxByte (b : Byte) (stop : Bool) (s : State) : Out := s.acEvent fun s =>
  let s := { s with ctl := { s.ctl with uart := { s.ctl.uart with rxDiv := s.get CTL_UART_CFG_DIV d0 } } }
  let u := s.ctl.uart
  if !s.is CTL_UART_CFG_EN d0 then s
  else if !stop then s.put CTL_UART_STAT_FERR d0 1
  else if 64 ≤ u.rx.length then s.put CTL_UART_STAT_OVF d0 1
  else s.setUart { u with rx := u.rx ++ [b] }

/-- UART_TX_BYTE (R587, R592): the frame in the shift register ends, ten bit times after it began, and the next byte of the FIFO begins
a frame with DIV as it stands. -/
def execUartTxByte (s : State) : Out := s.acEvent fun s =>
  let u := s.ctl.uart
  if !s.is CTL_UART_CFG_EN d0 || (u.shift.isSome && decide (s.clk.ac < u.txFrom + 10 * u.txDiv)) then s
  else
    let sent := if u.shift.isSome then u.shift else u.sent
    s.setUart { u with sent := sent, shift := u.tx.head?, tx := u.tx.tail, txDiv := s.get CTL_UART_CFG_DIV d0, txFrom := s.clk.ac }

/-- UART_RX_READ (R588). -/
def execUartRxRead (r : Requester) (s : State) : Out := s.acEvent fun s =>
  let u := s.ctl.uart
  match u.rx with
  | [] => s.answer (reqCode r) {}
  | b :: t => (s.setUart { u with rx := t }).answer (reqCode r) { data := 0x100#64 ||| b.setWidth 64 }

/-- UART_TX_WRITE (R588): while EN is 0 the FIFO is held empty. -/
def execUartTxWrite (v : Word) (s : State) : Out := s.acEvent fun s =>
  let u := s.ctl.uart
  if !s.is CTL_UART_CFG_EN d0 then s
  else if 64 ≤ u.tx.length then s.put CTL_UART_STAT_TX_DROP d0 1
  else s.setUart { u with tx := u.tx ++ [v.setWidth 8] }

/-! ## GPIO (R590, R591) -/

/-- GPIO_IN follows the balls, outputs included, and its changes set GPIO_EVT where enabled (R590, R591), but in OFF. -/
def State.gpioSense (s : State) : State :=
  if s.hw.off then s
  else
  let dir := s.rd CTL_GPIO_DIR d0
  let old := s.rd CTL_GPIO_IN d0
  let new := (s.rd CTL_GPIO_OUT d0 &&& dir) ||| (s.ctl.gpioPins &&& ~~~dir)
  let evt := (new &&& ~~~old &&& s.rd CTL_GPIO_RISE d0) ||| (old &&& ~~~new &&& s.rd CTL_GPIO_FALL d0)
  (s.wr CTL_GPIO_IN d0 new).wr CTL_GPIO_EVT d0 (s.rd CTL_GPIO_EVT d0 ||| evt)

/-- GPIO_SET (R590). -/
def execGpioSet (v : Word) (s : State) : Out := s.acEvent fun s =>
  (s.wr CTL_GPIO_OUT d0 (s.rd CTL_GPIO_OUT d0 ||| v)).gpioSense

/-- GPIO_CLR (R590). -/
def execGpioClr (v : Word) (s : State) : Out := s.acEvent fun s =>
  (s.wr CTL_GPIO_OUT d0 (s.rd CTL_GPIO_OUT d0 &&& ~~~v)).gpioSense

/-- GPIO_INPUT_EDGE (R591): the level that drives ball i from outside changes; an output's ball keeps what it drives. -/
def execGpioInputEdge (i : Fin 32) (high : Bool) (s : State) : Out := s.acEvent fun s =>
  { s with ctl := { s.ctl with
      gpioPins := BitVec.ofNat 32 (putBit s.ctl.gpioPins.toNat i.val high) } }.gpioSense

/-! ## Semaphores (R594) -/

/-- SEMAPHORE_READ (R594). -/
def execSemaphoreRead (core : Fin 12) (i : Fin 32) (s : State) : Out := s.event fun s =>
  let a := d0i i.val
  if s.is CTL_SEM_HELD a then
    s.answer core.val { data := (setBits (s.rd CTL_SEM a) 31 31 0).setWidth 64 }
  else
    let w : Word := setBits (setBits 0 30 30 1) 3 0 core.val
    (s.wr CTL_SEM a w).answer core.val { data := (setBits w 31 31 1).setWidth 64 }

/-- SEMAPHORE_WRITE (R594). -/
def execSemaphoreWrite (core : Fin 12) (i : Fin 32) (_v : Word) (s : State) : Out := s.event fun s =>
  let a := d0i i.val
  if s.is CTL_SEM_HELD a && s.get CTL_SEM_OWNER a == core.val then s.wr CTL_SEM a 0 else s

end Sys2Proof.Machine
end

