-- ==== Sys2Proof/Machine/Kiln.lean ====
section
/-!
DEFINITION. The kiln, zeroisation and the debug gate (15_headwater_and_security.md, R644 to R656).
-/
namespace Sys2Proof.Machine
open Reg

/-- Change the headwater's state. -/
def State.setHw (s : State) (f : Hw → Hw) : State := { s with hw := f s.hw }
/-- Change the debug gate's state. -/
def State.setDbg (s : State) (f : Debug → Debug) : State := s.setHw fun h => { h with dbg := f h.dbg }

/-- The words of a register array from its first element. -/
def State.words (s : State) (reg n : Nat) : List Word := (List.range n).map (fun i => s.rd reg (d0i i))
/-- Write the words of a register array of line die 0 from element i. -/
def State.putWords (s : State) (reg : Nat) : Nat → List Word → State
  | _, [] => s
  | i, w :: t => (s.wr reg (d0i i) w).putWords reg (i + 1) t
/-- The words of some bytes, byte 0 in [7:0] of the first (R761). -/
def wordsOfBytes (n : Nat) (l : List Byte) : List Word :=
  (List.range n).map (fun i => BitVec.ofNat 32 (leNat (slice l (4 * i) 4)))
/-- The bytes of some words (R761). -/
def bytesOfWords (l : List Word) : List Byte := l.flatMap (fun w => leBytes 4 w.toNat)

/-! ## The kiln (R644 to R648) -/

/-- A purpose and a key length as a blob codes them (R645). -/
def blobHeader (purpose : Nat) (long : Bool) : List Byte := [BitVec.ofNat 8 purpose, if long then 0x20 else 0x10]

/-- A key of 128 bits lies in the high half of the key field, followed by 16 zero bytes (R645). -/
def keyField (long : Bool) (k : BitVec 256) : BitVec 256 := if long then k else (k >>> 128) <<< 128

/-- The blob key of a purpose, length and DIV (R644): label KWRP. -/
def Fuses.blobKey (f : Fuses) (purpose : Nat) (long : Bool) (div : List Byte) : BitVec 256 :=
  f.derive [0x4B, 0x57, 0x52, 0x50] (f.lcByte :: blobHeader purpose long ++ div)

/-- The blob of a key (R645). -/
def Fuses.blob (f : Fuses) (purpose : Nat) (long : Bool) (div : List Byte) (k : BitVec 256) : List Byte :=
  [0x01] ++ blobHeader purpose long ++ [f.lcByte] ++ div ++ slice (Config.keyWrap (f.blobKey purpose long div) k) 0 40

/-- A key is held ready, with its purpose and length (Table 15.10). -/
def State.holdReady (s : State) (purpose : Nat) (long : Bool) (k : BitVec 256) : State :=
  let s := s.setHw fun h => { h with ready := some (keyField long k) }
  ((s.put KILN_STAT_READY d0 1).put KILN_STAT_R_PURPOSE d0 purpose).put KILN_STAT_R_KLEN d0 (b2n long)

/-- No key is ready. -/
def State.dropReady (s : State) : State := (s.setHw fun h => { h with ready := none }).put KILN_STAT_READY d0 0

/-- A write of KILN.CMD with GO and an OP (R623, R646, R651). -/
def State.kilnGo (s : State) (lv : Level) (op : Nat) (v : Word) : State :=
  if lv != .monitor then s
  else
    let s := s.fwWrite KILN_CMD d0 (setBits (setBits v 31 31 1) 30 28 op)
    if s.hw.zeroising then s.put KILN_STAT_ERR d0 4
    else if s.hw.kiln.isSome then s.put KILN_STAT_ERR d0 6
    else (s.setHw fun h =>
      { h with kiln := some (op, s.get KILN_CMD_PURPOSE d0, s.is KILN_CMD_KLEN d0) }).put KILN_STAT_BUSY d0 1

/-- KILN_GENERATE (R646). -/
def execKilnGenerate (lv : Level) (v : Word) (s : State) : Out := s.event fun s => s.kilnGo lv 0 v
/-- KILN_WRAP (R646). -/
def execKilnWrap (lv : Level) (v : Word) (s : State) : Out := s.event fun s => s.kilnGo lv 1 v
/-- KILN_UNWRAP (R646). -/
def execKilnUnwrap (lv : Level) (v : Word) (s : State) : Out := s.event fun s => s.kilnGo lv 2 v
/-- KILN_DERIVE (R646). -/
def execKilnDerive (lv : Level) (v : Word) (s : State) : Out := s.event fun s => s.kilnGo lv 3 v
/-- KILN_CLEAR (R646). -/
def execKilnClear (lv : Level) (v : Word) (s : State) : Out := s.event fun s => s.kilnGo lv 4 v

/-- The fields of a kiln command are valid (Table 15.10, R646): a purpose, no 256-bit PON key, and DERIVE for LA only. -/
def kilnFieldsOk (op purpose : Nat) (long : Bool) : Bool :=
  1 ≤ purpose && !(purpose == 1 && long) && (op != 3 || purpose == 3)

/-- UNWRAP of the blob held in BLOB (R645, R646): the key, or ERR. The blob's PURPOSE and KLEN must be those of the command
(DEDUCED, log 42). -/
def State.kilnUnwrap (s : State) (purpose : Nat) (long : Bool) : BitVec 256 ⊕ Nat :=
  let b := bytesOfWords (s.words KILN_BLOB 12)
  if slice b 0 1 != [0x01] || slice b 1 2 != blobHeader purpose long then .inr 3
  else match Config.keyUnwrap (s.hw.fuses.blobKey purpose long (slice b 4 4)) (slice b 8 40) with
    | none => .inr 1
    | some k => if keyField long k != k then .inr 3 else .inl k

/-- After an UNWRAP that fails no key is ready (R646). -/
def State.unwrapFails (s : State) (op : Nat) : State := if op = 2 then s.dropReady else s

/-- A command's effect on its completion (R646): in BLANK and SCRAPPED every command but CLEAR fails. -/
def State.kilnDo (s : State) (op purpose : Nat) (long : Bool) : State :=
  let lc := s.hw.fuses.lifecycle
  let div := leBytes 4 (s.rd KILN_DIV d0).toNat
  let s := s.put KILN_STAT_ERR d0 0
  if op = 4 then s.dropReady
  else if lc = 0 || lc = 3 then (s.unwrapFails op).put KILN_STAT_ERR d0 2
  else if !kilnFieldsOk op purpose long then (s.unwrapFails op).put KILN_STAT_ERR d0 3
  else if op = 0 then
    let (r, s) := s.draw Config.drbg
    let k := keyField long (BitVec.ofNat 256 r)
    (s.putWords KILN_BLOB 0 (wordsOfBytes 12 (s.hw.fuses.blob purpose long div k))).holdReady purpose long k
  else if op = 1 then
    let k := keyField long (BitVec.ofNat 256 ((s.words KILN_KEYIN 8).foldl (fun a w => a * 2 ^ 32 + w.toNat) 0))
    let s := s.putWords KILN_KEYIN 0 (List.replicate 8 0)
    (s.putWords KILN_BLOB 0 (wordsOfBytes 12 (s.hw.fuses.blob purpose long div k))).holdReady purpose long k
  else if op = 2 then
    match s.kilnUnwrap purpose long with
    | .inl k => s.holdReady purpose long k
    | .inr e => s.dropReady.put KILN_STAT_ERR d0 e
  else s.holdReady purpose long (s.hw.fuses.derive [0x4B, 0x44, 0x52, 0x56] (s.hw.fuses.lcByte :: div))

/-- KILN_COMMAND_DONE (R646): 512 ac after the GO. -/
def execKilnCommandDone (s : State) : Out := s.acEvent fun s =>
  match s.hw.kiln with
  | none => s
  | some (op, purpose, long) =>
    let s := (s.setHw fun h => { h with kiln := none }).put KILN_STAT_BUSY d0 0
    if s.hw.zeroising then (s.unwrapFails op).put KILN_STAT_ERR d0 4 else s.kilnDo op purpose long

/-- The ready key, BLOB and KEYIN are zeroed (Z2 of Table 15.9). -/
def State.zeroKeys (s : State) : State :=
  (s.dropReady.putWords KILN_BLOB 0 (List.replicate 12 0)).putWords KILN_KEYIN 0 (List.replicate 8 0)

/-- Every volatile kiln register is zeroed: those of Z2, DIV, and a command under way (R648). -/
def State.zeroKiln (s : State) : State :=
  let s := (s.setHw fun h => { h with kiln := none }).zeroKeys.put KILN_STAT_BUSY d0 0
  ((s.put KILN_STAT_R_PURPOSE d0 0).put KILN_STAT_R_KLEN d0 0).wr KILN_DIV d0 0

/-- KILN_PARITY_ERROR (R648). -/
def execKilnParityError (s : State) : Out := s.acEvent fun s => s.zeroKiln.put KILN_STAT_ERR d0 5

/-! ## Zeroisation (Table 15.9) -/

/-- Z2: the kiln's keys and the staging registers of every die are zeroed. The DRBG's next draws are free values anyway. -/
def State.z2 (s : State) : State :=
  (List.range 6).foldl (fun (s : State) d => if present s.part d then s.clearStage d else s) s.zeroKeys

/-- The slots of every pool of every present die, in the order of their keys. -/
def allSlots (p : Part) : List Nat :=
  (List.range 6).flatMap (fun d => if !present p d then [] else
    [0, 1, 2].flatMap (fun pool => (List.range (poolSize d pool)).map (slotKey d pool)))

/-- Z3: every key slot is erased (R491); held writes are cancelled. The operations that held a slot take their outcome at
thaw (R655). -/
def State.z3 (s : State) : State :=
  let slots := (allSlots s.part).filterMap (fun k =>
    let x : KeySlot := { serial := (s.slotAt k).serial + 1 }
    if x = {} then none else some (k, x))
  let s := { s with ciph := { s.ciph with slots := slots, held := [] } }
  let s := (List.range 6).foldl (fun (s : State) d =>
    ((s.put KSLOT_STAT_BUSY (onDie d) 0).put KSLOT_STAT_HELD (onDie d) 0).reshowSerial d) s
  s.put HW_SEC_EVT_ZEROISED d0 1

/-- A suspended job once the suspend store is zeroed: what is left names the descriptor that R655 ends. -/
def LaBulk.zeroed (j : LaBulk) : LaBulk :=
  { j with iv := List.replicate j.iv.length 0, start := { op := 0, slot := 0, serial := 0, aad := 0, text := 0, counter := 0, acc := 0, iv := 0 } }

/-- Z4: key expansions, round states, contexts and the suspend store are zeroed; no context stays valid. -/
def State.z4 (s : State) : State :=
  let s := { s with ciph := { s.ciph with ctx := [], bulk := s.ciph.bulk.map (fun (e : Nat × Option LaBulk) => (e.1, e.2.map LaBulk.zeroed)) } }
  (s.put CIPH_LA_CTX_STAT_V (onDie 0) 0).put CIPH_LA_CTX_STAT_V (onDie 1) 0

/-- The PON slots whose keys the work of channel c has taken. -/
def State.slotsTaken (s : State) (c : Nat) : List Nat :=
  ((s.cryptsNow c).filterMap (·.slot) ++ (s.ciph.mics.filter (fun u => u.chan == c)).map (·.key.slot) ++
    (s.conv c).reasm.filterMap (fun r => r.key.map (·.slot)) ++
    (Tab.get s.ciph.omci [] c).filterMap (fun m => m.key.map (·.slot))).eraseDups

/-- The operations that held a slot that was erased take the erased-slot outcome of Table 11.4 (R655). -/
def State.erasedOutcomes (s : State) : State :=
  let s := (List.range 64).foldl (fun (s : State) p =>
    match (s.mac p).sending with
    | some f => (match f.slot with
      | some (i, _) => if (s.slotAt (slotKey (portDie p) poolMs i)).valid then s else s.cutFrame p
      | none => s)
    | none => s) s
  let s := [0, 1].foldl (fun (s : State) d => (s.slotsTaken (2 * d) ++ s.slotsTaken (2 * d + 1)).foldl (fun (s : State) i =>
    if (s.slotAt (slotKey d poolPon i)).valid then s else s.cutPon d i) s) s
  [0, 1].foldl (fun (s : State) n =>
    match Tab.get s.ciph.bulk none n with
    | some j => if (s.slotAt (slotKey n poolLa j.slot)).valid then s else s.laAbort n j.slot
    | none => s) s

/-- Z5: the L1 data caches and store buffers read zero. -/
def State.z5 (s : State) : State := s.zeroL1

/-- The first address and the size of secret region k (R655). -/
def State.secretRegion (s : State) (k : Nat) : Nat × Nat :=
  (s.get HW_SRGN_BASE_V (d0i k) * 4096, s.get HW_SRGN_CTL_PAGES (d0i k) * 4096)

/-- A secret region lies wholly inside the TCM or the L2 SRAM of a line die (R656). -/
def State.secretOk (s : State) (a n : Nat) : Bool :=
  let d := a / 2 ^ 36
  let o := a % 2 ^ 36
  d < 2 && present s.part d && n != 0 && (s.region d o == .tcm || s.region d o == .l2) &&
    s.region d (o + n - 1) == s.region d o

/-- Z6: each enabled secret region is zeroed in increasing k; one that does not lie as R656 asks is skipped. -/
def State.z6 (s : State) : State :=
  (List.range 8).foldl (fun (s : State) k =>
    if !s.is HW_SRGN_CTL_EN (d0i k) then s
    else
      let (a, n) := s.secretRegion k
      if s.secretOk a n then { s with mem := s.mem.filter (fun e => !(a ≤ e.1 && e.1 < a + n)) }
      else s.put HW_SEC_EVT_SRGN_BAD d0 1) s

/-! ## The debug gate (R649 to R654) -/

/-- The challenge of a request (R649): its 64 bytes, multi-byte fields least significant byte first (log 44). -/
def State.challenge (s : State) (level nonce : Nat) : List Byte :=
  [0x5A, 0x47, 0x44, 0x43] ++ leBytes 4 (s.rd HW_ID d0).toNat ++ leBytes 8 Config.uid.toNat ++
  [s.hw.fuses.lcByte, BitVec.ofNat 8 level, BitVec.ofNat 8 s.hw.dbg.fails, BitVec.ofNat 8 (s.get FRZ_STATUS_FREEZE_CNT d0)] ++
  List.replicate 12 0 ++ leBytes 32 nonce

/-- The sequence starts: at Z1 for OPEN, at Z2 for OBSERVE (Table 15.9). -/
def Debug.start (g : Debug) (level : Nat) : Debug :=
  { g with chal := none, checking := none, seq := some (if level = 2 then 1 else 2, level), fuseFail := false, zeroFail := false }

/-- DBG_REQ (R649, R650): a new request discards any outstanding challenge, and one that is accepted the response being checked. -/
def execDbgReq (level : Fin 4) (s : State) : Out := s.acEvent fun s =>
  let l := level.val
  let g := s.hw.dbg
  let lc := s.hw.fuses.lifecycle
  if !(s.is FRZ_STATUS_FROZEN d0 && !g.locked && g.seq.isNone && (l = 1 || l = 2) && g.level < l) then
    s.setDbg fun g => { g with result := 6, chal := none }
  else if lc = 0 || lc = 3 then s.setDbg fun g => ({ g with result := 0 }.start l)
  else
    let (r, s) := s.draw Config.drbg
    s.setDbg fun g => { g with result := 0, checking := none, chal := some (l, s.challenge l r) }

/-- DBG_RESP (R650): the check of an answer to the outstanding challenge starts. -/
def execDbgResp (resp : List Byte) (s : State) : Out := s.acEvent fun s =>
  match s.hw.dbg.chal with
  | none => s
  | some (l, c) =>
    if s.hw.dbg.seq.isSome then s else s.setDbg fun g => { g with chal := none, checking := some (l, c, slice resp 0 192) }

/-- A response passes (R650): its key is one the level allows and its signature verifies over the challenge. -/
def Fuses.authentic (f : Fuses) (level : Nat) (chal resp : List Byte) : Bool :=
  let pub := slice resp 0 96
  let h := wordsOfBytes 12 (Config.sha384 pub)
  let isKey (i : Nat) : Bool := Tab.get f.dbgKeys [] i == h
  (isKey 1 || (level == 1 && isKey 0)) && Config.ecdsa pub (Config.sha384 chal) (slice resp 96 96)

/-- DBG_AUTH_DONE (R650, R651). -/
def execDbgAuthDone (s : State) : Out := s.acEvent fun s =>
  match s.hw.dbg.checking with
  | none => s
  | some (l, c, r) =>
    if s.hw.fuses.authentic l c r then s.setDbg fun g => g.start l
    else s.setDbg fun g =>
      let n := g.fails + 1
      { g with checking := none, fails := n, locked := g.locked || decide (8 ≤ n), result := 2 }

/-- LC_STAT shows what the fuses read (R638, R640). -/
def State.showFuses (s : State) : State :=
  let f := s.hw.fuses
  let keys := b2n (Tab.get f.dbgKeys [] 0 != []) + 2 * b2n (Tab.get f.dbgKeys [] 1 != [])
  ((s.put HW_LC_STAT_LC d0 f.lifecycle).put HW_LC_STAT_ROLLBACK d0 f.rollback |>.put HW_LC_STAT_REVOKED d0 f.revoked).put
    HW_LC_STAT_DBGK d0 keys

/-- A bit of the lifecycle is burnt: its three fuses (R639). -/
def Fuses.burnBit (f : Fuses) (i : Nat) : Fuses := { f with lc := (List.range 3).map (fun j => if j = i then 3 else f.lc.getD j 0) }

/-- Z1: LC1 is burnt if LC is SECURE, and re-sensed (R639, R652). -/
def State.z1 (s : State) (ok : Bool) : State :=
  if s.hw.fuses.lifecycle != 1 then s
  else if ok then (s.setHw fun h => { h with fuses := h.fuses.burnBit 1 }).showFuses
  else s.setDbg fun g => { g with fuseFail := true }

/-- The effect of a step of Table 15.9. -/
def State.zStep (s : State) (k : Nat) (ok : Bool) : State :=
  match k with
  | 1 => s.z1 ok
  | 2 => s.z2
  | 3 => s.z3
  | 4 => s.z4
  | 5 => s.z5
  | 6 => s.z6
  | 7 => if ok then s else s.setDbg fun g => { g with zeroFail := true }
  | _ => s

/-- The step after step k at a level (Table 15.9): OBSERVE takes neither Z5 nor Z6. -/
def nextZ (k level : Nat) : Nat := if k = 4 && level != 2 then 7 else k + 1

/-- Z8 (R651, R652, R654): the level is granted, or refused with its cause. A grant of OPEN makes the mode INSPECT. -/
def State.grant (s : State) (level : Nat) : State :=
  let g := s.hw.dbg
  if g.fuseFail || g.zeroFail then
    s.setDbg fun g => { g with seq := none, result := if g.fuseFail then 3 else 4 }
  else
    let s := s.setDbg fun g => { g with seq := none, level := level, result := 1 }
    if level = 2 then (s.setHw fun h => { h with openGranted := true }).evalMode else s

/-- What a thaw that starts does to the gate (R649, R653, R654): the challenge outstanding, a check and a grant of OBSERVE end;
a zeroisation under way goes to level 0, at which no further step runs. -/
def Debug.thaw (g : Debug) : Debug :=
  { g with chal := none, checking := none, level := 0, seq := g.seq.map (fun x => (x.1, 0))
           result := if g.checking.isSome then 5 else g.result }

/-- ZEROISATION_STEP (R651 to R653): the step running ends and the next starts; after a thaw has started none follows. -/
def execZeroisationStep (ok : Bool) (s : State) : Out := s.burnEvent fun s =>
  match s.hw.dbg.seq with
  | none => s
  | some (k, l) =>
    let s := s.zStep k ok
    if l = 0 then s.setDbg fun g => { g with seq := none, result := 5 }
    else if k = 8 then s.grant l
    else s.setDbg fun g => { g with seq := some (nextZ k l, l) }

end Sys2Proof.Machine
end

