-- ==== Sys2Proof/Machine/Headwater.lean ====
section
/-!
DEFINITION. The headwater (15_headwater_and_security.md, R622 to R643): resets, rail sequencing, PMBus, adaptive voltage
scaling, fuses and secure boot.
-/
namespace Sys2Proof.Machine
open Reg

/-! ## Rail sequencing (R629 to R634) -/

/-- A rail belongs to a step (Table 15.2). -/
def State.railIn (s : State) (step r : Nat) : Bool := s.get PWR_RAIL_CFG_STEP (d0i r) == step

/-- A step has a rail. -/
def State.stepUsed (s : State) (j : Nat) : Bool := (List.range 24).any (s.railIn j)

/-- The next step from k that has a rail (R630): a step with none takes no time. -/
def State.nextStep (s : State) (k : Nat) : Option Nat := (List.range 15).find? (fun j => k ≤ j && s.stepUsed j)

/-- The step below k, going down, that has a rail (R631). -/
def State.stepBelow (s : State) (k : Nat) : Option Nat := (List.range k).reverse.find? s.stepUsed

/-- The rail-up step under way: while the table is not valid no rail is enabled (R634). -/
def State.railStepNow (s : State) : Option Nat :=
  if s.is PWR_SEQ_STAT_TABLE_VALID d0 then s.hw.railStep.bind s.nextStep else none

/-- How many steps have their enables driven active. -/
def State.railTop (s : State) : Nat :=
  if s.hw.railsUp then 15
  else match s.hw.railDown, s.railStepNow with
    | some x, _ => min x.step x.top
    | none, some j => j + 1
    | none, none => 0

/-- The enable output of rail r is active (R630, R631, Table 15.2). -/
def State.railEnable (s : State) (r : Nat) : Bool :=
  let k := s.get PWR_RAIL_CFG_STEP (d0i r)
  k != 15 && decide (k < s.railTop)

/-- The largest DLY of a step's rails, in ac: none, 100 µs, 1 ms or 10 ms (Table 15.2). -/
def State.stepDelay (s : State) (j : Nat) : Nat :=
  (List.range 24).foldl (fun m r =>
    if s.railIn j r then Nat.max m ([0, 2500, 25000, 250000].getD (s.get PWR_RAIL_CFG_DLY (d0i r)) 0) else m) 0

/-- PG_TMO of a rail, in ac: 1 ms, 5 ms, 20 ms or 100 ms. -/
def State.railTimeout (s : State) (r : Nat) : Nat :=
  [25000, 125000, 500000, 2500000].getD (s.get PWR_RAIL_CFG_PG_TMO (d0i r)) 0

/-- The fuses take 500 ac to sense (R625). -/
abbrev senseTime : Nat := 500

/-- Rail-up starts with step 0 (R630). -/
def State.railStart (s : State) : State :=
  s.setHw fun h => { h with railStep := some 0, railDown := none, sensing := false, pinHold := false, railAt := s.clk.ac, powerGood := 0 }

/-- Rail-down starts (R631) with the highest step that has a rail, unless it is under way. -/
def State.railDrop (s : State) : State :=
  if s.hw.railDown.isSome then s.setHw fun h => { h with railsUp := false, railStep := none, railAt := s.clk.ac }
  else
    let x : RailDown := { step := (s.stepBelow 15).getD 0, top := s.railTop }
    s.setHw fun h => { h with railsUp := false, railStep := none, railDown := some x, sensing := false, railAt := s.clk.ac, powerGood := 0 }

/-- Rail-down is complete (R625, R633, R683): in OFF and after a rail fault nothing more happens by itself; else the fuses are sensed. -/
def State.railsDown (s : State) : State :=
  s.setHw fun h => { h with railDown := none, railAt := s.clk.ac
                            sensing := !h.off && s.get HW_RST_CAUSE_CAUSE d0 != 2 ^ 5 }

/-- What an ac edge does to the sequencer (R624, R625, R631): a rail-down step whose delay has passed is followed by the next, and once
the fuses are sensed the cold start begins, or waits for RESET_N. -/
def State.railTick (s : State) : State :=
  match s.hw.railDown with
  | some x =>
    if s.clk.ac < s.hw.railAt + s.stepDelay x.step then s
    else match s.stepBelow x.step with
      | some j => s.setHw fun h => { h with railDown := some { x with step := j }, railAt := s.clk.ac }
      | none => s.railsDown
  | none =>
    if !s.hw.sensing || decide (s.clk.ac < s.hw.railAt + senseTime) then s
    else if s.hw.resetLow then s.setHw fun h => { h with sensing := false, pinHold := true }
    else s.railStart

/-- The part is in COLD and nothing of its sequencer runs but what waits (R624, R633). -/
def State.railsIdle (s : State) : Bool := !s.hw.railsUp && s.hw.railStep.isNone && s.hw.railDown.isNone && !s.hw.sensing

/-! ## Resets (R624 to R628) -/

/-- The bit of HW.RST_CAUSE of a cause (Table 15.1). -/
def ResetCause.bit : ResetCause → Nat
  | .powerOn => 0 | .pinWarm => 1 | .pinCold => 2 | .regWarm => 3 | .regCold => 4 | .railFault => 5 | .thermal => 6 | .offWake => 7

/-- A cause asks for a warm reset. -/
def ResetCause.warm : ResetCause → Bool
  | .pinWarm | .regWarm => true
  | _ => false

/-- Ask for a reset: a cold reset that is asked for starts at once, and no warm one takes its place (R624, R632). -/
def State.askReset (s : State) (c : ResetCause) : State := s.setHw fun h =>
  { h with req := if c.warm && h.req.any (fun r => !r.warm) then h.req else some c }

/-- What RESET_N asks for after a low level of `lowFor` ac, which has ended or goes on (R624, R627). -/
def State.resetPin (s : State) (high : Bool) (lowFor : Nat) : State :=
  if lowFor < 250 || s.hw.off then s
  else if lowFor < 25000 then (if high && !s.hw.openGranted && !s.hw.pinHold then s.askReset .pinWarm else s)
  else if s.hw.resetTaken then s
  else (s.askReset .pinCold).setHw fun h => { h with resetTaken := !high }

/-- RESET_N_CHANGE (R624, R627): a low level shorter than 250 ac is ignored, one shorter than 25,000 ac requests a warm
reset when it ends, and one that reaches 25,000 ac a cold reset. A cold start that waits for RESET_N begins once it is high (R625). -/
def execResetNChange (high : Bool) (lowFor : Nat) (s : State) : Out := s.acEvent fun s =>
  let s := (s.resetPin high lowFor).setHw fun h => { h with resetLow := !high, resetTaken := h.resetTaken && !high }
  if high && s.hw.pinHold && s.hw.req.isNone then s.railStart else s

/-- A write of HW.RST_CTL (R623, R625, R627): both bits set act as COLD; a warm request is ignored under OPEN. -/
def State.rstCtl (s : State) (lv : Level) (v : Word) : State :=
  if lv != .monitor then s
  else if bits v 1 1 = 1 then s.askReset .regCold
  else if bits v 0 0 = 1 && !s.hw.openGranted then s.askReset .regWarm
  else s

/-- RST_CTL_COLD (R625). -/
def execRstCtlCold (lv : Level) (v : Word) (s : State) : Out := s.event fun s => s.rstCtl lv v
/-- RST_CTL_WARM (R626, R627). -/
def execRstCtlWarm (lv : Level) (v : Word) (s : State) : Out := s.event fun s => s.rstCtl lv v

/-- The fuses are sensed (R625): the rail table and the lifecycle registers show them. -/
def State.senseFuses (s : State) : State :=
  let s := s.showFuses
  match s.hw.fuses.rails with
  | none => s
  | some l => (s.putWords PWR_RAIL_CFG 0 l).put PWR_SEQ_STAT_TABLE_VALID d0 1

/-- A hash is burnt over one: a burnt fuse stays burnt (log 46). -/
def burnHash (old new : List Word) : List Word :=
  if old = [] then new else (List.range 12).map (fun i => old.getD i 0 ||| new.getD i 0)

/-- Burning of a lifecycle bit is cut short: how many of its three fuses are burnt by then is a free value (R639). -/
def State.cutBit (s : State) (i : Nat) : State :=
  let (r, s) := s.draw Config.freeCut
  s.setHw fun h => { h with fuses := { h.fuses with lc := (List.range 3).map (fun j =>
    let n := h.fuses.lc.getD j 0
    if j = i then n + r % (4 - n) else n) } }

/-- Words of which a burn that was cut short has burnt some fuses: free values within what it was to burn. -/
def State.cutWords (s : State) (l : List Word) : List Word × State :=
  l.foldl (fun (a : List Word × State) w =>
    let (r, s) := a.2.draw Config.freeReserved
    (a.1 ++ [w &&& r], s)) ([], s)

/-- What a burn under way leaves when power or a cold reset ends it (R639, R653): a lifecycle bit reads whatever majority the
next sensing finds, and every other fuse of the operation may be burnt or not. -/
def State.burnCut (s : State) : State :=
  let s := if s.hw.dbg.seq.any (fun x => x.1 == 1) && s.hw.fuses.lifecycle == 1 then s.cutBit 1 else s
  match s.hw.burn with
  | none => s
  | some (op, arg) =>
    let (r, s) := s.draw Config.freeCut
    let upd (s : State) (f : Fuses → Fuses) : State := s.setHw fun h => { h with fuses := f h.fuses }
    match op with
    | 0 => (upd s fun f => { f with secret := f.secret ||| BitVec.ofNat 256 r }).cutBit 0
    | 1 => ((s.cutBit 0).cutBit 1).cutBit 2
    | 2 => upd s fun f => { f with rollback := f.rollback + r % (Nat.max f.rollback arg - f.rollback + 1) }
    | 3 => upd s fun f => { f with revoked := putBit f.revoked arg (f.revoked.testBit arg || r % 2 == 1) }
    | 4 =>
      let (l, s) := s.cutWords (s.words PWR_RAIL_STAGE 24)
      upd s fun f => { f with rails := if f.rails.isNone && r % 2 == 1 then some l else f.rails }
    | _ =>
      let (l, s) := s.cutWords (s.words HW_FUSE_DATA 12)
      if op = 5 then upd s fun f => { f with bootKeys := Tab.mod f.bootKeys [] arg (fun o => burnHash o l) }
      else upd s fun f => { f with dbgKeys := Tab.mod f.dbgKeys [] arg (fun o => burnHash o l) }

/-- The part after a cold reset for a cause (R14, R625, R628, R744): every register at its Reset value; what survives is the
part itself, the fuses, the levels on its pins, and the rail-fault record (R632, R633). Rail-down is under way, then the fuses are sensed and
the cold start begins (`State.railTick`); out of OFF, whose rails are down, it begins or waits for RESET_N at once (R684). -/
def State.coldStart (s : State) (c : ResetCause) : State :=
  let s := s.burnCut
  let out := s.hw.off
  let down : Option RailDown := if out then none
    else match s.hw.railDown with
      | some x => some x
      | none => if s.hw.sensing then none else some { step := (s.stepBelow 15).getD 0, top := s.railTop }
  let hw : Hw := { fuses := s.hw.fuses, faults := s.hw.faults, resetLow := s.hw.resetLow, resetTaken := s.hw.resetTaken
                   railDown := down, sensing := !out && down.isNone, pinHold := out && s.hw.resetLow
                   railStep := if out && !s.hw.resetLow then some 0 else none, tempCheck := s.hw.thermalOff }
  let n : State := { State.reset with
    part := s.part, pending := s.pending, fresh := s.fresh, hw := hw
    frz := { pinLow := s.frz.pinLow }, ctl := { gpioPins := s.ctl.gpioPins } }
  let n := n.senseFuses.gpioSense.put HW_RST_CAUSE_CAUSE d0 (2 ^ c.bit)
  match c, s.hw.fault with
  | .railFault, some (kind, rail) =>
    ((n.put PWR_FAULT_ATTEMPTS d0 s.hw.faults).put PWR_FAULT_KIND d0 kind).put PWR_FAULT_RAIL d0 rail
  | _, _ => n

/-- COLD_RESET (R625): the cold reset that was asked for, or the rising of the always-on rail. -/
def execColdReset (s : State) : Out :=
  if !s.hw.alive then .next (s.coldStart .powerOn)
  else match s.hw.req with
    | none => .next s
    | some c => .next (if c.warm then s else s.coldStart c)

/-- What a warm reset keeps of a register, as bit ranges: a status that the spec counts or holds since cold reset, what the
headwater and the package oscillators hold, and sensor readings (R14, R544, R626, log 45). -/
def warmKept (reg : Nat) : List (Nat × Nat) :=
  if [HW_OPMODE, CLK_SSC_POS, HW_LC_STAT, PWR_RAIL_CFG, PWR_SEQ_STAT, PWR_FAULT, SPAN_STATUS, MEM_QUEUE_RETIRED, MEM_STAT,
      RSV_CAPACITY, RSV_LOST_CELLS, SENS_TEMP, SENS_VOLT, SENS_MARGIN].contains reg then [(31, 0)]
  else if reg = FRZ_STATUS then [(7, 0)]
  else if reg = HW_FUSE_CMD then [(30, 30)]
  else if reg = CLK_STATUS then [(23, 16), (0, 0)]
  else if reg = DLINK_STATUS then [(15, 8)]
  else if reg = PFR_SYNC_STAT then [(23, 16)]
  else if reg = DMA_STAT then [(15, 0)]
  else if reg = HW_WAKE_SOURCE then [(31, 24)]
  else if reg = RSV_STAT then [(13, 8)]
  else if reg = MEM_SPMAP_CTL then [(25, 25)]
  else []

/-- The value of a register after a warm reset. -/
def warmWord (p : Part) (key : Nat) (w : Word) : Word :=
  (warmKept (key / 2 ^ 28)).foldl (fun a f => setBits a f.1 f.2 (bits w f.1 f.2)) (resetWord p key)

/-- Every receiver is off its data, so that each channel's lw is on the PON reference (R60, Table 2.3), and the time-master
channel with it (R76, R77). -/
def State.lwOnRef (s : State) : State :=
  ((s.put CLK_STATUS_LW_LOCKED d0 0).put CLK_STATUS_LW_ON_REF d0 (chanMask (chanExists s.part))).evalHoldover

/-- The registers outside the headwater that keep something in a warm reset, with their array sizes. -/
def keptOnDies : List (Nat × Nat) :=
  [(SPAN_STATUS, 13), (MEM_STAT, 1), (RSV_CAPACITY, 1), (RSV_LOST_CELLS, 1), (SENS_TEMP, 4),
   (SENS_VOLT, 4), (SENS_MARGIN, 1), (DLINK_STATUS, 25), (PFR_SYNC_STAT, 4), (DMA_STAT, 32), (RSV_STAT, 1),
   (MEM_SPMAP_CTL, 1)]

/-- What a reset finds in the registers that a part rotation of a chain disturbs (R108): free values. -/
def State.disturbKept (s : State) : State :=
  (List.range 8).foldl (fun (s : State) d =>
    keptOnDies.foldl (fun (s : State) r => (List.range r.2).foldl (fun (s : State) i =>
      if !hasReg s.part (regDesc r.1) d i || !s.disturbed d r.1 i then s
      else
        let (v, s) := s.draw Config.freeReserved
        let a := place d i
        s.wr r.1 a ((warmKept r.1).foldl (fun w f => setBits w f.1 f.2 (bits v f.1 f.2)) (s.rd r.1 a))) s) s) s

/-- The part after a warm reset for a cause (R626, R628): keys and kiln zeroised by Z2 to Z4, registers at their Reset values
but for what warmKept names, boot restarted; the tc edge count clears (R261), and the counts of closed bins go on (Table 4.9).
Memory, spare maps and retirements stay (R544). -/
def State.warmStart (s : State) (c : ResetCause) : State :=
  let s := s.z2.z3.z4.disturbKept
  let s := if s.hw.dbg.seq.any (fun x => x.1 == 1) && s.hw.fuses.lifecycle == 1 then (s.cutBit 1).showFuses else s
  let regs := s.regs.filterMap (fun e =>
    if warmWord s.part e.1 e.2 = resetWord s.part e.1 then none else some (e.1, warmWord s.part e.1 e.2))
  let hw : Hw := { fuses := s.hw.fuses, burn := s.hw.burn, faults := s.hw.faults, fault := s.hw.fault, railsUp := true, railStep := none
                   released := BitVec.ofNat 8 (presentMask s.part), railAt := s.hw.railAt, powerGood := s.hw.powerGood
                   resetLow := s.hw.resetLow, resetTaken := s.hw.resetTaken, tempCheck := s.hw.tempCheck
                   dbg := { locked := s.hw.dbg.locked, fails := s.hw.dbg.fails } }
  let guard := s.dram.guard.filterMap (fun e =>
    let g : Guard := { spares := e.2.spares, retired := e.2.retired, unrecorded := e.2.unrecorded }
    if g = {} then none else some (e.1, g))
  let pm := s.pon.pm.filterMap (fun e => if e.2.n15 = 0 && e.2.nDay = 0 then none else some (e.1, { n15 := e.2.n15, nDay := e.2.nDay }))
  let n : State := { State.reset with
    part := s.part, pending := s.pending, fresh := s.fresh, regs := regs, mem := s.mem, clk := { s.clk with tc := 0 }, hw := hw
    frz := { pinLow := s.frz.pinLow }, ctl := { gpioPins := s.ctl.gpioPins }, pon := { pm := pm }
    dram := { guard := guard, nextBuf := s.dram.nextBuf }, ciph := { slots := s.ciph.slots } }
  let n := (n.lwOnRef.put HW_SEC_EVT_ZEROISED d0 1).put CLK_STATUS_DIE_PLL d0 (presentMask s.part)
  ((n.put HW_RST_CAUSE_CAUSE d0 (2 ^ c.bit)).gpioSense).evalMode

/-- WARM_RESET (R626, R627): in COLD, where no die has left reset, the request begins the cold start anew (R633). -/
def execWarmReset (s : State) : Out := s.acEvent fun s =>
  match s.hw.req with
  | none => s
  | some c =>
    if !c.warm then s
    else if s.hw.openGranted then s.setHw fun h => { h with req := none }
    else if !s.hw.railsUp then
      (if s.railsIdle then s.railStart else s).setHw fun h => { h with req := none }
    else s.warmStart c

/-- ALWAYS_ON_POWER_LOSS (R721): the whole part loses power and state; the fuses and what drives the pins stay. -/
def execAlwaysOnPowerLoss (s : State) : Out :=
  let s := s.burnCut
  .next { State.reset with
    part := s.part, pending := s.pending, fresh := s.fresh
    hw := { alive := false, fuses := s.hw.fuses, railStep := none, resetLow := s.hw.resetLow }
    frz := { pinLow := s.frz.pinLow }, ctl := { gpioPins := s.ctl.gpioPins } }

/-! ## Rail-up and rail faults (R629 to R634) -/

/-- Rail-up is complete (R630, Table 1.13): line die 0 and every present die leave reset, their PLLs are locked, the mode
leaves COLD and the spread counter starts (R758). -/
def State.railsDone (s : State) : State :=
  let s := s.setHw fun h =>
    { h with railsUp := true, railStep := none, railAt := s.clk.ac, released := BitVec.ofNat 8 (presentMask s.part) }
  let s := (s.put CLK_STATUS_REF_LOCK d0 1).put CLK_STATUS_DIE_PLL d0 (presentMask s.part)
  s.lwOnRef.sscTurn.evalMode

/-- RAIL_POWER_GOOD (R629, R630, R634): the power-good inputs of the step under way have been high on 4 consecutive ac edges since its
enable edge, and its delay has passed. -/
def execRailPowerGood (s : State) : Out := s.acEvent fun s =>
  match s.railStepNow with
  | none => s
  | some k =>
    if s.hw.railsUp || s.hw.railDown.isSome || decide (s.clk.ac < s.hw.railAt + 4 + s.stepDelay k) then s
    else
      let good := (List.range 24).foldl (fun m r => if s.railIn k r then putBit m r true else m) s.hw.powerGood.toNat
      let s := s.setHw fun h => { h with powerGood := BitVec.ofNat 24 good }
      match s.nextStep (k + 1) with
      | some j => s.setHw fun h => { h with railStep := some j, railAt := s.clk.ac }
      | none => s.railsDone

/-- RAIL_FAULT (R629, R630, R632): a rail of the step under way has no power-good within its timeout of the enable edge, or a rail that is
up has been low on 4 consecutive ac edges. Rail-down begins; no die sleeps without its rails (R55). -/
def execRailFault (r : Fin 24) (lost : Bool) (s : State) : Out := s.acEvent fun s =>
  let may := if lost then s.hw.railsUp && s.hw.powerGood.getLsbD r.val && decide (s.hw.railAt + 4 ≤ s.clk.ac)
    else !s.hw.railsUp && s.railStepNow == some (s.get PWR_RAIL_CFG_STEP (d0i r.val)) && !s.hw.powerGood.getLsbD r.val &&
      decide (s.hw.railAt + s.railTimeout r.val ≤ s.clk.ac)
  if !(s.railEnable r.val && may) then s
  else
    let s := s.setHw fun h => { h with faults := h.faults + 1, fault := some (if lost then 2 else 1, r.val) }
    (s.railDrop.allRun.evalMode).askReset .railFault

/-- RAIL_FAULT_RETRY (R633): 25,000,000 ac after rail-down completes; after three consecutive faults the part stays in COLD. -/
def execRailFaultRetry (s : State) : Out := s.acEvent fun s =>
  if s.get HW_RST_CAUSE_CAUSE d0 = 2 ^ ResetCause.railFault.bit && s.railsIdle && !s.hw.off && s.hw.faults < 3 &&
     decide (s.hw.railAt + 25000000 ≤ s.clk.ac)
  then s.railStart
  else s

/-- Enter OFF (R683, R690): Z2 to Z4, every die in reset and rail-down (R631). What is left is what the headwater holds: its own
registers, the fuses, the reset and fault records, a burn under way, and the levels on the pins. A freeze and a debug grant end
with the domains they concern, so that the mode is COLD (R48, R55). -/
def State.enterOff (s : State) (thermal : Bool) : State :=
  let s := s.z2.z3.z4.railDrop
  let stays (k : Nat) : Bool := decide (k / 2 ^ 36 ≤ 2) && k / 2 ^ 28 != PWR_DIE_STAT && k / 2 ^ 28 != PWR_RET_LOST
  let hw : Hw := { fuses := s.hw.fuses, burn := s.hw.burn, faults := s.hw.faults, fault := s.hw.fault, req := s.hw.req
                   pmb := s.hw.pmb, railStep := none, railDown := s.hw.railDown, railAt := s.hw.railAt
                   resetLow := s.hw.resetLow, resetTaken := s.hw.resetTaken, off := true, thermalOff := thermal
                   dbg := { locked := s.hw.dbg.locked, fails := s.hw.dbg.fails } }
  { State.reset with
    part := s.part, pending := s.pending, fresh := s.fresh, hw := hw, clk := s.clk
    regs := s.regs.filter (fun e => stays e.1), eff := s.eff.filter (fun e => stays e.1)
    frz := { pinLow := s.frz.pinLow }, ctl := { gpioPins := s.ctl.gpioPins } }.put KILN_STAT_BUSY d0 0 |>.evalMode

/-! ## PMBus and adaptive voltage scaling (R635 to R637, R688) -/

/-- The polynomial x^8 + x^2 + x + 1 of a PEC over some bytes (PRESUMED, log 113). -/
def pecByte (l : List Byte) : Byte :=
  l.foldl (fun c b => (List.range 8).foldl (fun (x : Byte) _ => (x <<< 1) ^^^ (if x.getLsbD 7 then 0x07 else 0)) (c ^^^ b)) 0

/-- The bytes that the master drives (R635): address and command code, then the data, low byte first, or the address again for a read;
with a PEC a write ends with that of all before it. -/
def PmbJob.wire (j : PmbJob) : List Byte :=
  let head : List Byte := [BitVec.ofNat 8 (j.addr * 2), BitVec.ofNat 8 j.code]
  if 3 ≤ j.kind then head ++ [BitVec.ofNat 8 (j.addr * 2 + 1)]
  else
    let l := head ++ leBytes j.kind j.data
    if j.pec then l ++ [pecByte l] else l

/-- A GO of PWR.PMB_CMD with a TYPE (R623, R635, R636): ignored while BUSY. -/
def State.pmbGo (s : State) (lv : Level) (kind : Nat) (v : Word) : State :=
  if lv != .monitor then s
  else
    let s := s.fwWrite PWR_PMB_CMD d0 (setBits v 27 25 kind)
    if s.is PWR_PMB_CMD_BUSY d0 then s
    else
      let j : PmbJob := { avs := false, kind := kind, addr := s.get PWR_PMB_CMD_ADDR d0, code := s.get PWR_PMB_CMD_CODE d0
                          data := s.get PWR_PMB_DATA_V d0, pec := s.is PWR_PMB_CFG_PEC d0 }
      (s.setHw fun h => { h with pmb := h.pmb ++ [j] }).put PWR_PMB_CMD_BUSY d0 1

/-- PMB_SEND_BYTE (R635). -/
def execPmbSendByte (lv : Level) (v : Word) (s : State) : Out := s.event fun s => s.pmbGo lv 0 v
/-- PMB_WRITE_BYTE (R635). -/
def execPmbWriteByte (lv : Level) (v : Word) (s : State) : Out := s.event fun s => s.pmbGo lv 1 v
/-- PMB_WRITE_WORD (R635). -/
def execPmbWriteWord (lv : Level) (v : Word) (s : State) : Out := s.event fun s => s.pmbGo lv 2 v
/-- PMB_READ_BYTE (R635). -/
def execPmbReadByte (lv : Level) (v : Word) (s : State) : Out := s.event fun s => s.pmbGo lv 3 v
/-- PMB_READ_WORD (R635). -/
def execPmbReadWord (lv : Level) (v : Word) (s : State) : Out := s.event fun s => s.pmbGo lv 4 v

/-- PMB_TRANSACTION_DONE (R635, R636): the transaction at the front ends; a firmware one shows its result and, where it read
without error, its data. -/
def execPmbTransactionDone (ack pec : Bool) (data : BitVec 16) (s : State) : Out := s.acEvent fun s =>
  match s.hw.pmb with
  | [] => s
  | j :: t =>
    let s := s.setHw fun h => { h with pmb := t, pmbWire := j.wire }
    if j.avs then s
    else
      let rd := decide (3 ≤ j.kind)
      let err := if !ack then 1 else if rd && j.pec && !pec then 2 else 0
      let s := if rd && err = 0 then s.put PWR_PMB_DATA_V d0 (if j.kind = 3 then data.toNat % 256 else data.toNat) else s
      (s.put PWR_PMB_CMD_ERR d0 err).put PWR_PMB_CMD_BUSY d0 0

/-- A × 2^e, rounded to the nearest whole number. -/
def scaleRound (a : Nat) (e : Int) : Nat :=
  match e with
  | .ofNat n => a * 2 ^ n
  | .negSucc n => (a + 2 ^ n) / 2 ^ (n + 1)

/-- The VOUT_COMMAND value for a voltage in mV under an exponent (R637): round(V × 2^−e), with V in volts. -/
def voutCommand (mv : Nat) (e : Int) : Nat :=
  match e with
  | .ofNat n => (mv + 1000 * 2 ^ n / 2) / (1000 * 2 ^ n)
  | .negSucc n => (mv * 2 ^ (n + 1) + 500) / 1000

/-- AVS sets the voltage and queues the write of VOUT_COMMAND, PMBus code 0x21 (R637). -/
def State.avsSet (s : State) (mv : Nat) : State :=
  if mv = s.hw.avs.v then s
  else
    let j : PmbJob := { avs := true, kind := 2, addr := s.get PWR_AVS_CFG_ADDR d0, code := 0x21
                        data := voutCommand mv s.hw.avs.exp, pec := s.is PWR_PMB_CFG_PEC d0 }
    (s.setHw fun h => { h with pmb := h.pmb ++ [j], avs := { h.avs with v := mv } }).put PWR_AVS_STAT_VOUT_MV d0 mv

/-- AVS_ENABLE (R623, R637): the exponent is the low five bits of VOUT_MODE in two's complement; LINEAR16 has its upper three
bits 0. -/
def execAvsEnable (lv : Level) (v : Word) (mode : Byte) (vout : BitVec 16) (s : State) : Out := s.event fun s =>
  if lv != .monitor then s
  else
    let was := s.is PWR_AVS_CFG_EN d0
    let s := s.fwWrite PWR_AVS_CFG d0 v
    let now := s.is PWR_AVS_CFG_EN d0
    if !now then s.setHw fun h => { h with avs := { h.avs with run := false } }
    else if was then s
    else if mode.toNat / 32 ≠ 0 then (s.put PWR_AVS_STAT_ERR d0 1).setHw fun h => { h with avs := { h.avs with run := false } }
    else
      let e := signed 5 mode.toNat
      let mv := scaleRound (vout.toNat * 1000) e
      let s := s.setHw fun h => { h with avs := { run := true, exp := e, v := mv, cap := none } }
      (s.put PWR_AVS_STAT_ERR d0 0).put PWR_AVS_STAT_VOUT_MV d0 mv

/-- The least timing margin of the present, unfenced dies. -/
def State.leastMargin (s : State) : Nat :=
  (List.range 8).foldl (fun m d => if s.reachable d then Nat.min m (s.get SENS_MARGIN_V (onDie d)) else m) 255

/-- AVS lowers the voltage by a step, to no less than VMIN_MV (R637, R688). -/
def State.avsLower (s : State) : State :=
  s.avsSet (Nat.max (s.hw.avs.v - s.get PWR_AVS_CFG_STEP d0 * 5) (s.get PWR_AVS_LIM_VMIN_MV d0))

/-- AVS_ADJUST (R637, R688): at the end of every PERIOD. While THROTTLE is not 0 the voltage does not rise above its value at
the latest rise of THROTTLE. -/
def execAvsAdjust (s : State) : Out := s.acEvent fun s =>
  if !s.hw.avs.run then s
  else
    let m := s.leastMargin
    let v := s.hw.avs.v
    let t := s.get PWR_AVS_CFG_TARGET d0
    let h := s.get PWR_AVS_CFG_HYST d0
    let s := s.put PWR_AVS_STAT_MARGIN d0 m
    if m + h < t then
      let up := Nat.min (v + s.get PWR_AVS_CFG_STEP d0 * 5) (s.get PWR_AVS_LIM_VMAX_MV d0)
      match s.hw.avs.cap with
      | some c => if s.get PWR_THERM_STAT_THROTTLE d0 = 0 || up ≤ c then s.avsSet up else if v < c then s.avsSet c else s
      | none => s.avsSet up
    else if t + h < m then s.avsLower
    else s

/-! ## Fuses (R638 to R640) -/

/-- Whether a fuse operation is allowed, as ERR codes it (R639, R640): 0 where it is. -/
def State.fuseErr (s : State) (op arg : Nat) : Nat :=
  let f := s.hw.fuses
  let lc := f.lifecycle
  match op with
  | 0 => if lc = 0 then 0 else 2
  | 1 => if lc = 1 || lc = 2 then 0 else 2
  | 2 => match s.hw.boot with
    | some b => if 1 ≤ arg && arg ≤ 63 && arg ≤ b.svn then 0 else 3
    | none => 3
  | 3 => if arg ≤ 3 && (s.hw.boot.map (·.key)) != some arg then 0 else 3
  | 4 => if f.rails.isNone then 0 else 2
  | 5 => if lc != 0 then 2 else if arg ≤ 3 then 0 else 3
  | 6 => if lc != 0 then 2 else if arg ≤ 1 then 0 else 3
  | _ => 2

/-- A GO of HW.FUSE_CMD with an OP (R623, R639): ignored while fuses burn. -/
def State.fuseGo (s : State) (lv : Level) (op : Nat) (v : Word) : State :=
  if lv != .monitor then s
  else
    let s := s.fwWrite HW_FUSE_CMD d0 (setBits v 26 24 op)
    let arg := s.get HW_FUSE_CMD_ARG d0
    if s.hw.burn.isSome then s
    else if bits v 15 0 ≠ 0xA5C3 then s.put HW_FUSE_CMD_ERR d0 1
    else if s.fuseErr op arg ≠ 0 then s.put HW_FUSE_CMD_ERR d0 (s.fuseErr op arg)
    else (s.setHw fun h => { h with burn := some (op, arg) }).put HW_FUSE_CMD_BUSY d0 1

/-- FUSE_ADVANCE (R640). -/
def execFuseAdvance (lv : Level) (v : Word) (s : State) : Out := s.event fun s => s.fuseGo lv 0 v
/-- FUSE_SCRAP (R640). -/
def execFuseScrap (lv : Level) (v : Word) (s : State) : Out := s.event fun s => s.fuseGo lv 1 v
/-- FUSE_ROLLBACK (R640). -/
def execFuseRollback (lv : Level) (v : Word) (s : State) : Out := s.event fun s => s.fuseGo lv 2 v
/-- FUSE_REVOKE (R640). -/
def execFuseRevoke (lv : Level) (v : Word) (s : State) : Out := s.event fun s => s.fuseGo lv 3 v
/-- FUSE_RAIL_TABLE (R634, R640). -/
def execFuseRailTable (lv : Level) (v : Word) (s : State) : Out := s.event fun s => s.fuseGo lv 4 v
/-- FUSE_BOOT_KEY (R640). -/
def execFuseBootKey (lv : Level) (v : Word) (s : State) : Out := s.event fun s => s.fuseGo lv 5 v
/-- FUSE_DBG_KEY (R640). -/
def execFuseDbgKey (lv : Level) (v : Word) (s : State) : Out := s.event fun s => s.fuseGo lv 6 v

/-- TAP_FUSE_PROG (R634): the rail table is burnt once, while the lifecycle state is BLANK. -/
def execTapFuseProg (s : State) : Out := s.acEvent fun s =>
  if s.hw.burn.isSome || s.hw.fuses.lifecycle != 0 || s.hw.fuses.rails.isSome then s
  else (s.setHw fun h => { h with burn := some (4, 0) }).put HW_FUSE_CMD_BUSY d0 1

/-- What a burn leaves (R640). -/
def State.burnt (s : State) (op arg : Nat) : State :=
  let hash := s.words HW_FUSE_DATA 12
  match op with
  | 0 =>
    let (r, s) := s.draw Config.drbg
    s.setHw fun h => { h with fuses := ({ h.fuses with secret := BitVec.ofNat 256 r }).burnBit 0 }
  | 1 => s.setHw fun h => { h with fuses := ((h.fuses.burnBit 0).burnBit 1).burnBit 2 }
  | 2 => s.setHw fun h => { h with fuses := { h.fuses with rollback := Nat.max h.fuses.rollback arg } }
  | 3 => s.setHw fun h => { h with fuses := { h.fuses with revoked := putBit h.fuses.revoked arg true } }
  | 4 => s.setHw fun h => { h with fuses := { h.fuses with rails := some (h.fuses.rails.getD (s.words PWR_RAIL_STAGE 24)) } }
  | 5 => s.setHw fun h => { h with fuses := { h.fuses with
      bootKeys := Tab.mod h.fuses.bootKeys [] arg (fun o => burnHash o hash) } }
  | 6 => s.setHw fun h => { h with fuses := { h.fuses with
      dbgKeys := Tab.mod h.fuses.dbgKeys [] arg (fun o => burnHash o hash) } }
  | _ => s

/-- FUSE_BURN_DONE (R639): BUSY clears; a failed re-sense sets ERR and leaves what the fuses read as it was (log 46). -/
def execFuseBurnDone (ok : Bool) (s : State) : Out := s.burnEvent fun s =>
  match s.hw.burn with
  | none => s
  | some (op, arg) =>
    let s := (s.setHw fun h => { h with burn := none }).put HW_FUSE_CMD_BUSY d0 0
    if ok then (s.put HW_FUSE_CMD_ERR d0 0).burnt op arg |>.senseFuses else s.put HW_FUSE_CMD_ERR d0 4

/-! ## Secure boot (R641 to R643) -/

/-- A segment of an image (Table 15.7): its offset in the slot, its length and its load offset. -/
structure Seg where
  off : Nat
  len : Nat
  dst : Nat
  deriving DecidableEq, Repr

/-- A little-endian field of a header. -/
def field (l : List Byte) (o n : Nat) : Nat := leNat (slice l o n)

/-- The segments of an image. -/
def imageSegs (l : List Byte) : List Seg :=
  (List.range (field l 14 2)).map (fun i =>
    { off := field l (32 + 16 * i) 4, len := field l (36 + 16 * i) 4, dst := field l (40 + 16 * i) 8 })

/-- A segment loads wholly into the TCM of a core of line die 0, or into the SRAM ways (R641, Table 13.2). -/
def Seg.fits (x : Seg) (ways : Nat) : Bool :=
  (0x100000000 ≤ x.dst && x.dst < 0x100200000 && (x.dst - 0x100000000) % 0x40000 + x.len ≤ 0x40000) ||
  (0x200000000 ≤ x.dst && x.dst + x.len ≤ 0x200000000 + ways * 0x40000)

/-- Two segments overlap. -/
def Seg.overlaps (x y : Seg) : Bool := x.dst < y.dst + y.len && y.dst < x.dst + x.len

/-- The layout of an image (R641 check 4, Table 15.7). -/
def imageLayoutOk (l : List Byte) : Bool :=
  let n := field l 14 2
  let ways := field l 13 1
  let entry := field l 16 8
  let segs := imageSegs l
  1 ≤ n && n ≤ 16 && ways ≤ 12 && entry % 4 == 0 &&
  segs.all (fun x => x.off + x.len ≤ 0x800000 && x.fits ways) &&
  segs.any (fun x => x.dst ≤ entry && entry < x.dst + x.len) &&
  (List.range segs.length).all (fun i => (List.range i).all (fun j =>
    match segs[i]?, segs[j]? with
    | some x, some y => !x.overlaps y
    | _, _ => true))

/-- The checks before a segment is read, as Table 15.8 codes the failure (R641 checks 1 to 4; 2 is skipped in BLANK). -/
def Fuses.earlyErr (f : Fuses) (l : List Byte) : Nat :=
  let key := field l 12 1
  if slice l 0 4 != [0x5A, 0x47, 0x42, 0x31] then 1
  else if field l 4 2 ≠ 1 then 2
  else if f.lifecycle ≠ 0 && (3 < key || f.revoked.testBit key ||
      Tab.get f.bootKeys [] key != wordsOfBytes 12 (Config.sha384 (slice l 288 96))) then 3
  else if field l 8 4 < f.rollback then 4
  else if !imageLayoutOk l then 5
  else 0

/-- The image's signature verifies (R641 checks 5 and 6; skipped in BLANK). -/
def Fuses.signed (f : Fuses) (l : List Byte) : Bool :=
  f.lifecycle == 0 ||
  Config.ecdsa (slice l 288 96) (Config.sha384 (slice l 0 384 ++ (imageSegs l).flatMap (fun x => slice l x.off x.len)))
    (slice l 384 96)

/-- A slot fails with an error; after slot B the state is FAILED (R643). -/
def State.slotFails (s : State) (e : Nat) : State :=
  let s := s.put (if s.hw.slot = 0 then HW_BOOT_STAT_ERR_A else HW_BOOT_STAT_ERR_B) d0 e
  let s := s.put HW_BOOT_STAT_STATE d0 (if s.hw.slot = 0 then 0 else 3)
  s.setHw fun h => { h with slot := h.slot + 1 }

/-- BOOT_SLOT_CHECK (R641 to R643): the next slot is read and checked. SRAM_WAYS is written before loading; the targets of a
slot that fails its signature are zeroed. -/
def execBootSlotCheck (image : List Byte) (s : State) : Out := s.acEvent fun s =>
  if !s.hw.railsUp || s.hw.boot.isSome || 2 ≤ s.hw.slot then s
  else
    let f := s.hw.fuses
    let e := if f.lifecycle = 3 then 7 else f.earlyErr image
    if e ≠ 0 then s.slotFails e
    else
      let segs := imageSegs image
      let s := (s.put CTL_L2_CFG_SRAM_WAYS d0 (field image 13 1)).put CTL_L2_CFG_EN d0 0
      if f.signed image then
        let s := segs.foldl (fun (s : State) x => s.setBytes x.dst (slice image x.off x.len)) s
        let b : BootImage := { slot := s.hw.slot, svn := field image 8 4, key := field image 12 1
                               entry := field image 16 8, ways := field image 13 1 }
        (s.put HW_BOOT_STAT_STATE d0 1).setHw fun h => { h with boot := some b }
      else
        (segs.foldl (fun (s : State) x => s.setBytes x.dst (List.replicate x.len 0)) s).slotFails 6

/-- BOOT_RELEASE (R642, R690): RESET_VEC takes ENTRY, BOOT_STAT the image, and cores 0 to 7 leave reset together. -/
def execBootRelease (s : State) : Out := s.acEvent fun s =>
  match s.hw.boot with
  | none => s
  | some b =>
    if s.get HW_BOOT_STAT_STATE d0 = 2 || s.hw.tempCheck then s
    else
      let s := s.wr CTL_RESET_VEC (onDie 0) (BitVec.ofNat 32 (b.entry / 4))
      let s := (s.put HW_BOOT_STAT_STATE d0 2).put HW_BOOT_STAT_SLOT d0 b.slot
      let s := (s.put HW_BOOT_STAT_SVN d0 b.svn).put HW_BOOT_STAT_KEY_IDX d0 b.key
      let s := s.setHw fun h => { h with released := BitVec.ofNat 8 (presentMask s.part) }
      (List.range 8).foldl State.releaseCore s

end Sys2Proof.Machine
end

