-- ==== Sys2Proof/Machine/Counters.lean ====
section
/-!
DEFINITION. Performance counters, bandwidth windows and sensors (17_counters_and_sensors.md, R692 to R709), and the refresh
mode of a reservoir die (R519, R520).
-/
namespace Sys2Proof.Machine
open Reg

/-! ## Counter units (R692 to R700) -/

/-- Unit u exists on die d (Table 17.1). -/
def State.hasUnit (s : State) (d u : Nat) : Bool := present s.part d && u < pmcUnits d

/-- PMC_COUNTER_READ (R695, R698): LO returns its value and the upper bits go to HI; a user-level read returns 0 unless
USER_RD of the unit is 1. The live upper bits stand in effect beside the HI register. -/
def execPmcCounterRead (r : Requester) (lv : Level) (d : Die) (u : Fin 16) (n : Fin 9) (s : State) : Out := s.event fun s =>
  let d := d.val
  let a := place d u.val
  if !s.hasUnit d u.val || (lv == .user && !s.is PMC_CTL_USER_RD a) then s.answer (reqCode r) {}
  else if n.val = 8 then
    (s.wr PMC_CYC_HI a (s.rdEff PMC_CYC_HI a)).answer (reqCode r) { data := (s.rd PMC_CYC_LO a).setWidth 64 }
  else
    let c := place d (u.val * 8 + n.val)
    (s.wr PMC_CNT_HI c (s.rdEff PMC_CNT_HI c)).answer (reqCode r) { data := (s.rd PMC_CNT_LO c).setWidth 64 }

/-- The held write of a CNT_HI (R695). -/
def heldKey (d u n : Nat) : Nat := d * 256 + u * 8 + n

/-- Replace a held write. -/
def State.setPmcHeld (s : State) (k : Nat) (v : Option Word) : State :=
  { s with pmc := { s.pmc with held := Tab.set s.pmc.held none k v } }

/-- PMC_COUNTER_WRITE (R694, R695, R698): CNT_LO, together with the held write of CNT_HI; a user-level write is ignored. -/
def execPmcCounterWrite (lv : Level) (d : Die) (u : Fin 16) (n : Fin 8) (v : Word) (s : State) : Out := s.event fun s =>
  let d := d.val
  let c := place d (u.val * 8 + n.val)
  let k := heldKey d u.val n.val
  if lv == .user || !s.hasUnit d u.val then s
  else
    let s := s.wr PMC_CNT_LO c v
    match Tab.get s.pmc.held none k with
    | none => s
    | some h =>
      let h := h &&& 0xFFFF#32
      ((s.wr PMC_CNT_HI c h).wrEff PMC_CNT_HI c h).setPmcHeld k none

/-- PMC_ARM (R368, R698, R699): an AT that is already past is missed. -/
def execPmcArm (lv : Level) (d : Die) (v : Word) (s : State) : Out := s.event fun s =>
  let d := d.val
  let a := onDie d
  if lv == .user || !present s.part d then s
  else
    let s := s.fwWrite PMC_ARM a v
    let at_ := s.rd PMC_ARM_AT a
    let ahead := (at_ - BitVec.ofNat 32 s.clk.mc).toNat
    if bits v 31 31 = 0 then s
    else if 1 ≤ ahead ∧ ahead < 2 ^ 31 then
      { s with pmc := { s.pmc with armed := Tab.set s.pmc.armed none d (some (bits v 30 30 == 1, at_.toNat)) } }
    else s.put PMC_ARM_STAT_MISSED a 1

/-- The armed action of a die is due (R699): on the edge where E mod 2^32 is AT, every unit of the die starts or stops. -/
def State.armedAction (s : State) (d : Nat) : State :=
  match Tab.get s.pmc.armed none d with
  | none => s
  | some (op, at_) =>
    if s.clk.mc % 2 ^ 32 ≠ at_ then s
    else
      let s := { s with pmc := { s.pmc with armed := Tab.set s.pmc.armed none d none } }
      (List.range (pmcUnits d)).foldl (fun (s : State) u => s.put PMC_CTL_RUN (place d u) (b2n op)) s

/-- PMC_ARMED_ACTION (R699). -/
def execPmcArmedAction (d : Die) (s : State) : Out := s.unit d.val (pmcBank d.val) fun s => s.armedAction d.val

/-! ## Bandwidth windows (R703 to R705) -/

/-- The ports of a course die. -/
def portsOf (d : Nat) : List Nat := (List.range 16).map (fun i => 16 * (d - 2) + i)

/-- The window of every port of a course die closes (R705): each record enters its history, the settings written take effect,
and the next window starts now: it is shorter than WIN_US where a step began it, or the last boundary is none of the new WIN_US. -/
def State.bwClose (s : State) (d : Nat) (step : Bool) : State :=
  let a := onDie d
  let old := s.getEff PMC_BW_CFG_WIN_US a * 1000
  let start := s.time.ns.toNat / old * old
  let was := s.isEff PMC_BW_CFG_EN a
  let s := if was then
      (portsOf d).foldl (fun (s : State) p =>
        let r : BwRec := { Tab.get s.pmc.cur {} p with valid := true, step := step }
        { s with pmc := { s.pmc with hist := Tab.mod s.pmc.hist [] p (fun l => (r :: l).take 8) } }) s |>.put PMC_BW_STAT_CLOSED a 1
    else s
  let s := s.commit PMC_BW_CFG a
  let r : BwRec := if s.isEff PMC_BW_CFG_EN a then
      { partial_ := step || start % (s.getEff PMC_BW_CFG_WIN_US a * 1000) != 0, slept := s.powerState d != 0, sec := s.time.sec.toNat % 2 ^ 32, ns := s.time.ns.toNat }
    else {}
  (portsOf d).foldl (fun (s : State) p =>
    ({ s with pmc := { s.pmc with cur := Tab.set s.pmc.cur {} p r } }).bwPeak p) s

/-- A step of network time, or a thaw, closes the windows in progress, flagged STEP (R705). -/
def State.bwStep (s : State) : State :=
  [2, 3, 4, 5].foldl (fun (s : State) d =>
    if present s.part d && s.isEff PMC_BW_CFG_EN (onDie d) then s.bwClose d true else s) s

/-- A die that leaves RUN marks its windows in progress (Table 17.5). -/
def State.bwSlept (s : State) (d : Nat) : State :=
  if d < 2 || 6 ≤ d then s
  else (portsOf d).foldl (fun (s : State) p => s.bwMod p (fun r => { r with slept := true })) s

/-- A tc edge on which the counter adds `incr` takes it to a multiple of w nanoseconds (R703). -/
def NetTime.reaches (t : NetTime) (incr : Word) (w : Nat) : Bool :=
  let n := t.ns.toNat + bits incr 31 28 + (t.frac.toNat + bits incr 27 0) / 2 ^ 28
  decide (t.ns.toNat / w < n / w)

/-- A tc edge brings network time to the window boundary of a die (R703). -/
def State.bwReach (s : State) (incr : Word) : State :=
  let l := [2, 3, 4, 5].filter (fun d => !s.pmc.due.contains d && present s.part d && s.time.run &&
    s.time.reaches incr (s.getEff PMC_BW_CFG_WIN_US (onDie d) * 1000))
  if l.isEmpty then s else { s with pmc := { s.pmc with due := s.pmc.due ++ l } }

/-- A window close that is due on a die (R703, R705): while network time stands still no window closes; whether one closes under a WIN_US that does
not divide 1,000,000 is a free value. -/
def State.bwDue (s : State) (d : Nat) : State :=
  let a := onDie d
  let due := s.pmc.due.contains d
  let s := { s with pmc := { s.pmc with due := s.pmc.due.erase d } }
  if !present s.part d || !s.time.run then s
  else if s.isEff PMC_BW_CFG_EN a && (s.getEff PMC_BW_CFG_WIN_US a = 0 || 1000000 % s.getEff PMC_BW_CFG_WIN_US a ≠ 0) then
    let (c, s) := s.draw Config.freeClose
    if c then s.bwClose d false else s
  else if due then s.bwClose d false
  else s

/-- BW_WINDOW_CLOSE (R703, R705). -/
def execBwWindowClose (d : CourseDie) (s : State) : Out := s.island (courseIdx d) 7 fun s => s.bwDue (courseIdx d)

/-- A record as BW_W0 to BW_W4 (Table 17.5). -/
def BwRec.words (r : BwRec) : List Word :=
  [setBits (setBits (setBits (setBits (setBits 0 31 31 (b2n r.valid)) 30 30 (b2n r.step)) 29 29 (b2n r.partial_)) 28 28
    (b2n r.slept)) 19 0 r.peak, BitVec.ofNat 32 r.sec, BitVec.ofNat 32 r.ns, BitVec.ofNat 32 r.rx, BitVec.ofNat 32 r.tx]

/-- BW_SNAP (R698, R705): index 0 is the window in progress; a close that is due comes first. -/
def execBwSnap (lv : Level) (d : CourseDie) (v : Word) (s : State) : Out := s.event fun s =>
  let d := courseIdx d
  let a := onDie d
  if lv == .user || !present s.part d then s
  else
    let s := if s.pmc.due.contains d then s.bwDue d else s
    let s := s.fwWrite PMC_BW_SEL a v
    let p := 16 * (d - 2) + s.get PMC_BW_SEL_LP a
    let i := s.get PMC_BW_SEL_INDEX a
    let r : BwRec := if i = 0 then { Tab.get s.pmc.cur {} p with valid := s.bwOn p }
      else (Tab.get s.pmc.hist [] p).getD (i - 1) {}
    if bits v 31 31 = 0 then s
    else (r.words.zipIdx).foldl (fun (s : State) x => s.wr PMC_BW_W (place d x.2) x.1) s

/-! ## Sensors (R706 to R708) -/

/-- Put an active bit of an alarm; its rise sets the event (R708). -/
def State.setAlarm (s : State) (d k : Nat) (act evt : Fld) (now : Bool) : State :=
  let was := bitOf (s.get act (onDie d)) k
  let s := s.put act (onDie d) (putBit (s.get act (onDie d)) k now)
  if now && !was then s.latch evt (onDie d) k else s

/-- Evaluate an enabled alarm on a new reading (R708): signed for T, unsigned for V; where the thresholds cross, the result is
a free value. -/
def State.evalAlarm (s : State) (d k value : Nat) : State :=
  let a := place d k
  let num (x : Nat) : Int := if k < 4 then signed 12 x else (x : Int)
  let hi := num (s.get SENS_ALM_HI a)
  let lo := num (s.get SENS_ALM_LO a)
  let h : Int := 4 * (s.get SENS_ALM_HYST a : Nat)
  let v := num value
  if !s.is SENS_ALM_EN a then s
  else if hi - h < lo + h then
    let (x, s) := s.draw Config.freeAlarm
    let (y, s) := s.draw Config.freeAlarm
    (s.setAlarm d k SENS_STAT_HI_ACT SENS_EVT_HI x).setAlarm d k SENS_STAT_LO_ACT SENS_EVT_LO y
  else
    let wasHi := bitOf (s.get SENS_STAT_HI_ACT (onDie d)) k
    let wasLo := bitOf (s.get SENS_STAT_LO_ACT (onDie d)) k
    let isHi := decide (hi < v) || (wasHi && !decide (v ≤ hi - h))
    let isLo := decide (v < lo) || (wasLo && !decide (lo + h ≤ v))
    (s.setAlarm d k SENS_STAT_HI_ACT SENS_EVT_HI isHi).setAlarm d k SENS_STAT_LO_ACT SENS_EVT_LO isLo

/-- The sensors in the order of their conversion (R706): 0 to 3 are T0 to T3, 4 to 7 V0 to V3. -/
def sensorTurn (n : Nat) : Nat := n % 2 * 4 + n / 2

/-- The readings of a die's thermal sensors that have converted, in units of 0.125 °C. -/
def State.temps (s : State) (d : Nat) : List Int :=
  (List.range 4).filterMap (fun i =>
    if s.is SENS_TEMP_VALID (place d i) then some (signed 12 (s.get SENS_TEMP_VALUE (place d i))) else none)

/-- Every die that is not in RUN wakes. -/
def State.wakeAll (s : State) (src : Nat) : State :=
  (List.range 8).foldl (fun (s : State) d => if present s.part d then s.wakeReq d src 0 else s) s

/-- The readings of every present die. -/
def State.allTemps (s : State) : List Int := (List.range 8).flatMap (fun d => if present s.part d then s.temps d else [])

/-- What readings above 135 °C and from 150 °C show and wake (R689, PWR.THERM_STAT), in units of 0.125 °C. -/
def State.heat (s : State) : State :=
  let s := s.put PWR_THERM_STAT_HOT d0 (b2n (s.allTemps.any (fun t => decide (1080 < t))))
  if s.allTemps.any (fun t => decide (1200 ≤ t)) then (s.put PWR_THERM_STAT_CRIT d0 1).wakeAll 9 else s

/-- Every sensor of a reservoir die is 5 °C below the threshold of a REF_MODE, 85 °C and 125 °C (R520, Table 12.2). -/
def State.cooled (s : State) (d mode : Nat) : Bool :=
  (s.temps d).all (fun t => decide (t < (if mode = 1 then 680 else 1000) - 40))

/-- The latest readings of a reservoir die start and end the times that R520 waits for. -/
def State.coolSince (s : State) (d : Nat) : State :=
  if d < 6 then s
  else [1, 2].foldl (fun (s : State) mode =>
    let g := s.guard d 0
    let old := Tab.get g.cool none mode
    let new := if !s.cooled d mode then none else if old.isSome then old else some s.clk.rc
    s.setGuard d 0 { g with cool := Tab.set g.cool none mode new }) s

/-- The first reading of T0 of line die 0 after the rail-up that follows a thermal OFF (R690), in units of 0.125 °C: below 125 °C the cold
start goes on, else the part goes down again and counts 10 s anew. -/
def State.judgeT0 (s : State) (t : Int) : State :=
  if !s.hw.tempCheck || !s.hw.railsUp then s
  else if t < 1000 then s.setHw fun h => { h with tempCheck := false }
  else s.enterOff true

/-- SENSOR_READING (R690, R706, R708): in every power state but OFF, and through freeze; the sensors convert in turn, and the margin
renews once a round, with the last of them (DESIGN CHOICE, log 88). A thermal reading is judged against R689. -/
def execSensorReading (d : Die) (k : Fin 8) (value : BitVec 12) (margin : Byte) (s : State) : Out := s.acUnit d.val (pmcBank d.val) fun s =>
  let d := d.val
  let n := Tab.get s.pmc.conv 0 d
  if !present s.part d || s.hw.off || k.val ≠ sensorTurn n then s
  else
    let s := { s with pmc := { s.pmc with conv := Tab.set s.pmc.conv 0 d ((n + 1) % 8) } }
    let s := if k.val < 4 then
        ((s.put SENS_TEMP_VALUE (place d k.val) value.toNat).put SENS_TEMP_VALID (place d k.val) 1).heat
      else (s.put SENS_VOLT_VALUE (place d (k.val - 4)) value.toNat).put SENS_VOLT_VALID (place d (k.val - 4)) 1
    let s := if n = 7 then s.put SENS_MARGIN_V (onDie d) margin.toNat else s
    let s := (s.coolSince d).evalAlarm d k.val value.toNat
    if d = 0 && k.val = 0 then s.judgeT0 (signed 12 value.toNat) else s

/-- The refresh mode that a temperature asks for (Table 12.2): 85 °C and 125 °C. -/
def refMode (t : Int) : Nat := if t < 680 then 0 else if t < 1000 then 1 else 2

/-- REF_MODE_CHANGE (R520): the mode rises to what the hottest sensor asks for; it falls by one once every sensor has stayed 5 °C
below its threshold for 1,000,000 rc. -/
def execRefModeChange (d : Die) (s : State) : Out := s.island d.val 0 fun s =>
  let d := d.val
  let a := onDie d
  let cur := s.get RSV_STAT_REF_MODE a
  let want := (s.temps d).foldl (fun m t => Nat.max m (refMode t)) 0
  if d < 6 || !present s.part d then s
  else if cur < want then s.put RSV_STAT_REF_MODE a want
  else match Tab.get (s.guard d 0).cool none cur with
    | some since => if 0 < cur && s.cooled d cur && since + 1000000 ≤ s.clk.rc then s.put RSV_STAT_REF_MODE a (cur - 1) else s
    | none => s

end Sys2Proof.Machine
end

