-- ==== Sys2Proof/Machine/DmaCtl.lean ====
section
/-!
DEFINITION. The control of DMA channels (14_dma_and_rings.md): states, commands, doorbells, pacing, halts and the write-back
of descriptors. What a channel moves stands in Machine/Dma.lean.
-/
namespace Sys2Proof.Machine
open Reg

/-! ## States (Table 14.5) -/

/-- OFF. -/
abbrev dmaOff : Nat := 0
/-- IDLE. -/
abbrev dmaIdle : Nat := 1
/-- RUN. -/
abbrev dmaRun : Nat := 2
/-- PACE_WAIT. -/
abbrev dmaPaceWait : Nat := 3
/-- STOPPING. -/
abbrev dmaStopping : Nat := 4
/-- STOPPED. -/
abbrev dmaStopped : Nat := 5
/-- HALTED. -/
abbrev dmaHalted : Nat := 6

/-- The state of a channel. -/
def State.dmaState (s : State) (d ch : Nat) : Nat := s.get DMA_STAT_STATE (place d ch)
/-- Put a channel in a state. -/
def State.setDmaState (s : State) (d ch st : Nat) : State := s.put DMA_STAT_STATE (place d ch) st
/-- The channel exists (R595). -/
def State.dmaExists (s : State) (d ch : Nat) : Bool := present s.part d && ch < dmaChans d

/-- The modes of a die's channels (Table 14.1). -/
def dmaModeOk (d mode : Nat) : Bool := mode == 0 || (d < 6 && mode != 2) || (d == 0)

/-- A command that the state refuses (R619). -/
def State.dmaRej (s : State) (d ch : Nat) : State := s.put DMA_STAT_REJ (place d ch) 1

/-! ## Commands (R600, R614, R618, R619) -/

/-- DMA_START (R618): a channel whose MODE the die lacks keeps its write and does not start. -/
def execDmaStart (d : Die) (ch : Fin 32) (v : Word) (s : State) : Out := s.event fun s =>
  let d := d.val
  let ch := ch.val
  let a := place d ch
  let st := s.dmaState d ch
  if !s.dmaExists d ch || bits v 31 31 = 0 then s
  else if !(st = dmaOff || st = dmaStopped || st = dmaHalted) || !dmaModeOk d (s.get DMA_CFG_MODE a) then s.dmaRej d ch
  else
    let s := s.commitAll [(DMA_CFG, a), (DMA_BASE_LO, a), (DMA_BASE_HI, a), (DMA_PACE_PER, a)]
    let s := s.setDma d ch { s.dmaCh d ch with
      started := false, waits := false, chain := 0, due := 0, got := [], done := 0, filled := [], fireAt := s.clk.ac + s.getEff DMA_PACE_PER_V a }
    (s.put DMA_STAT_PACE_PEND a 0).setDmaState d ch dmaRun

/-- The channel is at a boundary that ends a record or frame (R614): nothing of a descriptor, record or frame is under way. A RECEIVE
channel whose descriptor waits for a record has none under way. -/
def State.dmaAtBoundary (s : State) (d ch : Nat) : Bool :=
  let x := s.dmaCh d ch
  x.got.isEmpty && x.filled.isEmpty && (!x.started || s.getEff DMA_CFG_MODE (place d ch) == 1)

/-- A STOP or the end of a descriptor in STOPPING leaves the channel in STOPPED (R614). -/
def State.dmaSettle (s : State) (d ch : Nat) : State :=
  if s.dmaState d ch = dmaStopping && s.dmaAtBoundary d ch then
    (s.setDma d ch { s.dmaCh d ch with started := false, waits := false }).setDmaState d ch dmaStopped
  else s

/-- DMA_STOP (R614): in the midst of a frame or record, also while one of its descriptors waits for a trigger, the channel stops at its end. -/
def execDmaStop (d : Die) (ch : Fin 32) (v : Word) (s : State) : Out := s.event fun s =>
  let d := d.val
  let ch := ch.val
  let st := s.dmaState d ch
  if !s.dmaExists d ch || bits v 30 30 = 0 then s
  else if st = dmaOff || st = dmaStopped || st = dmaHalted then s.dmaRej d ch
  else (s.setDmaState d ch dmaStopping).dmaSettle d ch

/-- DMA_DISABLE (R619): the records in the input store are dropped into CNT_OFF. -/
def execDmaDisable (d : Die) (ch : Fin 32) (v : Word) (s : State) : Out := s.event fun s =>
  let d := d.val
  let ch := ch.val
  let st := s.dmaState d ch
  if !s.dmaExists d ch || bits v 29 29 = 0 then s
  else if !(st = dmaIdle || st = dmaStopped || st = dmaHalted) then s.dmaRej d ch
  else
    let x := s.dmaCh d ch
    let s := s.setDma d ch { x with store := [], started := false, waits := false, got := [], done := 0, filled := [] }
    let s := x.store.foldl (fun (s : State) r => (s.release r.buf).count DMA_CNT_OFF (place d ch)) s
    s.setDmaState d ch dmaOff

/-- DMA_DOORBELL (R599, R600). -/
def execDmaDoorbell (d : Die) (ch : Fin 32) (s : State) : Out := s.event fun s =>
  let d := d.val
  let ch := ch.val
  if !s.dmaExists d ch then s
  else if s.dmaState d ch = dmaIdle then s.setDmaState d ch dmaRun
  else s.setDma d ch { s.dmaCh d ch with bell := true }

/-- A write of a channel's DESC register (R620): accepted only in OFF, STOPPED or HALTED. -/
def State.dmaDescWrite (s : State) (reg d ch : Nat) (v : Word) : State :=
  let st := s.dmaState d ch
  if st = dmaOff || st = dmaStopped || st = dmaHalted then s.fwWrite reg (place d ch) v else s.dmaRej d ch

/-! ## Pacing (R604 to R606, R621) -/

/-- PACE_TIMER_FIRE (R604, R620): PACE_PER ac after the start or the firing before, also in a freeze; the firing is on its way to
mc, and a PACE_PER written takes effect. -/
def execPaceTimerFire (d : Die) (ch : Fin 32) (s : State) : Out := s.acUnit d.val (dmaBank d.val) fun s =>
  let d := d.val
  let ch := ch.val
  let a := place d ch
  let x := s.dmaCh d ch
  if s.dmaState d ch = dmaOff || s.getEff DMA_CFG_PACE_SRC a != 1 || s.clk.ac < x.fireAt then s
  else
    let s := s.commit DMA_PACE_PER a
    s.setDma d ch { x with due := x.due + 1, fireAt := s.clk.ac + s.getEff DMA_PACE_PER_V a }

/-- A waiting descriptor takes a trigger and starts (R604); a STOP that waits for the end of its frame or record stays. -/
def State.paceStart (s : State) (d ch : Nat) : State :=
  let a := place d ch
  let x := s.dmaCh d ch
  if !x.waits then s
  else
    let s := s.put DMA_STAT_PACE_PEND a (s.get DMA_STAT_PACE_PEND a - 1)
    let s := s.setDma d ch { x with started := true, waits := false }
    if s.dmaState d ch = dmaPaceWait then s.setDmaState d ch dmaRun else s

/-- PACE_TRIGGER (R605): the next trigger on its way to the channel arrives. -/
def execPaceTrigger (d : Die) (ch : Fin 32) (s : State) : Out := s.unit d.val (dmaBank d.val) fun s =>
  let d := d.val
  let ch := ch.val
  let a := place d ch
  let x := s.dmaCh d ch
  if x.due = 0 then s
  else
    let s := s.setDma d ch { x with due := x.due - 1 }
    if s.get DMA_STAT_PACE_PEND a = 255 then s.put DMA_EVT_PACE_OVF a 1
    else (s.put DMA_STAT_PACE_PEND a (s.get DMA_STAT_PACE_PEND a + 1)).paceStart d ch

/-- A completion of channel ch triggers the channels that name it (R604). -/
def State.paceOthers (s : State) (d ch : Nat) : State :=
  (List.range (dmaChans d)).foldl (fun (s : State) k =>
    if s.dmaState d k != dmaOff && s.getEff DMA_CFG_PACE_SRC (place d k) = 2 && s.getEff DMA_CFG_PACE_CH (place d k) = ch then
      s.setDma d k { s.dmaCh d k with due := (s.dmaCh d k).due + 1 }
    else s) s

/-! ## Descriptors (R597 to R603, R615, R616) -/

/-- A descriptor's fields (Table 14.2). -/
structure DmaDesc where
  ctl : Word
  src : Nat
  dst : Nat
  next : Nat
  deriving DecidableEq, Repr

/-- OWN. -/
def DmaDesc.own (x : DmaDesc) : Bool := bits x.ctl 31 31 == 1
/-- LEN. -/
def DmaDesc.len (x : DmaDesc) : Nat := bits x.ctl 23 0
/-- EOP. -/
def DmaDesc.eop (x : DmaDesc) : Bool := bits x.ctl 27 27 == 1

/-- Read the fields of a descriptor from its 32 bytes. -/
def dmaDecode (l : List Byte) : DmaDesc :=
  { ctl := BitVec.ofNat 32 (leNat (slice l 0 4)), src := leNat (slice l 8 8) % 2 ^ 40, dst := leNat (slice l 16 8) % 2 ^ 40
    next := leNat (slice l 24 8) % 2 ^ 40 }

/-- The address of a channel's head descriptor. -/
def State.dmaHead (s : State) (d ch : Nat) : Nat :=
  s.get DMA_DESC_HI_V (place d ch) * 2 ^ 32 + s.get DMA_DESC_LO_V (place d ch) * 32

/-- The head moves to a descriptor. -/
def State.setDmaHead (s : State) (d ch addr : Nat) : State :=
  (s.put DMA_DESC_HI_V (place d ch) (addr / 2 ^ 32)).put DMA_DESC_LO_V (place d ch) (addr / 32)

/-- The ring base in effect. -/
def State.dmaBase (s : State) (d ch : Nat) : Nat :=
  s.getEff DMA_BASE_HI_V (place d ch) * 2 ^ 32 + s.getEff DMA_BASE_LO_V (place d ch) * 32

/-- The address of the descriptor after one (R598). -/
def State.dmaNext (s : State) (d ch addr : Nat) (x : DmaDesc) : Nat :=
  if s.isEff DMA_CFG_CHAIN (place d ch) then x.next
  else
    let b := s.dmaBase d ch
    b + ((addr - b) / 32 + 1) % 2 ^ s.getEff DMA_CFG_LOG2N (place d ch) * 32

/-- Write a descriptor back (R601): STATUS, then CTL without OWN unless PERSIST is set. None is an error response. -/
def State.dmaWriteBack (s : State) (d ch addr : Nat) (ctl status : Word) : Option State :=
  match s.writeSpan d (addr + 4) (leBytes 4 status.toNat) with
  | none => none
  | some s =>
    if s.isEff DMA_CFG_PERSIST (place d ch) then some s
    else s.writeSpan d addr (leBytes 4 (setBits ctl 31 31 0).toNat)

/-- Halt a channel (R603, R615, R617): the cause is latched unless one stands, and EVT.HALT is set. -/
def State.dmaHalt (s : State) (d ch cause addr : Nat) (write : Bool) : State :=
  let a := place d ch
  let s := if s.is DMA_ERR_INFO_VALID a then s
    else
      let w : Word := setBits (setBits (setBits (setBits 0 31 31 1) 30 30 (b2n write)) 29 28 cause) 7 0 (addr / 2 ^ 32)
      (s.wr DMA_ERR_INFO a w).wr DMA_ERR_ADDR a (BitVec.ofNat 32 addr)
  let s := s.setDma d ch { s.dmaCh d ch with started := false, waits := false, got := [], done := 0, filled := [] }
  (s.put DMA_EVT_HALT a 1).setDmaState d ch dmaHalted

/-- Count a completed descriptor (R603, R604, R619): DONE_CNT, EVT.DONE with IRQ, the chain count, and the triggers it
gives. -/
def State.dmaComplete (s : State) (d ch : Nat) (ctl : Word) : State :=
  let a := place d ch
  let s := s.put DMA_STAT_DONE_CNT a (s.get DMA_STAT_DONE_CNT a + 1)
  let s := if bits ctl 30 30 = 1 then s.put DMA_EVT_DONE a 1 else s
  let s := s.setDma d ch { s.dmaCh d ch with chain := (s.dmaCh d ch).chain + 1 }
  s.paceOthers d ch

/-- CHAIN_LIMIT_HALT (R603): the count has reached CHAIN_LIMIT. -/
def State.dmaLimit (s : State) (d ch addr : Nat) : State :=
  if s.getEff DMA_CFG_CHAIN_LIMIT (place d ch) ≤ (s.dmaCh d ch).chain then s.dmaHalt d ch 2 addr false else s

/-- A RECEIVE record is dropped (R613): the head returns to its first descriptor. -/
def State.dmaDropRec (s : State) (d ch : Nat) : State :=
  let x := s.dmaCh d ch
  match x.store with
  | [] => s
  | r :: t =>
    let s := match x.filled with
      | [] => s
      | f :: _ => s.setDmaHead d ch f.1
    let s := (s.setDma d ch { x with store := t, started := false, waits := false, filled := [] }).release r.buf
    let s := (s.count DMA_CNT_RING_DROP (place d ch)).put DMA_EVT_DROP (place d ch) 1
    if r.mgt then s.count MGT_CNT_RING_DROP d0 else s

/-- A record is under way in a RECEIVE channel (R612). -/
def State.dmaInRec (s : State) (d ch : Nat) : Bool :=
  s.getEff DMA_CFG_MODE (place d ch) == 1 && ((s.dmaCh d ch).started || !(s.dmaCh d ch).filled.isEmpty)

/-- A bus error (R615, R616): the channel halts; unless it fell on a descriptor access, the descriptor in progress is
written back with CODE BUS_ERR and the bytes done, and a RECEIVE record in progress is dropped. -/
def State.dmaBus (s : State) (d ch addr : Nat) (write lost onDesc : Bool) (done : Nat) : State :=
  let mode := s.getEff DMA_CFG_MODE (place d ch)
  let s := if s.dmaInRec d ch then s.dmaDropRec d ch else s
  let s := if onDesc || mode = 1 || !(s.dmaCh d ch).started then s
    else match s.readSpan d (s.dmaHead d ch) 32 .clean with
    | (some l, s) => (s.dmaWriteBack d ch (s.dmaHead d ch) (dmaDecode l).ctl (setBits (setBits 0 31 28 1) 23 0 done)).getD s
    | (none, s) => s
  s.dmaHalt d ch (if lost then 1 else 0) addr write

end Sys2Proof.Machine
end

