-- ==== Sys2Proof/Machine/PowerStates.lean ====
section
/-!
DEFINITION. Power states, wake, subscriber ports asleep, PON power saving, retention, OFF and thermal limits
(16_power_states.md, R657 to R691). A report earlier than its event comes with the command that decides (log 48).
-/
namespace Sys2Proof.Machine
open Reg

/-- Change the power manager's state. -/
def State.setPwr (s : State) (f : Power → Power) : State := { s with pwr := f s.pwr }
/-- Put a die in a power state. -/
def State.setPowerState (s : State) (d st : Nat) : State := s.put PWR_DIE_STAT_STATE (d0i d) st
/-- Put LAST_EVENT (Table 16.10). -/
def State.lastEvent (s : State) (d st ev : Nat) : State :=
  (s.put PWR_LAST_EVENT_STATE (d0i d) st).put PWR_LAST_EVENT_EVENT (d0i d) ev
/-- Record a wake or an aborted entry (R676, R677). -/
def State.recordWake (s : State) (d src idx : Nat) : State :=
  ((s.inc HW_WAKE_SOURCE_CNT (d0i d) 1).put HW_WAKE_SOURCE_SRC (d0i d) src).put HW_WAKE_SOURCE_INDEX (d0i d) idx
/-- A wake waits for a die. -/
def State.wakes (s : State) (d : Nat) : Bool := (Tab.get s.pwr.wake none d).isSome

/-! ## Counts (Table 16.1) -/

/-- EXIT of a state, in ac. -/
def exitCount (d st : Nat) : Nat :=
  match st with
  | 1 => 2
  | 2 => 12
  | 3 => if d < 2 then 875 else if d < 6 then 750 else 1000
  | _ => 0

/-- The break-even of a state, in ac. -/
def breakEven (d st : Nat) : Nat :=
  match st with
  | 2 => 25
  | 3 => if 2 ≤ d && d < 6 then 2500 else 3000
  | _ => 0

/-! ## Idle (R660, Table 16.2) -/

/-- Some DMA channel of a die is in RUN or STOPPING. -/
def State.dmaBusy (s : State) (d : Nat) : Bool :=
  (List.range (dmaChans d)).any (fun ch => s.dmaState d ch == dmaRun || s.dmaState d ch == dmaStopping)

/-- A packet stands in a dispatcher FIFO, a thread, the eddy or the order-hold store of a die. -/
def State.pipeBusy (s : State) (d : Nat) : Bool :=
  s.pipe.fifo.any (fun x => x.1 / 32 == d && !x.2.isEmpty) ||
  s.pipe.threads.any (fun x => x.1 / 1024 == d && x.2.isSome) ||
  !(Tab.get s.pipe.eddy [] d).isEmpty || s.pipe.hold.any (fun f => f.from_ == d)

/-- A frame stands in a MAC transmit path of a course die. -/
def State.macBusy (s : State) (d : Nat) : Bool :=
  (portsOf d).any (fun p => !(s.mac p).tx.isEmpty || (s.mac p).sending.isSome || (s.mac p).pauseTx.isSome)

/-- A table command of a course die is busy. -/
def State.tableBusy (s : State) (d : Nat) : Bool :=
  s.is TM_QOP_BUSY (onDie d) || s.is LKP_LPM_CTL_BUSY (onDie d) || s.is LKP_WR_STAT_EM_BUSY (onDie d) ||
  s.is LKP_WR_STAT_TC_BUSY (onDie d)

/-- A core of a line die is neither in SLH nor held in reset. -/
def State.coreBusy (s : State) (d : Nat) : Bool :=
  (List.range 12).any (fun n => coreDie n == d && (s.core n).run && (s.core n).slh.isNone)

/-- A look-aside ring of a line die has an owned head. -/
def State.laBusy (s : State) (d : Nat) : Bool :=
  [0, 1].any (fun q => s.is CIPH_LA_CFG_EN (onDie d) && s.is CIPH_LA_RING_EN (place d q) && s.laOwned d q)

/-- A freeze request is pending (R660). -/
def State.freezeAsked (s : State) : Bool := s.frz.pinLow || s.is FRZ_CTL_REQ d0

/-- Die d is idle (R660, Table 16.2). A mesh access is one command here, so that none is ever accepted and not yet
answered. -/
def State.idle (s : State) (d : Nat) : Bool :=
  s.reachable d && s.get HW_OPMODE_MODE d0 != 0 && s.get HW_OPMODE_MODE d0 != 7 && !s.freezeAsked && !s.dmaBusy d &&
  (if d < 2 then !s.pipeBusy d && !s.coreBusy d && !s.laBusy d && (d != s.bondHome || s.get BOND_GROUP_STAT_HELD d0 == 0)
   else if d < 6 then
     !s.pipeBusy d && (Tab.get s.pipe.delta [] d).isEmpty &&
     !s.tm.queues.any (fun x => x.1 / 2 ^ 18 == d && !x.2.pkts.isEmpty) && !s.macBusy d && !s.tableBusy d
   else s.is RSV_STAT_READY (onDie d))

/-! ## The horizon (R661, Table 16.3) -/

/-- The largest horizon. -/
def maxHorizon : Nat := 0xFFFFFF

/-- The whole ac periods of 40 ns in a time. -/
def acIn (units : Nat) : Nat := units / (40 * unitNs)

/-- The time from t to the next change of any gate of a list, at most one cycle ahead; none for a list that changes none
(R432). -/
def GateList.change (g : GateList) (t : Nat) : Option Nat :=
  let cy := g.cycle * unitNs
  let now := (g.at_ t).2.2.2
  ((g.spans.filter (fun x => x.2.2.2 != now)).map (fun x => (x.2.1 * unitNs + cy - g.phase t) % cy)).min?

/-- The ac periods to the next gate change of an enabled list, or to its pending swap (source 3); none where nothing comes. -/
def State.gateEdge (s : State) (d i : Nat) : Option Nat :=
  let g := s.gate d i
  let t := s.time.units
  if !hasGate d i || !s.is GATE_CTL_EN (place d i) then none
  else
    let edge := match g.listAt t with | some l => (l.change t).toList | none => []
    let swap := match g.pend with | some l => [l.start * unitNs - t] | none => []
    ((edge ++ swap).map acIn).min?

/-- The least deadline that a core stopped in SLH reported (source 5, R581): its wake time where it gave one, and TMR_CMP. -/
def State.slhDeadline (s : State) (n : Nat) : Option Nat :=
  match (s.core n).slh with
  | none => none
  | some xa =>
    let cmp := (s.core n).cmp.toNat
    some ((if xa = 0 then cmp else Nat.min xa.toNat cmp) - s.clk.ac)

/-- One uw or lw in 486ths of a nominal mc period: 194.4 MHz, or 38.88 MHz in XGS-PON framing (R59, R86). -/
def uwTime (xgs : Bool) : Nat := if xgs then 15625 else 3125

/-- A frame of 125 µs in nominal mc periods. -/
abbrev frameTicks : Nat := 156250

/-- When word w of a channel's upstream frame n is FILL_LEAD away, in 486ths of a nominal mc period: edge 0 of a frame is the word 41 lw
before its PSync detection, the frame tick (R86, R219, R243). -/
def State.fillTime (s : State) (c n w : Nat) : Nat :=
  let v := s.conv c
  let u := uwTime (s.xgs c)
  v.tickAt * 486 + n * frameTicks * 486 + (w - fillLead (s.xgs c)) * u - 41 * u - v.frames * frameTicks * 486

/-- The longest PSBu, in bits, of a channel's valid profiles in effect (Table 5.10). -/
def State.longPsbu (s : State) (c : Nat) : Option Nat :=
  (((List.range 4).map (fun k => s.rdEff EST_PROF_CFG (place (chanDie c) (c * 4 + k)))).filter (fun w => bits w 31 31 = 1)).map psbuBits |>.max?

/-- The word of the earliest burst that any map could ask of a channel's frame: StartTime 0, no delay, the longest PSBu (R220, R661). -/
def State.firstWord (s : State) (c psbu : Nat) : Nat :=
  let a := atChan c
  (burstPos (s.getEff PTC_EQD_V a) (signed 12 (s.getEff PTC_RSP_CFG_TRIM a)) (s.getEff PTC_RSP_CFG_RSP_TIME a) (s.upW c) 0 psbu 0).1 / s.upW c

/-- The fill points of a channel that source 1 covers (Table 16.3): of the bursts planned and not filled, and the earliest one that a map of
the next downstream frame could yield. -/
def State.fillPoints (s : State) (c : Nat) : List Nat :=
  let v := s.conv c
  (v.bursts.filter (fun b => !b.filled)).map (fun b => s.fillTime c b.frame (b.pos / b.wordBits)) ++
    (s.longPsbu c).toList.map (fun p => s.fillTime c (v.frames + 1) (s.firstWord c p))

/-- The whole ac from the latest ac edge to a time in 486ths of a nominal mc period. -/
def State.acUntil (s : State) (t : Nat) : Nat := (t - s.clk.ac * 50 * 486) / (50 * 486)

/-- The time to the next event of source k for die d, in ac, saturated; none where it does not apply (Table 16.3). -/
def State.horizonBound (s : State) (d k : Nat) : Option Nat :=
  let chans := [2 * d, 2 * d + 1]
  let b := match k with
    | 1 => if d < 2 then
        (chans.filter (fun c => 2 ≤ s.actState c && s.actState c ≤ 4 && s.is PWR_PS_STAT_TX_ON (d0i c))).flatMap
          (fun c => (s.fillPoints c).map s.acUntil)
      else []
    | 2 => if d < 2 then (chans.filter (fun c => s.get PWR_PS_STAT_PHASE (d0i c) == 1 && !s.is PWR_PS_STAT_RX_ON (d0i c))).map
        (fun c => s.acUntil (((s.conv c).tickAt + Tab.get s.pwr.psLeft 0 c * frameTicks - s.getEff PWR_PS_CFG_RX_LEAD_US (d0i c) * 1250) * 486))
      else []
    | 3 => if d < 6 && s.time.run then (List.range 64).filterMap (s.gateEdge d) else []
    | 4 => ((List.range (dmaChans d)).filter (fun ch => s.dmaState d ch == dmaPaceWait && s.getEff DMA_CFG_PACE_SRC (place d ch) == 1)).map
        (fun ch => (s.dmaCh d ch).fireAt - s.clk.ac)
    | 5 => if d < 2 then ((List.range 12).filter (fun n => coreDie n == d && (s.core n).run)).filterMap s.slhDeadline else []
    | _ => []
  b.min?.map (Nat.min maxHorizon)

/-- The sources that apply to die d, each with the time to its next event. -/
def State.horizonSources (s : State) (d : Nat) : List (Nat × Nat) :=
  [1, 2, 3, 4, 5].filterMap (fun k => (s.horizonBound d k).map (fun b => (b, k)))

/-- The horizon of die d and its source (R661): no source that applies reports later than its event, h is the least that one
reports and src the source that does; with no source that applies it is 0xFF_FFFF, of source 0. -/
def State.horizon (s : State) (d h src : Nat) : Nat × Nat :=
  match s.horizonSources d with
  | [] => (maxHorizon, 0)
  | x :: l =>
    let least := l.foldl (fun a y => if y.1 < a.1 then y else a) x
    if least.1 < h then least else (h, if (x :: l).any (fun y => y.2 == src) then src else least.2)

/-- PWR.DIE_STAT of die d on this edge (R660, R661, Table 16.5): the horizon it shows is the time of the event itself. -/
def State.dieStat (s : State) (d : Nat) : Word :=
  let h := s.horizon d maxHorizon 0
  let w := setBits (s.rd PWR_DIE_STAT (d0i d)) 28 28 (b2n (s.idle d))
  setBits (setBits w 27 24 h.2) 23 0 h.1

/-- The ac edge since which each die is idle (R662), as the power manager finds it on an ac edge. -/
def State.idleEdge (s : State) : State :=
  (List.range 8).foldl (fun (s : State) d =>
    let old := Tab.get s.pwr.idleSince none d
    let new := if !(present s.part d && s.idle d) then none else if old.isSome then old else some s.clk.ac
    s.setPwr fun p => { p with idleSince := Tab.set p.idleSince none d new }) s

/-- The ac for which die d has been idle, at most n. -/
def State.idleTime (s : State) (d n : Nat) : Nat :=
  match Tab.get s.pwr.idleSince none d with
  | none => 0
  | some t => min n (s.clk.ac - t)

/-- State st is allowed for die d (R663). An enabled channel is one whose receiver is enabled (DEDUCED, log 47). -/
def State.allowed (s : State) (d st : Nat) : Bool :=
  s.get PWR_RET_LOST_V (d0i d) == 0 &&
  (st != 3 || 2 ≤ d ||
    ([2 * d, 2 * d + 1].all (fun c =>
        !s.rxEnabled c || !s.is PWR_PS_STAT_RX_ON (d0i c)) &&
     (d != 0 || !s.is MGT_RX_CFG_EN d0 || s.get PWR_MGT_WAKE_MODE d0 != 2)))

/-- The deepest state the rule of R662 enters from the die's state. -/
def State.sleepChoice (s : State) (d h idleFor : Nat) : Option Nat :=
  [3, 2, 1].find? (fun st =>
    s.powerState d < st && st ≤ s.get PWR_DIE_CFG_MAX_STATE (d0i d) && s.allowed d st &&
    exitCount d st + s.get PWR_DIE_CFG_GUARD (d0i d) ≤ h && breakEven d st < h &&
    (st == 1 || s.get PWR_DIE_CFG_DWELL (d0i d) ≤ idleFor))

/-! ## Entry and exit (R657 to R664, R676 to R682) -/

/-- The PLLs of a die lock, or stop in DEEP (R71, Table 16.1). -/
def State.setPll (s : State) (d : Nat) (b : Bool) : State :=
  s.put CLK_STATUS_DIE_PLL d0 (putBit (s.get CLK_STATUS_DIE_PLL d0) d b)

/-- An exit starts, with its wake source recorded (R662, R676, R678). -/
def State.startExit (s : State) (d src idx : Nat) : State :=
  let st := s.powerState d
  let s := s.recordWake d src idx
  let s := if s.get PWR_LAST_EVENT_EVENT (d0i d) = 4 then s else s.lastEvent d st 2
  (s.setPwr fun p => { p with goal := Tab.set p.goal 0 d st, wake := Tab.set p.wake none d none }).setPowerState d 5 |>.setPll d true

/-- Of some registered sources, as SRC and INDEX, the one that is recorded (R676). -/
def lowestWake : List (Nat × Nat) → Option (Nat × Nat)
  | [] => none
  | x :: l => some (l.foldl (fun a y => if y.1 < a.1 || (y.1 == a.1 && y.2 < a.2) then y else a) x)

/-- The sources registered for a die on an edge: one that comes with it, one that waits, and its horizon where it is near (R662, R676). -/
def State.wakeSources (s : State) (d h : Nat) (wake : Option (Nat × Nat)) : List (Nat × Nat) :=
  let near := s.is PWR_DIE_CFG_EN (d0i d) && decide (h ≤ exitCount d (s.powerState d) + s.get PWR_DIE_CFG_GUARD (d0i d))
  (if near then [(1, 0)] else []) ++ (Tab.get s.pwr.wake none d).toList ++ wake.toList

/-- POWER_STATE_ENTRY (R661 to R663, R676, R677): a wake registered on the decision edge wins; a die in IDLE then starts its exit. -/
def execPowerStateEntry (d : Die) (h : BitVec 24) (hsrc : Fin 16) (idleFor : Nat) (wake : Option (Fin 16 × BitVec 8))
    (s : State) : Out := s.acEvent fun s =>
  let d := d.val
  let a := d0i d
  let st := s.powerState d
  let h := (s.horizon d h.toNat hsrc.val).1
  let wake := wake.map (fun w => (w.1.val, w.2.toNat))
  let asks := if st = 1 then lowestWake (s.wakeSources d h wake) else none
  match asks with
  | some w => s.startExit d w.1 w.2
  | none =>
    if !s.is PWR_DIE_CFG_EN a || !(st = 0 || st = 1) || !s.idle d || s.wakes d then s
    else match s.sleepChoice d h (s.idleTime d idleFor) with
    | none => s
    | some t =>
      match wake with
      | some (src, idx) => ((s.recordWake d src idx).lastEvent d t 3).count PWR_CNT_ABORT a
      | none => ((s.setPwr fun p => { p with goal := Tab.set p.goal 0 d t }).setPowerState d 4).bwSlept d

/-- The links of a die. -/
def linksOf (p : Part) (d : Nat) : List Nat :=
  (List.range 25).filter (fun l => linkPresent p l && (linkLow l == d || linkHigh l == d))

/-- The links of a die are at electrical idle (Table 16.1). -/
def State.idleLinks (s : State) (d : Nat) : State :=
  (linksOf s.part d).foldl (fun (s : State) l => (s.dropLanes l).putLink DLINK_STATUS_LOCKED l 0) s

/-- The pattern group of a die takes effect at an entry to SLEEP or DEEP (R671). -/
def State.patEntry (s : State) (d : Nat) : State :=
  match Tab.get s.pwr.patPend none d with
  | none => s
  | some l =>
    let s := s.setPwr fun p => { p with patPend := Tab.set p.patPend none d none }
    (List.range 16).foldl (fun (s : State) i =>
      (s.wrEff PWR_PAT_DATA (d0i (d * 16 + i)) (l.getD i 0)).wrEff PWR_PAT_MASK (d0i (d * 16 + i)) (l.getD (16 + i) 0)) s

/-- POWER_STATE_EXIT (R662, R676, R678): a horizon near, or a waiting source; HORIZON has the lowest code. A registered
source wakes a die whatever EN holds (DEDUCED, log 47). The PLLs of a die that leaves DEEP lock within its exit count, before
its links relock (Table 16.1). -/
def execPowerStateExit (d : Die) (h : BitVec 24) (hsrc : Fin 16) (s : State) : Out := s.acEvent fun s =>
  let d := d.val
  let st := s.powerState d
  let h := (s.horizon d h.toNat hsrc.val).1
  if !(1 ≤ st && st ≤ 3) || !s.hw.railsUp then s
  else match lowestWake (s.wakeSources d h none) with
    | none => s
    | some w => s.startExit d w.1 w.2

/-- The retention banks of a die (Table 16.11). -/
def bankMask (d : Nat) : Nat := if d < 6 then 0xFF else 7

/-- The blocks of a retention bank, by CODE (Table 16.11, Table 19.3). -/
def bankBlocks (d b : Nat) : List Nat :=
  if 6 ≤ d then
    match b with
    | 0 => [0x1A] | 1 => [0x1E] | 2 => [0x1F, 0x20] | _ => []
  else
    match b with
    | 0 => [0x0D, 0x0F]
    | 1 => [0x0C]
    | 2 => if d < 2 then [0x0E] else [0x0E, 0x11]
    | 3 => if d < 2 then [0x12, 0x15] else [0x12, 0x13, 0x14, 0x15]
    | 4 => if d < 2 then [0x1C] else [0x16, 0x06]
    | 5 => [0x18, 0x19]
    | 6 => if d = 0 then [0x1E, 0x1D] else [0x1E]
    | 7 => if d < 2 then [0x0B, 0x1F, 0x20] else [0x1F, 0x20]
    | _ => []

/-- What a bank stores of its registers: their words in the order of their keys, stored and effective (R681, log 114). -/
def State.bankImage (s : State) (d b : Nat) : List Byte :=
  let mine (m : Tab Word) : List Byte :=
    (m.filter (fun e => e.1 / 2 ^ 24 % 16 == d && (bankBlocks d b).contains (e.1 / 2 ^ 36))).flatMap
      (fun e => beBytes 8 e.1 ++ beBytes 4 e.2.toNat)
  mine s.regs ++ mine s.eff

/-- Every bank of a die is stored with its CRC-32 at an entry to DEEP (R681). -/
def State.storeBanks (s : State) (d : Nat) : State :=
  (bitList 8 (bankMask d)).foldl (fun (s : State) b =>
    s.setPwr fun p => { p with banks := Tab.set p.banks 0 (d * 8 + b) (Tile.crcIeee (s.bankImage d b)) }) s

/-- The banks of a die whose contents, read back, do not have the CRC-32 they were stored with (R681): the CRC is the one found where
retention changed the bank, else the stored one. -/
def State.badBanks (s : State) (d : Nat) (read : List (Fin 8 × Word)) : Nat :=
  (bitList 8 (bankMask d)).foldl (fun m b =>
    match read.find? (fun x => x.1.val == b) with
    | none => m
    | some x => if x.2 = Tab.get s.pwr.banks 0 (d * 8 + b) then m else m + 2 ^ b) 0

/-- POWER_ENTRY_COMPLETE (R657, R664, R678, R681): an entry runs to its end whatever wakes the die meanwhile. -/
def execPowerEntryComplete (d : Die) (s : State) : Out := s.acEvent fun s =>
  let d := d.val
  if s.powerState d ≠ 4 || !s.hw.railsUp then s
  else
    let t := Tab.get s.pwr.goal 0 d
    let s := (s.setPowerState d t).lastEvent d t (if s.wakes d then 4 else 1)
    let s := if t = 2 then s.count PWR_CNT_SLEEP (d0i d) else if t = 3 then s.count PWR_CNT_DEEP (d0i d) else s
    let s := if 2 ≤ t then s.patEntry d else s
    if t = 3 then ((s.storeBanks d).idleLinks d).setPll d false else s

/-- Every register of a die in some blocks reads its Reset value, in its stored and in its effective word (R682). -/
def State.resetBlocks (s : State) (d : Nat) (blocks : List Nat) : State :=
  let keep (e : Nat × Word) : Bool := !(e.1 / 2 ^ 24 % 16 == d && blocks.contains (e.1 / 2 ^ 36))
  { s with regs := s.regs.filter keep, eff := s.eff.filter keep }

/-- Keep the entries of a table that a test of their key accepts. -/
def Tab.keep {α : Type} (m : Tab α) (p : Nat → Bool) : Tab α := m.filter (fun e => p e.1)

/-- What a lost bank of TM, WEIR, SLU and GATE, or of TM and GATE, holds beside registers: meters, virtual times, weir
balances, cursors and gate lists. The state of queues lies in SRAM. -/
def Tm.loseDie (m : Tm) (d : Nat) : Tm :=
  { m with gates := m.gates.keep (fun k => k / 64 != d), slu := if d < 2 then m.slu else m.slu.keep (fun k => k / 2 ^ 14 != d)
           cls := m.cls.keep (fun k => portDie (k / 8) != d), bal := m.bal.keep (fun w => !(weirsOf d).contains w)
           cursor := m.cursor.keep (fun p => portDie p != d), chosen := m.chosen.keep (fun p => portDie p != d)
           upV := m.upV.keep (fun k => k / 1024 != d) }

/-- What a lost MAC bank holds beside registers: all but the wake stores, which lie in the port island. -/
def Macs.loseDie (m : Macs) (d : Nat) : Macs :=
  { mac := m.mac.map (fun x => if x.1 < 64 && portDie x.1 == d then (x.1, { store := x.2.store }) else x)
    mdio := m.mdio.keep (fun k => k / 4 != d), cage := m.cage.keep (· != d), led := m.led.keep (· != d) }

/-- What a lost CIPH bank holds beside registers and key slots. -/
def Ciph.loseDie (m : Ciph) (d : Nat) : Ciph :=
  { m with latest := m.latest.keep (· != d), held := m.held.keep (· != d), pn := m.pn.keep (fun k => k / 2048 != d), ctx := m.ctx.keep (fun k => k / 16 != d)
           waiting := m.waiting.keep (fun k => k / 2 != d), bulk := m.bulk.keep (· != d)
           omci := m.omci.keep (fun c => chanDie c != d) }

/-- What a lost BOND bank of die d holds beside registers: the reorder engine, which stands on the home die (R253). The skew buffers
lie in the port islands of their own dies. -/
def State.loseBond (s : State) (d home : Nat) : State :=
  if d = home then { s with bond := { inbox := s.bond.inbox, skew := s.bond.skew, coming := s.bond.coming } } else s

/-- A lost bank (R681, R682): its fields read their Reset values, and the state beside them that is no SRAM array is as at cold
reset. A lost KSLOT bank erases every slot of the die; a lost RSV bank drops the spare maps. -/
def State.loseBank (s : State) (d b : Nat) : State :=
  let home := s.bondHome
  let s := s.resetBlocks d (bankBlocks d b)
  if 6 ≤ d then
    if b = 0 then { s with dram := { s.dram with guard := Tab.set s.dram.guard {} (d * 2) {} } }
    else if b = 1 then { s with dma := s.dma.keep (fun k => k / 32 != d) }
    else { s with pmc := { s.pmc with held := s.pmc.held.keep (fun k => k / 256 != d), armed := s.pmc.armed.keep (· != d) } }
  else match b with
  | 0 => { s with pipe := { s.pipe with lastSrc := s.pipe.lastSrc.keep (· != d), lastTile := s.pipe.lastTile.keep (· != d) } }
  | 1 => { s with pipe := { s.pipe with check := s.pipe.check.keep (· != d) } }
  | 2 => { s with pipe := { s.pipe with
      emBusy := s.pipe.emBusy.keep (· != d), tcBusy := s.pipe.tcBusy.keep (· != d), lpmBusy := s.pipe.lpmBusy.keep (· != d) } }
  | 3 => { s with tm := s.tm.loseDie d }
  | 4 => if d < 2 then { s with ctl := { s.ctl with core := s.ctl.core.keep (fun n => coreDie n != d)
                                                    uart := if d = 0 then {} else s.ctl.uart } } |>.gpioSense
    else { s with macs := s.macs.loseDie d }
  | 5 =>
    let slots := (allSlots s.part).filter (fun k => k / 2 ^ 14 == d)
    let s := slots.foldl State.eraseKey s
    { s with ciph := s.ciph.loseDie d }
  | 6 =>
    let s := { s with dma := s.dma.keep (fun k => k / 32 != d) }
    if d = 0 then { s with ctl := { s.ctl with runStack := [] } } else s
  | _ =>
    let s := { s with pmc := { s.pmc with held := s.pmc.held.keep (fun k => k / 256 != d), armed := s.pmc.armed.keep (· != d) } }
    if d < 2 then s.loseBond d home else s

/-- A link that does not reproduce its latency at the end of a DEEP exit is treated as down (R144, R658): its downs count at both ends, and
its lanes hunt again. -/
def State.failLink (s : State) (l : Nat) : State :=
  if Tab.get s.lanes.down false l then s
  else
    let s := s.incSat DLINK_STATUS_DOWN_CNT (place (linkLow l) l) 1 0xFF
    let s := s.incSat DLINK_STATUS_DOWN_CNT (place (linkHigh l) l) 1 0xFF
    let s := s.dropLanes l
    { s with lanes := { s.lanes with down := Tab.set s.lanes.down false l true } }

/-- What is held at a router wakes every die of its route that it waits for (R37, R665). -/
def State.wakeHeld (s : State) : State := s.mesh.held.foldl (fun (s : State) x => s.wakeRoute x.2.source x.1) s

/-- POWER_EXIT_COMPLETE (R658, R659, R667, R679, R681): after DEEP the banks are checked, and every link whose other end runs must
have locked again; else the die stays in EXITING. The replicas of network time are one counter here (R73). -/
def execPowerExitComplete (d : Die) (read : List (Fin 8 × Word)) (s : State) : Out := s.acEvent fun s =>
  let d := d.val
  if s.powerState d ≠ 5 || !s.hw.railsUp then s
  else
    let deep := Tab.get s.pwr.goal 0 d == 3
    let lost := if deep then s.badBanks d read else 0
    let s := (bitList 8 lost).foldl (fun (s : State) b => s.loseBank d b) s
    let s := s.put PWR_RET_LOST_V (d0i d) (s.get PWR_RET_LOST_V (d0i d) ||| lost)
    let s := if lost ≠ 0 then s.lastEvent d 3 5 else s
    let bad := if deep then (linksOf s.part d).filter (fun l =>
        let o := if linkLow l = d then linkHigh l else linkLow l
        !s.routerOff o && !s.linkUp l && !s.fenced o) else []
    if bad ≠ [] then (bad.foldl State.failLink s).lastEvent d 3 6
    else
      let s := s.setPwr fun p => { p with goal := Tab.set p.goal 0 d 0, wake := Tab.set p.wake none d none }
      ((s.setPowerState d 0).wakeHeld).sendLevels d

/-- RET_LOST_CLEAR (R682). -/
def execRetLostClear (d : Die) (v : Word) (s : State) : Out := s.event fun s => s.fwWrite PWR_RET_LOST (d0i d.val) v

/-- DIE_WAKE_WRITE (R623, R676). -/
def execDieWakeWrite (lv : Level) (d : Die) (v : Word) (s : State) : Out := s.event fun s =>
  if lv == .monitor && bits v 0 0 = 1 then s.wakeReq d.val 0xA 0 else s

/-- WAKE_N_ASSERT (R633, R685): it also ends the wait after three rail faults. -/
def execWakeNAssert (s : State) : Out := s.acEvent fun s =>
  if s.hw.off then s
  else
    let s := if s.railsIdle && !s.hw.pinHold && decide (3 ≤ s.hw.faults) then s.railStart else s
    s.wakeAll 8

/-! ## Subscriber ports asleep (R668 to R671) -/

/-- PORT_WAKE_EVENT (R668, R671, Table 3.9): of a port whose lane runs. A frame wakes by the pattern alone, whose judgement needs its first 64
bytes; its start came before. -/
def execPortWakeEvent (m : MacPort) (ev : WakeEvent) (s : State) : Out := s.acEvent fun s =>
  if !s.laneOn m then s
  else match ev with
    | .start | .lpiEnd | .link => s.linkWake m
    | .frame l => if s.wakeMode m = 1 && s.patternMatch m.die l then s.wakeReq m.die 4 m.key else s

/-- WAKE_STORE_RELEASE (R669): in arrival order, once the die is in RUN; the management port's go to the ring in effect then. -/
def execWakeStoreRelease (m : MacPort) (s : State) : Out := s.event fun s =>
  let x := s.mac m.key
  if s.powerState m.die ≠ 0 then s
  else x.store.foldl (fun (s : State) f => s.deliver m (s.rd MGT_RX_CFG d0) f) (s.setMac m.key { x with store := [] })

/-- The shadow copies of the pattern group of a die: PAT_DATA, then PAT_MASK (R671). -/
def State.patShadow (s : State) (d : Nat) : List Word :=
  (List.range 16).map (fun i => s.rd PWR_PAT_DATA (d0i (d * 16 + i))) ++
  (List.range 16).map (fun i => s.rd PWR_PAT_MASK (d0i (d * 16 + i)))

/-- PAT_COMMIT (R671, R743): the set of the latest GO waits for the next entry. -/
def execPatCommit (lv : Level) (d : Die) (v : Word) (s : State) : Out := s.event fun s =>
  if lv == .monitor && bits v 0 0 = 1 then
    s.setPwr fun p => { p with patPend := Tab.set p.patPend none d.val (some (s.patShadow d.val)) }
  else s

/-! ## PON power saving (R672 to R675) -/

/-- PS_STAT.PHASE of a channel (Table 16.8): 0 active, 1 low-power, 2 aware, 3 watch. -/
def State.psPhase (s : State) (c : Nat) : Nat := s.get PWR_PS_STAT_PHASE (d0i c)

/-- PS_COMMIT (R672, R743): the set of the latest GO waits for a frame tick of the active phase. -/
def execPsCommit (lv : Level) (c : Chan) (v : Word) (s : State) : Out := s.event fun s =>
  let set := (s.rd PWR_PS_CFG (d0i c.val), s.rd PWR_PS_TMR (d0i c.val))
  if lv == .monitor && bits v 0 0 = 1 then s.setPwr fun p => { p with psPend := Tab.set p.psPend none c.val (some set) } else s

/-- PS_ENTER (R673). -/
def execPsEnter (lv : Level) (c : Chan) (v : Word) (s : State) : Out := s.event fun s =>
  if lv == .monitor && bits v 31 31 = 1 then s.setPwr fun p => { p with psEnter := Tab.set p.psEnter false c.val true } else s

/-- Put a phase and the frames that it lasts. -/
def State.setPhase (s : State) (c ph n : Nat) : State :=
  (s.put PWR_PS_STAT_PHASE (d0i c) ph).setPwr fun p => { p with psLeft := Tab.set p.psLeft 0 c n }

/-- The low-power phase starts (Table 16.7): the transmitter is off; the receiver stays on in doze only. -/
def State.lowPower (s : State) (c : Nat) : State :=
  let m := s.getEff PWR_PS_CFG_MODE (d0i c)
  let lp := s.getEff PWR_PS_TMR_LP_FR (d0i c)
  let s := s.setPhase c 1 (if m = 3 then lp - s.getEff PWR_PS_CFG_WATCH_FR (d0i c) else lp)
  let s := s.put PWR_PS_STAT_TX_ON (d0i c) 0
  if m = 1 then s else s.rxPowerDown c

/-- Forget the ends that wait for a channel. -/
def State.dropEnds (s : State) (c : Nat) : State :=
  (s.setConv c { s.conv c with fwi := false }).setPwr fun p =>
    { p with lwi := Tab.set p.lwi false c false, rxFail := Tab.set p.rxFail false c false }

/-- What a channel's frame tick does to its power saving (R672, R673): a commit that waits applies while the phase is active,
an armed entry is judged, which no indication from before it ends, and a phase under way has one frame less. -/
def State.psTick (s : State) (c : Nat) : State :=
  let a := d0i c
  let active := s.psPhase c == 0
  let s := if !active then
      s.setPwr fun p => { p with psLeft := Tab.mod p.psLeft 0 c (· - 1) } else s
  let s := match Tab.get s.pwr.psPend none c with
    | some (cfg, tmr) =>
      if active then
        ((s.wrEff PWR_PS_CFG a cfg).wrEff PWR_PS_TMR a tmr).setPwr fun p => { p with psPend := Tab.set p.psPend none c none }
      else s
    | none => s
  if !Tab.get s.pwr.psEnter false c then s
  else
    let s := s.setPwr fun p => { p with psEnter := Tab.set p.psEnter false c false }
    if active && s.getEff PWR_PS_CFG_MODE a != 0 && s.actState c == 4 then (s.dropEnds c).lowPower c else s.put PWR_PS_STAT_REJ a 1

/-- PS_PHASE_CHANGE (R673, Table 16.7): the frames of the phase have passed. -/
def execPsPhaseChange (c : Chan) (s : State) : Out := s.event fun s =>
  let c := c.val
  let ph := s.psPhase c
  if ph = 0 || Tab.get s.pwr.psLeft 0 c ≠ 0 then s
  else if ph ≠ 1 then s.lowPower c
  else if s.getEff PWR_PS_CFG_MODE (d0i c) = 3 then
    (if s.is PWR_PS_STAT_RX_ON (d0i c) then s else s.rxPowerUp c).setPhase c 3 (s.getEff PWR_PS_CFG_WATCH_FR (d0i c))
  else
    let s := (if s.is PWR_PS_STAT_RX_ON (d0i c) then s else s.rxPowerUp c).put PWR_PS_STAT_TX_ON (d0i c) 1
    s.setPhase c 2 (s.getEff PWR_PS_TMR_AWARE_FR (d0i c))

/-- PS_RECEIVER_POWER_UP (R674): RX_LEAD_US before an aware phase or a watch window. -/
def execPsReceiverPowerUp (c : Chan) (s : State) : Out := s.event fun s =>
  if s.psPhase c.val = 1 && !s.is PWR_PS_STAT_RX_ON (d0i c.val) then s.rxPowerUp c.val else s

/-- The phases end for some causes, given as bits of PS_STAT (R675): transmitter and receiver are powered at once, and the
channel's line die wakes (R676). -/
def State.endPhases (s : State) (c causes : Nat) : State :=
  let a := d0i c
  let s := if s.is PWR_PS_STAT_RX_ON a then s else s.rxPowerUp c
  let s := (s.put PWR_PS_STAT_TX_ON a 1).setPhase c 0 0
  let s := s.wr PWR_PS_STAT a (s.rd PWR_PS_STAT a ||| BitVec.ofNat 32 (causes ||| 8))
  s.wakeReq (chanDie c) 6 c

/-- PS_LEAVE (R675). -/
def execPsLeave (lv : Level) (c : Chan) (v : Word) (s : State) : Out := s.event fun s =>
  if lv == .monitor && bits v 30 30 = 1 && s.psPhase c.val != 0 then s.endPhases c.val (2 ^ 4) else s

/-- PS_END (R675): on FWI, on a local wake, or on lost sync. -/
def execPsEnd (c : Chan) (s : State) : Out := s.event fun s =>
  let c := c.val
  let causes := b2n (s.conv c).fwi * 2 ^ 7 + b2n (Tab.get s.pwr.lwi false c) * 2 ^ 6 + b2n (Tab.get s.pwr.rxFail false c) * 2 ^ 5
  let on := s.psPhase c != 0
  let s := s.dropEnds c
  if causes = 0 || !on then s else s.endPhases c causes

/-! ## OFF and thermal limits (R683 to R690) -/

/-- OFF_ENTRY (R623, R683). -/
def execOffEntry (lv : Level) (v : Word) (s : State) : Out := s.event fun s =>
  if lv != .monitor || s.hw.off || bits v 31 31 = 0 || bits v 15 0 ≠ 0x5AF0 then s
  else (s.put PWR_OFF_CTL_TMR_EN d0 (bits v 30 30)).enterOff false

/-- The cold start out of OFF (R684), with the wake recorded for every present die (R676). -/
def State.offStart (s : State) (c : ResetCause) (src : Nat) : State :=
  let s := s.coldStart c
  if src = 0 then s
  else (List.range 8).foldl (fun (s : State) d => if present s.part d then s.recordWake d src 0 else s) s

/-- The cycles of the 32.768 kHz clock that a thermal OFF counts (R690). -/
abbrev thermalCount : Nat := 327680

/-- OFF_WAKE (R684, R690): WAKE_N or RESET_N has been low on n consecutive edges of the 32.768 kHz clock, or n of its cycles have passed
since OFF was entered. It takes 3 such edges, or the count of OFF_TMR; under a thermal OFF only RESET_N ends it. -/
def execOffWake (cause : Fin 3) (n : Nat) (s : State) : Out := s.acEvent fun s =>
  if !s.hw.off || s.hw.railDown.isSome then s
  else if cause.val = 1 then
    (if 3 ≤ n then (s.setHw fun h => { h with resetLow := true, resetTaken := true }).offStart .pinCold 0 else s)
  else if s.hw.thermalOff then s
  else if cause.val = 0 then (if 3 ≤ n then s.offStart .offWake 8 else s)
  else if s.is PWR_OFF_CTL_TMR_EN d0 && decide (s.get PWR_OFF_TMR_V d0 ≤ n) then s.offStart .offWake 0xC
  else s

/-- THERMAL_OFF_TIMER (R690): n cycles of the 32.768 kHz clock have passed since a thermal OFF was entered; at 327,680 the cold start runs,
which judges T0 of line die 0 before it releases a core. -/
def execThermalOffTimer (n : Nat) (s : State) : Out := s.acEvent fun s =>
  if s.hw.off && s.hw.thermalOff && s.hw.railDown.isNone && decide (thermalCount ≤ n) then s.offStart .thermal 0 else s

/-- THROTTLE rises (R686, R688): AVS lowers the voltage, and does not raise it above that value while THROTTLE is not 0. -/
def State.throttleUp (s : State) : State :=
  let n := s.get PWR_THERM_STAT_THROTTLE d0
  if 4 ≤ n then s
  else
    let s := s.put PWR_THERM_STAT_THROTTLE d0 (n + 1)
    if !s.hw.avs.run then s
    else
      let s := s.avsLower
      s.setHw fun h => { h with avs := { h.avs with cap := some s.hw.avs.v } }

/-- THERMAL_COMPARE (R686, R688 to R690): 130, 135, 150 and 155 °C in units of 0.125 °C. -/
def execThermalCompare (s : State) : Out := s.acEvent fun s =>
  if s.hw.off then s
  else
    let ts := s.allTemps
    let n := s.get PWR_THERM_STAT_THROTTLE d0
    let s := if ts.any (fun t => decide (1080 < t)) then s.throttleUp
      else if ts.all (fun t => decide (t < 1040)) && n != 0 then s.put PWR_THERM_STAT_THROTTLE d0 (n - 1) else s
    let s := s.heat.setHw fun h => { h with hot155 := if ts.any (fun t => decide (1240 ≤ t)) then h.hot155 + 1 else 0 }
    if 2 ≤ s.hw.hot155 then s.enterOff true else s

end Sys2Proof.Machine
end

