-- ==== Sys2Proof/Machine/FrameTick.lean ====
section
/-!
DEFINITION. The frame tick of a channel as a whole (R160, R205 to R213, R250, R672, R673, R760), defects that other events
raise or clear (R174 to R178), and the end of the hold after a receiver's power-up (R185).
-/
namespace Sys2Proof.Machine
open Reg

/-- The fields of PTC and EST that act at the next frame tick (R250). -/
def tickRegs : List Nat :=
  [PTC_ACT_CTL, PTC_ACT_IEN, PTC_ACT_TMR, PTC_ONU_ID, PTC_SN_CFG, PTC_PLOAMD_IEN, PTC_OMCI_CFG, PTC_RX_CFG, EST_BEN_CFG, EST_GRANT_IEN]

/-- Raw LODS of a channel. -/
def State.rawLods (s : State) (c : Nat) : Bool := bitOf (s.get PFR_DEF_RAW_V (atChan c)) 2

/-- Act on a change of raw LODS against its earlier value (R179, R207). -/
def State.lodsChange (s : State) (c : Nat) (was : Bool) : State :=
  if !was && s.rawLods c then s.lodsRise c else if was && !s.rawLods c then s.lodsFall c else s

/-- The hardware transitions of a tick (Table 5.3, R211): with EN = 0 the channel returns to O1.1. -/
def State.actTick (s : State) (c : Nat) (was : Bool) : State :=
  let a := atChan c
  let st := s.actState c
  if !s.isEff PTC_ACT_CTL_EN a then (if st = 0 || st = 6 then s else s.setAct c 0)
  else if st = 0 then
    if (s.framer c).sync == .sync && s.get HW_OPMODE_MODE d0 != 1 then (s.setAct c 1).put PTC_ACT_STAT_O12_ENTRY a 1 else s
  else s.lodsChange c was

/-- The convergence state of a new frame: TO1 counts in O2-3 and O4 and TO2 in O6 (R212), map parsing and delineation begin
anew (R226, R227, R235, R248), while the words of the frame before are still on their way (R751), the totals of the upstream
frame clear (R241), and bursts that are past with their TX_BEN are gone. -/
def State.convTick (s : State) (c : Nat) (wasSync : Bool) : State :=
  let v := s.conv c
  let st := s.actState c
  s.setConv c { v with
    to1 := if st = 2 || st = 3 then v.to1 + 1 else v.to1
    to2 := if st = 5 then v.to2 + 1 else v.to2
    frames := v.frames + 1, tickAt := s.ticks, seen := false, broken := false, joined := false, full := false, nBursts := 0, nAllocs := 0
    hecLost := false, next := none, syncPrev := wasSync, hecLostPrev := v.hecLost, nextPrev := v.next
    bursts := v.bursts.filter (fun b =>
      !(b.launched && decide (fillLead (s.xgs c) + b.words + b.lag ≤ b.age) && decide (b.frame < v.frames))) }

/-- An armed skew capture is lost with SYNC (R263). -/
def State.skewTick (s : State) (c : Nat) (was : Bool) : State :=
  if was && (s.framer c).sync != .sync then s.skewLeave c else s

/-- FRAME_TICK (R160 to R171, R205 to R213, R250, R672, R673, R760). -/
def execFrameTick (c : Chan) (f : FrameRx) (s : State) : Out := s.event fun s =>
  let c := c.val
  if !chanExists s.part c then s
  else
    let lods := s.rawLods c
    let sync := (s.framer c).sync == .sync
    let s := if s.rxEnabled c then s.framerTick c f else s
    let s := s.commitAll (tickRegs.map (fun r => (r, atChan c)))
    let s := ((s.convTick c sync).applyCommits c).actTick c lods
    (s.psTick c).skewTick c sync

/-- RECEIVER_POWER_DOWN (R184, R263). -/
def execReceiverPowerDown (c : Chan) (s : State) : Out := s.event fun s =>
  if chanExists s.part c.val then s.rxPowerDown c.val else s

/-! ## Defects (R174 to R178) -/

/-- The criterion that raises defect k (Table 4.5); its counts of lw are the sender's. SF and SD are decided at window ends. -/
def State.raises (s : State) (c k : Nat) : Bool :=
  let a := atChan c
  match k with
  | 0 => !s.is LANE_PRX_STAT_SD a
  | 1 => s.is LANE_PRX_STAT_SD a && !s.is LANE_PRX_STAT_CDR_LOCK a
  | 2 => (s.framer c).sync != .sync
  | 3 => decide (s.getEff PFR_UCW_CFG_UCW_SET a ≤ (s.framer c).badRun)
  | _ => false

/-- The criterion that clears defect k (Table 4.5). -/
def State.clears (s : State) (c k : Nat) : Bool :=
  let a := atChan c
  match k with
  | 0 => s.is LANE_PRX_STAT_SD a
  | 1 => s.is LANE_PRX_STAT_CDR_LOCK a
  | 2 => (s.framer c).sync == .sync
  | 3 => decide (s.getEff PFR_UCW_CFG_UCW_CLR a ≤ (s.framer c).goodRun)
  | _ => false

/-- DEFECT_RAISE (R174 to R178). -/
def execDefectRaise (c : Chan) (k : Fin 6) (s : State) : Out := s.event fun s =>
  let was := s.rawLods c.val
  if s.raises c.val k.val then (s.setDefect c.val k.val true).lodsChange c.val was else s

/-- DEFECT_CLEAR (R174 to R178). -/
def execDefectClear (c : Chan) (k : Fin 6) (s : State) : Out := s.event fun s =>
  let was := s.rawLods c.val
  if s.clears c.val k.val then (s.setDefect c.val k.val false).lodsChange c.val was else s

/-- WAKE_GRACE_END (R185, R675): the hold ends when the framer is in SYNC or WAKE_GRACE ticks have passed; LODS then follows
its criterion, and a channel that saves power without having found SYNC ends its phases. -/
def execWakeGraceEnd (c : Chan) (s : State) : Out := s.event fun s =>
  let c := c.val
  let f := s.framer c
  if !f.held || f.rxDown || !(f.sync == .sync || decide (s.getEff PFR_SYNC_CFG_WAKE_GRACE (atChan c) ≤ f.grace)) then s
  else
    let was := s.rawLods c
    let ok := f.sync == .sync
    let s := s.endHold c
    let s := if !ok && !was then s.countFrm c 0 fun b => { b with lods := satAdd max16 b.lods 1 } else s
    let s := (s.setDefect c 2 (!ok)).lodsChange c was
    let s := if !ok && s.psPhase c != 0 then s.setPwr fun p => { p with rxFail := Tab.set p.rxFail false c true } else s
    s.showFramer c

end Sys2Proof.Machine
end

