-- ==== Sys2Proof/Machine/Freeze.lean ====
section
/-!
DEFINITION. Committed steps of network time (R80 to R82, R88), and freeze, inspect chains and thaw (R94 to R112). What a
freeze stops is in State.running: a stoppable domain's event does not come about while the part is stopped (R97, R99, R103).
-/
namespace Sys2Proof.Machine
open Reg

/-- The channels of the part. -/
def chans : List Nat := [0, 1, 2, 3]

/-- TIME_COMMIT_APPLY (R80 to R82): the pending set takes effect; a step sets STEPPED, and ends PM seconds with TIMEBASE = 0
(R195) and bandwidth windows (R705). Gate lists are judged against the new time (R433). -/
def execTimeCommitApply (s : State) : Out := s.event fun s =>
  match s.time.pend with
  | none => s
  | some a =>
    let s := ({ s with time := { s.time with pend := none } }.wrEff TIME_INCR d0 a.incr).applyAdj a
    if a.op = 0 || 3 ≤ a.op then s
    else
      let s := s.put TIME_STATUS_STEPPED d0 1
      let s := chans.foldl (fun (s : State) c => if s.isEff PFR_PM_CFG_TIMEBASE (atChan c) then s else s.pmStep c) s
      s.bwStep

/-! ## Freeze (R94 to R103) -/

/-- A freeze request that meets a die outside RUN wakes it (R680). -/
def State.freezeWakes (s : State) : State := if s.freezeAsked then s.wakeAll 0xB else s

/-- FREEZE_N_CHANGE (R94, R680). -/
def execFreezeNChange (low : Bool) (s : State) : Out := s.acEvent fun s =>
  { s with frz := { s.frz with pinLow := low } }.freezeWakes

/-- FRZ_CTL_WRITE (R94, R680): REQ is held in ac, where the TAP writes it while every other domain is stopped. -/
def execFrzCtlWrite (req : Bool) (s : State) : Out := s.acEvent fun s => (s.put FRZ_CTL_REQ d0 (b2n req)).freezeWakes

/-- SYNCHRONISED_FREEZE (R48, R50, R51, R95, R680): presented once every die is in RUN; in COLD, from which no transition leads
to INSPECT, a request waits. From here loss of lock is not judged
(R765), and TX_BEN is low with laser disable asserted (R131), which cuts and loses a burst in progress (R53). -/
def execSynchronisedFreeze (s : State) : Out := s.acEvent fun s =>
  if s.frz.phase != .running || !s.hw.railsUp || !s.freezeAsked || !(List.range 8).all (fun d => !s.reachable d || s.powerState d == 0) then s
  else
    let s := chans.foldl (fun (s : State) c => s.cutBursts c) { s with frz := { s.frz with phase := .freezing } }
    let s := ((s.put FRZ_STATUS_FROZEN d0 1).put FRZ_STATUS_SRC_PIN d0 (b2n s.frz.pinLow)).put FRZ_STATUS_SRC_REQ d0 (s.get FRZ_CTL_REQ d0)
    (s.inc FRZ_STATUS_FREEZE_CNT d0 1).evalMode

/-- The present, unfenced dies as a mask. -/
def State.dieMask (s : State) : Nat := (List.range 8).foldl (fun m d => m + b2n (s.reachable d) * 2 ^ d) 0

/-- FREEZE_EDGE_F (R96 to R98, R102): every stoppable domain of every die has stopped. -/
def execFreezeEdgeF (s : State) : Out := s.event fun s =>
  if s.frz.phase != .freezing then s
  else { s with frz := { s.frz with phase := .stopped } }.put FRZ_STATUS_STOPPED d0 s.dieMask

/-! ## Inspect chains (R104 to R108) -/

/-- Die d has the chain of a domain and instance (R104, Tables 2.1, 2.8): cc, lw and uw on line dies, rc on reservoir dies, sw by
port, with 0 for the management port's on line die 0. -/
def chainExists (p : Part) (d m i : Nat) : Bool :=
  present p d && (match m with
    | 0 | 6 => i == 0
    | 1 => d < 2 && i == 0
    | 2 | 3 => d < 2 && chanExists p i && chanDie i == d
    | 4 => if d = 0 then i == 0 else 2 ≤ d && d ≤ 5 && i < 64 && portDie i == d
    | 5 => 6 ≤ d && i == 0
    | _ => false)

/-- The selected chain: its key and its length (R104). A chain that does not exist has length 0 and does not shift (DESIGN
CHOICE, log 99: the rule gives it no length). -/
def State.chainSel (s : State) : Nat × Nat :=
  let d := s.get FRZ_CHAIN_SEL_DIE d0
  let m := s.get FRZ_CHAIN_SEL_DOMAIN d0
  let i := s.get FRZ_CHAIN_SEL_INDEX d0
  ((d * 8 + m) * 2 ^ 16 + i, if chainExists s.part d m i then Config.chainLen d m i else 0)

/-- CHAIN_LEN, CHAIN_POS and CHAIN_DIRTY show the chains (R104, R108). -/
def State.showChain (s : State) : State :=
  let (k, n) := s.chainSel
  let s := (s.put FRZ_CHAIN_LEN_V d0 n).put FRZ_CHAIN_POS_V d0 (Tab.get s.frz.chains 0 k)
  s.put FRZ_STATUS_CHAIN_DIRTY d0 (b2n (s.frz.chains.any (fun x => x.2 != 0)))

/-- CHAIN_SHIFT (R104, R107, R108): by the TAP, while the domains are stopped and a debug level is granted. A chain is
circular, so that a whole number of rotations leaves it as it was; at any other position its flip-flops are disturbed
(State.disturbed). Which flip-flop a bit that comes out is, is the implementation's: the TAP is answered a free value (log 2). -/
def execChainShift (n : Nat) (s : State) : Out := s.acEvent fun s =>
  let (k, len) := s.chainSel
  if s.frz.phase != .stopped || s.hw.dbg.level = 0 || len = 0 then s
  else
    let (w, s) := s.draw Config.freeReserved
    let s := s.answer 12 { data := w.setWidth 64 }
    { s with frz := { s.frz with chains := Tab.mod s.frz.chains 0 k (fun p => (p + n) % len) } }.showChain

/-! ## Thaw (R109 to R112) -/

/-- The links that a thaw waits for and that LINK_FAIL can mark (R110, R111): those between present, unfenced dies. R110 does
not speak of a link that ends on a fenced die, which never trained (DESIGN CHOICE, log 91). -/
def State.thawLinks (s : State) : List Nat :=
  (List.range 25).filter (fun l => linkPresent s.part l && s.reachable (linkLow l) && s.reachable (linkHigh l))

/-- THAW_START (R109, R110): links relock from here, and LOCKED reads 0 until each has (R765). The challenge outstanding and a
grant of OBSERVE end (R649, R654); a zeroisation under way ends with its step (R653). After a failed thaw none starts (R111). -/
def execThawStart (s : State) : Out := s.acEvent fun s =>
  if s.frz.phase != .stopped || s.frz.pinLow || s.is FRZ_CTL_REQ d0 || s.is FRZ_STATUS_CHAIN_DIRTY d0 || s.hw.openGranted ||
     s.is FRZ_STATUS_THAW_FAIL d0 then s
  else
    let s := { s with frz := { s.frz with phase := .thawing, awake := [] } }.put FRZ_STATUS_LINK_FAIL d0 0
    let s := s.setDbg Debug.thaw
    (List.range 25).foldl (fun (s : State) l =>
      if linkPresent s.part l then (s.dropLanes l).putLink DLINK_STATUS_LOCKED l 0 else s) s

/-- The reservoir dies of the part that are not fenced. -/
def State.stackDies (s : State) : List Nat := [6, 7].filter s.reachable

/-- THAW_RELEASE (R101, R103, R110, R655): once every link has completed step 2 and every stack has left self-refresh. The links
send again what was not registered, and the operations that held an erased slot take their outcomes as they resume. STOPPED,
of which Table 2.9 gives only the rise, clears here, as the domains resume (DESIGN CHOICE, log 91). -/
def execThawRelease (stacksUp : BitVec 8) (s : State) : Out := s.acEvent fun s =>
  if s.frz.phase != .thawing || !s.thawLinks.all s.linkUp || !s.stackDies.all (fun d => stacksUp.getLsbD d) then s
  else
    let s := { s with frz := { s.frz with phase := .resuming, awake := s.stackDies } }.put FRZ_STATUS_STOPPED d0 0
    (s.thawLinks.foldl State.resend s).erasedOutcomes

/-- THAW_END (R51, R110, R112, R649): FROZEN falls; what the debug gate was asked during the thaw ends with it. PM seconds and
bandwidth windows take their outcomes (R195, R705). -/
def execThawEnd (s : State) : Out := s.acEvent fun s =>
  if s.frz.phase != .resuming then s
  else
    let s := { s with frz := { s.frz with phase := .running, awake := [] } }
    let s := ((s.put FRZ_STATUS_FROZEN d0 0).put TIME_STATUS_FROZE d0 1).setDbg Debug.thaw
    (chans.foldl State.pmStep s).bwStep

/-- THAW_FAIL (R51, R111, R765): 300 ac after the thaw started. -/
def execThawFail (stacksUp : BitVec 8) (s : State) : Out := s.acEvent fun s =>
  if s.frz.phase != .thawing then s
  else
    let bad := s.thawLinks.filter (fun l => !s.linkUp l)
    let slow := s.stackDies.filter (fun d => !stacksUp.getLsbD d)
    if bad = [] && slow = [] then s
    else
      let mask := (List.range 8).foldl (fun m d =>
        m + b2n (slow.contains d || bad.any (fun l => linkLow l == d || linkHigh l == d)) * 2 ^ d) 0
      let s := { s with frz := { s.frz with phase := .stopped } }
      (s.put FRZ_STATUS_THAW_FAIL d0 1).put FRZ_STATUS_LINK_FAIL d0 mask

end Sys2Proof.Machine
end

