-- ==== Sys2Proof/Machine/Access.lean ====
section
/-!
DEFINITION. Register accesses (R8 to R15, R107, R560, R623, R698, R738 to R743): which command a write of a register starts,
what other writes do beside setting fields, and what a read returns and changes.
-/
namespace Sys2Proof.Machine
open Reg

/-! ## What a read shows beside the stored word -/

/-- The operational entry in force of a gate list (Table 9.11). -/
def State.gateCur (s : State) (d i : Nat) : Nat × State :=
  match (s.gate d i).oper with
  | none => (0, s)
  | some l => let (t, s) := s.tNow; ((l.at_ t).1, s)

/-- The word of register reg at index i of die d as a read finds it: counts of packets, the epoch, the gate entry in force
and live coefficients are computed on the edge of the read (R127, R335, R367, R370, R373, R440), and the horizon of a die (R660, R661). -/
def State.view (s : State) (d reg i : Nat) : Word × State :=
  let a := place d i
  let w := s.rd reg a
  if reg = TILE_BANK_STAT then
    let n := s.bankRefs d (s.inactiveBank d)
    (setBits (setBits w 31 31 (b2n (n == 0))) 23 0 n, s)
  else if reg = LKP_GEN_STAT then (setBits w 19 0 (s.genRefs d (!s.activeGen d)), s)
  else if reg = LKP_EPOCH then (BitVec.ofNat 32 s.clk.mc, s)
  else if reg = EDDY_STAT then (setBits w 10 0 (Tab.get s.pipe.eddy [] d).length, s)
  else if reg = GATE_STAT then let (n, s) := s.gateCur d i; (setBits w 7 0 n, s)
  else if reg = PWR_DIE_STAT then (s.dieStat i, s)
  else if reg = FRZ_CHAIN_LEN then (BitVec.ofNat 32 s.chainSel.2, s)
  else if reg = FRZ_CHAIN_POS then (BitVec.ofNat 32 (Tab.get s.frz.chains 0 s.chainSel.1), s)
  else if reg = TM_CLS_HWM then (if w.toNat < (s.rd TM_CLS_OCC a).toNat then s.rd TM_CLS_OCC a else w, s)
  else if reg = LANE_PRX_STAT then
    let (b, s) := s.adapted i
    (setBits w 29 29 (b2n b), s)
  else if reg = LANE_ESCAN_ERR && (s.scanOf d).isSome then s.draw Config.freeReserved
  else if reg = LANE_PRX_FFE0 || reg = LANE_PRX_FFE1 || reg = LANE_PRX_DFE then
    let s := s.adapt i
    (s.rdEff reg a, s)
  else (w, s)

/-! ## Reads -/

/-- A _LO counter of 48 bits whose _HI register follows it (R471). -/
def isLoCounter (reg : Nat) : Bool :=
  reg = MAC_CNT_RX_BYTES_LO || reg = MAC_CNT_TX_BYTES_LO || reg = MGT_CNT_RX_BYTES_LO || reg = MGT_CNT_TX_BYTES_LO

/-- A read at user level of a PMC register whose unit does not allow it, or of one that belongs to no unit, returns 0 (R698). -/
def State.pmcHidden (s : State) (lv : Level) (d reg i : Nat) : Bool :=
  reg / 256 = 0x1F && lv == .user &&
  ((regDesc reg).recs = 1 || !s.is PMC_CTL_USER_RD (place d (i / (regDesc reg).size)))

/-- An access that clears RC fields (R8, R10): `same` holds the increments of that edge, which stay in them. -/
def State.clearOnRead (s : State) (reg at_ : Nat) (same : Word) : State :=
  let m := rcMask (regDesc reg).fields
  if m = 0 then s else s.wr reg at_ ((s.rd reg at_ &&& ~~~m) ||| (same &&& m))

/-- A read of the stored word (R8, R10, R12): RC fields clear. -/
def State.plainRead (s : State) (r d reg i : Nat) (same : Word) : State :=
  let a := place d i
  let (w, s) := s.view d reg i
  let s := s.answer r { data := (w &&& readMask (regDesc reg).fields).setWidth 64 }
  if isLoCounter reg then
    let s := (s.wr (reg + 1) a (s.rdEff (reg + 1) a)).wrEff (reg + 1) a 0
    s.clearOnRead reg a same
  else s.clearOnRead reg a same

/-- What a read does beyond returning the word: a pop of the head entry (R467, R546). -/
def State.afterRead (s : State) (d reg i : Nat) : State :=
  if reg = MAC_TSF_W && i % 4 = 3 then (execTsFifoPop (.port (Fin.ofNat 64 (i / 4))) s).after s
  else if reg = MGT_TSF_W && i = 3 then (execTsFifoPop .mgt s).after s
  else if reg = RSV_ELOG_W && i = 2 then (execElogPop (Fin.ofNat 8 d) 0 s).after s
  else if reg = MEM_ELOG_W && i = 2 then (execElogPop (Fin.ofNat 8 d) 1 s).after s
  else s

/-- The command that a read of a register is (R170, R504, R577, R588, R594, R695); none for a read without one. -/
def readRow (req : Requester) (lv : Level) (d reg i : Nat) : Option (State → Out) :=
  if reg = PFR_SFC_LO then some (execSfcLoRead req (Fin.ofNat 4 i))
  else if reg = CTL_UART_DATA then some (execUartRxRead req)
  else if reg = IRQ_CLAIM then some (execIrqClaim req (Fin.ofNat 12 (i / 2)) (Fin.ofNat 2 i))
  else if reg = PMC_CNT_LO then some (execPmcCounterRead req lv (Fin.ofNat 8 d) (Fin.ofNat 16 (i / 8)) (Fin.ofNat 9 (i % 8)))
  else if reg = PMC_CYC_LO then some (execPmcCounterRead req lv (Fin.ofNat 8 d) (Fin.ofNat 16 i) 8)
  else if reg = CTL_SEM then
    match req with
    | .core n => some (execSemaphoreRead n (Fin.ofNat 32 i))
    | .tap | .dma _ _ | .tile _ _ => none
  else none

/-- A firmware read of register reg at index i of die d: the answer goes to the requester. -/
def State.regRead (s : State) (req : Requester) (lv : Level) (d reg i : Nat) (same : Word) : State :=
  if s.pmcHidden lv d reg i then s.answer (reqCode req) {}
  else match readRow req lv d reg i with
    | some f => (f s).after s
    | none =>
      let s := if reg = CIPH_MS_PN_LO then (execMsPnRead (Fin.ofNat 4 (d - 2)) (Fin.ofNat 2048 i) s).after s else s
      (s.plainRead (reqCode req) d reg i same).afterRead d reg i

/-! ## Commands that a write starts -/

/-- A bit of a written word. -/
def bit (v : Word) (n : Nat) : Bool := bits v n n == 1

/-- The command of a one-bit trigger. -/
def onBit (v : Word) (n : Nat) (f : State → Out) : List (State → Out) := if bit v n then [f] else []

/-- The commands of GO in bit 31 and RD, or CLR, in bit 30. -/
def goRd (v : Word) (go rd : State → Out) : List (State → Out) := onBit v 31 go ++ onBit v 30 rd

/-- GO in bit 31 with an OP: the command of that OP, or for a reserved OP a free choice among them and none (R13). -/
def goOp (v : Word) (op : Nat) (l : List (State → Out)) : List (State → Out) :=
  if !bit v 31 then []
  else [fun s => match l[op]? with
    | some f => f s
    | none => match l[(Config.freeReserved s.fresh).toNat % (l.length + 1)]? with
      | some f => f { s with fresh := s.fresh + 1 }
      | none => .next { s with fresh := s.fresh + 1 }]

/-- The commands of HW, KILN, PWR, TIME and FRZ registers. -/
def rowsHeadwater (lv : Level) (i : Nat) (v : Word) : List (Nat × List (State → Out)) :=
  let p : Die := Fin.ofNat 8 i
  let c : Chan := Fin.ofNat 4 i
  [ (HW_BOOT_CTL, onBit v 0 (execBootCtlDone lv)),
    (HW_RST_CTL, if bit v 1 then [execRstCtlCold lv v] else onBit v 0 (execRstCtlWarm lv v)),
    (HW_FUSE_CMD, goOp v (bits v 26 24) [execFuseAdvance lv v, execFuseScrap lv v, execFuseRollback lv v,
      execFuseRevoke lv v, execFuseRailTable lv v, execFuseBootKey lv v, execFuseDbgKey lv v]),
    (KILN_CMD, goOp v (bits v 30 28) [execKilnGenerate lv v, execKilnWrap lv v, execKilnUnwrap lv v, execKilnDerive lv v,
      execKilnClear lv v]),
    (PWR_PMB_CMD, goOp v (bits v 27 25) [execPmbSendByte lv v, execPmbWriteByte lv v, execPmbWriteWord lv v,
      execPmbReadByte lv v, execPmbReadWord lv v]),
    (PWR_AVS_CFG, [fun s =>
      let (m, s) := s.draw Config.freeByte
      let (w, s) := s.draw Config.freeReserved
      execAvsEnable lv v m (w.setWidth 16) s]),
    (PWR_DIE_CTL, [execDieWakeWrite lv p v]),
    (PWR_RET_LOST, [execRetLostClear p v]),
    (PWR_PAT_COMMIT, onBit v 0 (execPatCommit lv p v)),
    (PWR_PS_COMMIT, onBit v 0 (execPsCommit lv c v)),
    (PWR_PS_CTL, goRd v (execPsEnter lv c v) (execPsLeave lv c v)),
    (PWR_OFF_CTL, onBit v 31 (execOffEntry lv v)),
    (TIME_CFG, [execTimeCfgWrite v]),
    (TIME_COMMIT, onBit v 0 (fun s =>
      let op := s.get TIME_ADJ_CTL_OP d0
      if op = 0 then execTimeCommitIncr s else if op = 1 then execTimeCommitOffset s else execTimeCommitLoad s)),
    (TIME_SNAP, onBit v 31 execTimeSnap),
    (TIME_TOD_CAP_CTL, onBit v 31 (execTodCapArm (BitVec.ofNat 30 (bits v 29 0)))),
    (FRZ_CTL, [execFrzCtlWrite (bit v 0)]) ]

/-- The commands of LANE, DLINK, PFR, PTC, EST and BOND registers. One write of ESCAN_CTL with ABORT and START ends a point under way
and, as R152 says of a START while BUSY is 1, starts none; with no point under way it starts one (DEDUCED, log 89). -/
def rowsLine (d i : Nat) (v : Word) : List (Nat × List (State → Out)) :=
  let n : LineDie := Fin.ofNat 2 d
  let c : Chan := Fin.ofNat 4 i
  [ (LANE_PTX_EQ, [execTxEqWrite (.pon c) v]),
    (LANE_SUB_TX_EQ, [execTxEqWrite (.sub (Fin.ofNat 64 i)) v]),
    (LANE_MGT_TX_EQ, [execTxEqWrite .mgt v]),
    (DLINK_TX_EQ, [execTxEqWrite (.link (Fin.ofNat 25 i) (Fin.ofNat 8 d)) v]),
    (LANE_PRX_EQ_COMMIT, onBit v 0 (execPrxEqCommit c)),
    (LANE_ESCAN_CTL, if !bit v 31 && !bit v 30 then [] else [fun s =>
        let busy := s.is LANE_ESCAN_STAT_BUSY (onDie d)
        let (k, s) := s.draw Config.freeReserved
        let s := if bit v 30 then (execEscanAbort (Fin.ofNat 8 d) v k.toNat s).after s else s
        if bit v 31 && !(bit v 30 && busy) then execEscanStart (Fin.ofNat 8 d) v s else .next s]),
    (LANE_OPT_I2C_CMD, onBit v 31 (if bit v 27 then execOptI2cRead n v else execOptI2cWrite n v)),
    (PFR_SFSD_COMMIT, onBit v 0 (execSfsdCommit c)),
    (PFR_PM_CFG, [if bit v 31 then execPmEnable c v else execPmDisable c v]),
    (PFR_PM_SEL, onBit v 31 (execPmSnap c v)),
    (PTC_ACT_CTL, onBit v 30 (fun s =>
      let t := bits v 26 24
      if t = 2 then execActReqO23 c v s else if t = 3 then execActReqO4 c v s else if t = 4 then execActReqO5 c v s
      else if t = 0 then execActReqO11 c v s else if t = 6 then execActReqO7 c v s else s.event fun s => s.request c.val t v)),
    (PTC_EQD_COMMIT, onBit v 0 (execEqdCommit c)),
    (PTC_PLOAMU_PUSH, onBit v 0 (execPloamuPush c)),
    (PTC_PLOAMU_DEF, onBit v 0 (execPloamuDef c)),
    (PTC_PLOAMD_POP, onBit v 0 (execPloamdPop c)),
    (PTC_PID_WR, goRd v (execPidTableWrite n v) (execPidTableRead n v)),
    (EST_ALLOC_WR, goRd v (execAllocTableWrite n v) (execAllocTableRead n v)),
    (EST_PROF_COMMIT, onBit v 0 (execProfCommit c)),
    (BOND_GROUP_COMMIT, onBit v 0 execBondGroupCommit),
    (BOND_SKEW_CTL, onBit v 31 (execSkewArm v)),
    (BOND_UGRP_COMMIT, onBit v 31 (execUgrpCommit v)) ]

/-- The commands of TILE, DISP, LKP and DELTA registers. -/
def rowsPipe (d : Nat) (v : Word) : List (Nat × List (State → Out)) :=
  let l : LcDie := Fin.ofNat 6 d
  let k : CourseDie := Fin.ofNat 4 (d - 2)
  [ (TILE_COMMIT, onBit v 0 (execTileCommit l)),
    (TILE_IMEM_DATA, [execImemDataWrite l v]),
    (TILE_IMEM_CHK, onBit v 31 (execImemCheck l v)),
    (DISP_CFG, [execDispRun l v]),
    (LKP_TBL_COMMIT, onBit v 0 (execTblCommit l)),
    (LKP_EM_WR, goRd v (execEmEntryWrite l v) (execEmEntryRead ⟨l, .clean⟩ v)),
    (LKP_TC_WR, goRd v (execTcEntryWrite l v) (execTcEntryRead l v)),
    (LKP_LPM_CTL, goOp v (bits v 27 26) [execLpmSet k v, execLpmClear k v, execLpmRead ⟨k, .clean⟩ v]),
    (LKP_CNT_RD, onBit v 31 (execCounterRead ⟨l, .clean⟩ v)),
    (LKP_GEN_CTL, onBit v 31 (if bit v 30 then execGenSwitchArm l v else execGenSwitchNow l v)),
    (DELTA_GRP_WR, goRd v (execDeltaGroupWrite k v) (execDeltaGroupRead ⟨k, .clean⟩ v)),
    (DELTA_CPY_WR_DATA, [execDeltaCopyWrite k v]) ]

/-- The commands of TM, SLU, GATE, MAC and MGT registers. -/
def rowsTraffic (d i : Nat) (v : Word) : List (Nat × List (State → Out)) :=
  let l : LcDie := Fin.ofNat 6 d
  let k : CourseDie := Fin.ofNat 4 (d - 2)
  let m : MacPort := .port (Fin.ofNat 64 i)
  let x : Fin 4 := Fin.ofNat 4 i
  [ (TM_QOP, goOp v (bits v 30 29) [execQopWrite ⟨l, .clean⟩ v, execQopRead ⟨l, .clean⟩ v, execQopFill ⟨l, .clean⟩ v, execQopFlush ⟨l, .clean⟩ v]),
    (TM_APROF_COMMIT, onBit v 0 (execAprofCommit l)),
    (TM_POOL_COMMIT, onBit v 0 (execPoolCommit l)),
    (TM_UPROF_COMMIT, onBit v 0 (execUprofCommit (Fin.ofNat 2 d))),
    (SLU_WR, goRd v (execSluWrite l v) (execSluRead l v)),
    (SLU_CNT_RD, onBit v 31 (execSluCounterRead l v)),
    (GATE_ADM_DATA, [execGateAdminDataWrite l (Fin.ofNat 64 i) v]),
    (GATE_CTL, onBit v 30 (execGateCommit l (Fin.ofNat 64 i) v)),
    (MAC_DA_WR, goRd v (execDaFilterWrite m v) (execDaFilterRead m v)),
    (MGT_DA_WR, goRd v (execDaFilterWrite .mgt v) (execDaFilterRead .mgt v)),
    (MAC_PAUSE_TX, onBit v 31 (execPauseTx m v)),
    (MGT_PAUSE_TX, onBit v 31 (execPauseTx .mgt v)),
    (MAC_PTP_COMMIT, onBit v 0 (execPtpCommit m)),
    (MGT_PTP_COMMIT, onBit v 0 (execPtpCommit .mgt)),
    (MAC_MDIO_CMD, if !bit v 31 then [] else
      if bit v 29 then goOp v (bits v 28 27) [execMdioC45Address k x v, execMdioC45Write k x v, execMdioC45Read k x v,
        execMdioC45ReadInc k x v]
      else if bits v 28 27 = 1 then [execMdioC22Write k x v]
      else if bits v 28 27 = 2 then [execMdioC22Read k x v]
      else goOp v 9 [execMdioC22Write k x v, execMdioC22Read k x v]),
    (MAC_CAGE_I2C_CMD, onBit v 31 (if bit v 27 then execCageI2cRead k v else execCageI2cWrite k v)) ]

/-- The commands of CIPH, KSLOT, RSV, MEM, CTL, IRQ, DMA and PMC registers. -/
def rowsRest (req : Requester) (lv : Level) (d i : Nat) (v : Word) : List (Nat × List (State → Out)) :=
  let l : LcDie := Fin.ofNat 6 d
  let k : CourseDie := Fin.ofNat 4 (d - 2)
  let e : Die := Fin.ofNat 8 d
  let ch : Fin 32 := Fin.ofNat 32 i
  let spmap (b : Fin 2) : List (State → Out) := goOp v (bits v 30 29)
    [execSpmapReadSpare e b v, execSpmapWriteSpare e b v, execSpmapReadRetirement e b v, execSpmapWriteRetirement e b v]
  [ (CIPH_MS_TX_COMMIT, onBit v 0 (execMsTxCommit (Fin.ofNat 64 i))),
    (CIPH_MS_PN_LO, [execMsPnWrite k (Fin.ofNat 2048 i) v]),
    (CIPH_MS_RXSC_LO, [execMsRxscWrite (Fin.ofNat 64 (i / 4)) (Fin.ofNat 4 i) v]),
    (CIPH_LA_DOORBELL, [execLaDoorbell (Fin.ofNat 2 d) (Fin.ofNat 2 i)]),
    (KSLOT_CMD, goOp v (bits v 30 29) [execKslotWrite l v, execKslotLoadKiln l v, execKslotErase l v]),
    (RSV_CTL, [if bit v 31 then execRsvEnable e v else execRsvDisable e v]),
    (RSV_SPMAP_CTL, spmap 0),
    (MEM_SPMAP_CTL, spmap 1 ++ (if bit v 31 then [] else onBit v 26 (execSpmapLock l v))),
    (CTL_L2_CFG, [execL2CfgWrite (Fin.ofNat 2 d) v]),
    (CTL_CORE_RUN, if d = 1 then [execCoreRun lv v] else []),
    (CTL_UART_DATA, [execUartTxWrite v]),
    (CTL_GPIO_SET, [execGpioSet v]),
    (CTL_GPIO_CLR, [execGpioClr v]),
    (CTL_SEM, match req with
      | .core n => [execSemaphoreWrite n (Fin.ofNat 32 i) v]
      | .tap | .dma _ _ | .tile _ _ => []),
    (IRQ_EOI, [execIrqEoi (Fin.ofNat 12 (i / 2)) (Fin.ofNat 2 i) v]),
    (IRQ_SGI_SET, [execSgiSet v]),
    (DMA_CTL, onBit v 31 (execDmaStart e ch v) ++ onBit v 30 (execDmaStop e ch v) ++ onBit v 29 (execDmaDisable e ch v)),
    (DMA_DOORBELL, [execDmaDoorbell e ch]),
    (PMC_CNT_LO, [execPmcCounterWrite lv e (Fin.ofNat 16 (i / 8)) (Fin.ofNat 8 i) v]),
    (PMC_ARM, onBit v 31 (execPmcArm lv e v)),
    (PMC_BW_SEL, onBit v 31 (execBwSnap lv k v)) ]

/-- The commands that a write of v to register reg at index i of die d starts, in the order in which they act; none where
the write only sets fields. -/
def writeRows (req : Requester) (lv : Level) (d reg i : Nat) (v : Word) : List (State → Out) :=
  let b := reg / 256
  let t := if b ≤ 5 then rowsHeadwater lv i v
    else if b ≤ 0x0B then rowsLine d i v
    else if b ≤ 0x11 then rowsPipe d v
    else if b ≤ 0x17 then rowsTraffic d i v
    else rowsRest req lv d i v
  match t.find? (fun x => x.1 == reg) with
  | some x => x.2
  | none => []

/-! ## What other writes do -/

/-- The framer of a channel as a change of PRX_CFG.EN leaves it (R159, R167, R183, R184): its counter and a group that waits for a
window stay, and it is held while a power state keeps the receiver down. -/
def State.framerRestart (s : State) (c : Nat) : State :=
  let f := s.framer c
  let down := !s.is PWR_PS_STAT_RX_ON (d0i c)
  let s := if f.held && !down then s.endHold c else s
  (s.setFramer c { sfc := f.sfc, sfsdPend := f.sfsdPend, held := down, rxDown := down }).put PFR_SYNC_STAT_SFC_VALID (atChan c) 0

/-- LANE[c].PRX_CFG is written (R60, R124, R129, R159, R175, R232, R263): a changed SD_POL inverts SD; EN sampled rising takes XGS and
RX_POL and starts the framer, in HUNT with raw LODS unless its receiver is powered down; EN falling takes the receiver off its
data, clears every defect and discards the frames in progress (R232). -/
def State.prxCfg (s : State) (c : Nat) (v : Word) : State :=
  let a := atChan c
  let was := s.is LANE_PRX_CFG_EN a
  let pol := s.is LANE_PRX_CFG_SD_POL a
  let lods := s.rawLods c
  let s := (s.adapt c).fwWrite LANE_PRX_CFG a v
  let s := if s.is LANE_PRX_CFG_SD_POL a == pol then s else s.setSd c (!s.is LANE_PRX_STAT_SD a)
  let now := s.is LANE_PRX_CFG_EN a
  if was == now then s
  else if now then
    let s := (s.commit LANE_PRX_CFG a).framerRestart c
    let s := s.setRaw c (if (s.framer c).held then 0 else 4)
    (s.showFramer c).lodsChange c lods
  else
    let s := (((s.setRaw c 0).cdrLoss c).skewLeave c).framerRestart c
    let p := s.pm c
    (((s.setPm c { p with off := true }).showFramer c).lodsChange c lods).dropAllReasm c

/-- A lane's configuration is written: EN sampled rising takes the fields of R130 and R134; a subscriber or management lane
whose EN falls loses its link (Table 3.9), and a PON transmitter the burst in progress, as its lane powers down (R733). -/
def State.laneCfg (s : State) (reg i at_ : Nat) (v : Word) : State :=
  let was := bits (s.rd reg at_) 31 31
  let s := s.fwWrite reg at_ v
  let now := bits (s.rd reg at_) 31 31
  if was = 0 && now = 1 then s.commit reg at_
  else if was = 1 && now = 0 && reg = LANE_SUB_CFG then s.linkSet (.port (Fin.ofNat 64 i)) false
  else if was = 1 && now = 0 && reg = LANE_MGT_CFG then s.linkSet .mgt false
  else if was = 1 && now = 0 && reg = LANE_PTX_CFG then s.cutBursts i
  else s

/-- A register of commit group GATE.ADMIN (R430). -/
def isGateAdmin (reg : Nat) : Bool :=
  reg = GATE_ADM_LEN || reg = GATE_ADM_BASE_SEC_HI || reg = GATE_ADM_BASE_SEC_LO || reg = GATE_ADM_BASE_NS || reg = GATE_ADM_CYCLE

/-- A write that sets fields and starts no command, with what else it does: registers whose words are kept though they read
0, locked regions (R655), a cleared report (R32) or capture (R90), GPIO and UART (R587, R590), held writes (R695), an armed action of the same edge (R700), the chain selected (R104),
DMA descriptors (R620) and rejected gate writes (R430). -/
def State.plainWrite (s : State) (lv : Level) (d reg i : Nat) (v same : Word) : State :=
  let a := place d i
  let std := s.fwWriteFields (writableFields s.part reg a v lv) reg a v same
  if reg = KILN_KEYIN || reg = KSLOT_STAGE then s.wr reg a v
  else if reg = HW_SRGN_BASE || reg = HW_SRGN_CTL then (if s.is HW_SRGN_CTL_LOCK a then s else std)
  else if reg = HW_ABSENT_INFO then (if std.is HW_ABSENT_INFO_VALID a then std else std.put HW_ABSENT_INFO_MORE a 0)
  else if reg = TIME_PPS_IN_STAT then (if std.is TIME_PPS_IN_STAT_VALID a then std else std.put TIME_PPS_IN_STAT_MISSED a 0)
  else if reg = FRZ_CHAIN_SEL then std.showChain
  else if reg = LANE_PRX_CFG then s.prxCfg i v
  else if reg = LANE_PRX_EQ_CTL then (s.adapt i).fwWrite reg a v
  else if reg = LANE_PTX_CFG || reg = LANE_SUB_CFG || reg = LANE_MGT_CFG then s.laneCfg reg i a v
  else if reg = MAC_CFG || reg = MAC_FC_CFG || reg = MAC_FC_WD then
    let m : MacPort := .port (Fin.ofNat 64 i)
    ((s.rxKeep m).fwWriteFields (writableFields s.part reg a v lv) reg a v same).txTake m
  else if reg = MGT_CFG || reg = MGT_FC_CFG || reg = MGT_FC_WD || reg = MGT_RX_CFG then
    ((s.rxKeep .mgt).fwWriteFields (writableFields s.part reg a v lv) reg a v same).txTake .mgt
  else if reg = LANE_OPT_I2C_CFG then s.i2cCfg (optRegs d) v
  else if reg = MAC_CAGE_I2C_CFG then s.i2cCfg (cageRegs d) v
  else if reg = MAC_MDIO_IEN then s.mdioIen d v
  else if isGateAdmin reg then (if s.gatePending d i then s.put GATE_STAT_REJ a 1 else std)
  else if reg = CTL_UART_CFG then s.uartCfg v
  else if reg = CTL_GPIO_DIR || reg = CTL_GPIO_OUT then std.gpioSense
  else if reg = DMA_DESC_LO || reg = DMA_DESC_HI then s.dmaDescWrite reg d i v
  else if reg = PMC_CTL then (s.armedAction d).fwWriteFields (writableFields s.part reg a v lv) reg a v same
  else if reg = PMC_CNT_HI then s.setPmcHeld (heldKey d (i / 8) (i % 8)) (some v)
  else if reg = PMC_CYC_HI then (s.wr reg a v).wrEff reg a v
  else std

/-- A firmware write of register reg at index i of die d by a requester at a level (R8, R560, R623, R741): one that a
register refuses by privilege is ignored. `same` holds the W1C bits that hardware sets on the same edge (R9). -/
def State.regWrite (s : State) (req : Requester) (lv : Level) (d reg i : Nat) (v same : Word) : State :=
  if !mayWrite reg lv then s
  else match writeRows req lv d reg i v with
    | [] => s.plainWrite lv d reg i v same
    | l =>
      let s := l.foldl (fun (s : State) f => (f s).after s) s
      let set := same &&& w1cMask (regDesc reg).fields
      if set = 0 then s else s.wr reg (place d i) (s.rd reg (place d i) ||| set)

/-- A read of n bytes at an offset of a register window of die d (R736, R739, R740): none is an error response; the answer
stands with the requester. -/
def State.windowRead (s : State) (req : Requester) (lv : Level) (d off n : Nat) : Option State :=
  if n ≠ 4 || off % 4 ≠ 0 then none
  else match target s.part d off with
    | .outside => none
    | .hole => some (s.answer (reqCode req) {})
    | .reg reg i => some (s.regRead req lv d reg i 0)

/-- A write of n bytes at an offset of a register window of die d (R736, R739, R740): none is an error response. -/
def State.windowWrite (s : State) (req : Requester) (lv : Level) (d off n : Nat) (v : Word) : Option State :=
  if n ≠ 4 || off % 4 ≠ 0 then none
  else match target s.part d off with
    | .outside => none
    | .hole => some s
    | .reg reg i => some (s.regWrite req lv d reg i v 0)

/-! ## The three rows of register accesses -/

/-- A register access through an address: what it reaches (R735 to R740). -/
def State.regAt (s : State) (a : Addr) : Option (Nat × Nat × Nat) :=
  let d := a.toNat / 2 ^ 36
  if 8 ≤ d || !s.reachable d || a.toNat % 4 ≠ 0 then none
  else match target s.part d (a.toNat % 2 ^ 36) with
    | .reg reg i => some (d, reg, i)
    | .hole | .outside => none

/-- REGISTER_WRITE (R8, R12, R13, R560): each field is set or ignored as its access code defines. -/
def execRegisterWrite (addr : Addr) (v : Word) (lv : Level) (s : State) : Out := s.event fun s =>
  match s.regAt addr with
  | some (d, reg, i) => s.regWrite .tap lv d reg i v 0
  | none => s

/-- W1C_WRITE (R9): the bits that hardware sets on the same edge stay 1. -/
def execW1cWrite (addr : Addr) (v : Word) (lv : Level) (same : Word) (s : State) : Out := s.event fun s =>
  match s.regAt addr with
  | some (d, reg, i) => s.regWrite .tap lv d reg i v same
  | none => s

/-- RC_READ (R10): the read returns the value and clears it; an increment on that edge stays. -/
def execRcRead (req : Requester) (addr : Addr) (same : Word) (s : State) : Out := s.event fun s =>
  match s.regAt addr with
  | some (d, reg, i) => s.regRead req .monitor d reg i same
  | none => s

end Sys2Proof.Machine
end

