-- ==== Sys2Proof/Machine/Dma.lean ====
section
/-!
DEFINITION. What DMA channels move (R597 to R617, R735, R739, R745): the fetch of a descriptor, copies, bursts of frames to
the management transmitter and the dispatcher, and receive records. A MOVE descriptor, a receive record and a burst are one
command each, but for what waits for a trigger or a die; the descriptor is read again as its bytes move. A channel's accesses carry user
level (log 60).
-/
namespace Sys2Proof.Machine
open Reg

/-! ## Accesses -/

/-- A die that an access of a channel waits for (R665). -/
def State.dmaAsleep (s : State) (d addr : Nat) : Option Nat :=
  if 8 ≤ addr / 2 ^ 36 % 16 then none
  else match s.route d (addr / 2 ^ 36 % 16) with
    | .asleep k => some k
    | .clear _ | .absent | .firstDown _ | .secondDown _ _ => none

/-- Count an access of a channel (R607, Table 17.4). -/
def State.dmaIssue (s : State) (d ch : Nat) : State := s.pmcEvent d 0 0x00D ch 1

/-- The requester of a channel. -/
def dmaReq (d ch : Nat) : Requester := .dma (Fin.ofNat 8 d) (Fin.ofNat 32 ch)

/-- A channel reads n bytes in one access (R607): none is an error response, which is reported where a router gave it (R32, R745). An access whose
response over a mortar link is lost has acted (R147). -/
def State.dmaRead (s : State) (d ch addr n : Nat) (m : Found) : Option (List Byte) × State :=
  let s := s.dmaIssue d ch
  let t := addr / 2 ^ 36 % 16
  let off := addr % 2 ^ 36
  let keep (l : List Byte) : Option (List Byte) := if m.lost && t != d then none else some l
  if 8 ≤ t then (none, s.refuse d 1 false addr)
  else if 0xF00000000 ≤ off then
    match s.reach d t with
    | .open_ _ => match s.windowRead (dmaReq d ch) .user t off n with
      | none => (none, s)
      | some s => (keep (leBytes 4 (s.answerOf (reqCode (dmaReq d ch))).data.toNat), s)
    | .error | .asleep _ => (none, s.refuseIfAbsent d t 1 false addr)
  else match s.readSpan d addr n m.ecc with
    | (none, s) => (none, s.refuseIfAbsent d t 1 false addr)
    | (some l, s) => (keep l, s)

/-- A channel writes bytes in one access; false is an error response. -/
def State.dmaWrite (s : State) (d ch addr : Nat) (l : List Byte) (lost : Bool) : Bool × State :=
  let s := s.dmaIssue d ch
  let t := addr / 2 ^ 36 % 16
  let off := addr % 2 ^ 36
  let ok := !(lost && t != d)
  if 8 ≤ t then (false, s.refuse d 1 true addr)
  else if 0xF00000000 ≤ off then
    match s.reach d t with
    | .open_ _ => match s.windowWrite (dmaReq d ch) .user t off l.length (BitVec.ofNat 32 (leNat l)) with
      | none => (false, s)
      | some s => (ok, s)
    | .error | .asleep _ => (false, s.refuseIfAbsent d t 1 true addr)
  else match s.writeSpan d addr l with
    | none => (false, s.refuseIfAbsent d t 1 true addr)
    | some s => (ok, s)

/-- No error and nothing lost. -/
abbrev foundClean : Found := ⟨.clean, false⟩

/-- Read n bytes in accesses of up to 64 bytes that cross no 64-byte boundary (R607): the bytes read, and the failing address if an access errs.
The first argument bounds the accesses. -/
def dmaReadAll (d ch : Nat) (m : Found) : Nat → Nat → Nat → State → List Byte × Option Nat × State
  | 0, _, _, s => ([], none, s)
  | fuel + 1, addr, n, s =>
    if n = 0 then ([], none, s)
    else
      let k := Nat.min n (64 - addr % 64)
      match s.dmaRead d ch addr k m with
      | (none, s) => ([], some addr, s)
      | (some l, s) =>
        let (t, r, s) := dmaReadAll d ch foundClean fuel (addr + k) (n - k) s
        (l ++ t, r, s)

/-- Write bytes in accesses of up to 64 bytes that cross no 64-byte boundary (R607): the failing address if an access errs. The first argument
bounds the accesses. -/
def dmaWriteAll (d ch : Nat) (lost : Bool) : Nat → Nat → List Byte → State → Option Nat × State
  | 0, _, _, s => (none, s)
  | fuel + 1, addr, l, s =>
    if l.isEmpty then (none, s)
    else
      let k := 64 - addr % 64
      match s.dmaWrite d ch addr (l.take k) lost with
      | (false, s) => (some addr, s)
      | (true, s) => dmaWriteAll d ch false fuel (addr + k) (l.drop k) s

/-! ## Fetching a descriptor (R599, R600, R602, R604, R609) -/

/-- The channel can work: RUN, or STOPPING with something in progress. -/
def State.dmaActive (s : State) (d ch : Nat) : Bool := s.dmaState d ch == dmaRun || s.dmaState d ch == dmaStopping

/-- PACE. -/
def DmaDesc.pace (x : DmaDesc) : Bool := bits x.ctl 29 29 == 1

/-- A descriptor's own fields are a fault (R602). -/
def State.dmaBad (s : State) (d ch : Nat) (x : DmaDesc) : Bool :=
  x.len == 0 || (s.getEff DMA_CFG_MODE (place d ch) == 1 && (x.dst % 64 != 0 || x.len % 64 != 0)) ||
  (s.isEff DMA_CFG_CHAIN (place d ch) && (x.next % 32 != 0 || 8 ≤ x.next / 2 ^ 36 || 0x800000000 ≤ x.next % 2 ^ 36))

/-- What a read of a descriptor gives: its fields, a die that must wake first (R665), or an error response. -/
inductive DescRead where
  | got (x : DmaDesc)
  | asleep
  | bus
  deriving DecidableEq, Repr

/-- The descriptor at an address. -/
def State.dmaPeek (s : State) (d addr : Nat) : DescRead :=
  if (s.dmaAsleep d addr).isSome then .asleep
  else match (s.readSpan d addr 32 .clean).1 with
    | none => .bus
    | some l => .got (dmaDecode l)

/-- A channel of die d waits for the die that an address lies on (R665). -/
def State.dmaWait (s : State) (d addr : Nat) : State := s.wakeRoute d (addr / 2 ^ 36 % 16)

/-- A read of a descriptor takes an error response (R32, R615). -/
def State.dmaDescBus (s : State) (d ch addr : Nat) : State :=
  (s.refuseIfAbsent d (addr / 2 ^ 36) 1 false addr).dmaBus d ch addr false false true 0

/-- What the descriptors of a frame from SOP to EOP show (R602, R609). -/
inductive FrameScan where
  | whole
  | notOwned
  | asleep (addr : Nat)
  | bad (addr : Nat) (x : DmaDesc)
  | bus (addr : Nat)
  deriving DecidableEq, Repr

/-- Read ahead from a descriptor to EOP, over at most as many descriptors as the first argument says (R602, R609). -/
def State.scanFrame (s : State) (d ch : Nat) : Nat → Nat → Nat → FrameScan
  | 0, _, _ => .whole
  | n + 1, addr, total => match s.dmaPeek d addr with
    | .bus => .bus addr
    | .asleep => .asleep addr
    | .got x =>
      let total := total + x.len
      if !x.own then .notOwned
      else if s.dmaBad d ch x || (s.getEff DMA_CFG_MODE (place d ch) == 3 && 16383 < total) then .bad addr x
      else if x.eop then .whole
      else if n = 0 then .bad addr x
      else s.scanFrame d ch n (s.dmaNext d ch addr x) total

/-- The channel found OWN = 0 (R599, R600): a pending doorbell makes it read the head again at once. -/
def State.dmaGoIdle (s : State) (d ch : Nat) : State :=
  let x := s.dmaCh d ch
  if x.bell then s.setDma d ch { x with bell := false } else s.setDmaState d ch dmaIdle

/-- A descriptor fault (R602): CODE DESC_FAULT is written back and the channel halts. -/
def State.dmaFault (s : State) (d ch addr : Nat) (x : DmaDesc) : State :=
  let s := if s.dmaInRec d ch then s.dmaDropRec d ch else s
  ((s.dmaWriteBack d ch addr x.ctl (setBits 0 31 28 2)).getD s).dmaHalt d ch 3 addr false

/-- The head descriptor starts, or waits for a trigger (R603, R604): a STOP that waits for the end of a frame or record stays. -/
def State.dmaBegin (s : State) (d ch : Nat) (x : DmaDesc) : State :=
  let a := place d ch
  let c := s.dmaCh d ch
  if !x.pace then s.setDma d ch { c with started := true }
  else if s.get DMA_STAT_PACE_PEND a = 0 then
    let s := s.setDma d ch { c with chain := 0, waits := true }
    if s.dmaState d ch = dmaStopping then s else s.setDmaState d ch dmaPaceWait
  else (s.put DMA_STAT_PACE_PEND a (s.get DMA_STAT_PACE_PEND a - 1)).setDma d ch { c with chain := 0, started := true }

/-- Read the head descriptor, and start it, wait for its trigger, go idle or halt (R599, R600, R602, R604, R609, R613). -/
def State.dmaFetch (s : State) (d ch : Nat) (m : Found) : State :=
  let h := s.dmaHead d ch
  match s.dmaAsleep d h with
  | some _ => s.dmaWait d h
  | none => match s.dmaRead d ch h 32 m with
    | (none, s) => s.dmaBus d ch h false false true 0
    | (some l, s) =>
      let x := dmaDecode l
      let c := s.dmaCh d ch
      if !x.own then (if c.filled.isEmpty then s.dmaGoIdle d ch else (s.dmaDropRec d ch).dmaSettle d ch)
      else if s.dmaBad d ch x then s.dmaFault d ch h x
      else if s.getEff DMA_CFG_MODE (place d ch) < 2 || !c.got.isEmpty then s.dmaBegin d ch x
      else match s.scanFrame d ch 64 h 0 with
        | .whole => s.dmaBegin d ch x
        | .notOwned => s.dmaGoIdle d ch
        | .bad a y => s.dmaFault d ch a y
        | .asleep a => s.dmaWait d a
        | .bus a => s.dmaDescBus d ch a

/-- DMA_DESCRIPTOR_FETCH (R599, R600, R602, R604, R609): in STOPPING it goes on with a frame or record under way (R614). -/
def execDmaDescriptorFetch (d : Die) (ch : Fin 32) (m : Found) (s : State) : Out := s.unit d.val (dmaBank d.val) fun s =>
  let d := d.val
  let ch := ch.val
  let c := s.dmaCh d ch
  if !s.dmaExists d ch || !s.dmaActive d ch || c.started || c.waits then s else s.dmaFetch d ch m

/-! ## A completed descriptor -/

/-- The head descriptor at `addr` is complete with n bytes (R601, R603): the head moves on. False is an error response. -/
def State.dmaFinish (s : State) (d ch addr : Nat) (x : DmaDesc) (n : Nat) : Bool × State :=
  match s.dmaWriteBack d ch addr x.ctl (setBits 0 23 0 n) with
  | none => (false, s.dmaBus d ch addr true false true 0)
  | some s =>
    let s := (s.dmaComplete d ch x.ctl).setDmaHead d ch (s.dmaNext d ch addr x)
    (true, s.setDma d ch { s.dmaCh d ch with started := false, done := 0 })

/-! ## MOVE (R607, R608) -/

/-- Copy the rest of a descriptor in accesses of up to 64 bytes that cross no 64-byte boundary (R607): the failing address
and direction with the bytes done, if an access errs. The first argument bounds the accesses. -/
def dmaCopy (d ch : Nat) (m : Found) : Nat → Nat → Nat → Nat → Nat → State → Option (Nat × Bool × Nat) × State
  | 0, _, _, _, _, s => (none, s)
  | fuel + 1, src, dst, rest, done, s =>
    if rest = 0 then (none, s)
    else
      let n := Nat.min rest (Nat.min (64 - src % 64) (64 - dst % 64))
      match s.dmaRead d ch src n m with
      | (none, s) => (some (src, false, done), s)
      | (some l, s) => match s.dmaWrite d ch dst l false with
        | (false, s) => (some (dst, true, done), s)
        | (true, s) => dmaCopy d ch foundClean fuel (src + n) (dst + n) (rest - n) (done + n) s

/-- The destination of a copy whose areas overlap (R608): free bytes. -/
def State.dmaScramble (s : State) (dst : Nat) : Nat → State
  | 0 => s
  | n + 1 =>
    let (b, s) := s.draw Config.freeByte
    (s.setByte (dst + n) b).dmaScramble dst n

/-- DMA_MOVE (R608): the started descriptor is copied whole and written back. -/
def execDmaMove (d : Die) (ch : Fin 32) (m : Found) (s : State) : Out := s.unit d.val (dmaBank d.val) fun s =>
  let d := d.val
  let ch := ch.val
  if !s.dmaExists d ch || !s.dmaActive d ch || !(s.dmaCh d ch).started || s.getEff DMA_CFG_MODE (place d ch) != 0 then s
  else
    let h := s.dmaHead d ch
    match s.dmaPeek d h with
    | .bus => s.dmaDescBus d ch h
    | .asleep => s.dmaWait d h
    | .got x =>
      match s.dmaAsleep d x.src, s.dmaAsleep d x.dst with
      | some _, _ => s.dmaWait d x.src
      | none, some _ => s.dmaWait d x.dst
      | none, none =>
        match dmaCopy d ch m x.len x.src x.dst x.len 0 s with
        | (some (a, w, done), s) => s.dmaBus d ch a w false false done
        | (none, s) =>
          let s := if x.src < x.dst + x.len && x.dst < x.src + x.len then s.dmaScramble x.dst x.len else s
          match s.dmaFinish d ch h x x.len with
          | (false, s) => s
          | (true, s) => (s.dmaLimit d ch h).dmaSettle d ch

/-- DMA_BUS_ERROR (R147, R615, R616): the accesses before it have acted, so that a MOVE has copied the bytes done and a record has placed them. -/
def execDmaBusError (d : Die) (ch : Fin 32) (addr : Addr) (write lost onDesc : Bool) (done : BitVec 24) (s : State) : Out :=
  s.unit d.val (dmaBank d.val) fun s =>
  let d := d.val
  let ch := ch.val
  let c : DmaCh := s.dmaCh d ch
  let mode := s.getEff DMA_CFG_MODE (place d ch)
  if !s.dmaActive d ch then s
  else
    let s : State := match onDesc || !c.started, s.dmaPeek d (s.dmaHead d ch) with
      | false, .got x =>
        if mode = 0 then (dmaCopy d ch foundClean (Nat.min done.toNat x.len) x.src x.dst (Nat.min done.toNat x.len) 0 s).2
        else if mode = 1 then
          let placed := c.filled.foldl (fun (n : Nat) (f : Nat × Word × Nat) => n + f.2.2) 0
          let l := (((c.store.head?.map fun (r : DmaRec) => r.bytes).getD []).drop placed).take (Nat.min done.toNat x.len)
          (dmaWriteAll d ch false (l.length + 1) x.dst l s).2
        else s
      | _, _ => s
    s.dmaBus d ch addr.toNat write lost onDesc done.toNat

/-! ## Bursts of TRANSMIT and INJECT (R609, R610) -/

/-- Read up to n bytes of the frame from the head descriptor on: the address of its last descriptor once the frame's last byte is read. The first
argument bounds the descriptors. -/
def dmaPull (d ch : Nat) (m : Found) : Nat → Nat → State → Option Nat × State
  | 0, _, s => (none, s)
  | fuel + 1, n, s =>
    if n = 0 || !(s.dmaCh d ch).started then (none, s)
    else
      let h := s.dmaHead d ch
      match s.dmaPeek d h with
      | .bus => (none, s.dmaDescBus d ch h)
      | .asleep => (none, s.dmaWait d h)
      | .got x =>
        let k := (s.dmaCh d ch).done
        let j := Nat.min n (x.len - k)
        if (s.dmaAsleep d (x.src + k)).isSome then (none, s.dmaWait d (x.src + k))
        else match dmaReadAll d ch m (j + 1) (x.src + k) j s with
        | (b, some a, s) => (none, s.dmaBus d ch a false false false (k + b.length))
        | (b, none, s) =>
          let c := s.dmaCh d ch
          let s := s.setDma d ch { c with got := c.got ++ b, done := k + j }
          if k + j < x.len then (none, s)
          else match s.dmaFinish d ch h x x.len with
            | (false, s) => (none, s)
            | (true, s) =>
              if x.eop then (some h, s)
              else
                let s := s.dmaLimit d ch h
                if !s.dmaActive d ch then (none, s) else dmaPull d ch foundClean fuel (n - j) (s.dmaFetch d ch foundClean)

/-- One burst of 256 bytes or the rest of the frame (R610); a whole frame goes to its unit, and then the chain limit and a
STOP are judged. -/
def State.dmaBurst (s : State) (d ch : Nat) (m : Found) (give : List Byte → State → State) : State :=
  match dmaPull d ch m 65 256 s with
  | (none, s) => s
  | (some h, s) =>
    let c := s.dmaCh d ch
    let s := give c.got (s.setDma d ch { c with got := [] })
    (s.dmaLimit d ch h).dmaSettle d ch

/-- Whether the management transmitter's FIFO has room for a burst (R610): an empty one has; the spec does not give its depth, so that for another it
is a free value (log 116). -/
def State.mgtRoom (s : State) : Bool × State :=
  if (s.mac 64).tx.isEmpty then (true, s) else s.draw Config.freeAlarm

/-- DMA_TRANSMIT_BURST (R475, R484, R596, R609, R610): on the management transmitter's request, which TX_CFG makes for each frame as it starts. -/
def execDmaTransmitBurst (ch : Fin 32) (m : Found) (s : State) : Out := s.unit 0 (dmaBank 0) fun s =>
  let ch := ch.val
  let c := s.dmaCh 0 ch
  let asks := !c.got.isEmpty || (s.is MGT_TX_CFG_EN d0 && s.get MGT_TX_CFG_DMA_CH d0 == ch)
  if !s.dmaActive 0 ch || !c.started || s.getEff DMA_CFG_MODE (place 0 ch) != 2 || !asks then s
  else
    let (room, s) := s.mgtRoom
    if !room then s
    else s.dmaBurst 0 ch m fun l s =>
      let x := s.mac 64
      s.setMac 64 { x with tx := x.tx ++ [{ pkt := { bytes := l } }] }

/-- Dispatcher source 16 of a die has room for a packet, beside those on their way to it (R340, R610). -/
def State.injectRoom (s : State) (d : Nat) : Bool :=
  decide ((Tab.get s.pipe.fifo [] (srcKey d 16)).length + (Tab.get s.pipe.coming [] (srcKey d 16)).length < 32)

/-- DMA_INJECT_BURST (R524, R525, R609, R610): on the request of dispatcher source 16, while it has room. -/
def execDmaInjectBurst (d : LcDie) (ch : Fin 32) (m : Found) (s : State) : Out := s.unit d.val (dmaBank d.val) fun s =>
  let d := d.val
  let ch := ch.val
  if !s.dmaExists d ch || !s.dmaActive d ch || !(s.dmaCh d ch).started || s.getEff DMA_CFG_MODE (place d ch) != 3 ||
     !s.injectRoom d then s
  else s.dmaBurst d ch m fun l s =>
    match s.alloc d l.length with
    | (none, s) => s
    | (some k, s) => s.toSource d 16 { kind := 3, src := 0, buf := k, bytes := l }

/-! ## Receive records (R611 to R613) -/

/-- Write the descriptors of a record back (R601, R612), `first` and `last` being the record's: the failing address, if an
access errs. -/
def dmaReturn (d ch first last : Nat) : List (Nat × Word × Nat) → State → Option Nat × State
  | [], s => (none, s)
  | (a, ctl, n) :: t, s =>
    let st := setBits (setBits (setBits 0 27 27 (b2n (a == first))) 26 26 (b2n (a == last))) 23 0 n
    match s.dmaWriteBack d ch a ctl st with
    | none => (some a, s)
    | some s => dmaReturn d ch first last t (s.dmaComplete d ch ctl)

/-- A record is whole in its descriptors (R612, R603): they are written back, the first one last; the count that reaches CHAIN_LIMIT halts the channel
with the descriptor that reached it, once the record is whole (log 117). -/
def State.dmaRecDone (s : State) (d ch : Nat) (l : List (Nat × Word × Nat)) (next : Nat) : State :=
  match l, l.getLast? with
  | f :: t, some q =>
    let order := t ++ [f]
    let limit := s.getEff DMA_CFG_CHAIN_LIMIT (place d ch)
    let at_ := (order.getD (limit - (s.dmaCh d ch).chain - 1) f).1
    match dmaReturn d ch f.1 q.1 order s with
    | (some x, s) => s.dmaBus d ch x true false true 0
    | (none, s) =>
      let c := s.dmaCh d ch
      let s := (c.store.take 1).foldl (fun (s : State) r => s.release r.buf) s
      let s := s.setDma d ch { c with store := c.store.drop 1, started := false, filled := [] }
      ((s.setDmaHead d ch next).dmaLimit d ch at_).dmaSettle d ch
  | _, _ => s

/-- Fill descriptors from the head on with what is left of the oldest record (R612, R613): a ring that comes back to the record's first descriptor
has run dry. It goes on after a wait for a trigger or a die. The first argument bounds the descriptors. -/
def dmaFill (d ch : Nat) (m : Found) : Nat → State → State
  | 0, s => s
  | fuel + 1, s =>
    let c := s.dmaCh d ch
    match c.store with
    | [] => s
    | r :: _ =>
      let h := s.dmaHead d ch
      let left := r.bytes.drop (c.filled.foldl (fun n f => n + f.2.2) 0)
      match s.dmaPeek d h with
      | .bus => s.dmaDescBus d ch h
      | .asleep => s.dmaWait d h
      | .got x =>
        if (s.dmaAsleep d x.dst).isSome then s.dmaWait d x.dst
        else match dmaWriteAll d ch m.lost (x.len + 1) x.dst (left.take x.len) s with
        | (some a, s) => s.dmaBus d ch a true false false 0
        | (none, s) =>
          let l := c.filled ++ [(h, x.ctl, Nat.min left.length x.len)]
          let next := s.dmaNext d ch h x
          if left.length ≤ x.len then s.dmaRecDone d ch l next
          else
            let s := s.setDma d ch { s.dmaCh d ch with started := false, filled := l }
            if (l.head?.map (·.1)) = some next then (s.dmaDropRec d ch).dmaSettle d ch
            else
              let s := (s.setDmaHead d ch next).dmaFetch d ch foundClean
              if (s.dmaCh d ch).started then dmaFill d ch foundClean fuel s else s

/-- DMA_RECEIVE_RECORD (R612, R613): the oldest record of the store fills descriptors from the head on. -/
def execDmaReceiveRecord (d : Die) (ch : Fin 32) (m : Found) (s : State) : Out := s.unit d.val (dmaBank d.val) fun s =>
  let d := d.val
  let ch := ch.val
  let c := s.dmaCh d ch
  if !s.dmaExists d ch || !s.dmaActive d ch || c.waits || s.getEff DMA_CFG_MODE (place d ch) != 1 || c.store.isEmpty then s
  else
    let s := if c.started || c.filled.isEmpty then s else s.dmaFetch d ch m
    if !(s.dmaCh d ch).started then s
    else match (if c.started then s.readSpan d (s.dmaHead d ch) 32 m.ecc else (some [], s)) with
      | (none, s) => if (s.dmaAsleep d (s.dmaHead d ch)).isSome then s.dmaWait d (s.dmaHead d ch) else s.dmaDescBus d ch (s.dmaHead d ch)
      | (some _, s) => dmaFill d ch m 32769 s

end Sys2Proof.Machine
end

