-- ==== Sys2Proof/Machine/Span.lean ====
section
/-!
DEFINITION. Span writes (R34, R745 to R748): delivery of one write to several dies, and the record of its requester.
-/
namespace Sys2Proof.Machine
open Reg

/-- The dies of a mask that are present and not fenced (R34). -/
def State.liveDies (s : State) (mask : Nat) : List Nat := (List.range 8).filter (fun d => bitOf mask d && s.reachable d)

/-- One die applies its part of a span write, under the rules of its block (R737, R739, R740, R746); false is an error
response. -/
def State.spanApply (s : State) (req : Requester) (lv : Level) (d off n v : Nat) : Bool × State :=
  let r := if 0xF00000000 ≤ off then s.windowWrite req lv d off n (BitVec.ofNat 32 v) else s.memWrite d off n v
  match r with
  | none => (false, s)
  | some s => (true, s)

/-- The response count of one die's part, in mc (R563, R737, Table 7.6). -/
def State.spanCount (s : State) (src d off : Nat) (ok : Bool) : Nat :=
  let h := hops src d
  if !ok then 44 * h + 12 else if 0xF00000000 ≤ off then 44 * h + 16 else respCount (s.region d off) true h

/-- The span write under way at a place. -/
def State.spanAt (s : State) (key : Nat) : Option SpanWait := Tab.get s.mesh.spans none key
/-- Set it. -/
def State.setSpan (s : State) (key : Nat) (w : Option SpanWait) : State :=
  { s with mesh := { s.mesh with spans := Tab.set s.mesh.spans none key w } }

/-- A die's answer joins the result. -/
def SpanWait.answer (w : SpanWait) (d : Nat) (ok : Bool) : SpanWait :=
  let w := { w with waiting := putBit w.waiting d false }
  if ok then { w with applied := putBit w.applied d true } else { w with failed := putBit w.failed d true }

/-- Send one die's part (R21, R145, R665, R746): a die that does not run is woken and its part is held. -/
def State.spanSend (s : State) (key : Nat) (req : Requester) (lv : Level) (off n v d : Nat) : State :=
  let w := (s.spanAt key).getD ⟨0, 0, 0⟩
  match s.route (reqDie req) d with
  | .clear _ => let (ok, s) := s.spanApply req lv d off n v; s.setSpan key (some (w.answer d ok))
  | .absent => s
  | .firstDown _ | .secondDown _ _ => s.setSpan key (some (w.answer d false))
  | .asleep _ =>
    let s := s.setSpan key (some { w with waiting := putBit w.waiting d true })
    ({ s with mesh := { s.mesh with held := s.mesh.held ++ [(d, Held.span key req lv d off n v)] } }).wakeRoute (reqDie req) d

/-- Deliver a write of n bytes to an offset of every live die of a mask (R34, R746). -/
def State.spanDeliver (s : State) (key : Nat) (req : Requester) (lv : Level) (mask off n v : Nat) : State :=
  (s.liveDies mask).foldl (fun (s : State) d => s.spanSend key req lv off n v d) (s.setSpan key (some ⟨0, 0, 0⟩))

/-- Every target has answered: SPAN.STATUS of the requester is written, but not for an SPNW (R583, R747, R748). -/
def State.spanSettle (s : State) (key : Nat) : State :=
  match s.spanAt key with
  | none => s
  | some w =>
    if w.waiting ≠ 0 || (16 ≤ key && key < 32) then s
    else
      let a := d0i (key % 16)
      let s := (s.put SPAN_STATUS_VALID a 1).put SPAN_STATUS_SEQ a (s.get SPAN_STATUS_SEQ a + 1)
      let s := (s.put SPAN_STATUS_FAILED a w.failed).put SPAN_STATUS_APPLIED a w.applied
      if key < 16 then s.setSpan key none else s

/-- The place of a requester in SPAN.STATUS (R748): none for one that may not access the span window (R745). -/
def spanPlace : Requester → Option Nat
  | .core n => some n.val
  | .tap => some 12
  | .dma _ _ | .tile _ _ => none

end Sys2Proof.Machine
end

