-- ==== Sys2Proof/Machine/CoreMemory.lean ====
section
/-!
DEFINITION. How a Rilonef-C core reaches memory (13_control_complex.md, R553 to R560, R563, R565, R567 to R570, R574): through its caches, its
tightly coupled memory or the mesh, and by the translation of its addresses.
-/
namespace Sys2Proof.Machine
open Reg

/-! ## Core events -/

/-- General register r. -/
def Core.reg (c : Core) (r : XReg) : BitVec 64 := Tab.get c.x 0 r.val
/-- Write general register r; none is fixed at zero. -/
def Core.setReg (c : Core) (r : XReg) (v : BitVec 64) : Core := { c with x := Tab.set c.x 0 r.val v }
/-- The local index of a core (Table 13.1). -/
def coreLocal (n : Nat) : Nat := if n < 8 then n else n - 8
/-- Level codes of STATUS.PREV (PRESUMED, log 52). -/
def levelCode : Level → Nat
  | .user => 0
  | .supervisor => 1
  | .monitor => 2
/-- The level of a code; the fourth code has none. -/
def codeLevel (n : Nat) : Option Level :=
  match n with
  | 0 => some .user
  | 1 => some .supervisor
  | 2 => some .monitor
  | _ => none

/-- The filter bit of EVTSEL for a level (Table 17.3). -/
def levelFilter (l : Level) (e : Word) : Bool :=
  let b := match l with | .user => 30 | .supervisor => 29 | .monitor => 28
  bits e b b == 1

/-- Count k events of a core's unit at a level, through the level filter (R693). -/
def State.levelEvent (s : State) (n : Nat) (l : Level) (code k : Nat) : State :=
  s.pmcEvent (coreDie n) (1 + coreLocal n) code 0 k (levelFilter l)

/-- Count an event of a core's unit at the core's level. -/
def State.coreEvent (s : State) (n code : Nat) : State := s.levelEvent n (s.core n).level code 1

/-- An instruction that core n issued at a level is counted, and while the unit runs its slot is one of the RETIRING slots that the
next edges count (Table 17.4, R701). -/
def State.coreIssued (s : State) (n : Nat) (l : Level) : State :=
  let s := s.levelEvent n l 0x201 1
  if s.is PMC_CTL_RUN (place (coreDie n) (1 + coreLocal n)) then
    { s with pmc := { s.pmc with slots := Tab.mod s.pmc.slots [] n (· ++ [l]) } }
  else s

/-! ## The L2 and the L1 caches (R553, R555, R559, R574) -/

/-- How an access ends: with a value, with a cause, or waiting for a die to wake. -/
inductive CoreEnd where
  | ok (v : Nat) (s : State)
  | exc (code : Nat) (s : State)
  | wait (s : State)

/-- Go on after an access that ended with a value. -/
def CoreEnd.andThen (r : CoreEnd) (f : State → CoreEnd) : CoreEnd :=
  match r with
  | .ok _ s => f s
  | .exc k s => .exc k s
  | .wait s => .wait s

/-- Count an event of core n's unit where an access ends, not while it waits. -/
def CoreEnd.counted (n code : Nat) (r : CoreEnd) : CoreEnd :=
  match r with
  | .ok v s => .ok v (s.coreEvent n code)
  | .exc k s => .exc k (s.coreEvent n code)
  | .wait s => .wait s

/-- The response over a mortar link to an access to die t that has acted is lost (R147): the access ends as an error response. -/
def CoreEnd.orLost (d t : Nat) (lost : Bool) (r : CoreEnd) : CoreEnd :=
  match r with
  | .ok v s => if lost && d != t then .exc 7 s else .ok v s
  | .exc k s => .exc k s
  | .wait s => .wait s

/-- Write a line of the L2 back where it or an L1 data cache holds it dirty (R559, R563). The write-back awaits its response (R762):
while its target sleeps the access waits (R665), and one that gets an error response aborts the access, the line staying dirty (R31, log 77). -/
def State.writeBack (s : State) (d pa : Nat) (lost : Bool) : CoreEnd :=
  let s := s.mergeAll d pa
  let a := pa / 64 * 64
  match s.line (.l2 d) pa with
  | none => .ok 0 s
  | some l =>
    if !l.dirty then .ok 0 s
    else match s.spanReach d a 64 with
    | .asleep _ => .wait (s.wakeRoute d (a / 2 ^ 36))
    | .error => .exc 7 (s.refuseIfAbsent d (a / 2 ^ 36) 0 true a)
    | .open_ _ => CoreEnd.orLost d (a / 2 ^ 36) lost (.ok 0 ((s.putBytes a l.bytes).setLine (.l2 d) pa (some { l with dirty := false })))

/-- The L2 no longer holds a line, nor does any L1 data cache of its die (R553). -/
def State.dropLine (s : State) (d pa : Nat) : State := (s.dropOthers d pa none).setLine (.l2 d) pa none

/-- A line leaves the L2 and the L1 data caches, written back first if it is dirty. -/
def State.evictLine (s : State) (d pa : Nat) (lost : Bool) : CoreEnd := (s.writeBack d pa lost).andThen fun s => .ok 0 (s.dropLine d pa)

/-- Bring a line into the L2 (R553), in place of another where its set is full. -/
def State.fillL2 (s : State) (d pa : Nat) (m : Found) : CoreEnd :=
  let (k, s) := s.victim (.l2 d) pa
  let r : CoreEnd := match s.lineAt (.l2 d) k with
    | none => .ok 0 s
    | some v => s.evictLine d (v.tag * 64) false
  r.andThen fun s =>
  let a := pa / 64 * 64
  match s.spanReach d a 64 with
  | .asleep _ => .wait (s.wakeRoute d (a / 2 ^ 36))
  | .error => .exc 7 (s.refuseIfAbsent d (a / 2 ^ 36) 0 false a)
  | .open_ _ => match s.readSpan d a 64 m.ecc with
    | (none, s) => .exc 7 s
    | (some l, s) => (CoreEnd.orLost d (a / 2 ^ 36) m.lost (.ok 0 s)).andThen fun s => .ok 0 (s.setLineAt (.l2 d) k (some ⟨pa / 64, l, false⟩))

/-- The L2 or the L2 SRAM of core n's die holds the line of an address: brought in if it is not there, and acting on the error that its read
found (R553, R574). -/
def State.needL2 (s : State) (n pa : Nat) (m : Found) : CoreEnd :=
  let d := coreDie n
  if s.ownSram d pa then
    match s.readSpan d (pa / 64 * 64) 64 m.ecc with
    | (none, s) => .exc 7 s
    | (some _, s) => .ok 0 s
  else match s.line (.l2 d) pa with
  | none => (s.fillL2 d pa m).counted n 0x205
  | some l => match m.ecc with
    | .clean => .ok 0 s
    | .corrected _ _ => .ok 0 (s.count CTL_ECC_CE (onDie d))
    | .bad _ _ =>
      let s := s.count CTL_ECC_UE (onDie d)
      if l.dirty then .exc 0x0B s else ((s.dropLine d pa).fillL2 d pa ⟨.clean, false⟩).counted n 0x205

/-- The 64 bytes of a line as the L2 or the L2 SRAM of die d holds it. -/
def State.l2Bytes (s : State) (d pa : Nat) : List Byte :=
  if s.ownSram d pa then s.bytes (pa / 64 * 64) 64 else ((s.line (.l2 d) pa).map (·.bytes)).getD []

/-- Bring a line into core n's L1 data cache: what another core of the die holds dirty joins the L2 first (R559). -/
def State.fillData (s : State) (n pa : Nat) (m : Found) : CoreEnd :=
  let d := coreDie n
  ((s.mergeAll d pa).needL2 n pa m).andThen fun s =>
  let (k, s) := s.victim (.data n) pa
  let s := match s.lineAt (.data n) k with
    | none => s
    | some v => s.mergeLine n (v.tag * 64)
  .ok 0 (s.setLineAt (.data n) k (some ⟨pa / 64, s.l2Bytes d pa, false⟩))

/-- Core n's L1 data cache holds the line of an address, acting on the error that its read found (R574). -/
def State.needData (s : State) (n pa : Nat) (m : Found) : CoreEnd :=
  match s.line (.data n) pa with
  | none => (s.fillData n pa m).counted n 0x204
  | some l => match m.ecc with
    | .clean => .ok 0 s
    | .corrected _ _ => .ok 0 (s.count CTL_ECC_CE (onDie (coreDie n)))
    | .bad _ _ =>
      let s := s.count CTL_ECC_UE (onDie (coreDie n))
      if l.dirty then .exc 0x0B s else ((s.setLine (.data n) pa none).fillData n pa ⟨.clean, false⟩).counted n 0x204

/-- Bring a line into core n's L1 instruction cache, which is not coherent (R559): where an L1 data cache of the die holds the line
dirty, whether the fetch finds those bytes is open. -/
def State.fillCode (s : State) (n pa : Nat) (m : Found) : CoreEnd :=
  let d := coreDie n
  let s := if (dieCores s.part d).any (fun k => (s.line (.data k) pa).any (·.dirty)) then
      let (b, s) := s.draw Config.freeSnoop
      if b then s.mergeAll d pa else s
    else s
  (s.needL2 n pa m).andThen fun s =>
  let (k, s) := s.victim (.code n) pa
  .ok 0 (s.setLineAt (.code n) k (some ⟨pa / 64, s.l2Bytes d pa, false⟩))

/-- Core n's L1 instruction cache holds the line of an address (R574): a parity error invalidates the line and fetches it again. -/
def State.needCode (s : State) (n pa : Nat) (m : Found) : CoreEnd :=
  match s.line (.code n) pa, m.ecc with
  | none, _ => (s.fillCode n pa m).counted n 0x203
  | some _, .clean => .ok 0 s
  | some _, .corrected _ _ | some _, .bad _ _ => ((s.setLine (.code n) pa none).fillCode n pa ⟨.clean, false⟩).counted n 0x203

/-! ## Reads and writes (R553 to R560, R563, R565) -/

/-- How an access of a core reaches memory (R553 to R559, Table 13.5): its own TCM, the caches of its die, or the mesh. -/
inductive Via where
  | tcm | cache | mesh
  deriving DecidableEq, Repr

/-- The way of a physical address, by ATTR (0 write-back). -/
def State.via (s : State) (n pa attr : Nat) : Via :=
  let d := coreDie n
  let t := pa / 2 ^ 36
  let off := pa % 2 ^ 36
  if attr ≠ 0 || 8 ≤ t || 0x800000000 ≤ off then .mesh
  else match s.region t off with
    | .tcm => if t = d && (off - 0x100000000) / 0x40000 = coreLocal n then .tcm else .mesh
    | .l2 => if t = d || s.is CTL_L2_CFG_EN (onDie d) then .cache else .mesh
    | .sram | .reservoir | .unbacked => if s.is CTL_L2_CFG_EN (onDie d) then .cache else .mesh

/-- Overlay the bytes that a core's store buffer holds for an area. -/
def overlay (sb : List SbEntry) (a n v : Nat) : Nat :=
  leNat ((List.range n).map fun i =>
    sb.foldl (fun b e => if e.addr ≤ a + i && a + i < e.addr + e.n then BitVec.ofNat 8 (e.v / 256 ^ (a + i - e.addr)) else b)
      (BitVec.ofNat 8 (v / 256 ^ i)))

/-- What reads memory for a core: a load, a translation walk, which reads through the L2 (R568), or a fetch. -/
inductive CoreUse where
  | load | walk | fetch
  deriving DecidableEq, Repr

/-- k bytes of a line at an address. -/
def lineValue (l : List Byte) (pa k : Nat) : Nat := leNat (slice l (pa % 64) k)

/-- A read of write-back memory through the caches. -/
def State.cacheRead (s : State) (n pa k : Nat) (u : CoreUse) (m : Found) : CoreEnd :=
  let d := coreDie n
  let held (s : State) (c : Cache) : CoreEnd := .ok (lineValue (((s.line c pa).map (·.bytes)).getD []) pa k) s
  match u with
  | .load => (s.needData n pa m).andThen (held · (.data n))
  | .walk => ((s.mergeAll d pa).needL2 n pa m).andThen fun s => .ok (lineValue (s.l2Bytes d pa) pa k) s
  | .fetch => (s.needCode n pa m).andThen (held · (.code n))

/-- A read of n bytes at a physical address (R147, R555 to R559, R563, R574, R736 to R740, R745). -/
def State.coreRead (s : State) (n : Nat) (lv : Level) (pa k attr : Nat) (u : CoreUse) (m : Found) : CoreEnd :=
  let d := coreDie n
  let t := pa / 2 ^ 36
  let off := pa % 2 ^ 36
  if 8 ≤ t then .exc 7 (s.refuse d 0 false pa)
  else match s.via n pa attr with
  | .tcm => match s.memRead t off k m.ecc with
    | (none, s) => .exc 0x0B s
    | (some v, s) => .ok v s
  | .cache => s.cacheRead n pa k u m
  | .mesh => match s.reach d t with
    | .asleep _ => .wait (s.wakeRoute d t)
    | .error => .exc 7 (s.refuseIfAbsent d t 0 false pa)
    | .open_ _ => CoreEnd.orLost d t m.lost <|
      if 0xF00000000 ≤ off then
        match s.windowRead (.core (Fin.ofNat 12 n)) lv t off k with
        | none => .exc 7 s
        | some s => .ok (s.answerOf n).data.toNat s
      else match s.memRead t off k m.ecc with
        | (none, s) => .exc (if s.region t off == .tcm && eccBad m.ecc then 0x0B else 7) s
        | (some v, s) => .ok v s

/-- One store buffer entry is written to the core's L1 data cache, so that no other one of the die holds the line (R559), to the core's
TCM (R553, R565), or over the mesh where the L2 has been switched off since. -/
def State.drainEntry (s : State) (n : Nat) (x : SbEntry) : CoreEnd :=
  let d := coreDie n
  match s.via n x.addr 0 with
  | .cache =>
    let r : CoreEnd := match s.line (.data n) x.addr with
      | some _ => .ok 0 s
      | none => s.fillData n x.addr ⟨.clean, false⟩
    r.andThen fun s =>
    let s := s.dropOthers d x.addr (some n)
    match s.line (.data n) x.addr with
    | none => .ok 0 s
    | some l => .ok 0 (s.setLine (.data n) x.addr (some ⟨l.tag, splice l.bytes (x.addr % 64) (leBytes x.n x.v), true⟩))
  | .tcm => .ok 0 ((s.memWrite (x.addr / 2 ^ 36) (x.addr % 2 ^ 36) x.n x.v).getD s)
  | .mesh => match s.spanReach d x.addr x.n with
    | .asleep _ => .wait (s.wakeRoute d (x.addr / 2 ^ 36))
    | .error => .exc 7 (s.refuseIfAbsent d (x.addr / 2 ^ 36) 0 true x.addr)
    | .open_ _ => .ok 0 (s.putBytes x.addr (leBytes x.n x.v))

/-- The oldest store of a core leaves its buffer, unless its target sleeps; one that is refused is lost (log 77). -/
def State.drainOne (s : State) (n : Nat) : State :=
  match (s.core n).sb with
  | [] => s
  | x :: t => match (s.setCore n { s.core n with sb := t }).drainEntry n x with
    | .ok _ s => s
    | .exc _ s => s
    | .wait s => s.setCore n { s.core n with sb := x :: t }

/-- Every store of a core leaves its buffer, up to one whose target sleeps. -/
def State.drainAll (s : State) (n : Nat) : State := (s.core n).sb.foldl (fun (s : State) _ => s.drainOne n) s

/-- A span write by a store of a core (R557, R745 to R748): a part that is held makes the store wait. -/
def State.coreSpan (s : State) (n : Nat) (lv : Level) (off k v : Nat) : CoreEnd :=
  if lv == .user then .exc 7 (s.refuse (coreDie n) 0 true (0xF * 2 ^ 36 + off))
  else
    let s := match s.spanAt (32 + n) with
      | some _ => s
      | none => (s.spanDeliver (32 + n) (.core (Fin.ofNat 12 n)) lv 0xFF off k v).spanSettle (32 + n)
    match s.spanAt (32 + n) with
    | some w => if w.waiting = 0 then .ok 0 (s.setSpan (32 + n) none) else .wait s
    | none => .ok 0 s

/-- A write of n bytes at a physical address (R147, R555 to R559, R563, R565, R736 to R740): a write-back store enters the store
buffer, once its line is present or could be filled, and waits while the buffer is full and its oldest store cannot leave. -/
def State.coreWrite (s : State) (n : Nat) (lv : Level) (pa k attr v : Nat) (m : Found) : CoreEnd :=
  let d := coreDie n
  let t := pa / 2 ^ 36
  let off := pa % 2 ^ 36
  let push (s : State) : CoreEnd :=
    let s := if 8 ≤ (s.core n).sb.length then s.drainOne n else s
    if 8 ≤ (s.core n).sb.length then .wait s
    else .ok 0 (s.setCore n { s.core n with sb := (s.core n).sb ++ [⟨pa, k, v⟩] })
  if t = 0xF then s.coreSpan n lv off k v
  else if 8 ≤ t then .exc 7 (s.refuse d 0 true pa)
  else match s.via n pa attr with
  | .tcm => push s
  | .cache => (s.needData n pa m).andThen push
  | .mesh => match s.reach d t with
    | .asleep _ => .wait (s.wakeRoute d t)
    | .error => .exc 7 (s.refuseIfAbsent d t 0 true pa)
    | .open_ _ => CoreEnd.orLost d t m.lost <|
      if 0xF00000000 ≤ off then
        match s.windowWrite (.core (Fin.ofNat 12 n)) lv t off k (BitVec.ofNat 32 v) with
        | none => .exc 7 s
        | some s => .ok 0 s
      else match s.memWrite t off k v with
        | none => .exc 7 s
        | some s => .ok 0 s

/-! ## Translation (R556, R567 to R570) -/

/-- What an access does. -/
inductive AccKind where
  | read | write | fetch
  deriving DecidableEq, Repr

/-- A page of ATTR and permissions allows an access at a level (R569). -/
def leafAllows (w : BitVec 64) (lv : Level) (k : AccKind) : Bool :=
  match lv, k with
  | .user, .read => w.getLsbD 58
  | .user, .write => w.getLsbD 57
  | .user, .fetch => w.getLsbD 56
  | .supervisor, .read => true
  | .supervisor, .write => w.getLsbD 55
  | .supervisor, .fetch => w.getLsbD 54
  | .monitor, _ => true

/-- Fields of a page table entry. -/
def pteType (w : BitVec 64) : Nat := w.toNat / 2 ^ 62
/-- ATTR. -/
def pteAttr (w : BitVec 64) : Nat := w.toNat / 2 ^ 59 % 4
/-- The physical address of the next table or of the page. -/
def ptePa (w : BitVec 64) : Nat := w.toNat / 2 ^ 11 % 2 ^ 29 * 2 ^ 11

/-- An entry that a walk refuses at a level 1 to 3 (R569). -/
def pteBad (w : BitVec 64) (level : Nat) : Bool :=
  let size := if level = 1 then 2 ^ 30 else if level = 2 then 2 ^ 20 else 2 ^ 12
  let next := if level = 1 then 2 ^ 13 else 2 ^ 11
  pteType w == 0 || pteType w == 3 || pteAttr w == 3 || w.toNat / 2 ^ 40 % 2 ^ 14 != 0 || w.toNat % 2 ^ 11 != 0 ||
  (pteType w == 1 && (level == 3 || ptePa w % next != 0)) || (pteType w == 2 && ptePa w % size != 0)

/-- The page size of a level, in address bits. -/
def levelSize (level : Nat) : Nat := if level = 1 then 30 else if level = 2 then 20 else 12

/-- How a translation ends: with a leaf and its size, a fault, the cause that a table read took (7 for an error response, 0x0B), or waiting. -/
inductive WalkEnd where
  | leaf (w : BitVec 64) (size : Nat) (s : State)
  | fault (s : State)
  | abort (code : Nat) (s : State)
  | wait (s : State)

/-- Walk the tables of a virtual address from a level on (R568, R569): entries are read through the L2, and `m` is what the first read
finds. -/
def State.walk (s : State) (n va : Nat) (m : Found) : Nat → Nat → Nat → WalkEnd
  | 0, _, _ => .fault s
  | fuel + 1, level, base =>
    let idx := if level = 1 then va / 2 ^ 30 % 1024 else if level = 2 then va / 2 ^ 20 % 1024 else va / 2 ^ 12 % 256
    match s.coreRead n .supervisor (base + 8 * idx) 8 0 .walk m with
    | .wait s => .wait s
    | .exc code s => .abort code s
    | .ok v s =>
      let w := BitVec.ofNat 64 v
      if pteBad w level then .fault s
      else if pteType w = 1 then s.walk n va ⟨.clean, false⟩ fuel (level + 1) (ptePa w)
      else .leaf w (levelSize level) s

/-- The ASID in use. -/
def Core.asid (c : Core) : Nat := c.root.toNat / 2 ^ 48 % 2 ^ 12
/-- The level-1 table. -/
def Core.table (c : Core) : Nat := c.root.toNat / 2 ^ 13 % 2 ^ 27 * 2 ^ 13

/-- A TLB entry translates an address under an ASID. -/
def TlbEntry.hits (t : TlbEntry) (va asid : Nat) : Bool :=
  t.vpn == va / 2 ^ t.size && (t.asid == asid || t.leaf.getLsbD 61)

/-- How an address translates: to a physical address and ATTR, or with a cause. -/
inductive XlatEnd where
  | pa (a attr : Nat) (s : State)
  | fault (s : State)
  | denied (s : State)
  | abort (code : Nat) (s : State)
  | wait (s : State)

/-- Use a leaf. -/
def useLeaf (w : BitVec 64) (size va : Nat) (lv : Level) (k : AccKind) (s : State) : XlatEnd :=
  if leafAllows w lv k then .pa (ptePa w / 2 ^ size * 2 ^ size + va % 2 ^ size) (pteAttr w) s else .denied s

/-- Translate a virtual address (R556, R557, R567 to R569). With `again` the TLBs no longer hold the translation. -/
def State.xlat (s : State) (n : Nat) (lv : Level) (va : BitVec 64) (k : AccKind) (again : Bool) (m : Found) : XlatEnd :=
  let a := va.toNat
  if 2 ^ 40 ≤ a then .fault s
  else if lv == .monitor then .pa a 0 s
  else
    let c := s.core n
    match (if again then none else c.tlb.find? (fun t => t.hits a c.asid)) with
    | some t => useLeaf t.leaf t.size a lv k s
    | none => match s.walk n a m 3 1 c.table with
      | .wait s => .wait s
      | .fault s => .fault (s.coreEvent n 0x207)
      | .abort code s => .abort code (s.coreEvent n 0x207)
      | .leaf w size s =>
        let s := s.coreEvent n 0x207
        let c := s.core n
        let t : TlbEntry := ⟨a / 2 ^ size, size, c.asid, w⟩
        useLeaf w size a lv k (s.setCore n { c with tlb := t :: c.tlb.filter (fun u => !u.hits a c.asid) })

end Sys2Proof.Machine
end

