-- ==== Sys2Proof/Machine/Cores.lean ====
section
/-!
DEFINITION. The Rilonef-C cores (13_control_complex.md, R552, R561, R562, R566, R571 to R574, R580 to R586, R697): issue,
exceptions, system registers and the device-specific instructions. The spec does not encode the ordinary base
instructions, so a command carries an instruction's operands; the base semantics are PRESUMED (log 50).
-/
namespace Sys2Proof.Machine
open Reg

/-! ## Exceptions (R571 to R573) -/

/-- The level a cause is taken at (Table 13.8, R572). -/
def causeLevel (code : Nat) (from_ : Level) : Level :=
  if code = 8 then .supervisor
  else if code = 9 || code = 0x0B then .monitor
  else if from_ == .monitor then .monitor else .supervisor

/-- A cause writes EXC_ADDR (R571). -/
def causeAddr (code : Nat) : Bool := (2 ≤ code && code ≤ 7) || code = 0x0B || code = 0x0C

/-- Entry to level x (R571): RET_PC, EXC_CODE and EXC_ADDR of the level, PREV and IE, and the jump to the handler. -/
def Core.enter (c : Core) (x : Level) (code off : Nat) (ret addr : BitVec 64) : Core :=
  let c := { c with prev := c.level, slh := none }
  if x == .monitor then
    { c with retM := ret, codeM := BitVec.ofNat 64 code, addrM := if causeAddr code then addr else c.addrM, ieM := false
             level := .monitor, pc := c.hvecM + BitVec.ofNat 64 off }
  else
    { c with retS := ret, codeS := BitVec.ofNat 64 code, addrS := if causeAddr code then addr else c.addrS, ieS := false
             level := x, pc := c.hvecS + BitVec.ofNat 64 off }

/-- The 6 cc of a RESTEER follow (R701): after a misprediction, an indirect jump, an exception entry or RFX. -/
def Core.resteer (c : Core) : Core := { c with steer := 6 }

/-- A synchronous cause, or a machine check (R571, R572, R574), of the instruction at the core's pc. -/
def State.coreExc (s : State) (n code : Nat) (addr : BitVec 64) : State :=
  let s := s.coreEvent n 0x209
  let c := (s.core n).resteer
  s.setCore n (c.enter (causeLevel code c.level) code (if code = 0x0B then 0x200 else 0) c.pc addr)

/-! ## Issue of an instruction -/

/-- How an instruction ends: at the next instruction, at a target, with a cause and its address, or waiting. -/
inductive InsEnd where
  | next (s : State)
  | jump (pc : BitVec 64) (s : State)
  | exc (code : Nat) (addr : BitVec 64) (s : State)
  | wait (s : State)

/-- The fetch of an instruction word from a physical address (R557, R563, R574, R735, R740): one at a die offset of 0xF_0000_0000 or above
is a device read. -/
def State.fetchFrom (s : State) (n pa attr : Nat) (m : Found) : CoreEnd := s.coreRead n (s.core n).level pa 4 attr .fetch m

/-- The word of a device-specific instruction (Table 13.10). -/
def deviceWord (sub : Nat) (rd ra rb : XReg) (imm : Byte) : Word :=
  BitVec.ofNat 32 (0x3B * 2 ^ 26 + rd.val * 2 ^ 21 + ra.val * 2 ^ 16 + rb.val * 2 ^ 11 + sub * 2 ^ 8 + imm.toNat)

/-- What a fetched word makes of a command that issues an instruction (R580): it is the instruction that the word spells, or the word is
a device-specific instruction with a reserved SUB, or another instruction. Of the ordinary instructions the spec encodes none. -/
inductive Spelt where
  | yes | illegal | other
  deriving DecidableEq, Repr

/-- How a fetched word reads for a command whose device-specific word is `want`, or that is an ordinary instruction. -/
def spelt (want : Option Word) (w : Word) : Spelt :=
  if bits w 31 26 ≠ 0x3B then (if want.isNone then .yes else .other)
  else if 4 ≤ bits w 10 8 then .illegal
  else if want = some w then .yes else .other

/-- A core that issues instructions: it exists, has left reset, is not stopped by SLH, its die has its clocks (R657), and its bank is not
lost (R682). -/
def State.coreIssues (s : State) (n : Nat) : Bool :=
  coreExists s.part n && (s.core n).run && (s.core n).slh.isNone && s.awake (coreDie n) && !s.unitHeld (coreDie n) 4

/-- The next instruction of core n waits, for its fetch (1) or for memory (2), or waits no more (0) (R701). -/
def State.stalled (s : State) (n why : Nat) : State := s.setCore n { s.core n with stall := why }

/-- Finish an instruction: the pc moves on, or the cause is taken with the state as the cause left it (R571, R573). -/
def State.finish (n : Nat) : InsEnd → State
  | .next s => s.setCore n { s.core n with pc := (s.core n).pc + 4 }
  | .jump pc s => s.setCore n { s.core n with pc := pc }
  | .exc code addr s => s.coreExc n code addr
  | .wait s => s

/-- Issue an instruction (R561, R568, R573, R574, R580): its fetch is translated and read, and then it acts on the core. A fetched word
that spells another instruction than the command's leaves the core where it is. -/
def State.issueAs (s : State) (x : CoreIssue) (want : Option Word) (f : State → Core → InsEnd) : Out := s.event fun s =>
  let n := x.core.val
  if !s.coreIssues n then s
  else
    let pc := (s.core n).pc
    match s.xlat n (s.core n).level pc .fetch x.walkFetch x.fetchTable with
    | .wait s => s.stalled n 1
    | .fault s => s.coreExc n 2 pc
    | .denied s => s.coreExc n 2 pc
    | .abort code s => s.coreExc n (if code = 7 then 3 else code) pc
    | .pa a attr s => match s.fetchFrom n a attr x.fetch with
      | .wait s => s.stalled n 1
      | .exc code s => s.coreExc n (if code = 7 then 3 else code) pc
      | .ok v s =>
        let l := (s.core n).level
        match spelt want (BitVec.ofNat 32 v) with
        | .other => s
        | .illegal => (s.coreExc n 0 0).coreIssued n l
        | .yes => match f s (s.core n) with
          | .wait s => s.stalled n 2
          | e => ((State.finish n e).stalled n 0).coreIssued n l

/-- Issue an ordinary instruction. -/
def State.issue (s : State) (x : CoreIssue) (f : State → Core → InsEnd) : Out := s.issueAs x none f

/-- Issue a device-specific instruction (Table 13.10). -/
def State.issueDevice (s : State) (x : CoreIssue) (sub : Nat) (rd ra rb : XReg) (imm : Byte) (f : State → Core → InsEnd) : Out :=
  s.issueAs x (some (deviceWord sub rd ra rb imm)) f

/-- An instruction of an unprivileged level that needs supervisor or monitor (R582). -/
def Core.isUser (c : Core) : Bool := c.level == .user

/-! ## Loads and stores (R556 to R559, R563, R565) -/

/-- CORE_LOAD (R563): 1, 2, 4 or 8 bytes. -/
def execCoreLoad (x : CoreIssue) (rd ra : XReg) (off : BitVec 64) (log2 : Fin 4) (sx : Bool) (s : State) : Out :=
  s.issue x fun s c =>
    let n := x.core.val
    let va := c.reg ra + off
    let k := 2 ^ log2.val
    if va.toNat % k ≠ 0 then .exc 4 va s
    else match s.xlat n c.level va .read x.walk x.table with
    | .wait s => .wait s
    | .fault s => .exc 5 va s
    | .denied s => .exc 6 va s
    | .abort code s => .exc code va s
    | .pa a attr s => match s.coreRead n c.level a k attr .load x.mem with
      | .wait s => .wait s
      | .exc code s => .exc code va s
      | .ok v s =>
        let c := s.core n
        let v := if s.via n a attr == .mesh then v else overlay c.sb a k v
        let w : BitVec 64 := if sx then BitVec.ofInt 64 (signed (8 * k) v) else BitVec.ofNat 64 v
        .next (s.setCore n (c.setReg rd w))

/-- CORE_STORE (R558, R565). -/
def execCoreStore (x : CoreIssue) (rs ra : XReg) (off : BitVec 64) (log2 : Fin 4) (s : State) : Out :=
  s.issue x fun s c =>
    let n := x.core.val
    let va := c.reg ra + off
    let k := 2 ^ log2.val
    if va.toNat % k ≠ 0 then .exc 4 va s
    else match s.xlat n c.level va .write x.walk x.table with
    | .wait s => .wait s
    | .fault s => .exc 5 va s
    | .denied s => .exc 6 va s
    | .abort code s => .exc code va s
    | .pa a attr s => match s.coreWrite n c.level a k attr ((c.reg rs).toNat % 256 ^ k) x.mem with
      | .wait s => .wait s
      | .exc code s => .exc code va s
      | .ok _ s => .next s

/-! ## System registers (Table 13.6, R697) -/

/-- The lowest level of a system register, by number; none where Table 13.6 lists no such number. -/
def sysLevel (n : Nat) : Option Level :=
  if n = 0x000 || n = 0x030 then some .user
  else if n = 0x001 || n = 0x010 || n = 0x012 || n = 0x014 || n = 0x016 || n = 0x020 || n = 0x031 then some .supervisor
  else if n = 0x011 || n = 0x013 || n = 0x015 || n = 0x017 then some .monitor
  else if 0x040 ≤ n && n ≤ 0x048 then some .user
  else none

/-- The unit of a core's counters. -/
def unitAt (n : Nat) : Nat := place (coreDie n) (1 + coreLocal n)

/-- STATUS as MFS reads it. -/
def Core.status (c : Core) : Nat :=
  levelCode c.prev + 4 * b2n c.ieS + 8 * b2n c.ieM + 16 * b2n c.ucrd

/-- The value of a system register. -/
def State.sysRead (s : State) (n k : Nat) : BitVec 64 :=
  let c := s.core n
  let cnt (i : Nat) : Nat := place (coreDie n) ((1 + coreLocal n) * 8 + i)
  if k = 0x000 then BitVec.ofNat 64 n
  else if k = 0x001 then BitVec.ofNat 64 c.status
  else if k = 0x010 then c.hvecS
  else if k = 0x011 then c.hvecM
  else if k = 0x012 then c.retS
  else if k = 0x013 then c.retM
  else if k = 0x014 then c.codeS
  else if k = 0x015 then c.codeM
  else if k = 0x016 then c.addrS
  else if k = 0x017 then c.addrM
  else if k = 0x020 then c.root
  else if k = 0x030 then BitVec.ofNat 64 s.clk.ac
  else if k = 0x031 then c.cmp
  else if k = 0x040 then BitVec.ofNat 64 ((s.rdEff PMC_CYC_HI (unitAt n)).toNat * 2 ^ 32 + (s.rd PMC_CYC_LO (unitAt n)).toNat)
  else BitVec.ofNat 64 ((s.rdEff PMC_CNT_HI (cnt (k - 0x041))).toNat % 2 ^ 16 * 2 ^ 32 +
    (s.rd PMC_CNT_LO (cnt (k - 0x041))).toNat)

/-- Write a counter's two words, held and live (R695, R697). -/
def State.sysCounter (s : State) (lo hi at_ : Nat) (v : BitVec 64) (width : Nat) : State :=
  let h : Word := BitVec.ofNat 32 (v.toNat / 2 ^ 32 % 2 ^ (width - 32))
  ((s.wr lo at_ (v.setWidth 32)).wr hi at_ h).wrEff hi at_ h

/-- Write a system register; CORE_ID and TMR are read only. The reserved bits of XLT_ROOT and the low bits of HVEC stay 0. -/
def State.sysWrite (s : State) (n k : Nat) (v : BitVec 64) : State :=
  let c := s.core n
  let page : BitVec 64 := v &&& ~~~0xFFF#64
  if k = 0x001 then
    let (p, s) := match codeLevel (v.toNat % 4) with
      | some l => (l, s)
      | none => let (q, s) := s.draw Config.freePrev; ((codeLevel (q % 3)).getD .user, s)
    s.setCore n { c with prev := p, ieS := v.getLsbD 2, ieM := v.getLsbD 3, ucrd := v.getLsbD 4 }
  else if k = 0x010 then s.setCore n { c with hvecS := page }
  else if k = 0x011 then s.setCore n { c with hvecM := page }
  else if k = 0x012 then s.setCore n { c with retS := v }
  else if k = 0x013 then s.setCore n { c with retM := v }
  else if k = 0x014 then s.setCore n { c with codeS := v }
  else if k = 0x015 then s.setCore n { c with codeM := v }
  else if k = 0x016 then s.setCore n { c with addrS := v }
  else if k = 0x017 then s.setCore n { c with addrM := v }
  else if k = 0x020 then s.setCore n { c with root := v &&& 0x0FFF00FFFFFFE000#64 }
  else if k = 0x031 then s.setCore n { c with cmp := v }
  else if k = 0x040 then s.sysCounter PMC_CYC_LO PMC_CYC_HI (unitAt n) v 64
  else if 0x041 ≤ k then
    s.sysCounter PMC_CNT_LO PMC_CNT_HI (place (coreDie n) ((1 + coreLocal n) * 8 + (k - 0x041))) v 48
  else s

/-- An access to a system register that is not allowed: its cause (R566, R697). -/
def State.sysCause (s : State) (n k : Nat) (write : Bool) : Option Nat :=
  let c := s.core n
  match sysLevel k with
  | none => some 0
  | some l =>
    if levelCode c.level < levelCode l then some 1
    else if 0x040 ≤ k && c.isUser && (write || !s.is PMC_CTL_USER_RD (unitAt n)) then some 1
    else none

/-- MFS (R566, R697). -/
def execMfs (x : CoreIssue) (rd : XReg) (n : BitVec 12) (s : State) : Out := s.issue x fun s c =>
  match s.sysCause x.core.val n.toNat false with
  | some code => .exc code 0 s
  | none => .next (s.setCore x.core.val (c.setReg rd (s.sysRead x.core.val n.toNat)))

/-- MTS (R566, R697). -/
def execMts (x : CoreIssue) (n : BitVec 12) (ra : XReg) (s : State) : Out := s.issue x fun s c =>
  match s.sysCause x.core.val n.toNat true with
  | some code => .exc code 0 s
  | none => .next (s.sysWrite x.core.val n.toNat (c.reg ra))

/-! ## TLB and cache maintenance (R559, R570) -/

/-- TLB_INVALIDATE (R570): at user level it raises PRIV (log 51). -/
def execTlbInvalidate (x : CoreIssue) (k : TlbInv) (s : State) : Out := s.issue x fun s c =>
  if c.isUser then .exc 1 0 s
  else
    let keep (t : TlbEntry) : Bool := match k with
      | .all => false
      | .asid ra => t.leaf.getLsbD 61 || t.asid != (c.reg ra).toNat % 2 ^ 12
      | .va ra => t.vpn != (c.reg ra).toNat / 2 ^ t.size
    .next (s.setCore x.core.val { c with tlb := c.tlb.filter keep })

/-- Wait until a core's store buffer is empty, and go on (R581): a store whose target sleeps keeps the instruction waiting. -/
def State.drained (s : State) (n : Nat) (f : State → InsEnd) : InsEnd :=
  let s := s.drainAll n
  if (s.core n).sb.isEmpty then f s else .wait s

/-- What maintenance by address does on a line die (R559): to the copies of a line in every cache of the die (log 51). -/
def State.maintain (s : State) (d pa : Nat) (lost : Bool) : CacheOp → CoreEnd
  | .clean => s.writeBack d pa lost
  | .invalidate => .ok 0 ((s.dropLine d pa).dropCode d pa)
  | .cleanInvalidate => (s.evictLine d pa lost).andThen fun s => .ok 0 (s.dropCode d pa)

/-- What maintenance by set and way does to the line of core n's caches or of the L2 of its die that they name, if any: an L1 data
cache is cleaned to the L2, and the L2 to memory. -/
def State.maintainAt (s : State) (n : Nat) (kind : CacheKind) (set way : Nat) (lost : Bool) (op : CacheOp) : CoreEnd :=
  let c : Cache := match kind with | .code => .code n | .data => .data n | .l2 => .l2 (coreDie n)
  if s.ways c ≤ way || (kind != .l2 && 256 ≤ set) then .ok 0 s
  else match s.lineAt c (c.first (set * 64) + way) with
  | none => .ok 0 s
  | some l =>
    let pa := l.tag * 64
    match kind with
    | .code => .ok 0 (if op = .clean then s else s.setLine c pa none)
    | .data =>
      let s := if op = .invalidate then s else s.mergeLine n pa
      .ok 0 (if op = .clean then s else s.setLine c pa none)
    | .l2 => match op with
      | .clean => s.writeBack (coreDie n) pa lost
      | .invalidate => .ok 0 (s.dropLine (coreDie n) pa)
      | .cleanInvalidate => s.evictLine (coreDie n) pa lost

/-- CACHE_MAINTENANCE (R559): by address, translated as a read, or by set and way, which at user level raises PRIV
(log 51). Earlier stores of the core reach the caches first. -/
def execCacheMaintenance (x : CoreIssue) (op : CacheOp) (at_ : CacheAt) (s : State) : Out := s.issue x fun s c =>
  let n := x.core.val
  let act (s : State) (va : BitVec 64) (f : State → CoreEnd) : InsEnd := s.drained n fun s =>
    match f s with
    | .ok _ s => .next s
    | .exc k s => .exc k va s
    | .wait s => .wait s
  match at_ with
  | .setWay k set way =>
    if c.isUser then .exc 1 0 s else act s 0 (fun s => s.maintainAt n k set.val way.val x.mem.lost op)
  | .address ra =>
    let va := c.reg ra
    match s.xlat n c.level va .read x.walk x.table with
    | .wait s => .wait s
    | .fault s => .exc 5 va s
    | .denied s => .exc 6 va s
    | .abort code s => .exc code va s
    | .pa a _ s => act s va (fun s => s.maintain (coreDie n) a x.mem.lost op)

/-! ## Calls, returns and interrupts (R571, R574, R576) -/

/-- SUPERVISOR_CALL (R571). -/
def execSupervisorCall (x : CoreIssue) (s : State) : Out := s.issue x fun s _ => .exc 8 0 s
/-- MONITOR_CALL (R571). -/
def execMonitorCall (x : CoreIssue) (s : State) : Out := s.issue x fun s _ => .exc 9 0 s

/-- RFX (R571): returns from a handler at the current level; there is none at user level, where it raises PRIV (log 52). -/
def execRfx (x : CoreIssue) (s : State) : Out := s.issue x fun s c =>
  match c.level with
  | .user => .exc 1 0 s
  | .supervisor => .jump c.retS (s.setCore x.core.val { c.resteer with level := c.prev, ieS := true })
  | .monitor => .jump c.retM (s.setCore x.core.val { c.resteer with level := c.prev, ieM := true })

/-- The core waits for the responses of a span write or an SPNW (R558, R581): it issues nothing later. -/
def State.spanWaits (s : State) (n : Nat) : Bool := (s.spanAt (32 + n)).isSome || (s.spanAt (16 + n)).isSome

/-- INTERRUPT_ENTRY (R558, R571, R576): taken when IE of the level is 1, at whatever level the core runs, or when it runs below the
interrupt's level. -/
def execInterruptEntry (core : Fin 12) (l : Fin 2) (s : State) : Out := s.event fun s =>
  let n := core.val
  let c := s.core n
  let x : Level := if l.val = 1 then .monitor else .supervisor
  let open_ := (if l.val = 1 then c.ieM else c.ieS) || levelCode c.level < levelCode x
  if !s.coreIssues n || (s.deliverable n l.val).isNone || !open_ || s.spanWaits n then s
  else
    let s := s.coreEvent n 0x20A
    s.setCore n (c.resteer.enter x 0x10 0x100 c.pc 0)

/-- MACHINE_CHECK (R574): an uncorrectable error in a dirty line at its eviction from the core's L1 data cache or its die's L2; the
line is lost, and RET_PC_M names the next instruction. -/
def execMachineCheck (core : Fin 12) (line : BitVec 34) (s : State) : Out := s.event fun s =>
  let n := core.val
  let d := coreDie n
  let pa := line.toNat * 64
  if !s.coreIssues n || !((s.line (.data n) pa).any (·.dirty) || (s.line (.l2 d) pa).any (·.dirty)) then s
  else ((s.count CTL_ECC_UE (onDie d)).dropLine d pa).coreExc n 0x0B (BitVec.ofNat 64 pa)

/-! ## Device-specific instructions (R580 to R586) -/

/-- BAR (R581): no operand but IS, WB and SB. Write-backs are acknowledged as they are made, and nothing fetched is kept. -/
def execBar (x : CoreIssue) (rd ra rb : XReg) (imm : Byte) (s : State) : Out := s.issueDevice x 0 rd ra rb imm fun s _ =>
  if rd.val ≠ 0 || ra.val ≠ 0 || rb.val ≠ 0 || 8 ≤ imm.toNat then .exc 0 0 s
  else if imm.getLsbD 0 then s.drained x.core.val .next
  else .next s

/-- SPNW (R581 to R583): a part that is held makes the instruction wait. -/
def execSpnw (x : CoreIssue) (rd ra rb : XReg) (imm : Byte) (s : State) : Out := s.issueDevice x 1 rd ra rb imm fun s c =>
  let n := x.core.val
  let b := c.reg rb
  if c.isUser then .exc 1 0 s
  else if b.toNat / 2 ^ 32 ≠ 0xF || b.toNat % 4 ≠ 0 then .exc 0x0C b s
  else
    let key := 16 + n
    let s := match s.spanAt key with
      | some _ => s
      | none => s.spanDeliver key (.core x.core) c.level (if imm = 0 then 0xFF else imm.toNat) b.toNat 4
          ((c.reg ra).toNat % 2 ^ 32)
    match s.spanAt key with
    | none => .next s
    | some w =>
      if w.waiting ≠ 0 then .wait s
      else
        let s := s.setSpan key none
        .next (s.setCore n ((s.core n).setReg rd (BitVec.ofNat 64 w.applied)))

/-- CRD (R147, R581 to R585): an index beyond the die's pairs reads free values, as the spec gives it none. -/
def execCrd (x : CoreIssue) (rd ra rb : XReg) (imm : Byte) (s : State) : Out := s.issueDevice x 2 rd ra rb imm fun s c =>
  let n := x.core.val
  let a := (c.reg ra).toNat
  let t := a / 2 ^ 32
  let i := a % 2 ^ 18
  if rd.val % 2 ≠ 0 || 2 ≤ imm.toNat then .exc 0 0 s
  else if c.isUser && !c.ucrd then .exc 1 0 s
  else if 6 ≤ t || a % 2 ^ 32 / 2 ^ 18 ≠ 0 then .exc 0x0C (c.reg ra) s
  else
    let _ := rb
    match s.reach (coreDie n) t with
    | .asleep _ => .wait (s.wakeRoute (coreDie n) t)
    | .error => .exc 7 (c.reg ra) (s.refuseIfAbsent (coreDie n) t 0 false a)
    | .open_ _ =>
      let (p, s) := if i < cntPairs t then (s.pair t i, s)
        else
          let (u, s) := s.draw Config.freeCells
          let (v, s) := s.draw Config.freeCells
          ((u % 2 ^ 40, v % 2 ^ 56), s)
      let s := if imm.getLsbD 0 then s.setPair t i 0 0 else s
      if x.mem.lost && t != coreDie n then .exc 7 (c.reg ra) s
      else .next (s.setCore n (((s.core n).setReg rd (BitVec.ofNat 64 p.1)).setReg (rd + 1) (BitVec.ofNat 64 p.2)))

/-- The wake condition of SLH with wake time xa (R581): an interrupt deliverable at any level, whatever IE, or TMR. -/
def State.slhWakes (s : State) (n : Nat) (xa : BitVec 64) : Bool :=
  (s.deliverable n 0).isSome || (s.deliverable n 1).isSome || (xa != 0 && decide (xa.toNat ≤ s.clk.ac % 2 ^ 64))

/-- SLH (R581, R582, R586): the core stops issue unless a wake condition stands. -/
def execSlh (x : CoreIssue) (rd ra rb : XReg) (imm : Byte) (s : State) : Out := s.issueDevice x 3 rd ra rb imm fun s c =>
  let n := x.core.val
  if rd.val ≠ 0 || rb.val ≠ 0 || imm ≠ 0 then .exc 0 0 s
  else if c.isUser then .exc 1 0 s
  else
    s.drained n fun s =>
      if s.slhWakes n (c.reg ra) then .next s
      else .next (s.setCore n { s.core n with slh := some (c.reg ra) })

/-- SLH_WAKE (R581, R586, R667): the core resumes at the next instruction; a die that is not in RUN leaves its state first. -/
def execSlhWake (core : Fin 12) (s : State) : Out := s.island (coreDie core.val) 4 fun s =>
  let n := core.val
  match (s.core n).slh with
  | none => s
  | some xa =>
    if !s.slhWakes n xa then s
    else if s.awake (coreDie n) then s.setCore n { s.core n with slh := none }
    else s.wakeReq (coreDie n) 7 n

/-! ## Base instructions (R562; PRESUMED, log 50) -/

/-- A division, with the corners the spec does not give. -/
def coreDiv (op : Nat) (a b r : BitVec 64) : BitVec 64 :=
  if b = 0 || (op % 2 = 0 && a = BitVec.intMin 64 && b = -1) then Config.coreDivide op a b else r

/-- The result of an integer instruction; none for a cause. -/
def intResult (op : IntOp) (a b : BitVec 64) : Option (BitVec 64) :=
  match op with
  | .add => some (a + b)
  | .sub => some (a - b)
  | .and => some (a &&& b)
  | .or => some (a ||| b)
  | .xor => some (a ^^^ b)
  | .shl => some (a <<< (b.toNat % 64))
  | .shr => some (a >>> (b.toNat % 64))
  | .sar => some (a.sshiftRight (b.toNat % 64))
  | .slt => some (if a.slt b then 1 else 0)
  | .sltu => some (if a.ult b then 1 else 0)
  | .mul => some (a * b)
  | .mulh => some (BitVec.ofInt 64 (a.toInt * b.toInt / 2 ^ 64))
  | .mulhu => some (BitVec.ofNat 64 (a.toNat * b.toNat / 2 ^ 64))
  | .div => some (coreDiv 0 a b (a.sdiv b))
  | .divu => some (coreDiv 1 a b (a / b))
  | .rem => some (coreDiv 2 a b (a.srem b))
  | .remu => some (coreDiv 3 a b (a % b))
  | .breakpoint | .reserved => none

/-- CORE_INTEGER_OPERATION (R562): a breakpoint and a reserved encoding take their causes (Table 13.8). -/
def execCoreIntegerOperation (x : CoreIssue) (op : IntOp) (rd ra : XReg) (b : CoreSrc) (s : State) : Out :=
  s.issue x fun s c =>
    let y := match b with | .reg r => c.reg r | .imm v => v
    match intResult op (c.reg ra) y with
    | some v => .next (s.setCore x.core.val (c.setReg rd v))
    | none => .exc (if op = .breakpoint then 0x0A else 0) 0 s

/-- A condition holds. -/
def condHolds (k : CoreCond) (a b : BitVec 64) : Bool :=
  match k with
  | .eq => a == b
  | .ne => a != b
  | .lt => a.slt b
  | .ge => !a.slt b
  | .ltu => a.ult b
  | .geu => !a.ult b

/-- The link register takes the address of the next instruction. -/
def Core.linked (c : Core) : Option XReg → Core
  | none => c
  | some r => c.setReg r (c.pc + 4)

/-- A misprediction or an indirect jump of core n is counted, and 6 cc of RESTEER follow (R562, R701, Table 17.4). -/
def State.missteer (s : State) (n : Nat) : State :=
  let s := s.coreEvent n 0x208
  s.setCore n (s.core n).resteer

/-- CORE_BRANCH (R562): a backward conditional branch is predicted taken and a forward one not; a jump to a displacement needs no
prediction. -/
def execCoreBranch (x : CoreIssue) (j : CoreJump) (s : State) : Out := s.issue x fun s c =>
  let n := x.core.val
  match j with
  | .branch k ra rb off =>
    let taken := condHolds k (c.reg ra) (c.reg rb)
    let s := if taken == off.msb then s else s.missteer n
    if taken then .jump (c.pc + off) s else .next s
  | .jump l off => .jump (c.pc + off) (s.setCore n (c.linked l))
  | .indirect l ra off => .jump (c.reg ra + off) ((s.setCore n (c.linked l)).missteer n)

end Sys2Proof.Machine
end

