-- ==== Sys2Proof/Machine/Mesh.lean ====
section
/-!
DEFINITION. Mesh requests, error responses, span writes and held traffic (R25 to R37, R107, R145 to R147, R665, R666, R735
to R748).
-/
namespace Sys2Proof.Machine
open Reg

/-! ## The TAP (R107, R654) -/

/-- The TAP may make an access (R104, R107): with no debug level granted it may read FRZ.STATUS, HW.ID and HW.OPMODE and
write FRZ.CTL; at OBSERVE it may read, and select the chain that it may shift, and at OPEN do everything. -/
def State.tapMay (s : State) (write : Bool) (addr : Nat) : Bool :=
  let l := s.hw.dbg.level
  l == 2 || (l == 1 && !write) ||
  (match target s.part (addr / 2 ^ 36) (addr % 2 ^ 36) with
    | .reg r _ => addr / 2 ^ 36 == 0 &&
        (if write then r == FRZ_CTL || (l == 1 && r == FRZ_CHAIN_SEL) else r == FRZ_STATUS || r == HW_ID || r == HW_OPMODE)
    | .hole | .outside => false)

/-- A register of the headwater, in the ac domain: it is on no inspect chain and a freeze does not stop it (R99, R104). -/
def inAc (d reg : Nat) : Bool := d == 0 && [0x00, 0x01, 0x02, 0x03, 0x05].contains (reg / 256)

/-- Memory that a TAP at OBSERVE sees: an enabled secret region reads 0 (R654). -/
def State.hidden (s : State) (addr : Nat) : Bool :=
  s.hw.dbg.level == 1 && (List.range 8).any (fun k =>
    let (a, n) := s.secretRegion k
    s.is HW_SRGN_CTL_EN (d0i k) && a ≤ addr && addr < a + n)

/-! ## Requests -/

/-- A request takes an error response after a count (R30, R36, R145, R737). -/
def State.meshError (s : State) (r : MeshReq) (count : Nat) : State :=
  let s := s.answer (reqCode r.req) { err := true, count := count }
  { s with mesh := { s.mesh with errs := s.mesh.errs ++ [⟨r.req, r.addr, r.write⟩] } }

/-- The requester's router refuses a request and reports it (R30, R32, R735, R745). -/
def State.meshRefuse (s : State) (r : MeshReq) : State :=
  (s.refuse (reqDie r.req) (reqSource r.req) r.write r.addr.toNat).meshError r 12

/-- The answer of an access that its target took, with its count (R563, Table 7.6). -/
def State.meshCount (s : State) (r : Nat) (count : Nat) : State := s.answer r { s.answerOf r with count := count }

/-- A request acts at its target, h hops away (R25, R736 to R740). -/
def State.meshAct (s : State) (r : MeshReq) (h : Nat) (e : Ecc) : State :=
  let d := r.addr.toNat / 2 ^ 36
  let off := r.addr.toNat % 2 ^ 36
  let n := 2 ^ r.log2
  let code := reqCode r.req
  if 0xF00000000 ≤ off then
    if r.write then
      match s.windowWrite r.req r.level d off n (r.data.setWidth 32) with
      | none => s.meshError r (44 * h + 12)
      | some s => s.answer code { count := 44 * h + 16 }
    else
      match s.windowRead r.req r.level d off n with
      | none => s.meshError r (44 * h + 12)
      | some s => s.meshCount code (44 * h + 16)
  else
    let c := respCount (s.region d off) r.write h
    if r.write then
      match s.memWrite d off n (r.data.toNat % 256 ^ n) with
      | none => s.meshError r c
      | some s => s.answer code { count := c }
    else
      match s.memRead d off n e with
      | (none, s) => s.meshError r c
      | (some v, s) =>
        let v := if r.req = .tap && s.hidden r.addr.toNat then 0 else v
        s.answer code { data := BitVec.ofNat 64 v, count := c }

/-- What a router holds for a target is a request of die a. -/
def Held.requestOf (a : Nat) : Held → Bool
  | .request r => reqDie r.req == a
  | .command _ | .posted _ _ _ | .span _ _ _ _ _ _ _ => false

/-- A router holds a request for a die that does not run, at most 64 for each target, and wakes it; a further one waits at
its requester and follows those that are held (R665, R666). -/
def State.holdRequest (s : State) (r : MeshReq) : State :=
  let d := r.addr.toNat / 2 ^ 36
  let a := reqDie r.req
  let s := s.wakeRoute a d
  if 64 ≤ (s.mesh.held.filter (fun x => x.1 == d && x.2.requestOf a)).length then
    { s with mesh := { s.mesh with waiting := s.mesh.waiting ++ [r] } }
  else ({ s with mesh := { s.mesh with held := s.mesh.held ++ [(d, Held.request r)] } }).pmcEvent a 0 0x00C d 1

/-- A write to the span window from a core or the TAP (R745 to R748): one that the requester still waits for comes first. -/
def State.spanStart (s : State) (r : MeshReq) : State :=
  match spanPlace r.req with
  | none => s.meshRefuse r
  | some k =>
    if !r.write || r.level == .user then s.meshRefuse r
    else if (s.spanAt k).isSome then s
    else
      let n := 2 ^ r.log2
      let off := r.addr.toNat % 2 ^ 36
      let s := s.spanDeliver k r.req r.level 0xFF off n (r.data.toNat % 256 ^ n)
      let w := (s.spanAt k).getD ⟨0, 0, 0⟩
      let t := (bitList 8 (w.applied ||| w.failed)).foldl
        (fun m d => Nat.max m (s.spanCount (reqDie r.req) d off (bitOf w.applied d))) 0
      (s.answer (reqCode r.req) { count := t }).spanSettle k

/-- A request leaves its requester (R21, R25, R30, R36, R37, R145, R735); `e` is what a memory that it reads finds (R529, R530). -/
def State.meshSend (s : State) (r : MeshReq) (e : Ecc) : State :=
  let d := r.addr.toNat / 2 ^ 36
  if d = 0xF then s.spanStart r
  else if 8 ≤ d then s.meshRefuse r
  else match s.route (reqDie r.req) d with
    | .absent => s.meshRefuse r
    | .firstDown _ => s.meshError r 12
    | .secondDown _ _ => s.meshError r 56
    | .asleep _ => s.holdRequest r
    | .clear h => s.meshAct r h e

/-- A TAP access (R31, R107): one it may not make returns 0 with the error flag set. While the stoppable domains are stopped
a read shows a register or memory as it stands, but a free value for a register of a die that a part rotation of a chain
disturbs (R108), and a write reaches FRZ.CTL and FRZ.CHAIN_SEL only. -/
def State.tapSend (s : State) (r : MeshReq) (e : Ecc) : State :=
  let d := r.addr.toNat / 2 ^ 36
  let off := r.addr.toNat % 2 ^ 36
  if d ≠ 0xF && !s.tapMay r.write r.addr.toNat then
    { s with mesh := { s.mesh with tapErr := true } }.answer 12 { err := true }
  else if d = 0xF && s.hw.dbg.level ≠ 2 then
    { s with mesh := { s.mesh with tapErr := true } }.answer 12 { err := true }
  else if s.running then s.meshSend r e
  else match target s.part d off with
    | .reg reg i =>
      if r.write then
        (if reg = FRZ_CTL || reg = FRZ_CHAIN_SEL then s.regWrite .tap r.level d reg i (r.data.setWidth 32) 0 else s)
      else
        let (w, s) := if s.disturbed d reg i && !inAc d reg then s.draw Config.freeReserved else ((s.view d reg i).1, s)
        s.answer 12 { data := (w &&& readMask (regDesc reg).fields).setWidth 64 }
    | .hole => if r.write then s else s.answer 12 {}
    | .outside =>
      if r.write then s
      else s.answer 12 { data := if s.hidden r.addr.toNat then 0 else BitVec.ofNat 64 (s.load r.addr.toNat (2 ^ r.log2)) }

/-- The contents of an array word as far as the spec lays them out (Tables 8.10, 8.15 and 12.1, R360, R366); none else. -/
def State.arrayWord (s : State) (a : ArrayAt) : Option (BitVec 64) :=
  let d := a.die.val
  match a.at_ with
  | .buffer bank row =>
    if d < 6 then none
    else some (BitVec.ofNat 64 (s.load (d * 2 ^ 36 + row.val * 2 ^ 19 + bank.val % 16 * 2 ^ 15 + bank.val / 16 * 2 ^ 10 + a.word.val * 8) 8))
  | .pair i => some (BitVec.ofNat 64 (if a.word.val % 2 = 0 then (s.pair d i.val).1 else (s.pair d i.val).2))
  | .imem i => (s.imemStored d (i.val / 8192) (i.val % 8192)).map (·.setWidth 64)
  | .queue _ | .exact _ | .ternary _ | .lpm _ | .group _ | .copy _ | .skew _ _ | .reorder _ | .eddy _ | .orderHold _ | .delta _
  | .source _ _ => none

/-- A read through the TAP's array port (R106, R107): at OBSERVE and OPEN it reads every memory of Table 12.3, which the kiln and the key
slots are not among. How an array lays out what it holds the spec says of some only; of the others a word is a free value (log 115). -/
def State.tapArray (s : State) (a : ArrayAt) (write : Bool) : State :=
  if s.hw.dbg.level = 0 then { s with mesh := { s.mesh with tapErr := true } }.answer 12 { err := true }
  else if write || !present s.part a.die.val then s.answer 12 {}
  else match s.arrayWord a with
    | some w => s.answer 12 { data := w }
    | none =>
      let (x, s) := s.draw Config.freeReserved
      let (y, s) := s.draw Config.freeReserved
      s.answer 12 { data := x ++ y }

/-- MESH_REQUEST (R25, R106): a tile's request that R316 refuses is never sent. -/
def execMeshRequest (x : MeshFrom) (lv : Level) (write : Bool) (addr : Addr) (log2 : Fin 4) (data : BitVec 64)
    (s : State) : Out :=
  let req := x.at_
  let r : MeshReq := { req := req, level := lv, write := write, addr := addr, log2 := log2.val, data := data }
  match req with
  | .tap => s.acEvent fun s => match x.array with
    | some a => s.tapArray a write
    | none => s.tapSend r x.e
  | .core _ | .dma _ _ => s.event fun s => s.meshSend r x.e
  | .tile _ _ => s.event fun s => if addrIllegal addr.toNat then s else s.meshSend r x.e

/-- SPAN_WRITE (R745 to R748): a 32-bit write to a die offset through the span window; a tile's raises ILLEGAL instead. -/
def execSpanWrite (req : Requester) (lv : Level) (off : BitVec 36) (v : Word) (s : State) : Out :=
  let r : MeshReq := { req := req, level := lv, write := true, addr := BitVec.ofNat 40 (0xF * 2 ^ 36 + off.toNat), log2 := 2
                       data := v.setWidth 64 }
  match req with
  | .tile _ _ => s.event fun s => s
  | .tap => s.acEvent fun s => s.tapSend r .clean
  | .core _ | .dma _ _ => s.event fun s => s.meshSend r .clean

/-- ERROR_RESPONSE (R31): the oldest error response on its way to a requester reaches it. -/
def execErrorResponse (req : Requester) (s : State) : Out := s.event fun s =>
  match s.mesh.errs.find? (fun e => e.req == req) with
  | none => s
  | some e =>
    let s := { s with mesh := { s.mesh with errs := s.mesh.errs.erase e } }
    match req with
    | .core n => if s.coreIssues n.val then s.coreExc n.val 7 (e.addr.setWidth 64) else s
    | .dma d ch =>
      if s.dmaActive d.val ch.val then
        let (k, s) := s.draw Config.freeReserved
        s.dmaBus d.val ch.val e.addr.toNat e.dir false false (k.toNat % 2 ^ 24)
      else s
    | .tile d t => match s.thread d.val t.val with
      | none => s
      | some x => s.tileExc d.val t.val x 5
    | .tap => { s with mesh := { s.mesh with tapErr := true } }.answer 12 { err := true }

/-! ## Held traffic (R37, R665, R666) -/

/-- A held item goes on its way. -/
def State.sendHeld (s : State) : Held → State
  | .request r => s.meshSend r .clean
  | .command f => s.launch { f with launch := s.clk.mc }
  | .posted a _ m => s.sendPosted a m
  | .span key req lv d off n v => (s.spanSend key req lv off n v d).spanSettle key

/-- The traffic held for a die may go: no die of its route is asleep. -/
def State.mayRelease (s : State) (x : Nat × Held) (d : Nat) : Bool :=
  x.1 == d && (match s.route x.2.source d with
    | .asleep _ => false
    | .clear _ | .absent | .firstDown _ | .secondDown _ _ => true)

/-- HELD_TRAFFIC_RELEASE (R665, R666): in arrival order; a request that had no room in its router leaves its requester after them. -/
def execHeldTrafficRelease (d : Die) (s : State) : Out := s.event fun s =>
  let mine (r : MeshReq) := s.mayRelease (r.addr.toNat / 2 ^ 36, .request r) d.val
  let go := s.mesh.held.filter (fun x => s.mayRelease x d.val)
  let stay := s.mesh.held.filter (fun x => !s.mayRelease x d.val)
  let late := s.mesh.waiting.filter mine
  let s := { s with mesh := { s.mesh with held := stay, waiting := s.mesh.waiting.filter (fun r => !mine r) } }
  late.foldl (fun (s : State) r => s.meshSend r .clean) (go.foldl (fun (s : State) x => s.sendHeld x.2) s)

end Sys2Proof.Machine
end

