-- ==== Sys2Proof/Machine/Dispatch.lean ====
section
/-!
DEFINITION. The dispatch: one arm for each command, each a direct call of its meaning.
-/
namespace Sys2Proof.Machine

/-- The effect of a command on everything but the queue. -/
def exec (i : Instr) (s : State) : Host.Outcome State Fault Refusal :=
  match i with
  | .registerWrite addr v lv => Sys2Proof.Machine.execRegisterWrite addr v lv s
  | .w1cWrite addr v lv same => Sys2Proof.Machine.execW1cWrite addr v lv same s
  | .rcRead req addr same => Sys2Proof.Machine.execRcRead req addr same s
  | .meshRequest x lv write addr log2 data => Sys2Proof.Machine.execMeshRequest x lv write addr log2 data s
  | .errorResponse req => Sys2Proof.Machine.execErrorResponse req s
  | .absentRefusalReport d => Sys2Proof.Machine.execAbsentRefusalReport d s
  | .postedWrite d m => Sys2Proof.Machine.execPostedWrite d m s
  | .spanWrite req lv off v => Sys2Proof.Machine.execSpanWrite req lv off v s
  | .dieFence d => Sys2Proof.Machine.execDieFence d s
  | .bootCtlDone lv => Sys2Proof.Machine.execBootCtlDone lv s
  | .modeChange => Sys2Proof.Machine.execModeChange s
  | .sscTurningPoint => Sys2Proof.Machine.execSscTurningPoint s
  | .timeCfgWrite v => Sys2Proof.Machine.execTimeCfgWrite v s
  | .timeRelockDone => Sys2Proof.Machine.execTimeRelockDone s
  | .timeCommitIncr => Sys2Proof.Machine.execTimeCommitIncr s
  | .timeCommitOffset => Sys2Proof.Machine.execTimeCommitOffset s
  | .timeCommitLoad => Sys2Proof.Machine.execTimeCommitLoad s
  | .timeCommitApply => Sys2Proof.Machine.execTimeCommitApply s
  | .timeSnap => Sys2Proof.Machine.execTimeSnap s
  | .timeSnapCapture => Sys2Proof.Machine.execTimeSnapCapture s
  | .timeSnapValid => Sys2Proof.Machine.execTimeSnapValid s
  | .todCapArm sfLo => Sys2Proof.Machine.execTodCapArm sfLo s
  | .todCapture sfc => Sys2Proof.Machine.execTodCapture sfc s
  | .ppsOutRise => Sys2Proof.Machine.execPpsOutRise s
  | .ppsOutFall => Sys2Proof.Machine.execPpsOutFall s
  | .ppsInCapture => Sys2Proof.Machine.execPpsInCapture s
  | .todTxStart => Sys2Proof.Machine.execTodTxStart s
  | .todRxByte b afterIdle => Sys2Proof.Machine.execTodRxByte b afterIdle s
  | .freezeNChange low => Sys2Proof.Machine.execFreezeNChange low s
  | .frzCtlWrite req => Sys2Proof.Machine.execFrzCtlWrite req s
  | .synchronisedFreeze => Sys2Proof.Machine.execSynchronisedFreeze s
  | .freezeEdgeF => Sys2Proof.Machine.execFreezeEdgeF s
  | .chainShift n => Sys2Proof.Machine.execChainShift n s
  | .thawStart => Sys2Proof.Machine.execThawStart s
  | .thawRelease stacksUp => Sys2Proof.Machine.execThawRelease stacksUp s
  | .thawEnd => Sys2Proof.Machine.execThawEnd s
  | .thawFail stacksUp => Sys2Proof.Machine.execThawFail stacksUp s
  | .txEqWrite lane v => Sys2Proof.Machine.execTxEqWrite lane v s
  | .signalDetectChange c high => Sys2Proof.Machine.execSignalDetectChange c high s
  | .prxEqCommit c => Sys2Proof.Machine.execPrxEqCommit c s
  | .laneLock l back lane headers comma => Sys2Proof.Machine.execLaneLock l back lane headers comma s
  | .laneLockLoss l back lane invalid missing crcBad => Sys2Proof.Machine.execLaneLockLoss l back lane invalid missing crcBad s
  | .dlinkLocked l x slack => Sys2Proof.Machine.execDlinkLocked l x slack s
  | .dlinkLockLoss l lost dropLow dropHigh => Sys2Proof.Machine.execDlinkLockLoss l lost dropLow dropHigh s
  | .linkLossErrorResponse req => Sys2Proof.Machine.execLinkLossErrorResponse req s
  | .escanStart d v => Sys2Proof.Machine.execEscanStart d v s
  | .escanAbort d v errors => Sys2Proof.Machine.execEscanAbort d v errors s
  | .escanDone d errors early => Sys2Proof.Machine.execEscanDone d errors early s
  | .optI2cWrite n v => Sys2Proof.Machine.execOptI2cWrite n v s
  | .optI2cRead n v => Sys2Proof.Machine.execOptI2cRead n v s
  | .optI2cStretchTimeout n => Sys2Proof.Machine.execOptI2cStretchTimeout n s
  | .optI2cDone n res got => Sys2Proof.Machine.execOptI2cDone n res got s
  | .frameTick c f => Sys2Proof.Machine.execFrameTick c f s
  | .codewordDecode c flipped good => Sys2Proof.Machine.execCodewordDecode c flipped good s
  | .defectRaise c k => Sys2Proof.Machine.execDefectRaise c k s
  | .defectClear c k => Sys2Proof.Machine.execDefectClear c k s
  | .sfsdWindowEnd c => Sys2Proof.Machine.execSfsdWindowEnd c s
  | .sfsdCommit c => Sys2Proof.Machine.execSfsdCommit c s
  | .pmSecondEnd c => Sys2Proof.Machine.execPmSecondEnd c s
  | .pmClassificationFinal c => Sys2Proof.Machine.execPmClassificationFinal c s
  | .pmHistoryWrite c day => Sys2Proof.Machine.execPmHistoryWrite c day s
  | .pmEnable c v => Sys2Proof.Machine.execPmEnable c v s
  | .pmDisable c v => Sys2Proof.Machine.execPmDisable c v s
  | .pmSnap c v => Sys2Proof.Machine.execPmSnap c v s
  | .receiverPowerDown c => Sys2Proof.Machine.execReceiverPowerDown c s
  | .receiverPowerUp c => Sys2Proof.Machine.execReceiverPowerUp c s
  | .wakeGraceEnd c => Sys2Proof.Machine.execWakeGraceEnd c s
  | .actReqO23 c v => Sys2Proof.Machine.execActReqO23 c v s
  | .actReqO4 c v => Sys2Proof.Machine.execActReqO4 c v s
  | .actReqO5 c v => Sys2Proof.Machine.execActReqO5 c v s
  | .actReqO11 c v => Sys2Proof.Machine.execActReqO11 c v s
  | .actReqO7 c v => Sys2Proof.Machine.execActReqO7 c v s
  | .to1Expiry c => Sys2Proof.Machine.execTo1Expiry c s
  | .to2Expiry c => Sys2Proof.Machine.execTo2Expiry c s
  | .ploamuPush c => Sys2Proof.Machine.execPloamuPush c s
  | .ploamuDef c => Sys2Proof.Machine.execPloamuDef c s
  | .ploamdReceive c onu msg => Sys2Proof.Machine.execPloamdReceive c onu msg s
  | .ploamdPop c => Sys2Proof.Machine.execPloamdPop c s
  | .xgemFrameReceive c x => Sys2Proof.Machine.execXgemFrameReceive c x s
  | .reassemblyTimeout c => Sys2Proof.Machine.execReassemblyTimeout c s
  | .pidTableWrite n v => Sys2Proof.Machine.execPidTableWrite n v s
  | .pidTableRead n v => Sys2Proof.Machine.execPidTableRead n v s
  | .eqdCommit c => Sys2Proof.Machine.execEqdCommit c s
  | .bwmapEntryParse c g => Sys2Proof.Machine.execBwmapEntryParse c g s
  | .burstPlanReady c at_ => Sys2Proof.Machine.execBurstPlanReady c at_ s
  | .allocTableWrite n v => Sys2Proof.Machine.execAllocTableWrite n v s
  | .allocTableRead n v => Sys2Proof.Machine.execAllocTableRead n v s
  | .profCommit c => Sys2Proof.Machine.execProfCommit c s
  | .fillPoint x => Sys2Proof.Machine.execFillPoint x s
  | .burstLaunch c => Sys2Proof.Machine.execBurstLaunch c s
  | .bondFrameReceive c => Sys2Proof.Machine.execBondFrameReceive c s
  | .skewRelease x => Sys2Proof.Machine.execSkewRelease x s
  | .reorderArrival x => Sys2Proof.Machine.execReorderArrival x s
  | .reorderTimeoutSkip x => Sys2Proof.Machine.execReorderTimeoutSkip x s
  | .reorderFastSkip x => Sys2Proof.Machine.execReorderFastSkip x s
  | .skewArm v => Sys2Proof.Machine.execSkewArm v s
  | .skewCapture c => Sys2Proof.Machine.execSkewCapture c s
  | .memberRxChange c => Sys2Proof.Machine.execMemberRxChange c s
  | .bondGroupCommit => Sys2Proof.Machine.execBondGroupCommit s
  | .ugrpCommit v => Sys2Proof.Machine.execUgrpCommit v s
  | .dispatchSourceArrival d k => Sys2Proof.Machine.execDispatchSourceArrival d k s
  | .dispatch x => Sys2Proof.Machine.execDispatch x s
  | .dispRun d v => Sys2Proof.Machine.execDispRun d v s
  | .orderHoldLaunch x => Sys2Proof.Machine.execOrderHoldLaunch x s
  | .add x => Sys2Proof.Machine.execAdd x s
  | .sub x => Sys2Proof.Machine.execSub x s
  | .and x => Sys2Proof.Machine.execAnd x s
  | .or x => Sys2Proof.Machine.execOr x s
  | .xor x => Sys2Proof.Machine.execXor x s
  | .shl x => Sys2Proof.Machine.execShl x s
  | .shr x => Sys2Proof.Machine.execShr x s
  | .sar x => Sys2Proof.Machine.execSar x s
  | .minu x => Sys2Proof.Machine.execMinu x s
  | .maxu x => Sys2Proof.Machine.execMaxu x s
  | .cmp x => Sys2Proof.Machine.execCmp x s
  | .mul x => Sys2Proof.Machine.execMul x s
  | .addi x => Sys2Proof.Machine.execAddi x s
  | .andi x => Sys2Proof.Machine.execAndi x s
  | .ori x => Sys2Proof.Machine.execOri x s
  | .xori x => Sys2Proof.Machine.execXori x s
  | .cmpi x => Sys2Proof.Machine.execCmpi x s
  | .lui x => Sys2Proof.Machine.execLui x s
  | .shli x => Sys2Proof.Machine.execShli x s
  | .shri x => Sys2Proof.Machine.execShri x s
  | .sari x => Sys2Proof.Machine.execSari x s
  | .rori x => Sys2Proof.Machine.execRori x s
  | .ext x => Sys2Proof.Machine.execExt x s
  | .dep x => Sys2Proof.Machine.execDep x s
  | .hash x => Sys2Proof.Machine.execHash x s
  | .mfm x => Sys2Proof.Machine.execMfm x s
  | .mtm x => Sys2Proof.Machine.execMtm x s
  | .flgRead x => Sys2Proof.Machine.execFlgRead x s
  | .flgWrite x => Sys2Proof.Machine.execFlgWrite x s
  | .ldh x => Sys2Proof.Machine.execLdh x s
  | .sth x => Sys2Proof.Machine.execSth x s
  | .movh x => Sys2Proof.Machine.execMovh x s
  | .nxt x => Sys2Proof.Machine.execNxt x s
  | .csum x => Sys2Proof.Machine.execCsum x s
  | .csi x => Sys2Proof.Machine.execCsi x s
  | .bcc x => Sys2Proof.Machine.execBcc x s
  | .jal x => Sys2Proof.Machine.execJal x s
  | .jr x => Sys2Proof.Machine.execJr x s
  | .lke x => Sys2Proof.Machine.execLke x s
  | .lkt x flipped => Sys2Proof.Machine.execLkt x flipped s
  | .lkl x => Sys2Proof.Machine.execLkl x s
  | .cnt x => Sys2Proof.Machine.execCnt x s
  | .ldm x => Sys2Proof.Machine.execLdm x s
  | .stm x => Sys2Proof.Machine.execStm x s
  | .enq x => Sys2Proof.Machine.execEnq x s
  | .mcast x => Sys2Proof.Machine.execMcast x s
  | .mirror x => Sys2Proof.Machine.execMirror x s
  | .recirc x => Sys2Proof.Machine.execRecirc x s
  | .punt x => Sys2Proof.Machine.execPunt x s
  | .drop x => Sys2Proof.Machine.execDrop x s
  | .dflt x => Sys2Proof.Machine.execDflt x s
  | .tileCommit d => Sys2Proof.Machine.execTileCommit d s
  | .imemDataWrite d v => Sys2Proof.Machine.execImemDataWrite d v s
  | .imemCheck d v => Sys2Proof.Machine.execImemCheck d v s
  | .imemCheckDone d => Sys2Proof.Machine.execImemCheckDone d s
  | .emEntryWrite d v => Sys2Proof.Machine.execEmEntryWrite d v s
  | .emEntryRead x v => Sys2Proof.Machine.execEmEntryRead x v s
  | .tcEntryWrite d v => Sys2Proof.Machine.execTcEntryWrite d v s
  | .tcEntryRead d v => Sys2Proof.Machine.execTcEntryRead d v s
  | .lkpEntryWriteDone d ternary => Sys2Proof.Machine.execLkpEntryWriteDone d ternary s
  | .lpmSet d v => Sys2Proof.Machine.execLpmSet d v s
  | .lpmClear d v => Sys2Proof.Machine.execLpmClear d v s
  | .lpmRead x v => Sys2Proof.Machine.execLpmRead x v s
  | .lpmCommandDone d => Sys2Proof.Machine.execLpmCommandDone d s
  | .counterRead x v => Sys2Proof.Machine.execCounterRead x v s
  | .tblCommit d => Sys2Proof.Machine.execTblCommit d s
  | .genSwitchNow d v => Sys2Proof.Machine.execGenSwitchNow d v s
  | .genSwitchArm d v => Sys2Proof.Machine.execGenSwitchArm d v s
  | .genSwitchArmed d => Sys2Proof.Machine.execGenSwitchArmed d s
  | .genDrained d => Sys2Proof.Machine.execGenDrained d s
  | .deltaArrival d => Sys2Proof.Machine.execDeltaArrival d s
  | .deltaAccept x => Sys2Proof.Machine.execDeltaAccept x s
  | .deltaGroupWrite d v => Sys2Proof.Machine.execDeltaGroupWrite d v s
  | .deltaGroupRead x v => Sys2Proof.Machine.execDeltaGroupRead x v s
  | .deltaCopyWrite d v => Sys2Proof.Machine.execDeltaCopyWrite d v s
  | .spillwayArrival d => Sys2Proof.Machine.execSpillwayArrival d s
  | .spillwayRefill d r => Sys2Proof.Machine.execSpillwayRefill d r s
  | .enqueueVisible d e => Sys2Proof.Machine.execEnqueueVisible d e s
  | .tmStateClearDone d => Sys2Proof.Machine.execTmStateClearDone d s
  | .qopWrite x v => Sys2Proof.Machine.execQopWrite x v s
  | .qopRead x v => Sys2Proof.Machine.execQopRead x v s
  | .qopFill x v => Sys2Proof.Machine.execQopFill x v s
  | .qopFlush x v => Sys2Proof.Machine.execQopFlush x v s
  | .sluWrite d v => Sys2Proof.Machine.execSluWrite d v s
  | .sluRead d v => Sys2Proof.Machine.execSluRead d v s
  | .sluCounterRead d v => Sys2Proof.Machine.execSluCounterRead d v s
  | .tmRefill d => Sys2Proof.Machine.execTmRefill d s
  | .decisionSlot x => Sys2Proof.Machine.execDecisionSlot x s
  | .dequeue p e => Sys2Proof.Machine.execDequeue p e s
  | .gateAdminDataWrite d k v => Sys2Proof.Machine.execGateAdminDataWrite d k v s
  | .gateCommit d k v => Sys2Proof.Machine.execGateCommit d k v s
  | .gateSwap d k => Sys2Proof.Machine.execGateSwap d k s
  | .aprofCommit d => Sys2Proof.Machine.execAprofCommit d s
  | .poolCommit d => Sys2Proof.Machine.execPoolCommit d s
  | .uprofCommit n => Sys2Proof.Machine.execUprofCommit n s
  | .frameReceive m frame fcsOk codeErr age => Sys2Proof.Machine.execFrameReceive m frame fcsOk codeErr age s
  | .pauseTimerExpiry m k => Sys2Proof.Machine.execPauseTimerExpiry m k s
  | .pauseWatchdog m k => Sys2Proof.Machine.execPauseWatchdog m k s
  | .daFilterWrite m v => Sys2Proof.Machine.execDaFilterWrite m v s
  | .daFilterRead m v => Sys2Proof.Machine.execDaFilterRead m v s
  | .macTransmitStart m phi => Sys2Proof.Machine.execMacTransmitStart m phi s
  | .frameTransmitEnd m => Sys2Proof.Machine.execFrameTransmitEnd m s
  | .pauseTx m v => Sys2Proof.Machine.execPauseTx m v s
  | .lpiEntry m => Sys2Proof.Machine.execLpiEntry m s
  | .linkChange m up speed => Sys2Proof.Machine.execLinkChange m up speed s
  | .tsFifoPop m => Sys2Proof.Machine.execTsFifoPop m s
  | .ptpCommit m => Sys2Proof.Machine.execPtpCommit m s
  | .mdioC22Write d m v => Sys2Proof.Machine.execMdioC22Write d m v s
  | .mdioC22Read d m v => Sys2Proof.Machine.execMdioC22Read d m v s
  | .mdioC45Address d m v => Sys2Proof.Machine.execMdioC45Address d m v s
  | .mdioC45Write d m v => Sys2Proof.Machine.execMdioC45Write d m v s
  | .mdioC45Read d m v => Sys2Proof.Machine.execMdioC45Read d m v s
  | .mdioC45ReadInc d m v => Sys2Proof.Machine.execMdioC45ReadInc d m v s
  | .mdioFrameDone d m data => Sys2Proof.Machine.execMdioFrameDone d m data s
  | .cageI2cWrite d v => Sys2Proof.Machine.execCageI2cWrite d v s
  | .cageI2cRead d v => Sys2Proof.Machine.execCageI2cRead d v s
  | .cageI2cDone d res stretched got => Sys2Proof.Machine.execCageI2cDone d res stretched got s
  | .ledRefresh d => Sys2Proof.Machine.execLedRefresh d s
  | .kslotWrite d v => Sys2Proof.Machine.execKslotWrite d v s
  | .kslotLoadKiln d v => Sys2Proof.Machine.execKslotLoadKiln d v s
  | .kslotErase d v => Sys2Proof.Machine.execKslotErase d v s
  | .kslotHeldWriteDone d => Sys2Proof.Machine.execKslotHeldWriteDone d s
  | .omciDownstreamCheck c => Sys2Proof.Machine.execOmciDownstreamCheck c s
  | .msTxCommit p => Sys2Proof.Machine.execMsTxCommit p s
  | .msPnWrite d k v => Sys2Proof.Machine.execMsPnWrite d k v s
  | .msPnRead d k => Sys2Proof.Machine.execMsPnRead d k s
  | .msRxscWrite p n v => Sys2Proof.Machine.execMsRxscWrite p n v s
  | .laDoorbell n q => Sys2Proof.Machine.execLaDoorbell n q s
  | .laGcmEncrypt n q e => Sys2Proof.Machine.execLaGcmEncrypt n q e s
  | .laGcmDecrypt n q e => Sys2Proof.Machine.execLaGcmDecrypt n q e s
  | .laCtrEncrypt n q e => Sys2Proof.Machine.execLaCtrEncrypt n q e s
  | .laCtrDecrypt n q e => Sys2Proof.Machine.execLaCtrDecrypt n q e s
  | .laCmacGenerate n q e => Sys2Proof.Machine.execLaCmacGenerate n q e s
  | .laCmacVerify n q e => Sys2Proof.Machine.execLaCmacVerify n q e s
  | .laContextSaveClear n q e => Sys2Proof.Machine.execLaContextSaveClear n q e s
  | .laContextSaveWrapped n q e => Sys2Proof.Machine.execLaContextSaveWrapped n q e s
  | .laContextRestoreClear n q e => Sys2Proof.Machine.execLaContextRestoreClear n q e s
  | .laContextRestoreWrapped n q e => Sys2Proof.Machine.execLaContextRestoreWrapped n q e s
  | .laBulkSuspend n => Sys2Proof.Machine.execLaBulkSuspend n s
  | .laBulkResume n => Sys2Proof.Machine.execLaBulkResume n s
  | .laBusError n q addr write onDesc => Sys2Proof.Machine.execLaBusError n q addr write onDesc s
  | .reservoirRead d r off log2 e => Sys2Proof.Machine.execReservoirRead d r off log2 e s
  | .reservoirWrite d r off log2 v => Sys2Proof.Machine.execReservoirWrite d r off log2 v s
  | .packetSramRead r off log2 e => Sys2Proof.Machine.execPacketSramRead r off log2 e s
  | .packetSramWrite r off log2 v => Sys2Proof.Machine.execPacketSramWrite r off log2 v s
  | .refModeChange d => Sys2Proof.Machine.execRefModeChange d s
  | .scrubRead d at_ e => Sys2Proof.Machine.execScrubRead d at_ e s
  | .selfTestStart d b dom => Sys2Proof.Machine.execSelfTestStart d b dom s
  | .selfTestEnd d b dom pass inUse => Sys2Proof.Machine.execSelfTestEnd d b dom pass inUse s
  | .spareBankCopyDone d => Sys2Proof.Machine.execSpareBankCopyDone d s
  | .retiredQueuesEmpty d bank => Sys2Proof.Machine.execRetiredQueuesEmpty d bank s
  | .rsvEnable d v => Sys2Proof.Machine.execRsvEnable d v s
  | .rsvDisable d v => Sys2Proof.Machine.execRsvDisable d v s
  | .rsvInitDone d => Sys2Proof.Machine.execRsvInitDone d s
  | .elogPop d b => Sys2Proof.Machine.execElogPop d b s
  | .spmapReadSpare d b v => Sys2Proof.Machine.execSpmapReadSpare d b v s
  | .spmapWriteSpare d b v => Sys2Proof.Machine.execSpmapWriteSpare d b v s
  | .spmapReadRetirement d b v => Sys2Proof.Machine.execSpmapReadRetirement d b v s
  | .spmapWriteRetirement d b v => Sys2Proof.Machine.execSpmapWriteRetirement d b v s
  | .spmapLock d v => Sys2Proof.Machine.execSpmapLock d v s
  | .l2CfgWrite n v => Sys2Proof.Machine.execL2CfgWrite n v s
  | .coreLoad x rd ra off log2 sx => Sys2Proof.Machine.execCoreLoad x rd ra off log2 sx s
  | .coreStore x rs ra off log2 => Sys2Proof.Machine.execCoreStore x rs ra off log2 s
  | .mfs x rd n => Sys2Proof.Machine.execMfs x rd n s
  | .mts x n ra => Sys2Proof.Machine.execMts x n ra s
  | .tlbInvalidate x k => Sys2Proof.Machine.execTlbInvalidate x k s
  | .cacheMaintenance x op at_ => Sys2Proof.Machine.execCacheMaintenance x op at_ s
  | .supervisorCall x => Sys2Proof.Machine.execSupervisorCall x s
  | .monitorCall x => Sys2Proof.Machine.execMonitorCall x s
  | .rfx x => Sys2Proof.Machine.execRfx x s
  | .interruptEntry core l => Sys2Proof.Machine.execInterruptEntry core l s
  | .machineCheck core line => Sys2Proof.Machine.execMachineCheck core line s
  | .bar x rd ra rb imm => Sys2Proof.Machine.execBar x rd ra rb imm s
  | .spnw x rd ra rb imm => Sys2Proof.Machine.execSpnw x rd ra rb imm s
  | .crd x rd ra rb imm => Sys2Proof.Machine.execCrd x rd ra rb imm s
  | .slh x rd ra rb imm => Sys2Proof.Machine.execSlh x rd ra rb imm s
  | .slhWake core => Sys2Proof.Machine.execSlhWake core s
  | .coreRun lv v => Sys2Proof.Machine.execCoreRun lv v s
  | .irqLevelChange n => Sys2Proof.Machine.execIrqLevelChange n s
  | .irqClaim r core x => Sys2Proof.Machine.execIrqClaim r core x s
  | .irqEoi core x v => Sys2Proof.Machine.execIrqEoi core x v s
  | .sgiSet v => Sys2Proof.Machine.execSgiSet v s
  | .timerInterrupt core => Sys2Proof.Machine.execTimerInterrupt core s
  | .semaphoreRead core k => Sys2Proof.Machine.execSemaphoreRead core k s
  | .semaphoreWrite core k v => Sys2Proof.Machine.execSemaphoreWrite core k v s
  | .uartTxWrite v => Sys2Proof.Machine.execUartTxWrite v s
  | .uartRxRead r => Sys2Proof.Machine.execUartRxRead r s
  | .uartRxByte b stop => Sys2Proof.Machine.execUartRxByte b stop s
  | .uartTxByte => Sys2Proof.Machine.execUartTxByte s
  | .gpioSet v => Sys2Proof.Machine.execGpioSet v s
  | .gpioClr v => Sys2Proof.Machine.execGpioClr v s
  | .gpioInputEdge k high => Sys2Proof.Machine.execGpioInputEdge k high s
  | .dmaStart d ch v => Sys2Proof.Machine.execDmaStart d ch v s
  | .dmaStop d ch v => Sys2Proof.Machine.execDmaStop d ch v s
  | .dmaDisable d ch v => Sys2Proof.Machine.execDmaDisable d ch v s
  | .dmaDoorbell d ch => Sys2Proof.Machine.execDmaDoorbell d ch s
  | .dmaDescriptorFetch d ch m => Sys2Proof.Machine.execDmaDescriptorFetch d ch m s
  | .dmaMove d ch m => Sys2Proof.Machine.execDmaMove d ch m s
  | .dmaReceiveRecord d ch m => Sys2Proof.Machine.execDmaReceiveRecord d ch m s
  | .dmaTransmitBurst ch m => Sys2Proof.Machine.execDmaTransmitBurst ch m s
  | .dmaInjectBurst d ch m => Sys2Proof.Machine.execDmaInjectBurst d ch m s
  | .paceTimerFire d ch => Sys2Proof.Machine.execPaceTimerFire d ch s
  | .paceTrigger d ch => Sys2Proof.Machine.execPaceTrigger d ch s
  | .dmaBusError d ch addr write lost onDesc done => Sys2Proof.Machine.execDmaBusError d ch addr write lost onDesc done s
  | .resetNChange high lowFor => Sys2Proof.Machine.execResetNChange high lowFor s
  | .rstCtlWarm lv v => Sys2Proof.Machine.execRstCtlWarm lv v s
  | .rstCtlCold lv v => Sys2Proof.Machine.execRstCtlCold lv v s
  | .warmReset => Sys2Proof.Machine.execWarmReset s
  | .coldReset => Sys2Proof.Machine.execColdReset s
  | .railPowerGood => Sys2Proof.Machine.execRailPowerGood s
  | .railFault r lost => Sys2Proof.Machine.execRailFault r lost s
  | .railFaultRetry => Sys2Proof.Machine.execRailFaultRetry s
  | .pmbSendByte lv v => Sys2Proof.Machine.execPmbSendByte lv v s
  | .pmbWriteByte lv v => Sys2Proof.Machine.execPmbWriteByte lv v s
  | .pmbWriteWord lv v => Sys2Proof.Machine.execPmbWriteWord lv v s
  | .pmbReadByte lv v => Sys2Proof.Machine.execPmbReadByte lv v s
  | .pmbReadWord lv v => Sys2Proof.Machine.execPmbReadWord lv v s
  | .pmbTransactionDone ack pec data => Sys2Proof.Machine.execPmbTransactionDone ack pec data s
  | .avsEnable lv v mode vout => Sys2Proof.Machine.execAvsEnable lv v mode vout s
  | .avsAdjust => Sys2Proof.Machine.execAvsAdjust s
  | .fuseAdvance lv v => Sys2Proof.Machine.execFuseAdvance lv v s
  | .fuseScrap lv v => Sys2Proof.Machine.execFuseScrap lv v s
  | .fuseRollback lv v => Sys2Proof.Machine.execFuseRollback lv v s
  | .fuseRevoke lv v => Sys2Proof.Machine.execFuseRevoke lv v s
  | .fuseRailTable lv v => Sys2Proof.Machine.execFuseRailTable lv v s
  | .fuseBootKey lv v => Sys2Proof.Machine.execFuseBootKey lv v s
  | .fuseDbgKey lv v => Sys2Proof.Machine.execFuseDbgKey lv v s
  | .fuseBurnDone ok => Sys2Proof.Machine.execFuseBurnDone ok s
  | .bootSlotCheck image => Sys2Proof.Machine.execBootSlotCheck image s
  | .bootRelease => Sys2Proof.Machine.execBootRelease s
  | .kilnGenerate lv v => Sys2Proof.Machine.execKilnGenerate lv v s
  | .kilnWrap lv v => Sys2Proof.Machine.execKilnWrap lv v s
  | .kilnUnwrap lv v => Sys2Proof.Machine.execKilnUnwrap lv v s
  | .kilnDerive lv v => Sys2Proof.Machine.execKilnDerive lv v s
  | .kilnClear lv v => Sys2Proof.Machine.execKilnClear lv v s
  | .kilnCommandDone => Sys2Proof.Machine.execKilnCommandDone s
  | .kilnParityError => Sys2Proof.Machine.execKilnParityError s
  | .dbgReq level => Sys2Proof.Machine.execDbgReq level s
  | .dbgResp resp => Sys2Proof.Machine.execDbgResp resp s
  | .dbgAuthDone => Sys2Proof.Machine.execDbgAuthDone s
  | .zeroisationStep ok => Sys2Proof.Machine.execZeroisationStep ok s
  | .powerStateEntry d h hsrc idleFor wake => Sys2Proof.Machine.execPowerStateEntry d h hsrc idleFor wake s
  | .powerEntryComplete d => Sys2Proof.Machine.execPowerEntryComplete d s
  | .powerStateExit d h hsrc => Sys2Proof.Machine.execPowerStateExit d h hsrc s
  | .powerExitComplete d read => Sys2Proof.Machine.execPowerExitComplete d read s
  | .dieWakeWrite lv d v => Sys2Proof.Machine.execDieWakeWrite lv d v s
  | .heldTrafficRelease d => Sys2Proof.Machine.execHeldTrafficRelease d s
  | .portWakeEvent m ev => Sys2Proof.Machine.execPortWakeEvent m ev s
  | .wakeStoreRelease m => Sys2Proof.Machine.execWakeStoreRelease m s
  | .patCommit lv d v => Sys2Proof.Machine.execPatCommit lv d v s
  | .psCommit lv c v => Sys2Proof.Machine.execPsCommit lv c v s
  | .psEnter lv c v => Sys2Proof.Machine.execPsEnter lv c v s
  | .psLeave lv c v => Sys2Proof.Machine.execPsLeave lv c v s
  | .psPhaseChange c => Sys2Proof.Machine.execPsPhaseChange c s
  | .psReceiverPowerUp c => Sys2Proof.Machine.execPsReceiverPowerUp c s
  | .psEnd c => Sys2Proof.Machine.execPsEnd c s
  | .retLostClear d v => Sys2Proof.Machine.execRetLostClear d v s
  | .offEntry lv v => Sys2Proof.Machine.execOffEntry lv v s
  | .offWake cause n => Sys2Proof.Machine.execOffWake cause n s
  | .wakeNAssert => Sys2Proof.Machine.execWakeNAssert s
  | .thermalCompare => Sys2Proof.Machine.execThermalCompare s
  | .thermalOffTimer n => Sys2Proof.Machine.execThermalOffTimer n s
  | .pmcArm lv d v => Sys2Proof.Machine.execPmcArm lv d v s
  | .pmcArmedAction d => Sys2Proof.Machine.execPmcArmedAction d s
  | .pmcCounterRead r lv d u n => Sys2Proof.Machine.execPmcCounterRead r lv d u n s
  | .pmcCounterWrite lv d u n v => Sys2Proof.Machine.execPmcCounterWrite lv d u n v s
  | .bwWindowClose d => Sys2Proof.Machine.execBwWindowClose d s
  | .bwSnap lv d v => Sys2Proof.Machine.execBwSnap lv d v s
  | .sensorReading d k value margin => Sys2Proof.Machine.execSensorReading d k value margin s
  | .cdrLockChange c lock => Sys2Proof.Machine.execCdrLockChange c lock s
  | .rxLpiChange m on => Sys2Proof.Machine.execRxLpiChange m on s
  | .sfcLoRead req c => Sys2Proof.Machine.execSfcLoRead req c s
  | .tapFuseProg => Sys2Proof.Machine.execTapFuseProg s
  | .reservedWordIssue x => Sys2Proof.Machine.execReservedWordIssue x s
  | .coreIntegerOperation x op rd ra b => Sys2Proof.Machine.execCoreIntegerOperation x op rd ra b s
  | .coreBranch x j => Sys2Proof.Machine.execCoreBranch x j s
  | .alwaysOnPowerLoss => Sys2Proof.Machine.execAlwaysOnPowerLoss s

end Sys2Proof.Machine
end

