-- ==== Sys2Proof/Machine/Tick.lean ====
section
/-!
DEFINITION. The passing of time. The table has no row for a clock edge: one nominal mc period passes when no command waits
(log 3). The effects that the spec puts on every edge happen here; what the spec makes an event of its own is a command.
-/
namespace Sys2Proof.Machine
open Reg

/-- Edges that a domain of n fifths of mc's frequency takes in the mc period at a place of the ac period: tc 2, rc 4, of nominal mc
periods; cc 8, of the mc edges themselves (Table 0.3). -/
def edgesIn (n phase : Nat) : Nat := (phase + 1) * n / 5 - phase * n / 5

/-- n tc edges: the network time counter adds TIME.INCR on each while TIME.CFG.EN is 1 in tc (R74, R75), a passage of the
second boundary less ADV_NS makes a pulse due (R87), one of a window boundary a close (R703), and the times of a pulse and of a message's delay run down (R87, R92). -/
def State.tcEdges (s : State) (n : Nat) : State :=
  let incr := s.rdEff TIME_INCR d0
  let out := s.is TIME_PPS_CFG_OUT_EN d0
  let adv := s.get TIME_PPS_CFG_ADV_NS d0
  let edge (t : NetTime) : NetTime :=
    let t := { t with ppsLow := t.ppsLow - 1, todWaits := t.todWaits.map (· - 1) }
    if !t.run then t else { t.advance incr with ppsDue := t.ppsDue || (out && t.passes incr adv) }
  let s := { s with clk := { s.clk with tc := s.clk.tc + n } }
  (List.range n).foldl (fun (s : State) _ => { s.bwReach incr with time := edge s.time }) s

/-- CYC of unit u of die d adds the edges that its domain delivers, unless the unit is held (R682); a wrap sets bit 8 of OVF (R693, R694). -/
def State.cycAdd (s : State) (d u n : Nat) : State :=
  let a := place d u
  if !s.is PMC_CTL_RUN a || s.unitHeld d (pmcBank d) || !s.awake d then s
  else
    let v := (s.rdEff PMC_CYC_HI a).toNat * 2 ^ 32 + (s.rd PMC_CYC_LO a).toNat + n
    let s := (s.wr PMC_CYC_LO a (BitVec.ofNat 32 v)).wrEff PMC_CYC_HI a (BitVec.ofNat 32 (v / 2 ^ 32))
    if 2 ^ 64 ≤ v then s.put PMC_OVF_CYC a 1 else s

/-- The rc edges of a reservoir die whose unit counts: in each wheel of 64 rc, REF_MODE + 1 refresh slots of 4 rc, the first
in slot 14 and the others before it, on each of its 32 channels (R519, Table 12.2, Table 17.4 0x102). -/
def State.refreshSlots (s : State) (d n : Nat) : State :=
  let mode := s.get RSV_STAT_REF_MODE (onDie d)
  let used (e : Nat) : Bool := e % 4 == 0 && e / 4 % 16 ≤ 14 && 14 ≤ e / 4 % 16 + mode
  if d < 6 || !present s.part d || !s.is PMC_CTL_RUN (place d 0) || s.powerState d != 0 then s
  else
    ((List.range n).filter (fun i => used (s.clk.rc + i))).foldl (fun (s : State) _ =>
      (List.range 32).foldl (fun (s : State) ch => s.pmcEvent d 0 0x102 ch 1) s) s

/-- n rc edges (R519), which the unit of a reservoir die counts (Table 17.1). -/
def State.rcEdges (s : State) (n : Nat) : State :=
  let s := [6, 7].foldl (fun (s : State) d =>
    let s := s.refreshSlots d n
    if present s.part d then s.cycAdd d 0 n else s) s
  { s with clk := { s.clk with rc := s.clk.rc + n } }

/-- An mc edge of a line or course die whose unit counts: the issue slots of its tiles whose thread carries no packet (R292,
Table 17.4 0x002). -/
def State.idleSlots (s : State) (d : Nat) : State :=
  if 6 ≤ d || !present s.part d || !s.is PMC_CTL_RUN (place d 0) || s.powerState d != 0 then s
  else
    s.pmcEvent d 0 0x002 0xFF
      ((List.range (tilesOf d)).filter (fun j =>
        (s.thread d (j * 8 + slotThread d j (s.clk.mc + 4))).isNone)).length

/-- Counters of unit u of die d that select an event which depends on what State does not hold add a free number (log 81). -/
def State.freeEvents (s : State) (d u : Nat) (codes : List Nat) (pass : Word → Bool := fun _ => true) : State :=
  if !s.is PMC_CTL_RUN (place d u) || s.unitHeld d (pmcBank d) || s.powerState d != 0 then s
  else (List.range 8).foldl (fun (s : State) n =>
    let e := s.rd PMC_EVTSEL (place d (u * 8 + n))
    if bits e 31 31 = 1 && codes.contains (bits e 9 0) && pass e then
      let (k, s) := s.draw Config.freeEvents
      s.pmcAdd d u n k
    else s) s

/-- The class of a slot of core k that issues nothing (R701): HALTED in SLH, RESTEER, FRONTEND or MEMORY where a command of the core left it
so, and else one of FRONTEND, MEMORY and CORE, as a free value says, for an instruction that no command has brought yet (log 81). -/
def State.emptyClass (s : State) (k : Nat) : Nat × State :=
  let c := s.core k
  if c.slh.isSome then (0x215, s)
  else if c.steer ≠ 0 then (0x212, s)
  else if c.stall = 1 then (0x211, s)
  else if c.stall = 2 then (0x213, s)
  else
    let (x, s) := s.draw Config.freeClass
    ([0x211, 0x213, 0x214].getD (x % 3) 0x214, s)

/-- One cc edge of core k while its unit runs (R701, R702): its two slots are RETIRING for instructions that have issued, and else of the
class of the oldest one that has not; slot 1 takes that of slot 0. -/
def State.slotEdge (s : State) (k : Nat) : State :=
  let q := Tab.get s.pmc.slots [] k
  let s := (q.take 2).foldl (fun (s : State) l => s.levelEvent k l 0x210 1) s
  let s := { s with pmc := { s.pmc with slots := Tab.set s.pmc.slots [] k (q.drop 2) } }
  let s := if 2 ≤ q.length then s
    else
      let (x, s) := s.emptyClass k
      s.levelEvent k (s.core k).level x (2 - q.length)
  if q.isEmpty then s.setCore k { s.core k with steer := (s.core k).steer - 1 } else s

/-- n cc edges of core k, while its unit runs. -/
def State.slotEdges (s : State) (k n : Nat) : State :=
  let d := coreDie k
  let u := 1 + coreLocal k
  if !coreExists s.part k || !s.is PMC_CTL_RUN (place d u) || s.unitHeld d (pmcBank d) || !s.awake d then s
  else
    let s := (List.range n).foldl (fun (s : State) _ => s.slotEdge k) s
    s.freeEvents d u [0x202, 0x206] (levelFilter (s.core k).level)

/-- The counter units of a die take n edges of mc, or of cc for a core's unit: on a reservoir die they count rc (Table 17.1, R693). -/
def State.cycEdges (s : State) : State :=
  (List.range 6).foldl (fun (s : State) d =>
    if present s.part d then
      (List.range (pmcUnits d)).foldl (fun (s : State) u => s.cycAdd d u (if u = 0 then 1 else edgesIn 8 s.clk.mc)) s
    else s) s

/-- The events of Table 17.4 that the edges themselves are. -/
def State.edgeEvents (s : State) : State :=
  let s := (List.range 6).foldl (fun (s : State) d => (s.idleSlots d).freeEvents d 0 [0x00B]) s
  (List.range 12).foldl (fun (s : State) k => s.slotEdges k (edgesIn 8 s.clk.mc)) s

/-- One mc edge of the stoppable domains (R56, R97): E counts (R142), each core's oldest store leaves its buffer
(R565), and dispatchers take the frames they had refused (R270); on a die whose core island has its clocks (R657). -/
def State.mcEdge (s : State) : State :=
  let s := { s with clk := { s.clk with mc := s.clk.mc + 1 } }
  (List.range 12).foldl (fun (s : State) n => if s.awake (coreDie n) then s.drainOne n else s) s.edgeEvents.cycEdges.bondPump

/-- One nominal mc period of the stoppable domains (R56, R97, R686): tc, rc, lw and uw take their edges, of which the uw of bursts pass
(R246); mc, which THROTTLE slows, takes an edge once a whole period of it has passed. -/
def State.domains (s : State) : State :=
  let s := (s.tcEdges (edgesIn 2 s.clk.phase)).rcEdges (edgesIn 4 s.clk.phase)
  let s := (List.range 4).foldl (fun (s : State) c => (s.uwEdges c).cipherWords c) s
  let f := s.clk.frac + 50000 - s.clk.slow
  if f < 50000 then { s with clk := { s.clk with frac := f } }
  else { s with clk := { s.clk with frac := f - 50000 } }.mcEdge

/-- CLK slews mc to 1 - 0.05 THROTTLE of nominal, one step of THROTTLE in 100 µs (R686); the way there is linear (DESIGN CHOICE, log 3). -/
def State.slew (s : State) : State :=
  let goal := 2500 * s.get PWR_THERM_STAT_THROTTLE d0
  let k := s.clk.slow
  { s with clk := { s.clk with slow := if k < goal then k + 1 else if goal < k then k - 1 else k } }

/-- One ac edge of 25 MHz: the rail sequencer goes on (R625, R631), the power manager finds which dies are idle (R662), CLK slews (R686),
and the spread phase counter counts modulo its period while the reference is locked (R758). -/
def State.acEdge (s : State) : State :=
  let s := ({ s with clk := { s.clk with ac := s.clk.ac + 1 } }.railTick).idleEdge.slew
  if !s.is CLK_STATUS_REF_LOCK d0 then s
  else
    let k := s.get CLK_SSC_POS_K d0 + 1
    if s.sscP ≤ k then s.sscTurn else s.put CLK_SSC_POS_K d0 k

/-- One nominal mc period: a part without power takes no edge, and in a freeze only ac runs (R97, R99, R721). -/
def State.tick (s : State) : State :=
  if !s.hw.alive then s
  else
    let s := if s.running then s.domains else s
    let s := if s.clk.phase = 49 then s.acEdge else s
    { s with clk := { s.clk with phase := (s.clk.phase + 1) % 50 } }

end Sys2Proof.Machine
end

