-- ==== Sys2Proof/WellFormed.lean ====
section
/-!
DEFINITION. Well-formed commands: what the types of the operands leave open and the table's events do not bring. Every
command has its meaning on every operand; an ill-formed one names something the part does not have.
-/
namespace Sys2Proof

/-- A requester that the family has: a tile thread lies on its die (R25). -/
def Requester.wf : Requester → Bool
  | .tile d t => t.val < Machine.threadsOf d.val
  | .core _ | .dma _ _ | .tap => true

/-- A reader of the packet buffer that the family has (R530). -/
def BufReader.wf : BufReader → Bool
  | .req r => r.wf
  | .mac _ => true

/-- A transmit lane that the family has: the die is one of the two ends of its link (Table 3.2). -/
def TxLane.wf : TxLane → Bool
  | .link l d => Machine.linkLow l.val = d.val || Machine.linkHigh l.val = d.val
  | .pon _ | .sub _ | .mgt => true

/-- An issue slot of a thread that the die has (R292). -/
def Issue.wf (x : Issue) : Bool := x.thread.val < Machine.threadsOf x.die.val

/-- A command names only what the family has, with the sizes of R739 and R736. -/
def Instr.wf : Instr → Bool
  | .registerWrite _ _ _ => true
  | .w1cWrite _ _ _ _ => true
  | .rcRead req _ _ => req.wf
  | .meshRequest x _ _ _ _ _ => x.at_.wf
  | .errorResponse req => req.wf
  | .absentRefusalReport _ => true
  | .postedWrite _ _ => true
  | .spanWrite req _ _ _ => req.wf
  | .dieFence _ => true
  | .bootCtlDone _ => true
  | .modeChange => true
  | .sscTurningPoint => true
  | .timeCfgWrite _ => true
  | .timeRelockDone => true
  | .timeCommitIncr => true
  | .timeCommitOffset => true
  | .timeCommitLoad => true
  | .timeCommitApply => true
  | .timeSnap => true
  | .timeSnapCapture => true
  | .timeSnapValid => true
  | .todCapArm _ => true
  | .todCapture _ => true
  | .ppsOutRise => true
  | .ppsOutFall => true
  | .ppsInCapture => true
  | .todTxStart => true
  | .todRxByte _ _ => true
  | .freezeNChange _ => true
  | .frzCtlWrite _ => true
  | .synchronisedFreeze => true
  | .freezeEdgeF => true
  | .chainShift _ => true
  | .thawStart => true
  | .thawRelease _ => true
  | .thawEnd => true
  | .thawFail _ => true
  | .txEqWrite lane _ => lane.wf
  | .signalDetectChange _ _ => true
  | .prxEqCommit _ => true
  | .laneLock _ _ _ _ _ => true
  | .laneLockLoss _ _ _ _ _ _ => true
  | .dlinkLocked _ _ _ => true
  | .dlinkLockLoss _ _ _ _ => true
  | .linkLossErrorResponse req => req.wf
  | .escanStart _ _ => true
  | .escanAbort _ _ _ => true
  | .escanDone _ _ _ => true
  | .optI2cWrite _ _ => true
  | .optI2cRead _ _ => true
  | .optI2cStretchTimeout _ => true
  | .optI2cDone _ _ got => got.length ≤ 8
  | .frameTick _ _ => true
  | .codewordDecode _ _ _ => true
  | .defectRaise _ _ => true
  | .defectClear _ _ => true
  | .sfsdWindowEnd _ => true
  | .sfsdCommit _ => true
  | .pmSecondEnd _ => true
  | .pmClassificationFinal _ => true
  | .pmHistoryWrite _ _ => true
  | .pmEnable _ _ => true
  | .pmDisable _ _ => true
  | .pmSnap _ _ => true
  | .receiverPowerDown _ => true
  | .receiverPowerUp _ => true
  | .wakeGraceEnd _ => true
  | .actReqO23 _ _ => true
  | .actReqO4 _ _ => true
  | .actReqO5 _ _ => true
  | .actReqO11 _ _ => true
  | .actReqO7 _ _ => true
  | .to1Expiry _ => true
  | .to2Expiry _ => true
  | .ploamuPush _ => true
  | .ploamuDef _ => true
  | .ploamdReceive _ _ msg => msg.length = 48
  | .ploamdPop _ => true
  | .xgemFrameReceive _ _ => true
  | .reassemblyTimeout _ => true
  | .pidTableWrite _ _ => true
  | .pidTableRead _ _ => true
  | .eqdCommit _ => true
  | .bwmapEntryParse _ _ => true
  | .burstPlanReady _ _ => true
  | .allocTableWrite _ _ => true
  | .allocTableRead _ _ => true
  | .profCommit _ => true
  | .fillPoint _ => true
  | .burstLaunch _ => true
  | .bondFrameReceive _ => true
  | .skewRelease _ => true
  | .reorderArrival _ => true
  | .reorderTimeoutSkip _ => true
  | .reorderFastSkip _ => true
  | .skewArm _ => true
  | .skewCapture _ => true
  | .memberRxChange _ => true
  | .bondGroupCommit => true
  | .ugrpCommit _ => true
  | .dispatchSourceArrival _ _ => true
  | .dispatch _ => true
  | .dispRun _ _ => true
  | .orderHoldLaunch _ => true
  | .add x => x.wf
  | .sub x => x.wf
  | .and x => x.wf
  | .or x => x.wf
  | .xor x => x.wf
  | .shl x => x.wf
  | .shr x => x.wf
  | .sar x => x.wf
  | .minu x => x.wf
  | .maxu x => x.wf
  | .cmp x => x.wf
  | .mul x => x.wf
  | .addi x => x.wf
  | .andi x => x.wf
  | .ori x => x.wf
  | .xori x => x.wf
  | .cmpi x => x.wf
  | .lui x => x.wf
  | .shli x => x.wf
  | .shri x => x.wf
  | .sari x => x.wf
  | .rori x => x.wf
  | .ext x => x.wf
  | .dep x => x.wf
  | .hash x => x.wf
  | .mfm x => x.wf
  | .mtm x => x.wf
  | .flgRead x => x.wf
  | .flgWrite x => x.wf
  | .ldh x => x.wf
  | .sth x => x.wf
  | .movh x => x.wf
  | .nxt x => x.wf
  | .csum x => x.wf
  | .csi x => x.wf
  | .bcc x => x.wf
  | .jal x => x.wf
  | .jr x => x.wf
  | .lke x => x.wf
  | .lkt x _ => x.wf
  | .lkl x => x.wf
  | .cnt x => x.wf
  | .ldm x => x.wf
  | .stm x => x.wf
  | .enq x => x.wf
  | .mcast x => x.wf
  | .mirror x => x.wf
  | .recirc x => x.wf
  | .punt x => x.wf
  | .drop x => x.wf
  | .dflt x => x.wf
  | .tileCommit _ => true
  | .imemDataWrite _ _ => true
  | .imemCheck _ _ => true
  | .imemCheckDone _ => true
  | .emEntryWrite _ _ => true
  | .emEntryRead _ _ => true
  | .tcEntryWrite _ _ => true
  | .tcEntryRead _ _ => true
  | .lkpEntryWriteDone _ _ => true
  | .lpmSet _ _ => true
  | .lpmClear _ _ => true
  | .lpmRead _ _ => true
  | .lpmCommandDone _ => true
  | .counterRead _ _ => true
  | .tblCommit _ => true
  | .genSwitchNow _ _ => true
  | .genSwitchArm _ _ => true
  | .genSwitchArmed _ => true
  | .genDrained _ => true
  | .deltaArrival _ => true
  | .deltaAccept _ => true
  | .deltaGroupWrite _ _ => true
  | .deltaGroupRead _ _ => true
  | .deltaCopyWrite _ _ => true
  | .spillwayArrival _ => true
  | .spillwayRefill _ _ => true
  | .enqueueVisible _ _ => true
  | .tmStateClearDone _ => true
  | .qopWrite _ _ => true
  | .qopRead _ _ => true
  | .qopFill _ _ => true
  | .qopFlush _ _ => true
  | .sluWrite _ _ => true
  | .sluRead _ _ => true
  | .sluCounterRead _ _ => true
  | .tmRefill _ => true
  | .decisionSlot _ => true
  | .dequeue _ _ => true
  | .gateAdminDataWrite _ _ _ => true
  | .gateCommit _ _ _ => true
  | .gateSwap _ _ => true
  | .aprofCommit _ => true
  | .poolCommit _ => true
  | .uprofCommit _ => true
  | .frameReceive _ _ _ _ _ => true
  | .pauseTimerExpiry _ _ => true
  | .pauseWatchdog _ _ => true
  | .daFilterWrite _ _ => true
  | .daFilterRead _ _ => true
  | .macTransmitStart _ _ => true
  | .frameTransmitEnd _ => true
  | .pauseTx _ _ => true
  | .lpiEntry _ => true
  | .linkChange _ _ _ => true
  | .tsFifoPop _ => true
  | .ptpCommit _ => true
  | .mdioC22Write _ _ _ => true
  | .mdioC22Read _ _ _ => true
  | .mdioC45Address _ _ _ => true
  | .mdioC45Write _ _ _ => true
  | .mdioC45Read _ _ _ => true
  | .mdioC45ReadInc _ _ _ => true
  | .mdioFrameDone _ _ _ => true
  | .cageI2cWrite _ _ => true
  | .cageI2cRead _ _ => true
  | .cageI2cDone _ _ _ got => got.length ≤ 8
  | .ledRefresh _ => true
  | .kslotWrite _ _ => true
  | .kslotLoadKiln _ _ => true
  | .kslotErase _ _ => true
  | .kslotHeldWriteDone _ => true
  | .omciDownstreamCheck _ => true
  | .msTxCommit _ => true
  | .msPnWrite _ _ _ => true
  | .msPnRead _ _ => true
  | .msRxscWrite _ _ _ => true
  | .laDoorbell _ _ => true
  | .laGcmEncrypt _ _ _ => true
  | .laGcmDecrypt _ _ _ => true
  | .laCtrEncrypt _ _ _ => true
  | .laCtrDecrypt _ _ _ => true
  | .laCmacGenerate _ _ _ => true
  | .laCmacVerify _ _ _ => true
  | .laContextSaveClear _ _ _ => true
  | .laContextSaveWrapped _ _ _ => true
  | .laContextRestoreClear _ _ _ => true
  | .laContextRestoreWrapped _ _ _ => true
  | .laBulkSuspend _ => true
  | .laBulkResume _ => true
  | .laBusError _ _ _ _ _ => true
  | .reservoirRead d r _ _ _ => 6 ≤ d.val && r.wf
  | .reservoirWrite d r _ _ _ => 6 ≤ d.val && r.wf
  | .packetSramRead r _ _ _ => r.wf
  | .packetSramWrite r _ _ _ => r.wf
  | .refModeChange d => 6 ≤ d.val
  | .scrubRead _ _ _ => true
  | .selfTestStart _ _ _ => true
  | .selfTestEnd _ _ _ _ _ => true
  | .spareBankCopyDone _ => true
  | .retiredQueuesEmpty _ _ => true
  | .rsvEnable d _ => d.val = 2 || 6 ≤ d.val
  | .rsvDisable d _ => d.val = 2 || 6 ≤ d.val
  | .rsvInitDone d => d.val = 2 || 6 ≤ d.val
  | .elogPop _ _ => true
  | .spmapReadSpare _ _ _ => true
  | .spmapWriteSpare _ _ _ => true
  | .spmapReadRetirement _ _ _ => true
  | .spmapWriteRetirement _ _ _ => true
  | .spmapLock _ _ => true
  | .l2CfgWrite _ _ => true
  | .coreLoad _ _ _ _ _ _ => true
  | .coreStore _ _ _ _ _ => true
  | .mfs _ _ _ => true
  | .mts _ _ _ => true
  | .tlbInvalidate _ _ => true
  | .cacheMaintenance _ _ _ => true
  | .supervisorCall _ => true
  | .monitorCall _ => true
  | .rfx _ => true
  | .interruptEntry _ _ => true
  | .machineCheck _ _ => true
  | .bar _ _ _ _ _ => true
  | .spnw _ _ _ _ _ => true
  | .crd _ _ _ _ _ => true
  | .slh _ _ _ _ _ => true
  | .slhWake _ => true
  | .coreRun _ _ => true
  | .irqLevelChange _ => true
  | .irqClaim r _ _ => r.wf
  | .irqEoi _ _ _ => true
  | .sgiSet _ => true
  | .timerInterrupt _ => true
  | .semaphoreRead _ _ => true
  | .semaphoreWrite _ _ _ => true
  | .uartTxWrite _ => true
  | .uartRxRead r => r.wf
  | .uartRxByte _ _ => true
  | .uartTxByte => true
  | .gpioSet _ => true
  | .gpioClr _ => true
  | .gpioInputEdge _ _ => true
  | .dmaStart _ _ _ => true
  | .dmaStop _ _ _ => true
  | .dmaDisable _ _ _ => true
  | .dmaDoorbell _ _ => true
  | .dmaDescriptorFetch _ _ _ => true
  | .dmaMove _ _ _ => true
  | .dmaReceiveRecord _ _ _ => true
  | .dmaTransmitBurst _ _ => true
  | .dmaInjectBurst _ _ _ => true
  | .paceTimerFire _ _ => true
  | .paceTrigger _ _ => true
  | .dmaBusError _ _ _ _ _ _ _ => true
  | .resetNChange _ _ => true
  | .rstCtlWarm _ _ => true
  | .rstCtlCold _ _ => true
  | .warmReset => true
  | .coldReset => true
  | .railPowerGood => true
  | .railFault _ _ => true
  | .railFaultRetry => true
  | .pmbSendByte _ _ => true
  | .pmbWriteByte _ _ => true
  | .pmbWriteWord _ _ => true
  | .pmbReadByte _ _ => true
  | .pmbReadWord _ _ => true
  | .pmbTransactionDone _ _ _ => true
  | .avsEnable _ _ _ _ => true
  | .avsAdjust => true
  | .fuseAdvance _ _ => true
  | .fuseScrap _ _ => true
  | .fuseRollback _ _ => true
  | .fuseRevoke _ _ => true
  | .fuseRailTable _ _ => true
  | .fuseBootKey _ _ => true
  | .fuseDbgKey _ _ => true
  | .fuseBurnDone _ => true
  | .bootSlotCheck _ => true
  | .bootRelease => true
  | .kilnGenerate _ _ => true
  | .kilnWrap _ _ => true
  | .kilnUnwrap _ _ => true
  | .kilnDerive _ _ => true
  | .kilnClear _ _ => true
  | .kilnCommandDone => true
  | .kilnParityError => true
  | .dbgReq _ => true
  | .dbgResp resp => resp.length = 192
  | .dbgAuthDone => true
  | .zeroisationStep _ => true
  | .powerStateEntry _ _ _ _ _ => true
  | .powerEntryComplete _ => true
  | .powerStateExit _ _ _ => true
  | .powerExitComplete _ _ => true
  | .dieWakeWrite _ _ _ => true
  | .heldTrafficRelease _ => true
  | .portWakeEvent _ _ => true
  | .wakeStoreRelease _ => true
  | .patCommit _ _ _ => true
  | .psCommit _ _ _ => true
  | .psEnter _ _ _ => true
  | .psLeave _ _ _ => true
  | .psPhaseChange _ => true
  | .psReceiverPowerUp _ => true
  | .psEnd _ => true
  | .retLostClear _ _ => true
  | .offEntry _ _ => true
  | .offWake _ _ => true
  | .wakeNAssert => true
  | .thermalCompare => true
  | .thermalOffTimer _ => true
  | .pmcArm _ _ _ => true
  | .pmcArmedAction _ => true
  | .pmcCounterRead r _ _ _ _ => r.wf
  | .pmcCounterWrite _ _ _ _ _ => true
  | .bwWindowClose _ => true
  | .bwSnap _ _ _ => true
  | .sensorReading _ _ _ _ => true
  | .cdrLockChange _ _ => true
  | .rxLpiChange _ _ => true
  | .sfcLoRead _ _ => true
  | .tapFuseProg => true
  | .reservedWordIssue x => x.wf
  | .coreIntegerOperation _ _ _ _ _ => true
  | .coreBranch _ _ => true
  | .alwaysOnPowerLoss => true

end Sys2Proof
end

