-- ==== Sys2Proof/Safety.lean ====
section
/-!
DEFINITION. What claims are stated in: that a command completes, that a run never stops, what of the fuses only grows, and the
invariants of the whole machine.
-/
namespace Sys2Proof.Machine

/-- Command c completes on s: exec answers a next state, and p holds of it. -/
def Completes (c : Instr) (s : State) (p : State → Prop) : Prop := ∃ t, exec c s = .next t ∧ p t

/-- Thread x of its die carries packet u, stands at the word w, and has n slots left of its budget, with a clean fetch and a
place after it in the bank (R292, R298, R327). -/
abbrev State.issues (s : State) (x : Issue) (u : Thread) (w : Word) (n : Nat) : Prop :=
  s.unitRuns x.die.val 1 = true ∧ s.thread x.die.val x.thread.val = some u ∧
    s.imemAt x.die.val (x.thread.val / 8) u.bank u.pc = w ∧ eccBad x.fetch = false ∧ u.used + n ≤ u.budget ∧ u.pc < 8191

/-- The thread of x goes on as u' at a program counter, n slots further (R293, R298, R308). -/
abbrev State.goesOn (t : State) (x : Issue) (u' : Thread) (pc n : Nat) : Prop :=
  t.thread x.die.val x.thread.val = some { u' with pc := pc, used := u'.used + n }

/-- An access is open: no error response, and no die on its way that is not in RUN. -/
def Reach.isOpen : Reach → Bool
  | .open_ _ => true
  | .asleep _ | .error => false

/-- A route is open from end to end. -/
def Route.isClear : Route → Bool
  | .clear _ => true
  | .absent | .firstDown _ | .secondDown _ _ | .asleep _ => false

/-- The look-aside engine takes the head descriptor x of ring q of line die n for operation op (R508, R514): the ring may
run and has no job suspended, the descriptor is owned and well formed, its areas are open, and l is what stands at its source. -/
abbrev State.laJob (s : State) (n q op : Nat) (x : LaDesc) (l : List Byte) : Prop :=
  s.unitRuns n 5 = true ∧ s.laMay n q = true ∧ (q = 1 → Tab.get s.ciph.bulk none n = none) ∧
    (s.readSpan n (s.laDesc n q) 64 .clean).1.map laDecode = some x ∧
    x.own = true ∧ x.op = op ∧ x.bad (s.is Reg.CIPH_LA_CFG_CLEAR_CTX (onDie n)) = false ∧
    (s.spanReach n (s.laDesc n q) 64).isOpen = true ∧ (s.spanReach n x.src x.inLen).isOpen = true ∧
    (s.spanReach n x.dst x.outLen).isOpen = true ∧ (s.readSpan n x.src x.inLen .clean).1 = some l

/-- The areas of a descriptor's destination and of the descriptor itself lie apart. -/
abbrev State.laApart (s : State) (n q : Nat) (x : LaDesc) : Prop :=
  x.dst + x.outLen ≤ s.laDesc n q ∨ s.laDesc n q + 64 ≤ x.dst

/-- From s to t the engine completed the head descriptor (R508): its status, IV and tag are written back, OWN is cleared and
the head advances. -/
abbrev State.laDone (s t : State) (n q code : Nat) (iv tag : List Byte) : Prop :=
  t.bytes (s.laDesc n q + 4) 4 = leBytes 4 code ∧ t.bytes (s.laDesc n q + 32) 32 = iv ++ tag ∧
    (t.byte (s.laDesc n q + 3)).getLsbD 7 = false ∧
    t.get Reg.CIPH_LA_HEAD_V (place n q) =
      (s.get Reg.CIPH_LA_HEAD_V (place n q) + 1) % 2 ^ s.get Reg.CIPH_LA_RING_LOG2N (place n q) % 2 ^ 12

/-- The state in which an instruction of a core acts: its fetch is translated and read, and the word spells it, `want` being that of a
device-specific instruction (R561, R568, R580); none where the fetch ends in a cause, waits, or brings another word. -/
def State.fetched (s : State) (x : CoreIssue) (want : Option Word) : Option State :=
  match s.xlat x.core.val (s.core x.core.val).level (s.core x.core.val).pc .fetch x.walkFetch x.fetchTable with
  | .pa a attr u => match u.fetchFrom x.core.val a attr x.fetch with
    | .ok v u => if spelt want (BitVec.ofNat 32 v) = .yes then some u else none
    | .exc _ _ | .wait _ => none
  | .fault _ | .denied _ | .abort _ _ | .wait _ => none

/-- The core of x issues its next instruction, an ordinary one or that of the word `want`, which acts on u. -/
abbrev State.insAt (s : State) (x : CoreIssue) (u : State) (want : Option Word := none) : Prop :=
  s.running = true ∧ s.coreIssues x.core.val = true ∧ s.fetched x want = some u

/-- What stands once core n has finished an instruction that it issued at a level (R697, R701). -/
abbrev State.issued (t : State) (x : CoreIssue) (l : Level) : State := (t.stalled x.core.val 0).coreIssued x.core.val l

/-- The physical address that a read of va translates to, and the state that leaves; none where it takes a cause or waits (R568). -/
def State.readAt (s : State) (x : CoreIssue) (va : BitVec 64) : Option (Nat × State) :=
  match s.xlat x.core.val (s.core x.core.val).level va .read x.walk x.table with
  | .pa a _ u => some (a, u)
  | .fault _ | .denied _ | .abort _ _ | .wait _ => none

/-- No L1 data cache of line die d holds the line of an address dirty. -/
abbrev State.noneDirty (s : State) (d pa : Nat) : Prop :=
  (dieCores s.part d).all (fun k => !(s.line (.data k) pa).any (·.dirty)) = true

/-- Where cache c of s held the line of an address, it holds none in t. -/
abbrev State.emptied (s t : State) (c : Cache) (pa : Nat) : Prop := (s.placeOf c pa).all (fun k => (t.lineAt c k).isNone) = true

/-- What an aligned load of k bytes finds, and the state it leaves; none where it takes a cause or waits (R563, R568). -/
def State.loads (s : State) (x : CoreIssue) (va : BitVec 64) (k : Nat) : Option (Nat × State) :=
  match s.xlat x.core.val (s.core x.core.val).level va .read x.walk x.table with
  | .pa a attr u => match u.coreRead x.core.val (s.core x.core.val).level a k attr .load x.mem with
    | .ok v u => some (if u.via x.core.val a attr == .mesh then v else overlay (u.core x.core.val).sb a k v, u)
    | .exc _ _ | .wait _ => none
  | .fault _ | .denied _ | .abort _ _ | .wait _ => none

/-- The state that an aligned store of k bytes leaves; none where it takes a cause or waits (R558, R565, R568). -/
def State.stores (s : State) (x : CoreIssue) (va : BitVec 64) (k v : Nat) : Option State :=
  match s.xlat x.core.val (s.core x.core.val).level va .write x.walk x.table with
  | .pa a attr u => match u.coreWrite x.core.val (s.core x.core.val).level a k attr v x.mem with
    | .ok _ u => some u
    | .exc _ _ | .wait _ => none
  | .fault _ | .denied _ | .abort _ _ | .wait _ => none

/-- A physical address lies in the tightly coupled memory of core n (Table 13.2). -/
abbrev State.ownTcm (s : State) (n pa : Nat) : Prop :=
  coreExists s.part n = true ∧ pa / 2 ^ 36 = coreDie n ∧ pa % 2 ^ 36 / 0x40000 = 0x4000 + coreLocal n

/-- A write of the register that starts no command only sets its fields (R8): the registers listed have an effect of their
own. -/
def plainReg (reg : Nat) : Bool :=
  !([Reg.KILN_KEYIN, Reg.KSLOT_STAGE, Reg.HW_SRGN_BASE, Reg.HW_SRGN_CTL, Reg.HW_ABSENT_INFO, Reg.TIME_PPS_IN_STAT, Reg.FRZ_CHAIN_SEL, Reg.LANE_PRX_CFG,
    Reg.LANE_PRX_EQ_CTL, Reg.LANE_PTX_CFG, Reg.LANE_SUB_CFG, Reg.LANE_MGT_CFG, Reg.MAC_CFG, Reg.MAC_FC_CFG,
    Reg.MGT_CFG, Reg.MGT_FC_CFG, Reg.MAC_FC_WD, Reg.MGT_FC_WD, Reg.MGT_RX_CFG, Reg.MAC_CAGE_I2C_CFG, Reg.MAC_MDIO_IEN, Reg.LANE_OPT_I2C_CFG, Reg.PMC_CTL, Reg.GATE_ADM_LEN, Reg.GATE_ADM_BASE_SEC_HI,
    Reg.GATE_ADM_BASE_SEC_LO, Reg.GATE_ADM_BASE_NS, Reg.GATE_ADM_CYCLE, Reg.CTL_UART_CFG, Reg.CTL_GPIO_DIR, Reg.CTL_GPIO_OUT,
    Reg.DMA_DESC_LO, Reg.DMA_DESC_HI, Reg.PMC_CNT_HI, Reg.PMC_CYC_HI].contains reg)

/-- A read of the register returns its stored word (R8): the registers listed are computed on the edge of the read, or hold the
lower part of a counter, the head of a log or the next packet number. -/
def storedReg (reg : Nat) : Bool :=
  !([Reg.FRZ_CHAIN_LEN, Reg.FRZ_CHAIN_POS, Reg.PWR_DIE_STAT, Reg.LANE_ESCAN_ERR, Reg.LANE_PRX_STAT, Reg.TILE_BANK_STAT, Reg.LKP_GEN_STAT, Reg.LKP_EPOCH, Reg.EDDY_STAT, Reg.GATE_STAT, Reg.TM_CLS_HWM, Reg.LANE_PRX_FFE0,
    Reg.LANE_PRX_FFE1, Reg.LANE_PRX_DFE, Reg.MAC_CNT_RX_BYTES_LO, Reg.MAC_CNT_TX_BYTES_LO, Reg.MGT_CNT_RX_BYTES_LO,
    Reg.MGT_CNT_TX_BYTES_LO, Reg.MAC_TSF_W, Reg.MGT_TSF_W, Reg.RSV_ELOG_W, Reg.MEM_ELOG_W, Reg.CIPH_MS_PN_LO].contains reg)

/-- What a firmware write leaves in a field of a register, by its access code (R8, R9, R13): old, written and set on that edge. -/
def FieldDesc.took (f : FieldDesc) (old new same now : Word) : Bool :=
  match f.acc with
  | .rw => !f.legal (bits new f.hi f.lo) || bits now f.hi f.lo == bits new f.hi f.lo
  | .w1c => bits now f.hi f.lo == bits ((old &&& ~~~new) ||| same) f.hi f.lo
  | .ro | .rc | .wo => bits now f.hi f.lo == bits old f.hi f.lo

/-- The areas of State beside its registers, and the MODEL's own queue and count of free values. -/
inductive Area where
  | mem | mesh | clk | time | frz | lanes | hw | pwr | pon | dram | pipe | bond | tm | macs | ciph | ctl | dma | pmc
  deriving DecidableEq, Repr

/-- An area of t is as in s; of memory, each byte. -/
def Area.same (s t : State) : Area → Prop
  | .mem => ∀ a, t.byte a = s.byte a
  | .mesh => t.mesh = s.mesh
  | .clk => t.clk = s.clk
  | .time => t.time = s.time
  | .frz => t.frz = s.frz
  | .lanes => t.lanes = s.lanes
  | .hw => t.hw = s.hw
  | .pwr => t.pwr = s.pwr
  | .pon => t.pon = s.pon
  | .dram => t.dram = s.dram
  | .pipe => t.pipe = s.pipe
  | .bond => t.bond = s.bond
  | .tm => t.tm = s.tm
  | .macs => t.macs = s.macs
  | .ciph => t.ciph = s.ciph
  | .ctl => t.ctl = s.ctl
  | .dma => t.dma = s.dma
  | .pmc => t.pmc = s.pmc

/-- Registers that a frame lets change: one register at one place, every place of it on a die, or every place of it. -/
inductive Place where
  | one (reg place : Nat)
  | die (reg d : Nat)
  | all (reg : Nat)
  deriving DecidableEq, Repr

/-- The register r at the place a is one of them. -/
def Place.covers (p : Place) (r a : Nat) : Bool :=
  match p with
  | .one reg q => rkey r a == rkey reg q
  | .die reg d => r == reg && a % 2 ^ 28 / 2 ^ 24 == d
  | .all reg => r == reg

/-- The frame of a command: from s to t nothing changes but the areas us, the stored words of the registers rs and the values
in effect of the registers es. -/
structure State.Within (s t : State) (us : List Area) (rs es : List Place) : Prop where
  areas : ∀ u, u ∉ us → u.same s t
  stored : ∀ r a, (∀ p ∈ rs, p.covers r a = false) → t.rd r a = s.rd r a
  inEffect : ∀ r a, (∀ p ∈ es, p.covers r a = false) → t.rdEff r a = s.rdEff r a

/-- From every state the command c completes and changes nothing but what is listed. -/
def Keeps (c : Instr) (us : List Area) (rs es : List Place) : Prop :=
  ∀ s : State, Completes c s (fun t => s.Within t us rs es)

/-- No step stops: neither a fault nor a refusal. -/
def Goes (o : Out) : Prop := ∃ t, o = .next t

/-- Memory is in its canonical form: addresses strictly rise, and no byte listed reads as an unlisted one (R761). -/
def State.memCanonical (s : State) : Prop := Tab.wf (fun _ => (0 : Byte)) s.mem = true

/-- The lifecycle bit i of the fuses reads 1: at least 2 of its 3 fuses are burnt (R638, R639). -/
def Fuses.lifeBit (f : Fuses) (i : Nat) : Prop := 2 ≤ f.lc.getD i 0

/-- The fuse array is whole: three lifecycle bits of three fuses each, a rail table of 24 words once it is burnt, and key hashes
of 12 words (R634, R638, R640). -/
def Fuses.Whole (f : Fuses) : Prop :=
  f.lc.length = 3 ∧ (∀ n ∈ f.lc, n ≤ 3) ∧ (∀ w, f.rails = some w → w.length = 24) ∧
    (∀ e ∈ f.bootKeys, e.2.length = 12) ∧ (∀ e ∈ f.dbgKeys, e.2.length = 12)

/-- What every step keeps: memory in its canonical form and the fuse array whole. -/
def State.Inv (s : State) : Prop := s.memCanonical ∧ s.hw.fuses.Whole

/-- Every fuse that reads burnt in f reads burnt in g (R638 to R640): the lifecycle bits, the rail table, the bits of the key
hashes, the rollback count and the revoked keys. -/
structure Fuses.Grows (f g : Fuses) : Prop where
  life : ∀ i < 3, f.lifeBit i → g.lifeBit i
  rails : ∀ w, f.rails = some w → g.rails = some w
  rollback : f.rollback ≤ g.rollback
  revoked : ∀ i, f.revoked.testBit i = true → g.revoked.testBit i = true
  bootKeys : ∀ k i j, i < 12 → ((Tab.get f.bootKeys [] k).getD i 0).getLsbD j = true →
    ((Tab.get g.bootKeys [] k).getD i 0).getLsbD j = true
  dbgKeys : ∀ k i j, i < 12 → ((Tab.get f.dbgKeys [] k).getD i 0).getLsbD j = true →
    ((Tab.get g.dbgKeys [] k).getD i 0).getLsbD j = true

/-- A command of the always-on ac domain, of the TAP or of the power supply, which a freeze does not stop (R94, R99, R103). -/
def isAlways : Instr → Bool
  | .meshRequest ⟨.tap, _, _⟩ _ _ _ _ _ | .spanWrite .tap _ _ _ | .modeChange | .sscTurningPoint | .freezeNChange _ | .frzCtlWrite _ | .synchronisedFreeze
  | .chainShift _ | .thawStart | .thawRelease _ | .thawEnd | .thawFail _ | .laneLock _ _ _ _ _ | .dlinkLocked _ _ _
  | .optI2cWrite _ _ | .optI2cRead _ _ | .optI2cStretchTimeout _ | .optI2cDone _ _ _ | .mdioC22Write _ _ _
  | .mdioC22Read _ _ _ | .mdioC45Address _ _ _ | .mdioC45Write _ _ _ | .mdioC45Read _ _ _ | .mdioC45ReadInc _ _ _
  | .mdioFrameDone _ _ _ | .cageI2cWrite _ _ | .cageI2cRead _ _ | .cageI2cDone _ _ _ _ | .ledRefresh _ | .uartTxWrite _
  | .uartRxRead _ | .uartRxByte _ _ | .uartTxByte | .gpioSet _ | .gpioClr _ | .gpioInputEdge _ _ | .paceTimerFire _ _
  | .resetNChange _ _
  | .warmReset | .coldReset | .railPowerGood | .railFault _ _ | .railFaultRetry
  | .pmbTransactionDone _ _ _ | .avsAdjust | .fuseBurnDone _ | .bootSlotCheck _ | .bootRelease | .kilnCommandDone
  | .kilnParityError | .dbgReq _ | .dbgResp _ | .dbgAuthDone | .zeroisationStep _ | .powerStateEntry _ _ _ _ _
  | .powerEntryComplete _ | .powerStateExit _ _ _ | .powerExitComplete _ _ | .portWakeEvent _ _ | .offWake _ _ | .wakeNAssert
  | .thermalCompare | .thermalOffTimer _ | .sensorReading _ _ _ _ | .tapFuseProg | .alwaysOnPowerLoss => true
  | _ => false

end Sys2Proof.Machine
end

