-- ==== Sys2Proof/Certificates/Slice0/Obligations.lean ====
section
/-!
DEFINITION. The statements for the provers, by chapter of the manual. A statement that a command completes says which next state
its own effect gives, under hypotheses on the state and the operands alone.
-/
open Sys2Proof Sys2Proof.Machine Sys2Proof.Machine.Reg

/-- ABSENT_REFUSAL_REPORT takes the oldest report of its die off the reports on their way: while HW.ABSENT_INFO.VALID is 0 it latches the die, the direction and the address with VALID 1, and while VALID is 1 it counts in MORE, which saturates at 0xFF, and leaves HW.ABSENT_ADDR. POSTED_WRITE over a clear route puts its packet bytes in memory, or gives an interrupt source its level, 0 for a source that Table 19.4 does not list; to an absent or fenced die it is counted in HW.ABSENT_DROP, over a link that is down, the first of its route or the second, in DROP at the sending end, and for a die that is asleep it is held, and each of these leaves memory as it was. DIE_FENCE in BOOT fences a present, released die that is not up. BOOT_CTL_DONE at monitor level sets the boot-done state and clears the count of rail faults; at any other level it changes nothing. MODE_CHANGE shows the derived mode, and where that is another than before it records the old one in PREV and sets CHANGED. -/
def Obligations.MeshAndBootEventsComplete : Prop :=
    (∀ (s : State) (d : Die) (r : Refusal32), (s.running = true) → (s.mesh.reports.find? (fun r => r.die == d.val) = some r) → (s.is HW_ABSENT_INFO_VALID d0 = false) →
      Completes (.absentRefusalReport d) s (fun t => t.is HW_ABSENT_INFO_VALID d0 = true ∧ t.get HW_ABSENT_INFO_DIE d0 = d.val ∧ t.get HW_ABSENT_INFO_DIR d0 = b2n r.dir ∧ t.rd HW_ABSENT_ADDR d0 = r.addr.setWidth 32 ∧ t.mesh.reports = s.mesh.reports.erase r)) ∧
    (∀ (s : State) (d : Die) (r : Refusal32), (s.running = true) → (s.mesh.reports.find? (fun r => r.die == d.val) = some r) → (s.is HW_ABSENT_INFO_VALID d0 = true) →
      Completes (.absentRefusalReport d) s (fun t => t.get HW_ABSENT_INFO_MORE d0 = Nat.min 0xFF (s.get HW_ABSENT_INFO_MORE d0 + 1) ∧ t.rd HW_ABSENT_ADDR d0 = s.rd HW_ABSENT_ADDR d0)) ∧
    (∀ (s : State) (d : Die) (a : Addr) (l : List Byte) (h : Nat), (s.running = true) → (s.route d.val (a.toNat / 2 ^ 36) = .clear h) →
      Completes (.postedWrite d (.bytes a l)) s (fun t => t.mem = (s.setBytes a.toNat l).mem)) ∧
    (∀ (s : State) (d : Die) (n : Fin 2048) (high : Bool) (h : Nat), (s.running = true) → (s.route d.val 0 = .clear h) →
      Completes (.postedWrite d (.level n high)) s (fun t => t.get IRQ_SRC_STAT_LEVEL (d0i n.val) = b2n (high && sourceListed s.part (n.val / 256) (n.val % 256)))) ∧
    (∀ (s : State) (d : Die) (m : Posted), (s.running = true) → (s.route d.val (postedDie m) = .absent) →
      Completes (.postedWrite d m) s (fun t => t.rd HW_ABSENT_DROP d0 = s.rd HW_ABSENT_DROP d0 + 1 ∧ t.mem = s.mem)) ∧
    (∀ (s : State) (d : Die) (m : Posted) (l : Nat), (s.running = true) → (s.route d.val (postedDie m) = .firstDown l) →
      Completes (.postedWrite d m) s (fun t => t.rd DLINK_DROP (place d.val l) = s.rd DLINK_DROP (place d.val l) + 1 ∧ t.mem = s.mem)) ∧
    (∀ (s : State) (d : Die) (m : Posted) (l v : Nat), (s.running = true) → (s.route d.val (postedDie m) = .secondDown l v) →
      Completes (.postedWrite d m) s (fun t => t.rd DLINK_DROP (place v l) = s.rd DLINK_DROP (place v l) + 1 ∧ t.mem = s.mem)) ∧
    (∀ (s : State) (d : Die) (m : Posted) (v : Nat), (s.running = true) → (s.route d.val (postedDie m) = .asleep v) →
      Completes (.postedWrite d m) s (fun t => t.mesh.held = s.mesh.held ++ [(postedDie m, Held.posted d.val (postedDie m) m)] ∧ t.mem = s.mem)) ∧
    (∀ (s : State) (d : Die), (s.running = true) → (s.get HW_OPMODE_MODE d0 = 1) → (present s.part d.val = true) → (s.hw.released.getLsbD d.val = true) → (bitOf (s.get HW_DIE_MAP_UP d0) d.val = false) →
      Completes (.dieFence d) s (fun t => t.fenced d.val = true)) ∧
    (∀ (s : State), (s.running = true) →
      Completes (.bootCtlDone .monitor) s (fun t => t.hw.bootDone = true ∧ t.hw.faults = 0)) ∧
    (∀ (s : State) (lv : Level), (s.running = true) → (lv ≠ .monitor) →
      Completes (.bootCtlDone lv) s (fun t => t = s)) ∧
    (∀ (s : State), (s.hw.alive = true) →
      Completes (.modeChange) s (fun t => t.get HW_OPMODE_MODE d0 = s.deriveMode ∧ (s.get HW_OPMODE_MODE d0 ≠ s.deriveMode → t.get HW_OPMODE_PREV d0 = s.get HW_OPMODE_MODE d0 ∧ t.is HW_OPMODE_CHANGED d0 = true)))

/-- SSC_TURNING_POINT on the edge that reaches the period P, with the reference locked, restarts the counter and puts the written spread configuration in effect. TIME_CFG_WRITE runs or holds the network time counter by EN and starts a relock with LOCKED 0. TIME_RELOCK_DONE of a relock under way sets LOCKED unless HOLDOVER is 1. TIME_COMMIT_INCR, _OFFSET and _LOAD, each where OP is its own, take the shadow copies of INCR and of the adjustment on their way, in place of any earlier. TIME_COMMIT_APPLY puts INCR in effect: with OP 0 nothing else of network time changes; an offset of less than 10^9 ns is added with a carry into the seconds and the fraction kept; a load of less than 10^9 ns replaces seconds and nanoseconds and clears the fraction; both set STEPPED. TIME_SNAP clears VALID, TIME_SNAP_CAPTURE copies the seconds, the nanoseconds and the top 16 fraction bits, and TIME_SNAP_VALID sets VALID. TOD_CAP_ARM writes SF_LO and ARM; TOD_CAPTURE at the armed frame of the time-master channel copies the nanoseconds, sets DONE and clears ARM. PPS_OUT_RISE, when a pulse is due, raises the ball for WIDTH_US and makes a message due DELAY_MS later, and while the ball is high raises nothing; PPS_OUT_FALL once the width has passed lets it fall. PPS_IN_CAPTURE with IN_EN 1 captures the nanoseconds and sets VALID, and with VALID 1 already counts in MISSED, which saturates at 0xFF, and leaves the capture. TOD_TX_START, when a message is due, sends LEN bytes of the buffer and clears READY, and with READY 0 counts TX_SKIP. TOD_RX_BYTE puts the byte in the FIFO, stamps a byte that follows idle with the nanoseconds, and into a full FIFO of 64 sets RX_OVF and loses the byte. -/
def Obligations.NetworkTimeEventsComplete : Prop :=
    (∀ (s : State), (s.hw.alive = true) → (s.is CLK_STATUS_REF_LOCK d0 = true) → (s.sscP ≤ s.get CLK_SSC_POS_K d0 + 1) →
      Completes (.sscTurningPoint) s (fun t => t.get CLK_SSC_POS_K d0 = 0 ∧ t.rdEff CLK_SSC_CFG d0 = s.rd CLK_SSC_CFG d0)) ∧
    (∀ (s : State) (v : Word), (s.running = true) →
      Completes (.timeCfgWrite v) s (fun t => t.time.run = v.getLsbD 31 ∧ t.time.relocking = true ∧ t.is TIME_STATUS_LOCKED d0 = false)) ∧
    (∀ (s : State), (s.running = true) → (s.time.relocking = true) → (s.is TIME_STATUS_HOLDOVER d0 = false) →
      Completes (.timeRelockDone) s (fun t => t.is TIME_STATUS_LOCKED d0 = true ∧ t.time.relocking = false)) ∧
    (∀ (s : State) (op : Fin 3), (s.running = true) → (s.get TIME_ADJ_CTL_OP d0 = op.val) →
      Completes (match op with | 0 => .timeCommitIncr | 1 => .timeCommitOffset | 2 => .timeCommitLoad) s (fun t => t.time.pend = some ⟨op.val, s.rd TIME_INCR d0, BitVec.ofNat 48 (s.get TIME_ADJ_SEC_HI_V d0 * 2 ^ 32 + s.get TIME_ADJ_SEC_LO_V d0), BitVec.ofNat 30 (s.get TIME_ADJ_NS_V d0)⟩)) ∧
    (∀ (s : State) (a : TimeAdj), (s.running = true) → (s.time.pend = some a) → (a.op = 0) →
      Completes (.timeCommitApply) s (fun t => t.rdEff TIME_INCR d0 = a.incr ∧ t.time = { s.time with pend := none })) ∧
    (∀ (s : State) (a : TimeAdj), (s.running = true) → (s.time.pend = some a) → (a.op = 2) → (a.ns.toNat < 1000000000) →
      Completes (.timeCommitApply) s (fun t => t.rdEff TIME_INCR d0 = a.incr ∧ t.time.sec = a.sec ∧ t.time.ns = a.ns ∧ t.time.frac = 0 ∧ t.is TIME_STATUS_STEPPED d0 = true)) ∧
    (∀ (s : State) (a : TimeAdj), (s.running = true) → (s.time.pend = some a) → (a.op = 1) → (a.ns.toNat < 1000000000) → (s.time.ns.toNat < 1000000000) →
      Completes (.timeCommitApply) s (fun t => t.time.ns.toNat = (s.time.ns.toNat + a.ns.toNat) % 1000000000 ∧ t.time.sec = s.time.sec + a.sec + BitVec.ofNat 48 ((s.time.ns.toNat + a.ns.toNat) / 1000000000) ∧ t.time.frac = s.time.frac ∧ t.is TIME_STATUS_STEPPED d0 = true)) ∧
    (∀ (s : State), (s.running = true) →
      Completes (.timeSnap) s (fun t => t.time.snap = .going ∧ t.is TIME_SNAP_VALID d0 = false)) ∧
    (∀ (s : State), (s.running = true) → (s.time.snap = .going) →
      Completes (.timeSnapCapture) s (fun t => t.rd TIME_SNAP_SEC_HI d0 = BitVec.ofNat 32 (s.time.sec.toNat / 2 ^ 32) ∧ t.rd TIME_SNAP_SEC_LO d0 = s.time.sec.setWidth 32 ∧ t.rd TIME_SNAP_NS d0 = s.time.ns.setWidth 32 ∧ t.get TIME_SNAP_FRAC_V d0 = s.time.frac.toNat / 2 ^ 12 ∧ t.time.snap = .copied)) ∧
    (∀ (s : State), (s.running = true) → (s.time.snap = .copied) →
      Completes (.timeSnapValid) s (fun t => t.is TIME_SNAP_VALID d0 = true ∧ t.time.snap = .idle)) ∧
    (∀ (s : State) (sf : BitVec 30), (s.running = true) →
      Completes (.todCapArm sf) s (fun t => t.is TIME_TOD_CAP_CTL_ARM d0 = true ∧ t.get TIME_TOD_CAP_CTL_SF_LO d0 = sf.toNat)) ∧
    (∀ (s : State) (f : BitVec 51), (s.running = true) → (s.is TIME_TOD_CAP_CTL_ARM d0 = true) → (chanExists s.part (s.get TIME_CFG_MASTER_CHAN d0) = true) → (s.masterSfc = f) → (f.toNat % 2 ^ 30 = s.get TIME_TOD_CAP_CTL_SF_LO d0) →
      Completes (.todCapture f) s (fun t => t.rd TIME_TOD_CAP_NS d0 = s.time.ns.setWidth 32 ∧ t.is TIME_TOD_CAP_STAT_DONE d0 = true ∧ t.is TIME_TOD_CAP_CTL_ARM d0 = false)) ∧
    (∀ (s : State), (s.running = true) → (s.time.ppsDue = true) → (s.time.ppsOut = false) →
      Completes (.ppsOutRise) s (fun t => t.time.ppsOut = true ∧ t.time.ppsLow = s.get TIME_PPS_CFG_WIDTH_US d0 * 500 ∧ t.time.todWaits = s.time.todWaits ++ [s.get TIME_TOD_CFG_DELAY_MS d0 * 500000])) ∧
    (∀ (s : State), (s.running = true) → (s.time.ppsDue = true) → (s.time.ppsOut = true) →
      Completes (.ppsOutRise) s (fun t => t.time = { s.time with ppsDue := false })) ∧
    (∀ (s : State), (s.running = true) → (s.time.ppsLow = 0) →
      Completes (.ppsOutFall) s (fun t => t.time.ppsOut = false)) ∧
    (∀ (s : State), (s.running = true) → (s.is TIME_PPS_CFG_IN_EN d0 = true) → (s.is TIME_PPS_IN_STAT_VALID d0 = false) →
      Completes (.ppsInCapture) s (fun t => t.rd TIME_PPS_IN_NS d0 = s.time.ns.setWidth 32 ∧ t.is TIME_PPS_IN_STAT_VALID d0 = true)) ∧
    (∀ (s : State), (s.running = true) → (s.is TIME_PPS_CFG_IN_EN d0 = true) → (s.is TIME_PPS_IN_STAT_VALID d0 = true) →
      Completes (.ppsInCapture) s (fun t => t.get TIME_PPS_IN_STAT_MISSED d0 = Nat.min 0xFF (s.get TIME_PPS_IN_STAT_MISSED d0 + 1) ∧ t.rd TIME_PPS_IN_NS d0 = s.rd TIME_PPS_IN_NS d0)) ∧
    (∀ (s : State), (s.running = true) → (0 ∈ s.time.todWaits) → (s.is TIME_TOD_TX_READY d0 = true) →
      Completes (.todTxStart) s (fun t => t.time = { s.time with todWaits := s.time.todWaits.erase 0, todOut := s.todBuffer.take (s.get TIME_TOD_TX_LEN d0) } ∧ t.is TIME_TOD_TX_READY d0 = false)) ∧
    (∀ (s : State), (s.running = true) → (0 ∈ s.time.todWaits) → (s.is TIME_TOD_TX_READY d0 = false) →
      Completes (.todTxStart) s (fun t => t.time = { s.time with todWaits := s.time.todWaits.erase 0 } ∧ t.get TIME_TOD_STAT_TX_SKIP d0 = (s.get TIME_TOD_STAT_TX_SKIP d0 + 1) % 2 ^ 16)) ∧
    (∀ (s : State) (b : Byte) (i : Bool), (s.running = true) → (s.time.todFifo.length < 64) →
      Completes (.todRxByte b i) s (fun t => t.time.todFifo = s.time.todFifo ++ [b] ∧ t.get TIME_TOD_RX_TS_NS d0 = if i then s.time.ns.toNat else s.get TIME_TOD_RX_TS_NS d0)) ∧
    (∀ (s : State) (b : Byte), (s.running = true) → (64 ≤ s.time.todFifo.length) →
      Completes (.todRxByte b false) s (fun t => t.is TIME_TOD_STAT_RX_OVF d0 = true ∧ t.time.todFifo = s.time.todFifo))

/-- FREEZE_N_CHANGE holds the level of the pin and FRZ_CTL_WRITE the value of REQ. SYNCHRONISED_FREEZE, with a request, the rails up and every reachable die in RUN, sets FROZEN, SRC_PIN and SRC_REQ, counts in FREEZE_CNT, and the mode is INSPECT. FREEZE_EDGE_F stops every stoppable domain and shows the reachable dies in STOPPED. CHAIN_SHIFT, with the domains stopped and a debug level granted, moves the selected chain by n places round its length, and a chain that does not exist not at all. THAW_START, under the conditions of R109 and after no failed thaw, clears LINK_FAIL, drops the lock of every link and ends a challenge and a grant of OBSERVE. THAW_RELEASE, once the links and the stacks are back, clears STOPPED; THAW_END clears FROZEN and sets TIME.STATUS.FROZE. THAW_FAIL with a link that is not back sets THAW_FAIL and marks both its dies, and with a stack that is not back marks its die. -/
def Obligations.FreezeAndThawComplete : Prop :=
    (∀ (s : State) (low : Bool), (s.hw.alive = true) →
      Completes (.freezeNChange low) s (fun t => t.frz.pinLow = low)) ∧
    (∀ (s : State) (q : Bool), (s.hw.alive = true) →
      Completes (.frzCtlWrite q) s (fun t => t.is FRZ_CTL_REQ d0 = q)) ∧
    (∀ (s : State), (s.hw.alive = true) → (s.frz.phase = .running) → (s.hw.railsUp = true) → (s.freezeAsked = true) → (∀ d ∈ List.range 8, s.reachable d = true → s.powerState d = 0) →
      Completes (.synchronisedFreeze) s (fun t => t.frz.phase = .freezing ∧ t.is FRZ_STATUS_FROZEN d0 = true ∧ t.is FRZ_STATUS_SRC_PIN d0 = s.frz.pinLow ∧ t.get FRZ_STATUS_SRC_REQ d0 = s.get FRZ_CTL_REQ d0 ∧ t.get FRZ_STATUS_FREEZE_CNT d0 = (s.get FRZ_STATUS_FREEZE_CNT d0 + 1) % 256 ∧ t.get HW_OPMODE_MODE d0 = 7)) ∧
    (∀ (s : State), (s.running = true) → (s.frz.phase = .freezing) →
      Completes (.freezeEdgeF) s (fun t => t.frz.phase = .stopped ∧ t.running = false ∧ t.get FRZ_STATUS_STOPPED d0 = s.dieMask)) ∧
    (∀ (s : State) (n : Nat), (s.hw.alive = true) → (s.frz.phase = .stopped) → (s.hw.dbg.level ≠ 0) →
      Completes (.chainShift n) s (fun t => Tab.get t.frz.chains 0 s.chainSel.1 = if s.chainSel.2 = 0 then Tab.get s.frz.chains 0 s.chainSel.1 else (Tab.get s.frz.chains 0 s.chainSel.1 + n) % s.chainSel.2)) ∧
    (∀ (s : State), (s.hw.alive = true) → (s.frz.phase = .stopped) → (s.frz.pinLow = false) → (s.is FRZ_CTL_REQ d0 = false) → (s.is FRZ_STATUS_CHAIN_DIRTY d0 = false) → (s.hw.openGranted = false) → (s.is FRZ_STATUS_THAW_FAIL d0 = false) →
      Completes (.thawStart) s (fun t => t.frz.phase = .thawing ∧ t.get FRZ_STATUS_LINK_FAIL d0 = 0 ∧ t.hw.dbg.level = 0 ∧ t.hw.dbg.chal = none ∧ ∀ l < 25, linkPresent s.part l = true → t.linkUp l = false)) ∧
    (∀ (s : State) (k : BitVec 8), (s.hw.alive = true) → (s.frz.phase = .thawing) → (∀ l ∈ s.thawLinks, s.linkUp l = true) → (∀ d ∈ s.stackDies, k.getLsbD d = true) →
      Completes (.thawRelease k) s (fun t => t.frz.phase = .resuming ∧ t.get FRZ_STATUS_STOPPED d0 = 0)) ∧
    (∀ (s : State), (s.hw.alive = true) → (s.frz.phase = .resuming) →
      Completes (.thawEnd) s (fun t => t.frz.phase = .running ∧ t.is FRZ_STATUS_FROZEN d0 = false ∧ t.is TIME_STATUS_FROZE d0 = true)) ∧
    (∀ (s : State) (k : BitVec 8) (l : Nat), (s.hw.alive = true) → (s.frz.phase = .thawing) → (l ∈ s.thawLinks) → (s.linkUp l = false) →
      Completes (.thawFail k) s (fun t => t.frz.phase = .stopped ∧ t.is FRZ_STATUS_THAW_FAIL d0 = true ∧ bitOf (t.get FRZ_STATUS_LINK_FAIL d0) (linkLow l) = true ∧ bitOf (t.get FRZ_STATUS_LINK_FAIL d0) (linkHigh l) = true)) ∧
    (∀ (s : State) (k : BitVec 8) (d : Nat), (s.hw.alive = true) → (s.frz.phase = .thawing) → (d ∈ s.stackDies) → (k.getLsbD d = false) →
      Completes (.thawFail k) s (fun t => t.frz.phase = .stopped ∧ t.is FRZ_STATUS_THAW_FAIL d0 = true ∧ bitOf (t.get FRZ_STATUS_LINK_FAIL d0) d = true))

/-- TX_EQ_WRITE of a legal setting puts all three taps in effect and clears REJECT, and of an illegal one sets REJECT and leaves every other bit. CDR_LOCK_CHANGE to lock, of a receiver that is powered and has a signal, sets CDR_LOCK and LW_LOCKED and clears LW_ON_REF, and to loss the reverse. SIGNAL_DETECT_CHANGE sets SD to the level after SD_POL; its fall sets SD_LOST. PRX_EQ_COMMIT puts the three shadow coefficient words in effect. LANE_LOCK on the criterion of the part, of a lane of a present link that sends, sets the lock of the lane; LANE_LOCK_LOSS on its criterion clears it. DLINK_LOCKED with every lane locked and the lanes deskewed sets LOCKED at both ends, with LAT_FAIL 0 and the slack at both, and fixes the delay; with no slack it sets LAT_FAIL at both ends and leaves the link as it was. DLINK_LOCK_LOSS of a link that is up clears LOCKED at both ends, counts in DOWN_CNT at both, which saturates at 0xFF, drops every lane, adds the posted writes lost to DROP at the two ends, and the requests lost wait for their error response, which LINK_LOSS_ERROR_RESPONSE, given that it is the first of its requester, hands to its requester. ESCAN_START latches a point and sets BUSY with ESCAN_ERR 0; ESCAN_ABORT ends it with ABORTED, cause 0 and the count; ESCAN_DONE ends it with DONE, or early with ABORTED and its cause, and the count, which saturates. OPT_I2C_WRITE and _READ with EN 1 and no transaction start one of their direction with BUSY 1; with BUSY 1 already they set REJ; OPT_I2C_STRETCH_TIMEOUT marks the transaction; OPT_I2C_DONE ends it with BUSY 0 and DONE 1. -/
def Obligations.LaneAndLinkEventsComplete : Prop :=
    (∀ (s : State) (l : TxLane) (v : Word), (s.running = true) → (eqExists s.part l = true) → (eqLegal v = false) →
      Completes (.txEqWrite l v) s (fun t => (t.rd (eqPlace l).1 (eqPlace l).2).getLsbD 31 = true ∧ ∀ i < 31, (t.rd (eqPlace l).1 (eqPlace l).2).getLsbD i = (s.rd (eqPlace l).1 (eqPlace l).2).getLsbD i)) ∧
    (∀ (s : State) (l : TxLane) (v : Word), (s.running = true) → (eqExists s.part l = true) → (eqLegal v = true) →
      Completes (.txEqWrite l v) s (fun t => bits (t.rd (eqPlace l).1 (eqPlace l).2) 29 24 = bits v 29 24 ∧ bits (t.rd (eqPlace l).1 (eqPlace l).2) 20 16 = bits v 20 16 ∧ bits (t.rd (eqPlace l).1 (eqPlace l).2) 11 8 = bits v 11 8 ∧ (t.rd (eqPlace l).1 (eqPlace l).2).getLsbD 31 = false)) ∧
    (∀ (s : State) (c : Chan), (s.running = true) → (s.rxPowered c.val = true) → (s.is LANE_PRX_STAT_SD (atChan c.val) = true) →
      Completes (.cdrLockChange c true) s (fun t => t.is LANE_PRX_STAT_CDR_LOCK (atChan c.val) = true ∧ bitOf (t.get CLK_STATUS_LW_LOCKED d0) c.val = true ∧ bitOf (t.get CLK_STATUS_LW_ON_REF d0) c.val = false)) ∧
    (∀ (s : State) (c : Chan), (s.running = true) → (chanExists s.part c.val = true) →
      Completes (.cdrLockChange c false) s (fun t => t.is LANE_PRX_STAT_CDR_LOCK (atChan c.val) = false ∧ bitOf (t.get CLK_STATUS_LW_LOCKED d0) c.val = false ∧ bitOf (t.get CLK_STATUS_LW_ON_REF d0) c.val = true)) ∧
    (∀ (s : State) (c : Chan) (h : Bool), (s.running = true) → (chanExists s.part c.val = true) →
      Completes (.signalDetectChange c h) s (fun t => t.is LANE_PRX_STAT_SD (atChan c.val) = (h != s.is LANE_PRX_CFG_SD_POL (atChan c.val)) ∧ (s.is LANE_PRX_STAT_SD (atChan c.val) = true → (h == s.is LANE_PRX_CFG_SD_POL (atChan c.val)) = true → t.is LANE_PRX_STAT_SD_LOST (atChan c.val) = true))) ∧
    (∀ (s : State) (c : Chan), (s.running = true) →
      Completes (.prxEqCommit c) s (fun t => t.rdEff LANE_PRX_FFE0 (atChan c.val) = s.rd LANE_PRX_FFE0 (atChan c.val) ∧ t.rdEff LANE_PRX_FFE1 (atChan c.val) = s.rd LANE_PRX_FFE1 (atChan c.val) ∧ t.rdEff LANE_PRX_DFE (atChan c.val) = s.rd LANE_PRX_DFE (atChan c.val))) ∧
    (∀ (s : State) (l : Fin 25) (b : Bool) (k : Fin 16) (h : Nat) (m : Bool), (s.hw.alive = true) → (if s.part = .zg6480 then m = true else 64 ≤ h) → (linkPresent s.part l.val = true) → (s.linkSends l.val = true) → (k.val < linkWidth l.val) → (s.frz.phase ≠ .stopped) →
      Completes (.laneLock l b k h m) s (fun t => t.laneLocked l.val b k.val = true)) ∧
    (∀ (s : State) (l : Fin 25) (b : Bool) (k : Fin 16) (i m e : Nat), (s.running = true) → (if s.part = .zg6480 then 2 ≤ m ∨ 16 ≤ e else 16 ≤ i) → (s.is FRZ_STATUS_FROZEN d0 = false) →
      Completes (.laneLockLoss l b k i m e) s (fun t => t.laneLocked l.val b k.val = false)) ∧
    (∀ (s : State) (l : Fin 25) (x : Deskew) (k : Fin 16), (s.hw.alive = true) → (s.hw.railsUp = true) → (deskews s.part l.val x = true) → (s.is FRZ_STATUS_FROZEN d0 = false ∨ s.frz.phase = .thawing) → (linkPresent s.part l.val = true) → (s.allLanes l.val = true) → (s.mustRepeat l.val = true → Tab.get s.lanes.fixedDelay 0 l.val = x.delay) →
      Completes (.dlinkLocked l x (some k)) s (fun t => t.linkUp l.val = true ∧ (∀ d ∈ [linkLow l.val, linkHigh l.val], t.get DLINK_STATUS_SLACK (place d l.val) = k.val ∧ t.is DLINK_STATUS_LAT_FAIL (place d l.val) = false) ∧ Tab.get t.lanes.fixedDelay 0 l.val = x.delay)) ∧
    (∀ (s : State) (l : Fin 25) (x : Deskew), (s.hw.alive = true) → (s.hw.railsUp = true) → (deskews s.part l.val x = true) → (s.is FRZ_STATUS_FROZEN d0 = false ∨ s.frz.phase = .thawing) → (linkPresent s.part l.val = true) → (s.allLanes l.val = true) → (s.mustRepeat l.val = true → Tab.get s.lanes.fixedDelay 0 l.val = x.delay) →
      Completes (.dlinkLocked l x none) s (fun t => (∀ d ∈ [linkLow l.val, linkHigh l.val], t.is DLINK_STATUS_LAT_FAIL (place d l.val) = true) ∧ t.linkUp l.val = s.linkUp l.val)) ∧
    (∀ (s : State) (l : Fin 25) (x : List (Requester × Addr × Bool)) (p q : Nat), (s.running = true) → (s.linkUp l.val = true) → (s.is FRZ_STATUS_FROZEN d0 = false) →
      Completes (.dlinkLockLoss l x p q) s (fun t => (∀ d ∈ [linkLow l.val, linkHigh l.val], t.is DLINK_STATUS_LOCKED (place d l.val) = false ∧ t.get DLINK_STATUS_DOWN_CNT (place d l.val) = Nat.min 0xFF (s.get DLINK_STATUS_DOWN_CNT (place d l.val) + 1)) ∧ (∀ k < linkWidth l.val, ∀ b : Bool, t.laneLocked l.val b k = false) ∧ (s.pipe.flight = [] → (t.get DLINK_DROP_V (place (linkLow l.val) l.val) = (s.get DLINK_DROP_V (place (linkLow l.val) l.val) + p) % 2 ^ 32 ∧ t.get DLINK_DROP_V (place (linkHigh l.val) l.val) = (s.get DLINK_DROP_V (place (linkHigh l.val) l.val) + q) % 2 ^ 32)) ∧ t.mesh.lost = s.mesh.lost ++ x.map (fun y => ⟨y.1, y.2.1, y.2.2⟩))) ∧
    (∀ (s : State) (q : Requester) (e : ErrResp), (s.running = true) → (s.mesh.lost.find? (fun e => e.req == q) = some e) →
      Completes (.linkLossErrorResponse q) s (fun t => t.mesh.errs = s.mesh.errs ++ [e] ∧ t.mesh.lost = s.mesh.lost.erase e ∧ (t.answerOf (reqCode q)).err = true ∧ (t.answerOf (reqCode q)).count = 4096)) ∧
    (∀ (s : State) (d : Die) (v : Word), (s.running = true) → (s.is LANE_ESCAN_STAT_BUSY (onDie d.val) = false) →
      Completes (.escanStart d v) s (fun t => t.is LANE_ESCAN_STAT_BUSY (onDie d.val) = true ∧ (t.scanOf d.val).isSome = true ∧ t.rd LANE_ESCAN_ERR (onDie d.val) = 0)) ∧
    (∀ (s : State) (d : Die) (v : Word) (n : Nat), (s.running = true) → ((s.scanOf d.val).isSome = true) →
      Completes (.escanAbort d v n) s (fun t => t.is LANE_ESCAN_STAT_BUSY (onDie d.val) = false ∧ t.scanOf d.val = none ∧ t.is LANE_ESCAN_STAT_ABORTED (onDie d.val) = true ∧ t.get LANE_ESCAN_STAT_CAUSE (onDie d.val) = 0 ∧ t.rd LANE_ESCAN_ERR (onDie d.val) = BitVec.ofNat 32 (Nat.min n 0xFFFFFFFF))) ∧
    (∀ (s : State) (d : Die) (n : Nat) (p : ScanPoint), (s.running = true) → (s.scanOf d.val = some p) → (s.scanEnds d.val p none = true) →
      Completes (.escanDone d n none) s (fun t => t.is LANE_ESCAN_STAT_BUSY (onDie d.val) = false ∧ t.is LANE_ESCAN_STAT_DONE (onDie d.val) = true ∧ t.scanOf d.val = none ∧ t.rd LANE_ESCAN_ERR (onDie d.val) = BitVec.ofNat 32 (Nat.min n 0xFFFFFFFF))) ∧
    (∀ (s : State) (d : Die) (n : Nat) (p : ScanPoint) (k : Fin 3), (s.running = true) → (s.scanOf d.val = some p) → (s.scanEnds d.val p (some k) = true) →
      Completes (.escanDone d n (some k)) s (fun t => t.is LANE_ESCAN_STAT_BUSY (onDie d.val) = false ∧ t.is LANE_ESCAN_STAT_ABORTED (onDie d.val) = true ∧ t.get LANE_ESCAN_STAT_CAUSE (onDie d.val) = k.val ∧ t.scanOf d.val = none ∧ t.rd LANE_ESCAN_ERR (onDie d.val) = BitVec.ofNat 32 (Nat.min n 0xFFFFFFFF))) ∧
    (∀ (s : State) (n : LineDie) (v : Word), (s.hw.alive = true) → (bits (s.rd LANE_OPT_I2C_CMD (onDie n.val)) 30 30 = 0) → (bits (s.rd LANE_OPT_I2C_CFG (onDie n.val)) 31 31 = 1) →
      Completes (.optI2cWrite n v) s (fun t => (Tab.get t.lanes.optI2c none n.val).map (·.read) = some false ∧ bits (t.rd LANE_OPT_I2C_CMD (onDie n.val)) 30 30 = 1)) ∧
    (∀ (s : State) (n : LineDie) (v : Word), (s.hw.alive = true) → (bits (s.rd LANE_OPT_I2C_CMD (onDie n.val)) 30 30 = 0) → (bits (s.rd LANE_OPT_I2C_CFG (onDie n.val)) 31 31 = 1) →
      Completes (.optI2cRead n v) s (fun t => (Tab.get t.lanes.optI2c none n.val).map (·.read) = some true ∧ bits (t.rd LANE_OPT_I2C_CMD (onDie n.val)) 30 30 = 1)) ∧
    (∀ (s : State) (n : LineDie) (v : Word), (s.hw.alive = true) → (bits (s.rd LANE_OPT_I2C_CMD (onDie n.val)) 30 30 = 1) →
      Completes (.optI2cWrite n v) s (fun t => bits (t.rd LANE_OPT_I2C_STAT (onDie n.val)) 30 30 = 1 ∧ Tab.get t.lanes.optI2c none n.val = Tab.get s.lanes.optI2c none n.val)) ∧
    (∀ (s : State) (n : LineDie) (v : Word), (s.hw.alive = true) → (bits (s.rd LANE_OPT_I2C_CMD (onDie n.val)) 30 30 = 1) →
      Completes (.optI2cRead n v) s (fun t => bits (t.rd LANE_OPT_I2C_STAT (onDie n.val)) 30 30 = 1 ∧ Tab.get t.lanes.optI2c none n.val = Tab.get s.lanes.optI2c none n.val)) ∧
    (∀ (s : State) (n : LineDie) (j : I2cJob), (s.hw.alive = true) → (Tab.get s.lanes.optI2c none n.val = some j) →
      Completes (.optI2cStretchTimeout n) s (fun t => Tab.get t.lanes.optI2c none n.val = some { j with stretched := true })) ∧
    (∀ (s : State) (n : LineDie) (j : I2cJob) (e : I2cEnd) (g : List Byte), (s.hw.alive = true) → (Tab.get s.lanes.optI2c none n.val = some j) →
      Completes (.optI2cDone n e g) s (fun t => Tab.get t.lanes.optI2c none n.val = none ∧ bits (t.rd LANE_OPT_I2C_CMD (onDie n.val)) 30 30 = 0 ∧ bits (t.rd LANE_OPT_I2C_STAT (onDie n.val)) 31 31 = 1))

/-- FRAME_TICK counts the frame, and in HUNT, with the receiver enabled and powered and no power saving to enter, a PSync with no more bit differences than the written PSYNC_TOL enters PRE_SYNC. CODEWORD_DECODE in SYNC adds the bits flipped, and UCW_WEIGHT for an uncorrectable codeword, to the SF and SD sum, which saturates, and marks the frame of an uncorrectable one. DEFECT_RAISE and DEFECT_CLEAR of a defect whose criterion holds set and clear its bit of DEF_RAW, with the framer running and the defects not held. SFSD_WINDOW_END after WIN frames in SYNC starts a window with sum and frames 0. SFSD_COMMIT takes the written thresholds to wait for the next window. RECEIVER_POWER_DOWN of a channel of the part shows HELD with RX_ON 0; RECEIVER_POWER_UP shows RX_ON 1, with the framer in HUNT, no tick of grace counted and SFC_VALID 0. WAKE_GRACE_END once in SYNC or after WAKE_GRACE ticks ends the hold. SFC_LO_READ answers the low 32 bits of the count and copies the others to SFC_HI. -/
def Obligations.FramerAndDefectEventsComplete : Prop :=
    (∀ (s : State) (c : Chan) (f : FrameRx), (s.running = true) → (chanExists s.part c.val = true) →
      Completes (.frameTick c f) s (fun t => (t.conv c.val).frames = (s.conv c.val).frames + 1)) ∧
    (∀ (s : State) (c : Chan) (f : FrameRx) (e : Nat), (s.running = true) → (chanExists s.part c.val = true) → (s.rxEnabled c.val = true) → ((s.framer c.val).sync = .hunt) → ((s.framer c.val).rxDown = false) → (f.psync = some e) → (e ≤ s.get PFR_SYNC_CFG_PSYNC_TOL (atChan c.val)) → (Tab.get s.pwr.psEnter false c.val = false) →
      Completes (.frameTick c f) s (fun t => (t.framer c.val).sync = .preSync)) ∧
    (∀ (s : State) (c : Chan) (n : Nat) (g : Bool), (s.running = true) → (s.rxEnabled c.val = true) → ((s.framer c.val).sync = .sync) →
      Completes (.codewordDecode c n g) s (fun t => (t.framer c.val).winSum = satAdd (2 ^ 36 - 1) (s.framer c.val).winSum (n + if g then 0 else s.getEff PFR_SFSD_CFG_UCW_WEIGHT (atChan c.val)) ∧ (t.framer c.val).frameBad = ((s.framer c.val).frameBad || !g))) ∧
    (∀ (s : State) (c : Chan) (k : Fin 6), (s.running = true) → (s.raises c.val k.val = true) → (s.rxEnabled c.val = true) → ((s.framer c.val).held = false) →
      Completes (.defectRaise c k) s (fun t => bitOf (t.get PFR_DEF_RAW_V (atChan c.val)) k.val = true)) ∧
    (∀ (s : State) (c : Chan) (k : Fin 6), (s.running = true) → (s.clears c.val k.val = true) → (s.rxEnabled c.val = true) → ((s.framer c.val).held = false) →
      Completes (.defectClear c k) s (fun t => bitOf (t.get PFR_DEF_RAW_V (atChan c.val)) k.val = false)) ∧
    (∀ (s : State) (c : Chan), (s.running = true) → ((s.framer c.val).sync = .sync) → (s.getEff PFR_SFSD_CFG_WIN (atChan c.val) ≤ (s.framer c.val).winFrames) →
      Completes (.sfsdWindowEnd c) s (fun t => (t.framer c.val).winSum = 0 ∧ (t.framer c.val).winFrames = 0)) ∧
    (∀ (s : State) (c : Chan), (s.running = true) →
      Completes (.sfsdCommit c) s (fun t => (t.framer c.val).sfsdPend = some (sfsdRegs.map (fun r => s.rd r (atChan c.val))))) ∧
    (∀ (s : State) (c : Chan), (s.running = true) → (chanExists s.part c.val = true) →
      Completes (.receiverPowerDown c) s (fun t => t.get PFR_SYNC_STAT_STATE (atChan c.val) = 3 ∧ t.is PWR_PS_STAT_RX_ON (d0i c.val) = false ∧ (t.framer c.val).rxDown = true)) ∧
    (∀ (s : State) (c : Chan), (s.running = true) → ((s.framer c.val).rxDown = true) →
      Completes (.receiverPowerUp c) s (fun t => t.is PWR_PS_STAT_RX_ON (d0i c.val) = true ∧ (t.framer c.val).rxDown = false ∧ (t.framer c.val).sync = .hunt ∧ (t.framer c.val).grace = 0 ∧ t.is PFR_SYNC_STAT_SFC_VALID (atChan c.val) = false)) ∧
    (∀ (s : State) (c : Chan), (s.running = true) → ((s.framer c.val).held = true) → ((s.framer c.val).rxDown = false) → ((s.framer c.val).sync = .sync ∨ s.getEff PFR_SYNC_CFG_WAKE_GRACE (atChan c.val) ≤ (s.framer c.val).grace) →
      Completes (.wakeGraceEnd c) s (fun t => (t.framer c.val).held = false)) ∧
    (∀ (s : State) (q : Requester) (c : Chan), (s.running = true) →
      Completes (.sfcLoRead q c) s (fun t => (t.answerOf (reqCode q)).data.toNat = (s.framer c.val).sfc.toNat % 2 ^ 32 ∧ t.get PFR_SFC_HI_V (atChan c.val) = (s.framer c.val).sfc.toNat / 2 ^ 32))

/-- PM_SECOND_END with the monitor enabled and its timebase running counts the second and leaves both bins in progress. PM_CLASSIFICATION_FINAL, once nine more seconds have ended, takes the oldest pending classification off. PM_HISTORY_WRITE puts the oldest closed bin of a length at the head of its history and sets its status bit. PM_ENABLE from EN 0 sets EN, and bins start at the next second. PM_DISABLE from EN 1 clears EN and leaves no bin in progress, none closed and not written and no classification pending; a fifteen-minute bin and a day bin in progress become the heads of their histories, marked PARTIAL, with their status bits. PM_SNAP of the fifteen-minute bin in progress copies its thirteen words, with CH_OFF for a receiver disabled in the present second. -/
def Obligations.PerformanceBinsComplete : Prop :=
    (∀ (s : State) (c : Chan), (s.running = true) → (s.is PFR_PM_CFG_EN (atChan c.val) = true) → (s.isEff PFR_PM_CFG_TIMEBASE (atChan c.val) = true ∨ s.is TIME_CFG_EN d0 = true) →
      Completes (.pmSecondEnd c) s (fun t => (t.pm c.val).secs = (s.pm c.val).secs + 1 ∧ (t.pm c.val).cur15.isSome = true ∧ (t.pm c.val).curDay.isSome = true)) ∧
    (∀ (s : State) (c : Chan), (s.running = true) → (10 ≤ (s.pm c.val).pend.length) →
      Completes (.pmClassificationFinal c) s (fun t => (t.pm c.val).pend = (s.pm c.val).pend.tail)) ∧
    (∀ (s : State) (c : Chan) (y : Bool) (x : Bool × PmBin), (s.running = true) → ((s.pm c.val).waiting.find? (fun x => x.1 == y) = some x) →
      Completes (.pmHistoryWrite c y) s (fun t => (if y then (t.pm c.val).histDay else (t.pm c.val).hist15).head? = some x.2 ∧ (t.pm c.val).waiting = (s.pm c.val).waiting.erase x ∧ t.is (if y then PFR_PM_STAT_BINDAY else PFR_PM_STAT_BIN15) (atChan c.val) = true)) ∧
    (∀ (s : State) (c : Chan) (v : Word), (s.running = true) → (s.is PFR_PM_CFG_EN (atChan c.val) = false) →
      Completes (.pmEnable c v) s (fun t => t.is PFR_PM_CFG_EN (atChan c.val) = true ∧ (t.pm c.val).starting = true ∧ (t.pm c.val).secs = 0)) ∧
    (∀ (s : State) (c : Chan) (v : Word), (s.running = true) → (s.is PFR_PM_CFG_EN (atChan c.val) = true) →
      Completes (.pmDisable c v) s (fun t => t.is PFR_PM_CFG_EN (atChan c.val) = false ∧ (t.pm c.val).cur15 = none ∧ (t.pm c.val).curDay = none ∧ (t.pm c.val).waiting = [] ∧ (t.pm c.val).pend = [] ∧ ((s.pm c.val).cur15.isSome = true → (t.pm c.val).hist15.head?.map (·.short) = some true ∧ t.is PFR_PM_STAT_BIN15 (atChan c.val) = true) ∧ ((s.pm c.val).curDay.isSome = true → (t.pm c.val).histDay.head?.map (·.short) = some true ∧ t.is PFR_PM_STAT_BINDAY (atChan c.val) = true))) ∧
    (∀ (s : State) (c : Chan) (v : Word) (b : PmBin), (s.running = true) → (bits v PFR_PM_SEL_DAY.hi PFR_PM_SEL_DAY.lo = 0) → (bits v PFR_PM_SEL_INDEX.hi PFR_PM_SEL_INDEX.lo = 0) → ((s.pm c.val).cur15 = some b) →
      Completes (.pmSnap c v) s (fun t => ∀ k < 13, t.rd PFR_PM_W (place (chanDie c.val) (c.val * 13 + k)) = BitVec.ofNat 32 (({ b with frmSec := s.isEff PFR_PM_CFG_FRM_MODE (atChan c.val), fecSec := s.isEff PFR_PM_CFG_FEC_MODE (atChan c.val), closed := (s.pm c.val).n15, chOff := b.chOff || (s.pm c.val).off || !s.rxEnabled c.val }.words true).getD k 0)))

/-- ACT_REQ_O23, ACT_REQ_O4, ACT_REQ_O5 and ACT_REQ_O11, where Table 5.3 lists the request from the present state, outside BOOT and with EN = 1 in effect, move the channel to the state asked for and clear REJECT, and else leave the state and set REJECT and CMD_REJ. ACT_REQ_O7 from any other state is taken in every mode and whatever EN, sets O7_ENTRY and clears REJECT, and in O7 leaves the state and sets REJECT and CMD_REJ. TO1_EXPIRY in O2-3 or O4 and TO2_EXPIRY in O6, once counted out, return the channel to O1.1 and set TO1_EXP and TO2_EXP. -/
def Obligations.ActivationRequestsComplete : Prop :=
    (∀ (s : State) (c : Chan) (v : Word), (s.running = true) → (requestListed (s.actState c.val) 2 = true) → (s.get HW_OPMODE_MODE d0 ≠ 1) → (s.isEff PTC_ACT_CTL_EN (atChan c.val) = true) →
      Completes (.actReqO23 c v) s (fun t => t.actState c.val = 2 ∧ t.is PTC_ACT_STAT_REJECT (atChan c.val) = false)) ∧
    (∀ (s : State) (c : Chan) (v : Word), (s.running = true) → (requestListed (s.actState c.val) 3 = true) → (s.get HW_OPMODE_MODE d0 ≠ 1) → (s.isEff PTC_ACT_CTL_EN (atChan c.val) = true) →
      Completes (.actReqO4 c v) s (fun t => t.actState c.val = 3 ∧ t.is PTC_ACT_STAT_REJECT (atChan c.val) = false)) ∧
    (∀ (s : State) (c : Chan) (v : Word), (s.running = true) → (requestListed (s.actState c.val) 4 = true) → (s.get HW_OPMODE_MODE d0 ≠ 1) → (s.isEff PTC_ACT_CTL_EN (atChan c.val) = true) →
      Completes (.actReqO5 c v) s (fun t => t.actState c.val = 4 ∧ t.is PTC_ACT_STAT_REJECT (atChan c.val) = false)) ∧
    (∀ (s : State) (c : Chan) (v : Word), (s.running = true) → (requestListed (s.actState c.val) 0 = true) → (s.get HW_OPMODE_MODE d0 ≠ 1) → (s.isEff PTC_ACT_CTL_EN (atChan c.val) = true) →
      Completes (.actReqO11 c v) s (fun t => t.actState c.val = 0 ∧ t.is PTC_ACT_STAT_REJECT (atChan c.val) = false)) ∧
    (∀ (s : State) (c : Chan) (v : Word), (s.running = true) → (s.actState c.val ≠ 6) →
      Completes (.actReqO7 c v) s (fun t => t.actState c.val = 6 ∧ t.is PTC_ACT_STAT_O7_ENTRY (atChan c.val) = true ∧ t.is PTC_ACT_STAT_REJECT (atChan c.val) = false)) ∧
    (∀ (s : State) (c : Chan) (v : Word), (s.running = true) → (s.actState c.val = 6) →
      Completes (.actReqO7 c v) s (fun t => t.actState c.val = 6 ∧ t.is PTC_ACT_STAT_REJECT (atChan c.val) = true ∧ t.is PTC_ACT_STAT_CMD_REJ (atChan c.val) = true)) ∧
    (∀ (s : State) (c : Chan) (v : Word), (s.running = true) → (requestListed (s.actState c.val) 2 = false ∨ s.get HW_OPMODE_MODE d0 = 1 ∨ s.isEff PTC_ACT_CTL_EN (atChan c.val) = false) →
      Completes (.actReqO23 c v) s (fun t => t.actState c.val = s.actState c.val ∧ t.is PTC_ACT_STAT_REJECT (atChan c.val) = true ∧ t.is PTC_ACT_STAT_CMD_REJ (atChan c.val) = true)) ∧
    (∀ (s : State) (c : Chan) (v : Word), (s.running = true) → (requestListed (s.actState c.val) 3 = false ∨ s.get HW_OPMODE_MODE d0 = 1 ∨ s.isEff PTC_ACT_CTL_EN (atChan c.val) = false) →
      Completes (.actReqO4 c v) s (fun t => t.actState c.val = s.actState c.val ∧ t.is PTC_ACT_STAT_REJECT (atChan c.val) = true ∧ t.is PTC_ACT_STAT_CMD_REJ (atChan c.val) = true)) ∧
    (∀ (s : State) (c : Chan) (v : Word), (s.running = true) → (requestListed (s.actState c.val) 4 = false ∨ s.get HW_OPMODE_MODE d0 = 1 ∨ s.isEff PTC_ACT_CTL_EN (atChan c.val) = false) →
      Completes (.actReqO5 c v) s (fun t => t.actState c.val = s.actState c.val ∧ t.is PTC_ACT_STAT_REJECT (atChan c.val) = true ∧ t.is PTC_ACT_STAT_CMD_REJ (atChan c.val) = true)) ∧
    (∀ (s : State) (c : Chan) (v : Word), (s.running = true) → (requestListed (s.actState c.val) 0 = false ∨ s.get HW_OPMODE_MODE d0 = 1 ∨ s.isEff PTC_ACT_CTL_EN (atChan c.val) = false) →
      Completes (.actReqO11 c v) s (fun t => t.actState c.val = s.actState c.val ∧ t.is PTC_ACT_STAT_REJECT (atChan c.val) = true ∧ t.is PTC_ACT_STAT_CMD_REJ (atChan c.val) = true)) ∧
    (∀ (s : State) (c : Chan), (s.running = true) → (s.actState c.val = 2 ∨ s.actState c.val = 3) → (s.getEff PTC_ACT_TMR_TO1_MS (atChan c.val) * 8 ≤ (s.conv c.val).to1) →
      Completes (.to1Expiry c) s (fun t => t.actState c.val = 0 ∧ t.is PTC_ACT_STAT_TO1_EXP (atChan c.val) = true)) ∧
    (∀ (s : State) (c : Chan), (s.running = true) → (s.actState c.val = 5) → (s.getEff PTC_ACT_TMR_TO2_FR (atChan c.val) ≤ (s.conv c.val).to2) →
      Completes (.to2Expiry c) s (fun t => t.actState c.val = 0 ∧ t.is PTC_ACT_STAT_TO2_EXP (atChan c.val) = true))

/-- PLOAMU_PUSH appends the staged message and shows the level, or with eight waiting changes no queue and sets FULL_REJ. PLOAMU_DEF replaces the default message. PLOAMD_RECEIVE in SYNC of a message for the ONU-ID of the channel or broadcast puts its 48 bytes in the FIFO, or with 32 waiting loses it and counts in OVF_CNT, which saturates; one for another ONU changes nothing. PLOAMD_POP removes the head. PID_TABLE_WRITE writes entry INDEX from both staging registers and PID_TABLE_READ reads it into both; ALLOC_TABLE_WRITE and ALLOC_TABLE_READ write and read the Alloc-ID entry INDEX. XGEM_FRAME_RECEIVE of a header with an unusable HEC ends delineation for its frame and counts in HEC_LOSS; a clear fragment of a Port-ID of the table, with none in progress, starts a reassembly that holds its payload; a frame or fragment of a Port-ID without an entry is discarded with what that Port-ID had in progress and counts in PID_MISS. REASSEMBLY_TIMEOUT discards and counts each frame in progress whose latest fragment lay three or more frames back, and no other. -/
def Obligations.PloamAndXgemComplete : Prop :=
    (∀ (s : State) (c : Chan), (s.running = true) → ((s.conv c.val).ploamu.length < 8) →
      Completes (.ploamuPush c) s (fun t => (t.conv c.val).ploamu = (s.conv c.val).ploamu ++ [s.ploamuStage c.val] ∧ t.get PTC_PLOAMU_STAT_LEVEL (atChan c.val) = (s.conv c.val).ploamu.length + 1)) ∧
    (∀ (s : State) (c : Chan), (s.running = true) → (8 ≤ (s.conv c.val).ploamu.length) →
      Completes (.ploamuPush c) s (fun t => (t.conv c.val).ploamu = (s.conv c.val).ploamu ∧ t.is PTC_PLOAMU_STAT_FULL_REJ (atChan c.val) = true)) ∧
    (∀ (s : State) (c : Chan), (s.running = true) →
      Completes (.ploamuDef c) s (fun t => (t.conv c.val).ploamuDef = s.ploamuStage c.val)) ∧
    (∀ (s : State) (c : Chan) (o : BitVec 10) (m : List Byte), (s.running = true) → ((s.framer c.val).sync = .sync) → (o.toNat = 0x3FF ∨ (s.isEff PTC_ONU_ID_VALID (atChan c.val) = true ∧ s.getEff PTC_ONU_ID_ID (atChan c.val) = o.toNat)) → ((s.conv c.val).ploamd.length < 32) →
      Completes (.ploamdReceive c o m) s (fun t => (t.conv c.val).ploamd = (s.conv c.val).ploamd ++ [slice m 0 48])) ∧
    (∀ (s : State) (c : Chan) (o : BitVec 10) (m : List Byte), (s.running = true) → (o.toNat ≠ 0x3FF) → (s.isEff PTC_ONU_ID_VALID (atChan c.val) = false ∨ s.getEff PTC_ONU_ID_ID (atChan c.val) ≠ o.toNat) →
      Completes (.ploamdReceive c o m) s (fun t => t = s)) ∧
    (∀ (s : State) (c : Chan) (o : BitVec 10) (m : List Byte), (s.running = true) → ((s.framer c.val).sync = .sync) → (o.toNat = 0x3FF ∨ (s.isEff PTC_ONU_ID_VALID (atChan c.val) = true ∧ s.getEff PTC_ONU_ID_ID (atChan c.val) = o.toNat)) → (32 ≤ (s.conv c.val).ploamd.length) →
      Completes (.ploamdReceive c o m) s (fun t => (t.conv c.val).ploamd = (s.conv c.val).ploamd ∧ t.get PTC_PLOAMD_STAT_OVF_CNT (atChan c.val) = Nat.min 0xFFFF (s.get PTC_PLOAMD_STAT_OVF_CNT (atChan c.val) + 1))) ∧
    (∀ (s : State) (c : Chan) (x : List Byte) (l : List (List Byte)), (s.running = true) → ((s.conv c.val).ploamd = x :: l) →
      Completes (.ploamdPop c) s (fun t => (t.conv c.val).ploamd = l)) ∧
    (∀ (s : State) (n : LineDie) (v : Word), (s.running = true) →
      Completes (.pidTableWrite n v) s (fun t => (Tab.get t.pon.pid 0 (n.val * 4096 + t.get PTC_PID_WR_INDEX (onDie n.val))).toNat = (s.rd PTC_PID_STAGE1 (onDie n.val)).toNat * 2 ^ 32 + (s.rd PTC_PID_STAGE0 (onDie n.val)).toNat)) ∧
    (∀ (s : State) (n : LineDie) (v : Word), (s.running = true) →
      Completes (.pidTableRead n v) s (fun t => t.rd PTC_PID_STAGE0 (onDie n.val) = (Tab.get s.pon.pid 0 (n.val * 4096 + t.get PTC_PID_WR_INDEX (onDie n.val))).setWidth 32 ∧ t.rd PTC_PID_STAGE1 (onDie n.val) = (Tab.get s.pon.pid 0 (n.val * 4096 + t.get PTC_PID_WR_INDEX (onDie n.val)) >>> 32).setWidth 32)) ∧
    (∀ (s : State) (n : LineDie) (v : Word), (s.running = true) →
      Completes (.allocTableWrite n v) s (fun t => Tab.get t.pon.alloc 0 (n.val * 1024 + t.get EST_ALLOC_WR_INDEX (onDie n.val)) = s.rd EST_ALLOC_STAGE (onDie n.val))) ∧
    (∀ (s : State) (n : LineDie) (v : Word), (s.running = true) →
      Completes (.allocTableRead n v) s (fun t => t.rd EST_ALLOC_STAGE (onDie n.val) = Tab.get s.pon.alloc 0 (n.val * 1024 + t.get EST_ALLOC_WR_INDEX (onDie n.val)))) ∧
    (∀ (s : State) (c : Chan) (x : XgemRx), (s.running = true) → (s.delineated c.val x = true) → (x.hecOk = false) →
      Completes (.xgemFrameReceive c x) s (fun t => (if x.tail then (t.conv c.val).hecLostPrev else (t.conv c.val).hecLost) = true ∧ t.rd PTC_CNT_HEC_LOSS (atChan c.val) = s.rd PTC_CNT_HEC_LOSS (atChan c.val) + 1)) ∧
    (∀ (s : State) (c : Chan) (x : XgemRx) (i : Nat) (e : BitVec 64), (s.running = true) → (s.delineated c.val x = true) → (x.hecOk = true) → (x.idle = false) → (x.errHdr = false) → (x.errBody = false) → (x.last = false) → (x.keyIdx = 0) → (s.pidEntry c.val x.port.toNat = some (i, e)) → (e.getLsbD 44 = false) → (e.getLsbD 58 = false) → (e.toNat / 2 ^ 59 % 4 < 3) → (e.toNat / 2 ^ 59 % 4 ≠ 1) → ((s.conv c.val).reasm.find? (fun r => r.port == x.port.toNat) = none) →
      Completes (.xgemFrameReceive c x) s (fun t => (t.conv c.val).reasm = (s.conv c.val).reasm ++ [{ port := x.port.toNat, frame := s.rxFrame c.val x, kind := e.toNat / 2 ^ 59 % 4, tag := e.toNat % 2 ^ 16, bytes := x.payload, key := none }])) ∧
    (∀ (s : State) (c : Chan) (x : XgemRx), (s.running = true) → (s.delineated c.val x = true) → (x.hecOk = true) → (x.idle = false) → (x.errHdr = false) → (s.pidEntry c.val x.port.toNat = none) →
      Completes (.xgemFrameReceive c x) s (fun t => (t.conv c.val).reasm = (s.conv c.val).reasm.filter (fun r => r.port != x.port.toNat) ∧ t.rd PTC_CNT_PID_MISS (atChan c.val) = s.rd PTC_CNT_PID_MISS (atChan c.val) + 1)) ∧
    (∀ (s : State) (c : Chan), (s.running = true) →
      Completes (.reassemblyTimeout c) s (fun t => (t.conv c.val).reasm = (s.conv c.val).reasm.filter (fun r => decide ((s.conv c.val).frames < r.frame + 3)) ∧ t.rd PTC_CNT_REASM_TMO (atChan c.val) = s.rd PTC_CNT_REASM_TMO (atChan c.val) + BitVec.ofNat 32 ((s.conv c.val).reasm.filter (fun r => decide (r.frame + 3 ≤ (s.conv c.val).frames))).length))

/-- EQD_COMMIT and PROF_COMMIT take the written values of their group to wait for the next frame. BWMAP_ENTRY_PARSE in SYNC of a grant with an unusable HEC breaks the map, counts in CNT_HEC and plans no burst; a grant to the ONU-ID of an operational channel, with the transmitter on, adds a burst to the plan at the position of R220, with its profile and PLOAMu flag, or plans none and counts it, as malformed for a start outside the frame, of zero size, or beyond 64 bursts or 256 allocations; with the transmitter off it plans none and counts in CNT_PS_GRANT. BURST_PLAN_READY for the oldest entry marks its burst ready, where its profile is enabled, it is not late and it overlaps no ready burst, and else discards it, counted as PROFILE, LATE or OVERLAP. FILL_POINT fills the first ready burst, which takes the head of the PLOAMu queue or the default where it is flagged. BURST_LAUNCH sends the first filled burst with the bytes of R242 under the ONU-ID in effect, or the broadcast one for a serial number, and while the transmitter is off discards and counts it. -/
def Obligations.UpstreamBurstsComplete : Prop :=
    (∀ (s : State) (c : Chan), (s.running = true) →
      Completes (.eqdCommit c) s (fun t => (t.conv c.val).eqdPend = some (s.rd PTC_EQD (atChan c.val), s.rd PTC_RSP_CFG (atChan c.val)))) ∧
    (∀ (s : State) (c : Chan), (s.running = true) →
      Completes (.profCommit c) s (fun t => (t.conv c.val).profPend = some ((profPlaces c.val).map (fun x => s.rd x.1 x.2)))) ∧
    (∀ (s : State) (c : Chan) (g : Grant), (s.running = true) → ((s.framer c.val).sync = .sync) → (g.hecOk = false) →
      Completes (.bwmapEntryParse c g) s (fun t => (t.conv c.val).broken = true ∧ (t.conv c.val).seen = true ∧ (t.conv c.val).bursts = (s.conv c.val).bursts ∧ t.rd EST_CNT_HEC (atChan c.val) = s.rd EST_CNT_HEC (atChan c.val) + 1)) ∧
    (∀ (s : State) (c : Chan) (g : Grant), (s.running = true) → ((s.framer c.val).sync = .sync) → (g.hecOk = true) → (s.actState c.val = 4) → (s.isEff PTC_ONU_ID_VALID (atChan c.val) = true) → (s.getEff PTC_ONU_ID_ID (atChan c.val) = g.allocId.toNat) → (s.is PWR_PS_STAT_TX_ON (d0i c.val) = true) → (g.start.toNat ≠ 0xFFFF) → (g.start.toNat < frameUw (s.xgs c.val) * s.upW c.val / 32) → (g.size ≠ 0) → ((s.conv c.val).nBursts < 64) → ((s.conv c.val).nAllocs < 256) →
      Completes (.bwmapEntryParse c g) s (fun t => (t.conv c.val).nBursts = (s.conv c.val).nBursts + 1 ∧ (t.conv c.val).nAllocs = (s.conv c.val).nAllocs + 1 ∧ (t.conv c.val).seen = true ∧ (t.conv c.val).waits = (s.conv c.val).waits ++ [(s.conv c.val).planned] ∧ (t.conv c.val).bursts.dropLast = (s.conv c.val).bursts ∧ (t.conv c.val).bursts.getLast?.map (fun b => (b.kind, b.start, b.prof, b.ready)) = some (.data, g.start.toNat, g.prof.val, false) ∧ (t.conv c.val).bursts.getLast?.map (fun b => (b.frame, b.pos, b.ploamuFlag)) = some ((s.conv c.val).frames, (burstPos (s.getEff PTC_EQD_V (atChan c.val)) (signed 12 (s.getEff PTC_RSP_CFG_TRIM (atChan c.val))) (s.getEff PTC_RSP_CFG_RSP_TIME (atChan c.val)) (s.upW c.val) g.start.toNat (psbuBits (s.rdEff EST_PROF_CFG (place (chanDie c.val) (c.val * 4 + g.prof.val)))) 0).1, g.ploamu))) ∧
    (∀ (s : State) (c : Chan) (g : Grant), (s.running = true) → ((s.framer c.val).sync = .sync) → (g.hecOk = true) → (s.actState c.val = 4) → (s.isEff PTC_ONU_ID_VALID (atChan c.val) = true) → (s.getEff PTC_ONU_ID_ID (atChan c.val) = g.allocId.toNat) → (s.is PWR_PS_STAT_TX_ON (d0i c.val) = true) → (g.start.toNat ≠ 0xFFFF) → (frameUw (s.xgs c.val) * s.upW c.val / 32 ≤ g.start.toNat) →
      Completes (.bwmapEntryParse c g) s (fun t => (t.conv c.val).bursts = (s.conv c.val).bursts ∧ t.rd EST_CNT_MALFORMED (atChan c.val) = s.rd EST_CNT_MALFORMED (atChan c.val) + 1)) ∧
    (∀ (s : State) (c : Chan) (g : Grant), (s.running = true) → ((s.framer c.val).sync = .sync) → (g.hecOk = true) → (s.actState c.val = 4) → (s.isEff PTC_ONU_ID_VALID (atChan c.val) = true) → (s.getEff PTC_ONU_ID_ID (atChan c.val) = g.allocId.toNat) → (s.is PWR_PS_STAT_TX_ON (d0i c.val) = true) → (g.start.toNat ≠ 0xFFFF) → (g.start.toNat < frameUw (s.xgs c.val) * s.upW c.val / 32) → (g.size = 0) → (g.ploamu = false) → (g.dbru = false) →
      Completes (.bwmapEntryParse c g) s (fun t => (t.conv c.val).bursts = (s.conv c.val).bursts ∧ t.rd EST_CNT_ZERO (atChan c.val) = s.rd EST_CNT_ZERO (atChan c.val) + 1)) ∧
    (∀ (s : State) (c : Chan) (g : Grant), (s.running = true) → ((s.framer c.val).sync = .sync) → (g.hecOk = true) → (s.actState c.val = 4) → (s.isEff PTC_ONU_ID_VALID (atChan c.val) = true) → (s.getEff PTC_ONU_ID_ID (atChan c.val) = g.allocId.toNat) → (s.is PWR_PS_STAT_TX_ON (d0i c.val) = true) → (g.start.toNat ≠ 0xFFFF) → (g.start.toNat < frameUw (s.xgs c.val) * s.upW c.val / 32) → (g.size ≠ 0) → (64 ≤ (s.conv c.val).nBursts ∨ 256 ≤ (s.conv c.val).nAllocs) →
      Completes (.bwmapEntryParse c g) s (fun t => (t.conv c.val).bursts = (s.conv c.val).bursts ∧ t.rd EST_CNT_PLAN_FULL (atChan c.val) = s.rd EST_CNT_PLAN_FULL (atChan c.val) + 1)) ∧
    (∀ (s : State) (c : Chan) (g : Grant), (s.running = true) → ((s.framer c.val).sync = .sync) → (g.hecOk = true) → (s.actState c.val = 4) → (s.isEff PTC_ONU_ID_VALID (atChan c.val) = true) → (s.getEff PTC_ONU_ID_ID (atChan c.val) = g.allocId.toNat) → (g.start.toNat ≠ 0xFFFF) → (g.start.toNat < frameUw (s.xgs c.val) * s.upW c.val / 32) → (s.is PWR_PS_STAT_TX_ON (d0i c.val) = false) →
      Completes (.bwmapEntryParse c g) s (fun t => (t.conv c.val).bursts = (s.conv c.val).bursts ∧ t.rd PWR_CNT_PS_GRANT (d0i c.val) = s.rd PWR_CNT_PS_GRANT (d0i c.val) + 1)) ∧
    (∀ (s : State) (c : Chan) (k n : Nat) (b : Burst) (l : List Nat), (s.running = true) → ((s.conv c.val).waits = n :: l) → ((s.conv c.val).bursts.find? (fun b => b.num == n) = some b) → (b.ready = false) → (bits b.profCfg 31 31 = 1) → (k + fillLead (s.xgs c.val) ≤ b.pos / b.wordBits) → (∀ x ∈ (s.conv c.val).bursts, x.ready = true → (x.span (frameUw (s.xgs c.val) * b.wordBits)).2 ≤ (b.span (frameUw (s.xgs c.val) * b.wordBits)).1) →
      Completes (.burstPlanReady c k) s (fun t => (t.conv c.val).bursts = (s.conv c.val).bursts.map (fun x => if x.num == n then { x with ready := true } else x) ∧ (t.conv c.val).waits = l)) ∧
    (∀ (s : State) (c : Chan) (k n : Nat) (b : Burst) (l : List Nat), (s.running = true) → ((s.conv c.val).waits = n :: l) → ((s.conv c.val).bursts.find? (fun b => b.num == n) = some b) → (b.ready = false) → (bits b.profCfg 31 31 = 0) →
      Completes (.burstPlanReady c k) s (fun t => (t.conv c.val).bursts = (s.conv c.val).bursts.filter (fun x => x.num != n) ∧ (t.conv c.val).waits = l ∧ t.rd EST_CNT_PROFILE (atChan c.val) = s.rd EST_CNT_PROFILE (atChan c.val) + BitVec.ofNat 32 ((s.conv c.val).bursts.filter (fun x => x.num == n)).length)) ∧
    (∀ (s : State) (c : Chan) (k n : Nat) (b : Burst) (l : List Nat), (s.running = true) → ((s.conv c.val).waits = n :: l) → ((s.conv c.val).bursts.find? (fun b => b.num == n) = some b) → (b.ready = true ∨ bits b.profCfg 31 31 = 1) → (b.pos / b.wordBits < k + fillLead (s.xgs c.val)) →
      Completes (.burstPlanReady c k) s (fun t => (t.conv c.val).bursts = (s.conv c.val).bursts.filter (fun x => x.num != n) ∧ (t.conv c.val).waits = l ∧ t.rd EST_CNT_LATE (atChan c.val) = s.rd EST_CNT_LATE (atChan c.val) + BitVec.ofNat 32 ((s.conv c.val).bursts.filter (fun x => x.num == n)).length)) ∧
    (∀ (s : State) (c : Chan) (k n : Nat) (b x : Burst) (l : List Nat), (s.running = true) → ((s.conv c.val).waits = n :: l) → ((s.conv c.val).bursts.find? (fun b => b.num == n) = some b) → (b.ready = false) → (bits b.profCfg 31 31 = 1) → (k + fillLead (s.xgs c.val) ≤ b.pos / b.wordBits) → (x ∈ (s.conv c.val).bursts) → (x.ready = true) → ((b.span (frameUw (s.xgs c.val) * b.wordBits)).1 < (x.span (frameUw (s.xgs c.val) * b.wordBits)).2) →
      Completes (.burstPlanReady c k) s (fun t => (t.conv c.val).bursts = (s.conv c.val).bursts.filter (fun x => x.num != n) ∧ (t.conv c.val).waits = l ∧ t.rd EST_CNT_OVERLAP (atChan c.val) = s.rd EST_CNT_OVERLAP (atChan c.val) + BitVec.ofNat 32 ((s.conv c.val).bursts.filter (fun x => x.num == n)).length)) ∧
    (∀ (s : State) (x : FillRead) (b : Burst), (s.running = true) → ((s.conv x.chan.val).bursts.find? (fun b => b.ready && !b.filled && !(s.conv x.chan.val).waits.contains b.num) = some b) →
      Completes (.fillPoint x) s (fun t => (t.conv x.chan.val).bursts.map (fun x => (x.num, x.filled)) = (s.conv x.chan.val).bursts.map (fun x => (x.num, x.filled || x.num == b.num)) ∧ (t.conv x.chan.val).ploamu = (if b.ploamuFlag then (s.conv x.chan.val).ploamu.tail else (s.conv x.chan.val).ploamu) ∧ ∀ y ∈ (t.conv x.chan.val).bursts, y.num = b.num → y.ploamu = (if b.ploamuFlag then (s.conv x.chan.val).ploamu.headD (s.conv x.chan.val).ploamuDef else []))) ∧
    (∀ (s : State) (c : Chan) (b : Burst), (s.running = true) → ((s.conv c.val).bursts.find? (fun b => b.filled && !b.launched) = some b) → (s.is LANE_PTX_CFG_EN (atChan c.val) = true) → (s.laserOff c.val = false) →
      Completes (.burstLaunch c) s (fun t => (t.conv c.val).sent = some { num := b.num, frame := b.frame, pos := b.pos, lead := b.lead, lag := b.lag, bytes := { b with onu := if b.kind = BurstKind.serial then 0x3FF else s.getEff PTC_ONU_ID_ID (atChan c.val) }.bytes } ∧ (t.conv c.val).bursts.map (fun x => (x.num, x.launched)) = (s.conv c.val).bursts.map (fun x => (x.num, x.launched || x.num == b.num)))) ∧
    (∀ (s : State) (c : Chan) (b : Burst), (s.running = true) → ((s.conv c.val).bursts.find? (fun b => b.filled && !b.launched) = some b) → (s.is LANE_PTX_CFG_EN (atChan c.val) = false ∨ s.laserOff c.val = true) →
      Completes (.burstLaunch c) s (fun t => (t.conv c.val).bursts = (s.conv c.val).bursts.filter (fun x => x.num != b.num) ∧ (t.conv c.val).sent = (s.conv c.val).sent ∧ t.rd EST_CNT_TX_OFF (atChan c.val) = s.rd EST_CNT_TX_OFF (atChan c.val) + BitVec.ofNat 32 ((s.conv c.val).bursts.filter (fun x => x.num == b.num)).length))

/-- BOND_FRAME_RECEIVE of a frame with a valid tag on a member of an enabled group puts it, its tag read and removed, in the skew buffer of its channel where it fits; one with a bad tag, one on a channel that is not a member of an enabled group, and one that does not fit leave the skew buffer and count in CNT_BADTAG, CNT_NOT_MEMBER and CNT_SKEW_OVF, the last with its event. SKEW_RELEASE of a frame read without an uncorrectable error sends the oldest frame of a member of an enabled group to the engine, and of another channel discards it into CNT_NOT_MEMBER. REORDER_ARRIVAL of a frame that reaches the home die: a duplicate of a held frame counts in CNT_DUP and a late frame in CNT_LATE, and each leaves what is held; with nothing held, the frame that its synchronised stream expects and its dispatcher takes is released, and the stream expects its successor; a frame inside the window ahead of a gap, with room, is held and the stream expects what it did. REORDER_TIMEOUT_SKIP, of a stream with a gap whose oldest held frame is older than the timeout and that does not meet the fast-skip condition, and REORDER_FAST_SKIP, of one that meets it, add the numbers passed over to CNT_LOST and 1 to CNT_TMO with its event, or to CNT_FAST: where the dispatcher refuses the stream it expects the lowest held number and holds what it held, and where it takes it and the successor of that frame is not held, that frame is released and the stream expects the successor. SKEW_ARM arms the channels in SYNC and clears CAPTURED; SKEW_CAPTURE on the armed frame of a channel in SYNC records the tc count and sets CAPTURED. MEMBER_RX_CHANGE of a member whose receive-up has changed shows it in RX_UP and sets the bit of EVT. BOND_GROUP_COMMIT puts every register of the group in effect with REJECT 0 and MEMBERS_EFF and EN_EFF following, or, where R285 names a cause, sets REJECT, the cause and the event, and GROUP_CFG stays in effect as it was. UGRP_COMMIT puts both registers of group INDEX in effect. -/
def Obligations.ChannelGroupComplete : Prop :=
    (∀ (s : State) (c : Chan) (x : BondFrame) (l : List BondFrame), (s.islandRuns (chanDie c.val) 7 = true) → (Tab.get s.bond.inbox [] c.val = x :: l) → (tagValid x = true) → (s.bondOn = true) → (s.bondMember c.val = true) → (cellSum (Tab.get s.bond.skew [] c.val) + (untag x).cells ≤ 65536) → ((Tab.get s.bond.skew [] c.val).length < 24576) →
      Completes (.bondFrameReceive c) s (fun t => Tab.get t.bond.skew [] c.val = Tab.get s.bond.skew [] c.val ++ [untag x] ∧ Tab.get t.bond.inbox [] c.val = l)) ∧
    (∀ (s : State) (c : Chan) (x : BondFrame) (l : List BondFrame), (s.islandRuns (chanDie c.val) 7 = true) → (Tab.get s.bond.inbox [] c.val = x :: l) → (tagValid x = false) →
      Completes (.bondFrameReceive c) s (fun t => t.rd BOND_CNT_BADTAG d0 = s.rd BOND_CNT_BADTAG d0 + 1 ∧ Tab.get t.bond.skew [] c.val = Tab.get s.bond.skew [] c.val)) ∧
    (∀ (s : State) (c : Chan) (x : BondFrame) (l : List BondFrame), (s.islandRuns (chanDie c.val) 7 = true) → (Tab.get s.bond.inbox [] c.val = x :: l) → (tagValid x = true) → (s.bondOn = false ∨ s.bondMember c.val = false) →
      Completes (.bondFrameReceive c) s (fun t => t.rd BOND_CNT_NOT_MEMBER d0 = s.rd BOND_CNT_NOT_MEMBER d0 + 1 ∧ Tab.get t.bond.skew [] c.val = Tab.get s.bond.skew [] c.val ∧ Tab.get t.bond.inbox [] c.val = l)) ∧
    (∀ (s : State) (c : Chan) (x : BondFrame) (l : List BondFrame), (s.islandRuns (chanDie c.val) 7 = true) → (Tab.get s.bond.inbox [] c.val = x :: l) → (tagValid x = true) → (s.bondOn = true) → (s.bondMember c.val = true) → (65536 < cellSum (Tab.get s.bond.skew [] c.val) + (untag x).cells ∨ 24576 ≤ (Tab.get s.bond.skew [] c.val).length) →
      Completes (.bondFrameReceive c) s (fun t => t.rd BOND_CNT_SKEW_OVF (d0i c.val) = s.rd BOND_CNT_SKEW_OVF (d0i c.val) + 1 ∧ t.is BOND_EVT_SKEW_OVF d0 = true ∧ Tab.get t.bond.skew [] c.val = Tab.get s.bond.skew [] c.val)) ∧
    (∀ (s : State) (c : Chan) (e : Ecc) (x : BondFrame) (l : List BondFrame), (s.islandRuns (chanDie c.val) 7 = true) → (eccBad e = false) → (Tab.get s.bond.skew [] c.val = x :: l) → (s.bondOn = false ∨ s.bondMember c.val = false) →
      Completes (.skewRelease ⟨c, e⟩) s (fun t => Tab.get t.bond.skew [] c.val = l ∧ Tab.get t.bond.coming [] c.val = Tab.get s.bond.coming [] c.val ∧ t.rd BOND_CNT_NOT_MEMBER d0 = s.rd BOND_CNT_NOT_MEMBER d0 + 1)) ∧
    (∀ (s : State) (c : Chan) (e : Ecc) (x : BondFrame) (l : List BondFrame), (s.islandRuns (chanDie c.val) 7 = true) → (eccBad e = false) → (Tab.get s.bond.skew [] c.val = x :: l) → (s.bondOn = true) → (s.bondMember c.val = true) →
      Completes (.skewRelease ⟨c, e⟩) s (fun t => Tab.get t.bond.skew [] c.val = l ∧ Tab.get t.bond.coming [] c.val = Tab.get s.bond.coming [] c.val ++ [x])) ∧
    (∀ (s : State) (c : Chan) (e : Ecc) (x : BondFrame) (l : List BondFrame) (h : Nat), (s.islandRuns s.bondHome 7 = true) → (s.route (chanDie c.val) s.bondHome = .clear h) → (Tab.get s.bond.coming [] c.val = x :: l) → (s.isHeld x.stream x.seq = true) →
      Completes (.reorderArrival ⟨c, e⟩) s (fun t => t.rd BOND_CNT_DUP d0 = s.rd BOND_CNT_DUP d0 + 1 ∧ t.bond.held = s.bond.held ∧ Tab.get t.bond.coming [] c.val = l)) ∧
    (∀ (s : State) (c : Chan) (e : Ecc) (x : BondFrame) (l : List BondFrame) (h : Nat), (s.islandRuns s.bondHome 7 = true) → (s.route (chanDie c.val) s.bondHome = .clear h) → (Tab.get s.bond.coming [] c.val = x :: l) → (s.isHeld x.stream x.seq = false) → (Tab.get s.bond.synced false x.stream = true) → (x.resync = false) → (2 ^ 23 ≤ ahead (s.bondExp x.stream) x.seq) →
      Completes (.reorderArrival ⟨c, e⟩) s (fun t => t.rd BOND_CNT_LATE d0 = s.rd BOND_CNT_LATE d0 + 1 ∧ t.bond.held = s.bond.held ∧ t.bondExp x.stream = s.bondExp x.stream)) ∧
    (∀ (s : State) (c : Chan) (e : Ecc) (x : BondFrame) (l : List BondFrame) (h : Nat), (s.islandRuns s.bondHome 7 = true) → (s.route (chanDie c.val) s.bondHome = .clear h) → (Tab.get s.bond.coming [] c.val = x :: l) → (s.bond.held = []) → (s.mayPass x.stream = true) → (s.isHeld x.stream x.seq = false) → (Tab.get s.bond.synced false x.stream = true) → (x.resync = false) → (s.bondExp x.stream = x.seq) → (x.seq < 2 ^ 24) → (0 < s.getEff BOND_GROUP_CFG_WINDOW d0) →
      Completes (.reorderArrival ⟨c, e⟩) s (fun t => t.bondExp x.stream = (x.seq + 1) % 2 ^ 24 ∧ t.bond.held = [] ∧ Tab.get t.bond.coming [] c.val = l)) ∧
    (∀ (s : State) (c : Chan) (e : Ecc) (x : BondFrame) (l : List BondFrame) (h : Nat), (s.islandRuns s.bondHome 7 = true) → (s.route (chanDie c.val) s.bondHome = .clear h) → (Tab.get s.bond.coming [] c.val = x :: l) → (s.isHeld x.stream x.seq = false) → (s.heldAt x.stream (s.bondExp x.stream) = none) → (Tab.get s.bond.synced false x.stream = true) → (x.resync = false) → (0 < ahead (s.bondExp x.stream) x.seq) → (ahead (s.bondExp x.stream) x.seq < 2 ^ 23) → (ahead (s.bondExp x.stream) x.seq < s.getEff BOND_GROUP_CFG_WINDOW d0) → (x.seq ≠ s.bondExp x.stream) → (s.storeFull x = false) →
      Completes (.reorderArrival ⟨c, e⟩) s (fun t => t.bond.held = s.bond.held ++ [{ x with edge := s.clk.mc }] ∧ t.bondExp x.stream = s.bondExp x.stream)) ∧
    (∀ (s : State) (k : Fin 8) (e : Ecc) (o y : BondFrame), (s.unitRuns s.bondHome 7 = true) → ((s.heldOf k.val).head? = some o) → (s.fastSkip k.val = false) → (o.edge + s.getEff BOND_GROUP_TMO_TIMEOUT d0 * 1250 ≤ s.clk.mc) → (s.gapped k.val = true) → (lowestHeld (s.bondExp k.val) (s.heldOf k.val) = some y) → (y.seq < 2 ^ 24) → (s.mayPass k.val = true) → (s.heldAt k.val ((y.seq + 1) % 2 ^ 24) = none) →
      Completes (.reorderTimeoutSkip ⟨k, e⟩) s (fun t => t.rd BOND_CNT_LOST d0 = s.rd BOND_CNT_LOST d0 + BitVec.ofNat 32 (ahead (s.bondExp k.val) y.seq) ∧ t.rd BOND_CNT_TMO d0 = s.rd BOND_CNT_TMO d0 + 1 ∧ t.is BOND_EVT_SKIP_TMO d0 = true ∧ t.bondExp k.val = (y.seq + 1) % 2 ^ 24 ∧ t.bond.held = s.bond.held.erase y)) ∧
    (∀ (s : State) (k : Fin 8) (e : Ecc) (o y : BondFrame), (s.unitRuns s.bondHome 7 = true) → ((s.heldOf k.val).head? = some o) → (s.fastSkip k.val = false) → (o.edge + s.getEff BOND_GROUP_TMO_TIMEOUT d0 * 1250 ≤ s.clk.mc) → (s.gapped k.val = true) → (lowestHeld (s.bondExp k.val) (s.heldOf k.val) = some y) → (y.seq < 2 ^ 24) → (s.mayPass k.val = false) →
      Completes (.reorderTimeoutSkip ⟨k, e⟩) s (fun t => t.rd BOND_CNT_LOST d0 = s.rd BOND_CNT_LOST d0 + BitVec.ofNat 32 (ahead (s.bondExp k.val) y.seq) ∧ t.rd BOND_CNT_TMO d0 = s.rd BOND_CNT_TMO d0 + 1 ∧ t.is BOND_EVT_SKIP_TMO d0 = true ∧ t.bondExp k.val = y.seq ∧ t.bond.held = s.bond.held)) ∧
    (∀ (s : State) (k : Fin 8) (e : Ecc) (y : BondFrame), (s.unitRuns s.bondHome 7 = true) → (s.fastSkip k.val = true) → (s.gapped k.val = true) → (lowestHeld (s.bondExp k.val) (s.heldOf k.val) = some y) → (y.seq < 2 ^ 24) → (s.mayPass k.val = true) → (s.heldAt k.val ((y.seq + 1) % 2 ^ 24) = none) →
      Completes (.reorderFastSkip ⟨k, e⟩) s (fun t => t.rd BOND_CNT_LOST d0 = s.rd BOND_CNT_LOST d0 + BitVec.ofNat 32 (ahead (s.bondExp k.val) y.seq) ∧ t.rd BOND_CNT_FAST d0 = s.rd BOND_CNT_FAST d0 + 1 ∧ t.bondExp k.val = (y.seq + 1) % 2 ^ 24 ∧ t.bond.held = s.bond.held.erase y)) ∧
    (∀ (s : State) (k : Fin 8) (e : Ecc) (y : BondFrame), (s.unitRuns s.bondHome 7 = true) → (s.fastSkip k.val = true) → (s.gapped k.val = true) → (lowestHeld (s.bondExp k.val) (s.heldOf k.val) = some y) → (y.seq < 2 ^ 24) → (s.mayPass k.val = false) →
      Completes (.reorderFastSkip ⟨k, e⟩) s (fun t => t.rd BOND_CNT_LOST d0 = s.rd BOND_CNT_LOST d0 + BitVec.ofNat 32 (ahead (s.bondExp k.val) y.seq) ∧ t.rd BOND_CNT_FAST d0 = s.rd BOND_CNT_FAST d0 + 1 ∧ t.bondExp k.val = y.seq ∧ t.bond.held = s.bond.held)) ∧
    (∀ (s : State) (v : Word), (s.running = true) →
      Completes (.skewArm v) s (fun t => t.get BOND_SKEW_STAT_CAPTURED d0 = 0 ∧ ∀ c < 4, bitOf (t.get BOND_SKEW_STAT_ARMED d0) c = ((s.framer c).sync == .sync))) ∧
    (∀ (s : State) (c : Chan), (s.islandRuns 0 7 = true) → (bitOf (s.get BOND_SKEW_STAT_ARMED d0) c.val = true) → (bitOf (s.get BOND_SKEW_STAT_CAPTURED d0) c.val = false) → ((s.framer c.val).sync = .sync) → ((s.framer c.val).sfc.toNat % 2 ^ 16 = s.get BOND_SKEW_CTL_SF_LO d0) →
      Completes (.skewCapture c) s (fun t => t.rd BOND_SKEW_CAP (d0i c.val) = BitVec.ofNat 32 s.clk.tc ∧ bitOf (t.get BOND_SKEW_STAT_CAPTURED d0) c.val = true)) ∧
    (∀ (s : State) (c : Chan), (s.islandRuns 0 7 = true) → (s.bondMember c.val = true) → (bitOf (s.get BOND_GROUP_STAT_RX_UP d0) c.val ≠ s.receiveUp c.val) →
      Completes (.memberRxChange c) s (fun t => bitOf (t.get BOND_GROUP_STAT_RX_UP d0) c.val = s.receiveUp c.val ∧ bitOf (t.get (if s.receiveUp c.val then BOND_EVT_RX_UP else BOND_EVT_RX_DOWN) d0) c.val = true)) ∧
    (∀ (s : State), (s.running = true) → (s.groupCause = 0) →
      Completes (.bondGroupCommit) s (fun t => t.is BOND_GROUP_STAT_REJECT d0 = false ∧ (∀ x ∈ bondGroupRegs, t.rdEff x.1 x.2 = s.rd x.1 x.2) ∧ t.is BOND_GROUP_STAT_EN_EFF d0 = s.is BOND_GROUP_CFG_EN d0 ∧ t.get BOND_GROUP_STAT_MEMBERS_EFF d0 = s.get BOND_GROUP_CFG_MEMBERS d0)) ∧
    (∀ (s : State), (s.running = true) → (s.groupCause ≠ 0) →
      Completes (.bondGroupCommit) s (fun t => t.is BOND_GROUP_STAT_REJECT d0 = true ∧ t.get BOND_GROUP_STAT_REJ_CAUSE d0 = s.groupCause ∧ t.rdEff BOND_GROUP_CFG d0 = s.rdEff BOND_GROUP_CFG d0 ∧ t.is BOND_EVT_COMMIT_REJ d0 = true)) ∧
    (∀ (s : State) (v : Word), (s.running = true) →
      Completes (.ugrpCommit v) s (fun t => t.rdEff BOND_UGRP_A (d0i (t.get BOND_UGRP_COMMIT_INDEX d0)) = s.rd BOND_UGRP_A (d0i (t.get BOND_UGRP_COMMIT_INDEX d0)) ∧ t.rdEff BOND_UGRP_B (d0i (t.get BOND_UGRP_COMMIT_INDEX d0)) = s.rd BOND_UGRP_B (d0i (t.get BOND_UGRP_COMMIT_INDEX d0))))

/-- ADD, SUB, AND, OR, XOR, SHL, SHR, SAR, MINU, MAXU, MUL and CMP, issued by a thread whose word they are and whose budget they fit, complete: rd takes the result of ra and rb (g0 stays 0; CMP has no rd), the flags are those of the result with C and V from addition and subtraction and 0 otherwise, H is kept, the program counter advances by one and one slot is used. -/
def Obligations.TileRegisterArithmeticCompletes : Prop :=
    (∀ (s : State) (x : Issue) (u : Thread) (d a b : Fin 32), (s.issues x u (Tile.encR 0 d.val a.val b.val 0) 1) →
      Completes (.add x) s (fun t => t.goesOn x (u.result d.val (Tile.addRes u.flags (u.reg a.val) (u.reg b.val))) (u.pc + 1) 1)) ∧
    (∀ (s : State) (x : Issue) (u : Thread) (d a b : Fin 32), (s.issues x u (Tile.encR 0 d.val a.val b.val 1) 1) →
      Completes (.sub x) s (fun t => t.goesOn x (u.result d.val (Tile.subRes u.flags (u.reg a.val) (u.reg b.val))) (u.pc + 1) 1)) ∧
    (∀ (s : State) (x : Issue) (u : Thread) (d a b : Fin 32), (s.issues x u (Tile.encR 0 d.val a.val b.val 2) 1) →
      Completes (.and x) s (fun t => t.goesOn x (u.result d.val (⟨u.reg a.val &&& u.reg b.val, Tile.resultFlags u.flags (u.reg a.val &&& u.reg b.val) false false⟩)) (u.pc + 1) 1)) ∧
    (∀ (s : State) (x : Issue) (u : Thread) (d a b : Fin 32), (s.issues x u (Tile.encR 0 d.val a.val b.val 3) 1) →
      Completes (.or x) s (fun t => t.goesOn x (u.result d.val (⟨u.reg a.val ||| u.reg b.val, Tile.resultFlags u.flags (u.reg a.val ||| u.reg b.val) false false⟩)) (u.pc + 1) 1)) ∧
    (∀ (s : State) (x : Issue) (u : Thread) (d a b : Fin 32), (s.issues x u (Tile.encR 0 d.val a.val b.val 4) 1) →
      Completes (.xor x) s (fun t => t.goesOn x (u.result d.val (⟨u.reg a.val ^^^ u.reg b.val, Tile.resultFlags u.flags (u.reg a.val ^^^ u.reg b.val) false false⟩)) (u.pc + 1) 1)) ∧
    (∀ (s : State) (x : Issue) (u : Thread) (d a b : Fin 32), (s.issues x u (Tile.encR 0 d.val a.val b.val 5) 1) →
      Completes (.shl x) s (fun t => t.goesOn x (u.result d.val (⟨u.reg a.val <<< ((u.reg b.val).toNat % 32), Tile.resultFlags u.flags (u.reg a.val <<< ((u.reg b.val).toNat % 32)) false false⟩)) (u.pc + 1) 1)) ∧
    (∀ (s : State) (x : Issue) (u : Thread) (d a b : Fin 32), (s.issues x u (Tile.encR 0 d.val a.val b.val 6) 1) →
      Completes (.shr x) s (fun t => t.goesOn x (u.result d.val (⟨u.reg a.val >>> ((u.reg b.val).toNat % 32), Tile.resultFlags u.flags (u.reg a.val >>> ((u.reg b.val).toNat % 32)) false false⟩)) (u.pc + 1) 1)) ∧
    (∀ (s : State) (x : Issue) (u : Thread) (d a b : Fin 32), (s.issues x u (Tile.encR 0 d.val a.val b.val 7) 1) →
      Completes (.sar x) s (fun t => t.goesOn x (u.result d.val (⟨(u.reg a.val).sshiftRight ((u.reg b.val).toNat % 32), Tile.resultFlags u.flags ((u.reg a.val).sshiftRight ((u.reg b.val).toNat % 32)) false false⟩)) (u.pc + 1) 1)) ∧
    (∀ (s : State) (x : Issue) (u : Thread) (d a b : Fin 32), (s.issues x u (Tile.encR 0 d.val a.val b.val 8) 1) →
      Completes (.minu x) s (fun t => t.goesOn x (u.result d.val (⟨BitVec.ofNat 32 (Nat.min (u.reg a.val).toNat (u.reg b.val).toNat), Tile.resultFlags u.flags (BitVec.ofNat 32 (Nat.min (u.reg a.val).toNat (u.reg b.val).toNat)) false false⟩)) (u.pc + 1) 1)) ∧
    (∀ (s : State) (x : Issue) (u : Thread) (d a b : Fin 32), (s.issues x u (Tile.encR 0 d.val a.val b.val 9) 1) →
      Completes (.maxu x) s (fun t => t.goesOn x (u.result d.val (⟨BitVec.ofNat 32 (Nat.max (u.reg a.val).toNat (u.reg b.val).toNat), Tile.resultFlags u.flags (BitVec.ofNat 32 (Nat.max (u.reg a.val).toNat (u.reg b.val).toNat)) false false⟩)) (u.pc + 1) 1)) ∧
    (∀ (s : State) (x : Issue) (u : Thread) (d a b : Fin 32), (s.issues x u (Tile.encR 0 d.val a.val b.val 11) 1) →
      Completes (.mul x) s (fun t => t.goesOn x (u.result d.val (⟨u.reg a.val * u.reg b.val, Tile.resultFlags u.flags (u.reg a.val * u.reg b.val) false false⟩)) (u.pc + 1) 1)) ∧
    (∀ (s : State) (x : Issue) (u : Thread) (a b : Fin 32), (s.issues x u (Tile.encR 0 0 a.val b.val 10) 1) →
      Completes (.cmp x) s (fun t => t.goesOn x { u with flags := (Tile.subRes u.flags (u.reg a.val) (u.reg b.val)).flags } (u.pc + 1) 1))

/-- ADDI, ANDI, ORI, XORI, CMPI, LUI, SHLI, SHRI, SARI, RORI, EXT, DEP, HASH, MFM, MTM and FLG both ways complete with the result of R308: the immediate of ADDI is sign-extended and the others zero-extended, DEP replaces exactly its field, HASH is the CRC-32C of four registers, MTM writes only the RW bits of its metadata register and accepts CUR and LEVEL, ED_END and ED_SKIP inside their bounds. -/
def Obligations.TileImmediateAndFieldOperationsComplete : Prop :=
    (∀ (s : State) (x : Issue) (u : Thread) (d a : Fin 32) (i : BitVec 16), (s.issues x u (Tile.encI 1 d.val a.val i.toNat) 1) →
      Completes (.addi x) s (fun t => t.goesOn x (u.result d.val (Tile.addRes u.flags (u.reg a.val) ((i : BitVec 16).signExtend 32))) (u.pc + 1) 1)) ∧
    (∀ (s : State) (x : Issue) (u : Thread) (d a : Fin 32) (i : BitVec 16), (s.issues x u (Tile.encI 2 d.val a.val i.toNat) 1) →
      Completes (.andi x) s (fun t => t.goesOn x (u.result d.val (Tile.logicRes u.flags (u.reg a.val &&& i.setWidth 32))) (u.pc + 1) 1)) ∧
    (∀ (s : State) (x : Issue) (u : Thread) (d a : Fin 32) (i : BitVec 16), (s.issues x u (Tile.encI 3 d.val a.val i.toNat) 1) →
      Completes (.ori x) s (fun t => t.goesOn x (u.result d.val (Tile.logicRes u.flags (u.reg a.val ||| i.setWidth 32))) (u.pc + 1) 1)) ∧
    (∀ (s : State) (x : Issue) (u : Thread) (d a : Fin 32) (i : BitVec 16), (s.issues x u (Tile.encI 4 d.val a.val i.toNat) 1) →
      Completes (.xori x) s (fun t => t.goesOn x (u.result d.val (Tile.logicRes u.flags (u.reg a.val ^^^ i.setWidth 32))) (u.pc + 1) 1)) ∧
    (∀ (s : State) (x : Issue) (u : Thread) (a : Fin 32) (i : BitVec 16), (s.issues x u (Tile.encI 5 0 a.val i.toNat) 1) →
      Completes (.cmpi x) s (fun t => t.goesOn x { u with flags := (Tile.subRes u.flags (u.reg a.val) (i.setWidth 32)).flags } (u.pc + 1) 1)) ∧
    (∀ (s : State) (x : Issue) (u : Thread) (d : Fin 32) (i : BitVec 16), (s.issues x u (Tile.encI 6 d.val 0 i.toNat) 1) →
      Completes (.lui x) s (fun t => t.goesOn x (u.result d.val (Tile.logicRes u.flags (i.setWidth 32 <<< 16))) (u.pc + 1) 1)) ∧
    (∀ (s : State) (x : Issue) (u : Thread) (d a n : Fin 32), (s.issues x u (Tile.encS d.val a.val 0 n.val) 1) →
      Completes (.shli x) s (fun t => t.goesOn x (u.result d.val (Tile.logicRes u.flags (u.reg a.val <<< n.val))) (u.pc + 1) 1)) ∧
    (∀ (s : State) (x : Issue) (u : Thread) (d a n : Fin 32), (s.issues x u (Tile.encS d.val a.val 1 n.val) 1) →
      Completes (.shri x) s (fun t => t.goesOn x (u.result d.val (Tile.logicRes u.flags (u.reg a.val >>> n.val))) (u.pc + 1) 1)) ∧
    (∀ (s : State) (x : Issue) (u : Thread) (d a n : Fin 32), (s.issues x u (Tile.encS d.val a.val 2 n.val) 1) →
      Completes (.sari x) s (fun t => t.goesOn x (u.result d.val (Tile.logicRes u.flags ((u.reg a.val).sshiftRight n.val))) (u.pc + 1) 1)) ∧
    (∀ (s : State) (x : Issue) (u : Thread) (d a n : Fin 32), (s.issues x u (Tile.encS d.val a.val 3 n.val) 1) →
      Completes (.rori x) s (fun t => t.goesOn x (u.result d.val (Tile.logicRes u.flags ((u.reg a.val).rotateRight n.val))) (u.pc + 1) 1)) ∧
    (∀ (s : State) (x : Issue) (u : Thread) (d a p l : Fin 32), (s.issues x u (Tile.encX 8 d.val a.val p.val l.val) 1) →
      Completes (.ext x) s (fun t => t.goesOn x (u.setReg d.val ((u.reg a.val >>> p.val) &&& BitVec.ofNat 32 (2 ^ (l.val + 1) - 1))) (u.pc + 1) 1)) ∧
    (∀ (s : State) (x : Issue) (u : Thread) (d a p l : Fin 32), (s.issues x u (Tile.encX 9 d.val a.val p.val l.val) 1) →
      Completes (.dep x) s (fun t => t.goesOn x (u.setReg d.val ((BitVec.ofBoolListLE ((List.range 32).map (fun i => if p.val ≤ i ∧ i ≤ p.val + l.val then (u.reg a.val).getLsbD (i - p.val) else (u.reg d.val).getLsbD i))).setWidth 32)) (u.pc + 1) 1)) ∧
    (∀ (s : State) (x : Issue) (u : Thread) (d : Fin 32) (k : Fin 8), (s.issues x u (Tile.encL 0x0A d.val (4 * k.val) 0) 1) →
      Completes (.hash x) s (fun t => t.goesOn x (u.setReg d.val (Tile.hashWords [u.reg (4 * k.val), u.reg (4 * k.val + 1), u.reg (4 * k.val + 2), u.reg (4 * k.val + 3)])) (u.pc + 1) 1)) ∧
    (∀ (s : State) (x : Issue) (u : Thread) (d : Fin 32) (m : Fin 16), (s.issues x u (Tile.encM 0x0B d.val 0 m.val 0) 1) →
      Completes (.mfm x) s (fun t => t.goesOn x (u.setReg d.val (u.mreg m.val)) (u.pc + 1) 1)) ∧
    (∀ (s : State) (x : Issue) (u : Thread) (a : Fin 32) (m : Fin 16), (s.issues x u (Tile.encM 0x0C 0 a.val m.val 0) 1) → (m.val ≠ 5) → (m.val ≠ 6) →
      Completes (.mtm x) s (fun t => t.goesOn x (u.setMreg m.val ((u.mreg m.val &&& ~~~metaMask m.val) ||| (u.reg a.val &&& metaMask m.val))) (u.pc + 1) 1)) ∧
    (∀ (s : State) (x : Issue) (u : Thread) (a : Fin 32), (s.issues x u (Tile.encM 0x0C 0 a.val 5 0) 1) → (bits (u.reg a.val) 19 16 ≤ 12) → (bits (u.reg a.val) 8 0 ≤ 256) →
      Completes (.mtm x) s (fun t => t.goesOn x (u.setMreg 5 ((u.mreg 5 &&& ~~~metaMask 5) ||| (u.reg a.val &&& metaMask 5))) (u.pc + 1) 1)) ∧
    (∀ (s : State) (x : Issue) (u : Thread) (a : Fin 32), (s.issues x u (Tile.encM 0x0C 0 a.val 6 0) 1) → (bits (u.reg a.val) 24 16 ≤ 256) → (bits (u.reg a.val) 8 0 ≤ 256) →
      Completes (.mtm x) s (fun t => t.goesOn x (u.setMreg 6 ((u.mreg 6 &&& ~~~metaMask 6) ||| (u.reg a.val &&& metaMask 6))) (u.pc + 1) 1)) ∧
    (∀ (s : State) (x : Issue) (u : Thread) (d : Fin 32), (s.issues x u (Tile.encM 0x0D d.val 0 0 0) 1) →
      Completes (.flgRead x) s (fun t => t.goesOn x (u.setReg d.val (u.flags.setWidth 32)) (u.pc + 1) 1)) ∧
    (∀ (s : State) (x : Issue) (u : Thread) (a : Fin 32), (s.issues x u (Tile.encM 0x0D 0 a.val 0 1) 1) →
      Completes (.flgWrite x) s (fun t => t.goesOn x { u with flags := (u.reg a.val).setWidth 5 } (u.pc + 1) 1))

/-- LDH, STH, MOVH, NXT, CSUM and CSI inside the 256-byte window, Bcc, JAL and JR inside the bank, and LDM and STM to a legal address of a reachable die whose memory is backed, with no uncorrectable error and no link lost, complete: loads are big-endian from the window, a store writes its bytes there, MOVH copies as through a buffer, NXT moves CUR and LEVEL, CSUM and CSI compute the one's-complement sums, a taken branch adds its signed offset, JAL saves the next address, LDM reads and STM writes the little-endian word of memory, and each uses the slots up to its response. -/
def Obligations.TileWindowMemoryAndBranchesComplete : Prop :=
    (∀ (s : State) (x : Issue) (u : Thread) (d a : Fin 32) (c : Fin 2) (z : Fin 3) (o : Fin 256), (s.issues x u (Tile.encH 0x10 d.val a.val c.val z.val o.val) 1) → ((u.reg a.val).toNat + o.val + (if c.val = 1 then u.cur else 0) + 2 ^ z.val ≤ 256) →
      Completes (.ldh x) s (fun t => t.goesOn x (u.setReg d.val (BitVec.ofNat 32 (beNat (slice u.h ((u.reg a.val).toNat + o.val + if c.val = 1 then u.cur else 0) (2 ^ z.val))))) (u.pc + 1) 1)) ∧
    (∀ (s : State) (x : Issue) (u : Thread) (d a : Fin 32) (c : Fin 2) (z : Fin 3) (o : Fin 256), (s.issues x u (Tile.encH 0x11 d.val a.val c.val z.val o.val) 1) → ((u.reg a.val).toNat + o.val + (if c.val = 1 then u.cur else 0) + 2 ^ z.val ≤ 256) →
      Completes (.sth x) s (fun t => t.goesOn x { u with h := splice u.h ((u.reg a.val).toNat + o.val + if c.val = 1 then u.cur else 0) (beBytes (2 ^ z.val) (u.reg d.val).toNat) } (u.pc + 1) 1)) ∧
    (∀ (s : State) (x : Issue) (u : Thread) (d a l : Fin 32), (s.issues x u (Tile.encX 0x12 d.val a.val 0 l.val) 2) → ((u.reg d.val).toNat + (l.val + 1) ≤ 256) → ((u.reg a.val).toNat + (l.val + 1) ≤ 256) →
      Completes (.movh x) s (fun t => t.goesOn x { u with h := splice u.h (u.reg d.val).toNat (slice u.h (u.reg a.val).toNat (l.val + 1)) } (u.pc + 1) 2)) ∧
    (∀ (s : State) (x : Issue) (u : Thread) (a : Fin 32) (k : Fin 512), (s.issues x u (Tile.encI 0x13 0 a.val k.val) 1) → (u.cur + (u.reg a.val).toNat + k.val ≤ 256) → (u.level < 12) →
      Completes (.nxt x) s (fun t => t.goesOn x (u.setMreg 5 (setBits (setBits (u.mreg 5) 8 0 (u.cur + (u.reg a.val).toNat + k.val)) 19 16 (u.level + 1))) (u.pc + 1) 1)) ∧
    (∀ (s : State) (x : Issue) (u : Thread) (d a l : Fin 32), (s.issues x u (Tile.encX 0x14 d.val a.val 0 l.val) 2) → ((u.reg a.val).toNat + (l.val + 1) ≤ 256) →
      Completes (.csum x) s (fun t => t.goesOn x { u.setReg d.val (BitVec.ofNat 32 (Tile.onesSum (bits (u.reg d.val) 15 0) (slice u.h (u.reg a.val).toNat (l.val + 1)))) with flags := Tile.mkFlags (Tile.flagH u.flags) (Tile.flagV u.flags) (Tile.flagC u.flags) (Tile.flagN u.flags) (Tile.onesSum (bits (u.reg d.val) 15 0) (slice u.h (u.reg a.val).toNat (l.val + 1)) == 0) } (u.pc + 1) 2)) ∧
    (∀ (s : State) (x : Issue) (u : Thread) (d a b : Fin 32), (s.issues x u (Tile.encR 0x15 d.val a.val b.val 0) 1) →
      Completes (.csi x) s (fun t => t.goesOn x (u.setReg d.val (BitVec.ofNat 32 (65535 - Tile.onesAdd (Tile.onesAdd (65535 - bits (u.reg d.val) 15 0) (65535 - bits (u.reg a.val) 15 0)) (bits (u.reg b.val) 15 0)))) (u.pc + 1) 1)) ∧
    (∀ (s : State) (x : Issue) (u : Thread) (c : Fin 11) (i : BitVec 16), (s.issues x u (Tile.encB c.val i.toNat) 1) → (0 ≤ (u.pc : Int) + i.toInt) → ((u.pc : Int) + i.toInt ≤ 8191) →
      Completes (.bcc x) s (fun t => t.goesOn x u (if Tile.holds c.val u.flags then ((u.pc : Int) + i.toInt).toNat else u.pc + 1) 1)) ∧
    (∀ (s : State) (x : Issue) (u : Thread) (d : Fin 32) (k : Fin 8192), (s.issues x u (Tile.encJ d.val k.val) 1) →
      Completes (.jal x) s (fun t => t.goesOn x (u.setReg d.val (BitVec.ofNat 32 (u.pc + 1))) k.val 1)) ∧
    (∀ (s : State) (x : Issue) (u : Thread) (a : Fin 32), (s.issues x u (Tile.encR 0x1A 0 a.val 0 0) 1) →
      Completes (.jr x) s (fun t => t.goesOn x u (bits (u.reg a.val) 12 0) 1)) ∧
    (∀ (s : State) (x : Issue) (u : Thread) (d a b : Fin 32) (h n k : Nat), (s.issues x u (Tile.encR 36 d.val a.val b.val 0) n) → (eccBad x.mem = false) → (x.lost = false ∨ h = 0) → (n = memSlots false x s u (Tile.encR 36 d.val a.val b.val 0)) → (k = slotsOf (s.tileResp (s.region (memAddr u (Tile.encR 36 d.val a.val b.val 0) / 2 ^ 36) (memAddr u (Tile.encR 36 d.val a.val b.val 0) % 2 ^ 36)) false h).1) → (addrIllegal (memAddr u (Tile.encR 36 d.val a.val b.val 0)) = false) → (s.route x.die.val (memAddr u (Tile.encR 36 d.val a.val b.val 0) / 2 ^ 36) = .clear h) → (s.region (memAddr u (Tile.encR 36 d.val a.val b.val 0) / 2 ^ 36) (memAddr u (Tile.encR 36 d.val a.val b.val 0) % 2 ^ 36) ≠ .unbacked) →
      Completes (.ldm x) s (fun t => t.goesOn x (u.setReg d.val (BitVec.ofNat 32 (s.load (memAddr u (Tile.encR 36 d.val a.val b.val 0)) 4))) (u.pc + 1) k ∧ t.mem = s.mem)) ∧
    (∀ (s : State) (x : Issue) (u : Thread) (d a b : Fin 32) (h n k : Nat), (s.issues x u (Tile.encR 37 d.val a.val b.val 0) n) → (eccBad x.mem = false) → (x.lost = false ∨ h = 0) → (n = memSlots true x s u (Tile.encR 37 d.val a.val b.val 0)) → (k = slotsOf (s.tileResp (s.region (memAddr u (Tile.encR 37 d.val a.val b.val 0) / 2 ^ 36) (memAddr u (Tile.encR 37 d.val a.val b.val 0) % 2 ^ 36)) true h).1) → (addrIllegal (memAddr u (Tile.encR 37 d.val a.val b.val 0)) = false) → (s.route x.die.val (memAddr u (Tile.encR 37 d.val a.val b.val 0) / 2 ^ 36) = .clear h) → (s.region (memAddr u (Tile.encR 37 d.val a.val b.val 0) / 2 ^ 36) (memAddr u (Tile.encR 37 d.val a.val b.val 0) % 2 ^ 36) ≠ .unbacked) →
      Completes (.stm x) s (fun t => t.goesOn x u (u.pc + 1) k ∧ t.mem = (s.store (memAddr u (Tile.encR 37 d.val a.val b.val 0)) 4 (u.reg d.val).toNat).mem))

/-- ENQ and MCAST of an unordered packet to a legal handle on a reachable die put the output packet in flight and end the pass, and an ENQ of an ordered one holds it to its edge; MIRROR puts a copy in flight with one more hold on the buffer and goes on, or past two only counts; RECIRC puts the output packet and the metadata of the next pass in the eddy; PUNT puts it in the spillway with its reason and program counter in m8; DROP counts its reason and ends the pass; DFLT takes the action of m10. -/
def Obligations.TilePacketFatesComplete : Prop :=
    (∀ (s : State) (x : Issue) (u : Thread) (a : Fin 32) (h : Nat), (s.issues x u (Tile.encF 0x30 a.val 0) 1) → (u.hold = none) → (u.outOk = true) → (regHandleOk (u.reg a.val) = true) → (s.route x.die.val (bits (u.reg a.val) 31 28) = .clear h) →
      Completes (.enq x) s (fun t => t.thread x.die.val x.thread.val = none ∧ t.pipe.flight = s.pipe.flight ++ [s.enqOf x u (bits (u.reg a.val) 31 28) (bits (u.reg a.val) 17 0)])) ∧
    (∀ (s : State) (x : Issue) (u : Thread) (a : Fin 32) (k : Nat), (s.issues x u (Tile.encF 0x30 a.val 0) 1) → (u.hold = some k) → (s.clk.mc < u.first + k) → (u.outOk = true) → (regHandleOk (u.reg a.val) = true) →
      Completes (.enq x) s (fun t => t.thread x.die.val x.thread.val = none ∧ t.pipe.flight = s.pipe.flight ∧ t.pipe.hold = s.pipe.hold ++ [{ s.enqOf x u (bits (u.reg a.val) 31 28) (bits (u.reg a.val) 17 0) with launch := u.first + k }])) ∧
    (∀ (s : State) (x : Issue) (u : Thread) (a : Fin 32) (h : Nat), (s.issues x u (Tile.encF 0x31 a.val 0) 1) → (u.hold = none) → (u.outOk = true) → (2 ≤ bits (u.reg a.val) 31 28) → (bits (u.reg a.val) 31 28 ≤ 5) → (bits (u.reg a.val) 27 16 = 0) → (bits (u.reg a.val) 15 0 < 16384) → (s.route x.die.val (bits (u.reg a.val) 31 28) = .clear h) →
      Completes (.mcast x) s (fun t => t.thread x.die.val x.thread.val = none ∧ t.pipe.flight = s.pipe.flight ++ [{ s.enqOf x u (bits (u.reg a.val) 31 28) (bits (u.reg a.val) 15 0) with mcast := true }])) ∧
    (∀ (s : State) (x : Issue) (u : Thread) (a : Fin 32) (h : Nat), (s.issues x u (Tile.encF 0x32 a.val 0) 2) → (u.outOk = true) → (u.mirrors < 2) → (regHandleOk (u.reg a.val) = true) → (s.route x.die.val (bits (u.reg a.val) 31 28) = .clear h) →
      Completes (.mirror x) s (fun t => t.goesOn x { u with mirrors := u.mirrors + 1 } (u.pc + 1) 2 ∧ t.pipe.flight = s.pipe.flight ++ [s.enqOf x u (bits (u.reg a.val) 31 28) (bits (u.reg a.val) 17 0)] ∧ (t.bufOf u.buf).holds = (s.bufOf u.buf).holds + 1)) ∧
    (∀ (s : State) (x : Issue) (u : Thread) (a : Fin 32), (s.issues x u (Tile.encF 0x32 a.val 0) 2) → (u.outOk = true) → (2 ≤ u.mirrors) → (regHandleOk (u.reg a.val) = true) →
      Completes (.mirror x) s (fun t => t.goesOn x u (u.pc + 1) 2 ∧ t.pipe.flight = s.pipe.flight ∧ t.rd TILE_CNT_MIRROR_LIM (onDie x.die.val) = s.rd TILE_CNT_MIRROR_LIM (onDie x.die.val) + 1)) ∧
    (∀ (s : State) (x : Issue) (u : Thread) (e : Fin 8), (s.issues x u (Tile.encF 0x33 0 e.val) 1) → (u.outOk = true) → (u.pass ≠ 2) →
      Completes (.recirc x) s (fun t => t.thread x.die.val x.thread.val = none ∧ Tab.get t.pipe.eddy [] x.die.val = Tab.get s.pipe.eddy [] x.die.val ++ [{ m := u.nextMeta, bytes := u.output, buf := u.buf, entry := e.val, src := u.src, first := u.first, hold := u.hold, entries := u.entries }])) ∧
    (∀ (s : State) (x : Issue) (u : Thread) (r : Fin 64), (s.issues x u (Tile.encF 0x34 0 r.val) 1) → (8 ≤ r.val) → (u.outOk = true) →
      Completes (.punt x) s (fun t => t.thread x.die.val x.thread.val = none ∧ t.pipe.spill = s.pipe.spill ++ [Spill.mk x.die.val r.val (u.mark r.val).packet])) ∧
    (∀ (s : State) (x : Issue) (u : Thread) (r : Fin 64), (s.issues x u (Tile.encF 0x35 0 r.val) 1) → (8 ≤ r.val) →
      Completes (.drop x) s (fun t => t.thread x.die.val x.thread.val = none ∧ t.rd TILE_DROP_CNT (place x.die.val r.val) = s.rd TILE_DROP_CNT (place x.die.val r.val) + 1 ∧ t.pipe.flight = s.pipe.flight ∧ t.pipe.spill = s.pipe.spill)) ∧
    (∀ (s : State) (x : Issue) (u : Thread) (h : Nat), (s.issues x u (Tile.encF 0x36 0 0) 1) → (u.hold = none) → (u.outOk = true) → (bits (u.mreg 10) 31 30 = 0) → (handleOk (bits (u.mreg 10) 21 18) 0 (bits (u.mreg 10) 17 0) = true) → (s.route x.die.val (bits (u.mreg 10) 21 18) = .clear h) →
      Completes (.dflt x) s (fun t => t.thread x.die.val x.thread.val = none ∧ t.pipe.flight = s.pipe.flight ++ [s.enqOf x u (bits (u.mreg 10) 21 18) (bits (u.mreg 10) 17 0)])) ∧
    (∀ (s : State) (x : Issue) (u : Thread), (s.issues x u (Tile.encF 0x36 0 0) 1) → (bits (u.mreg 10) 31 30 = 1) → (8 ≤ bits (u.mreg 10) 29 24) →
      Completes (.dflt x) s (fun t => t.thread x.die.val x.thread.val = none ∧ t.rd TILE_DROP_CNT (place x.die.val (bits (u.mreg 10) 29 24)) = s.rd TILE_DROP_CNT (place x.die.val (bits (u.mreg 10) 29 24)) + 1)) ∧
    (∀ (s : State) (x : Issue) (u : Thread), (s.issues x u (Tile.encF 0x36 0 0) 1) → (bits (u.mreg 10) 31 30 = 2) → (8 ≤ bits (u.mreg 10) 29 24) → (u.outOk = true) →
      Completes (.dflt x) s (fun t => t.thread x.die.val x.thread.val = none ∧ t.pipe.spill = s.pipe.spill ++ [Spill.mk x.die.val (bits (u.mreg 10) 29 24) (u.mark (bits (u.mreg 10) 29 24)).packet]))

/-- LKE, LKT and LKL complete in three, two and four slots: a hit gives the entry's result in the register pair and sets H, a miss gives 0 and clears H, with LKT on its table's lowest matching entry when no match-array bit has flipped and a free hit or miss with a free result when one has, and LKL on a course die only; an LKE entry with an uncorrectable error loses its generation bits, and the lookup answers without it; CNT adds one packet and ra bytes to its pair, modulo 2^40 and 2^56, and none to a disabled bank; a reserved word counts one slot and raises ILLEGAL, which sends the packet as at the start of the pass to the spillway with its reason and program counter. -/
def Obligations.TileLookupsAndCountersComplete : Prop :=
    (∀ (s : State) (x : Issue) (u : Thread) (d n : Fin 16) (k : Fin 8) (i : Nat) (e : EmEntry), (s.issues x u (Tile.encL 0x20 (2 * d.val) (4 * k.val) n.val) 3) → (eccBad x.mem = false) → (s.unitHeld x.die.val 2 = false) → (s.emLookup x.die.val n.val u.gen [u.reg (4 * k.val), u.reg (4 * k.val + 1), u.reg (4 * k.val + 2), u.reg (4 * k.val + 3)] = some (i, e)) →
      Completes (.lke x) s (fun t => t.goesOn x (u.hit (2 * d.val) ((e.data >>> 32).setWidth 32) (e.data.setWidth 32) true) (u.pc + 1) 3)) ∧
    (∀ (s : State) (x : Issue) (u : Thread) (d n : Fin 16) (k : Fin 8) (i : Nat) (e : EmEntry), (s.issues x u (Tile.encL 0x20 (2 * d.val) (4 * k.val) n.val) 3) → (eccBad x.mem = true) → (s.unitHeld x.die.val 2 = false) → (s.emLookup x.die.val n.val u.gen [u.reg (4 * k.val), u.reg (4 * k.val + 1), u.reg (4 * k.val + 2), u.reg (4 * k.val + 3)] = some (i, e)) →
      Completes (.lke x) s (fun t => t.emEntry x.die.val i = { e with g1 := false, g0 := false } ∧ t.goesOn x (match (s.setEm x.die.val i { e with g1 := false, g0 := false }).emLookup x.die.val n.val u.gen [u.reg (4 * k.val), u.reg (4 * k.val + 1), u.reg (4 * k.val + 2), u.reg (4 * k.val + 3)] with | none => u.hit (2 * d.val) 0 0 false | some e => u.hit (2 * d.val) ((e.2.data >>> 32).setWidth 32) (e.2.data.setWidth 32) true) (u.pc + 1) 3)) ∧
    (∀ (s : State) (x : Issue) (u : Thread) (d n : Fin 16) (k : Fin 8), (s.issues x u (Tile.encL 0x20 (2 * d.val) (4 * k.val) n.val) 3) → (s.unitHeld x.die.val 2 = false) → (s.emLookup x.die.val n.val u.gen [u.reg (4 * k.val), u.reg (4 * k.val + 1), u.reg (4 * k.val + 2), u.reg (4 * k.val + 3)] = none) →
      Completes (.lke x) s (fun t => t.goesOn x (u.hit (2 * d.val) 0 0 false) (u.pc + 1) 3)) ∧
    (∀ (s : State) (x : Issue) (u : Thread) (d n : Fin 16) (k : Fin 2), (s.issues x u (Tile.encL 0x21 (2 * d.val) (16 * k.val) n.val) 2) → (s.unitHeld x.die.val 2 = false) →
      Completes (.lkt x false) s (fun t => t.goesOn x (match s.tcLookup x.die.val n.val u.gen (BitVec.ofNat 512 (beNat (((List.range 16).map (fun i => beBytes 4 (u.reg (16 * k.val + i)).toNat)).flatten))) with | none => u.hit (2 * d.val) 0 0 false | some e => u.hit (2 * d.val) ((e.2.data >>> 32).setWidth 32) (e.2.data.setWidth 32) true) (u.pc + 1) 2)) ∧
    (∀ (s : State) (x : Issue) (u : Thread) (d n : Fin 16) (k : Fin 2), (s.issues x u (Tile.encL 0x21 (2 * d.val) (16 * k.val) n.val) 2) → (s.unitHeld x.die.val 2 = false) →
      Completes (.lkt x true) s (fun t => t.goesOn x (u.hit (2 * d.val) (if Config.freeHit s.fresh then (Config.freeAction s.fresh >>> 32).setWidth 32 else 0) (if Config.freeHit s.fresh then (Config.freeAction s.fresh).setWidth 32 else 0) (Config.freeHit s.fresh)) (u.pc + 1) 2)) ∧
    (∀ (s : State) (x : Issue) (u : Thread) (d n : Fin 16) (k : Fin 8) (v6 : Bool), (s.issues x u (Tile.encL 0x22 (2 * d.val) (4 * k.val) n.val) 4) → (eccBad x.mem = false) → (s.unitHeld x.die.val 2 = false) → (2 ≤ x.die.val) → (v6 = (bits (s.rdEff LKP_LPM_TBL (place x.die.val n.val)) 30 30 == 1)) →
      Completes (.lkl x) s (fun t => t.goesOn x (match s.lpmLookup x.die.val n.val u.gen (lpmKey u v6 (4 * k.val)) with | none => u.hit (2 * d.val) 0 0 false | some e => u.hit (2 * d.val) (if u.gen then e.res1 else e.res0) (BitVec.ofNat 32 e.len) true) (u.pc + 1) 4)) ∧
    (∀ (s : State) (x : Issue) (u : Thread) (a b : Fin 32) (n : Fin 16) (i : Nat), (s.issues x u (Tile.encC 0x23 a.val b.val n.val) 1) → (eccBad x.mem = false) → (s.unitHeld x.die.val 2 = false) → (bits (s.rdEff LKP_CNT_BANK (place x.die.val n.val)) 31 31 = 1) → (i = bits (s.rdEff LKP_CNT_BANK (place x.die.val n.val)) 17 0 + (u.reg b.val).toNat % 2 ^ bits (s.rdEff LKP_CNT_BANK (place x.die.val n.val)) 22 18) →
      Completes (.cnt x) s (fun t => t.goesOn x u (u.pc + 1) 1 ∧ t.pair x.die.val i = (((s.pair x.die.val i).1 + 1) % 2 ^ 40, ((s.pair x.die.val i).2 + bits (u.reg a.val) 15 0) % 2 ^ 56))) ∧
    (∀ (s : State) (x : Issue) (u : Thread) (a b : Fin 32) (n : Fin 16), (s.issues x u (Tile.encC 0x23 a.val b.val n.val) 1) → (bits (s.rdEff LKP_CNT_BANK (place x.die.val n.val)) 31 31 = 0) →
      Completes (.cnt x) s (fun t => t.goesOn x u (u.pc + 1) 1 ∧ t.pipe.pairs = s.pipe.pairs)) ∧
    (∀ (s : State) (x : Issue) (u : Thread) (w : Word), (s.issues x u w 1) → (Tile.reserved w = true) →
      Completes (.reservedWordIssue x) s (fun t => t.thread x.die.val x.thread.val = none ∧ t.rd TILE_EXC_CNT (place x.die.val 3) = s.rd TILE_EXC_CNT (place x.die.val 3) + 1 ∧ t.pipe.spill = s.pipe.spill ++ [Spill.mk x.die.val 3 { buf := u.buf, bytes := u.bytes, m := (u.mark 3).m }]))

/-- ADD that does not fit the budget raises OVERRUN (class 1), LDH beyond the 256 bytes of the window DEPTH (class 2), ENQ of an illegal queue handle ILLEGAL (class 3), RECIRC in the last pass EDDY (class 4), and LDM from an absent or fenced die MEMERR (class 5), whose router also reports the refused access. In each case the class is counted in TILE.EXC_CNT, the thread is free, the packet as at the start of the pass stands last in the spillway with the metadata as it stood but for the class as REASON and the address of the instruction as PC, and no packet in flight, no packet of the eddy and no memory changes. -/
def Obligations.TileExceptionsEndThePass : Prop :=
    (∀ (s : State) (x : Issue) (u : Thread), (s.unitRuns x.die.val 1 = true) → (s.thread x.die.val x.thread.val = some u) → (eccBad x.fetch = false) → (isFn 0 (s.imemAt x.die.val (x.thread.val / 8) u.bank u.pc) = true) → (u.budget < u.used + 1) →
      Completes (.add x) s (fun t => t.thread x.die.val x.thread.val = none ∧ t.rd TILE_EXC_CNT (place x.die.val 1) = s.rd TILE_EXC_CNT (place x.die.val 1) + 1 ∧ t.pipe.spill = s.pipe.spill ++ [Spill.mk x.die.val 1 { buf := u.buf, bytes := u.bytes, m := (u.mark 1).m }] ∧ t.pipe.flight = s.pipe.flight ∧ t.pipe.eddy = s.pipe.eddy ∧ t.mem = s.mem)) ∧
    (∀ (s : State) (x : Issue) (u : Thread) (d a : Fin 32) (z : Fin 3) (o : Fin 256), (s.issues x u (Tile.encH 0x10 d.val a.val 0 z.val o.val) 1) → (256 < (u.reg a.val).toNat + o.val + 2 ^ z.val) →
      Completes (.ldh x) s (fun t => t.thread x.die.val x.thread.val = none ∧ t.rd TILE_EXC_CNT (place x.die.val 2) = s.rd TILE_EXC_CNT (place x.die.val 2) + 1 ∧ t.pipe.spill = s.pipe.spill ++ [Spill.mk x.die.val 2 { buf := u.buf, bytes := u.bytes, m := (u.mark 2).m }] ∧ t.pipe.flight = s.pipe.flight ∧ t.pipe.eddy = s.pipe.eddy ∧ t.mem = s.mem)) ∧
    (∀ (s : State) (x : Issue) (u : Thread) (a : Fin 32), (s.issues x u (Tile.encF 0x30 a.val 0) 1) → (regHandleOk (u.reg a.val) = false) →
      Completes (.enq x) s (fun t => t.thread x.die.val x.thread.val = none ∧ t.rd TILE_EXC_CNT (place x.die.val 3) = s.rd TILE_EXC_CNT (place x.die.val 3) + 1 ∧ t.pipe.spill = s.pipe.spill ++ [Spill.mk x.die.val 3 { buf := u.buf, bytes := u.bytes, m := (u.mark 3).m }] ∧ t.pipe.flight = s.pipe.flight ∧ t.pipe.eddy = s.pipe.eddy ∧ t.mem = s.mem)) ∧
    (∀ (s : State) (x : Issue) (u : Thread) (e : Fin 8), (s.issues x u (Tile.encF 0x33 0 e.val) 1) → (u.outOk = true) → (u.pass = 2) →
      Completes (.recirc x) s (fun t => t.thread x.die.val x.thread.val = none ∧ t.rd TILE_EXC_CNT (place x.die.val 4) = s.rd TILE_EXC_CNT (place x.die.val 4) + 1 ∧ t.pipe.spill = s.pipe.spill ++ [Spill.mk x.die.val 4 { buf := u.buf, bytes := u.bytes, m := (u.mark 4).m }] ∧ t.pipe.flight = s.pipe.flight ∧ t.pipe.eddy = s.pipe.eddy ∧ t.mem = s.mem)) ∧
    (∀ (s : State) (x : Issue) (u : Thread) (d a b : Fin 32) (n : Nat), (s.issues x u (Tile.encR 0x24 d.val a.val b.val 0) n) → (eccBad x.fetch = false) → (n = memSlots false x s u (Tile.encR 0x24 d.val a.val b.val 0)) → (addrIllegal (memAddr u (Tile.encR 0x24 d.val a.val b.val 0)) = false) → (s.route x.die.val (memAddr u (Tile.encR 0x24 d.val a.val b.val 0) / 2 ^ 36) = .absent) →
      Completes (.ldm x) s (fun t => t.thread x.die.val x.thread.val = none ∧ t.rd TILE_EXC_CNT (place x.die.val 5) = s.rd TILE_EXC_CNT (place x.die.val 5) + 1 ∧ t.pipe.spill = s.pipe.spill ++ [Spill.mk x.die.val 5 { buf := u.buf, bytes := u.bytes, m := (u.mark 5).m }] ∧ t.pipe.flight = s.pipe.flight ∧ t.pipe.eddy = s.pipe.eddy ∧ t.mem = s.mem ∧ t.mesh.reports = s.mesh.reports ++ [⟨x.die.val, 2, false, BitVec.ofNat 40 (memAddr u (Tile.encR 0x24 d.val a.val b.val 0))⟩]))

/-- EM_ENTRY_WRITE and TC_ENTRY_WRITE on a free engine, for an index that it has, take the staged entry, whole, for that index and set BUSY, and no entry changes yet; with BUSY 1 they set REJ and no entry and no command changes. LKP_ENTRY_WRITE_DONE puts the whole entry in place and clears BUSY. EM_ENTRY_READ and TC_ENTRY_READ on a free engine, the former finding no uncorrectable error, show the addressed entry in the staging registers. COUNTER_READ, finding no uncorrectable error, shows the pair in four registers, and with CLR zeroes it on the same edge. -/
def Obligations.ExactMatchAndTernaryEntriesComplete : Prop :=
    (∀ (s : State) (d : LcDie) (v : Word), (s.running = true) → (s.is LKP_WR_STAT_EM_BUSY (onDie d.val) = false) → (bits v 18 0 < emBuckets d.val * 4) →
      Completes (.emEntryWrite d v) s (fun t => Tab.get t.pipe.emBusy none d.val = some (bits v 18 0, s.emStaged d.val) ∧ t.is LKP_WR_STAT_EM_BUSY (onDie d.val) = true ∧ t.pipe.em = s.pipe.em)) ∧
    (∀ (s : State) (d : LcDie) (v : Word), (s.running = true) → (s.is LKP_WR_STAT_EM_BUSY (onDie d.val) = true) →
      Completes (.emEntryWrite d v) s (fun t => t.is LKP_WR_STAT_REJ (onDie d.val) = true ∧ t.pipe = s.pipe)) ∧
    (∀ (s : State) (d : LcDie) (v : Word), (s.running = true) → (s.is LKP_WR_STAT_TC_BUSY (onDie d.val) = false) → (bits v 13 0 < tcEntries d.val) →
      Completes (.tcEntryWrite d v) s (fun t => Tab.get t.pipe.tcBusy none d.val = some (bits v 13 0, s.tcStaged d.val) ∧ t.is LKP_WR_STAT_TC_BUSY (onDie d.val) = true ∧ t.pipe.tc = s.pipe.tc)) ∧
    (∀ (s : State) (d : LcDie) (v : Word), (s.running = true) → (s.is LKP_WR_STAT_TC_BUSY (onDie d.val) = true) →
      Completes (.tcEntryWrite d v) s (fun t => t.is LKP_WR_STAT_REJ (onDie d.val) = true ∧ t.pipe = s.pipe)) ∧
    (∀ (s : State) (d : LcDie) (i : Nat) (e : EmEntry), (s.unitRuns d.val 2 = true) → (Tab.get s.pipe.emBusy none d.val = some (i, e)) →
      Completes (.lkpEntryWriteDone d false) s (fun t => t.emEntry d.val i = e ∧ t.is LKP_WR_STAT_EM_BUSY (onDie d.val) = false ∧ Tab.get t.pipe.emBusy none d.val = none)) ∧
    (∀ (s : State) (d : LcDie) (i : Nat) (e : TcEntry), (s.unitRuns d.val 2 = true) → (Tab.get s.pipe.tcBusy none d.val = some (i, e)) →
      Completes (.lkpEntryWriteDone d true) s (fun t => Tab.get t.pipe.tc {} (d.val * 2 ^ 14 + i) = e ∧ t.is LKP_WR_STAT_TC_BUSY (onDie d.val) = false ∧ Tab.get t.pipe.tcBusy none d.val = none)) ∧
    (∀ (s : State) (d : LcDie) (v : Word) (e0 : Ecc) (e : EmEntry), (s.running = true) → (eccBad e0 = false) → (s.is LKP_WR_STAT_EM_BUSY (onDie d.val) = false) → (e = s.emEntry d.val (bits v 18 0)) → (e.tbl < 16) →
      Completes (.emEntryRead ⟨d, e0⟩ v) s (fun t => (∀ i < 4, t.rd LKP_EM_STAGE (place d.val i) = (e.key >>> (32 * (3 - i))).setWidth 32) ∧ (∀ i < 2, t.rd LKP_EM_STAGE (place d.val (4 + i)) = (e.data >>> (32 * (1 - i))).setWidth 32) ∧ t.emStaged d.val = e)) ∧
    (∀ (s : State) (d : LcDie) (v : Word) (e : TcEntry), (s.running = true) → (s.is LKP_WR_STAT_TC_BUSY (onDie d.val) = false) → (e = Tab.get s.pipe.tc {} (d.val * 2 ^ 14 + bits v 13 0)) →
      Completes (.tcEntryRead d v) s (fun t => t.tcStaged d.val = e)) ∧
    (∀ (s : State) (d : LcDie) (v : Word) (e0 : Ecc), (s.running = true) → (eccBad e0 = false) →
      Completes (.counterRead ⟨d, e0⟩ v) s (fun t => t.get LKP_CNT_PKT_LO_V (onDie d.val) = (s.pair d.val (bits v 17 0)).1 % 2 ^ 32 ∧ t.get LKP_CNT_BYTE_LO_V (onDie d.val) = (s.pair d.val (bits v 17 0)).2 % 2 ^ 32 ∧ ((s.pair d.val (bits v 17 0)).1 < 2 ^ 40 → t.get LKP_CNT_PKT_HI_V (onDie d.val) = (s.pair d.val (bits v 17 0)).1 / 2 ^ 32) ∧ ((s.pair d.val (bits v 17 0)).2 < 2 ^ 56 → t.get LKP_CNT_BYTE_HI_V (onDie d.val) = (s.pair d.val (bits v 17 0)).2 / 2 ^ 32) ∧ t.pair d.val (bits v 17 0) = (if bits v 30 30 = 1 then (0, 0) else s.pair d.val (bits v 17 0))))

/-- LPM_SET, LPM_CLEAR and LPM_READ, the last finding no uncorrectable error, on a free engine take their table, generation, length and result, set BUSY and change no entry yet; with BUSY 1 they answer STATUS 3 and start no command. LPM_COMMAND_DONE of a set puts a new entry last in the engine, where it has room, or rewrites the result of the entry that it names; of a clear makes one generation of an entry that is valid in both not valid; of a read shows the entry, valid in that generation, in its registers, each with STATUS 0; and a clear or a read that names no entry ends with STATUS 2. TBL_COMMIT puts every shadow descriptor in effect where each lies in its engine, and else sets REJ and puts none in effect. GEN_SWITCH_NOW and GEN_SWITCH_ARM to another generation than the active one, with DRAINED 1 and none armed, apply NEXT, or arm it with GEN_AT and NEXT in effect; GEN_SWITCH_NOW to the active one sets REJ. GEN_SWITCH_ARMED on the edge GEN_AT applies the generation armed. GEN_DRAINED, once no packet holds the inactive generation, sets DRAINED and its event. -/
def Obligations.LongestPrefixAndGenerationsComplete : Prop :=
    (∀ (s : State) (d : CourseDie) (v : Word), (s.running = true) → (s.is LKP_LPM_CTL_BUSY (onDie (courseIdx d)) = false) →
      Completes (.lpmSet d v) s (fun t => ∃ c, Tab.get t.pipe.lpmBusy none (courseIdx d) = some c ∧ c.op = 0 ∧ c.tbl = bits v 19 16 ∧ c.len = bits v 7 0 ∧ c.gen = (bits v 25 25 == 1) ∧ c.res = s.rd LKP_LPM_RES (onDie (courseIdx d)) ∧ t.is LKP_LPM_CTL_BUSY (onDie (courseIdx d)) = true ∧ t.pipe.lpm = s.pipe.lpm)) ∧
    (∀ (s : State) (d : CourseDie) (v : Word), (s.running = true) → (s.is LKP_LPM_CTL_BUSY (onDie (courseIdx d)) = false) →
      Completes (.lpmClear d v) s (fun t => ∃ c, Tab.get t.pipe.lpmBusy none (courseIdx d) = some c ∧ c.op = 1 ∧ c.tbl = bits v 19 16 ∧ c.len = bits v 7 0 ∧ c.gen = (bits v 25 25 == 1) ∧ c.res = s.rd LKP_LPM_RES (onDie (courseIdx d)) ∧ t.is LKP_LPM_CTL_BUSY (onDie (courseIdx d)) = true ∧ t.pipe.lpm = s.pipe.lpm)) ∧
    (∀ (s : State) (d : CourseDie) (v : Word) (e : Ecc), (s.running = true) → (eccBad e = false) → (s.is LKP_LPM_CTL_BUSY (onDie (courseIdx d)) = false) →
      Completes (.lpmRead ⟨d, e⟩ v) s (fun t => ∃ c, Tab.get t.pipe.lpmBusy none (courseIdx d) = some c ∧ c.op = 2 ∧ c.tbl = bits v 19 16 ∧ c.len = bits v 7 0 ∧ c.gen = (bits v 25 25 == 1) ∧ c.res = s.rd LKP_LPM_RES (onDie (courseIdx d)) ∧ t.is LKP_LPM_CTL_BUSY (onDie (courseIdx d)) = true ∧ t.pipe.lpm = s.pipe.lpm)) ∧
    (∀ (s : State) (d : CourseDie) (v : Word), (s.running = true) → (s.is LKP_LPM_CTL_BUSY (onDie (courseIdx d)) = true) →
      Completes (.lpmSet d v) s (fun t => t.get LKP_LPM_CTL_STATUS (onDie (courseIdx d)) = 3 ∧ t.pipe = s.pipe)) ∧
    (∀ (s : State) (d : CourseDie) (v : Word), (s.running = true) → (s.is LKP_LPM_CTL_BUSY (onDie (courseIdx d)) = true) →
      Completes (.lpmClear d v) s (fun t => t.get LKP_LPM_CTL_STATUS (onDie (courseIdx d)) = 3 ∧ t.pipe = s.pipe)) ∧
    (∀ (s : State) (d : CourseDie) (v : Word) (e : Ecc), (s.running = true) → (s.is LKP_LPM_CTL_BUSY (onDie (courseIdx d)) = true) →
      Completes (.lpmRead ⟨d, e⟩ v) s (fun t => t.get LKP_LPM_CTL_STATUS (onDie (courseIdx d)) = 3 ∧ t.pipe = s.pipe)) ∧
    (∀ (s : State) (d : CourseDie) (c : LpmCmd), (s.unitRuns (courseIdx d) 2 = true) → (Tab.get s.pipe.lpmBusy none (courseIdx d) = some c) → (c.op = 0) → ((s.lpmList (courseIdx d)).find? c.names = none) → (((s.lpmList (courseIdx d)).filter (fun e => e.v6 == c.v6)).length < if c.v6 then 65536 else 262144) →
      Completes (.lpmCommandDone d) s (fun t => ∃ e ∈ t.lpmList (courseIdx d), t.lpmList (courseIdx d) = s.lpmList (courseIdx d) ++ [e] ∧ c.names e = true ∧ (if c.gen then e.v1 = true ∧ e.v0 = false ∧ e.res1 = c.res else e.v0 = true ∧ e.v1 = false ∧ e.res0 = c.res) ∧ t.get LKP_LPM_CTL_STATUS (onDie (courseIdx d)) = 0 ∧ t.is LKP_LPM_CTL_BUSY (onDie (courseIdx d)) = false)) ∧
    (∀ (s : State) (d : CourseDie) (c : LpmCmd) (e : LpmEntry), (s.unitRuns (courseIdx d) 2 = true) → (Tab.get s.pipe.lpmBusy none (courseIdx d) = some c) → (c.op = 0) → ((s.lpmList (courseIdx d)).find? c.names = some e) →
      Completes (.lpmCommandDone d) s (fun t => t.lpmList (courseIdx d) = (s.lpmList (courseIdx d)).map (fun x => if c.names x then (if c.gen then { e with res1 := c.res, v1 := true } else { e with res0 := c.res, v0 := true }) else x) ∧ t.get LKP_LPM_CTL_STATUS (onDie (courseIdx d)) = 0 ∧ t.is LKP_LPM_CTL_BUSY (onDie (courseIdx d)) = false)) ∧
    (∀ (s : State) (d : CourseDie) (c : LpmCmd), (s.unitRuns (courseIdx d) 2 = true) → (Tab.get s.pipe.lpmBusy none (courseIdx d) = some c) → (c.op ≠ 0) → ((s.lpmList (courseIdx d)).find? c.names = none) →
      Completes (.lpmCommandDone d) s (fun t => t.lpmList (courseIdx d) = s.lpmList (courseIdx d) ∧ t.get LKP_LPM_CTL_STATUS (onDie (courseIdx d)) = 2 ∧ t.is LKP_LPM_CTL_BUSY (onDie (courseIdx d)) = false)) ∧
    (∀ (s : State) (d : CourseDie) (c : LpmCmd) (e : LpmEntry), (s.unitRuns (courseIdx d) 2 = true) → (Tab.get s.pipe.lpmBusy none (courseIdx d) = some c) → (c.op = 1) → ((s.lpmList (courseIdx d)).find? c.names = some e) → (e.v0 = true) → (e.v1 = true) →
      Completes (.lpmCommandDone d) s (fun t => t.lpmList (courseIdx d) = (s.lpmList (courseIdx d)).map (fun x => if c.names x then (if c.gen then { e with v1 := false } else { e with v0 := false }) else x) ∧ t.get LKP_LPM_CTL_STATUS (onDie (courseIdx d)) = 0)) ∧
    (∀ (s : State) (d : CourseDie) (c : LpmCmd) (e : LpmEntry), (s.unitRuns (courseIdx d) 2 = true) → (Tab.get s.pipe.lpmBusy none (courseIdx d) = some c) → (c.op = 2) → ((s.lpmList (courseIdx d)).find? c.names = some e) → ((if c.gen then e.v1 else e.v0) = true) →
      Completes (.lpmCommandDone d) s (fun t => t.lpmList (courseIdx d) = s.lpmList (courseIdx d) ∧ t.rd LKP_LPM_RES (onDie (courseIdx d)) = (if c.gen then e.res1 else e.res0) ∧ (∀ i < 4, t.rd LKP_LPM_PFX (place (courseIdx d) i) = (e.pfx >>> (32 * (3 - i))).setWidth 32) ∧ t.get LKP_LPM_CTL_STATUS (onDie (courseIdx d)) = 0)) ∧
    (∀ (s : State) (d : LcDie), (s.running = true) → (s.tblOk d.val = true) →
      Completes (.tblCommit d) s (fun t => ∀ i < 16, t.rdEff LKP_EM_TBL (place d.val i) = s.rd LKP_EM_TBL (place d.val i) ∧ t.rdEff LKP_TC_TBL (place d.val i) = s.rd LKP_TC_TBL (place d.val i) ∧ t.rdEff LKP_LPM_TBL (place d.val i) = s.rd LKP_LPM_TBL (place d.val i) ∧ t.rdEff LKP_CNT_BANK (place d.val i) = s.rd LKP_CNT_BANK (place d.val i))) ∧
    (∀ (s : State) (d : LcDie), (s.running = true) → (s.tblOk d.val = false) →
      Completes (.tblCommit d) s (fun t => t.is LKP_TBL_STAT_REJ (onDie d.val) = true ∧ t.eff = s.eff)) ∧
    (∀ (s : State) (d : LcDie) (v : Word), (s.running = true) → (bits v 0 0 ≠ s.get LKP_GEN_STAT_ACTIVE (onDie d.val)) → (s.is LKP_GEN_STAT_DRAINED (onDie d.val) = true) → (s.is LKP_GEN_STAT_ARMED (onDie d.val) = false) →
      Completes (.genSwitchNow d v) s (fun t => t.get LKP_GEN_STAT_ACTIVE (onDie d.val) = bits v 0 0 ∧ t.is LKP_GEN_STAT_ARMED (onDie d.val) = false)) ∧
    (∀ (s : State) (d : LcDie) (v : Word) (k : Nat), (s.running = true) → (bits v 0 0 ≠ s.get LKP_GEN_STAT_ACTIVE (onDie d.val)) → (s.is LKP_GEN_STAT_DRAINED (onDie d.val) = true) → (s.is LKP_GEN_STAT_ARMED (onDie d.val) = false) → (s.rd LKP_GEN_AT (onDie d.val) = BitVec.ofNat 32 (s.clk.mc + k)) → (1 ≤ k) → (k < 2 ^ 31) →
      Completes (.genSwitchArm d v) s (fun t => t.is LKP_GEN_STAT_ARMED (onDie d.val) = true ∧ t.get LKP_GEN_STAT_ACTIVE (onDie d.val) = s.get LKP_GEN_STAT_ACTIVE (onDie d.val) ∧ t.rdEff LKP_GEN_AT (onDie d.val) = s.rd LKP_GEN_AT (onDie d.val) ∧ t.getEff LKP_GEN_CTL_NEXT (onDie d.val) = bits v 0 0)) ∧
    (∀ (s : State) (d : LcDie) (v : Word), (s.running = true) → (bits v 0 0 = s.get LKP_GEN_STAT_ACTIVE (onDie d.val)) →
      Completes (.genSwitchNow d v) s (fun t => t.is LKP_GEN_STAT_REJ (onDie d.val) = true ∧ t.get LKP_GEN_STAT_ACTIVE (onDie d.val) = s.get LKP_GEN_STAT_ACTIVE (onDie d.val))) ∧
    (∀ (s : State) (d : LcDie), (s.unitRuns d.val 2 = true) → (s.is LKP_GEN_STAT_ARMED (onDie d.val) = true) → (s.rdEff LKP_GEN_AT (onDie d.val) = BitVec.ofNat 32 s.clk.mc) →
      Completes (.genSwitchArmed d) s (fun t => t.get LKP_GEN_STAT_ACTIVE (onDie d.val) = s.getEff LKP_GEN_CTL_NEXT (onDie d.val) ∧ t.is LKP_GEN_STAT_ARMED (onDie d.val) = false)) ∧
    (∀ (s : State) (d : LcDie), (s.unitRuns d.val 2 = true) → (s.is LKP_GEN_STAT_DRAINED (onDie d.val) = false) → (s.genRefs d.val (!s.activeGen d.val) = 0) →
      Completes (.genDrained d) s (fun t => t.is LKP_GEN_STAT_DRAINED (onDie d.val) = true ∧ t.is LKP_GEN_STAT_DRAIN_EVT (onDie d.val) = true))

/-- A frame that reaches an enabled source with room joins its FIFO; where the source is off or the FIFO holds 32, it is counted, in CNT_DIS or CNT_FULL, and its buffer is released. On a read without an uncorrectable error, DISPATCH gives the eddy's oldest packet, or else the head packet of the source next in rotation while RUN is 1, to the thread chosen by the rotation, and ORDER_HOLD_LAUNCH launches the held command of the die of the earliest launch edge once that edge has come, and none before; DISP_RUN writes DISP.CFG; TILE_COMMIT puts TILE.CFG and the entries in effect. A word written to the inactive bank, which no packet uses while no check runs, goes there, and is refused with REJ otherwise; a check takes the CRC of the first LEN words in tile 0 and whether that of another tile differs, and is refused with REJ while one runs; its end shows both with DONE. -/
def Obligations.DispatchAndImagesComplete : Prop :=
    (∀ (s : State) (d : LcDie) (k : Fin 32) (p : SrcPkt) (l : List SrcPkt), (s.islandRuns d.val 0 = true) → (2 ≤ d.val) → (Tab.get s.pipe.coming [] (srcKey d.val k.val) = p :: l) → (s.is DISP_SRC_CFG_EN (place d.val k.val) = true) → ((Tab.get s.pipe.fifo [] (srcKey d.val k.val)).length < 32) →
      Completes (.dispatchSourceArrival d k) s (fun t => Tab.get t.pipe.fifo [] (srcKey d.val k.val) = Tab.get s.pipe.fifo [] (srcKey d.val k.val) ++ [p] ∧ Tab.get t.pipe.coming [] (srcKey d.val k.val) = l)) ∧
    (∀ (s : State) (d : LcDie) (k : Fin 32) (p : SrcPkt) (l : List SrcPkt), (s.islandRuns d.val 0 = true) → (Tab.get s.pipe.coming [] (srcKey d.val k.val) = p :: l) → (s.is DISP_SRC_CFG_EN (place d.val k.val) = false) → (2 ≤ d.val) → (0 < p.buf) →
      Completes (.dispatchSourceArrival d k) s (fun t => t.rd DISP_CNT_DIS (place d.val k.val) = s.rd DISP_CNT_DIS (place d.val k.val) + 1 ∧ t.pipe.fifo = s.pipe.fifo ∧ (t.bufOf p.buf).holds = (s.bufOf p.buf).holds - 1)) ∧
    (∀ (s : State) (d : LcDie) (k : Fin 32) (p : SrcPkt) (l : List SrcPkt), (s.islandRuns d.val 0 = true) → (Tab.get s.pipe.coming [] (srcKey d.val k.val) = p :: l) → (s.is DISP_SRC_CFG_EN (place d.val k.val) = true) → (32 ≤ (Tab.get s.pipe.fifo [] (srcKey d.val k.val)).length) → (2 ≤ d.val) → (0 < p.buf) →
      Completes (.dispatchSourceArrival d k) s (fun t => t.rd DISP_CNT_FULL (place d.val k.val) = s.rd DISP_CNT_FULL (place d.val k.val) + 1 ∧ t.pipe.fifo = s.pipe.fifo ∧ (t.bufOf p.buf).holds = (s.bufOf p.buf).holds - 1)) ∧
    (∀ (s : State) (d : LcDie) (x : Ecc) (i : Nat) (k : Nat) (e : EddyPkt) (l : List EddyPkt), (s.unitRuns d.val 0 = true) → (eccBad x = false) → (s.pickThread d.val = some (i, k)) → (Tab.get s.pipe.eddy [] d.val = e :: l) →
      Completes (.dispatch ⟨d, x⟩) s (fun t => t.thread d.val k = some (s.startThread d.val (listSet e.m 10 (s.rd DISP_DEFAULT (place d.val e.src))) e.bytes e.buf e.entry e.src e.first e.hold e.entries) ∧ Tab.get t.pipe.eddy [] d.val = l ∧ t.pipe.fifo = s.pipe.fifo)) ∧
    (∀ (s : State) (d : LcDie) (x : Ecc) (i : Nat) (k src : Nat) (p : SrcPkt) (q : Option Nat), (s.unitRuns d.val 0 = true) → (eccBad x = false) → (s.pickThread d.val = some (i, k)) → (Tab.get s.pipe.eddy [] d.val = []) → (s.is DISP_CFG_RUN (onDie d.val) = true) → (s.pickSource d.val = some (src, p)) → (q = if s.is DISP_SRC_CFG_ORDER (place d.val src) then some (s.get DISP_CFG_ORDER_HOLD (onDie d.val)) else none) →
      Completes (.dispatch ⟨d, x⟩) s (fun t => t.thread d.val k = some (s.startThread d.val (s.firstMeta d.val src p) p.bytes p.buf p.kind src s.clk.mc q (s.entries d.val)) ∧ Tab.get t.pipe.fifo [] (srcKey d.val src) = (Tab.get s.pipe.fifo [] (srcKey d.val src)).tail)) ∧
    (∀ (s : State) (d : LcDie) (v : Word), (s.running = true) →
      Completes (.dispRun d v) s (fun t => t.is DISP_CFG_RUN (onDie d.val) = v.getLsbD 31 ∧ t.get DISP_CFG_ORDER_HOLD (onDie d.val) = bits v 12 0)) ∧
    (∀ (s : State) (d : LcDie) (e : Ecc) (f : Fwd) (h : Nat), (s.unitRuns d.val 0 = true) → (eccBad e = false) → (firstLaunch (s.pipe.hold.filter (fun f => f.from_ == d.val)) = some f) → (f.launch ≤ s.clk.mc) → (s.route f.from_ f.die = .clear h) →
      Completes (.orderHoldLaunch ⟨d, e⟩) s (fun t => t.pipe.flight = s.pipe.flight ++ [f] ∧ t.pipe.hold = s.pipe.hold.erase f)) ∧
    (∀ (s : State) (d : LcDie) (e : Ecc) (f : Fwd), (s.unitRuns d.val 0 = true) → (firstLaunch (s.pipe.hold.filter (fun f => f.from_ == d.val)) = some f) → (s.clk.mc < f.launch) →
      Completes (.orderHoldLaunch ⟨d, e⟩) s (fun t => t.pipe = s.pipe)) ∧
    (∀ (s : State) (d : LcDie), (s.running = true) →
      Completes (.tileCommit d) s (fun t => t.rdEff TILE_CFG (onDie d.val) = s.rd TILE_CFG (onDie d.val) ∧ (∀ k < 8, t.rdEff TILE_ENTRY (place d.val k) = s.rd TILE_ENTRY (place d.val k)) ∧ t.get TILE_BANK_STAT_ACTIVE (onDie d.val) = s.get TILE_CFG_BANK (onDie d.val))) ∧
    (∀ (s : State) (d : LcDie) (v : Word), (s.running = true) → (s.bankRefs d.val (s.inactiveBank d.val) = 0) → (s.is TILE_IMEM_STAT_CHK_BUSY (onDie d.val) = false) →
      Completes (.imemDataWrite d v) s (fun t => t.imemStored d.val (s.inactiveBank d.val) (s.get TILE_IMEM_ADDR_ADDR (onDie d.val)) = some v ∧ t.get TILE_IMEM_ADDR_ADDR (onDie d.val) = (s.get TILE_IMEM_ADDR_ADDR (onDie d.val) + if s.is TILE_IMEM_ADDR_INC (onDie d.val) then 1 else 0) % 8192)) ∧
    (∀ (s : State) (d : LcDie) (v : Word), (s.running = true) → (0 < s.bankRefs d.val (s.inactiveBank d.val) ∨ s.is TILE_IMEM_STAT_CHK_BUSY (onDie d.val) = true) →
      Completes (.imemDataWrite d v) s (fun t => t.is TILE_IMEM_STAT_REJ (onDie d.val) = true ∧ t.pipe = s.pipe)) ∧
    (∀ (s : State) (d : LcDie) (v : Word) (n : Nat), (s.running = true) → (s.is TILE_IMEM_STAT_CHK_BUSY (onDie d.val) = false) → (n = bits v 13 0) → (1 ≤ n) → (n ≤ 8192) →
      Completes (.imemCheck d v) s (fun t => t.is TILE_IMEM_STAT_CHK_BUSY (onDie d.val) = true ∧ Tab.get t.pipe.check none d.val = some (s.imemCrc d.val 0 (s.inactiveBank d.val) n, decide (∃ j < tilesOf d.val, s.imemCrc d.val j (s.inactiveBank d.val) n ≠ s.imemCrc d.val 0 (s.inactiveBank d.val) n)))) ∧
    (∀ (s : State) (d : LcDie) (v : Word), (s.running = true) → (s.is TILE_IMEM_STAT_CHK_BUSY (onDie d.val) = true) →
      Completes (.imemCheck d v) s (fun t => t.is TILE_IMEM_STAT_REJ (onDie d.val) = true ∧ t.pipe = s.pipe)) ∧
    (∀ (s : State) (d : LcDie) (m : Bool) (c : Word), (s.unitRuns d.val 1 = true) → (Tab.get s.pipe.check none d.val = some (c, m)) →
      Completes (.imemCheckDone d) s (fun t => t.rd TILE_IMEM_CRC (onDie d.val) = c ∧ t.is TILE_IMEM_STAT_MISMATCH (onDie d.val) = m ∧ t.is TILE_IMEM_STAT_DONE (onDie d.val) = true ∧ t.is TILE_IMEM_STAT_CHK_BUSY (onDie d.val) = false))

/-- An MCAST packet that reaches a delta with room joins its queue, and beyond 512 it is counted in CNT_FULL and its buffer released; where no read finds an uncorrectable error, an accepted packet launches one copy for each entry of its group's list that is neither suppressed nor bad, one mc after another from four mc on or after the last copy before, and holds its buffer once for each, and with none, or with no valid list, it counts in CNT_EMPTY and its buffer is released; groups and copy entries are written and read through their staging registers; a spilled packet whose reason is enabled with a credit of at least one packet costs a million units, counts in CNT_PASS and reaches the DMA channel of its map, which takes its record where the channel runs in mode 1 with an empty store, and otherwise counts in CNT_DROP; the refill adds RATE, caps at BURST million and puts the written sluice in effect. -/
def Obligations.DeltaAndSpillwayComplete : Prop :=
    (∀ (s : State) (d : CourseDie) (f : Fwd), (s.unitRuns (courseIdx d) 2 = true) → (firstFwd (s.pipe.flight.filter (fun f => f.mcast && f.die == courseIdx d)) = some f) → ((Tab.get s.pipe.delta [] (courseIdx d)).length < 512) →
      Completes (.deltaArrival d) s (fun t => Tab.get t.pipe.delta [] (courseIdx d) = Tab.get s.pipe.delta [] (courseIdx d) ++ [(f.queue, f.pkt)] ∧ t.pipe.flight = s.pipe.flight.erase f)) ∧
    (∀ (s : State) (d : CourseDie) (f : Fwd), (s.unitRuns (courseIdx d) 2 = true) → (firstFwd (s.pipe.flight.filter (fun f => f.mcast && f.die == courseIdx d)) = some f) → (512 ≤ (Tab.get s.pipe.delta [] (courseIdx d)).length) →
      Completes (.deltaArrival d) s (fun t => t.rd DELTA_CNT_FULL (onDie (courseIdx d)) = s.rd DELTA_CNT_FULL (onDie (courseIdx d)) + 1 ∧ t.pipe.delta = s.pipe.delta ∧ (0 < f.pkt.buf → (t.bufOf f.pkt.buf).holds = (s.bufOf f.pkt.buf).holds - 1))) ∧
    (∀ (s : State) (d : CourseDie) (x y z : Ecc) (g f n k : Nat) (p : Pkt) (l : List (Nat × Pkt)) (es send : List Word), (s.unitRuns (courseIdx d) 2 = true) → (eccBad x = false) → (eccBad y = false) → (eccBad z = false) → (Tab.get s.pipe.delta [] (courseIdx d) = (g, p) :: l) → (groupList (Tab.get s.pipe.groups 0 (courseIdx d * 2 ^ 14 + g)) (bits (p.m.getD 0 0) 25 25 == 1) = some (f, n)) → (s.copyList (courseIdx d) f n = es) → (send = (es.filter (fun e => !suppressed p e && handleOk (bits e 31 28) 0 (bits e 17 0)))) → (send ≠ []) → (send.all (fun e => (s.route (courseIdx d) (bits e 31 28)).isClear) = true) → (k = Nat.max (s.clk.mc + 4) (Tab.get s.pipe.lastCopy 0 (courseIdx d) + 1)) →
      Completes (.deltaAccept ⟨d, x, y, z⟩) s (fun t => t.pipe.flight = s.pipe.flight ++ (List.zip (List.range send.length) send).map (fun x => { from_ := courseIdx d, copy := true, die := bits x.2 31 28, queue := bits x.2 17 0, pkt := copyPkt p x.2, launch := k + x.1 }) ∧ Tab.get t.pipe.lastCopy 0 (courseIdx d) = k + send.length - 1 ∧ (t.bufOf p.buf).holds = (s.bufOf p.buf).holds + (send.length - 1) ∧ Tab.get t.pipe.delta [] (courseIdx d) = l)) ∧
    (∀ (s : State) (d : CourseDie) (x y z : Ecc) (g f n : Nat) (p : Pkt) (l : List (Nat × Pkt)) (es : List Word), (s.unitRuns (courseIdx d) 2 = true) → (eccBad x = false) → (eccBad y = false) → (eccBad z = false) → (Tab.get s.pipe.delta [] (courseIdx d) = (g, p) :: l) → (groupList (Tab.get s.pipe.groups 0 (courseIdx d * 2 ^ 14 + g)) (bits (p.m.getD 0 0) 25 25 == 1) = some (f, n)) → (s.copyList (courseIdx d) f n = es) → ((es.filter (fun e => !suppressed p e && handleOk (bits e 31 28) 0 (bits e 17 0))) = []) →
      Completes (.deltaAccept ⟨d, x, y, z⟩) s (fun t => t.pipe.flight = s.pipe.flight ∧ t.rd DELTA_CNT_EMPTY (onDie (courseIdx d)) = s.rd DELTA_CNT_EMPTY (onDie (courseIdx d)) + 1 ∧ t.rd DELTA_CNT_BAD_COPY (onDie (courseIdx d)) = s.rd DELTA_CNT_BAD_COPY (onDie (courseIdx d)) + BitVec.ofNat 32 (es.filter (fun e => !suppressed p e)).length ∧ Tab.get t.pipe.delta [] (courseIdx d) = l ∧ (0 < p.buf → (t.bufOf p.buf).holds = (s.bufOf p.buf).holds - 1))) ∧
    (∀ (s : State) (d : CourseDie) (x y z : Ecc) (g : Nat) (p : Pkt) (l : List (Nat × Pkt)), (s.unitRuns (courseIdx d) 2 = true) → (eccBad x = false) → (eccBad y = false) → (eccBad z = false) → (Tab.get s.pipe.delta [] (courseIdx d) = (g, p) :: l) → (groupList (Tab.get s.pipe.groups 0 (courseIdx d * 2 ^ 14 + g)) (bits (p.m.getD 0 0) 25 25 == 1) = none) →
      Completes (.deltaAccept ⟨d, x, y, z⟩) s (fun t => t.pipe.flight = s.pipe.flight ∧ t.rd DELTA_CNT_EMPTY (onDie (courseIdx d)) = s.rd DELTA_CNT_EMPTY (onDie (courseIdx d)) + 1 ∧ Tab.get t.pipe.delta [] (courseIdx d) = l ∧ (0 < p.buf → (t.bufOf p.buf).holds = (s.bufOf p.buf).holds - 1))) ∧
    (∀ (s : State) (d : CourseDie) (v : Word), (s.running = true) →
      Completes (.deltaGroupWrite d v) s (fun t => Tab.get t.pipe.groups 0 (courseIdx d * 2 ^ 14 + (bits v 13 0)) = s.rd DELTA_GRP_STAGE1 (onDie (courseIdx d)) ++ s.rd DELTA_GRP_STAGE0 (onDie (courseIdx d)) ∧ ∀ i, i ≠ courseIdx d * 2 ^ 14 + (bits v 13 0) → Tab.get t.pipe.groups 0 i = Tab.get s.pipe.groups 0 i)) ∧
    (∀ (s : State) (d : CourseDie) (e : Ecc) (v : Word), (s.running = true) → (eccBad e = false) →
      Completes (.deltaGroupRead ⟨d, e⟩ v) s (fun t => t.rd DELTA_GRP_STAGE1 (onDie (courseIdx d)) ++ t.rd DELTA_GRP_STAGE0 (onDie (courseIdx d)) = Tab.get s.pipe.groups 0 (courseIdx d * 2 ^ 14 + (bits v 13 0)) ∧ t.pipe = s.pipe)) ∧
    (∀ (s : State) (d : CourseDie) (v : Word), (s.running = true) →
      Completes (.deltaCopyWrite d v) s (fun t => Tab.get t.pipe.copies 0 (courseIdx d * 2 ^ 17 + s.get DELTA_CPY_WR_ADDR_V (onDie (courseIdx d))) = v &&& 0xFF83FFFF#32 ∧ t.rd DELTA_CPY_WR_DATA (onDie (courseIdx d)) = v &&& 0xFF83FFFF#32)) ∧
    (∀ (s : State) (d : LcDie) (x : Spill), (s.running = true) → (s.pipe.spill.find? (fun x => x.die == d.val) = some x) → (s.is SPW_MAP_EN (place d.val x.reason) = true) → (1000000 ≤ s.credit d.val x.reason) →
      Completes (.spillwayArrival d) s (fun t => t.credit d.val x.reason = s.credit d.val x.reason - 1000000 ∧ t.rd SPW_CNT_PASS (place d.val x.reason) = s.rd SPW_CNT_PASS (place d.val x.reason) + 1 ∧ Tab.get t.pipe.seq 0 d.val = Tab.get s.pipe.seq 0 d.val + 1 ∧ t.pipe.spill = s.pipe.spill.erase x ∧ (s.get DMA_STAT_STATE (place d.val (s.get SPW_MAP_CH (place d.val x.reason))) = 0 → t.dma = s.dma))) ∧
    (∀ (s : State) (d : LcDie) (x : Spill) (n : Nat), (s.running = true) → (n = s.get SPW_MAP_CH (place d.val x.reason)) → (s.pipe.spill.find? (fun x => x.die == d.val) = some x) → (s.is SPW_MAP_EN (place d.val x.reason) = true) → (1000000 ≤ s.credit d.val x.reason) → (s.get DMA_STAT_STATE (place d.val n) ≠ 0) → (s.getEff DMA_CFG_MODE (place d.val n) = 1) → ((s.dmaCh d.val n).store = []) → ((spillRecord d.val x.reason (Tab.get s.pipe.seq 0 d.val) x.pkt).length ≤ 32768) →
      Completes (.spillwayArrival d) s (fun t => (t.dmaCh d.val n).store = [{ bytes := spillRecord d.val x.reason (Tab.get s.pipe.seq 0 d.val) x.pkt, buf := x.pkt.buf, mgt := false }])) ∧
    (∀ (s : State) (d : LcDie) (x : Spill), (s.running = true) → (s.pipe.spill.find? (fun x => x.die == d.val) = some x) → (s.is SPW_MAP_EN (place d.val x.reason) = false ∨ s.credit d.val x.reason < 1000000) →
      Completes (.spillwayArrival d) s (fun t => t.rd SPW_CNT_DROP (place d.val x.reason) = s.rd SPW_CNT_DROP (place d.val x.reason) + 1 ∧ t.pipe = { s.pipe with spill := s.pipe.spill.erase x } ∧ t.dma = s.dma)) ∧
    (∀ (s : State) (d : LcDie) (r : Fin 64), (s.running = true) →
      Completes (.spillwayRefill d r) s (fun t => t.rdEff SPW_SLU (place d.val r.val) = s.rd SPW_SLU (place d.val r.val) ∧ t.credit d.val r.val = Nat.min (s.credit d.val r.val + s.get SPW_SLU_RATE (place d.val r.val)) (s.get SPW_SLU_BURST (place d.val r.val) * 1000000)))

/-- While the traffic manager is ready and no operation is under way, on a read of queue state without an uncorrectable error, QOP_WRITE writes the staged configuration into its queue with DROP 0 and keeps its packets and tag, QOP_READ shows configuration, counts and tag, QOP_FILL configures QOP_CNT queues from INDEX, and QOP_FLUSH removes, counts and releases every packet but one chosen at a slot; otherwise each is rejected; TM_STATE_CLEAR_DONE sets READY; an enqueued packet that its queue, its colour and its limits admit joins the tail of the queue with the colour of its sluice, and its cells count in POOL_OCC; one for a disabled queue is counted and dropped; the profile and pool commits put the written limits in effect. -/
def Obligations.QueueOperationsAndAdmissionComplete : Prop :=
    (∀ (s : State) (d : LcDie), (s.unitRuns d.val 3 = true) →
      Completes (.tmStateClearDone d) s (fun t => t.is TM_STAT_READY (onDie d.val) = true)) ∧
    (∀ (s : State) (d : LcDie) (e : Ecc) (v : Word) (q : Nat), (s.running = true) → (eccBad e = false) → (s.is TM_STAT_READY (onDie d.val) = true) → (s.is TM_QOP_BUSY (onDie d.val) = false) → (q = bits v 17 0) → (q < queuesOf d.val) →
      Completes (.qopWrite ⟨d, e⟩ v) s (fun t => t.queue d.val q = { s.queue d.val q with en := s.is TM_Q_STAGE0_EN (onDie d.val), prof := s.get TM_Q_STAGE0_PROF (onDie d.val), slu := s.get TM_Q_STAGE0_SLU (onDie d.val), w := s.get TM_Q_STAGE1_W (onDie d.val), drop := 0 } ∧ ∀ i, i ≠ q → i < 2 ^ 18 → t.queue d.val i = s.queue d.val i)) ∧
    (∀ (s : State) (d : LcDie) (e : Ecc) (v : Word) (q : Nat), (s.running = true) → (eccBad e = false) → (s.is TM_STAT_READY (onDie d.val) = true) → (s.is TM_QOP_BUSY (onDie d.val) = false) → (q = bits v 17 0) → ((s.queue d.val q).prof < 16) → ((s.queue d.val q).slu < 2 ^ 14) → ((s.queue d.val q).w < 2 ^ 16) → ((s.queue d.val q).tag < 2 ^ 48) → ((s.queue d.val q).drop < 2 ^ 16) → ((s.queue d.val q).pkts.length < 2 ^ 21) → ((s.queue d.val q).bytes < 2 ^ 26) →
      Completes (.qopRead ⟨d, e⟩ v) s (fun t => t.is TM_Q_STAGE0_EN (onDie d.val) = (s.queue d.val q).en ∧ t.get TM_Q_STAGE0_PROF (onDie d.val) = (s.queue d.val q).prof ∧ t.get TM_Q_STAGE0_SLU (onDie d.val) = (s.queue d.val q).slu ∧ t.get TM_Q_STAGE1_W (onDie d.val) = (s.queue d.val q).w ∧ bits (t.rd TM_Q_STAT (place d.val 0)) 31 31 = b2n !(s.queue d.val q).pkts.isEmpty ∧ bits (t.rd TM_Q_STAT (place d.val 0)) 20 0 = (s.queue d.val q).pkts.length ∧ bits (t.rd TM_Q_STAT (place d.val 1)) 25 0 = (s.queue d.val q).bytes ∧ bits (t.rd TM_Q_STAT (place d.val 2)) 31 16 = (s.queue d.val q).drop ∧ bits (t.rd TM_Q_STAT (place d.val 2)) 15 0 * 2 ^ 32 + (t.rd TM_Q_STAT (place d.val 3)).toNat = (s.queue d.val q).tag ∧ t.tm = s.tm)) ∧
    (∀ (s : State) (d : LcDie) (e : Ecc) (v : Word) (q k : Nat), (s.running = true) → (eccBad e = false) → (s.is TM_STAT_READY (onDie d.val) = true) → (s.is TM_QOP_BUSY (onDie d.val) = false) → (q = bits v 17 0) → (k < s.get TM_QOP_CNT_V (onDie d.val)) → (q + k < queuesOf d.val) →
      Completes (.qopFill ⟨d, e⟩ v) s (fun t => t.queue d.val (q + k) = { s.queue d.val (q + k) with en := s.is TM_Q_STAGE0_EN (onDie d.val), prof := s.get TM_Q_STAGE0_PROF (onDie d.val), slu := s.get TM_Q_STAGE0_SLU (onDie d.val), w := s.get TM_Q_STAGE1_W (onDie d.val), drop := 0 })) ∧
    (∀ (s : State) (d : LcDie) (e : Ecc) (v : Word) (q : Nat), (s.running = true) → (eccBad e = false) → (s.is TM_STAT_READY (onDie d.val) = true) → (s.is TM_QOP_BUSY (onDie d.val) = false) → (q = bits v 17 0) → ((Tab.get s.tm.chosen none (qPort d.val q)).isNone = true) →
      Completes (.qopFlush ⟨d, e⟩ v) s (fun t => t.queue d.val q = { s.queue d.val q with pkts := [] } ∧ t.rd TM_CNT_FLUSH (onDie d.val) = s.rd TM_CNT_FLUSH (onDie d.val) + BitVec.ofNat 32 (s.queue d.val q).pkts.length)) ∧
    (∀ (s : State) (d : LcDie) (e : Ecc) (v : Word) (q : Nat) (x : Chosen), (s.running = true) → (eccBad e = false) → (s.is TM_STAT_READY (onDie d.val) = true) → (s.is TM_QOP_BUSY (onDie d.val) = false) → (q = bits v 17 0) → (2 ≤ d.val) → (Tab.get s.tm.chosen none (qPort d.val q) = some x) → (x.queue = q) → ((s.queue d.val q).pkts ≠ []) →
      Completes (.qopFlush ⟨d, e⟩ v) s (fun t => (t.queue d.val q).pkts = (s.queue d.val q).pkts.take 1 ∧ t.rd TM_CNT_FLUSH (onDie d.val) = s.rd TM_CNT_FLUSH (onDie d.val) + BitVec.ofNat 32 ((s.queue d.val q).pkts.length - 1))) ∧
    (∀ (s : State) (d : LcDie) (e : Ecc) (v : Word) (q : Nat) (k : Pkt), (s.running = true) → (eccBad e = false) → (s.is TM_STAT_READY (onDie d.val) = true) → (s.is TM_QOP_BUSY (onDie d.val) = false) → (q = bits v 17 0) → ((Tab.get s.tm.chosen none (qPort d.val q)).isNone = true) → ((s.queue d.val q).pkts = [k]) → (0 < k.buf) →
      Completes (.qopFlush ⟨d, e⟩ v) s (fun t => (t.bufOf k.buf).holds = (s.bufOf k.buf).holds - 1)) ∧
    (∀ (s : State) (d : LcDie) (e : Ecc) (v : Word), (s.running = true) → (s.is TM_QOP_BUSY (onDie d.val) = true ∨ s.is TM_STAT_READY (onDie d.val) = false) →
      Completes (.qopWrite ⟨d, e⟩ v) s (fun t => t.is TM_QOP_REJ (onDie d.val) = true ∧ t.tm = s.tm)) ∧
    (∀ (s : State) (d : LcDie) (e : Ecc) (v : Word), (s.running = true) → (s.is TM_QOP_BUSY (onDie d.val) = true ∨ s.is TM_STAT_READY (onDie d.val) = false) →
      Completes (.qopRead ⟨d, e⟩ v) s (fun t => t.is TM_QOP_REJ (onDie d.val) = true ∧ t.tm = s.tm)) ∧
    (∀ (s : State) (d : LcDie) (e : Ecc) (v : Word), (s.running = true) → (s.is TM_QOP_BUSY (onDie d.val) = true ∨ s.is TM_STAT_READY (onDie d.val) = false) →
      Completes (.qopFill ⟨d, e⟩ v) s (fun t => t.is TM_QOP_REJ (onDie d.val) = true ∧ t.tm = s.tm)) ∧
    (∀ (s : State) (d : LcDie) (e : Ecc) (v : Word), (s.running = true) → (s.is TM_QOP_BUSY (onDie d.val) = true ∨ s.is TM_STAT_READY (onDie d.val) = false) →
      Completes (.qopFlush ⟨d, e⟩ v) s (fun t => t.is TM_QOP_REJ (onDie d.val) = true ∧ t.tm = s.tm)) ∧
    (∀ (s : State) (d : LcDie) (e : Ecc) (f : Fwd) (q : Nat), (s.unitRuns d.val 3 = true) → (eccBad e = false) → (firstFwd (s.pipe.flight.filter (fun f => !f.mcast && f.die == d.val)) = some f) → (s.is TM_STAT_READY (onDie d.val) = true) → (q = s.modeQueue d.val f.queue f.pkt) → (s.retired d.val q = false) → ((s.queue d.val q).en = true) → (¬((s.colour d.val q f.pkt).1 = 2 ∧ (s.colour d.val q f.pkt).2.1 = true)) → ((s.queue d.val q).bytes + f.pkt.bytes.length ≤ s.profLimit d.val (s.queue d.val q).prof (s.colour d.val q f.pkt).1 * 1024) → (s.get TM_POOL_OCC_V (onDie d.val) + f.pkt.cells ≤ s.poolLimit d.val (s.colour d.val q f.pkt).1) →
      Completes (.enqueueVisible d e) s (fun t => (t.queue d.val q).pkts = (s.queue d.val q).pkts ++ [{ f.pkt with m := listSet f.pkt.m 7 (setBits (f.pkt.m.getD 7 0) 28 27 (s.colour d.val q f.pkt).1) }] ∧ t.get TM_POOL_OCC_V (onDie d.val) = s.get TM_POOL_OCC_V (onDie d.val) + f.pkt.cells ∧ t.pipe.flight = s.pipe.flight.erase f)) ∧
    (∀ (s : State) (d : LcDie) (e : Ecc) (f : Fwd) (q : Nat), (s.unitRuns d.val 3 = true) → (eccBad e = false) → (firstFwd (s.pipe.flight.filter (fun f => !f.mcast && f.die == d.val)) = some f) → (s.is TM_STAT_READY (onDie d.val) = true) → (q = s.modeQueue d.val f.queue f.pkt) → (s.retired d.val q = false) → ((s.queue d.val q).en = false) →
      Completes (.enqueueVisible d e) s (fun t => (t.queue d.val q).pkts = (s.queue d.val q).pkts ∧ t.rd TM_CNT_QDIS (place d.val (qOwner d.val q)) = s.rd TM_CNT_QDIS (place d.val (qOwner d.val q)) + 1 ∧ (t.queue d.val q).drop = Nat.min 0xFFFF ((s.queue d.val q).drop + 1))) ∧
    (∀ (s : State) (d : LcDie), (s.running = true) →
      Completes (.aprofCommit d) s (fun t => ∀ i < 16, t.rdEff TM_APROF_A (place d.val i) = s.rd TM_APROF_A (place d.val i) ∧ t.rdEff TM_APROF_B (place d.val i) = s.rd TM_APROF_B (place d.val i))) ∧
    (∀ (s : State) (d : LcDie), (s.running = true) →
      Completes (.poolCommit d) s (fun t => t.rdEff TM_POOL_LIM_G (onDie d.val) = s.rd TM_POOL_LIM_G (onDie d.val) ∧ t.rdEff TM_POOL_LIM_Y (onDie d.val) = s.rd TM_POOL_LIM_Y (onDie d.val) ∧ t.rdEff TM_POOL_LIM_R (onDie d.val) = s.rd TM_POOL_LIM_R (onDie d.val))) ∧
    (∀ (s : State) (n : LineDie), (s.running = true) →
      Completes (.uprofCommit n) s (fun t => ∀ i < 16, t.rdEff TM_UPROF_SP (place n.val i) = s.rd TM_UPROF_SP (place n.val i) ∧ t.rdEff TM_UPROF_W0 (place n.val i) = s.rd TM_UPROF_W0 (place n.val i) ∧ t.rdEff TM_UPROF_W1 (place n.val i) = s.rd TM_UPROF_W1 (place n.val i)))

/-- SLU_WRITE latches the three staged words of its sluice, which the refill puts in force; SLU_READ shows those in force and SLU_COUNTER_READ the three counts, zeroed with CLR; TM_REFILL refills every sluice of the die once, and each enabled weir by its rate up to its depth; a gate list's admin words are written in order, and are refused with REJ while PENDING; a commit fixes the first swap time on the base's cycle that lies 10 µs ahead and the entries, and shows PENDING, and the swap at that time makes them operational; a decision slot of an eligible port chooses the head packet of the highest eligible class, no higher class having one that its weir, its pause and its gate allow; DEQUEUE takes the chosen packet from its queue, debits the class weir and the port weir and hands it to the MAC. -/
def Obligations.SchedulingEventsComplete : Prop :=
    (∀ (s : State) (d : LcDie) (v : Word), (s.running = true) → (1 ≤ bits v 13 0) → (bits v 13 0 ≤ sluicesOf d.val) →
      Completes (.sluWrite d v) s (fun t => t.sluice d.val (bits v 13 0) = { s.sluice d.val (bits v 13 0) with pend := some (s.rd SLU_STAGE0 (onDie d.val), s.rd SLU_STAGE1 (onDie d.val), s.rd SLU_STAGE2 (onDie d.val)) })) ∧
    (∀ (s : State) (d : LcDie) (v : Word), (s.running = true) →
      Completes (.sluRead d v) s (fun t => t.rd SLU_STAGE0 (onDie d.val) = (s.sluice d.val (bits v 13 0)).w0 ∧ t.rd SLU_STAGE1 (onDie d.val) = (s.sluice d.val (bits v 13 0)).w1 ∧ t.rd SLU_STAGE2 (onDie d.val) = (s.sluice d.val (bits v 13 0)).w2 ∧ t.tm = s.tm)) ∧
    (∀ (s : State) (d : LcDie) (v : Word) (x : Sluice), (s.running = true) → (x = s.sluice d.val (bits v 13 0)) →
      Completes (.sluCounterRead d v) s (fun t => t.rd SLU_CNT_G (onDie d.val) = x.g ∧ t.rd SLU_CNT_Y (onDie d.val) = x.y ∧ t.rd SLU_CNT_R (onDie d.val) = x.r ∧ t.sluice d.val (bits v 13 0) = (if bits v 30 30 = 1 then { x with g := 0, y := 0, r := 0 } else x))) ∧
    (∀ (s : State) (d : LcDie) (i : Nat), (s.unitRuns d.val 3 = true) → (i < 2 ^ 14) →
      Completes (.tmRefill d) s (fun t => t.sluice d.val i = (s.sluice d.val i).refill)) ∧
    (∀ (s : State) (d : LcDie) (w : Nat), (s.unitRuns d.val 3 = true) → (w ∈ weirsOf d.val) → (s.is WEIR_CFG_EN (place d.val w) = true) → (s.isEff WEIR_CFG_EN (place d.val w) = true) →
      Completes (.tmRefill d) s (fun t => t.balance w = min (s.balance w + ((s.get WEIR_CFG_RATE_MANT (place d.val w) * 2 ^ s.get WEIR_CFG_RATE_EXP (place d.val w) : Nat) : Int)) ((s.get WEIR_CFG_BURST (place d.val w) * 131072 : Nat) : Int) ∧ t.rdEff WEIR_CFG (place d.val w) = s.rd WEIR_CFG (place d.val w))) ∧
    (∀ (s : State) (d : LcDie) (i : Fin 64) (v : Word) (k : Nat), (s.running = true) → (hasGate d.val i.val = true) → (s.gatePending d.val i.val = false) → (k = s.get GATE_ADM_ADDR_ADDR (place d.val i.val)) → (2 ≤ d.val ∨ k < 64) →
      Completes (.gateAdminDataWrite d i v) s (fun t => Tab.get (t.gate d.val i.val).admin 0 k = v ∧ t.get GATE_ADM_ADDR_ADDR (place d.val i.val) = (k + 1) % 256)) ∧
    (∀ (s : State) (d : LcDie) (i : Fin 64) (v : Word), (s.running = true) → (hasGate d.val i.val = true) → (s.gatePending d.val i.val = true) →
      Completes (.gateAdminDataWrite d i v) s (fun t => t.is GATE_STAT_REJ (place d.val i.val) = true ∧ t.tm = s.tm)) ∧
    (∀ (s : State) (d : LcDie) (i : Fin 64) (v : Word) (b c n : Nat), (s.running = true) → (n = s.tNow.1) → (hasGate d.val i.val = true) → (s.gatePending d.val i.val = false) → (b = (s.get GATE_ADM_BASE_SEC_HI_V (place d.val i.val) * 2 ^ 32 + s.get GATE_ADM_BASE_SEC_LO_V (place d.val i.val)) * 1000000000 + s.get GATE_ADM_BASE_NS_V (place d.val i.val)) → (c = s.get GATE_ADM_CYCLE_V (place d.val i.val)) → (1 ≤ c) →
      Completes (.gateCommit d i v) s (fun t => ((t.gate d.val i.val).pend.map (fun l => (l.cycle, l.entries))) = some (c, (List.range (s.get GATE_ADM_LEN_LEN (place d.val i.val))).map (fun k => Tab.get (s.gate d.val i.val).admin 0 k)) ∧ b ≤ ((t.gate d.val i.val).pend.getD ⟨0, 0, []⟩).start ∧ (((t.gate d.val i.val).pend.getD ⟨0, 0, []⟩).start - b) % c = 0 ∧ n + 10000 * unitNs ≤ ((t.gate d.val i.val).pend.getD ⟨0, 0, []⟩).start * unitNs ∧ (b < ((t.gate d.val i.val).pend.getD ⟨0, 0, []⟩).start → (((t.gate d.val i.val).pend.getD ⟨0, 0, []⟩).start - c) * unitNs < n + 10000 * unitNs) ∧ t.is GATE_STAT_PENDING (place d.val i.val) = true ∧ (t.gate d.val i.val).oper = (s.gate d.val i.val).oper)) ∧
    (∀ (s : State) (d : LcDie) (i : Fin 64) (l : GateList), (s.unitRuns d.val 3 = true) → ((s.gate d.val i.val).pend = some l) → (l.start * unitNs ≤ s.time.units) →
      Completes (.gateSwap d i) s (fun t => (t.gate d.val i.val).oper = some l ∧ (t.gate d.val i.val).pend = none ∧ t.is GATE_STAT_OPER (place d.val i.val) = true ∧ t.is GATE_STAT_PENDING (place d.val i.val) = false ∧ t.is GATE_STAT_SWAPPED (place d.val i.val) = true)) ∧
    (∀ (s : State) (p : Port) (e : Ecc) (c : Fin 8) (q n st w : Nat), (s.unitRuns (portDie p.val) 3 = true) → (eccBad e = false) → (w = s.tNow.1) → ((Tab.get s.tm.chosen none p.val).isNone = true) → (s.is MAC_STAT_TX_LPI (atPort p.val) = false) → ((s.mac p.val).pauseTx.isNone = true) → (s.portEligible p.val w = true) → (∀ k < 8, c.val < k → (match s.nextFlow (portDie p.val) (8 * p.val + k) with | none => true | some r => !s.weirOk (portDie p.val) (8 * p.val + k) || s.pfcPaused p.val k || (!s.tooLong p.val k (s.wireD p.val ((s.queue (portDie p.val) r).pkts.headD {}).bytes.length) && !s.fits p.val k st (s.wireD p.val ((s.queue (portDie p.val) r).pkts.headD {}).bytes.length))) = true) → (s.nextFlow (portDie p.val) (8 * p.val + c.val) = some q) → (n = ((s.queue (portDie p.val) q).pkts.headD {}).bytes.length) → (s.weirOk (portDie p.val) (8 * p.val + c.val) = true) → (s.pfcPaused p.val c.val = false) → (s.tooLong p.val c.val (s.wireD p.val n) = false) → (st = Nat.max (w + s.get TM_PORT_CFG_TX_LAT (atPort p.val) * unitNs) (s.cursor p.val)) → (s.fits p.val c.val st (s.wireD p.val n) = true) →
      Completes (.decisionSlot ⟨p, e⟩) s (fun t => Tab.get t.tm.chosen none p.val = some { queue := q, cls := c.val, start := st, wire := s.wireD p.val n, slot := w } ∧ t.queue (portDie p.val) q = s.queue (portDie p.val) q)) ∧
    (∀ (s : State) (p : Port) (e : Ecc) (x : Chosen) (k : Pkt) (l : List Pkt), (s.unitRuns (portDie p.val) 3 = true) → (Tab.get s.tm.chosen none p.val = some x) → ((s.queue (portDie p.val) x.queue).pkts = k :: l) → (s.is MAC_STAT_LINK (atPort p.val) = true) → (x.cls < 8) → (p.val < 64) → (s.isEff WEIR_CFG_EN (place (portDie p.val) (512 + p.val)) = true) → (s.isEff WEIR_CFG_EN (place (portDie p.val) (8 * p.val + x.cls)) = true) → (eccBad e = false) →
      Completes (.dequeue p e) s (fun t => (t.queue (portDie p.val) x.queue).pkts = l ∧ (t.mac p.val).tx = (s.mac p.val).tx ++ [{ pkt := k, cls := x.cls, start := x.start, ready := x.slot + s.needLat p.val k * (unitNs / 100), late := decide (s.get TM_PORT_CFG_TX_LAT (atPort p.val) * 100 < s.needLat p.val k) }] ∧ t.balance (512 + p.val) = (s.balance (512 + p.val) - ((frameLen k.bytes.length + s.get TM_PORT_CFG_OVH (atPort p.val)) * 1024 : Nat)) ∧ t.balance (8 * p.val + x.cls) = (s.balance (8 * p.val + x.cls) - ((frameLen k.bytes.length + s.get TM_PORT_CFG_OVH (atPort p.val)) * 1024 : Nat)) ∧ t.cursor p.val = x.start + x.wire ∧ Tab.get t.tm.chosen none p.val = none))

/-- A good frame that the address filter accepts on a port without MACsec, with its die in RUN and room in a packet buffer, reaches the dispatch source of its port with its bytes and flags and is counted; a frame with a code error, a runt, one beyond MAX_FRAME, one with a bad FCS and one that the filter refuses are counted by the first of these tests that they fail and go no further; a good frame for a die not in RUN is kept in the wake store of a MAC in mode PATTERN that it matches, with room, and is counted by that mode or mode 2 where it is not; on a port that is up and not paused the first frame whose planned start has come of a MAC starts on the wire, padded and with its FCS, none starts before its planned start, and one whose packet buffer lies on a die asleep waits and will be late; at its end a frame is counted with its bytes and pushes its stamp; a pause frame is queued, and one queued before takes the new quanta, timers expire, the watchdog ends a pause and counts; low-power idle and the link follow their events, and a link that goes down empties its MAC, and a lane that is off has no link. -/
def Obligations.MacReceiveTransmitAndPauseComplete : Prop :=
    (∀ (s : State) (p : Port) (l : List Byte) (n : Nat) (v : RxView) (w : Word), (s.islandRuns (MacPort.port p).die (MacPort.port p).bank = true) → (v = s.rxView (.port p) n) → (s.laneLoops (.port p) = false) → (MAC_CFG_RX_EN.on v.cfg = true) → (s.carries (.port p) = true) → (60 ≤ l.length) → (l.length + 4 ≤ MAC_CFG_MAX_FRAME.of v.cfg) → (etherType l ≠ 0x8808) → (v.addrFilter (beNat (slice l 0 6)) = some w) → (s.is CIPH_MS_RX_EN (atPort p.val) = false) → (s.powerState (portDie p.val) = 0) → ((s.pickPool (portDie p.val) (cellsOf l.length)).isSome = true) →
      Completes (.frameReceive (.port p) l true false n) s (fun t => (∃ x ∈ Tab.get t.pipe.coming [] (srcKey (portDie p.val) (p.val % 16)), Tab.get t.pipe.coming [] (srcKey (portDie p.val) (p.val % 16)) = Tab.get s.pipe.coming [] (srcKey (portDie p.val) (p.val % 16)) ++ [x] ∧ x.bytes = l ∧ x.kind = 0 ∧ x.src = p.val ∧ x.m9 = w) ∧ t.rd MAC_CNT_RX_PKTS (atPort p.val) = s.rd MAC_CNT_RX_PKTS (atPort p.val) + 1)) ∧
    (∀ (s : State) (p : Port) (l : List Byte) (n : Nat) (v : RxView) (e : Bool), (s.islandRuns (MacPort.port p).die (MacPort.port p).bank = true) → (v = s.rxView (.port p) n) → (s.laneLoops (.port p) = false) → (MAC_CFG_RX_EN.on v.cfg = true) → (s.carries (.port p) = true) →
      Completes (.frameReceive (.port p) l e true n) s (fun t => t.rd MAC_CNT_RX_CODE (atPort p.val) = s.rd MAC_CNT_RX_CODE (atPort p.val) + 1 ∧ t.pipe = s.pipe)) ∧
    (∀ (s : State) (p : Port) (l : List Byte) (n : Nat) (v : RxView) (e : Bool), (s.islandRuns (MacPort.port p).die (MacPort.port p).bank = true) → (v = s.rxView (.port p) n) → (s.laneLoops (.port p) = false) → (MAC_CFG_RX_EN.on v.cfg = true) → (s.carries (.port p) = true) → (l.length < 60) →
      Completes (.frameReceive (.port p) l e false n) s (fun t => t.rd MAC_CNT_RX_RUNT (atPort p.val) = s.rd MAC_CNT_RX_RUNT (atPort p.val) + 1 ∧ t.pipe = s.pipe)) ∧
    (∀ (s : State) (p : Port) (l : List Byte) (n : Nat) (v : RxView) (e : Bool), (s.islandRuns (MacPort.port p).die (MacPort.port p).bank = true) → (v = s.rxView (.port p) n) → (s.laneLoops (.port p) = false) → (MAC_CFG_RX_EN.on v.cfg = true) → (s.carries (.port p) = true) → (60 ≤ l.length) → (MAC_CFG_MAX_FRAME.of v.cfg < l.length + 4) →
      Completes (.frameReceive (.port p) l e false n) s (fun t => t.rd MAC_CNT_RX_LONG (atPort p.val) = s.rd MAC_CNT_RX_LONG (atPort p.val) + 1 ∧ t.pipe = s.pipe)) ∧
    (∀ (s : State) (p : Port) (l : List Byte) (n : Nat) (v : RxView), (s.islandRuns (MacPort.port p).die (MacPort.port p).bank = true) → (v = s.rxView (.port p) n) → (s.laneLoops (.port p) = false) → (MAC_CFG_RX_EN.on v.cfg = true) → (s.carries (.port p) = true) → (60 ≤ l.length) → (l.length + 4 ≤ MAC_CFG_MAX_FRAME.of v.cfg) → (etherType l ≠ 0x8808) → (v.addrFilter (beNat (slice l 0 6)) = none) →
      Completes (.frameReceive (.port p) l true false n) s (fun t => t.rd MAC_CNT_RX_FILT (atPort p.val) = s.rd MAC_CNT_RX_FILT (atPort p.val) + 1 ∧ t.pipe = s.pipe)) ∧
    (∀ (s : State) (p : Port) (l : List Byte) (n : Nat) (v : RxView) (w : Word), (s.islandRuns (MacPort.port p).die (MacPort.port p).bank = true) → (v = s.rxView (.port p) n) → (s.laneLoops (.port p) = false) → (MAC_CFG_RX_EN.on v.cfg = true) → (s.carries (.port p) = true) → (60 ≤ l.length) → (l.length + 4 ≤ MAC_CFG_MAX_FRAME.of v.cfg) → (etherType l ≠ 0x8808) → (v.addrFilter (beNat (slice l 0 6)) = some w) → (s.is CIPH_MS_RX_EN (atPort p.val) = false) → (s.powerState (portDie p.val) ≠ 0) → (s.get PWR_PORT_WAKE_MODE (d0i p.val) = 2) →
      Completes (.frameReceive (.port p) l true false n) s (fun t => t.rd PWR_CNT_WAKE_DROP (d0i p.val) = s.rd PWR_CNT_WAKE_DROP (d0i p.val) + 1 ∧ t.pipe = s.pipe)) ∧
    (∀ (s : State) (p : Port) (l : List Byte) (n : Nat) (v : RxView) (w : Word), (s.islandRuns (MacPort.port p).die (MacPort.port p).bank = true) → (v = s.rxView (.port p) n) → (s.laneLoops (.port p) = false) → (MAC_CFG_RX_EN.on v.cfg = true) → (s.carries (.port p) = true) → (60 ≤ l.length) → (l.length + 4 ≤ MAC_CFG_MAX_FRAME.of v.cfg) → (etherType l ≠ 0x8808) → (v.addrFilter (beNat (slice l 0 6)) = some w) → (s.is CIPH_MS_RX_EN (atPort p.val) = false) → (s.powerState (portDie p.val) ≠ 0) → (s.get PWR_PORT_WAKE_MODE (d0i p.val) = 1) → (s.patternMatch (portDie p.val) l = false) →
      Completes (.frameReceive (.port p) l true false n) s (fun t => t.rd PWR_CNT_PAT_MISS (d0i (portDie p.val)) = s.rd PWR_CNT_PAT_MISS (d0i (portDie p.val)) + 1 ∧ t.pipe = s.pipe)) ∧
    (∀ (s : State) (p : Port) (l : List Byte) (n : Nat) (v : RxView) (w : Word), (s.islandRuns (MacPort.port p).die (MacPort.port p).bank = true) → (v = s.rxView (.port p) n) → (s.laneLoops (.port p) = false) → (MAC_CFG_RX_EN.on v.cfg = true) → (s.carries (.port p) = true) → (60 ≤ l.length) → (l.length + 4 ≤ MAC_CFG_MAX_FRAME.of v.cfg) → (etherType l ≠ 0x8808) → (v.addrFilter (beNat (slice l 0 6)) = some w) → (s.is CIPH_MS_RX_EN (atPort p.val) = false) → (s.powerState (portDie p.val) ≠ 0) → (s.get PWR_PORT_WAKE_MODE (d0i p.val) = 1) → (s.patternMatch (portDie p.val) l = true) → ((s.mac p.val).store.foldl (fun n g => n + g.bytes.length) 0 + l.length ≤ 16384) →
      Completes (.frameReceive (.port p) l true false n) s (fun t => (t.mac p.val).store.map (·.bytes) = (s.mac p.val).store.map (·.bytes) ++ [l] ∧ t.rd MAC_CNT_RX_PKTS (atPort p.val) = s.rd MAC_CNT_RX_PKTS (atPort p.val) + 1)) ∧
    (∀ (s : State) (p : Port) (l : List Byte) (n : Nat) (v : RxView), (s.islandRuns (MacPort.port p).die (MacPort.port p).bank = true) → (v = s.rxView (.port p) n) → (s.laneLoops (.port p) = false) → (MAC_CFG_RX_EN.on v.cfg = true) → (s.carries (.port p) = true) → (60 ≤ l.length) → (l.length + 4 ≤ MAC_CFG_MAX_FRAME.of v.cfg) → (etherType l ≠ 0x8808) →
      Completes (.frameReceive (.port p) l false false n) s (fun t => t.rd MAC_CNT_RX_FCS (atPort p.val) = s.rd MAC_CNT_RX_FCS (atPort p.val) + 1 ∧ t.pipe = s.pipe)) ∧
    (∀ (s : State) (p : Port) (phi : Nat) (f : TxFrame) (l : List TxFrame), (s.unitRuns (MacPort.port p).die (MacPort.port p).bank = true) → ((s.mac p.val).tx = f :: l) → ((s.mac p.val).sending.isNone = true) → (s.portView (.port p) phi < f.start) →
      Completes (.macTransmitStart (.port p) phi) s (fun t => t.macs = s.macs ∧ t.rd TM_CNT_LATE_START (atPort p.val) = s.rd TM_CNT_LATE_START (atPort p.val))) ∧
    (∀ (s : State) (p : Port) (phi : Nat) (f : TxFrame) (l : List TxFrame), (s.unitRuns (MacPort.port p).die (MacPort.port p).bank = true) → ((s.mac p.val).tx = f :: l) → ((s.mac p.val).sending.isNone = true) → (s.carries (.port p) = true) → (f.start ≤ s.portView (.port p) phi) → (f.late = false) → (s.heldByPause (.port p) f = false) → (s.frameWaits (.port p) f = true) →
      Completes (.macTransmitStart (.port p) phi) s (fun t => (t.mac p.val).tx = { f with late := true } :: l ∧ (t.mac p.val).sending = none)) ∧
    (∀ (s : State) (p : Port) (phi : Nat) (f : TxFrame) (l : List TxFrame), (s.unitRuns (MacPort.port p).die (MacPort.port p).bank = true) → ((s.mac p.val).tx = f :: l) → ((s.mac p.val).sending.isNone = true) → (f.late = false) → (s.frameWaits (.port p) f = false) → (s.carries (.port p) = true) → (f.start ≤ s.portView (.port p) phi) → (s.heldByPause (.port p) f = false) → (f.pause.isNone = true) → (f.bad = false) → (s.mis (.port p) MAC_CFG_TX_EN = true) → (frameLen f.pkt.bytes.length ≤ s.mget (.port p) MAC_CFG_MAX_FRAME) → (bits (f.pkt.m.getD 7 0) 26 23 = 0) → (s.isEff CIPH_MS_TX_EN (atPort p.val) = false) → (s.doubtful (s.bufOf f.pkt.buf) = false) → (s.bufError (s.bufOf f.pkt.buf) = false) → (s.cutOff (portDie p.val) (s.bufOf f.pkt.buf) = false) →
      Completes (.macTransmitStart (.port p) phi) s (fun t => (t.mac p.val).tx = l ∧ (t.mac p.val).sending = some { wire := wireFrame f.pkt.bytes false, buf := f.pkt.buf, pause := false, stamp := none } ∧ t.rd TM_CNT_LATE_START (atPort p.val) = (if f.start + s.macSw (.port p) ≤ s.portView (.port p) phi then s.rd TM_CNT_LATE_START (atPort p.val) + 1 else s.rd TM_CNT_LATE_START (atPort p.val)))) ∧
    (∀ (s : State) (m : MacPort) (f : Sending), (s.unitRuns m.die m.bank = true) → ((s.mac m.key).sending = some f) → (s.laneLoops m = false) → (f.stamp.isNone = true) →
      Completes (.frameTransmitEnd m) s (fun t => (t.mac m.key).sending = none ∧ (t.mac m.key).lastWire = f.wire ∧ t.rd (m.reg MAC_CNT_TX_PKTS) m.at_ = s.rd (m.reg MAC_CNT_TX_PKTS) m.at_ + 1 ∧ t.rd (m.reg MAC_CNT_TX_BYTES_LO) m.at_ = s.rd (m.reg MAC_CNT_TX_BYTES_LO) m.at_ + BitVec.ofNat 32 f.wire.length)) ∧
    (∀ (s : State) (m : MacPort) (f : Sending) (x : Stamp), (s.unitRuns m.die m.bank = true) → ((s.mac m.key).sending = some f) → (s.laneLoops m = false) → (f.stamp = some x) → ((s.mac m.key).fifo.length < 32) →
      Completes (.frameTransmitEnd m) s (fun t => (t.mac m.key).fifo = (s.mac m.key).fifo ++ [x] ∧ (t.mac m.key).sending = none)) ∧
    (∀ (s : State) (m : MacPort) (x : Stamp) (l : List Stamp), (s.running = true) → ((s.mac m.key).fifo = x :: l) →
      Completes (.tsFifoPop m) s (fun t => (t.mac m.key).fifo = l ∧ (l.length < 32 → t.mget m MAC_TS_STAT_LEVEL = l.length))) ∧
    (∀ (s : State) (m : MacPort) (v : Word), (s.running = true) → ((s.mac m.key).tx.any (·.pause.isSome) = false) →
      Completes (.pauseTx m v) s (fun t => (t.mac m.key).pauseTx = some (bits v 15 0) ∧ (t.mac m.key).tx = (s.mac m.key).tx)) ∧
    (∀ (s : State) (m : MacPort) (v : Word), (s.running = true) → ((s.mac m.key).tx.any (·.pause.isSome) = true) →
      Completes (.pauseTx m v) s (fun t => (t.mac m.key).pauseTx = (s.mac m.key).pauseTx ∧ (t.mac m.key).tx = (s.mac m.key).tx.map (fun f => if f.pause.isSome then { f with pause := some (bits v 15 0) } else f))) ∧
    (∀ (s : State) (m : MacPort) (k : Fin 9), (s.islandRuns m.die m.bank = true) → (Tab.get (s.mac m.key).timers 0 k.val ≠ 0) →
      Completes (.pauseTimerExpiry m k) s (fun t => Tab.get (t.mac m.key).timers 0 k.val = 0 ∧ (k.val = 8 → t.mis m MAC_STAT_PAUSE = false) ∧ (k.val < 8 → bitOf (t.mget m MAC_STAT_PFC_PAUSED) k.val = false))) ∧
    (∀ (s : State) (m : MacPort) (k : Fin 9), (s.unitRuns m.die m.bank = true) → (Tab.get (s.mac m.key).timers 0 k.val ≠ 0) → (s.getEff (m.fld MAC_FC_WD_WD_MS) m.at_ ≠ 0) →
      Completes (.pauseWatchdog m k) s (fun t => Tab.get (t.mac m.key).timers 0 k.val = 0 ∧ t.mis m MAC_STAT_PAUSE_WD = true ∧ t.rd (m.reg MAC_CNT_PAUSE_WD) m.at_ = s.rd (m.reg MAC_CNT_PAUSE_WD) m.at_ + 1)) ∧
    (∀ (s : State) (m : MacPort), (s.unitRuns m.die m.bank = true) → (s.mis m MAC_EEE_CFG_EN = true) → (s.macByte25 m ≤ 200) → (s.mis m MAC_STAT_LINK = true) → (s.mis m MAC_STAT_TX_LPI = false) → ((s.mac m.key).tx = []) → ((s.mac m.key).sending.isNone = true) → ((s.mac m.key).pauseTx.isNone = true) →
      Completes (.lpiEntry m) s (fun t => t.mis m MAC_STAT_TX_LPI = true ∧ t.rd (m.reg MAC_CNT_TX_LPI) m.at_ = s.rd (m.reg MAC_CNT_TX_LPI) m.at_ + 1)) ∧
    (∀ (s : State) (m : MacPort), (s.islandRuns m.die m.bank = true) → (s.mis m MAC_STAT_RX_LPI = false) → (s.carries m = true) →
      Completes (.rxLpiChange m true) s (fun t => t.mis m MAC_STAT_RX_LPI = true ∧ t.rd (m.reg MAC_CNT_RX_LPI) m.at_ = s.rd (m.reg MAC_CNT_RX_LPI) m.at_ + 1)) ∧
    (∀ (s : State) (m : MacPort), (s.islandRuns m.die m.bank = true) → (s.carries m = false) →
      Completes (.rxLpiChange m true) s (fun t => t.mis m MAC_STAT_RX_LPI = s.mis m MAC_STAT_RX_LPI ∧ t.rd (m.reg MAC_CNT_RX_LPI) m.at_ = s.rd (m.reg MAC_CNT_RX_LPI) m.at_)) ∧
    (∀ (s : State) (m : MacPort) (v : Fin 3), (s.islandRuns m.die m.bank = true) → (s.mis m MAC_STAT_LINK = false) → (s.laneOn m = true) →
      Completes (.linkChange m true v) s (fun t => t.mis m MAC_STAT_LINK = true ∧ t.mis m MAC_STAT_LINK_CHG = true ∧ (t.mac m.key).speed = v.val)) ∧
    (∀ (s : State) (m : MacPort) (v : Fin 3), (s.islandRuns m.die m.bank = true) → (s.laneOn m = false) →
      Completes (.linkChange m true v) s (fun t => t.mis m MAC_STAT_LINK = false)) ∧
    (∀ (s : State) (m : MacPort) (v : Fin 3), (s.islandRuns m.die m.bank = true) → (s.mis m MAC_STAT_LINK = true) →
      Completes (.linkChange m false v) s (fun t => t.mis m MAC_STAT_LINK = false ∧ t.mis m MAC_STAT_LINK_CHG = true ∧ (t.mac m.key).tx = [] ∧ (t.mac m.key).sending = none ∧ (t.mac m.key).pauseTx = none))

/-- DA_FILTER_WRITE puts the staged address in its entry and DA_FILTER_READ shows it; PTP_COMMIT puts PTP.CFG and both corrections in effect; each MDIO GO on an idle master of a die of the part starts a frame with its clause, operation, addresses and data; at its end BUSY falls, DONE is latched and a read shows the data; a cage transaction on an enabled idle master starts with its operands, and at its end ERR tells how it ended; each of these GOs while BUSY sets REJ and starts no frame and no transaction; an LED refresh shifts out 64 bits. -/
def Obligations.MacFiltersAndManagementMastersComplete : Prop :=
    (∀ (s : State) (m : MacPort) (v : Word), (s.running = true) →
      Completes (.daFilterWrite m v) s (fun t => Tab.get (t.mac m.key).da 0 (bits v 2 0) = s.rd (m.reg MAC_DA_STAGE_HI) m.at_ ++ s.rd (m.reg MAC_DA_STAGE_LO) m.at_ ∧ ∀ i, i ≠ bits v 2 0 → Tab.get (t.mac m.key).da 0 i = Tab.get (s.mac m.key).da 0 i)) ∧
    (∀ (s : State) (m : MacPort) (v : Word), (s.running = true) →
      Completes (.daFilterRead m v) s (fun t => t.rd (m.reg MAC_DA_STAGE_HI) m.at_ ++ t.rd (m.reg MAC_DA_STAGE_LO) m.at_ = Tab.get (s.mac m.key).da 0 (bits v 2 0) ∧ t.macs = s.macs)) ∧
    (∀ (s : State) (m : MacPort), (s.running = true) →
      Completes (.ptpCommit m) s (fun t => t.rdEff (m.reg MAC_PTP_CFG) m.at_ = s.rd (m.reg MAC_PTP_CFG) m.at_ ∧ t.rdEff (m.reg MAC_TS_RX_CORR) m.at_ = s.rd (m.reg MAC_TS_RX_CORR) m.at_ ∧ t.rdEff (m.reg MAC_TS_TX_CORR) m.at_ = s.rd (m.reg MAC_TS_TX_CORR) m.at_)) ∧
    (∀ (s : State) (d : CourseDie) (m : Fin 4) (v : Word), (s.hw.alive = true) → (present s.part (courseIdx d) = true) → (s.is MAC_MDIO_CMD_BUSY (place (courseIdx d) m.val) = false) →
      Completes (.mdioC22Write d m v) s (fun t => ∃ j, Tab.get t.macs.mdio none (courseIdx d * 4 + m.val) = some j ∧ j.cl45 = false ∧ j.op = 1 ∧ j.prtad = bits v 20 16 ∧ j.devad = bits v 4 0 ∧ j.data = s.get MAC_MDIO_DATA_DATA (place (courseIdx d) m.val) ∧ t.is MAC_MDIO_CMD_BUSY (place (courseIdx d) m.val) = true)) ∧
    (∀ (s : State) (d : CourseDie) (m : Fin 4) (v : Word), (s.hw.alive = true) → (present s.part (courseIdx d) = true) → (s.is MAC_MDIO_CMD_BUSY (place (courseIdx d) m.val) = false) →
      Completes (.mdioC22Read d m v) s (fun t => ∃ j, Tab.get t.macs.mdio none (courseIdx d * 4 + m.val) = some j ∧ j.cl45 = false ∧ j.op = 2 ∧ j.prtad = bits v 20 16 ∧ j.devad = bits v 4 0 ∧ j.data = s.get MAC_MDIO_DATA_DATA (place (courseIdx d) m.val) ∧ t.is MAC_MDIO_CMD_BUSY (place (courseIdx d) m.val) = true)) ∧
    (∀ (s : State) (d : CourseDie) (m : Fin 4) (v : Word), (s.hw.alive = true) → (present s.part (courseIdx d) = true) → (s.is MAC_MDIO_CMD_BUSY (place (courseIdx d) m.val) = false) →
      Completes (.mdioC45Address d m v) s (fun t => ∃ j, Tab.get t.macs.mdio none (courseIdx d * 4 + m.val) = some j ∧ j.cl45 = true ∧ j.op = 0 ∧ j.prtad = bits v 20 16 ∧ j.devad = bits v 4 0 ∧ j.data = s.get MAC_MDIO_DATA_DATA (place (courseIdx d) m.val) ∧ t.is MAC_MDIO_CMD_BUSY (place (courseIdx d) m.val) = true)) ∧
    (∀ (s : State) (d : CourseDie) (m : Fin 4) (v : Word), (s.hw.alive = true) → (present s.part (courseIdx d) = true) → (s.is MAC_MDIO_CMD_BUSY (place (courseIdx d) m.val) = false) →
      Completes (.mdioC45Write d m v) s (fun t => ∃ j, Tab.get t.macs.mdio none (courseIdx d * 4 + m.val) = some j ∧ j.cl45 = true ∧ j.op = 1 ∧ j.prtad = bits v 20 16 ∧ j.devad = bits v 4 0 ∧ j.data = s.get MAC_MDIO_DATA_DATA (place (courseIdx d) m.val) ∧ t.is MAC_MDIO_CMD_BUSY (place (courseIdx d) m.val) = true)) ∧
    (∀ (s : State) (d : CourseDie) (m : Fin 4) (v : Word), (s.hw.alive = true) → (present s.part (courseIdx d) = true) → (s.is MAC_MDIO_CMD_BUSY (place (courseIdx d) m.val) = false) →
      Completes (.mdioC45Read d m v) s (fun t => ∃ j, Tab.get t.macs.mdio none (courseIdx d * 4 + m.val) = some j ∧ j.cl45 = true ∧ j.op = 2 ∧ j.prtad = bits v 20 16 ∧ j.devad = bits v 4 0 ∧ j.data = s.get MAC_MDIO_DATA_DATA (place (courseIdx d) m.val) ∧ t.is MAC_MDIO_CMD_BUSY (place (courseIdx d) m.val) = true)) ∧
    (∀ (s : State) (d : CourseDie) (m : Fin 4) (v : Word), (s.hw.alive = true) → (present s.part (courseIdx d) = true) → (s.is MAC_MDIO_CMD_BUSY (place (courseIdx d) m.val) = false) →
      Completes (.mdioC45ReadInc d m v) s (fun t => ∃ j, Tab.get t.macs.mdio none (courseIdx d * 4 + m.val) = some j ∧ j.cl45 = true ∧ j.op = 3 ∧ j.prtad = bits v 20 16 ∧ j.devad = bits v 4 0 ∧ j.data = s.get MAC_MDIO_DATA_DATA (place (courseIdx d) m.val) ∧ t.is MAC_MDIO_CMD_BUSY (place (courseIdx d) m.val) = true)) ∧
    (∀ (s : State) (d : CourseDie) (m : Fin 4) (v : Word), (s.hw.alive = true) → (present s.part (courseIdx d) = true) → (s.is MAC_MDIO_CMD_BUSY (place (courseIdx d) m.val) = true) →
      Completes (.mdioC22Write d m v) s (fun t => t.is MAC_MDIO_STAT_REJ (onDie (courseIdx d)) = true ∧ t.macs = s.macs)) ∧
    (∀ (s : State) (d : CourseDie) (m : Fin 4) (v : Word), (s.hw.alive = true) → (present s.part (courseIdx d) = true) → (s.is MAC_MDIO_CMD_BUSY (place (courseIdx d) m.val) = true) →
      Completes (.mdioC22Read d m v) s (fun t => t.is MAC_MDIO_STAT_REJ (onDie (courseIdx d)) = true ∧ t.macs = s.macs)) ∧
    (∀ (s : State) (d : CourseDie) (m : Fin 4) (v : Word), (s.hw.alive = true) → (present s.part (courseIdx d) = true) → (s.is MAC_MDIO_CMD_BUSY (place (courseIdx d) m.val) = true) →
      Completes (.mdioC45Address d m v) s (fun t => t.is MAC_MDIO_STAT_REJ (onDie (courseIdx d)) = true ∧ t.macs = s.macs)) ∧
    (∀ (s : State) (d : CourseDie) (m : Fin 4) (v : Word), (s.hw.alive = true) → (present s.part (courseIdx d) = true) → (s.is MAC_MDIO_CMD_BUSY (place (courseIdx d) m.val) = true) →
      Completes (.mdioC45Write d m v) s (fun t => t.is MAC_MDIO_STAT_REJ (onDie (courseIdx d)) = true ∧ t.macs = s.macs)) ∧
    (∀ (s : State) (d : CourseDie) (m : Fin 4) (v : Word), (s.hw.alive = true) → (present s.part (courseIdx d) = true) → (s.is MAC_MDIO_CMD_BUSY (place (courseIdx d) m.val) = true) →
      Completes (.mdioC45Read d m v) s (fun t => t.is MAC_MDIO_STAT_REJ (onDie (courseIdx d)) = true ∧ t.macs = s.macs)) ∧
    (∀ (s : State) (d : CourseDie) (m : Fin 4) (v : Word), (s.hw.alive = true) → (present s.part (courseIdx d) = true) → (s.is MAC_MDIO_CMD_BUSY (place (courseIdx d) m.val) = true) →
      Completes (.mdioC45ReadInc d m v) s (fun t => t.is MAC_MDIO_STAT_REJ (onDie (courseIdx d)) = true ∧ t.macs = s.macs)) ∧
    (∀ (s : State) (d : CourseDie) (v : Word), (s.hw.alive = true) → (bits (s.rd MAC_CAGE_I2C_CMD (onDie (courseIdx d))) 30 30 = 1) →
      Completes (.cageI2cWrite d v) s (fun t => bits (t.rd MAC_CAGE_I2C_STAT (onDie (courseIdx d))) 30 30 = 1 ∧ t.macs = s.macs)) ∧
    (∀ (s : State) (d : CourseDie) (v : Word), (s.hw.alive = true) → (bits (s.rd MAC_CAGE_I2C_CMD (onDie (courseIdx d))) 30 30 = 1) →
      Completes (.cageI2cRead d v) s (fun t => bits (t.rd MAC_CAGE_I2C_STAT (onDie (courseIdx d))) 30 30 = 1 ∧ t.macs = s.macs)) ∧
    (∀ (s : State) (d : CourseDie) (m : Fin 4) (w : BitVec 16) (j : MdioJob), (s.hw.alive = true) → (s.unitHeld (courseIdx d) 4 = false) → (Tab.get s.macs.mdio none (courseIdx d * 4 + m.val) = some j) →
      Completes (.mdioFrameDone d m w) s (fun t => t.is MAC_MDIO_CMD_BUSY (place (courseIdx d) m.val) = false ∧ bitOf (t.get MAC_MDIO_STAT_DONE (onDie (courseIdx d))) m.val = true ∧ t.get MAC_MDIO_DATA_DATA (place (courseIdx d) m.val) = (if j.reads then w.toNat else s.get MAC_MDIO_DATA_DATA (place (courseIdx d) m.val)) ∧ Tab.get t.macs.mdio none (courseIdx d * 4 + m.val) = none)) ∧
    (∀ (s : State) (d : CourseDie) (v : Word), (s.hw.alive = true) → (bits (s.rd MAC_CAGE_I2C_CMD (onDie (courseIdx d))) 30 30 = 0) → (bits (s.rd MAC_CAGE_I2C_CFG (onDie (courseIdx d))) 31 31 = 1) → (1 ≤ bits v 23 20) → (bits v 23 20 ≤ 8) →
      Completes (.cageI2cWrite d v) s (fun t => ∃ j, Tab.get t.macs.cage none (courseIdx d) = some j ∧ j.read = false ∧ j.len = bits v 23 20 ∧ j.addr = bits v 18 12 ∧ j.reg = bits v 7 0 ∧ j.bus = bits v 11 8 ∧ bits (t.rd MAC_CAGE_I2C_CMD (onDie (courseIdx d))) 30 30 = 1)) ∧
    (∀ (s : State) (d : CourseDie) (v : Word), (s.hw.alive = true) → (bits (s.rd MAC_CAGE_I2C_CMD (onDie (courseIdx d))) 30 30 = 0) → (bits (s.rd MAC_CAGE_I2C_CFG (onDie (courseIdx d))) 31 31 = 1) → (1 ≤ bits v 23 20) → (bits v 23 20 ≤ 8) →
      Completes (.cageI2cRead d v) s (fun t => ∃ j, Tab.get t.macs.cage none (courseIdx d) = some j ∧ j.read = true ∧ j.len = bits v 23 20 ∧ j.addr = bits v 18 12 ∧ j.reg = bits v 7 0 ∧ j.bus = bits v 11 8 ∧ bits (t.rd MAC_CAGE_I2C_CMD (onDie (courseIdx d))) 30 30 = 1)) ∧
    (∀ (s : State) (d : CourseDie) (j : I2cJob) (e : I2cEnd) (b : Bool) (g : List Byte), (s.hw.alive = true) → (s.unitHeld (courseIdx d) 4 = false) → (Tab.get s.macs.cage none (courseIdx d) = some j) →
      Completes (.cageI2cDone d e b g) s (fun t => Tab.get t.macs.cage none (courseIdx d) = none ∧ bits (t.rd MAC_CAGE_I2C_CMD (onDie (courseIdx d))) 30 30 = 0 ∧ bits (t.rd MAC_CAGE_I2C_CMD (onDie (courseIdx d))) 29 28 = i2cErr { j with stretched := b } e ∧ bits (t.rd MAC_CAGE_I2C_STAT (onDie (courseIdx d))) 31 31 = 1)) ∧
    (∀ (s : State) (d : CourseDie), (s.hw.alive = true) → (s.unitHeld (courseIdx d) 4 = false) → (s.is MAC_LED_CFG_EN (onDie (courseIdx d)) = true) → (∀ i < 64, (s.rd MAC_LED_SRC (place (courseIdx d) (i / 4))).toNat / 16 ^ (i % 4) % 16 ≤ 1) →
      Completes (.ledRefresh d) s (fun t => ∀ i < 64, (Tab.get t.macs.led none (courseIdx d)).map (fun v => v.getLsbD i) = some (((s.rd MAC_LED_SRC (place (courseIdx d) (i / 4))).toNat / 16 ^ (i % 4) % 16 == 1) != s.is MAC_LED_CFG_POL (onDie (courseIdx d)))))

/-- An accepted KSLOT_WRITE puts the staged key, length, salt and SSCI in the copy not in effect, which becomes the one in effect, sets VALID, adds 1 to the serial and zeroes staging, and an LA slot's invocation counter starts at 0; KSLOT_LOAD_KILN does the same with the kiln's ready key of the pool's purpose and length, and takes it; a write whose target copy an operation uses is held with BUSY and HELD, and done once none does; KSLOT_ERASE zeroes both copies, clears VALID and ends a suspended bulk job of the slot, its context invalid; a command that fails a test sets REJ with its cause (1 busy, 2 no such slot, 3 a long key for the PON pool, 4 a zeroisation or no such key ready) and changes no slot. -/
def Obligations.KeySlotCommandsComplete : Prop :=
    (∀ (s : State) (d : LcDie) (v : Word), (s.running = true) → (s.hw.zeroising = false) → (s.is KSLOT_STAT_BUSY (onDie d.val) = false) → (bits v 11 0 < poolSize d.val (bits v 28 27)) → (¬(bits v 26 26 = 1 ∧ bits v 28 27 = poolPon)) → (s.copyUsed (slotKey d.val (bits v 28 27) (bits v 11 0)) (!(s.slotAt (slotKey d.val (bits v 28 27) (bits v 11 0))).second) = false) →
      Completes (.kslotWrite d v) s (fun t => (t.slotAt (slotKey d.val (bits v 28 27) (bits v 11 0))).valid = true ∧ (t.slotAt (slotKey d.val (bits v 28 27) (bits v 11 0))).serial = (s.slotAt (slotKey d.val (bits v 28 27) (bits v 11 0))).serial + 1 ∧ (t.slotAt (slotKey d.val (bits v 28 27) (bits v 11 0))).second = (!(s.slotAt (slotKey d.val (bits v 28 27) (bits v 11 0))).second) ∧ t.get KSLOT_STAT_REJ_CAUSE (onDie d.val) = 0 ∧ (∀ i < 12, t.rd KSLOT_STAGE (place d.val i) = 0) ∧ (t.slotAt (slotKey d.val (bits v 28 27) (bits v 11 0))).now.key = (s.stagedKey d.val (bits v 26 26 == 1)).key ∧ (t.slotAt (slotKey d.val (bits v 28 27) (bits v 11 0))).now.long = (bits v 26 26 == 1) ∧ (t.slotAt (slotKey d.val (bits v 28 27) (bits v 11 0))).now.salt = (s.stagedKey d.val (bits v 26 26 == 1)).salt ∧ (t.slotAt (slotKey d.val (bits v 28 27) (bits v 11 0))).now.ssci = (s.stagedKey d.val (bits v 26 26 == 1)).ssci ∧ (t.slotAt (slotKey d.val (bits v 28 27) (bits v 11 0))).now.counter = (if bits v 28 27 = poolLa then 0 else (s.stagedKey d.val (bits v 26 26 == 1)).counter))) ∧
    (∀ (s : State) (d : LcDie) (v : Word), (s.running = true) → (s.hw.zeroising = false) → (s.is KSLOT_STAT_BUSY (onDie d.val) = false) → (bits v 11 0 < poolSize d.val (bits v 28 27)) → (¬(bits v 26 26 = 1 ∧ bits v 28 27 = poolPon)) → (s.copyUsed (slotKey d.val (bits v 28 27) (bits v 11 0)) (!(s.slotAt (slotKey d.val (bits v 28 27) (bits v 11 0))).second) = true) →
      Completes (.kslotWrite d v) s (fun t => t.is KSLOT_STAT_BUSY (onDie d.val) = true ∧ t.is KSLOT_STAT_HELD (onDie d.val) = true ∧ Tab.get t.ciph.held none d.val = some ((slotKey d.val (bits v 28 27) (bits v 11 0)), (s.stagedKey d.val (bits v 26 26 == 1))) ∧ t.slotAt (slotKey d.val (bits v 28 27) (bits v 11 0)) = s.slotAt (slotKey d.val (bits v 28 27) (bits v 11 0)))) ∧
    (∀ (s : State) (d : LcDie) (v : Word) (k : BitVec 256), (s.running = true) → (s.hw.zeroising = false) → (s.is KSLOT_STAT_BUSY (onDie d.val) = false) → (bits v 11 0 < poolSize d.val (bits v 28 27)) → (¬(bits v 26 26 = 1 ∧ bits v 28 27 = poolPon)) → (s.copyUsed (slotKey d.val (bits v 28 27) (bits v 11 0)) (!(s.slotAt (slotKey d.val (bits v 28 27) (bits v 11 0))).second) = false) → (s.hw.ready = some k) → (s.get KILN_STAT_R_PURPOSE d0 = poolPurpose (bits v 28 27)) → (s.is KILN_STAT_R_KLEN d0 = (bits v 26 26 == 1)) →
      Completes (.kslotLoadKiln d v) s (fun t => (t.slotAt (slotKey d.val (bits v 28 27) (bits v 11 0))).now.key = k ∧ t.hw.ready = none ∧ t.is KILN_STAT_READY d0 = false ∧ (t.slotAt (slotKey d.val (bits v 28 27) (bits v 11 0))).valid = true ∧ (t.slotAt (slotKey d.val (bits v 28 27) (bits v 11 0))).serial = (s.slotAt (slotKey d.val (bits v 28 27) (bits v 11 0))).serial + 1 ∧ (t.slotAt (slotKey d.val (bits v 28 27) (bits v 11 0))).second = (!(s.slotAt (slotKey d.val (bits v 28 27) (bits v 11 0))).second) ∧ t.get KSLOT_STAT_REJ_CAUSE (onDie d.val) = 0 ∧ (∀ i < 12, t.rd KSLOT_STAGE (place d.val i) = 0))) ∧
    (∀ (s : State) (d : LcDie) (k : Nat) (c : KeyCopy), (s.unitRuns d.val 5 = true) → (Tab.get s.ciph.held none d.val = some (k, c)) → (s.copyUsed k (!(s.slotAt k).second) = false) → (k / 2 ^ 12 % 4 ≠ poolLa) →
      Completes (.kslotHeldWriteDone d) s (fun t => (t.slotAt k).now = c ∧ (t.slotAt k).valid = true ∧ t.is KSLOT_STAT_BUSY (onDie d.val) = false ∧ t.is KSLOT_STAT_HELD (onDie d.val) = false ∧ Tab.get t.ciph.held none d.val = none)) ∧
    (∀ (s : State) (d : LcDie) (v : Word), (s.running = true) → (s.hw.zeroising = false) → (bits v 11 0 < poolSize d.val (bits v 28 27)) → ((Tab.get s.ciph.bulk none d.val).isNone = true) →
      Completes (.kslotErase d v) s (fun t => t.slotAt (slotKey d.val (bits v 28 27) (bits v 11 0)) = { serial := (s.slotAt (slotKey d.val (bits v 28 27) (bits v 11 0))).serial + 1 } ∧ t.get KSLOT_STAT_REJ_CAUSE (onDie d.val) = 0 ∧ t.get KSLOT_STAT_SERIAL (onDie d.val) = ((s.slotAt (slotKey d.val (bits v 28 27) (bits v 11 0))).serial + 1).toNat)) ∧
    (∀ (s : State) (d : LcDie) (v : Word) (j : LaBulk), (s.running = true) → (s.hw.zeroising = false) → (bits v 28 27 = poolLa) → (bits v 11 0 < poolSize d.val poolLa) → (Tab.get s.ciph.bulk none d.val = some j) → (j.slot = bits v 11 0) →
      Completes (.kslotErase d v) s (fun t => t.slotAt (slotKey d.val (bits v 28 27) (bits v 11 0)) = { serial := (s.slotAt (slotKey d.val (bits v 28 27) (bits v 11 0))).serial + 1 } ∧ Tab.get t.ciph.bulk none d.val = none ∧ t.laCtx d.val (laDecode j.desc).ctx = none)) ∧
    (∀ (s : State) (d : LcDie) (v : Word), (s.running = true) → (bits v 28 27 ≠ 3) → (poolSize d.val (bits v 28 27) ≤ bits v 11 0) → (s.hw.zeroising = false) → (s.is KSLOT_STAT_BUSY (onDie d.val) = false) →
      Completes (.kslotWrite d v) s (fun t => t.is KSLOT_STAT_REJ (onDie d.val) = true ∧ t.get KSLOT_STAT_REJ_CAUSE (onDie d.val) = 2 ∧ t.ciph = s.ciph)) ∧
    (∀ (s : State) (d : LcDie) (v : Word), (s.running = true) → (bits v 28 27 ≠ 3) → (poolSize d.val (bits v 28 27) ≤ bits v 11 0) → (s.hw.zeroising = false) → (s.is KSLOT_STAT_BUSY (onDie d.val) = false) →
      Completes (.kslotLoadKiln d v) s (fun t => t.is KSLOT_STAT_REJ (onDie d.val) = true ∧ t.get KSLOT_STAT_REJ_CAUSE (onDie d.val) = 2 ∧ t.ciph = s.ciph)) ∧
    (∀ (s : State) (d : LcDie) (v : Word), (s.running = true) → (bits v 28 27 ≠ 3) → (poolSize d.val (bits v 28 27) ≤ bits v 11 0) → (s.hw.zeroising = false) →
      Completes (.kslotErase d v) s (fun t => t.is KSLOT_STAT_REJ (onDie d.val) = true ∧ t.get KSLOT_STAT_REJ_CAUSE (onDie d.val) = 2 ∧ t.ciph = s.ciph)) ∧
    (∀ (s : State) (d : LcDie) (v : Word), (s.running = true) → (s.hw.zeroising = false) → (s.is KSLOT_STAT_BUSY (onDie d.val) = true) →
      Completes (.kslotWrite d v) s (fun t => t.is KSLOT_STAT_REJ (onDie d.val) = true ∧ t.get KSLOT_STAT_REJ_CAUSE (onDie d.val) = 1 ∧ t.ciph = s.ciph)) ∧
    (∀ (s : State) (d : LcDie) (v : Word), (s.running = true) → (s.hw.zeroising = false) → (s.is KSLOT_STAT_BUSY (onDie d.val) = true) →
      Completes (.kslotLoadKiln d v) s (fun t => t.is KSLOT_STAT_REJ (onDie d.val) = true ∧ t.get KSLOT_STAT_REJ_CAUSE (onDie d.val) = 1 ∧ t.ciph = s.ciph)) ∧
    (∀ (s : State) (d : LcDie) (v : Word), (s.running = true) → (s.hw.zeroising = false) → (s.is KSLOT_STAT_BUSY (onDie d.val) = false) → (bits v 28 27 = poolPon) → (bits v 11 0 < poolSize d.val poolPon) → (bits v 26 26 = 1) →
      Completes (.kslotWrite d v) s (fun t => t.is KSLOT_STAT_REJ (onDie d.val) = true ∧ t.get KSLOT_STAT_REJ_CAUSE (onDie d.val) = 3 ∧ t.ciph = s.ciph)) ∧
    (∀ (s : State) (d : LcDie) (v : Word), (s.running = true) → (s.hw.zeroising = false) → (s.is KSLOT_STAT_BUSY (onDie d.val) = false) → (bits v 28 27 = poolPon) → (bits v 11 0 < poolSize d.val poolPon) → (bits v 26 26 = 1) →
      Completes (.kslotLoadKiln d v) s (fun t => t.is KSLOT_STAT_REJ (onDie d.val) = true ∧ t.get KSLOT_STAT_REJ_CAUSE (onDie d.val) = 3 ∧ t.ciph = s.ciph)) ∧
    (∀ (s : State) (d : LcDie) (v : Word), (s.running = true) → (s.hw.zeroising = false) → (s.is KSLOT_STAT_BUSY (onDie d.val) = false) → (bits v 11 0 < poolSize d.val (bits v 28 27)) → (¬(bits v 26 26 = 1 ∧ bits v 28 27 = poolPon)) → (s.hw.ready = none ∨ s.get KILN_STAT_R_PURPOSE d0 ≠ poolPurpose (bits v 28 27) ∨ s.is KILN_STAT_R_KLEN d0 ≠ (bits v 26 26 == 1)) →
      Completes (.kslotLoadKiln d v) s (fun t => t.is KSLOT_STAT_REJ (onDie d.val) = true ∧ t.get KSLOT_STAT_REJ_CAUSE (onDie d.val) = 4 ∧ t.ciph = s.ciph ∧ t.hw = s.hw)) ∧
    (∀ (s : State) (d : LcDie) (v : Word), (s.running = true) → (s.hw.zeroising = true) →
      Completes (.kslotWrite d v) s (fun t => t.is KSLOT_STAT_REJ (onDie d.val) = true ∧ t.get KSLOT_STAT_REJ_CAUSE (onDie d.val) = 4 ∧ t.ciph = s.ciph)) ∧
    (∀ (s : State) (d : LcDie) (v : Word), (s.running = true) → (s.hw.zeroising = true) →
      Completes (.kslotLoadKiln d v) s (fun t => t.is KSLOT_STAT_REJ (onDie d.val) = true ∧ t.get KSLOT_STAT_REJ_CAUSE (onDie d.val) = 4 ∧ t.ciph = s.ciph)) ∧
    (∀ (s : State) (d : LcDie) (v : Word), (s.running = true) → (s.hw.zeroising = true) →
      Completes (.kslotErase d v) s (fun t => t.is KSLOT_STAT_REJ (onDie d.val) = true ∧ t.get KSLOT_STAT_REJ_CAUSE (onDie d.val) = 4 ∧ t.ciph = s.ciph))

/-- An OMCI message leaves its channel's buffer: one that started with EN 0 reaches the channel's DMA ring unchecked; one that started with no valid key is counted in CNT_NO_KEY, and one whose key was erased since in CNT_ERASED, and neither is delivered; one with a key is delivered where its last 4 bytes are the MIC of the rest under the copy that it started with, and otherwise is counted in CNT_OMCI_MIC with its event and is not delivered; MS_TX_COMMIT puts the transmit settings and the SCI in effect; a packet number is written and read as 64 bits through its two registers; MS_RXSC_WRITE puts both halves of a receive SCI in effect. -/
def Obligations.OmciAndMacsecStateComplete : Prop :=
    (∀ (s : State) (c : Chan) (m : OmciMsg) (l : List OmciMsg), (s.islandRuns (chanDie c.val) 5 = true) → (Tab.get s.ciph.omci [] c.val = m :: l) → (m.key = none) → (s.get DMA_STAT_STATE (place (chanDie c.val) (s.getEff PTC_OMCI_CFG_DMA_CH (atChan c.val))) ≠ 0) → (s.getEff DMA_CFG_MODE (place (chanDie c.val) (s.getEff PTC_OMCI_CFG_DMA_CH (atChan c.val))) = 1) → ((s.dmaCh (chanDie c.val) (s.getEff PTC_OMCI_CFG_DMA_CH (atChan c.val))).store = []) → (m.bytes.length ≤ 32768) →
      Completes (.omciDownstreamCheck c) s (fun t => (t.dmaCh (chanDie c.val) (s.getEff PTC_OMCI_CFG_DMA_CH (atChan c.val))).store = [{ bytes := m.bytes, buf := 0, mgt := false }] ∧ Tab.get t.ciph.omci [] c.val = l)) ∧
    (∀ (s : State) (c : Chan) (m : OmciMsg) (l : List OmciMsg) (i : Nat), (s.islandRuns (chanDie c.val) 5 = true) → (Tab.get s.ciph.omci [] c.val = m :: l) → (m.key = some ⟨i, none, false⟩) →
      Completes (.omciDownstreamCheck c) s (fun t => Tab.get t.ciph.omci [] c.val = l ∧ t.rd CIPH_CNT_NO_KEY (atChan c.val) = s.rd CIPH_CNT_NO_KEY (atChan c.val) + 1 ∧ t.dma = s.dma)) ∧
    (∀ (s : State) (c : Chan) (m : OmciMsg) (l : List OmciMsg) (i : Nat) (b : Option Bool), (s.islandRuns (chanDie c.val) 5 = true) → (Tab.get s.ciph.omci [] c.val = m :: l) → (m.key = some ⟨i, b, true⟩) →
      Completes (.omciDownstreamCheck c) s (fun t => Tab.get t.ciph.omci [] c.val = l ∧ t.rd CIPH_CNT_ERASED (atChan c.val) = s.rd CIPH_CNT_ERASED (atChan c.val) + 1 ∧ t.dma = s.dma)) ∧
    (∀ (s : State) (c : Chan) (m : OmciMsg) (l : List OmciMsg) (i : Nat) (b : Bool) (x : List Byte), (s.islandRuns (chanDie c.val) 5 = true) → (Tab.get s.ciph.omci [] c.val = m :: l) → (m.key = some ⟨i, some b, false⟩) → (m.bytes = x ++ slice (Config.omciMic ((s.slotAt (slotKey (chanDie c.val) poolPon i)).copy b).key false x) 0 4) → (s.get DMA_STAT_STATE (place (chanDie c.val) (s.getEff PTC_OMCI_CFG_DMA_CH (atChan c.val))) ≠ 0) → (s.getEff DMA_CFG_MODE (place (chanDie c.val) (s.getEff PTC_OMCI_CFG_DMA_CH (atChan c.val))) = 1) → ((s.dmaCh (chanDie c.val) (s.getEff PTC_OMCI_CFG_DMA_CH (atChan c.val))).store = []) → (m.bytes.length ≤ 32768) →
      Completes (.omciDownstreamCheck c) s (fun t => (t.dmaCh (chanDie c.val) (s.getEff PTC_OMCI_CFG_DMA_CH (atChan c.val))).store = [{ bytes := m.bytes, buf := 0, mgt := false }] ∧ Tab.get t.ciph.omci [] c.val = l)) ∧
    (∀ (s : State) (c : Chan) (m : OmciMsg) (l : List OmciMsg) (i : Nat) (b : Bool), (s.islandRuns (chanDie c.val) 5 = true) → (Tab.get s.ciph.omci [] c.val = m :: l) → (m.key = some ⟨i, some b, false⟩) → (m.bytes.length < 4 ∨ slice (Config.omciMic ((s.slotAt (slotKey (chanDie c.val) poolPon i)).copy b).key false (m.bytes.take (m.bytes.length - 4))) 0 4 ≠ m.bytes.drop (m.bytes.length - 4)) →
      Completes (.omciDownstreamCheck c) s (fun t => Tab.get t.ciph.omci [] c.val = l ∧ t.rd CIPH_CNT_OMCI_MIC (atChan c.val) = s.rd CIPH_CNT_OMCI_MIC (atChan c.val) + 1 ∧ t.is CIPH_EVT_OMCI_MIC (onDie (chanDie c.val)) = true ∧ t.dma = s.dma)) ∧
    (∀ (s : State) (p : Port), (s.running = true) →
      Completes (.msTxCommit p) s (fun t => t.rdEff CIPH_MS_TX (atPort p.val) = s.rd CIPH_MS_TX (atPort p.val) ∧ t.rdEff CIPH_MS_SCI_HI (atPort p.val) = s.rd CIPH_MS_SCI_HI (atPort p.val) ∧ t.rdEff CIPH_MS_SCI_LO (atPort p.val) = s.rd CIPH_MS_SCI_LO (atPort p.val))) ∧
    (∀ (s : State) (d : CourseDie) (i : Fin 2048) (v : Word), (s.running = true) →
      Completes (.msPnWrite d i v) s (fun t => t.nextPn (courseIdx d) i.val = (s.rd CIPH_MS_PN_HI (place (courseIdx d) i.val)).toNat * 2 ^ 32 + v.toNat)) ∧
    (∀ (s : State) (d : CourseDie) (i : Fin 2048), (s.running = true) →
      Completes (.msPnRead d i) s (fun t => t.rd CIPH_MS_PN_LO (place (courseIdx d) i.val) = BitVec.ofNat 32 (s.nextPn (courseIdx d) i.val) ∧ t.rd CIPH_MS_PN_HI (place (courseIdx d) i.val) = BitVec.ofNat 32 (s.nextPn (courseIdx d) i.val / 2 ^ 32) ∧ t.ciph = s.ciph)) ∧
    (∀ (s : State) (p : Port) (n : Fin 4) (v : Word), (s.running = true) →
      Completes (.msRxscWrite p n v) s (fun t => t.rdEff CIPH_MS_RXSC_LO (place (portDie p.val) (p.val * 4 + n.val)) = v ∧ t.rdEff CIPH_MS_RXSC_HI (place (portDie p.val) (p.val * 4 + n.val)) = s.rd CIPH_MS_RXSC_HI (place (portDie p.val) (p.val * 4 + n.val))))

/-- Each look-aside operation on an owned, well-formed head descriptor with open areas completes it: single-part GCM and CTR jobs write the text, encryptions take the slot's next IV and write it back, GCM encryption and CMAC generation write the tag, GCM decryption zeroes its output and reports TAG_FAIL where the tag differs, CMAC verification reports, contexts are saved and restored as their image; OWN is cleared, the status written, the head advanced; a doorbell looks at the head; a bus error halts the ring; a bulk job is suspended with the descriptor and the key copy it began with, and resumed. The ciphers are uninterpreted. -/
def Obligations.LookAsideOperationsComplete : Prop :=
    (∀ (s : State) (n : LineDie) (q : Fin 2) (e : Ecc) (x : LaDesc) (l : List Byte) (iv : BitVec 96) (c : LaCtx), (s.laJob n.val q.val 0 x l) → (s.laApart n.val q.val x) → (eccBad e = false) → (x.first = true) → (x.last = true) → ((s.slotAt (slotKey n.val poolLa x.slot)).valid = true) → ((Tab.get s.ciph.bulk none n.val).isNone = true) → ((s.slotAt (slotKey n.val poolLa x.slot)).now.counter.toNat ≠ 2 ^ 64 - 1) → (iv = BitVec.ofNat 96 ((s.slotAt (slotKey n.val poolLa x.slot)).now.fixedIv.toNat * 2 ^ 64 + (s.slotAt (slotKey n.val poolLa x.slot)).now.counter.toNat)) → (s.laStart n.val x iv = some c) →
      Completes (.laGcmEncrypt n q e) s (fun t => t.bytes x.dst x.len = (laPart (s.slotAt (slotKey n.val poolLa x.slot)).now x c (l.take x.aad) (l.drop x.aad)).1 ∧ s.laDone t n.val q.val laOk (beBytes 12 iv.toNat ++ [0, 0, 0, 0]) ((x.cutTag (laTag (s.slotAt (slotKey n.val poolLa x.slot)).now x (laPart (s.slotAt (slotKey n.val poolLa x.slot)).now x c (l.take x.aad) (l.drop x.aad)).2 (l.drop x.aad)))) ∧ (t.slotAt (slotKey n.val poolLa x.slot)).now.counter = (s.slotAt (slotKey n.val poolLa x.slot)).now.counter + 1)) ∧
    (∀ (s : State) (n : LineDie) (q : Fin 2) (e : Ecc) (x : LaDesc) (l : List Byte) (iv : BitVec 96) (c : LaCtx), (s.laJob n.val q.val 2 x l) → (s.laApart n.val q.val x) → (eccBad e = false) → (x.first = true) → (x.last = true) → ((s.slotAt (slotKey n.val poolLa x.slot)).valid = true) → ((Tab.get s.ciph.bulk none n.val).isNone = true) → ((s.slotAt (slotKey n.val poolLa x.slot)).now.counter.toNat ≠ 2 ^ 64 - 1) → (iv = BitVec.ofNat 96 ((s.slotAt (slotKey n.val poolLa x.slot)).now.fixedIv.toNat * 2 ^ 64 + (s.slotAt (slotKey n.val poolLa x.slot)).now.counter.toNat)) → (s.laStart n.val x iv = some c) →
      Completes (.laCtrEncrypt n q e) s (fun t => t.bytes x.dst x.len = (laPart (s.slotAt (slotKey n.val poolLa x.slot)).now x c (l.take x.aad) (l.drop x.aad)).1 ∧ s.laDone t n.val q.val laOk (beBytes 12 iv.toNat ++ [0, 0, 0, 0]) (x.tag) ∧ (t.slotAt (slotKey n.val poolLa x.slot)).now.counter = (s.slotAt (slotKey n.val poolLa x.slot)).now.counter + 1)) ∧
    (∀ (s : State) (n : LineDie) (q : Fin 2) (e : Ecc) (x : LaDesc) (l : List Byte) (iv : BitVec 96) (c : LaCtx), (s.laJob n.val q.val 1 x l) → (s.laApart n.val q.val x) → (eccBad e = false) → (x.first = true) → (x.last = true) → ((s.slotAt (slotKey n.val poolLa x.slot)).valid = true) → ((Tab.get s.ciph.bulk none n.val).isNone = true) → (iv = BitVec.ofNat 96 (beNat (x.iv.take 12))) → (s.laStart n.val x iv = some c) →
      Completes (.laGcmDecrypt n q e) s (fun t => if (x.cutTag (laTag (s.slotAt (slotKey n.val poolLa x.slot)).now x (laPart (s.slotAt (slotKey n.val poolLa x.slot)).now x c (l.take x.aad) (l.drop x.aad)).2 (l.drop x.aad))) = x.cutTag x.tag then t.bytes x.dst x.len = (laPart (s.slotAt (slotKey n.val poolLa x.slot)).now x c (l.take x.aad) (l.drop x.aad)).1 ∧ s.laDone t n.val q.val laOk (x.iv) (x.tag) else t.bytes x.dst x.len = List.replicate x.len 0 ∧ s.laDone t n.val q.val laTagFail (x.iv) (x.tag))) ∧
    (∀ (s : State) (n : LineDie) (q : Fin 2) (e : Ecc) (x : LaDesc) (l : List Byte) (iv : BitVec 96) (c : LaCtx), (s.laJob n.val q.val 3 x l) → (s.laApart n.val q.val x) → (eccBad e = false) → (x.first = true) → (x.last = true) → ((s.slotAt (slotKey n.val poolLa x.slot)).valid = true) → ((Tab.get s.ciph.bulk none n.val).isNone = true) → (iv = BitVec.ofNat 96 (beNat (x.iv.take 12))) → (s.laStart n.val x iv = some c) →
      Completes (.laCtrDecrypt n q e) s (fun t => t.bytes x.dst x.len = (laPart (s.slotAt (slotKey n.val poolLa x.slot)).now x c (l.take x.aad) (l.drop x.aad)).1 ∧ s.laDone t n.val q.val laOk (x.iv) (x.tag))) ∧
    (∀ (s : State) (n : LineDie) (q : Fin 2) (e : Ecc) (x : LaDesc) (l : List Byte) (iv : BitVec 96) (c : LaCtx), (s.laJob n.val q.val 4 x l) → (s.laApart n.val q.val x) → (eccBad e = false) → (x.first = true) → (x.last = true) → ((s.slotAt (slotKey n.val poolLa x.slot)).valid = true) → ((Tab.get s.ciph.bulk none n.val).isNone = true) → (iv = BitVec.ofNat 96 (beNat (x.iv.take 12))) → (s.laStart n.val x iv = some c) →
      Completes (.laCmacGenerate n q e) s (fun t => s.laDone t n.val q.val laOk (x.iv) ((x.cutTag (laTag (s.slotAt (slotKey n.val poolLa x.slot)).now x (laPart (s.slotAt (slotKey n.val poolLa x.slot)).now x c (l.take x.aad) (l.drop x.aad)).2 (l.drop x.aad)))))) ∧
    (∀ (s : State) (n : LineDie) (q : Fin 2) (e : Ecc) (x : LaDesc) (l : List Byte) (iv : BitVec 96) (c : LaCtx), (s.laJob n.val q.val 5 x l) → (s.laApart n.val q.val x) → (eccBad e = false) → (x.first = true) → (x.last = true) → ((s.slotAt (slotKey n.val poolLa x.slot)).valid = true) → ((Tab.get s.ciph.bulk none n.val).isNone = true) → (iv = BitVec.ofNat 96 (beNat (x.iv.take 12))) → (s.laStart n.val x iv = some c) →
      Completes (.laCmacVerify n q e) s (fun t => s.laDone t n.val q.val (if (x.cutTag (laTag (s.slotAt (slotKey n.val poolLa x.slot)).now x (laPart (s.slotAt (slotKey n.val poolLa x.slot)).now x c (l.take x.aad) (l.drop x.aad)).2 (l.drop x.aad))) = x.cutTag x.tag then laOk else laTagFail) (x.iv) (x.tag))) ∧
    (∀ (s : State) (n : LineDie) (q : Fin 2) (e : Ecc) (x : LaDesc) (l : List Byte) (c : LaCtx), (s.laJob n.val q.val 6 x l) → (s.laApart n.val q.val x) → (eccBad e = false) → (s.laCtx n.val x.ctx = some c) →
      Completes (.laContextSaveClear n q e) s (fun t => t.bytes x.dst 96 = c.image ∧ s.laDone t n.val q.val laOk (x.iv) (x.tag))) ∧
    (∀ (s : State) (n : LineDie) (q : Fin 2) (e : Ecc) (x : LaDesc) (l : List Byte) (c : LaCtx), (s.laJob n.val q.val 7 x l) → (s.laApart n.val q.val x) → (eccBad e = false) → (s.laCtx n.val x.ctx = some c) →
      Completes (.laContextSaveWrapped n q e) s (fun t => t.bytes x.dst 104 = slice (Config.ctxWrap s.hw.fuses.contextKey c.image) 0 104 ∧ s.laDone t n.val q.val laOk (x.iv) (x.tag))) ∧
    (∀ (s : State) (n : LineDie) (q : Fin 2) (e : Ecc) (x : LaDesc) (l : List Byte) (c : LaCtx), (s.laJob n.val q.val 8 x l) → (eccBad e = false) → (ctxOfImage l = some c) → ((s.slotAt (slotKey n.val poolLa c.slot)).serial = c.serial) →
      Completes (.laContextRestoreClear n q e) s (fun t => s.laDone t n.val q.val laOk x.iv x.tag ∧ t.laCtx n.val x.ctx = some c)) ∧
    (∀ (s : State) (n : LineDie) (q : Fin 2) (e : Ecc) (x : LaDesc) (l : List Byte), (s.laJob n.val q.val 9 x l) → (eccBad e = false) →
      Completes (.laContextRestoreWrapped n q e) s (fun t => s.laDone t n.val q.val (if (((Config.ctxUnwrap s.hw.fuses.contextKey l).bind ctxOfImage).filter (fun c => (s.slotAt (slotKey n.val poolLa c.slot)).serial == c.serial)).isSome then laOk else laCtxInvalid) x.iv x.tag ∧ ((((Config.ctxUnwrap s.hw.fuses.contextKey l).bind ctxOfImage).filter (fun c => (s.slotAt (slotKey n.val poolLa c.slot)).serial == c.serial)).isSome = true → t.laCtx n.val x.ctx = ((Config.ctxUnwrap s.hw.fuses.contextKey l).bind ctxOfImage).filter (fun c => (s.slotAt (slotKey n.val poolLa c.slot)).serial == c.serial)))) ∧
    (∀ (s : State) (n : LineDie) (q : Fin 2) (x : LaDesc), (s.running = true) → (s.is CIPH_LA_CFG_EN (onDie n.val) = true) → (s.is CIPH_LA_RING_EN (place n.val q.val) = true) → (bitOf (s.get CIPH_LA_STAT_HALT (onDie n.val)) q.val = false) → ((s.spanReach n.val (s.laDesc n.val q.val) 64).isOpen = true) → ((s.readSpan n.val (s.laDesc n.val q.val) 64 .clean).1.map laDecode = some x) →
      Completes (.laDoorbell n q) s (fun t => Tab.get t.ciph.waiting false (n.val * 2 + q.val) = !x.own ∧ t.mem = s.mem)) ∧
    (∀ (s : State) (n : LineDie) (q : Fin 2), (s.running = true) → (s.is CIPH_LA_CFG_EN (onDie n.val) = false ∨ s.is CIPH_LA_RING_EN (place n.val q.val) = false ∨ bitOf (s.get CIPH_LA_STAT_HALT (onDie n.val)) q.val = true) →
      Completes (.laDoorbell n q) s (fun t => Tab.get t.ciph.waiting false (n.val * 2 + q.val) = false ∧ t.mem = s.mem)) ∧
    (∀ (s : State) (n : LineDie) (q : Fin 2) (a : Addr) (w : Bool), (s.unitRuns n.val 5 = true) → (s.laRuns n.val q.val = true) →
      Completes (.laBusError n q a w true) s (fun t => bitOf (t.get CIPH_LA_STAT_HALT (onDie n.val)) q.val = true ∧ t.is CIPH_LA_ERR_DIR (onDie n.val) = w ∧ t.get CIPH_LA_ERR_ADDR (onDie n.val) = a.toNat % 2 ^ 31 ∧ t.laRuns n.val q.val = false ∧ t.mem = s.mem)) ∧
    (∀ (s : State) (n : LineDie) (j : LaBulk) (u : State), (s.unitRuns n.val 5 = true) → ((Tab.get s.ciph.bulk none n.val).isNone = true) → (s.laRuns n.val 0 = true) → (s.laOwned n.val 0 = true) → (s.laRuns n.val 1 = true) → (s.laBulkJob n.val = some (j, u)) →
      Completes (.laBulkSuspend n) s (fun t => Tab.get t.ciph.bulk none n.val = some j ∧ j.suspended = true ∧ j.second = (s.slotAt (slotKey n.val poolLa j.slot)).second ∧ (s.readSpan n.val (s.laDesc n.val 1) 64 .clean).1 = some j.desc ∧ t.mem = s.mem)) ∧
    (∀ (s : State) (n : LineDie) (j : LaBulk), (s.unitRuns n.val 5 = true) → (Tab.get s.ciph.bulk none n.val = some j) → (s.laRuns n.val 0 = true) → (s.laOwned n.val 0 = true) →
      Completes (.laBulkSuspend n) s (fun t => Tab.get t.ciph.bulk none n.val = some { j with suspended := true } ∧ t.mem = s.mem)) ∧
    (∀ (s : State) (n : LineDie) (j : LaBulk), (s.unitRuns n.val 5 = true) → (Tab.get s.ciph.bulk none n.val = some j) → (s.laOwned n.val 0 = false) →
      Completes (.laBulkResume n) s (fun t => Tab.get t.ciph.bulk none n.val = some { j with suspended := false } ∧ t.mem = s.mem))

/-- A monitor's GENERATE, WRAP, UNWRAP, DERIVE or CLEAR on an idle kiln starts with its purpose and length and shows BUSY, sets ERR 6 while a command runs and ERR 4 during a zeroisation, and starts nothing then; another level's write of any of them changes nothing; in a lifecycle with secrets, completion of GENERATE leaves a key ready and its blob in BLOB, WRAP the key of KEYIN, which it zeroes, and its blob, UNWRAP the key of the blob or ERR 1 or 3, DERIVE the key derived from the device secret and DIV, CLEAR no key; in BLANK and SCRAPPED all but CLEAR fail with ERR 2, a reserved combination of fields with ERR 3 and during a zeroisation any with ERR 4; after an UNWRAP that fails for any of these no key is ready and BLOB is unchanged; a parity error zeroes the kiln and sets ERR 5. -/
def Obligations.KilnCommandsComplete : Prop :=
    (∀ (s : State) (v : Word), (s.running = true) → (s.hw.zeroising = false) → (s.hw.kiln.isNone = true) →
      Completes (.kilnGenerate .monitor v) s (fun t => t.hw.kiln = some (0, bits v 27 26, bits v 25 25 == 1) ∧ t.is KILN_STAT_BUSY d0 = true)) ∧
    (∀ (s : State) (v : Word), (s.running = true) → (s.hw.zeroising = false) → (s.hw.kiln.isNone = true) →
      Completes (.kilnWrap .monitor v) s (fun t => t.hw.kiln = some (1, bits v 27 26, bits v 25 25 == 1) ∧ t.is KILN_STAT_BUSY d0 = true)) ∧
    (∀ (s : State) (v : Word), (s.running = true) → (s.hw.zeroising = false) → (s.hw.kiln.isNone = true) →
      Completes (.kilnUnwrap .monitor v) s (fun t => t.hw.kiln = some (2, bits v 27 26, bits v 25 25 == 1) ∧ t.is KILN_STAT_BUSY d0 = true)) ∧
    (∀ (s : State) (v : Word), (s.running = true) → (s.hw.zeroising = false) → (s.hw.kiln.isNone = true) →
      Completes (.kilnDerive .monitor v) s (fun t => t.hw.kiln = some (3, bits v 27 26, bits v 25 25 == 1) ∧ t.is KILN_STAT_BUSY d0 = true)) ∧
    (∀ (s : State) (v : Word), (s.running = true) → (s.hw.zeroising = false) → (s.hw.kiln.isNone = true) →
      Completes (.kilnClear .monitor v) s (fun t => t.hw.kiln = some (4, bits v 27 26, bits v 25 25 == 1) ∧ t.is KILN_STAT_BUSY d0 = true)) ∧
    (∀ (s : State) (v : Word) (l : Level), (s.running = true) → (l ≠ .monitor) →
      Completes (.kilnGenerate l v) s (fun t => t = s)) ∧
    (∀ (s : State) (v : Word) (l : Level), (s.running = true) → (l ≠ .monitor) →
      Completes (.kilnWrap l v) s (fun t => t = s)) ∧
    (∀ (s : State) (v : Word) (l : Level), (s.running = true) → (l ≠ .monitor) →
      Completes (.kilnUnwrap l v) s (fun t => t = s)) ∧
    (∀ (s : State) (v : Word) (l : Level), (s.running = true) → (l ≠ .monitor) →
      Completes (.kilnDerive l v) s (fun t => t = s)) ∧
    (∀ (s : State) (v : Word) (l : Level), (s.running = true) → (l ≠ .monitor) →
      Completes (.kilnClear l v) s (fun t => t = s)) ∧
    (∀ (s : State) (v : Word), (s.running = true) → (s.hw.zeroising = true) →
      Completes (.kilnGenerate .monitor v) s (fun t => t.get KILN_STAT_ERR d0 = 4 ∧ t.hw = s.hw)) ∧
    (∀ (s : State) (v : Word), (s.running = true) → (s.hw.zeroising = true) →
      Completes (.kilnWrap .monitor v) s (fun t => t.get KILN_STAT_ERR d0 = 4 ∧ t.hw = s.hw)) ∧
    (∀ (s : State) (v : Word), (s.running = true) → (s.hw.zeroising = true) →
      Completes (.kilnUnwrap .monitor v) s (fun t => t.get KILN_STAT_ERR d0 = 4 ∧ t.hw = s.hw)) ∧
    (∀ (s : State) (v : Word), (s.running = true) → (s.hw.zeroising = true) →
      Completes (.kilnDerive .monitor v) s (fun t => t.get KILN_STAT_ERR d0 = 4 ∧ t.hw = s.hw)) ∧
    (∀ (s : State) (v : Word), (s.running = true) → (s.hw.zeroising = true) →
      Completes (.kilnClear .monitor v) s (fun t => t.get KILN_STAT_ERR d0 = 4 ∧ t.hw = s.hw)) ∧
    (∀ (s : State) (v : Word), (s.running = true) → (s.hw.zeroising = false) → (s.hw.kiln.isSome = true) →
      Completes (.kilnGenerate .monitor v) s (fun t => t.get KILN_STAT_ERR d0 = 6 ∧ t.hw = s.hw)) ∧
    (∀ (s : State) (v : Word), (s.running = true) → (s.hw.zeroising = false) → (s.hw.kiln.isSome = true) →
      Completes (.kilnWrap .monitor v) s (fun t => t.get KILN_STAT_ERR d0 = 6 ∧ t.hw = s.hw)) ∧
    (∀ (s : State) (v : Word), (s.running = true) → (s.hw.zeroising = false) → (s.hw.kiln.isSome = true) →
      Completes (.kilnUnwrap .monitor v) s (fun t => t.get KILN_STAT_ERR d0 = 6 ∧ t.hw = s.hw)) ∧
    (∀ (s : State) (v : Word), (s.running = true) → (s.hw.zeroising = false) → (s.hw.kiln.isSome = true) →
      Completes (.kilnDerive .monitor v) s (fun t => t.get KILN_STAT_ERR d0 = 6 ∧ t.hw = s.hw)) ∧
    (∀ (s : State) (v : Word), (s.running = true) → (s.hw.zeroising = false) → (s.hw.kiln.isSome = true) →
      Completes (.kilnClear .monitor v) s (fun t => t.get KILN_STAT_ERR d0 = 6 ∧ t.hw = s.hw)) ∧
    (∀ (s : State) (p : Nat) (b : Bool), (s.hw.alive = true) → (s.hw.zeroising = false) → (s.hw.kiln = some (0, p, b)) → (s.hw.fuses.lifecycle = 1 ∨ s.hw.fuses.lifecycle = 2) → (kilnFieldsOk 0 p b = true) →
      Completes (.kilnCommandDone) s (fun t => t.hw.ready = some (keyField b (BitVec.ofNat 256 (Config.drbg s.fresh))) ∧ (∀ i < 12, t.rd KILN_BLOB (d0i i) = (wordsOfBytes 12 (s.hw.fuses.blob p b (leBytes 4 (s.rd KILN_DIV d0).toNat) (keyField b (BitVec.ofNat 256 (Config.drbg s.fresh))))).getD i 0) ∧ t.is KILN_STAT_READY d0 = true ∧ t.get KILN_STAT_R_PURPOSE d0 = p % 4 ∧ t.is KILN_STAT_R_KLEN d0 = b ∧ t.is KILN_STAT_BUSY d0 = false ∧ t.get KILN_STAT_ERR d0 = 0)) ∧
    (∀ (s : State) (p : Nat) (b : Bool), (s.hw.alive = true) → (s.hw.zeroising = false) → (s.hw.kiln = some (1, p, b)) → (s.hw.fuses.lifecycle = 1 ∨ s.hw.fuses.lifecycle = 2) → (kilnFieldsOk 1 p b = true) →
      Completes (.kilnCommandDone) s (fun t => t.hw.ready = some (keyField b (BitVec.ofNat 256 ((s.words KILN_KEYIN 8).foldl (fun a w => a * 2 ^ 32 + w.toNat) 0))) ∧ (∀ i < 12, t.rd KILN_BLOB (d0i i) = (wordsOfBytes 12 (s.hw.fuses.blob p b (leBytes 4 (s.rd KILN_DIV d0).toNat) (keyField b (BitVec.ofNat 256 ((s.words KILN_KEYIN 8).foldl (fun a w => a * 2 ^ 32 + w.toNat) 0))))).getD i 0) ∧ t.is KILN_STAT_READY d0 = true ∧ t.get KILN_STAT_R_PURPOSE d0 = p % 4 ∧ t.is KILN_STAT_R_KLEN d0 = b ∧ t.is KILN_STAT_BUSY d0 = false ∧ t.get KILN_STAT_ERR d0 = 0 ∧ ∀ i < 8, t.rd KILN_KEYIN (d0i i) = 0)) ∧
    (∀ (s : State) (p : Nat) (b : Bool), (s.hw.alive = true) → (s.hw.zeroising = false) → (s.hw.kiln = some (2, p, b)) → (s.hw.fuses.lifecycle = 1 ∨ s.hw.fuses.lifecycle = 2) → (kilnFieldsOk 2 p b = true) →
      Completes (.kilnCommandDone) s (fun t => t.hw.ready = (s.kilnUnwrap p b).elim (fun k => some (keyField b k)) (fun _ => none) ∧ t.is KILN_STAT_READY d0 = (s.kilnUnwrap p b).isLeft ∧ t.get KILN_STAT_ERR d0 = (s.kilnUnwrap p b).elim (fun _ => 0) (fun e => e % 8) ∧ t.hw.kiln = none ∧ ((s.kilnUnwrap p b).isLeft = true → t.get KILN_STAT_R_PURPOSE d0 = p % 4 ∧ t.is KILN_STAT_R_KLEN d0 = b) ∧ ∀ i < 12, t.rd KILN_BLOB (d0i i) = s.rd KILN_BLOB (d0i i))) ∧
    (∀ (s : State) (p : Nat) (b : Bool), (s.hw.alive = true) → (s.hw.zeroising = false) → (s.hw.kiln = some (3, p, b)) → (s.hw.fuses.lifecycle = 1 ∨ s.hw.fuses.lifecycle = 2) → (kilnFieldsOk 3 p b = true) →
      Completes (.kilnCommandDone) s (fun t => t.hw.ready = some (keyField b (s.hw.fuses.derive [0x4B, 0x44, 0x52, 0x56] (s.hw.fuses.lcByte :: (leBytes 4 (s.rd KILN_DIV d0).toNat)))) ∧ t.is KILN_STAT_READY d0 = true ∧ t.get KILN_STAT_R_PURPOSE d0 = p % 4 ∧ t.is KILN_STAT_R_KLEN d0 = b ∧ t.is KILN_STAT_BUSY d0 = false ∧ t.get KILN_STAT_ERR d0 = 0)) ∧
    (∀ (s : State) (p : Nat) (b : Bool), (s.hw.alive = true) → (s.hw.zeroising = false) → (s.hw.kiln = some (4, p, b)) →
      Completes (.kilnCommandDone) s (fun t => t.hw.ready = none ∧ t.is KILN_STAT_READY d0 = false ∧ t.get KILN_STAT_ERR d0 = 0 ∧ t.hw.kiln = none)) ∧
    (∀ (s : State) (p : Nat) (b : Bool) (op : Nat), (s.hw.alive = true) → (s.hw.zeroising = false) → (s.hw.kiln = some (op, p, b)) → (op ≠ 4) → (s.hw.fuses.lifecycle = 0 ∨ s.hw.fuses.lifecycle = 3) →
      Completes (.kilnCommandDone) s (fun t => t.hw.ready = (if op = 2 then none else s.hw.ready) ∧ t.get KILN_STAT_ERR d0 = 2 ∧ t.hw.kiln = none ∧ ((op = 2 → (∀ i < 12, t.rd KILN_BLOB (d0i i) = s.rd KILN_BLOB (d0i i)))))) ∧
    (∀ (s : State) (p : Nat) (b : Bool) (op : Nat), (s.hw.alive = true) → (s.hw.zeroising = false) → (s.hw.kiln = some (op, p, b)) → (op ≠ 4) → (s.hw.fuses.lifecycle = 1 ∨ s.hw.fuses.lifecycle = 2) → (kilnFieldsOk op p b = false) →
      Completes (.kilnCommandDone) s (fun t => t.hw.ready = (if op = 2 then none else s.hw.ready) ∧ t.get KILN_STAT_ERR d0 = 3 ∧ t.hw.kiln = none ∧ ((op = 2 → (∀ i < 12, t.rd KILN_BLOB (d0i i) = s.rd KILN_BLOB (d0i i)))))) ∧
    (∀ (s : State) (p : Nat) (b : Bool) (op : Nat), (s.hw.alive = true) → (s.hw.zeroising = true) → (s.hw.kiln = some (op, p, b)) →
      Completes (.kilnCommandDone) s (fun t => t.hw.ready = (if op = 2 then none else s.hw.ready) ∧ t.get KILN_STAT_ERR d0 = 4 ∧ t.hw.kiln = none ∧ ((op = 2 → (∀ i < 12, t.rd KILN_BLOB (d0i i) = s.rd KILN_BLOB (d0i i)))))) ∧
    (∀ (s : State), (s.hw.alive = true) →
      Completes (.kilnParityError) s (fun t => t.hw.ready = none ∧ t.hw.kiln = none ∧ t.get KILN_STAT_ERR d0 = 5 ∧ t.rd KILN_DIV d0 = 0 ∧ (∀ i < 12, t.rd KILN_BLOB (d0i i) = 0) ∧ ∀ i < 8, t.rd KILN_KEYIN (d0i i) = 0))

/-- In a freeze, a request for a level above the one held starts the sequence at once in BLANK or SCRAPPED and otherwise leaves a 64-byte challenge, and drops a check under way; outside its conditions it is refused with result 6 and discards the challenge; an answer is taken with its 192 bytes; an authentic answer starts the sequence, at Z1 for OPEN and Z2 for OBSERVE, and any other counts a failure and locks the gate at the eighth; each step has its effect: Z1 burns the lifecycle bit of a SECURE part or records that it did not burn, Z2 zeroes the kiln's ready key, KEYIN and BLOB and all staging, Z3 every slot and held write, Z4 the contexts and the suspend store, Z5 the L1 data caches and store buffers, Z6 each enabled secret region that lies as it must, with SRGN_BAD for one that does not, Z7 records a word that was not zero; and the next follows, OBSERVE skipping Z5 and Z6, or none and result 5 once a thaw has ended the request; Z8 grants the level unless a fuse or a zero check failed. -/
def Obligations.DebugGateAndZeroisationComplete : Prop :=
    (∀ (s : State) (l : Fin 4), (s.hw.alive = true) → (s.is FRZ_STATUS_FROZEN d0 = true) → (s.hw.dbg.locked = false) → (s.hw.dbg.seq.isNone = true) → (l.val = 1 ∨ l.val = 2) → (s.hw.dbg.level < l.val) → (s.hw.fuses.lifecycle = 1 ∨ s.hw.fuses.lifecycle = 2) →
      Completes (.dbgReq l) s (fun t => t.hw.dbg.chal = some (l.val, s.challenge l.val (Config.drbg s.fresh)) ∧ (s.challenge l.val (Config.drbg s.fresh)).length = 64 ∧ t.hw.dbg.result = 0 ∧ t.hw.dbg.seq = none ∧ t.hw.dbg.checking = none)) ∧
    (∀ (s : State) (l : Fin 4), (s.hw.alive = true) → (s.is FRZ_STATUS_FROZEN d0 = true) → (s.hw.dbg.locked = false) → (s.hw.dbg.seq.isNone = true) → (l.val = 1 ∨ l.val = 2) → (s.hw.dbg.level < l.val) → (s.hw.fuses.lifecycle = 0 ∨ s.hw.fuses.lifecycle = 3) →
      Completes (.dbgReq l) s (fun t => t.hw.dbg.seq = some (if l.val = 2 then 1 else 2, l.val) ∧ t.hw.dbg.result = 0 ∧ t.hw.dbg.chal = none ∧ t.hw.dbg.checking = none)) ∧
    (∀ (s : State) (l : Fin 4), (s.hw.alive = true) → (s.is FRZ_STATUS_FROZEN d0 = false ∨ s.hw.dbg.locked = true ∨ s.hw.dbg.seq.isSome = true ∨ l.val = 0 ∨ l.val = 3 ∨ l.val ≤ s.hw.dbg.level) →
      Completes (.dbgReq l) s (fun t => t.hw.dbg = { s.hw.dbg with result := 6, chal := none })) ∧
    (∀ (s : State) (r c : List Byte) (l : Nat), (s.hw.alive = true) → (s.hw.dbg.chal = some (l, c)) → (s.hw.dbg.seq.isNone = true) →
      Completes (.dbgResp r) s (fun t => t.hw.dbg.checking = some (l, c, slice r 0 192) ∧ t.hw.dbg.chal = none)) ∧
    (∀ (s : State) (r c : List Byte) (l : Nat), (s.hw.alive = true) → (s.hw.dbg.checking = some (l, c, r)) →
      Completes (.dbgAuthDone) s (fun t => if s.hw.fuses.authentic l c r then t.hw.dbg.seq = some (if l = 2 then 1 else 2, l) ∧ t.hw.dbg.fails = s.hw.dbg.fails else t.hw.dbg.fails = s.hw.dbg.fails + 1 ∧ t.hw.dbg.locked = (s.hw.dbg.locked || decide (8 ≤ s.hw.dbg.fails + 1)) ∧ t.hw.dbg.result = 2 ∧ t.hw.dbg.seq = s.hw.dbg.seq)) ∧
    (∀ (s : State) (k l : Nat) (ok : Bool), (s.hw.alive = true) → (s.hw.dbg.seq = some (k, l)) → (k ≤ 7) → (l ≠ 0) →
      Completes (.zeroisationStep ok) s (fun t => t.hw.dbg.seq = some (nextZ k l, l) ∧ t.hw.dbg.level = s.hw.dbg.level)) ∧
    (∀ (s : State) (l : Nat) (ok : Bool), (s.hw.alive = true) → (s.hw.dbg.seq = some (2, l)) →
      Completes (.zeroisationStep ok) s (fun t => t.hw.ready = none ∧ (∀ i < 12, t.rd KILN_BLOB (d0i i) = 0) ∧ (∀ i < 8, t.rd KILN_KEYIN (d0i i) = 0) ∧ ∀ d < 6, present s.part d = true → ∀ i < 12, t.rd KSLOT_STAGE (place d i) = 0)) ∧
    (∀ (s : State) (l n : Nat) (ok : Bool), (s.hw.alive = true) → (s.hw.dbg.seq = some (4, l)) →
      Completes (.zeroisationStep ok) s (fun t => t.ciph.ctx = [] ∧ t.get CIPH_LA_CTX_STAT_V (onDie 0) = 0 ∧ t.get CIPH_LA_CTX_STAT_V (onDie 1) = 0 ∧ (Tab.get t.ciph.bulk none n).all (fun j => j.start.counter == 0 && j.start.acc == 0 && j.start.iv == 0 && j.iv == List.replicate j.iv.length 0) = true)) ∧
    (∀ (s : State) (l k n : Nat) (ok : Bool), (s.hw.alive = true) → (s.hw.dbg.seq = some (5, l)) →
      Completes (.zeroisationStep ok) s (fun t => (t.lineAt (.data n) k).all (fun x => x.bytes == List.replicate 64 0) = true ∧ (t.core n).sb = [])) ∧
    (∀ (s : State) (l k a : Nat) (ok : Bool), (s.hw.alive = true) → (s.hw.dbg.seq = some (6, l)) → (k < 8) → (s.is HW_SRGN_CTL_EN (d0i k) = true) → (s.secretOk (s.secretRegion k).1 (s.secretRegion k).2 = true) → ((s.secretRegion k).1 ≤ a) → (a < (s.secretRegion k).1 + (s.secretRegion k).2) →
      Completes (.zeroisationStep ok) s (fun t => t.byte a = 0)) ∧
    (∀ (s : State) (l k : Nat) (ok : Bool), (s.hw.alive = true) → (s.hw.dbg.seq = some (6, l)) → (k < 8) → (s.is HW_SRGN_CTL_EN (d0i k) = true) → (s.secretOk (s.secretRegion k).1 (s.secretRegion k).2 = false) →
      Completes (.zeroisationStep ok) s (fun t => t.is HW_SEC_EVT_SRGN_BAD d0 = true)) ∧
    (∀ (s : State) (l a : Nat) (ok : Bool), (s.hw.alive = true) → (s.hw.dbg.seq = some (6, l)) → (∀ k < 8, s.is HW_SRGN_CTL_EN (d0i k) = true → ¬((s.secretRegion k).1 ≤ a ∧ a < (s.secretRegion k).1 + (s.secretRegion k).2)) →
      Completes (.zeroisationStep ok) s (fun t => t.byte a = s.byte a)) ∧
    (∀ (s : State) (l : Nat) (ok : Bool), (s.hw.alive = true) → (s.hw.dbg.seq = some (7, l)) →
      Completes (.zeroisationStep ok) s (fun t => t.hw.dbg.zeroFail = (s.hw.dbg.zeroFail || !ok))) ∧
    (∀ (s : State) (l : Nat), (s.hw.alive = true) → (s.hw.dbg.seq = some (1, l)) → (s.hw.fuses.lifecycle = 1) →
      Completes (.zeroisationStep false) s (fun t => t.hw.fuses.lifecycle = 1 ∧ t.hw.dbg.fuseFail = true)) ∧
    (∀ (s : State) (l : Nat), (s.hw.alive = true) → (s.hw.dbg.seq = some (1, l)) → (s.hw.fuses.lifecycle = 1) →
      Completes (.zeroisationStep true) s (fun t => t.hw.fuses.lifecycle = 2)) ∧
    (∀ (s : State) (l k : Nat) (ok : Bool), (s.hw.alive = true) → (s.hw.dbg.seq = some (3, l)) →
      Completes (.zeroisationStep ok) s (fun t => (t.slotAt k).valid = false ∧ (t.slotAt k).a.key = 0 ∧ (t.slotAt k).b.key = 0 ∧ t.ciph.held = [])) ∧
    (∀ (s : State) (l k : Nat) (ok : Bool), (s.hw.alive = true) → (s.hw.dbg.seq = some (k, l)) → (l = 0) →
      Completes (.zeroisationStep ok) s (fun t => t.hw.dbg.seq = none ∧ t.hw.dbg.result = 5 ∧ t.hw.dbg.level = s.hw.dbg.level ∧ t.hw.openGranted = s.hw.openGranted)) ∧
    (∀ (s : State) (l : Nat) (ok : Bool), (s.hw.alive = true) → (l ≠ 0) → (s.hw.dbg.seq = some (8, l)) → (s.hw.dbg.fuseFail = false) → (s.hw.dbg.zeroFail = false) →
      Completes (.zeroisationStep ok) s (fun t => t.hw.dbg.level = l ∧ t.hw.dbg.result = 1 ∧ t.hw.dbg.seq = none ∧ (l = 2 → t.hw.openGranted = true))) ∧
    (∀ (s : State) (l : Nat) (ok : Bool), (s.hw.alive = true) → (l ≠ 0) → (s.hw.dbg.seq = some (8, l)) → (s.hw.dbg.fuseFail = true ∨ s.hw.dbg.zeroFail = true) →
      Completes (.zeroisationStep ok) s (fun t => t.hw.dbg.level = s.hw.dbg.level ∧ t.hw.dbg.result = (if s.hw.dbg.fuseFail then 3 else 4) ∧ t.hw.openGranted = s.hw.openGranted))

/-- A read of a ready reservoir or packet SRAM that finds no uncorrectable error answers its bytes after 120 or 16 mc and a write stores them and is acknowledged after 30 or 8 mc; a reservoir read that finds one answers an error, or ends the frame that its MAC sends, or else the next, with an inverted FCS, counted in CNT_UE_TX; while READY is 0 both answer an error and no memory changes; enabling a packet buffer starts its initialisation, at whose end every byte reads 0, READY is 1 and every cell in service is free; disabling it clears READY and FREE; a scrub read whose turn it is goes on to the next block, and one of an uncorrectable exact-match entry, counter pair or frame of the eddy clears or drops it; one without an error, and one whose turn it is not, changes no memory. -/
def Obligations.PacketMemoryAccessesComplete : Prop :=
    (∀ (s : State) (d : Die) (q : Requester) (off : BitVec 36) (k : Fin 4) (e : Ecc), (s.running = true) → (eccBad e = false) → (6 ≤ d.val) → (s.hasBuffer d.val = true) → (s.region d.val off.toNat = .reservoir) →
      Completes (.reservoirRead d (.req q) off k e) s (fun t => t.answerOf (reqCode q) = { data := BitVec.ofNat 64 (s.load (d.val * 2 ^ 36 + off.toNat) (2 ^ k.val)), err := false, count := 120 } ∧ t.mem = s.mem)) ∧
    (∀ (s : State) (d : Die) (q : Requester) (off : BitVec 36) (k : Fin 4) (v : BitVec 64), (s.running = true) → (6 ≤ d.val) → (s.hasBuffer d.val = true) → (s.region d.val off.toNat = .reservoir) →
      Completes (.reservoirWrite d q off k v) s (fun t => t.mem = (s.store (d.val * 2 ^ 36 + off.toNat) (2 ^ k.val) v.toNat).mem ∧ t.answerOf (reqCode q) = { count := 30 })) ∧
    (∀ (s : State) (q : Requester) (off : BitVec 36) (k : Fin 4) (e : Ecc), (s.running = true) → (eccBad e = false) → (s.hasBuffer 2 = true) → (s.region 2 off.toNat = .sram) →
      Completes (.packetSramRead (.req q) off k e) s (fun t => t.answerOf (reqCode q) = { data := BitVec.ofNat 64 (s.load (2 * 2 ^ 36 + off.toNat) (2 ^ k.val)), err := false, count := 16 } ∧ t.mem = s.mem)) ∧
    (∀ (s : State) (q : Requester) (off : BitVec 36) (k : Fin 4) (v : BitVec 64), (s.running = true) → (s.hasBuffer 2 = true) → (s.region 2 off.toNat = .sram) →
      Completes (.packetSramWrite q off k v) s (fun t => t.mem = (s.store (2 * 2 ^ 36 + off.toNat) (2 ^ k.val) v.toNat).mem ∧ t.answerOf (reqCode q) = { count := 8 })) ∧
    (∀ (s : State) (d : Die) (q : Requester) (off : BitVec 36) (k : Fin 4) (a b : Byte), (s.running = true) → (6 ≤ d.val) → (s.hasBuffer d.val = true) → (s.region d.val off.toNat = .reservoir) →
      Completes (.reservoirRead d (.req q) off k (.bad a b)) s (fun t => (t.answerOf (reqCode q)).err = true ∧ t.mem = s.mem)) ∧
    (∀ (s : State) (d : Die) (p : Port) (off : BitVec 36) (k : Fin 4) (a b : Byte) (f : TxFrame) (l : List TxFrame), (s.running = true) → (6 ≤ d.val) → (s.hasBuffer d.val = true) → (s.region d.val off.toNat = .reservoir) → ((s.mac p.val).sending = none) → ((s.mac p.val).tx = f :: l) →
      Completes (.reservoirRead d (.mac (.port p)) off k (.bad a b)) s (fun t => (t.mac p.val).tx = { f with bad := true } :: l ∧ t.rd RSV_CNT_UE_TX (onDie (portDie p.val)) = s.rd RSV_CNT_UE_TX (onDie (portDie p.val)) + 1)) ∧
    (∀ (s : State) (d : Die) (p : Port) (off : BitVec 36) (k : Fin 4) (a b : Byte) (f : Sending), (s.running = true) → (6 ≤ d.val) → (s.hasBuffer d.val = true) → (s.region d.val off.toNat = .reservoir) → ((s.mac p.val).sending = some f) → (f.pause = false) →
      Completes (.reservoirRead d (.mac (.port p)) off k (.bad a b)) s (fun t => (t.mac p.val).sending = some f.spoil ∧ f.spoil.bad = true ∧ t.rd RSV_CNT_UE_TX (onDie (portDie p.val)) = s.rd RSV_CNT_UE_TX (onDie (portDie p.val)) + 1)) ∧
    (∀ (s : State) (d : Die) (q : Requester) (off : BitVec 36) (k : Fin 4) (e : Ecc), (s.running = true) → (6 ≤ d.val) → (s.hasBuffer d.val = true) → (s.is RSV_STAT_READY (onDie d.val) = false) →
      Completes (.reservoirRead d (.req q) off k e) s (fun t => (t.answerOf (reqCode q)).err = true ∧ t.mem = s.mem)) ∧
    (∀ (s : State) (d : Die) (q : Requester) (off : BitVec 36) (k : Fin 4) (v : BitVec 64), (s.running = true) → (6 ≤ d.val) → (s.hasBuffer d.val = true) → (s.is RSV_STAT_READY (onDie d.val) = false) →
      Completes (.reservoirWrite d q off k v) s (fun t => (t.answerOf (reqCode q)).err = true ∧ t.mem = s.mem)) ∧
    (∀ (s : State) (d : Die) (v : Word), (s.running = true) → (s.is RSV_CTL_EN (onDie d.val) = false) → (bits v 31 31 = 1) → (s.hasBuffer d.val = true) →
      Completes (.rsvEnable d v) s (fun t => t.is RSV_CTL_EN (onDie d.val) = true ∧ (t.guard d.val 0).initing = true ∧ t.is RSV_STAT_READY (onDie d.val) = s.is RSV_STAT_READY (onDie d.val))) ∧
    (∀ (s : State) (d : Die), (s.unitRuns d.val 0 = true) → ((s.guard d.val 0).initing = true) →
      Completes (.rsvInitDone d) s (fun t => t.is RSV_STAT_READY (onDie d.val) = true ∧ (t.guard d.val 0).initing = false ∧ ∀ i < bufferSize d.val, t.byte (d.val * 2 ^ 36 + i) = 0)) ∧
    (∀ (s : State) (d : Die), (s.unitRuns d.val 0 = true) → ((s.guard d.val 0).initing = true) → (s.get RSV_LOST_CELLS_V (onDie d.val) = 0) →
      Completes (.rsvInitDone d) s (fun t => t.get RSV_FREE_V (onDie d.val) = s.get RSV_CAPACITY_V (onDie d.val) % 2 ^ 25)) ∧
    (∀ (s : State) (d : Die) (v : Word), (s.running = true) → (s.is RSV_CTL_EN (onDie d.val) = true) → (bits v 31 31 = 0) → (s.hasBuffer d.val = true) →
      Completes (.rsvDisable d v) s (fun t => t.is RSV_STAT_READY (onDie d.val) = false ∧ t.get RSV_FREE_V (onDie d.val) = 0 ∧ (t.guard d.val 0).initing = false)) ∧
    (∀ (s : State) (d : Die) (i : Fin 524288) (a b : Byte), (s.running = true) → (s.hasScrub d.val (.exact i) = true) → (s.scrubTurn d.val (.exact i) = true) →
      Completes (.scrubRead d (.exact i) (.bad a b)) s (fun t => (t.emEntry d.val i.val).g1 = false ∧ (t.emEntry d.val i.val).g0 = false ∧ (t.emEntry d.val i.val).key = (s.emEntry d.val i.val).key)) ∧
    (∀ (s : State) (d : Die) (i : Fin 262144) (a b : Byte), (s.running = true) → (s.hasScrub d.val (.pair i) = true) → (s.scrubTurn d.val (.pair i) = true) →
      Completes (.scrubRead d (.pair i) (.bad a b)) s (fun t => t.pair d.val i.val = (0, 0))) ∧
    (∀ (s : State) (d : Die) (i : Nat) (e : EddyPkt) (a b : Byte), (s.running = true) → (s.hasScrub d.val (.eddy i) = true) → (s.scrubTurn d.val (.eddy i) = true) → ((Tab.get s.pipe.eddy [] d.val)[i]? = some e) →
      Completes (.scrubRead d (.eddy i) (.bad a b)) s (fun t => Tab.get t.pipe.eddy [] d.val = (Tab.get s.pipe.eddy [] d.val).eraseIdx i ∧ t.rd MEM_CNT_UE_DROP (onDie d.val) = s.rd MEM_CNT_UE_DROP (onDie d.val) + 1)) ∧
    (∀ (s : State) (d : Die) (x : ScrubAt), (s.running = true) →
      Completes (.scrubRead d x .clean) s (fun t => t.mem = s.mem ∧ t.pipe = s.pipe ∧ t.tm = s.tm ∧ t.dram.bufs = s.dram.bufs)) ∧
    (∀ (s : State) (d : Die) (x : ScrubAt) (v : ScrubVisit), (s.running = true) → (s.hasScrub d.val x = true) → (s.scrubTurn d.val x = true) → (scrubVisit d.val x = some v) →
      Completes (.scrubRead d x .clean) s (fun t => Tab.get (t.guard d.val v.b).scrub 0 v.key = (Tab.get (s.guard d.val v.b).scrub 0 v.key + 1) % v.all)) ∧
    (∀ (s : State) (d : Die) (x : ScrubAt) (e : Ecc), (s.running = true) → (s.hasScrub d.val x = false ∨ s.scrubTurn d.val x = false) →
      Completes (.scrubRead d x e) s (fun t => t.mem = s.mem ∧ t.pipe = s.pipe ∧ t.tm = s.tm ∧ t.dram = s.dram ∧ t.bond = s.bond))

/-- A waiting row of a maintained memory whose scratch row is unused comes under test; a row that passes returns to service; one that fails is served by its bank's next spare row, which the map shows, and one of a packet buffer with none left retires with its four cells, free ones at once; a test of a memory that is not maintained does not end; a queue-state bank copied to the spare bank frees its scratch row, is recorded, and its own spare rows are in use no longer; a scratch row whose queues are empty is released with its event; ELOG_POP removes the head of the log and shows the next; the window reads and writes spare and retirement entries inside their tables, refuses the rest with REJ and any write while it is closed, and LOCK closes MEM's. -/
def Obligations.SelfTestsAndSparesComplete : Prop :=
    (∀ (s : State) (d : Die) (b : Fin 2) (m : Fin 32) (x : TestRow), (s.running = true) → (s.maintained d.val b.val = true) → ((Tab.get (s.guard d.val b.val).testing none m.val).isNone = true) → ((Tab.get (s.guard d.val b.val).waiting [] m.val).find? (fun t => (Tab.get (s.guard d.val b.val).scratch none t.row.bank).isNone) = some x) →
      Completes (.selfTestStart d b m) s (fun t => Tab.get (t.guard d.val b.val).testing none m.val = some x ∧ Tab.get (t.guard d.val b.val).waiting [] m.val = (Tab.get (s.guard d.val b.val).waiting [] m.val).erase x)) ∧
    (∀ (s : State) (d : Die) (b : Fin 2) (m : Fin 32) (x : TestRow) (l : List Nat), (s.running = true) → (Tab.get (s.guard d.val b.val).testing none m.val = some x) → (s.maintained d.val b.val = true) →
      Completes (.selfTestEnd d b m true l) s (fun t => Tab.get (t.guard d.val b.val).testing none m.val = none ∧ (t.guard d.val b.val).spares = (s.guard d.val b.val).spares ∧ (t.guard d.val b.val).retired = (s.guard d.val b.val).retired)) ∧
    (∀ (s : State) (d : Die) (b : Fin 2) (m : Fin 32) (x : TestRow) (l : List Nat) (i : Nat), (s.running = true) → (Tab.get (s.guard d.val b.val).testing none m.val = some x) → (s.maintained d.val b.val = true) → ((s.failSpare d.val b.val x.row).nextSpare d.val b.val x.row.bank = some i) →
      Completes (.selfTestEnd d b m false l) s (fun t => Tab.get (t.guard d.val b.val).testing none m.val = none ∧ Tab.get (t.guard d.val b.val).spares 0 (s.spareOf d.val b.val x.row.bank i) = mapEntry x.row.row ∧ (t.guard d.val b.val).retired = (s.guard d.val b.val).retired)) ∧
    (∀ (s : State) (d : Die) (m : Fin 32) (x : TestRow), (s.running = true) → (Tab.get (s.guard d.val 0).testing none m.val = some x) → (s.maintained d.val 0 = true) → ((s.failSpare d.val 0 x.row).nextSpare d.val 0 x.row.bank = none) → (4 ≤ s.get RSV_FREE_V (onDie d.val)) → (4 ≤ s.get RSV_CAPACITY_V (onDie d.val)) → ((List.range (retireSize s.part d.val 0)).find? (fun i => bits (Tab.get (s.guard d.val 0).retired 0 i) 31 31 == 0) = some 0) →
      Completes (.selfTestEnd d 0 m false []) s (fun t => Tab.get (t.guard d.val 0).testing none m.val = none ∧ t.get RSV_CAPACITY_V (onDie d.val) = s.get RSV_CAPACITY_V (onDie d.val) - 4 ∧ t.get RSV_FREE_V (onDie d.val) = s.get RSV_FREE_V (onDie d.val) - 4 ∧ Tab.get (t.guard d.val 0).retired 0 0 = retireEntry x.row)) ∧
    (∀ (s : State) (d : Die) (b : Fin 2) (m : Fin 32) (x : TestRow) (p : Bool) (l : List Nat), (s.running = true) → (Tab.get (s.guard d.val b.val).testing none m.val = some x) → (s.maintained d.val b.val = false) →
      Completes (.selfTestEnd d b m p l) s (fun t => t.dram = s.dram)) ∧
    (∀ (s : State) (d : CourseDie) (x : TestRow), (s.running = true) → ((s.guard (courseIdx d) 1).copying = some x) → (x.row.bank < 16) →
      Completes (.spareBankCopyDone d) s (fun t => (t.guard (courseIdx d) 1).copying = none ∧ Tab.get (t.guard (courseIdx d) 1).scratch none x.row.bank = none ∧ bits (Tab.get (t.guard (courseIdx d) 1).spares 0 (spareKey 0x1FF 0)) 17 0 = x.row.bank ∧ bits (Tab.get (t.guard (courseIdx d) 1).spares 0 (spareKey 0x1FF 0)) 31 29 = 5 ∧ t.is MEM_STAT_SPARE_BANK (onDie (courseIdx d)) = true ∧ t.get MEM_STAT_SB_BANK (onDie (courseIdx d)) = x.row.bank ∧ ∀ i < 64, x.row.bank ≠ 0x1FF → Tab.get (t.guard (courseIdx d) 1).spares 0 (spareKey x.row.bank i) = 0)) ∧
    (∀ (s : State) (d : LcDie) (k : Fin 16) (r : RowId) (n : Nat), (s.unitRuns d.val 3 = true) → (Tab.get (s.guard d.val 1).scratch none k.val = some (r, n)) → (n ≠ 0) → ((rowQueues d.val r).all (fun q => (s.queue d.val q).pkts.isEmpty) = true) →
      Completes (.retiredQueuesEmpty d k) s (fun t => Tab.get (t.guard d.val 1).scratch none k.val = none ∧ t.is MEM_EVT_QEMPTY (onDie d.val) = true)) ∧
    (∀ (s : State) (d : Die) (b : Fin 2), (s.running = true) →
      Completes (.elogPop d b) s (fun t => (t.guard d.val b.val).log = (s.guard d.val b.val).log.tail ∧ t.rd (if b.val = 0 then RSV_ELOG_W else MEM_ELOG_W) (place d.val 0) = ((s.guard d.val b.val).log.tail.headD (0, 0, 0)).1)) ∧
    (∀ (s : State) (d : Die) (b : Fin 2) (v : Word), (s.running = true) → (hasBlock d.val b.val = true) → ((bits v 10 0) < spareRows s.part d.val b.val (bits v 24 16)) →
      Completes (.spmapReadSpare d b v) s (fun t => t.rd (spmapData b.val) (onDie d.val) = Tab.get (s.guard d.val b.val).spares 0 (s.spareOf d.val b.val (bits v 24 16) (bits v 10 0)) ∧ t.dram = s.dram)) ∧
    (∀ (s : State) (d : Die) (b : Fin 2) (v : Word), (s.running = true) → (hasBlock d.val b.val = true) → (s.spmapOpen d.val b.val = true) → ((bits v 10 0) < spareRows s.part d.val b.val (bits v 24 16)) → ((bits v 24 16) ≠ 0x1FF) →
      Completes (.spmapWriteSpare d b v) s (fun t => Tab.get (t.guard d.val b.val).spares 0 (s.spareOf d.val b.val (bits v 24 16) (bits v 10 0)) = s.rd (spmapData b.val) (onDie d.val))) ∧
    (∀ (s : State) (d : Die) (b : Fin 2) (v : Word), (s.running = true) → (hasBlock d.val b.val = true) → ((bits v 10 0) < retireSize s.part d.val b.val) →
      Completes (.spmapReadRetirement d b v) s (fun t => t.rd (spmapData b.val) (onDie d.val) = Tab.get (s.guard d.val b.val).retired 0 (bits v 10 0) ∧ t.dram = s.dram)) ∧
    (∀ (s : State) (d : Die) (b : Fin 2) (v : Word), (s.running = true) → (hasBlock d.val b.val = true) → (s.spmapOpen d.val b.val = true) → ((bits v 10 0) < retireSize s.part d.val b.val) →
      Completes (.spmapWriteRetirement d b v) s (fun t => Tab.get (t.guard d.val b.val).retired 0 (bits v 10 0) = s.rd (spmapData b.val) (onDie d.val))) ∧
    (∀ (s : State) (d : Die) (b : Fin 2) (v : Word), (s.running = true) → (hasBlock d.val b.val = true) → (spareRows s.part d.val b.val (bits v 24 16) ≤ (bits v 10 0)) →
      Completes (.spmapReadSpare d b v) s (fun t => t.dram = s.dram ∧ t.is (if b.val = 0 then RSV_SPMAP_CTL_REJ else MEM_SPMAP_CTL_REJ) (onDie d.val) = true)) ∧
    (∀ (s : State) (d : Die) (b : Fin 2) (v : Word), (s.running = true) → (hasBlock d.val b.val = true) → (spareRows s.part d.val b.val (bits v 24 16) ≤ (bits v 10 0)) →
      Completes (.spmapWriteSpare d b v) s (fun t => t.dram = s.dram ∧ t.is (if b.val = 0 then RSV_SPMAP_CTL_REJ else MEM_SPMAP_CTL_REJ) (onDie d.val) = true)) ∧
    (∀ (s : State) (d : Die) (b : Fin 2) (v : Word), (s.running = true) → (hasBlock d.val b.val = true) → (retireSize s.part d.val b.val ≤ (bits v 10 0)) →
      Completes (.spmapReadRetirement d b v) s (fun t => t.dram = s.dram ∧ t.is (if b.val = 0 then RSV_SPMAP_CTL_REJ else MEM_SPMAP_CTL_REJ) (onDie d.val) = true)) ∧
    (∀ (s : State) (d : Die) (b : Fin 2) (v : Word), (s.running = true) → (hasBlock d.val b.val = true) → (retireSize s.part d.val b.val ≤ (bits v 10 0)) →
      Completes (.spmapWriteRetirement d b v) s (fun t => t.dram = s.dram ∧ t.is (if b.val = 0 then RSV_SPMAP_CTL_REJ else MEM_SPMAP_CTL_REJ) (onDie d.val) = true)) ∧
    (∀ (s : State) (d : Die) (b : Fin 2) (v : Word), (s.running = true) → (hasBlock d.val b.val = true) → (s.spmapOpen d.val b.val = false) →
      Completes (.spmapWriteRetirement d b v) s (fun t => t.dram = s.dram ∧ t.is (if b.val = 0 then RSV_SPMAP_CTL_REJ else MEM_SPMAP_CTL_REJ) (onDie d.val) = true)) ∧
    (∀ (s : State) (d : Die) (b : Fin 2) (v : Word), (s.running = true) → (hasBlock d.val b.val = true) → (s.spmapOpen d.val b.val = false) →
      Completes (.spmapWriteSpare d b v) s (fun t => t.dram = s.dram ∧ t.is (if b.val = 0 then RSV_SPMAP_CTL_REJ else MEM_SPMAP_CTL_REJ) (onDie d.val) = true)) ∧
    (∀ (s : State) (d : LcDie) (v : Word), (s.running = true) → (bits v 26 26 = 1) →
      Completes (.spmapLock d v) s (fun t => t.is MEM_SPMAP_CTL_LOCKED (onDie d.val) = true ∧ t.spmapOpen d.val 1 = false))

/-- A source level reaches the controller; a claim answers the deliverable source of highest priority, sets RUNPRI and pushes the old value, answers 0xFFF with nothing deliverable, and 0 at a core that the part does not have; an EOI pops the stack; SGI_SET sets its bits; a timer that has reached TMR_CMP is deliverable at priority 15 to a core that runs nothing of that priority, and wakes its die; a semaphore is granted to the first core that reads it and freed by its owner only; the UART FIFOs take and give bytes in order, set their flags when full or badly framed, and a byte leaves the shift register ten bit times after it entered; GPIO outputs, inputs and edges follow but in OFF; L2_CFG is judged against EN as it stood; CORE_RUN at monitor level starts the cores of line die 1, and does nothing at another. -/
def Obligations.ControlComplexDevicesComplete : Prop :=
    (∀ (s : State) (n : Fin 2048) (h : Nat), (s.running = true) → (s.route (n.val / 256) 0 = .clear h) → (s.powerState (n.val / 256) = 0) →
      Completes (.irqLevelChange n) s (fun t => t.is IRQ_SRC_STAT_LEVEL (d0i n.val) = s.sourceLevel (n.val / 256) (n.val % 256))) ∧
    (∀ (s : State) (r : Requester) (core : Fin 12) (x : Fin 2) (p n : Nat), (s.islandRuns 0 6 = true) → (s.deliverable core.val x.val = some (p, n)) →
      Completes (.irqClaim r core x) s (fun t => (t.answerOf (reqCode r)).data.toNat = n % 4096 ∧ t.get IRQ_RUNPRI_V (d0i (core.val * 2 + x.val)) = p % 16 ∧ Tab.get t.ctl.runStack [] (core.val * 2 + x.val) = s.get IRQ_RUNPRI_V (d0i (core.val * 2 + x.val)) :: Tab.get s.ctl.runStack [] (core.val * 2 + x.val))) ∧
    (∀ (s : State) (r : Requester) (core : Fin 12) (x : Fin 2), (s.islandRuns 0 6 = true) → (coreExists s.part core.val = true) → (s.deliverable core.val x.val = none) →
      Completes (.irqClaim r core x) s (fun t => t.answerOf (reqCode r) = { data := 0xFFF } ∧ t.regs = s.regs ∧ t.ctl = s.ctl)) ∧
    (∀ (s : State) (r : Requester) (core : Fin 12) (x : Fin 2), (s.islandRuns 0 6 = true) → (coreExists s.part core.val = false) →
      Completes (.irqClaim r core x) s (fun t => t.answerOf (reqCode r) = {} ∧ t.regs = s.regs ∧ t.ctl = s.ctl)) ∧
    (∀ (s : State) (r : Requester) (core : Fin 12), (s.islandRuns 0 6 = true) → (coreExists s.part core.val = true) → (s.timerPending core.val = true) → (s.get IRQ_RUNPRI_V (d0i (core.val * 2)) < 15) →
      Completes (.irqClaim r core 0) s (fun t => t.get IRQ_RUNPRI_V (d0i (core.val * 2)) = 15)) ∧
    (∀ (s : State) (core : Fin 12) (x : Fin 2) (v : Word) (p : Nat) (l : List Nat), (s.running = true) → (coreExists s.part core.val = true) → (Tab.get s.ctl.runStack [] (core.val * 2 + x.val) = p :: l) →
      Completes (.irqEoi core x v) s (fun t => t.get IRQ_RUNPRI_V (d0i (core.val * 2 + x.val)) = p % 16 ∧ Tab.get t.ctl.runStack [] (core.val * 2 + x.val) = l)) ∧
    (∀ (s : State) (v : Word), (s.running = true) →
      Completes (.sgiSet v) s (fun t => t.get IRQ_SGI_V d0 = s.get IRQ_SGI_V d0 ||| bits v 11 0)) ∧
    (∀ (s : State) (core : Fin 12), (s.islandRuns (coreDie core.val) 4 = true) → (coreExists s.part core.val = true) → (s.timerPending core.val = true) → (s.get IRQ_RUNPRI_V (d0i (core.val * 2)) < 15) → (s.powerState (coreDie core.val) ≠ 0) → (Tab.get s.pwr.wake none (coreDie core.val) = none) →
      Completes (.timerInterrupt core) s (fun t => Tab.get t.pwr.wake none (coreDie core.val) = some (7, core.val))) ∧
    (∀ (s : State) (core : Fin 12), (s.islandRuns (coreDie core.val) 4 = true) → (coreExists s.part core.val = false ∨ s.timerPending core.val = false) →
      Completes (.timerInterrupt core) s (fun t => t.pwr = s.pwr ∧ t.ctl = s.ctl)) ∧
    (∀ (s : State) (core : Fin 12) (i : Fin 32), (s.running = true) → (s.is CTL_SEM_HELD (d0i i.val) = false) →
      Completes (.semaphoreRead core i) s (fun t => (t.answerOf core.val).data.toNat = 0xC0000000 + core.val ∧ t.is CTL_SEM_HELD (d0i i.val) = true ∧ t.get CTL_SEM_OWNER (d0i i.val) = core.val)) ∧
    (∀ (s : State) (core : Fin 12) (i : Fin 32), (s.running = true) → (s.is CTL_SEM_HELD (d0i i.val) = true) →
      Completes (.semaphoreRead core i) s (fun t => (t.answerOf core.val).data.getLsbD 31 = false ∧ (t.answerOf core.val).data.toNat % 2 ^ 31 = (s.rd CTL_SEM (d0i i.val)).toNat % 2 ^ 31 ∧ t.rd CTL_SEM (d0i i.val) = s.rd CTL_SEM (d0i i.val))) ∧
    (∀ (s : State) (core : Fin 12) (i : Fin 32) (v : Word), (s.running = true) → (s.is CTL_SEM_HELD (d0i i.val) = true) →
      Completes (.semaphoreWrite core i v) s (fun t => t.rd CTL_SEM (d0i i.val) = if s.get CTL_SEM_OWNER (d0i i.val) = core.val then 0 else s.rd CTL_SEM (d0i i.val))) ∧
    (∀ (s : State) (v : Word), (s.hw.alive = true) → (s.is CTL_UART_CFG_EN d0 = true) →
      Completes (.uartTxWrite v) s (fun t => t.ctl.uart.tx = (if s.ctl.uart.tx.length < 64 then s.ctl.uart.tx ++ [v.setWidth 8] else s.ctl.uart.tx) ∧ (64 ≤ s.ctl.uart.tx.length → t.is CTL_UART_STAT_TX_DROP d0 = true))) ∧
    (∀ (s : State) (r : Requester) (b : Byte) (l : List Byte), (s.hw.alive = true) → (s.ctl.uart.rx = b :: l) →
      Completes (.uartRxRead r) s (fun t => (t.answerOf (reqCode r)).data.toNat = 256 + b.toNat ∧ t.ctl.uart.rx = l ∧ t.get CTL_UART_STAT_RX_LEVEL d0 = l.length % 128)) ∧
    (∀ (s : State) (b : Byte), (s.hw.alive = true) → (s.is CTL_UART_CFG_EN d0 = true) →
      Completes (.uartRxByte b true) s (fun t => t.ctl.uart.rx = (if s.ctl.uart.rx.length < 64 then s.ctl.uart.rx ++ [b] else s.ctl.uart.rx) ∧ (64 ≤ s.ctl.uart.rx.length → t.is CTL_UART_STAT_OVF d0 = true))) ∧
    (∀ (s : State) (b : Byte), (s.hw.alive = true) → (s.is CTL_UART_CFG_EN d0 = true) →
      Completes (.uartRxByte b false) s (fun t => t.ctl.uart = { s.ctl.uart with rxDiv := s.get CTL_UART_CFG_DIV d0 } ∧ t.is CTL_UART_STAT_FERR d0 = true)) ∧
    (∀ (s : State), (s.hw.alive = true) → (s.is CTL_UART_CFG_EN d0 = true) → (s.ctl.uart.shift.isNone = true ∨ s.ctl.uart.txFrom + 10 * s.ctl.uart.txDiv ≤ s.clk.ac) →
      Completes (.uartTxByte) s (fun t => t.ctl.uart.txDiv = s.get CTL_UART_CFG_DIV d0 ∧ t.ctl.uart.txFrom = s.clk.ac ∧ t.ctl.uart.shift = s.ctl.uart.tx.head? ∧ t.ctl.uart.tx = s.ctl.uart.tx.tail ∧ (s.ctl.uart.shift.isSome = true → t.ctl.uart.sent = s.ctl.uart.shift))) ∧
    (∀ (s : State), (s.hw.alive = true) → (s.ctl.uart.shift.isSome = true) → (s.clk.ac < s.ctl.uart.txFrom + 10 * s.ctl.uart.txDiv) →
      Completes (.uartTxByte) s (fun t => t = s)) ∧
    (∀ (s : State) (v : Word), (s.hw.alive = true) → (s.hw.off = false) →
      Completes (.gpioSet v) s (fun t => t.rd CTL_GPIO_OUT d0 = s.rd CTL_GPIO_OUT d0 ||| v ∧ t.rd CTL_GPIO_IN d0 = (t.rd CTL_GPIO_OUT d0 &&& s.rd CTL_GPIO_DIR d0) ||| (s.ctl.gpioPins &&& ~~~s.rd CTL_GPIO_DIR d0))) ∧
    (∀ (s : State) (v : Word), (s.hw.alive = true) → (s.hw.off = false) →
      Completes (.gpioClr v) s (fun t => t.rd CTL_GPIO_OUT d0 = s.rd CTL_GPIO_OUT d0 &&& ~~~v ∧ t.rd CTL_GPIO_IN d0 = (t.rd CTL_GPIO_OUT d0 &&& s.rd CTL_GPIO_DIR d0) ||| (s.ctl.gpioPins &&& ~~~s.rd CTL_GPIO_DIR d0))) ∧
    (∀ (s : State) (i : Fin 32) (high : Bool), (s.hw.alive = true) → (s.hw.off = false) → ((s.rd CTL_GPIO_DIR d0).getLsbD i.val = false) →
      Completes (.gpioInputEdge i high) s (fun t => (t.rd CTL_GPIO_IN d0).getLsbD i.val = high ∧ ((s.rd CTL_GPIO_IN d0).getLsbD i.val ≠ high → (if high then s.rd CTL_GPIO_RISE d0 else s.rd CTL_GPIO_FALL d0).getLsbD i.val = true → (t.rd CTL_GPIO_EVT d0).getLsbD i.val = true))) ∧
    (∀ (s : State) (n : LineDie) (v : Word), (s.running = true) → (s.is CTL_L2_CFG_EN (onDie n.val) = false) → (bits v 4 0 ≤ 12) →
      Completes (.l2CfgWrite n v) s (fun t => t.get CTL_L2_CFG_EN (onDie n.val) = bits v 31 31 ∧ t.get CTL_L2_CFG_SRAM_WAYS (onDie n.val) = bits v 4 0)) ∧
    (∀ (s : State) (n : LineDie) (v : Word), (s.running = true) → (s.is CTL_L2_CFG_EN (onDie n.val) = true) → (bits v 4 0 ≠ s.get CTL_L2_CFG_SRAM_WAYS (onDie n.val)) →
      Completes (.l2CfgWrite n v) s (fun t => t.get CTL_L2_CFG_SRAM_WAYS (onDie n.val) = s.get CTL_L2_CFG_SRAM_WAYS (onDie n.val) ∧ t.is CTL_L2_CFG_REJ (onDie n.val) = true)) ∧
    (∀ (s : State) (v : Word), (s.running = true) → (s.part = .zg6480) → (bits v 0 0 = 1) → (∀ n < 4, (s.core (8 + n)).run = false) →
      Completes (.coreRun .monitor v) s (fun t => ∀ n < 4, (t.core (8 + n)).run = true ∧ (t.core (8 + n)).level = .monitor ∧ (t.core (8 + n)).pc = BitVec.ofNat 64 (2 ^ 36 + (s.rd CTL_RESET_VEC (onDie 1)).toNat * 4))) ∧
    (∀ (s : State) (l : Level) (v : Word), (l ≠ .monitor) →
      Completes (.coreRun l v) s (fun t => t = s))

/-- START from OFF, STOPPED or HALTED samples CFG, BASE and PACE_PER, clears the chain count and PACE_PEND and runs the channel; elsewhere it sets REJ. STOP at a boundary enters STOPPED, inside a descriptor, frame or record STOPPING. DISABLE enters OFF and drops the stored records into CNT_OFF. A doorbell wakes an IDLE channel and is otherwise kept. A pace timer fires PACE_PER ac after the start or the firing before, and the firing is on its way to mc; a trigger adds to PACE_PEND, starts a descriptor that waits for it, or is lost at 255 with PACE_OVF. A bus error halts the channel with EVT.HALT set and drops what it had of a frame; on a descriptor, with none started, and in TRANSMIT and INJECT its direction, cause and address are latched. -/
def Obligations.DmaControlCompletes : Prop :=
    (∀ (s : State) (d : Die) (ch : Fin 32) (v : Word), (s.running = true) → (s.dmaExists d.val ch.val = true) → (s.dmaState d.val ch.val = 0 ∨ s.dmaState d.val ch.val = 5 ∨ s.dmaState d.val ch.val = 6) → (bits v 31 31 = 1) → (dmaModeOk d.val (s.get DMA_CFG_MODE (place d.val ch.val)) = true) →
      Completes (.dmaStart d ch v) s (fun t => t.dmaState d.val ch.val = 2 ∧ t.rdEff DMA_CFG (place d.val ch.val) = s.rd DMA_CFG (place d.val ch.val) ∧ t.rdEff DMA_BASE_LO (place d.val ch.val) = s.rd DMA_BASE_LO (place d.val ch.val) ∧ t.rdEff DMA_BASE_HI (place d.val ch.val) = s.rd DMA_BASE_HI (place d.val ch.val) ∧ t.rdEff DMA_PACE_PER (place d.val ch.val) = s.rd DMA_PACE_PER (place d.val ch.val) ∧ t.get DMA_STAT_PACE_PEND (place d.val ch.val) = 0 ∧ (t.dmaCh d.val ch.val).chain = 0 ∧ (t.dmaCh d.val ch.val).started = false ∧ (t.dmaCh d.val ch.val).fireAt = s.clk.ac + s.get DMA_PACE_PER_V (place d.val ch.val))) ∧
    (∀ (s : State) (d : Die) (ch : Fin 32) (v : Word), (s.running = true) → (s.dmaExists d.val ch.val = true) → (1 ≤ s.dmaState d.val ch.val ∧ s.dmaState d.val ch.val ≤ 4) → (bits v 31 31 = 1) →
      Completes (.dmaStart d ch v) s (fun t => t.is DMA_STAT_REJ (place d.val ch.val) = true ∧ t.dmaState d.val ch.val = s.dmaState d.val ch.val ∧ t.eff = s.eff)) ∧
    (∀ (s : State) (d : Die) (ch : Fin 32) (v : Word), (s.running = true) → (s.dmaExists d.val ch.val = true) → (1 ≤ s.dmaState d.val ch.val ∧ s.dmaState d.val ch.val ≤ 4) → (bits v 30 30 = 1) →
      Completes (.dmaStop d ch v) s (fun t => t.dmaState d.val ch.val = (if s.dmaAtBoundary d.val ch.val then 5 else 4))) ∧
    (∀ (s : State) (d : Die) (ch : Fin 32) (v : Word), (s.running = true) → (s.dmaExists d.val ch.val = true) → (s.dmaState d.val ch.val = 1 ∨ s.dmaState d.val ch.val = 5 ∨ s.dmaState d.val ch.val = 6) → (bits v 29 29 = 1) →
      Completes (.dmaDisable d ch v) s (fun t => t.dmaState d.val ch.val = 0 ∧ (t.dmaCh d.val ch.val).store = [] ∧ t.rd DMA_CNT_OFF (place d.val ch.val) = s.rd DMA_CNT_OFF (place d.val ch.val) + BitVec.ofNat 32 (s.dmaCh d.val ch.val).store.length)) ∧
    (∀ (s : State) (d : Die) (ch : Fin 32), (s.running = true) → (s.dmaExists d.val ch.val = true) → (s.dmaState d.val ch.val = 1) →
      Completes (.dmaDoorbell d ch) s (fun t => t.dmaState d.val ch.val = 2 ∧ (t.dmaCh d.val ch.val) = (s.dmaCh d.val ch.val))) ∧
    (∀ (s : State) (d : Die) (ch : Fin 32), (s.running = true) → (s.dmaExists d.val ch.val = true) → (s.dmaState d.val ch.val ≠ 1) →
      Completes (.dmaDoorbell d ch) s (fun t => (t.dmaCh d.val ch.val).bell = true ∧ t.regs = s.regs)) ∧
    (∀ (s : State) (d : Die) (ch : Fin 32), (s.hw.alive = true) → (s.unitHeld d.val (dmaBank d.val) = false) → (s.dmaState d.val ch.val ≠ 0) → (s.getEff DMA_CFG_PACE_SRC (place d.val ch.val) = 1) → ((s.dmaCh d.val ch.val).fireAt ≤ s.clk.ac) →
      Completes (.paceTimerFire d ch) s (fun t => (t.dmaCh d.val ch.val).due = (s.dmaCh d.val ch.val).due + 1 ∧ (t.dmaCh d.val ch.val).fireAt = s.clk.ac + s.get DMA_PACE_PER_V (place d.val ch.val) ∧ t.rdEff DMA_PACE_PER (place d.val ch.val) = s.rd DMA_PACE_PER (place d.val ch.val) ∧ t.regs = s.regs)) ∧
    (∀ (s : State) (d : Die) (ch : Fin 32), (s.hw.alive = true) → (s.unitHeld d.val (dmaBank d.val) = false) → (s.dmaState d.val ch.val = 0 ∨ s.getEff DMA_CFG_PACE_SRC (place d.val ch.val) ≠ 1 ∨ s.clk.ac < (s.dmaCh d.val ch.val).fireAt) →
      Completes (.paceTimerFire d ch) s (fun t => t.dma = s.dma ∧ t.regs = s.regs ∧ t.eff = s.eff)) ∧
    (∀ (s : State) (d : Die) (ch : Fin 32), (s.unitRuns d.val (dmaBank d.val) = true) → ((s.dmaCh d.val ch.val).due ≠ 0) → (s.get DMA_STAT_PACE_PEND (place d.val ch.val) < 255) → ((s.dmaCh d.val ch.val).waits = false) →
      Completes (.paceTrigger d ch) s (fun t => (t.dmaCh d.val ch.val).due = (s.dmaCh d.val ch.val).due - 1 ∧ t.get DMA_STAT_PACE_PEND (place d.val ch.val) = s.get DMA_STAT_PACE_PEND (place d.val ch.val) + 1 ∧ t.dmaState d.val ch.val = s.dmaState d.val ch.val)) ∧
    (∀ (s : State) (d : Die) (ch : Fin 32), (s.unitRuns d.val (dmaBank d.val) = true) → ((s.dmaCh d.val ch.val).due ≠ 0) → (s.get DMA_STAT_PACE_PEND (place d.val ch.val) < 255) → ((s.dmaCh d.val ch.val).waits = true) →
      Completes (.paceTrigger d ch) s (fun t => (t.dmaCh d.val ch.val).started = true ∧ (t.dmaCh d.val ch.val).waits = false ∧ t.get DMA_STAT_PACE_PEND (place d.val ch.val) = s.get DMA_STAT_PACE_PEND (place d.val ch.val) ∧ t.dmaState d.val ch.val = (if s.dmaState d.val ch.val = 3 then 2 else s.dmaState d.val ch.val))) ∧
    (∀ (s : State) (d : Die) (ch : Fin 32), (s.unitRuns d.val (dmaBank d.val) = true) → ((s.dmaCh d.val ch.val).due ≠ 0) → (s.get DMA_STAT_PACE_PEND (place d.val ch.val) = 255) →
      Completes (.paceTrigger d ch) s (fun t => (t.dmaCh d.val ch.val).due = (s.dmaCh d.val ch.val).due - 1 ∧ t.get DMA_STAT_PACE_PEND (place d.val ch.val) = 255 ∧ t.is DMA_EVT_PACE_OVF (place d.val ch.val) = true)) ∧
    (∀ (s : State) (d : Die) (ch : Fin 32) (x : Addr) (w l o : Bool) (n : BitVec 24), (s.unitRuns d.val (dmaBank d.val) = true) → (s.dmaState d.val ch.val = 2 ∨ s.dmaState d.val ch.val = 4) → (o = true ∨ (s.dmaCh d.val ch.val).started = false ∨ 2 ≤ s.getEff DMA_CFG_MODE (place d.val ch.val)) → (s.is DMA_ERR_INFO_VALID (place d.val ch.val) = false) →
      Completes (.dmaBusError d ch x w l o n) s (fun t => t.dmaState d.val ch.val = 6 ∧ t.is DMA_EVT_HALT (place d.val ch.val) = true ∧ t.is DMA_ERR_INFO_VALID (place d.val ch.val) = true ∧ t.is DMA_ERR_INFO_DIR (place d.val ch.val) = w ∧ t.get DMA_ERR_INFO_CAUSE (place d.val ch.val) = (if l then 1 else 0) ∧ t.get DMA_ERR_INFO_ADDR_HI (place d.val ch.val) = x.toNat / 2 ^ 32 ∧ (t.rd DMA_ERR_ADDR (place d.val ch.val)).toNat = x.toNat % 2 ^ 32)) ∧
    (∀ (s : State) (d : Die) (ch : Fin 32) (x : Addr) (w l o : Bool) (n : BitVec 24), (s.unitRuns d.val (dmaBank d.val) = true) → (s.dmaState d.val ch.val = 2 ∨ s.dmaState d.val ch.val = 4) →
      Completes (.dmaBusError d ch x w l o n) s (fun t => t.dmaState d.val ch.val = 6 ∧ t.is DMA_EVT_HALT (place d.val ch.val) = true ∧ (t.dmaCh d.val ch.val).started = false ∧ (t.dmaCh d.val ch.val).got = []))

/-- In accesses that find no uncorrectable error and lose no response: an owned, well formed descriptor without PACE starts, and one not owned makes the channel IDLE; MOVE copies its bytes where the areas lie apart, writes back STATUS with the bytes done, clears OWN unless PERSIST, and moves the head; a bus error of a MOVE leaves the bytes done copied and writes back CODE BUS_ERR with their number; a record that fits one buffer is placed there and written back with SOP and EOP; a TRANSMIT or INJECT burst reads 256 bytes or the rest of the frame, and the whole frame goes to the management transmitter, its FIFO empty, or to dispatcher source 16 while it has room. -/
def Obligations.DmaTransfersComplete : Prop :=
    (∀ (s : State) (d : Die) (ch : Fin 32) (m : Found) (l : List Byte), (s.unitRuns d.val (dmaBank d.val) = true) → (eccBad m.ecc = false) → (m.lost = false) → (s.dmaExists d.val ch.val = true) → (s.dmaState d.val ch.val = 2) → ((s.dmaCh d.val ch.val).started = false) → ((s.dmaCh d.val ch.val).waits = false) → (s.dmaAsleep d.val (s.dmaHead d.val ch.val) = none) → ((s.dmaHead d.val ch.val) % 2 ^ 36 < 0xF00000000) → ((s.readSpan d.val (s.dmaHead d.val ch.val) 32 .clean).1 = some l) → ((dmaDecode l).own = true) → (s.dmaBad d.val ch.val (dmaDecode l) = false) → (s.getEff DMA_CFG_MODE (place d.val ch.val) < 2) → ((dmaDecode l).pace = false) →
      Completes (.dmaDescriptorFetch d ch m) s (fun t => (t.dmaCh d.val ch.val) = { (s.dmaCh d.val ch.val) with started := true } ∧ t.dmaState d.val ch.val = 2 ∧ t.mem = s.mem)) ∧
    (∀ (s : State) (d : Die) (ch : Fin 32) (m : Found) (l : List Byte), (s.unitRuns d.val (dmaBank d.val) = true) → (eccBad m.ecc = false) → (m.lost = false) → (s.dmaExists d.val ch.val = true) → (s.dmaState d.val ch.val = 2) → ((s.dmaCh d.val ch.val).started = false) → ((s.dmaCh d.val ch.val).waits = false) → ((s.dmaCh d.val ch.val).filled = []) → ((s.dmaCh d.val ch.val).bell = false) → (s.dmaAsleep d.val (s.dmaHead d.val ch.val) = none) → ((s.dmaHead d.val ch.val) % 2 ^ 36 < 0xF00000000) → ((s.readSpan d.val (s.dmaHead d.val ch.val) 32 .clean).1 = some l) → ((dmaDecode l).own = false) →
      Completes (.dmaDescriptorFetch d ch m) s (fun t => (t.dmaCh d.val ch.val) = (s.dmaCh d.val ch.val) ∧ t.dmaState d.val ch.val = 1 ∧ t.mem = s.mem)) ∧
    (∀ (s : State) (d : Die) (ch : Fin 32) (m : Found) (l : List Byte), (s.unitRuns d.val (dmaBank d.val) = true) → (eccBad m.ecc = false) → (m.lost = false) → (s.dmaExists d.val ch.val = true) → (s.dmaState d.val ch.val = 2) → ((s.dmaCh d.val ch.val).started = true) → (s.getEff DMA_CFG_MODE (place d.val ch.val) = 0) → ((s.readSpan d.val (s.dmaHead d.val ch.val) 32 .clean).1 = some l) → (s.dmaAsleep d.val (dmaDecode l).src = none) → (s.dmaAsleep d.val (dmaDecode l).dst = none) → ((s.spanReach d.val (dmaDecode l).src (dmaDecode l).len).isOpen = true) → ((s.spanReach d.val (dmaDecode l).dst (dmaDecode l).len).isOpen = true) → ((dmaDecode l).src + (dmaDecode l).len ≤ (dmaDecode l).dst ∨ (dmaDecode l).dst + (dmaDecode l).len ≤ (dmaDecode l).src) → ((dmaDecode l).dst + (dmaDecode l).len ≤ (s.dmaHead d.val ch.val) ∨ (s.dmaHead d.val ch.val) + 32 ≤ (dmaDecode l).dst) → ((s.dmaCh d.val ch.val).chain + 1 < s.getEff DMA_CFG_CHAIN_LIMIT (place d.val ch.val)) → (s.isEff DMA_CFG_PERSIST (place d.val ch.val) = false) →
      Completes (.dmaMove d ch m) s (fun t => t.bytes (dmaDecode l).dst (dmaDecode l).len = s.bytes (dmaDecode l).src (dmaDecode l).len ∧ t.bytes ((s.dmaHead d.val ch.val) + 4) 4 = leBytes 4 (dmaDecode l).len ∧ (t.byte ((s.dmaHead d.val ch.val) + 3)).getLsbD 7 = false ∧ (t.dmaCh d.val ch.val).started = false ∧ t.dmaState d.val ch.val = 2 ∧ t.dmaHead d.val ch.val = s.dmaNext d.val ch.val (s.dmaHead d.val ch.val) (dmaDecode l) % 2 ^ 40 / 32 * 32 ∧ t.get DMA_STAT_DONE_CNT (place d.val ch.val) = (s.get DMA_STAT_DONE_CNT (place d.val ch.val) + 1) % 2 ^ 16)) ∧
    (∀ (s : State) (d : Die) (ch : Fin 32) (z : Addr) (w o : Bool) (n : BitVec 24) (l : List Byte), (s.unitRuns d.val (dmaBank d.val) = true) → (s.dmaExists d.val ch.val = true) → (s.dmaState d.val ch.val = 2) → ((s.dmaCh d.val ch.val).started = true) → (s.getEff DMA_CFG_MODE (place d.val ch.val) = 0) → (n.toNat ≤ (dmaDecode l).len) → ((s.readSpan d.val (s.dmaHead d.val ch.val) 32 .clean).1 = some l) → (s.dmaAsleep d.val (dmaDecode l).src = none) → (s.dmaAsleep d.val (dmaDecode l).dst = none) → (s.dmaAsleep d.val (s.dmaHead d.val ch.val) = none) → ((s.spanReach d.val (dmaDecode l).src (dmaDecode l).len).isOpen = true) → ((s.spanReach d.val (dmaDecode l).dst (dmaDecode l).len).isOpen = true) → ((dmaDecode l).src + (dmaDecode l).len ≤ (dmaDecode l).dst ∨ (dmaDecode l).dst + (dmaDecode l).len ≤ (dmaDecode l).src) → ((dmaDecode l).dst + (dmaDecode l).len ≤ (s.dmaHead d.val ch.val) ∨ (s.dmaHead d.val ch.val) + 32 ≤ (dmaDecode l).dst) → (s.isEff DMA_CFG_PERSIST (place d.val ch.val) = false) →
      Completes (.dmaBusError d ch z w o false n) s (fun t => t.bytes (dmaDecode l).dst n.toNat = s.bytes (dmaDecode l).src n.toNat ∧ t.bytes ((s.dmaHead d.val ch.val) + 4) 4 = leBytes 4 (2 ^ 28 + n.toNat) ∧ (t.byte ((s.dmaHead d.val ch.val) + 3)).getLsbD 7 = false ∧ t.dmaState d.val ch.val = 6)) ∧
    (∀ (s : State) (d : Die) (ch : Fin 32) (m : Found) (l : List Byte) (r : DmaRec) (q : List DmaRec), (s.unitRuns d.val (dmaBank d.val) = true) → (eccBad m.ecc = false) → (m.lost = false) → ((s.dmaCh d.val ch.val).waits = false) → ((s.dmaCh d.val ch.val).filled = []) → (s.dmaExists d.val ch.val = true) → (s.dmaState d.val ch.val = 2) → ((s.dmaCh d.val ch.val).started = true) → (s.getEff DMA_CFG_MODE (place d.val ch.val) = 1) → ((s.dmaCh d.val ch.val).store = r :: q) → (s.dmaAsleep d.val (s.dmaHead d.val ch.val) = none) → ((s.readSpan d.val (s.dmaHead d.val ch.val) 32 .clean).1 = some l) → ((dmaDecode l).own = true) → (s.dmaBad d.val ch.val (dmaDecode l) = false) → (r.bytes.length ≤ (dmaDecode l).len) → (s.dmaAsleep d.val (dmaDecode l).dst = none) → ((s.spanReach d.val (dmaDecode l).dst r.bytes.length).isOpen = true) → ((dmaDecode l).dst + r.bytes.length ≤ (s.dmaHead d.val ch.val) ∨ (s.dmaHead d.val ch.val) + 32 ≤ (dmaDecode l).dst) → (s.isEff DMA_CFG_PERSIST (place d.val ch.val) = false) →
      Completes (.dmaReceiveRecord d ch m) s (fun t => t.bytes (dmaDecode l).dst r.bytes.length = r.bytes ∧ t.bytes ((s.dmaHead d.val ch.val) + 4) 4 = leBytes 4 (2 ^ 27 + 2 ^ 26 + r.bytes.length) ∧ (t.byte ((s.dmaHead d.val ch.val) + 3)).getLsbD 7 = false ∧ (t.dmaCh d.val ch.val).store = q ∧ t.get DMA_STAT_DONE_CNT (place d.val ch.val) = (s.get DMA_STAT_DONE_CNT (place d.val ch.val) + 1) % 2 ^ 16)) ∧
    (∀ (s : State) (ch : Fin 32) (m : Found) (l : List Byte), (s.unitRuns 0 (dmaBank 0) = true) → (eccBad m.ecc = false) → (m.lost = false) → (s.dmaState 0 ch.val = 2) → ((s.dmaCh 0 ch.val).started = true) → (s.getEff DMA_CFG_MODE (place 0 ch.val) = 2) → ((s.mac 64).tx = []) → ((s.dmaCh 0 ch.val).got ≠ [] ∨ (s.is MGT_TX_CFG_EN d0 = true ∧ s.get MGT_TX_CFG_DMA_CH d0 = ch.val)) → (s.dmaAsleep 0 (s.dmaHead 0 ch.val) = none) → ((s.readSpan 0 (s.dmaHead 0 ch.val) 32 .clean).1 = some l) → ((dmaDecode l).eop = true) → ((s.dmaCh 0 ch.val).done < (dmaDecode l).len) → ((dmaDecode l).len - (s.dmaCh 0 ch.val).done ≤ 256) → ((s.spanReach 0 ((dmaDecode l).src + (s.dmaCh 0 ch.val).done) ((dmaDecode l).len - (s.dmaCh 0 ch.val).done)).isOpen = true) →
      Completes (.dmaTransmitBurst ch m) s (fun t => (t.mac 64).tx = (s.mac 64).tx ++ [{ pkt := { bytes := (s.dmaCh 0 ch.val).got ++ s.bytes ((dmaDecode l).src + (s.dmaCh 0 ch.val).done) ((dmaDecode l).len - (s.dmaCh 0 ch.val).done) } }] ∧ (t.dmaCh 0 ch.val).got = [])) ∧
    (∀ (s : State) (d : LcDie) (ch : Fin 32) (m : Found) (l : List Byte) (p : Nat), (s.unitRuns d.val (dmaBank d.val) = true) → (eccBad m.ecc = false) → (m.lost = false) → (s.dmaExists d.val ch.val = true) → (s.dmaState d.val ch.val = 2) → ((s.dmaCh d.val ch.val).started = true) → (s.getEff DMA_CFG_MODE (place d.val ch.val) = 3) → (s.injectRoom d.val = true) → (s.dmaAsleep d.val (s.dmaHead d.val ch.val) = none) → ((s.readSpan d.val (s.dmaHead d.val ch.val) 32 .clean).1 = some l) → ((dmaDecode l).eop = true) → ((s.dmaCh d.val ch.val).done < (dmaDecode l).len) → ((dmaDecode l).len - (s.dmaCh d.val ch.val).done ≤ 256) → ((s.spanReach d.val ((dmaDecode l).src + (s.dmaCh d.val ch.val).done) ((dmaDecode l).len - (s.dmaCh d.val ch.val).done)).isOpen = true) → (s.pickPool d.val (cellsOf ((s.dmaCh d.val ch.val).got.length + ((dmaDecode l).len - (s.dmaCh d.val ch.val).done))) = some p) →
      Completes (.dmaInjectBurst d ch m) s (fun t => Tab.get t.pipe.coming [] (srcKey d.val 16) = Tab.get s.pipe.coming [] (srcKey d.val 16) ++ [{ kind := 3, src := 0, buf := s.dram.nextBuf, bytes := (s.dmaCh d.val ch.val).got ++ s.bytes ((dmaDecode l).src + (s.dmaCh d.val ch.val).done) ((dmaDecode l).len - (s.dmaCh d.val ch.val).done) }] ∧ (t.dmaCh d.val ch.val).got = []))

/-- On a core that issues, with its fetch done: an integer operation writes its destination and the pc moves on by 4; a branch goes to its target when its condition holds, a jump always, with the link register taking the next address, and the 6 cc of a resteer follow an indirect jump and a branch that does not go as its direction says, which is counted; an aligned load whose translation and access succeed writes the value found, extended, and from the core's own TCM at monitor level that is what memory and the store buffer hold; a store enters the store buffer, or takes its effect; MFS and MTS read and write the system registers that the level may access. The instruction is counted and takes its issue slot. -/
def Obligations.CoreInstructionsComplete : Prop :=
    (∀ (s : State) (x : CoreIssue) (u : State) (op : IntOp) (rd ra : XReg) (b : CoreSrc) (v : BitVec 64), (s.insAt x u) → (intResult op ((u.core x.core.val).reg ra) (match b with | .reg r => (u.core x.core.val).reg r | .imm y => y) = some v) →
      Completes (.coreIntegerOperation x op rd ra b) s (fun t => t = s.kept ((u.setCore x.core.val { (u.core x.core.val).setReg rd v with pc := (u.core x.core.val).pc + 4 }).issued x (u.core x.core.val).level))) ∧
    (∀ (s : State) (x : CoreIssue) (u : State) (k : CoreCond) (ra rb : XReg) (off : BitVec 64), (s.insAt x u) →
      Completes (.coreBranch x (.branch k ra rb off)) s (fun t => t = s.kept (((if condHolds k ((u.core x.core.val).reg ra) ((u.core x.core.val).reg rb) = decide (off.toInt < 0) then u else u.coreEvent x.core.val 0x208).setCore x.core.val { (u.core x.core.val) with pc := if condHolds k ((u.core x.core.val).reg ra) ((u.core x.core.val).reg rb) then (u.core x.core.val).pc + off else (u.core x.core.val).pc + 4, steer := if condHolds k ((u.core x.core.val).reg ra) ((u.core x.core.val).reg rb) = decide (off.toInt < 0) then (u.core x.core.val).steer else 6 }).issued x (u.core x.core.val).level))) ∧
    (∀ (s : State) (x : CoreIssue) (u : State) (l : Option XReg) (off : BitVec 64), (s.insAt x u) →
      Completes (.coreBranch x (.jump l off)) s (fun t => t = s.kept ((u.setCore x.core.val { (u.core x.core.val).linked l with pc := (u.core x.core.val).pc + off }).issued x (u.core x.core.val).level))) ∧
    (∀ (s : State) (x : CoreIssue) (u : State) (l : Option XReg) (ra : XReg) (off : BitVec 64), (s.insAt x u) →
      Completes (.coreBranch x (.indirect l ra off)) s (fun t => t = s.kept (((u.coreEvent x.core.val 0x208).setCore x.core.val { (u.core x.core.val).linked l with pc := (u.core x.core.val).reg ra + off, steer := 6 }).issued x (u.core x.core.val).level))) ∧
    (∀ (s : State) (x : CoreIssue) (u : State) (rd ra : XReg) (off : BitVec 64) (k : Fin 4) (sx : Bool) (v : Nat) (z : State), (s.insAt x u) → (((u.core x.core.val).reg ra + off).toNat % (2 ^ k.val) = 0) → (u.loads x ((u.core x.core.val).reg ra + off) (2 ^ k.val) = some (v, z)) →
      Completes (.coreLoad x rd ra off k sx) s (fun t => t = s.kept ((z.setCore x.core.val { (z.core x.core.val).setReg rd (if sx then BitVec.ofInt 64 (signed (8 * (2 ^ k.val)) v) else BitVec.ofNat 64 v) with pc := (z.core x.core.val).pc + 4 }).issued x (u.core x.core.val).level))) ∧
    (∀ (s : State) (x : CoreIssue) (u : State) (rd ra : XReg) (off : BitVec 64) (k : Fin 4) (sx : Bool), (s.insAt x u) → (((u.core x.core.val).reg ra + off).toNat % (2 ^ k.val) = 0) → ((u.core x.core.val).level = .monitor) → (((u.core x.core.val).reg ra + off).toNat < 2 ^ 40) → (u.ownTcm x.core.val ((u.core x.core.val).reg ra + off).toNat) → (eccBad x.mem.ecc = false) → ((u.core x.core.val).sb = []) →
      Completes (.coreLoad x rd ra off k sx) s (fun t => (t.core x.core.val) = { (u.core x.core.val).setReg rd (if sx then BitVec.ofInt 64 (signed (8 * (2 ^ k.val)) (u.load ((u.core x.core.val).reg ra + off).toNat (2 ^ k.val))) else BitVec.ofNat 64 (u.load ((u.core x.core.val).reg ra + off).toNat (2 ^ k.val))) with pc := (u.core x.core.val).pc + 4, stall := 0 } ∧ t.mem = u.mem)) ∧
    (∀ (s : State) (x : CoreIssue) (u : State) (rs ra : XReg) (off : BitVec 64) (k : Fin 4) (z : State), (s.insAt x u) → (((u.core x.core.val).reg ra + off).toNat % (2 ^ k.val) = 0) → (u.stores x ((u.core x.core.val).reg ra + off) (2 ^ k.val) (((u.core x.core.val).reg rs).toNat % 256 ^ (2 ^ k.val)) = some z) →
      Completes (.coreStore x rs ra off k) s (fun t => t = s.kept ((z.setCore x.core.val { z.core x.core.val with pc := (z.core x.core.val).pc + 4 }).issued x (u.core x.core.val).level))) ∧
    (∀ (s : State) (x : CoreIssue) (u : State) (rs ra : XReg) (off : BitVec 64) (k : Fin 4), (s.insAt x u) → (((u.core x.core.val).reg ra + off).toNat % (2 ^ k.val) = 0) → ((u.core x.core.val).level = .monitor) → (((u.core x.core.val).reg ra + off).toNat < 2 ^ 40) → (u.ownTcm x.core.val ((u.core x.core.val).reg ra + off).toNat) → ((u.core x.core.val).sb.length < 8) →
      Completes (.coreStore x rs ra off k) s (fun t => t = s.kept ((u.setCore x.core.val { (u.core x.core.val) with sb := (u.core x.core.val).sb ++ [⟨((u.core x.core.val).reg ra + off).toNat, (2 ^ k.val), ((u.core x.core.val).reg rs).toNat % 256 ^ (2 ^ k.val)⟩], pc := (u.core x.core.val).pc + 4 }).issued x (u.core x.core.val).level))) ∧
    (∀ (s : State) (x : CoreIssue) (u : State) (rd : XReg) (k : BitVec 12), (s.insAt x u) → (u.sysCause x.core.val k.toNat false = none) →
      Completes (.mfs x rd k) s (fun t => t = s.kept ((u.setCore x.core.val { (u.core x.core.val).setReg rd (u.sysRead x.core.val k.toNat) with pc := (u.core x.core.val).pc + 4 }).issued x (u.core x.core.val).level))) ∧
    (∀ (s : State) (x : CoreIssue) (u : State) (k : BitVec 12) (ra : XReg), (s.insAt x u) → (u.sysCause x.core.val k.toNat true = none) →
      Completes (.mts x k ra) s (fun t => (t.core x.core.val) = { (u.sysWrite x.core.val k.toNat ((u.core x.core.val).reg ra)).core x.core.val with pc := (u.core x.core.val).pc + 4, stall := 0 } ∧ (k = 0x010 → (t.core x.core.val).hvecS = ((u.core x.core.val).reg ra) &&& ~~~0xFFF#64) ∧ (k = 0x013 → (t.core x.core.val).retM = (u.core x.core.val).reg ra) ∧ (k = 0x031 → (t.core x.core.val).cmp = (u.core x.core.val).reg ra ∧ t.timerPending x.core.val = decide (((u.core x.core.val).reg ra).toNat ≤ u.clk.ac % 2 ^ 64)) ∧ t.mem = u.mem))

/-- A supervisor or monitor call enters its level; RFX returns to the saved pc, level and interrupt enable; an interrupt that a level takes enters its handler at 0x100 unless the core waits for a span write; a machine check drops the dirty line and enters monitor level at 0x200; TLB invalidation removes what it names; cache maintenance by address writes a dirty line of the L2, or of a core\'s L1 data cache, to memory, or drops the line from every cache of the die, and by set and way acts on the line there; BAR with SB drains the store buffer; SPNW writes its span and returns the mask of dies applied; CRD reads a counter pair, and clears it when asked; SLH stops issue until a wake condition, which first wakes a die that is not in RUN. -/
def Obligations.CoreSystemInstructionsComplete : Prop :=
    (∀ (s : State) (x : CoreIssue) (u : State), (s.insAt x u) →
      Completes (.supervisorCall x) s (fun t => t = s.kept (((u.coreEvent x.core.val 0x209).setCore x.core.val { (u.core x.core.val) with prev := (u.core x.core.val).level, slh := none, retS := (u.core x.core.val).pc, codeS := 8, ieS := false, level := .supervisor, pc := (u.core x.core.val).hvecS, steer := 6 }).issued x (u.core x.core.val).level))) ∧
    (∀ (s : State) (x : CoreIssue) (u : State), (s.insAt x u) →
      Completes (.monitorCall x) s (fun t => t = s.kept (((u.coreEvent x.core.val 0x209).setCore x.core.val { (u.core x.core.val) with prev := (u.core x.core.val).level, slh := none, retM := (u.core x.core.val).pc, codeM := 9, ieM := false, level := .monitor, pc := (u.core x.core.val).hvecM, steer := 6 }).issued x (u.core x.core.val).level))) ∧
    (∀ (s : State) (x : CoreIssue) (u : State), (s.insAt x u) → ((u.core x.core.val).level = .monitor) →
      Completes (.rfx x) s (fun t => t = s.kept ((u.setCore x.core.val { (u.core x.core.val) with level := (u.core x.core.val).prev, ieM := true, pc := (u.core x.core.val).retM, steer := 6 }).issued x (u.core x.core.val).level))) ∧
    (∀ (s : State) (x : CoreIssue) (u : State), (s.insAt x u) → ((u.core x.core.val).level = .supervisor) →
      Completes (.rfx x) s (fun t => t = s.kept ((u.setCore x.core.val { (u.core x.core.val) with level := (u.core x.core.val).prev, ieS := true, pc := (u.core x.core.val).retS, steer := 6 }).issued x (u.core x.core.val).level))) ∧
    (∀ (s : State) (core : Fin 12) (l : Fin 2), (s.running = true) → (s.coreIssues core.val = true) → ((s.deliverable core.val l.val).isSome = true) → (s.spanAt (32 + core.val) = none) → (s.spanAt (16 + core.val) = none) → ((if l.val = 1 then (s.core core.val).ieM else (s.core core.val).ieS) = true ∨ (s.core core.val).level = .user ∨ (l = 1 ∧ (s.core core.val).level = .supervisor)) →
      Completes (.interruptEntry core l) s (fun t => t.core core.val = if l = 1 then { s.core core.val with prev := (s.core core.val).level, slh := none, retM := (s.core core.val).pc, codeM := 0x10, ieM := false, level := .monitor, pc := (s.core core.val).hvecM + 0x100, steer := 6 } else { s.core core.val with prev := (s.core core.val).level, slh := none, retS := (s.core core.val).pc, codeS := 0x10, ieS := false, level := .supervisor, pc := (s.core core.val).hvecS + 0x100, steer := 6 })) ∧
    (∀ (s : State) (core : Fin 12) (l : Fin 2), (s.running = true) → (s.coreIssues core.val = true) → ((s.spanAt (32 + core.val)).isSome = true ∨ (s.spanAt (16 + core.val)).isSome = true) →
      Completes (.interruptEntry core l) s (fun t => t = s)) ∧
    (∀ (s : State) (core : Fin 12) (line : BitVec 34), (s.running = true) → (s.coreIssues core.val = true) → ((s.line (.data core.val) (line.toNat * 64)).any (·.dirty) = true ∨ (s.line (.l2 (coreDie core.val)) (line.toNat * 64)).any (·.dirty) = true) →
      Completes (.machineCheck core line) s (fun t => s.emptied t (.data core.val) (line.toNat * 64) ∧ s.emptied t (.l2 (coreDie core.val)) (line.toNat * 64) ∧ t.mem = s.mem ∧ (t.core core.val).codeM = 0x0B ∧ (t.core core.val).addrM = BitVec.ofNat 64 (line.toNat * 64) ∧ (t.core core.val).retM = (s.core core.val).pc ∧ (t.core core.val).prev = (s.core core.val).level ∧ (t.core core.val).level = .monitor ∧ (t.core core.val).pc = (s.core core.val).hvecM + 0x200 ∧ t.rd CTL_ECC_UE (onDie (coreDie core.val)) = s.rd CTL_ECC_UE (onDie (coreDie core.val)) + 1)) ∧
    (∀ (s : State) (x : CoreIssue) (u : State) (k : TlbInv), (s.insAt x u) → ((u.core x.core.val).level ≠ .user) →
      Completes (.tlbInvalidate x k) s (fun t => t = s.kept ((u.setCore x.core.val { (u.core x.core.val) with tlb := (match k with | .all => [] | .asid ra => (u.core x.core.val).tlb.filter (fun e => e.leaf.getLsbD 61 || e.asid != ((u.core x.core.val).reg ra).toNat % 2 ^ 12) | .va ra => (u.core x.core.val).tlb.filter (fun e => e.vpn != ((u.core x.core.val).reg ra).toNat / 2 ^ e.size)), pc := (u.core x.core.val).pc + 4 }).issued x (u.core x.core.val).level))) ∧
    (∀ (s : State) (x : CoreIssue) (u : State) (ra : XReg) (a : Nat) (z : State) (l : Line), (s.insAt x u) → (u.readAt x ((u.core x.core.val).reg ra) = some (a, z)) → ((z.core x.core.val).sb = []) → (z.line (.l2 (coreDie x.core.val)) a = some l) → (l.dirty = true) → (l.bytes.length = 64) → (z.noneDirty (coreDie x.core.val) a) → ((z.spanReach (coreDie x.core.val) (a / 64 * 64) 64).isOpen = true) → (x.mem.lost = false ∨ a / 2 ^ 36 = (coreDie x.core.val)) →
      Completes (.cacheMaintenance x .clean (.address ra)) s (fun t => t.bytes (a / 64 * 64) 64 = l.bytes ∧ t.line (.l2 (coreDie x.core.val)) a = some { l with dirty := false } ∧ t.ctl.l1d = z.ctl.l1d ∧ (t.core x.core.val).pc = (z.core x.core.val).pc + 4)) ∧
    (∀ (s : State) (x : CoreIssue) (u : State) (ra : XReg) (a : Nat) (z : State) (l m : Line), (s.insAt x u) → (u.readAt x ((u.core x.core.val).reg ra) = some (a, z)) → ((z.core x.core.val).sb = []) → (z.line (.data x.core.val) a = some l) → (l.dirty = true) → (l.bytes.length = 64) → ((dieCores z.part (coreDie x.core.val)).all (fun k => k == x.core.val || !(z.line (.data k) a).any (·.dirty)) = true) → (z.ownSram (coreDie x.core.val) a = false) → (z.line (.l2 (coreDie x.core.val)) a = some m) → ((z.spanReach (coreDie x.core.val) (a / 64 * 64) 64).isOpen = true) → (x.mem.lost = false ∨ a / 2 ^ 36 = (coreDie x.core.val)) →
      Completes (.cacheMaintenance x .clean (.address ra)) s (fun t => t.bytes (a / 64 * 64) 64 = l.bytes ∧ t.line (.l2 (coreDie x.core.val)) a = some { l with dirty := false } ∧ t.line (.data x.core.val) a = some { l with dirty := false } ∧ (t.core x.core.val).pc = (z.core x.core.val).pc + 4)) ∧
    (∀ (s : State) (x : CoreIssue) (u : State) (ra : XReg) (a : Nat) (z : State), (s.insAt x u) → (u.readAt x ((u.core x.core.val).reg ra) = some (a, z)) → ((z.core x.core.val).sb = []) →
      Completes (.cacheMaintenance x .invalidate (.address ra)) s (fun t => (∀ k ∈ dieCores z.part (coreDie x.core.val), z.emptied t (.data k) a ∧ z.emptied t (.code k) a) ∧ z.emptied t (.l2 (coreDie x.core.val)) a ∧ t.mem = z.mem ∧ (t.core x.core.val).pc = (z.core x.core.val).pc + 4)) ∧
    (∀ (s : State) (x : CoreIssue) (u : State) (ra : XReg) (a : Nat) (z : State) (l : Line), (s.insAt x u) → (u.readAt x ((u.core x.core.val).reg ra) = some (a, z)) → ((z.core x.core.val).sb = []) → (z.line (.l2 (coreDie x.core.val)) a = some l) → (l.bytes.length = 64) → (z.noneDirty (coreDie x.core.val) a) → ((z.spanReach (coreDie x.core.val) (a / 64 * 64) 64).isOpen = true) → (x.mem.lost = false ∨ a / 2 ^ 36 = (coreDie x.core.val)) →
      Completes (.cacheMaintenance x .cleanInvalidate (.address ra)) s (fun t => (∀ k ∈ dieCores z.part (coreDie x.core.val), z.emptied t (.data k) a ∧ z.emptied t (.code k) a) ∧ z.emptied t (.l2 (coreDie x.core.val)) a ∧ (if l.dirty then t.bytes (a / 64 * 64) 64 = l.bytes else t.mem = z.mem) ∧ (t.core x.core.val).pc = (z.core x.core.val).pc + 4)) ∧
    (∀ (s : State) (x : CoreIssue) (u : State) (op : CacheOp) (set : Fin 4096) (way : Fin 16) (l : Line), (s.insAt x u) → ((u.core x.core.val).level ≠ .user) → ((u.core x.core.val).sb = []) → (set.val < 256 ∧ way.val < 4) → (u.lineAt (.code x.core.val) ((Cache.code x.core.val).first (set.val * 64) + way.val) = some l) →
      Completes (.cacheMaintenance x op (.setWay .code set way)) s (fun t => (if op = .clean then t.ctl.l1i = u.ctl.l1i else u.emptied t (.code x.core.val) (l.tag * 64)) ∧ t.mem = u.mem ∧ t.ctl.l1d = u.ctl.l1d ∧ t.ctl.l2 = u.ctl.l2 ∧ (t.core x.core.val) = { (u.core x.core.val) with pc := (u.core x.core.val).pc + 4, stall := 0 })) ∧
    (∀ (s : State) (x : CoreIssue) (u : State) (op : CacheOp) (set : Fin 4096) (way : Fin 16) (l m : Line), (s.insAt x u) → ((u.core x.core.val).level ≠ .user) → ((u.core x.core.val).sb = []) → (set.val < 256 ∧ way.val < 4) → (u.lineAt (.data x.core.val) ((Cache.data x.core.val).first (set.val * 64) + way.val) = some l) → (u.line (.data x.core.val) (l.tag * 64) = some l) → (u.ownSram (coreDie x.core.val) (l.tag * 64) = false) → (u.line (.l2 (coreDie x.core.val)) (l.tag * 64) = some m) →
      Completes (.cacheMaintenance x op (.setWay .data set way)) s (fun t => t.line (.l2 (coreDie x.core.val)) (l.tag * 64) = (if op ≠ .invalidate ∧ l.dirty = true then some l else some m) ∧ (if op = .clean then t.line (.data x.core.val) (l.tag * 64) = some { l with dirty := false } else u.emptied t (.data x.core.val) (l.tag * 64)) ∧ t.mem = u.mem ∧ (t.core x.core.val) = { (u.core x.core.val) with pc := (u.core x.core.val).pc + 4, stall := 0 })) ∧
    (∀ (s : State) (x : CoreIssue) (u : State) (op : CacheOp) (set : Fin 4096) (way : Fin 16) (l : Line), (s.insAt x u) → ((u.core x.core.val).level ≠ .user) → ((u.core x.core.val).sb = []) → (way.val < u.ways (.l2 (coreDie x.core.val))) → (u.lineAt (.l2 (coreDie x.core.val)) ((Cache.l2 (coreDie x.core.val)).first (set.val * 64) + way.val) = some l) → (u.line (.l2 (coreDie x.core.val)) (l.tag * 64) = some l) → (u.noneDirty (coreDie x.core.val) (l.tag * 64)) → (l.bytes.length = 64) → ((u.spanReach (coreDie x.core.val) ((l.tag * 64) / 64 * 64) 64).isOpen = true) → (x.mem.lost = false ∨ (l.tag * 64) / 2 ^ 36 = (coreDie x.core.val)) →
      Completes (.cacheMaintenance x op (.setWay .l2 set way)) s (fun t => (if op = .clean then t.line (.l2 (coreDie x.core.val)) (l.tag * 64) = some { l with dirty := false } else u.emptied t (.l2 (coreDie x.core.val)) (l.tag * 64)) ∧ (if op ≠ .invalidate ∧ l.dirty = true then t.bytes ((l.tag * 64) / 64 * 64) 64 = l.bytes else t.mem = u.mem) ∧ (t.core x.core.val).pc = (u.core x.core.val).pc + 4)) ∧
    (∀ (s : State) (x : CoreIssue) (u : State) (op : CacheOp) (kind : CacheKind) (set : Fin 4096) (way : Fin 16), (s.insAt x u) → ((u.core x.core.val).level ≠ .user) → ((u.core x.core.val).sb = []) → ((kind = .code → 4 ≤ way.val ∨ 256 ≤ set.val ∨ u.lineAt (.code x.core.val) ((Cache.code x.core.val).first (set.val * 64) + way.val) = none) ∧ (kind = .data → 4 ≤ way.val ∨ 256 ≤ set.val ∨ u.lineAt (.data x.core.val) ((Cache.data x.core.val).first (set.val * 64) + way.val) = none) ∧ (kind = .l2 → u.ways (.l2 (coreDie x.core.val)) ≤ way.val ∨ u.lineAt (.l2 (coreDie x.core.val)) ((Cache.l2 (coreDie x.core.val)).first (set.val * 64) + way.val) = none)) →
      Completes (.cacheMaintenance x op (.setWay kind set way)) s (fun t => t = s.kept ((u.setCore x.core.val { u.core x.core.val with pc := (u.core x.core.val).pc + 4 }).issued x (u.core x.core.val).level))) ∧
    (∀ (s : State) (x : CoreIssue) (u : State) (imm : Byte), (s.insAt x u (some (deviceWord 0 0 0 0 imm))) → (imm.toNat < 8) → (imm.getLsbD 0 = true → ((u.drainAll x.core.val).core x.core.val).sb = []) →
      Completes (.bar x 0 0 0 imm) s (fun t => t = (let z := if imm.getLsbD 0 then u.drainAll x.core.val else u; s.kept ((z.setCore x.core.val { z.core x.core.val with pc := (z.core x.core.val).pc + 4 }).issued x (u.core x.core.val).level)) ∧ (imm.getLsbD 0 = true → (t.core x.core.val).sb = []))) ∧
    (∀ (s : State) (x : CoreIssue) (u : State) (rd ra rb : XReg) (imm : Byte) (w : SpanWait), (s.insAt x u (some (deviceWord 1 rd ra rb imm))) → ((u.core x.core.val).level ≠ .user) → (((u.core x.core.val).reg rb).toNat / 2 ^ 32 = 0xF) → (((u.core x.core.val).reg rb).toNat % 4 = 0) → (u.spanAt (16 + x.core.val) = none) → ((u.spanDeliver (16 + x.core.val) (.core x.core) (u.core x.core.val).level (if imm = 0 then 0xFF else imm.toNat) ((u.core x.core.val).reg rb).toNat 4 (((u.core x.core.val).reg ra).toNat % 2 ^ 32)).spanAt (16 + x.core.val) = some w) → (w.waiting = 0) →
      Completes (.spnw x rd ra rb imm) s (fun t => (t.core x.core.val).reg rd = BitVec.ofNat 64 w.applied ∧ t.spanAt (16 + x.core.val) = none ∧ (t.core x.core.val).pc = (u.core x.core.val).pc + 4)) ∧
    (∀ (s : State) (x : CoreIssue) (u : State) (rd ra rb : XReg) (imm : Byte) (h : Nat), (s.insAt x u (some (deviceWord 2 rd ra rb imm))) → (rd.val % 2 = 0) → (imm.toNat < 2) → ((u.core x.core.val).level ≠ .user ∨ (u.core x.core.val).ucrd = true) → (((u.core x.core.val).reg ra).toNat / 2 ^ 32 < 6) → (((u.core x.core.val).reg ra).toNat % 2 ^ 32 / 2 ^ 18 = 0) → (u.reach (coreDie x.core.val) (((u.core x.core.val).reg ra).toNat / 2 ^ 32) = .open_ h) → (((u.core x.core.val).reg ra).toNat % 2 ^ 18 < cntPairs (((u.core x.core.val).reg ra).toNat / 2 ^ 32)) → (x.mem.lost = false ∨ ((u.core x.core.val).reg ra).toNat / 2 ^ 32 = (coreDie x.core.val)) →
      Completes (.crd x rd ra rb imm) s (fun t => t = let z := if imm = 1 then u.setPair (((u.core x.core.val).reg ra).toNat / 2 ^ 32) (((u.core x.core.val).reg ra).toNat % 2 ^ 18) 0 0 else u; s.kept ((z.setCore x.core.val { ((u.core x.core.val).setReg rd (BitVec.ofNat 64 (u.pair (((u.core x.core.val).reg ra).toNat / 2 ^ 32) (((u.core x.core.val).reg ra).toNat % 2 ^ 18)).1)).setReg (rd + 1) (BitVec.ofNat 64 (u.pair (((u.core x.core.val).reg ra).toNat / 2 ^ 32) (((u.core x.core.val).reg ra).toNat % 2 ^ 18)).2) with pc := (u.core x.core.val).pc + 4 }).issued x (u.core x.core.val).level))) ∧
    (∀ (s : State) (x : CoreIssue) (u : State) (ra : XReg), (s.insAt x u (some (deviceWord 3 0 ra 0 0))) → ((u.core x.core.val).level ≠ .user) → ((u.core x.core.val).sb = []) →
      Completes (.slh x 0 ra 0 0) s (fun t => t = s.kept ((u.setCore x.core.val { (u.core x.core.val) with slh := if u.slhWakes x.core.val ((u.core x.core.val).reg ra) then (u.core x.core.val).slh else some ((u.core x.core.val).reg ra), pc := (u.core x.core.val).pc + 4 }).issued x (u.core x.core.val).level))) ∧
    (∀ (s : State) (core : Fin 12) (xa : BitVec 64), (s.islandRuns (coreDie core.val) 4 = true) → ((s.core core.val).slh = some xa) → (s.slhWakes core.val xa = true) → (s.powerState (coreDie core.val) = 0) →
      Completes (.slhWake core) s (fun t => t = s.setCore core.val { s.core core.val with slh := none })) ∧
    (∀ (s : State) (core : Fin 12) (xa : BitVec 64), (s.islandRuns (coreDie core.val) 4 = true) → ((s.core core.val).slh = some xa) → (s.slhWakes core.val xa = true) → (s.powerState (coreDie core.val) ≠ 0) → (Tab.get s.pwr.wake none (coreDie core.val) = none) →
      Completes (.slhWake core) s (fun t => Tab.get t.pwr.wake none (coreDie core.val) = some (7, core.val) ∧ t.core core.val = s.core core.val))

/-- A RESET_N low of 250 to 24,999 ac asks for a warm reset when it ends, unless OPEN is granted, one that reaches 25,000 ac for a cold reset, once for that low level, a shorter one for nothing; a cold start that waits for RESET_N begins when it is high; RST_CTL asks likewise. A warm reset keeps memory and fuses and records its cause; a cold reset leaves every memory empty, keeps the fuses, records its cause and begins rail-down from the steps that were up; loss of the always-on rail leaves the part dead. Rail-down takes the steps downwards, each after its delay, with the enables of the steps reached inactive; then the fuses are sensed for 500 ac and rail-up begins, or waits for RESET_N, but not in OFF nor after a rail fault. A step of rail-up ends when its power-good inputs have stood for 4 ac and its delay has passed, and the last releases the dies; a rail fault, within a step after its timeout or later of a rail that was good, counts, begins rail-down and asks for a cold reset, which is retried after 25,000,000 ac, at most three times. -/
def Obligations.ResetsAndRailsComplete : Prop :=
    (∀ (s : State) (n : Nat), (s.hw.alive = true) → (s.hw.off = false) → (250 ≤ n ∧ n < 25000) → (s.hw.openGranted = false) → (s.hw.pinHold = false) → (s.hw.req = none ∨ s.hw.req.any ResetCause.warm = true) →
      Completes (.resetNChange true n) s (fun t => t.hw = { s.hw with req := some .pinWarm, resetLow := false, resetTaken := false })) ∧
    (∀ (s : State) (b : Bool) (n : Nat), (s.hw.alive = true) → (s.hw.off = false) → (25000 ≤ n) → (s.hw.resetTaken = false) →
      Completes (.resetNChange b n) s (fun t => t.hw = { s.hw with req := some .pinCold, resetLow := !b, resetTaken := !b } ∧ t.regs = s.regs)) ∧
    (∀ (s : State) (n : Nat), (s.hw.alive = true) → (s.hw.off = false) → (n < 25000 ∨ s.hw.resetTaken = true) → (s.hw.pinHold = true) → (s.hw.req = none) →
      Completes (.resetNChange true n) s (fun t => t.hw = { s.hw with resetLow := false, resetTaken := false, pinHold := false, railStep := some 0, railDown := none, sensing := false, railAt := s.clk.ac, powerGood := 0 } ∧ t.regs = s.regs)) ∧
    (∀ (s : State) (b : Bool) (n : Nat), (s.hw.alive = true) → (n < 250) → (b = false ∨ s.hw.pinHold = false) →
      Completes (.resetNChange b n) s (fun t => t.hw = { s.hw with resetLow := !b, resetTaken := s.hw.resetTaken && !b } ∧ t.regs = s.regs ∧ t.mem = s.mem)) ∧
    (∀ (s : State) (v : Word), (s.running = true) → (bits v 1 1 = 1) →
      Completes (.rstCtlCold .monitor v) s (fun t => t.hw = { s.hw with req := some .regCold } ∧ t.regs = s.regs)) ∧
    (∀ (s : State) (v : Word), (s.running = true) → (bits v 1 1 = 0) → (bits v 0 0 = 1) → (s.hw.openGranted = false) → (s.hw.req = none ∨ s.hw.req.any ResetCause.warm = true) →
      Completes (.rstCtlWarm .monitor v) s (fun t => t.hw = { s.hw with req := some .regWarm } ∧ t.regs = s.regs)) ∧
    (∀ (s : State) (c : ResetCause), (s.hw.alive = true) → (s.hw.req = some c) → (c.warm = true) → (s.hw.openGranted = false) → (s.hw.railsUp = true) → (s.hw.dbg.seq.any (fun x => x.1 == 1) = false) →
      Completes (.warmReset) s (fun t => t.get HW_RST_CAUSE_CAUSE d0 = 2 ^ c.bit ∧ t.mem = s.mem ∧ t.hw.fuses = s.hw.fuses ∧ t.hw.req = none ∧ t.hw.ready = none ∧ t.hw.boot = none ∧ t.tm = State.reset.tm ∧ t.pipe = State.reset.pipe ∧ t.dma = [] ∧ t.is HW_SEC_EVT_ZEROISED d0 = true)) ∧
    (∀ (s : State) (c : ResetCause), (s.hw.alive = true) → (s.hw.req = some c) → (c.warm = false) → (s.hw.burn = none) → (s.hw.dbg.seq.any (fun x => x.1 == 1) = false) →
      Completes (.coldReset) s (fun t => t.get HW_RST_CAUSE_CAUSE d0 = 2 ^ c.bit ∧ t.mem = [] ∧ t.hw.fuses = s.hw.fuses ∧ t.part = s.part ∧ t.tm = State.reset.tm ∧ t.pipe = State.reset.pipe ∧ t.ctl.core = [] ∧ t.hw.railsUp = false ∧ t.hw.railDown = (if s.hw.off then none else match s.hw.railDown with | some x => some x | none => if s.hw.sensing then none else some { step := (s.stepBelow 15).getD 0, top := s.railTop }) ∧ t.hw.railStep = (if s.hw.off = true ∧ s.hw.resetLow = false then some 0 else none) ∧ (s.hw.off = true → t.hw.pinHold = s.hw.resetLow))) ∧
    (∀ (s : State), (s.hw.alive = false) → (s.hw.burn = none) → (s.hw.dbg.seq.any (fun x => x.1 == 1) = false) →
      Completes (.coldReset) s (fun t => t.get HW_RST_CAUSE_CAUSE d0 = 1 ∧ t.hw.alive = true ∧ t.mem = [] ∧ t.hw.fuses = s.hw.fuses ∧ t.part = s.part ∧ t.tm = State.reset.tm ∧ t.pipe = State.reset.pipe ∧ t.ctl.core = [] ∧ t.hw.railsUp = false ∧ t.hw.railDown = (if s.hw.off then none else match s.hw.railDown with | some x => some x | none => if s.hw.sensing then none else some { step := (s.stepBelow 15).getD 0, top := s.railTop }) ∧ t.hw.railStep = (if s.hw.off = true ∧ s.hw.resetLow = false then some 0 else none) ∧ (s.hw.off = true → t.hw.pinHold = s.hw.resetLow))) ∧
    (∀ (s : State), (s.hw.alive = true) → (s.hw.burn = none) → (s.hw.dbg.seq.any (fun x => x.1 == 1) = false) →
      Completes (.alwaysOnPowerLoss) s (fun t => t.hw = { alive := false, fuses := s.hw.fuses, railStep := none, resetLow := s.hw.resetLow } ∧ t.mem = [] ∧ t.regs = [] ∧ t.part = s.part)) ∧
    (∀ (s : State) (x : RailDown) (j : Nat), (s.hw.railDown = some x) → (s.hw.railAt + s.stepDelay x.step ≤ s.clk.ac) → (s.stepBelow x.step = some j) →
      s.railTick.hw = { s.hw with railDown := some { x with step := j }, railAt := s.clk.ac } ∧ s.railTick.regs = s.regs ∧ (s.hw.railsUp = false → ∀ r < 24, s.railTick.railEnable r = (s.railEnable r && decide (s.get PWR_RAIL_CFG_STEP (d0i r) < j)))) ∧
    (∀ (s : State) (x : RailDown), (s.hw.railDown = some x) → (s.hw.railAt + s.stepDelay x.step ≤ s.clk.ac) → (s.stepBelow x.step = none) →
      s.railTick.hw = { s.hw with railDown := none, railAt := s.clk.ac, sensing := !s.hw.off && s.get HW_RST_CAUSE_CAUSE d0 != 2 ^ 5 }) ∧
    (∀ (s : State), (s.hw.railDown = none) → (s.hw.sensing = true) → (s.hw.railAt + 500 ≤ s.clk.ac) →
      s.railTick.hw.sensing = false ∧ s.railTick.hw.pinHold = s.hw.resetLow ∧ (s.hw.resetLow = false → s.railTick.hw.railStep = some 0 ∧ s.railTick.hw.railAt = s.clk.ac)) ∧
    (∀ (s : State) (j k : Nat), (s.hw.alive = true) → (s.hw.railsUp = false) → (s.hw.railDown = none) → (s.railStepNow = some k) → (s.hw.railAt + 4 + s.stepDelay k ≤ s.clk.ac) → (s.nextStep (k + 1) = some j) →
      Completes (.railPowerGood) s (fun t => t.hw.railStep = some j ∧ t.hw.railAt = s.clk.ac ∧ t.hw.railsUp = false ∧ t.regs = s.regs ∧ ∀ r < 24, t.hw.powerGood.getLsbD r = (s.hw.powerGood.getLsbD r || decide (s.get PWR_RAIL_CFG_STEP (d0i r) = k)))) ∧
    (∀ (s : State) (k : Nat), (s.hw.alive = true) → (s.hw.railsUp = false) → (s.hw.railDown = none) → (s.railStepNow = some k) → (s.hw.railAt + 4 + s.stepDelay k ≤ s.clk.ac) → (s.nextStep (k + 1) = none) →
      Completes (.railPowerGood) s (fun t => t.hw.railsUp = true ∧ t.hw.railStep = none ∧ t.hw.released = BitVec.ofNat 8 (presentMask s.part) ∧ t.is CLK_STATUS_REF_LOCK d0 = true ∧ t.get CLK_STATUS_DIE_PLL d0 = presentMask s.part ∧ t.get CLK_STATUS_LW_LOCKED d0 = 0 ∧ ∀ r < 24, t.hw.powerGood.getLsbD r = (s.hw.powerGood.getLsbD r || decide (s.get PWR_RAIL_CFG_STEP (d0i r) = k)))) ∧
    (∀ (s : State) (k : Nat), (s.hw.alive = true) → (s.hw.railsUp = false) → (s.railStepNow = some k) → (s.clk.ac < s.hw.railAt + 4 + s.stepDelay k) →
      Completes (.railPowerGood) s (fun t => t = s)) ∧
    (∀ (s : State), (s.hw.alive = true) → (s.is PWR_SEQ_STAT_TABLE_VALID d0 = false) →
      Completes (.railPowerGood) s (fun t => t = s)) ∧
    (∀ (s : State) (r : Fin 24), (s.hw.alive = true) → (s.hw.railsUp = true) → (s.hw.railDown = none) → (s.hw.powerGood.getLsbD r.val = true) → (s.get PWR_RAIL_CFG_STEP (d0i r.val) ≠ 15) → (s.hw.railAt + 4 ≤ s.clk.ac) →
      Completes (.railFault r true) s (fun t => t.hw.faults = s.hw.faults + 1 ∧ t.hw.fault = some (2, r.val) ∧ t.hw.railsUp = false ∧ t.hw.railStep = none ∧ t.hw.railDown = some { step := (s.stepBelow 15).getD 0, top := 15 } ∧ t.hw.railAt = s.clk.ac ∧ t.hw.powerGood = 0 ∧ t.hw.req = some .railFault ∧ ∀ d < 8, t.powerState d = 0)) ∧
    (∀ (s : State) (r : Fin 24), (s.hw.alive = true) → (s.hw.railsUp = false) → (s.hw.railDown = none) → (s.railStepNow = some (s.get PWR_RAIL_CFG_STEP (d0i r.val))) → (s.hw.powerGood.getLsbD r.val = false) → (s.hw.railAt + s.railTimeout r.val ≤ s.clk.ac) →
      Completes (.railFault r false) s (fun t => t.hw.faults = s.hw.faults + 1 ∧ t.hw.fault = some (1, r.val) ∧ t.hw.railsUp = false ∧ t.hw.railStep = none ∧ t.hw.railDown = some { step := (s.stepBelow 15).getD 0, top := s.get PWR_RAIL_CFG_STEP (d0i r.val) + 1 } ∧ t.hw.railAt = s.clk.ac ∧ t.hw.powerGood = 0 ∧ t.hw.req = some .railFault ∧ ∀ d < 8, t.powerState d = 0)) ∧
    (∀ (s : State) (r : Fin 24) (b : Bool), (s.hw.alive = true) → (s.railEnable r.val = false ∨ (b = true ∧ s.hw.powerGood.getLsbD r.val = false)) →
      Completes (.railFault r b) s (fun t => t = s)) ∧
    (∀ (s : State), (s.hw.alive = true) → (s.get HW_RST_CAUSE_CAUSE d0 = 2 ^ 5) → (s.hw.railStep = none) → (s.hw.railDown = none) → (s.hw.sensing = false) → (s.hw.railsUp = false) → (s.hw.off = false) → (s.hw.faults < 3) → (s.hw.railAt + 25000000 ≤ s.clk.ac) →
      Completes (.railFaultRetry) s (fun t => t.hw = { s.hw with railStep := some 0, pinHold := false, railAt := s.clk.ac, powerGood := 0 } ∧ t.regs = s.regs))

/-- A monitor-level PMBus GO while not BUSY queues its transaction, whose end shows its result and data; a write with a PEC sends it after the data, and a read with a wrong PEC gives ERR 2 and no data (the polynomial is PRESUMED, log 113); enabling AVS under LINEAR16 reads the exponent and the voltage, and each adjustment raises or lowers the voltage, which VOUT_MV shows in its 10 bits, by its step within its limits, by VOUT_COMMAND (its code 0x21 is PRESUMED); a fuse operation that is armed and allowed burns, and its end shows what it burnt; the rail table may be burnt by the TAP in BLANK; a slot that passes loads its segments and is released, one that fails a check shows its error and the next slot is tried. -/
def Obligations.PowerRailsFusesAndBootComplete : Prop :=
    (∀ (s : State) (k : Fin 5) (v : Word), (s.running = true) → (s.is PWR_PMB_CMD_BUSY d0 = false) →
      Completes (match k with | 0 => .pmbSendByte .monitor v | 1 => .pmbWriteByte .monitor v | 2 => .pmbWriteWord .monitor v | 3 => .pmbReadByte .monitor v | _ => .pmbReadWord .monitor v) s (fun t => t.hw = { s.hw with pmb := s.hw.pmb ++ [{ avs := false, kind := k.val, addr := bits v 22 16, code := bits v 15 8, data := s.get PWR_PMB_DATA_V d0, pec := s.is PWR_PMB_CFG_PEC d0 }] } ∧ t.is PWR_PMB_CMD_BUSY d0 = true)) ∧
    (∀ (s : State) (j : PmbJob) (l : List PmbJob) (b : BitVec 16), (s.hw.alive = true) → (s.hw.pmb = j :: l) → (j.avs = false) →
      Completes (.pmbTransactionDone true true b) s (fun t => t.hw = { s.hw with pmb := l, pmbWire := j.wire } ∧ (j.kind < 3 → t.hw.pmbWire = [BitVec.ofNat 8 (j.addr * 2), BitVec.ofNat 8 j.code] ++ leBytes j.kind j.data ++ (if j.pec then [pecByte ([BitVec.ofNat 8 (j.addr * 2), BitVec.ofNat 8 j.code] ++ leBytes j.kind j.data)] else [])) ∧ (3 ≤ j.kind → t.hw.pmbWire = [BitVec.ofNat 8 (j.addr * 2), BitVec.ofNat 8 j.code, BitVec.ofNat 8 (j.addr * 2 + 1)]) ∧ t.is PWR_PMB_CMD_BUSY d0 = false ∧ t.get PWR_PMB_CMD_ERR d0 = 0 ∧ t.get PWR_PMB_DATA_V d0 = (if j.kind < 3 then s.get PWR_PMB_DATA_V d0 else if j.kind = 3 then b.toNat % 256 else b.toNat))) ∧
    (∀ (s : State) (j : PmbJob) (l : List PmbJob) (b : BitVec 16), (s.hw.alive = true) → (s.hw.pmb = j :: l) → (j.avs = false) → (3 ≤ j.kind) → (j.pec = true) →
      Completes (.pmbTransactionDone true false b) s (fun t => t.hw = { s.hw with pmb := l, pmbWire := j.wire } ∧ t.is PWR_PMB_CMD_BUSY d0 = false ∧ t.get PWR_PMB_CMD_ERR d0 = 2 ∧ t.get PWR_PMB_DATA_V d0 = s.get PWR_PMB_DATA_V d0)) ∧
    (∀ (s : State) (j : PmbJob) (l : List PmbJob) (k p : Bool) (b : BitVec 16), (s.hw.alive = true) → (s.hw.pmb = j :: l) → (j.avs = true) →
      Completes (.pmbTransactionDone k p b) s (fun t => t.hw = { s.hw with pmb := l, pmbWire := j.wire } ∧ t.regs = s.regs)) ∧
    (∀ (s : State) (j : PmbJob) (l : List PmbJob) (p : Bool) (b : BitVec 16), (s.hw.alive = true) → (s.hw.pmb = j :: l) → (j.avs = false) →
      Completes (.pmbTransactionDone false p b) s (fun t => t.hw = { s.hw with pmb := l, pmbWire := j.wire } ∧ t.is PWR_PMB_CMD_BUSY d0 = false ∧ t.get PWR_PMB_CMD_ERR d0 = 1 ∧ t.get PWR_PMB_DATA_V d0 = s.get PWR_PMB_DATA_V d0)) ∧
    (∀ (s : State) (v : Word) (m : Byte) (o : BitVec 16), (s.running = true) → (s.is PWR_AVS_CFG_EN d0 = false) → (bits v 31 31 = 1) → (m.toNat / 32 = 0) →
      Completes (.avsEnable .monitor v m o) s (fun t => t.hw.avs = { run := true, exp := signed 5 m.toNat, v := scaleRound (o.toNat * 1000) (signed 5 m.toNat), cap := none } ∧ t.get PWR_AVS_STAT_VOUT_MV d0 = scaleRound (o.toNat * 1000) (signed 5 m.toNat) % 2 ^ 10 ∧ t.is PWR_AVS_STAT_ERR d0 = false)) ∧
    (∀ (s : State) (v : Word) (m : Byte) (o : BitVec 16), (s.running = true) → (s.is PWR_AVS_CFG_EN d0 = false) → (bits v 31 31 = 1) → (m.toNat / 32 ≠ 0) →
      Completes (.avsEnable .monitor v m o) s (fun t => t.hw.avs.run = false ∧ t.is PWR_AVS_STAT_ERR d0 = true)) ∧
    (∀ (s : State) (v : Word) (m : Byte) (o : BitVec 16), (s.running = true) → (bits v 31 31 = 0) →
      Completes (.avsEnable .monitor v m o) s (fun t => t.hw.avs = { s.hw.avs with run := false })) ∧
    (∀ (s : State), (s.hw.alive = true) → (s.hw.avs.run = true) → (s.leastMargin + s.get PWR_AVS_CFG_HYST d0 < s.get PWR_AVS_CFG_TARGET d0) → (s.hw.avs.cap = none) →
      Completes (.avsAdjust) s (fun t => t.hw.avs = { s.hw.avs with v := (Nat.min (s.hw.avs.v + s.get PWR_AVS_CFG_STEP d0 * 5) (s.get PWR_AVS_LIM_VMAX_MV d0)) } ∧ t.get PWR_AVS_STAT_MARGIN d0 = s.leastMargin % 2 ^ 8 ∧ ((Nat.min (s.hw.avs.v + s.get PWR_AVS_CFG_STEP d0 * 5) (s.get PWR_AVS_LIM_VMAX_MV d0)) = s.hw.avs.v → t.hw = s.hw) ∧ ((Nat.min (s.hw.avs.v + s.get PWR_AVS_CFG_STEP d0 * 5) (s.get PWR_AVS_LIM_VMAX_MV d0)) ≠ s.hw.avs.v → t.get PWR_AVS_STAT_VOUT_MV d0 = (Nat.min (s.hw.avs.v + s.get PWR_AVS_CFG_STEP d0 * 5) (s.get PWR_AVS_LIM_VMAX_MV d0)) % 2 ^ 10 ∧ t.hw.pmb = s.hw.pmb ++ [{ avs := true, kind := 2, addr := s.get PWR_AVS_CFG_ADDR d0, code := 0x21, data := voutCommand (Nat.min (s.hw.avs.v + s.get PWR_AVS_CFG_STEP d0 * 5) (s.get PWR_AVS_LIM_VMAX_MV d0)) s.hw.avs.exp, pec := s.is PWR_PMB_CFG_PEC d0 }]))) ∧
    (∀ (s : State), (s.hw.alive = true) → (s.hw.avs.run = true) → (s.get PWR_AVS_CFG_TARGET d0 + s.get PWR_AVS_CFG_HYST d0 < s.leastMargin) →
      Completes (.avsAdjust) s (fun t => t.hw.avs = { s.hw.avs with v := (Nat.max (s.hw.avs.v - s.get PWR_AVS_CFG_STEP d0 * 5) (s.get PWR_AVS_LIM_VMIN_MV d0)) } ∧ ((Nat.max (s.hw.avs.v - s.get PWR_AVS_CFG_STEP d0 * 5) (s.get PWR_AVS_LIM_VMIN_MV d0)) = s.hw.avs.v → t.hw = s.hw) ∧ ((Nat.max (s.hw.avs.v - s.get PWR_AVS_CFG_STEP d0 * 5) (s.get PWR_AVS_LIM_VMIN_MV d0)) ≠ s.hw.avs.v → t.get PWR_AVS_STAT_VOUT_MV d0 = (Nat.max (s.hw.avs.v - s.get PWR_AVS_CFG_STEP d0 * 5) (s.get PWR_AVS_LIM_VMIN_MV d0)) % 2 ^ 10 ∧ t.hw.pmb = s.hw.pmb ++ [{ avs := true, kind := 2, addr := s.get PWR_AVS_CFG_ADDR d0, code := 0x21, data := voutCommand (Nat.max (s.hw.avs.v - s.get PWR_AVS_CFG_STEP d0 * 5) (s.get PWR_AVS_LIM_VMIN_MV d0)) s.hw.avs.exp, pec := s.is PWR_PMB_CFG_PEC d0 }]))) ∧
    (∀ (s : State) (k : Fin 7) (v : Word), (s.running = true) → (s.hw.burn = none) → (bits v 15 0 = 0xA5C3) → (s.fuseErr k.val (bits v 23 16) = 0) →
      Completes (match k with | 0 => .fuseAdvance .monitor v | 1 => .fuseScrap .monitor v | 2 => .fuseRollback .monitor v | 3 => .fuseRevoke .monitor v | 4 => .fuseRailTable .monitor v | 5 => .fuseBootKey .monitor v | _ => .fuseDbgKey .monitor v) s (fun t => t.hw = { s.hw with burn := some (k.val, bits v 23 16) } ∧ t.is HW_FUSE_CMD_BUSY d0 = true)) ∧
    (∀ (s : State) (k : Fin 7) (v : Word), (s.running = true) → (s.hw.burn = none) → (bits v 15 0 = 0xA5C3) → (s.fuseErr k.val (bits v 23 16) ≠ 0) →
      Completes (match k with | 0 => .fuseAdvance .monitor v | 1 => .fuseScrap .monitor v | 2 => .fuseRollback .monitor v | 3 => .fuseRevoke .monitor v | 4 => .fuseRailTable .monitor v | 5 => .fuseBootKey .monitor v | _ => .fuseDbgKey .monitor v) s (fun t => t.hw = s.hw ∧ t.get HW_FUSE_CMD_ERR d0 = s.fuseErr k.val (bits v 23 16))) ∧
    (∀ (s : State) (k : Fin 7) (v : Word), (s.running = true) → (s.hw.burn = none) → (bits v 15 0 ≠ 0xA5C3) →
      Completes (match k with | 0 => .fuseAdvance .monitor v | 1 => .fuseScrap .monitor v | 2 => .fuseRollback .monitor v | 3 => .fuseRevoke .monitor v | 4 => .fuseRailTable .monitor v | 5 => .fuseBootKey .monitor v | _ => .fuseDbgKey .monitor v) s (fun t => t.hw = s.hw ∧ t.get HW_FUSE_CMD_ERR d0 = 1)) ∧
    (∀ (s : State) (k a : Nat), (s.hw.alive = true) → (s.hw.burn = some (k, a)) →
      Completes (.fuseBurnDone true) s (fun t => t.hw.burn = none ∧ t.is HW_FUSE_CMD_BUSY d0 = false ∧ t.get HW_FUSE_CMD_ERR d0 = 0 ∧ (k = 0 → 2 ≤ t.hw.fuses.lc.getD 0 0) ∧ (k = 1 → t.hw.fuses.lc = [3, 3, 3]) ∧ (k = 2 → t.hw.fuses.rollback = Nat.max s.hw.fuses.rollback a) ∧ (k = 3 → t.hw.fuses.revoked.testBit a = true) ∧ (k = 4 → t.hw.fuses.rails = some (s.hw.fuses.rails.getD (s.words PWR_RAIL_STAGE 24)) ∧ t.is PWR_SEQ_STAT_TABLE_VALID d0 = true) ∧ (k = 5 → Tab.get t.hw.fuses.bootKeys [] a = burnHash (Tab.get s.hw.fuses.bootKeys [] a) (s.words HW_FUSE_DATA 12)) ∧ (k = 6 → Tab.get t.hw.fuses.dbgKeys [] a = burnHash (Tab.get s.hw.fuses.dbgKeys [] a) (s.words HW_FUSE_DATA 12)))) ∧
    (∀ (s : State) (k a : Nat), (s.hw.alive = true) → (s.hw.burn = some (k, a)) →
      Completes (.fuseBurnDone false) s (fun t => t.hw = { s.hw with burn := none } ∧ t.is HW_FUSE_CMD_BUSY d0 = false ∧ t.get HW_FUSE_CMD_ERR d0 = 4)) ∧
    (∀ (s : State), (s.hw.alive = true) → (s.hw.burn = none) → (s.hw.fuses.lifecycle = 0) → (s.hw.fuses.rails = none) →
      Completes (.tapFuseProg) s (fun t => t.hw = { s.hw with burn := some (4, 0) } ∧ t.is HW_FUSE_CMD_BUSY d0 = true)) ∧
    (∀ (s : State) (l : List Byte), (s.hw.alive = true) → (s.hw.railsUp = true) → (s.hw.boot = none) → (s.hw.slot < 2) → (s.hw.fuses.lifecycle ≠ 3) → (s.hw.fuses.earlyErr l = 0) → (s.hw.fuses.signed l = true) →
      Completes (.bootSlotCheck l) s (fun t => t.hw.boot = some { slot := s.hw.slot, svn := field l 8 4, key := field l 12 1, entry := field l 16 8, ways := field l 13 1 } ∧ t.get HW_BOOT_STAT_STATE d0 = 1 ∧ t.get CTL_L2_CFG_SRAM_WAYS d0 = field l 13 1 ∧ ∀ x ∈ imageSegs l, t.bytes x.dst x.len = slice l x.off x.len)) ∧
    (∀ (s : State) (l : List Byte) (e : Nat), (s.hw.alive = true) → (s.hw.railsUp = true) → (s.hw.boot = none) → (s.hw.slot < 2) → (s.hw.fuses.lifecycle ≠ 3) → (s.hw.fuses.earlyErr l = e) → (e ≠ 0) →
      Completes (.bootSlotCheck l) s (fun t => t.hw = { s.hw with slot := s.hw.slot + 1 } ∧ t.get (if s.hw.slot = 0 then HW_BOOT_STAT_ERR_A else HW_BOOT_STAT_ERR_B) d0 = e ∧ t.get HW_BOOT_STAT_STATE d0 = (if s.hw.slot = 0 then 0 else 3) ∧ t.mem = s.mem)) ∧
    (∀ (s : State) (b : BootImage), (s.hw.alive = true) → (s.hw.boot = some b) → (s.get HW_BOOT_STAT_STATE d0 ≠ 2) → (s.hw.tempCheck = false) →
      Completes (.bootRelease) s (fun t => t.get HW_BOOT_STAT_STATE d0 = 2 ∧ t.get HW_BOOT_STAT_SVN d0 = b.svn % 2 ^ 6 ∧ t.get HW_BOOT_STAT_KEY_IDX d0 = b.key % 4 ∧ t.get HW_BOOT_STAT_SLOT d0 = b.slot % 2 ∧ (t.rd CTL_RESET_VEC (onDie 0)).toNat = b.entry / 4 % 2 ^ 32 ∧ ∀ n < 8, (t.core n).run = true ∧ (t.core n).level = .monitor ∧ (t.core n).pc = BitVec.ofNat 64 (b.entry / 4 % 2 ^ 32 * 4)))

/-- An idle die with an allowed state, within a horizon that no source that applies reports later than its event, and idle for DWELL, enters the deepest one, unless a wake registered on the edge aborts the entry; in IDLE the lowest of the registered sources, its near horizon among them, starts the exit instead. DIE_STAT shows on every read whether the die is idle and the time to its next event with its source. The entry ends in its state, where DEEP stops the PLLs; the exit in RUN, with the banks shown whose CRC is not the stored one, but not while a link that should lock is down: then it stays in EXITING with EXIT_FAIL, and the link's downs count. WAKE_N, DIE_CTL, link and frame wakes reach their dies, these as the mode and pattern of the port say; the wake store is delivered in order; held traffic goes once its route is awake; OFF takes the rails down, leaves the fuses, the pins, the always-on clock and the records of the headwater as they were, and WAKE_N, RESET_N or its timer begins a cold start with its cause; HOT, CRIT and THROTTLE follow the hottest reading, and 155 degrees twice takes the part to OFF, where 10 s are counted; the first reading of T0 after that judges whether the cold start goes on. -/
def Obligations.DiePowerStatesComplete : Prop :=
    (∀ (s : State) (d : Die) (h : BitVec 24) (x : Fin 16) (n g : Nat), (s.hw.alive = true) → (s.is PWR_DIE_CFG_EN (d0i d.val) = true) → (s.powerState d.val = 0 ∨ (s.powerState d.val = 1 ∧ exitCount d.val 1 + s.get PWR_DIE_CFG_GUARD (d0i d.val) < (s.horizon d.val h.toNat x.val).1)) → (s.idle d.val = true) → (s.wakes d.val = false) → (s.sleepChoice d.val (s.horizon d.val h.toNat x.val).1 (s.idleTime d.val n) = some g) →
      Completes (.powerStateEntry d h x n none) s (fun t => t.powerState d.val = 4 ∧ Tab.get t.pwr.goal 0 d.val = g ∧ g ≤ s.get PWR_DIE_CFG_MAX_STATE (d0i d.val) ∧ s.allowed d.val g = true ∧ breakEven d.val g < (s.horizon d.val h.toNat x.val).1 ∧ (g = 1 ∨ s.get PWR_DIE_CFG_DWELL (d0i d.val) ≤ s.idleTime d.val n) ∧ t.rd PWR_CNT_ABORT (d0i d.val) = s.rd PWR_CNT_ABORT (d0i d.val))) ∧
    (∀ (s : State) (d : Die) (h : BitVec 24) (x y : Fin 16) (n g : Nat) (i : BitVec 8), (s.hw.alive = true) → (s.is PWR_DIE_CFG_EN (d0i d.val) = true) → (s.powerState d.val = 0) → (s.idle d.val = true) → (s.wakes d.val = false) → (s.sleepChoice d.val (s.horizon d.val h.toNat x.val).1 (s.idleTime d.val n) = some g) →
      Completes (.powerStateEntry d h x n (some (y, i))) s (fun t => t.powerState d.val = s.powerState d.val ∧ t.get HW_WAKE_SOURCE_SRC (d0i d.val) = y.val ∧ t.get HW_WAKE_SOURCE_INDEX (d0i d.val) = i.toNat ∧ t.rd PWR_CNT_ABORT (d0i d.val) = s.rd PWR_CNT_ABORT (d0i d.val) + 1 ∧ t.get PWR_LAST_EVENT_EVENT (d0i d.val) = 3)) ∧
    (∀ (s : State) (d : Die) (h : BitVec 24) (x : Fin 16) (n : Nat) (y : Option (Fin 16 × BitVec 8)) (w : Nat × Nat), (s.hw.alive = true) → (s.powerState d.val = 1) → (lowestWake (s.wakeSources d.val (s.horizon d.val h.toNat x.val).1 (y.map fun v => (v.1.val, v.2.toNat))) = some w) →
      Completes (.powerStateEntry d h x n y) s (fun t => t.powerState d.val = 5 ∧ Tab.get t.pwr.goal 0 d.val = s.powerState d.val ∧ Tab.get t.pwr.wake none d.val = none ∧ t.get HW_WAKE_SOURCE_SRC (d0i d.val) = w.1 % 16 ∧ t.get HW_WAKE_SOURCE_INDEX (d0i d.val) = w.2 % 256 ∧ t.get CLK_STATUS_DIE_PLL d0 = putBit (s.get CLK_STATUS_DIE_PLL d0) d.val true ∧ t.rd PWR_CNT_ABORT (d0i d.val) = s.rd PWR_CNT_ABORT (d0i d.val) ∧ w ∈ s.wakeSources d.val (s.horizon d.val h.toNat x.val).1 (y.map fun v => (v.1.val, v.2.toNat)) ∧ ∀ v ∈ s.wakeSources d.val (s.horizon d.val h.toNat x.val).1 (y.map fun v => (v.1.val, v.2.toNat)), w.1 < v.1 ∨ (w.1 = v.1 ∧ w.2 ≤ v.2))) ∧
    (∀ (s : State) (d : Die),
      bits (s.dieStat d.val) 28 28 = b2n (s.idle d.val) ∧ bits (s.dieStat d.val) 31 29 = bits (s.rd PWR_DIE_STAT (d0i d.val)) 31 29 ∧ (([1, 2, 3, 4, 5].all fun k => ((s.horizonBound d.val k).all fun b => bits (s.dieStat d.val) 23 0 ≤ b)) = true) ∧ (if bits (s.dieStat d.val) 27 24 = 0 then bits (s.dieStat d.val) 23 0 = 0xFFFFFF ∧ ([1, 2, 3, 4, 5].all fun k => (s.horizonBound d.val k).isNone) = true else s.horizonBound d.val (bits (s.dieStat d.val) 27 24) = some (bits (s.dieStat d.val) 23 0))) ∧
    (∀ (s : State) (d : Nat), (present s.part d = true) → (d < 8) →
      s.idleEdge.pwr.wake = s.pwr.wake ∧ (s.idle d = false → Tab.get s.idleEdge.pwr.idleSince none d = none ∧ ∀ n, s.idleEdge.idleTime d n = 0) ∧ (s.idle d = true → Tab.get s.idleEdge.pwr.idleSince none d = some ((Tab.get s.pwr.idleSince none d).getD s.clk.ac))) ∧
    (∀ (s : State) (d : Die), (s.hw.alive = true) → (s.hw.railsUp = true) → (s.powerState d.val = 4) → (Tab.get s.pwr.goal 0 d.val < 8) →
      Completes (.powerEntryComplete d) s (fun t => t.powerState d.val = Tab.get s.pwr.goal 0 d.val ∧ t.get PWR_LAST_EVENT_EVENT (d0i d.val) = (if s.wakes d.val then 4 else 1) ∧ (Tab.get s.pwr.goal 0 d.val = 2 → t.rd PWR_CNT_SLEEP (d0i d.val) = s.rd PWR_CNT_SLEEP (d0i d.val) + 1) ∧ (Tab.get s.pwr.goal 0 d.val = 3 → t.rd PWR_CNT_DEEP (d0i d.val) = s.rd PWR_CNT_DEEP (d0i d.val) + 1 ∧ t.get CLK_STATUS_DIE_PLL d0 = putBit (s.get CLK_STATUS_DIE_PLL d0) d.val false))) ∧
    (∀ (s : State) (d : Die) (h : BitVec 24) (x : Fin 16) (w : Nat × Nat), (s.hw.alive = true) → (s.hw.railsUp = true) → (1 ≤ s.powerState d.val ∧ s.powerState d.val ≤ 3) → (lowestWake (s.wakeSources d.val (s.horizon d.val h.toNat x.val).1 none) = some w) →
      Completes (.powerStateExit d h x) s (fun t => t.powerState d.val = 5 ∧ Tab.get t.pwr.goal 0 d.val = s.powerState d.val ∧ Tab.get t.pwr.wake none d.val = none ∧ t.get HW_WAKE_SOURCE_SRC (d0i d.val) = w.1 % 16 ∧ t.get HW_WAKE_SOURCE_INDEX (d0i d.val) = w.2 % 256 ∧ t.get CLK_STATUS_DIE_PLL d0 = putBit (s.get CLK_STATUS_DIE_PLL d0) d.val true ∧ w ∈ s.wakeSources d.val (s.horizon d.val h.toNat x.val).1 none ∧ ∀ v ∈ s.wakeSources d.val (s.horizon d.val h.toNat x.val).1 none, w.1 < v.1 ∨ (w.1 = v.1 ∧ w.2 ≤ v.2))) ∧
    (∀ (s : State) (d : Die) (h : BitVec 24) (x : Fin 16), (s.hw.alive = true) → (s.hw.railsUp = true) → (1 ≤ s.powerState d.val ∧ s.powerState d.val ≤ 3) → (s.is PWR_DIE_CFG_EN (d0i d.val) = true) → ((s.horizon d.val h.toNat x.val).1 ≤ exitCount d.val (s.powerState d.val) + s.get PWR_DIE_CFG_GUARD (d0i d.val)) → ((Tab.get s.pwr.wake none d.val).all (fun w => decide (1 < w.1)) = true) →
      Completes (.powerStateExit d h x) s (fun t => t.powerState d.val = 5 ∧ Tab.get t.pwr.goal 0 d.val = s.powerState d.val ∧ t.get HW_WAKE_SOURCE_SRC (d0i d.val) = 1)) ∧
    (∀ (s : State) (d : Die) (b : List (Fin 8 × Word)), (s.hw.alive = true) → (s.hw.railsUp = true) → (s.powerState d.val = 5) → (Tab.get s.pwr.goal 0 d.val ≠ 3) →
      Completes (.powerExitComplete d b) s (fun t => t.powerState d.val = 0 ∧ Tab.get t.pwr.wake none d.val = none ∧ t.get PWR_RET_LOST_V (d0i d.val) = s.get PWR_RET_LOST_V (d0i d.val))) ∧
    (∀ (s : State) (d : Die) (b : List (Fin 8 × Word)), (s.hw.alive = true) → (s.hw.railsUp = true) → (s.powerState d.val = 5) → (Tab.get s.pwr.goal 0 d.val = 3) → ((linksOf s.part d.val).all (fun l => s.fenced (if linkLow l = d.val then linkHigh l else linkLow l) || s.routerOff (if linkLow l = d.val then linkHigh l else linkLow l) || s.linkUp l) = true) →
      Completes (.powerExitComplete d b) s (fun t => t.powerState d.val = 0 ∧ Tab.get t.pwr.wake none d.val = none ∧ t.get PWR_RET_LOST_V (d0i d.val) = s.get PWR_RET_LOST_V (d0i d.val) ||| s.badBanks d.val b ∧ (s.badBanks d.val b ≠ 0 → t.get PWR_LAST_EVENT_STATE (d0i d.val) = 3 ∧ t.get PWR_LAST_EVENT_EVENT (d0i d.val) = 5))) ∧
    (∀ (s : State) (d : Die) (b : List (Fin 8 × Word)), (s.hw.alive = true) → (s.hw.railsUp = true) → (s.powerState d.val = 5) → (Tab.get s.pwr.goal 0 d.val = 3) → ((linksOf s.part d.val).all (fun l => s.fenced (if linkLow l = d.val then linkHigh l else linkLow l) || s.routerOff (if linkLow l = d.val then linkHigh l else linkLow l) || s.linkUp l) = false) →
      Completes (.powerExitComplete d b) s (fun t => t.powerState d.val = 5 ∧ t.get PWR_LAST_EVENT_STATE (d0i d.val) = 3 ∧ t.get PWR_LAST_EVENT_EVENT (d0i d.val) = 6 ∧ t.get PWR_RET_LOST_V (d0i d.val) = s.get PWR_RET_LOST_V (d0i d.val) ||| s.badBanks d.val b ∧ ∀ l ∈ linksOf s.part d.val, s.fenced (if linkLow l = d.val then linkHigh l else linkLow l) = false → s.routerOff (if linkLow l = d.val then linkHigh l else linkLow l) = false → s.linkUp l = false → Tab.get s.lanes.down false l = false → Tab.get t.lanes.down false l = true ∧ ∀ e ∈ [linkLow l, linkHigh l], t.get DLINK_STATUS_DOWN_CNT (place e l) = Nat.min 0xFF (s.get DLINK_STATUS_DOWN_CNT (place e l) + 1))) ∧
    (∀ (s : State) (d : Die) (b : List (Fin 8 × Word)) (k : Nat), (k < 8) →
      (s.badBanks d.val b).testBit k = ((bankMask d.val).testBit k && ((b.find? (fun x => x.1.val == k)).any (fun x => x.2 != Tab.get s.pwr.banks 0 (d.val * 8 + k))))) ∧
    (∀ (s : State) (d : Die) (v : Word), (s.running = true) →
      Completes (.retLostClear d v) s (fun t => t.get PWR_RET_LOST_V (d0i d.val) = s.get PWR_RET_LOST_V (d0i d.val) &&& (255 - bits v 7 0))) ∧
    (∀ (s : State) (d : Die) (v : Word), (s.running = true) → (bits v 0 0 = 1) → (s.powerState d.val ≠ 0) → (Tab.get s.pwr.wake none d.val = none) →
      Completes (.dieWakeWrite .monitor d v) s (fun t => Tab.get t.pwr.wake none d.val = some (0xA, 0) ∧ t.regs = s.regs)) ∧
    (∀ (s : State) (m : MacPort) (e : WakeEvent), (s.hw.alive = true) → (s.laneOn m = true) → (s.wakeMode m = 0) → (s.powerState m.die ≠ 0) → (Tab.get s.pwr.wake none m.die = none) → (e = .start ∨ e = .lpiEnd ∨ e = .link) →
      Completes (.portWakeEvent m e) s (fun t => Tab.get t.pwr.wake none m.die = some (3, m.key) ∧ t.regs = s.regs)) ∧
    (∀ (s : State) (m : MacPort) (l : List Byte), (s.hw.alive = true) → (s.laneOn m = true) → (s.wakeMode m = 1) → (s.patternMatch m.die l = true) → (s.powerState m.die ≠ 0) → (Tab.get s.pwr.wake none m.die = none) →
      Completes (.portWakeEvent m (.frame l)) s (fun t => Tab.get t.pwr.wake none m.die = some (4, m.key) ∧ t.regs = s.regs)) ∧
    (∀ (s : State) (m : MacPort) (e : WakeEvent), (s.hw.alive = true) → (s.laneOn m = false ∨ s.wakeMode m = 2 ∨ (s.wakeMode m = 1 ∧ (e = .start ∨ e = .lpiEnd ∨ e = .link))) →
      Completes (.portWakeEvent m e) s (fun t => t = s)) ∧
    (∀ (s : State) (m : MacPort) (l : List Byte), (s.hw.alive = true) → (s.wakeMode m = 0 ∨ s.patternMatch m.die l = false) →
      Completes (.portWakeEvent m (.frame l)) s (fun t => t = s)) ∧
    (∀ (s : State) (m : MacPort), (s.running = true) → (s.powerState m.die = 0) →
      Completes (.wakeStoreRelease m) s (fun t => t.mem = s.mem ∧ (t.mac m.key).store = [])) ∧
    (∀ (s : State) (d : Die) (v : Word), (s.running = true) → (bits v 0 0 = 1) →
      Completes (.patCommit .monitor d v) s (fun t => Tab.get t.pwr.patPend none d.val = some (s.patShadow d.val) ∧ t.regs = s.regs ∧ t.eff = s.eff)) ∧
    (∀ (s : State) (d : Die) (r : MeshReq) (h : Nat), (s.running = true) → (s.mesh.held = [(d.val, .request r)]) → (r.addr.toNat / 2 ^ 36 < 8) → (s.route (reqDie r.req) d.val = .clear h) → (r.addr.toNat / 2 ^ 36 = d.val) → (r.write = true) → ((s.memWrite d.val (r.addr.toNat % 2 ^ 36) (2 ^ r.log2) (r.data.toNat % 256 ^ (2 ^ r.log2))).isSome = true) → (r.addr.toNat % 2 ^ 36 < 0xF00000000) →
      Completes (.heldTrafficRelease d) s (fun t => t.mesh.held = [] ∧ t.mem = (s.store r.addr.toNat (2 ^ r.log2) (r.data.toNat % 256 ^ (2 ^ r.log2))).mem ∧ (t.answerOf (reqCode r.req)).err = false)) ∧
    (∀ (s : State) (v : Word), (s.running = true) → (s.hw.off = false) → (bits v 31 31 = 1) → (bits v 15 0 = 0x5AF0) →
      Completes (.offEntry .monitor v) s (fun t => t.hw.off = true ∧ t.hw.railsUp = false ∧ t.hw.railStep = none ∧ t.hw.railDown = some (s.hw.railDown.getD { step := (s.stepBelow 15).getD 0, top := s.railTop }) ∧ t.hw.thermalOff = false ∧ t.hw.released = 0 ∧ t.get PWR_OFF_CTL_TMR_EN d0 = bits v 30 30)) ∧
    (∀ (s : State) (v : Word), (s.running = true) → (s.hw.off = false) → (bits v 31 31 = 1) → (bits v 15 0 = 0x5AF0) →
      Completes (.offEntry .monitor v) s (fun t => t.hw.fuses = s.hw.fuses ∧ t.hw.faults = s.hw.faults ∧ t.clk = s.clk ∧ t.frz.pinLow = s.frz.pinLow ∧ t.ctl.gpioPins = s.ctl.gpioPins ∧ (∀ reg a, reg < 0x300 → a < 2 ^ 28 → reg ∉ [HW_OPMODE, HW_SEC_EVT, PWR_OFF_CTL, PWR_DIE_STAT, PWR_RET_LOST, KILN_STAT, KILN_DIV, KILN_BLOB, KILN_KEYIN] → t.rd reg a = s.rd reg a ∧ t.rdEff reg a = s.rdEff reg a))) ∧
    (∀ (s : State) (n : Nat), (s.hw.alive = true) → (s.hw.off = true) → (s.hw.railDown = none) → (s.hw.thermalOff = false) → (3 ≤ n) →
      Completes (.offWake 0 n) s (fun t => t.hw.off = false ∧ t.hw.railsUp = false ∧ t.hw.railStep = (if s.hw.resetLow then none else some 0) ∧ t.hw.pinHold = s.hw.resetLow ∧ t.get HW_RST_CAUSE_CAUSE d0 = 2 ^ 7 ∧ t.mem = [] ∧ (∀ d < 8, present s.part d = true → t.get HW_WAKE_SOURCE_SRC (d0i d) = 8))) ∧
    (∀ (s : State) (n : Nat), (s.hw.alive = true) → (s.hw.off = true) → (s.hw.railDown = none) → (3 ≤ n) →
      Completes (.offWake 1 n) s (fun t => t.hw.off = false ∧ t.hw.railStep = none ∧ t.hw.pinHold = true ∧ t.hw.resetLow = true ∧ t.hw.tempCheck = s.hw.thermalOff ∧ t.get HW_RST_CAUSE_CAUSE d0 = 2 ^ 2 ∧ t.mem = [])) ∧
    (∀ (s : State) (n : Nat), (s.hw.alive = true) → (s.hw.off = true) → (s.hw.railDown = none) → (s.hw.thermalOff = false) → (s.is PWR_OFF_CTL_TMR_EN d0 = true) → (s.get PWR_OFF_TMR_V d0 ≤ n) →
      Completes (.offWake 2 n) s (fun t => t.hw.off = false ∧ t.hw.railsUp = false ∧ t.hw.railStep = (if s.hw.resetLow then none else some 0) ∧ t.hw.pinHold = s.hw.resetLow ∧ t.get HW_RST_CAUSE_CAUSE d0 = 2 ^ 7 ∧ t.mem = [] ∧ (∀ d < 8, present s.part d = true → t.get HW_WAKE_SOURCE_SRC (d0i d) = 0xC))) ∧
    (∀ (s : State) (k : Fin 3) (n : Nat), (s.hw.alive = true) → (s.hw.off = false ∨ s.hw.railDown.isSome = true ∨ (k.val ≠ 2 ∧ n < 3) ∨ (k.val ≠ 1 ∧ s.hw.thermalOff = true) ∨ (k.val = 2 ∧ (s.is PWR_OFF_CTL_TMR_EN d0 = false ∨ n < s.get PWR_OFF_TMR_V d0))) →
      Completes (.offWake k n) s (fun t => t = s)) ∧
    (∀ (s : State), (s.hw.alive = true) → (s.hw.off = false) → (s.hw.railsUp = true) → (present s.part 6 = true) → (s.powerState 6 ≠ 0) → (Tab.get s.pwr.wake none 6 = none) →
      Completes (.wakeNAssert) s (fun t => Tab.get t.pwr.wake none 6 = some (8, 0) ∧ t.regs = s.regs ∧ t.hw = s.hw)) ∧
    (∀ (s : State), (s.hw.alive = true) → (s.hw.off = false) → (s.hw.railsUp = false) → (s.hw.railStep = none) → (s.hw.railDown = none) → (s.hw.sensing = false) → (s.hw.pinHold = false) → (3 ≤ s.hw.faults) →
      Completes (.wakeNAssert) s (fun t => t.hw.railStep = some 0 ∧ t.hw.railAt = s.clk.ac ∧ t.hw.faults = s.hw.faults ∧ t.hw.off = false)) ∧
    (∀ (s : State), (s.hw.alive = true) → (s.hw.off = false) → (s.allTemps.all (fun x => decide (x < 1040)) = true) → (s.get PWR_THERM_STAT_THROTTLE d0 ≠ 0) →
      Completes (.thermalCompare) s (fun t => t.get PWR_THERM_STAT_THROTTLE d0 = s.get PWR_THERM_STAT_THROTTLE d0 - 1 ∧ t.is PWR_THERM_STAT_HOT d0 = false ∧ t.is PWR_THERM_STAT_CRIT d0 = s.is PWR_THERM_STAT_CRIT d0)) ∧
    (∀ (s : State) (d : Nat) (x : Int), (s.hw.alive = true) → (s.hw.off = false) → (d < 8) → (present s.part d = true) → (x ∈ s.temps d) → (1200 ≤ x) → (s.allTemps.all (fun y => decide (y < 1240)) = true) →
      Completes (.thermalCompare) s (fun t => t.is PWR_THERM_STAT_HOT d0 = true ∧ t.is PWR_THERM_STAT_CRIT d0 = true ∧ t.get PWR_THERM_STAT_THROTTLE d0 = (if 4 ≤ s.get PWR_THERM_STAT_THROTTLE d0 then s.get PWR_THERM_STAT_THROTTLE d0 else s.get PWR_THERM_STAT_THROTTLE d0 + 1) ∧ t.hw.hot155 = 0)) ∧
    (∀ (s : State) (d : Nat) (x : Int), (s.hw.alive = true) → (s.hw.off = false) → (d < 8) → (present s.part d = true) → (x ∈ s.temps d) → (1240 ≤ x) → (1 ≤ s.hw.hot155) →
      Completes (.thermalCompare) s (fun t => t.hw.off = true ∧ t.hw.thermalOff = true ∧ t.hw.railsUp = false)) ∧
    (∀ (s : State) (n : Nat), (s.hw.alive = true) → (s.hw.off = true) → (s.hw.railDown = none) → (s.hw.thermalOff = true) → (327680 ≤ n) →
      Completes (.thermalOffTimer n) s (fun t => t.hw.off = false ∧ t.hw.railsUp = false ∧ t.hw.railStep = (if s.hw.resetLow then none else some 0) ∧ t.hw.pinHold = s.hw.resetLow ∧ t.get HW_RST_CAUSE_CAUSE d0 = 2 ^ 6 ∧ t.mem = [] ∧ t.hw.tempCheck = true)) ∧
    (∀ (s : State) (n : Nat), (s.hw.alive = true) → (n < 327680) →
      Completes (.thermalOffTimer n) s (fun t => t = s)) ∧
    (∀ (s : State) (d : Die) (k : Fin 8) (x : BitVec 12) (m : Byte), (s.hw.alive = true) → (s.unitHeld d.val (pmcBank d.val) = false) → (d = 0 ∧ k = 0) → (s.hw.off = false) → (s.hw.railsUp = true) → (s.hw.tempCheck = true) → (sensorTurn (Tab.get s.pmc.conv 0 0) = 0) →
      Completes (.sensorReading d k x m) s (fun t => (signed 12 x.toNat < 1000 → t.hw.tempCheck = false ∧ t.hw.off = false) ∧ (1000 ≤ signed 12 x.toNat → t.hw.off = true ∧ t.hw.thermalOff = true ∧ t.hw.railsUp = false)))

/-- PS_COMMIT and PS_ENTER wait for the channel's next frame; the phases change when their frames have passed, with transmitter and receiver powered as the mode says; they end on LEAVE, on FWI, on a local wake or on lost sync, with the channel in its active phase. An armed counter action starts or stops every unit of its die at AT; counters are read and written whole; a bandwidth window that closes enters the history, and a snapshot shows a record of it, or the window in progress; a sensor reading is shown; the refresh mode of a reservoir die rises with temperature. -/
def Obligations.PonPowerSavingAndCountersComplete : Prop :=
    (∀ (s : State) (c : Chan) (v : Word), (s.running = true) → (bits v 0 0 = 1) →
      Completes (.psCommit .monitor c v) s (fun t => Tab.get t.pwr.psPend none c.val = some (s.rd PWR_PS_CFG (d0i c.val), s.rd PWR_PS_TMR (d0i c.val)) ∧ t.eff = s.eff ∧ t.regs = s.regs)) ∧
    (∀ (s : State) (c : Chan) (v : Word), (s.running = true) → (bits v 31 31 = 1) →
      Completes (.psEnter .monitor c v) s (fun t => Tab.get t.pwr.psEnter false c.val = true ∧ t.psPhase c.val = s.psPhase c.val ∧ t.regs = s.regs ∧ t.eff = s.eff)) ∧
    (∀ (s : State) (c : Chan) (v : Word), (s.running = true) → (s.psPhase c.val ≠ 0) → (bits v 30 30 = 1) →
      Completes (.psLeave .monitor c v) s (fun t => t.psPhase c.val = 0 ∧ t.is PWR_PS_STAT_LEAVE (d0i c.val) = true ∧ t.is PWR_PS_STAT_ENDED (d0i c.val) = true ∧ t.is PWR_PS_STAT_TX_ON (d0i c.val) = true ∧ t.is PWR_PS_STAT_RX_ON (d0i c.val) = true)) ∧
    (∀ (s : State) (c : Chan), (s.running = true) → (s.psPhase c.val = 1) → (Tab.get s.pwr.psLeft 0 c.val = 0) → (s.getEff PWR_PS_CFG_MODE (d0i c.val) = 3) →
      Completes (.psPhaseChange c) s (fun t => t.psPhase c.val = 3 ∧ Tab.get t.pwr.psLeft 0 c.val = s.getEff PWR_PS_CFG_WATCH_FR (d0i c.val) ∧ t.is PWR_PS_STAT_RX_ON (d0i c.val) = true)) ∧
    (∀ (s : State) (c : Chan), (s.running = true) → (s.psPhase c.val = 1) → (Tab.get s.pwr.psLeft 0 c.val = 0) → (s.getEff PWR_PS_CFG_MODE (d0i c.val) ≠ 3) →
      Completes (.psPhaseChange c) s (fun t => t.psPhase c.val = 2 ∧ Tab.get t.pwr.psLeft 0 c.val = s.getEff PWR_PS_TMR_AWARE_FR (d0i c.val) ∧ t.is PWR_PS_STAT_RX_ON (d0i c.val) = true ∧ t.is PWR_PS_STAT_TX_ON (d0i c.val) = true)) ∧
    (∀ (s : State) (c : Chan), (s.running = true) → (2 ≤ s.psPhase c.val) → (Tab.get s.pwr.psLeft 0 c.val = 0) →
      Completes (.psPhaseChange c) s (fun t => t.psPhase c.val = 1 ∧ t.is PWR_PS_STAT_TX_ON (d0i c.val) = false ∧ (s.getEff PWR_PS_CFG_MODE (d0i c.val) ≠ 1 → t.is PWR_PS_STAT_RX_ON (d0i c.val) = false))) ∧
    (∀ (s : State) (c : Chan), (s.running = true) → (s.psPhase c.val = 1) → (s.is PWR_PS_STAT_RX_ON (d0i c.val) = false) →
      Completes (.psReceiverPowerUp c) s (fun t => t.is PWR_PS_STAT_RX_ON (d0i c.val) = true ∧ t.psPhase c.val = 1)) ∧
    (∀ (s : State) (c : Chan), (s.running = true) → (s.psPhase c.val ≠ 0) → ((s.conv c.val).fwi = true ∨ Tab.get s.pwr.lwi false c.val = true ∨ Tab.get s.pwr.rxFail false c.val = true) →
      Completes (.psEnd c) s (fun t => t.psPhase c.val = 0 ∧ t.is PWR_PS_STAT_ENDED (d0i c.val) = true ∧ ((s.conv c.val).fwi = true → t.is PWR_PS_STAT_FWI (d0i c.val) = true) ∧ (Tab.get s.pwr.lwi false c.val = true → t.is PWR_PS_STAT_LWI (d0i c.val) = true) ∧ (Tab.get s.pwr.rxFail false c.val = true → t.is PWR_PS_STAT_RX_FAIL (d0i c.val) = true))) ∧
    (∀ (s : State) (lv : Level) (d : Die) (v : Word), (s.running = true) → (lv ≠ .user) → (present s.part d.val = true) → (bits v 31 31 = 1) → (1 ≤ (s.rd PMC_ARM_AT (onDie d.val) - BitVec.ofNat 32 s.clk.mc).toNat) → ((s.rd PMC_ARM_AT (onDie d.val) - BitVec.ofNat 32 s.clk.mc).toNat < 2 ^ 31) →
      Completes (.pmcArm lv d v) s (fun t => Tab.get t.pmc.armed none d.val = some (bits v 30 30 == 1, (s.rd PMC_ARM_AT (onDie d.val)).toNat))) ∧
    (∀ (s : State) (d : Die) (o : Bool) (n : Nat), (s.unitRuns d.val (pmcBank d.val) = true) → (Tab.get s.pmc.armed none d.val = some (o, n)) → (s.clk.mc % 2 ^ 32 = n) →
      Completes (.pmcArmedAction d) s (fun t => Tab.get t.pmc.armed none d.val = none ∧ ∀ u < pmcUnits d.val, t.is PMC_CTL_RUN (place d.val u) = o)) ∧
    (∀ (s : State) (r : Requester) (lv : Level) (d : Die) (u : Fin 16) (n : Fin 9), (s.running = true) → (n.val < 8) → (s.hasUnit d.val u.val = true) → (lv ≠ .user ∨ s.is PMC_CTL_USER_RD (place d.val u.val) = true) →
      Completes (.pmcCounterRead r lv d u n) s (fun t => (t.answerOf (reqCode r)).data.toNat = (s.rd PMC_CNT_LO (place d.val (u.val * 8 + n.val))).toNat ∧ t.rd PMC_CNT_HI (place d.val (u.val * 8 + n.val)) = s.rdEff PMC_CNT_HI (place d.val (u.val * 8 + n.val)) ∧ t.rd PMC_CNT_LO (place d.val (u.val * 8 + n.val)) = s.rd PMC_CNT_LO (place d.val (u.val * 8 + n.val)))) ∧
    (∀ (s : State) (r : Requester) (lv : Level) (d : Die) (u : Fin 16), (s.running = true) → (s.hasUnit d.val u.val = true) → (lv ≠ .user ∨ s.is PMC_CTL_USER_RD (place d.val u.val) = true) →
      Completes (.pmcCounterRead r lv d u 8) s (fun t => (t.answerOf (reqCode r)).data.toNat = (s.rd PMC_CYC_LO (place d.val u.val)).toNat ∧ t.rd PMC_CYC_HI (place d.val u.val) = s.rdEff PMC_CYC_HI (place d.val u.val))) ∧
    (∀ (s : State) (lv : Level) (d : Die) (u : Fin 16) (n : Fin 8) (v h : Word), (s.running = true) → (lv ≠ .user) → (s.hasUnit d.val u.val = true) → (Tab.get s.pmc.held none (heldKey d.val u.val n.val) = some h) →
      Completes (.pmcCounterWrite lv d u n v) s (fun t => t.rd PMC_CNT_LO (place d.val (u.val * 8 + n.val)) = v ∧ t.rdEff PMC_CNT_HI (place d.val (u.val * 8 + n.val)) = h &&& 0xFFFF ∧ Tab.get t.pmc.held none (heldKey d.val u.val n.val) = none)) ∧
    (∀ (s : State) (d : CourseDie) (p : Fin 16), (s.islandRuns (courseIdx d) 7 = true) → (present s.part (courseIdx d) = true) → (s.time.run = true) → (s.isEff PMC_BW_CFG_EN (onDie (courseIdx d)) = true) → (s.getEff PMC_BW_CFG_WIN_US (onDie (courseIdx d)) ≠ 0) → (1000000 % s.getEff PMC_BW_CFG_WIN_US (onDie (courseIdx d)) = 0) → (s.pmc.due.contains (courseIdx d) = true) →
      Completes (.bwWindowClose d) s (fun t => (Tab.get t.pmc.hist [] (16 * d.val + p.val)).head? = some { Tab.get s.pmc.cur {} (16 * d.val + p.val) with valid := true, step := false } ∧ t.is PMC_BW_STAT_CLOSED (onDie (courseIdx d)) = true)) ∧
    (∀ (s : State) (d : CourseDie), (s.islandRuns (courseIdx d) 7 = true) → (s.isEff PMC_BW_CFG_EN (onDie (courseIdx d)) = true) → (s.getEff PMC_BW_CFG_WIN_US (onDie (courseIdx d)) ≠ 0) → (1000000 % s.getEff PMC_BW_CFG_WIN_US (onDie (courseIdx d)) = 0) → (s.pmc.due.contains (courseIdx d) = false) →
      Completes (.bwWindowClose d) s (fun t => t.pmc.hist = s.pmc.hist ∧ t.pmc.cur = s.pmc.cur ∧ t.regs = s.regs)) ∧
    (∀ (s : State) (lv : Level) (d : CourseDie) (v : Word) (i : Fin 5), (s.running = true) → (lv ≠ .user) → (present s.part (courseIdx d) = true) → (bits v 31 31 = 1) → (bits v 2 0 ≠ 0) →
      Completes (.bwSnap lv d v) s (fun t => t.rd PMC_BW_W (place (courseIdx d) i.val) = (BwRec.words ((Tab.get (if s.pmc.due.contains (courseIdx d) then s.bwDue (courseIdx d) else s).pmc.hist [] (16 * d.val + bits v 19 16)).getD (bits v 2 0 - 1) {})).getD i.val 0)) ∧
    (∀ (s : State) (lv : Level) (d : CourseDie) (v : Word) (i : Fin 5), (s.running = true) → (lv ≠ .user) → (present s.part (courseIdx d) = true) → (bits v 31 31 = 1) → (bits v 2 0 = 0) → (s.pmc.due.contains (courseIdx d) = false) →
      Completes (.bwSnap lv d v) s (fun t => t.rd PMC_BW_W (place (courseIdx d) i.val) = (BwRec.words { Tab.get s.pmc.cur {} (16 * d.val + bits v 19 16) with valid := s.isEff PMC_BW_CFG_EN (onDie (courseIdx d)) }).getD i.val 0)) ∧
    (∀ (s : State) (d : Die) (k : Fin 8) (x : BitVec 12) (m : Byte), (s.hw.alive = true) → (s.unitHeld d.val (pmcBank d.val) = false) → (present s.part d.val = true) → (s.hw.off = false) → (d.val ≠ 0 ∨ k.val ≠ 0 ∨ s.hw.tempCheck = false) → (k.val < 4) → (k.val = sensorTurn (Tab.get s.pmc.conv 0 d.val)) →
      Completes (.sensorReading d k x m) s (fun t => t.get SENS_TEMP_VALUE (place d.val k.val) = x.toNat ∧ t.is SENS_TEMP_VALID (place d.val k.val) = true ∧ t.get SENS_MARGIN_V (onDie d.val) = (if Tab.get s.pmc.conv 0 d.val = 7 then m.toNat else s.get SENS_MARGIN_V (onDie d.val)) ∧ Tab.get t.pmc.conv 0 d.val = (Tab.get s.pmc.conv 0 d.val + 1) % 8 ∧ t.is PWR_THERM_STAT_HOT d0 = t.allTemps.any (fun y => decide (1080 < y)))) ∧
    (∀ (s : State) (d : Die) (k : Fin 8) (x : BitVec 12) (m : Byte), (s.hw.alive = true) → (s.unitHeld d.val (pmcBank d.val) = false) → (present s.part d.val = true) → (s.hw.off = false) → (4 ≤ k.val) → (k.val = sensorTurn (Tab.get s.pmc.conv 0 d.val)) →
      Completes (.sensorReading d k x m) s (fun t => t.get SENS_VOLT_VALUE (place d.val (k.val - 4)) = x.toNat ∧ t.is SENS_VOLT_VALID (place d.val (k.val - 4)) = true ∧ t.get SENS_MARGIN_V (onDie d.val) = (if Tab.get s.pmc.conv 0 d.val = 7 then m.toNat else s.get SENS_MARGIN_V (onDie d.val)) ∧ Tab.get t.pmc.conv 0 d.val = (Tab.get s.pmc.conv 0 d.val + 1) % 8)) ∧
    (∀ (s : State) (d : Die) (k : Fin 8) (x : BitVec 12) (m : Byte), (s.hw.alive = true) → (s.unitHeld d.val (pmcBank d.val) = false) → (k.val ≠ sensorTurn (Tab.get s.pmc.conv 0 d.val)) →
      Completes (.sensorReading d k x m) s (fun t => t.regs = s.regs ∧ t.pmc.conv = s.pmc.conv)) ∧
    (∀ (s : State) (d : Die), (s.islandRuns d.val 0 = true) → (6 ≤ d.val) → (present s.part d.val = true) → (s.get RSV_STAT_REF_MODE (onDie d.val) < (s.temps d.val).foldl (fun m x => Nat.max m (refMode x)) 0) →
      Completes (.refModeChange d) s (fun t => t.get RSV_STAT_REF_MODE (onDie d.val) = (s.temps d.val).foldl (fun m x => Nat.max m (refMode x)) 0 ∧ t.mem = s.mem)) ∧
    (∀ (s : State) (d : Die) (n : Nat), (s.islandRuns d.val 0 = true) → (6 ≤ d.val) → (present s.part d.val = true) → ((s.temps d.val).foldl (fun m x => Nat.max m (refMode x)) 0 ≤ s.get RSV_STAT_REF_MODE (onDie d.val)) → (0 < s.get RSV_STAT_REF_MODE (onDie d.val)) → (Tab.get (s.guard d.val 0).cool none (s.get RSV_STAT_REF_MODE (onDie d.val)) = some n) → (n + 1000000 ≤ s.clk.rc) → (s.cooled d.val (s.get RSV_STAT_REF_MODE (onDie d.val)) = true) →
      Completes (.refModeChange d) s (fun t => t.get RSV_STAT_REF_MODE (onDie d.val) = s.get RSV_STAT_REF_MODE (onDie d.val) - 1 ∧ t.mem = s.mem))

/-- A firmware write of a register that starts no command sets each RW field to a legal value written, clears each W1C bit written as 1 unless hardware sets it on that edge, and leaves RO, RC and WO fields; one that the privilege rules refuse changes no register; one that starts one command is that command. A read returns the stored word without its WO fields and reserved bits, and clears its RC fields, but for an increment on that edge. -/
def Obligations.RegisterAccessesComplete : Prop :=
    (∀ (s : State) (a : Addr) (v : Word) (lv : Level) (d r i : Nat), (s.running = true) → (s.regAt a = some (d, r, i)) → (mayWrite r lv = true) → (writeRows .tap lv d r i v = []) → (plainReg r = true) →
      Completes (.registerWrite a v lv) s (fun t => ((writableFields s.part r (place d i) v lv).all fun f => f.took (s.rd r (place d i)) v 0 (t.rd r (place d i))) = true ∧ t.mem = s.mem ∧ t.eff = s.eff ∧ t.hw = s.hw)) ∧
    (∀ (s : State) (a : Addr) (v same : Word) (lv : Level) (d r i : Nat), (s.running = true) → (s.regAt a = some (d, r, i)) → (mayWrite r lv = true) → (writeRows .tap lv d r i v = []) → (plainReg r = true) →
      Completes (.w1cWrite a v lv same) s (fun t => ((writableFields s.part r (place d i) v lv).all fun f => f.took (s.rd r (place d i)) v same (t.rd r (place d i))) = true ∧ t.mem = s.mem ∧ t.eff = s.eff ∧ t.hw = s.hw)) ∧
    (∀ (s : State) (a : Addr) (v same : Word) (lv : Level) (d r i : Nat), (s.running = true) → (s.regAt a = some (d, r, i)) → (mayWrite r lv = true) →
      Completes (.w1cWrite a v lv same) s (fun t => (same &&& w1cMask (regDesc r).fields) &&& ~~~(t.rd r (place d i)) = 0)) ∧
    (∀ (s : State) (a : Addr) (v : Word) (lv : Level) (d r i : Nat), (s.running = true) → (s.regAt a = some (d, r, i)) → (mayWrite r lv = false) →
      Completes (.registerWrite a v lv) s (fun t => t.regs = s.regs ∧ t.eff = s.eff ∧ t.mem = s.mem)) ∧
    (∀ (s : State) (a : Addr) (v : Word) (lv : Level) (d r i : Nat) (f : State → Out), (s.running = true) → (s.regAt a = some (d, r, i)) → (mayWrite r lv = true) → (writeRows .tap lv d r i v = [f]) →
      Completes (.registerWrite a v lv) s (fun t => t = s.kept ((f s).after s))) ∧
    (∀ (s : State) (q : Requester) (a : Addr) (same : Word) (d r i : Nat), (s.running = true) → (s.regAt a = some (d, r, i)) → ((readRow q .monitor d r i).isNone = true) → (storedReg r = true) →
      Completes (.rcRead q a same) s (fun t => (t.answerOf (reqCode q)).data.toNat = (s.rd r (place d i) &&& readMask (regDesc r).fields).toNat ∧ (((regDesc r).fields.all fun f => f.acc != .rc || bits (t.rd r (place d i)) f.hi f.lo == bits same f.hi f.lo) = true) ∧ (((regDesc r).fields.all fun f => f.acc == .rc || bits (t.rd r (place d i)) f.hi f.lo == bits (s.rd r (place d i)) f.hi f.lo) = true) ∧ t.mem = s.mem))

/-- A memory write on an open route stores its bytes and is acknowledged, a read answers what memory holds or, on an uncorrectable error, takes an error response, each after its count; an access to an absent or fenced die takes an error response after 12 mc, which reaches a core as ERROR_RESPONSE and halts a running channel; a request for a die that does not run is held, 64 of them at a router for one target and further ones at their requester, and wakes it; a hole of a register window reads 0; a TAP access that its debug level does not allow returns with the error flag, and its array port reads what the spec lays out of an array and writes nothing; a span write is applied by every present, unfenced die and its result stands in SPAN.STATUS. -/
def Obligations.MeshRequestsComplete : Prop :=
    (∀ (s : State) (n : Fin 12) (e : Ecc) (y : Option ArrayAt) (lv : Level) (a : Addr) (k : Fin 4) (v : BitVec 64) (h : Nat), (s.running = true) → ((a.toNat / 2 ^ 36) < 8) → (s.route (reqDie (.core n)) (a.toNat / 2 ^ 36) = .clear h) → ((s.memWrite (a.toNat / 2 ^ 36) (a.toNat % 2 ^ 36) (2 ^ k.val) (v.toNat % 256 ^ (2 ^ k.val))).isSome = true) →
      Completes (.meshRequest ⟨.core n, e, y⟩ lv true a k v) s (fun t => t.mem = (s.store a.toNat (2 ^ k.val) (v.toNat % 256 ^ (2 ^ k.val))).mem ∧ t.answerOf n.val = { count := respCount (s.region (a.toNat / 2 ^ 36) (a.toNat % 2 ^ 36)) true h } ∧ t.regs = s.regs)) ∧
    (∀ (s : State) (n : Fin 12) (e : Ecc) (y : Option ArrayAt) (lv : Level) (a : Addr) (k : Fin 4) (v : BitVec 64) (h : Nat), (s.running = true) → ((a.toNat / 2 ^ 36) < 8) → (s.route (reqDie (.core n)) (a.toNat / 2 ^ 36) = .clear h) → (s.region (a.toNat / 2 ^ 36) (a.toNat % 2 ^ 36) ≠ .unbacked) → (eccBad e = false) →
      Completes (.meshRequest ⟨.core n, e, y⟩ lv false a k v) s (fun t => t.mem = s.mem ∧ t.answerOf n.val = { data := BitVec.ofNat 64 (s.load a.toNat (2 ^ k.val)), count := respCount (s.region (a.toNat / 2 ^ 36) (a.toNat % 2 ^ 36)) false h })) ∧
    (∀ (s : State) (n : Fin 12) (e : Ecc) (y : Option ArrayAt) (lv : Level) (a : Addr) (k : Fin 4) (v : BitVec 64) (h : Nat), (s.running = true) → ((a.toNat / 2 ^ 36) < 8) → (s.route (reqDie (.core n)) (a.toNat / 2 ^ 36) = .clear h) → (s.region (a.toNat / 2 ^ 36) (a.toNat % 2 ^ 36) ≠ .unbacked) → (eccBad e = true) →
      Completes (.meshRequest ⟨.core n, e, y⟩ lv false a k v) s (fun t => t.mem = s.mem ∧ t.answerOf n.val = { err := true, count := respCount (s.region (a.toNat / 2 ^ 36) (a.toNat % 2 ^ 36)) false h } ∧ t.mesh.errs = s.mesh.errs ++ [⟨.core n, a, false⟩])) ∧
    (∀ (s : State) (n : Fin 12) (e : Ecc) (y : Option ArrayAt) (lv : Level) (w : Bool) (a : Addr) (k : Fin 4) (v : BitVec 64), (s.running = true) → ((a.toNat / 2 ^ 36) < 8) → (s.route (reqDie (.core n)) (a.toNat / 2 ^ 36) = .absent) →
      Completes (.meshRequest ⟨.core n, e, y⟩ lv w a k v) s (fun t => t.mem = s.mem ∧ t.answerOf n.val = { err := true, count := 12 } ∧ t.mesh.errs = s.mesh.errs ++ [⟨.core n, a, w⟩])) ∧
    (∀ (s : State) (n : Fin 12) (e : Ecc) (y : Option ArrayAt) (lv : Level) (w : Bool) (a : Addr) (k : Fin 4) (v : BitVec 64) (x : Nat), (s.running = true) → ((a.toNat / 2 ^ 36) < 8) → (s.route (reqDie (.core n)) (a.toNat / 2 ^ 36) = .asleep x) → ((s.mesh.held.filter (fun x => x.1 == (a.toNat / 2 ^ 36) && x.2.requestOf (reqDie (.core n)))).length < 64) →
      Completes (.meshRequest ⟨.core n, e, y⟩ lv w a k v) s (fun t => t.mesh.held = s.mesh.held ++ [((a.toNat / 2 ^ 36), .request ⟨.core n, lv, w, a, k.val, v⟩)] ∧ t.mem = s.mem ∧ (Tab.get s.pwr.wake none x = none → s.powerState x ≠ 0 → Tab.get t.pwr.wake none x = some (2, reqDie (.core n))))) ∧
    (∀ (s : State) (n : Fin 12) (e : Ecc) (y : Option ArrayAt) (lv : Level) (w : Bool) (a : Addr) (k : Fin 4) (v : BitVec 64) (x : Nat), (s.running = true) → ((a.toNat / 2 ^ 36) < 8) → (s.route (reqDie (.core n)) (a.toNat / 2 ^ 36) = .asleep x) → (64 ≤ (s.mesh.held.filter (fun x => x.1 == (a.toNat / 2 ^ 36) && x.2.requestOf (reqDie (.core n)))).length) →
      Completes (.meshRequest ⟨.core n, e, y⟩ lv w a k v) s (fun t => t.mesh.waiting = s.mesh.waiting ++ [⟨.core n, lv, w, a, k.val, v⟩] ∧ t.mesh.held = s.mesh.held ∧ t.mem = s.mem)) ∧
    (∀ (s : State) (n : Fin 12) (e : Ecc) (y : Option ArrayAt) (lv : Level) (a : Addr) (v : BitVec 64) (h : Nat), (s.running = true) → ((a.toNat / 2 ^ 36) < 8) → (s.route (reqDie (.core n)) (a.toNat / 2 ^ 36) = .clear h) → (a.toNat % 4 = 0) → (target s.part (a.toNat / 2 ^ 36) (a.toNat % 2 ^ 36) = .hole) →
      Completes (.meshRequest ⟨.core n, e, y⟩ lv false a 2 v) s (fun t => t.answerOf n.val = { count := 44 * h + 16 } ∧ t.regs = s.regs ∧ t.mem = s.mem)) ∧
    (∀ (s : State) (e : Ecc) (lv : Level) (w : Bool) (a : Addr) (k : Fin 4) (v : BitVec 64), (s.hw.alive = true) → ((a.toNat / 2 ^ 36) ≠ 0xF) → (s.tapMay w a.toNat = false) →
      Completes (.meshRequest ⟨.tap, e, none⟩ lv w a k v) s (fun t => t.answerOf 12 = { err := true } ∧ t.mesh.tapErr = true ∧ t.regs = s.regs ∧ t.mem = s.mem)) ∧
    (∀ (s : State) (e : Ecc) (y : ArrayAt) (lv : Level) (w : Bool) (a : Addr) (k : Fin 4) (v : BitVec 64), (s.hw.alive = true) → (s.hw.dbg.level = 0) →
      Completes (.meshRequest ⟨.tap, e, some y⟩ lv w a k v) s (fun t => t.answerOf 12 = { err := true } ∧ t.mesh.tapErr = true ∧ t.regs = s.regs ∧ t.mem = s.mem)) ∧
    (∀ (s : State) (e : Ecc) (y : ArrayAt) (z : BitVec 64) (lv : Level) (a : Addr) (k : Fin 4) (v : BitVec 64), (s.hw.alive = true) → (s.hw.dbg.level ≠ 0) → (present s.part y.die.val = true) → (s.arrayWord y = some z) →
      Completes (.meshRequest ⟨.tap, e, some y⟩ lv false a k v) s (fun t => t.answerOf 12 = { data := z } ∧ t.regs = s.regs ∧ t.mem = s.mem)) ∧
    (∀ (s : State) (e : Ecc) (y : ArrayAt) (lv : Level) (a : Addr) (k : Fin 4) (v : BitVec 64), (s.hw.alive = true) → (s.hw.dbg.level ≠ 0) →
      Completes (.meshRequest ⟨.tap, e, some y⟩ lv true a k v) s (fun t => t.answerOf 12 = {} ∧ t.regs = s.regs ∧ t.mem = s.mem ∧ t.pipe = s.pipe ∧ t.tm = s.tm)) ∧
    (∀ (s : State) (n : Fin 12) (e : ErrResp), (s.running = true) → (s.mesh.errs.find? (fun e => e.req == .core n) = some e) → (s.coreIssues n.val = true) → ((s.core n.val).level = .monitor) →
      Completes (.errorResponse (.core n)) s (fun t => (t.core n.val).codeM = 7 ∧ (t.core n.val).addrM = e.addr.setWidth 64 ∧ (t.core n.val).retM = (s.core n.val).pc ∧ (t.core n.val).pc = (s.core n.val).hvecM ∧ (t.core n.val).steer = 6 ∧ t.mesh.errs = s.mesh.errs.erase e)) ∧
    (∀ (s : State) (d : Die) (ch : Fin 32) (e : ErrResp), (s.running = true) → (s.mesh.errs.find? (fun e => e.req == .dma d ch) = some e) → (s.dmaActive d.val ch.val = true) →
      Completes (.errorResponse (.dma d ch)) s (fun t => t.dmaState d.val ch.val = 6 ∧ t.is DMA_EVT_HALT (place d.val ch.val) = true ∧ t.mesh.errs = s.mesh.errs.erase e)) ∧
    (∀ (s : State) (n : Fin 12) (lv : Level) (off : BitVec 36) (v : Word) (w : SpanWait), (s.running = true) → (lv ≠ .user) → (s.spanAt n.val = none) → ((s.spanDeliver n.val (.core n) lv 0xFF off.toNat 4 v.toNat).spanAt n.val = some w) → (w.waiting = 0) →
      Completes (.spanWrite (.core n) lv off v) s (fun t => t.is SPAN_STATUS_VALID (d0i n.val) = true ∧ t.get SPAN_STATUS_APPLIED (d0i n.val) = w.applied % 256 ∧ t.get SPAN_STATUS_FAILED (d0i n.val) = w.failed % 256 ∧ t.spanAt n.val = none)) ∧
    (∀ (s : State) (n : Fin 12) (off : BitVec 36) (v : Word), (s.running = true) →
      Completes (.spanWrite (.core n) .user off v) s (fun t => t.answerOf n.val = { err := true, count := 12 } ∧ t.mem = s.mem))

/-- From every state each of these commands completes, and it changes nothing but the areas of State and the registers listed for it: every byte of memory (unless memory is listed), every other area, every other register's stored word and every other value in effect is as before. Here: organisation and mode, network time, freeze and thaw, lanes, links, eye scan and the optics I2C master. -/
def Obligations.OrganisationTimeLaneFrames : Prop :=
    (∀ (d : Die), Keeps (.absentRefusalReport d) [.mesh] [.one HW_ABSENT_INFO d0, .one HW_ABSENT_ADDR d0] []) ∧
    (∀ (d : Die) (m : Posted), Keeps (.postedWrite d m) [.mem, .mesh, .pwr] [.all DLINK_DROP, .one HW_ABSENT_DROP d0, .all IRQ_SRC_STAT, .all PMC_CNT_LO, .all PMC_OVF] [.all PMC_CNT_HI]) ∧
    (∀ (d : Die), Keeps (.dieFence d) [] [.one HW_DIE_MAP d0] []) ∧
    (∀ (lv : Level), Keeps (.bootCtlDone lv) [.hw] [] []) ∧
    (Keeps (.modeChange) [] [.one HW_OPMODE d0] []) ∧
    (Keeps (.sscTurningPoint) [] [.one CLK_SSC_POS d0] [.one CLK_SSC_CFG d0]) ∧
    (∀ (v : Word), Keeps (.timeCfgWrite v) [.time] [.one TIME_CFG d0, .one TIME_STATUS d0] []) ∧
    (Keeps (.timeRelockDone) [.time] [.one TIME_STATUS d0] []) ∧
    (∀ cmd ∈ ([.timeCommitIncr, .timeCommitOffset, .timeCommitLoad, .ppsOutRise, .ppsOutFall] : List Instr), Keeps cmd [.time] [] []) ∧
    (Keeps (.timeSnap) [.time] [.one TIME_SNAP d0] []) ∧
    (Keeps (.timeSnapCapture) [.time] [.one TIME_SNAP_FRAC d0, .one TIME_SNAP_NS d0, .one TIME_SNAP_SEC_HI d0, .one TIME_SNAP_SEC_LO d0] []) ∧
    (Keeps (.timeSnapValid) [.time] [.one TIME_SNAP d0] []) ∧
    (∀ (sfLo : BitVec 30), Keeps (.todCapArm sfLo) [] [.one TIME_TOD_CAP_CTL d0] []) ∧
    (∀ (sfc : BitVec 51), Keeps (.todCapture sfc) [] [.one TIME_TOD_CAP_CTL d0, .one TIME_TOD_CAP_FRAC d0, .one TIME_TOD_CAP_NS d0, .one TIME_TOD_CAP_SEC_HI d0, .one TIME_TOD_CAP_SEC_LO d0, .one TIME_TOD_CAP_STAT d0] []) ∧
    (Keeps (.ppsInCapture) [] [.one TIME_PPS_IN_NS d0, .one TIME_PPS_IN_SEC_HI d0, .one TIME_PPS_IN_SEC_LO d0, .one TIME_PPS_IN_STAT d0] []) ∧
    (Keeps (.todTxStart) [.time] [.one TIME_TOD_STAT d0, .one TIME_TOD_TX d0] []) ∧
    (∀ (b : Byte) (afterIdle : Bool), Keeps (.todRxByte b afterIdle) [.time] [.one TIME_TOD_RX_TS d0, .one TIME_TOD_STAT d0] []) ∧
    (Keeps (.timeCommitApply) [.time, .pon, .pmc] [.one TIME_STATUS d0, .all PFR_PM_STAT, .all PMC_BW_STAT] [.one TIME_INCR d0, .all PFR_PM_CFG, .all PFR_PM_SES, .all PMC_BW_CFG]) ∧
    (∀ (low : Bool), Keeps (.freezeNChange low) [.frz, .pwr] [] []) ∧
    (∀ (req : Bool), Keeps (.frzCtlWrite req) [.pwr] [.one FRZ_CTL d0] []) ∧
    (Keeps (.synchronisedFreeze) [.frz, .pon, .dram] [.one FRZ_STATUS d0, .all RSV_FREE, .one HW_OPMODE d0] []) ∧
    (Keeps (.freezeEdgeF) [.frz] [.one FRZ_STATUS d0] []) ∧
    (∀ (n : Nat), Keeps (.chainShift n) [.frz, .mesh] [.one FRZ_CHAIN_LEN d0, .one FRZ_CHAIN_POS d0, .one FRZ_STATUS d0] []) ∧
    (Keeps (.thawStart) [.frz, .lanes, .hw] [.one FRZ_STATUS d0, .all DLINK_STATUS] []) ∧
    (∀ (stacksUp : BitVec 8), Keeps (.thawFail stacksUp) [.frz] [.one FRZ_STATUS d0] []) ∧
    (∀ (stacksUp : BitVec 8), Keeps (.thawRelease stacksUp) [.mem, .mesh, .pwr, .frz, .pon, .dram, .pipe, .macs, .ciph] [.one FRZ_STATUS d0, .all CIPH_CNT_ERASED, .all CIPH_CNT_MS_TX_ERASED, .all CIPH_EVT, .all CIPH_LA_CTX_STAT, .all CIPH_LA_ERR, .all CIPH_LA_HEAD, .all CIPH_LA_STAT, .all RSV_EVT, .all MEM_EVT, .all RSV_ELOG_W, .all MEM_ELOG_W, .all CTL_ECC_CE, .all CTL_ECC_UE, .all PMC_CNT_LO, .all PMC_OVF] [.all PMC_CNT_HI]) ∧
    (Keeps (.thawEnd) [.frz, .hw, .pon, .pmc] [.one FRZ_STATUS d0, .one TIME_STATUS d0, .all PFR_PM_STAT, .all PMC_BW_STAT] [.all PFR_PM_CFG, .all PFR_PM_SES, .all PMC_BW_CFG]) ∧
    (∀ (lane : TxLane) (v : Word), Keeps (.txEqWrite lane v) [] [.one (eqPlace lane).1 ((eqPlace lane).2)] []) ∧
    (∀ (c : Chan) (high : Bool), Keeps (.signalDetectChange c high) [.lanes] [.one CLK_STATUS d0, .one LANE_PRX_STAT (atChan c.val), .one TIME_STATUS d0] [.one LANE_PRX_DFE (atChan c.val), .one LANE_PRX_FFE0 (atChan c.val), .one LANE_PRX_FFE1 (atChan c.val)]) ∧
    (∀ (c : Chan) (lock : Bool), Keeps (.cdrLockChange c lock) [.time] [.one CLK_STATUS d0, .one LANE_PRX_STAT (atChan c.val), .one TIME_STATUS d0] []) ∧
    (∀ (c : Chan), Keeps (.prxEqCommit c) [.lanes] [] [.one LANE_PRX_DFE (atChan c.val), .one LANE_PRX_FFE0 (atChan c.val), .one LANE_PRX_FFE1 (atChan c.val)]) ∧
    (∀ (l : Fin 25) (back : Bool) (lane : Fin 16) (headers : Nat) (comma : Bool), Keeps (.laneLock l back lane headers comma) [.lanes] [] []) ∧
    (∀ (l : Fin 25) (back : Bool) (lane : Fin 16) (invalid : Nat) (missing : Nat) (crcBad : Nat), Keeps (.laneLockLoss l back lane invalid missing crcBad) [.lanes] [] []) ∧
    (∀ (l : Fin 25) (x : Deskew) (slack : Option (Fin 16)), Keeps (.dlinkLocked l x slack) [.lanes] [.one DLINK_STATUS (place (linkLow l.val) l.val), .one DLINK_STATUS (place (linkHigh l.val) l.val), .one HW_DIE_MAP d0] []) ∧
    (∀ (l : Fin 25) (lost : List (Requester × Addr × Bool)) (dropLow : Nat) (dropHigh : Nat), Keeps (.dlinkLockLoss l lost dropLow dropHigh) [.mesh, .lanes, .pipe, .dram] [.one DLINK_STATUS (place (linkLow l.val) l.val), .one DLINK_STATUS (place (linkHigh l.val) l.val), .all DLINK_DROP, .all RSV_FREE] []) ∧
    (∀ (req : Requester), Keeps (.linkLossErrorResponse req) [.mesh] [] []) ∧
    (∀ (d : Die) (v : Word), Keeps (.escanStart d v) [.lanes] [.one LANE_ESCAN_CTL (onDie d.val), .one LANE_ESCAN_ERR (onDie d.val), .one LANE_ESCAN_STAT (onDie d.val)] []) ∧
    (∀ (d : Die) (v : Word) (errors : Nat), Keeps (.escanAbort d v errors) [.lanes] [.one LANE_ESCAN_CTL (onDie d.val), .one LANE_ESCAN_ERR (onDie d.val), .one LANE_ESCAN_STAT (onDie d.val)] []) ∧
    (∀ (d : Die) (errors : Nat) (early : Option (Fin 3)), Keeps (.escanDone d errors early) [.lanes] [.one LANE_ESCAN_ERR (onDie d.val), .one LANE_ESCAN_STAT (onDie d.val)] []) ∧
    (∀ (n : LineDie) (v : Word), ∀ cmd ∈ ([.optI2cWrite n v, .optI2cRead n v] : List Instr), Keeps cmd [.lanes] [.one LANE_OPT_I2C_CMD (onDie n.val), .one LANE_OPT_I2C_STAT (onDie n.val)] [.one LANE_OPT_I2C_CFG (onDie n.val)]) ∧
    (∀ (n : LineDie), Keeps (.optI2cStretchTimeout n) [.lanes] [] []) ∧
    (∀ (n : LineDie) (res : I2cEnd) (got : List Byte), Keeps (.optI2cDone n res got) [.lanes] [.one LANE_OPT_I2C_CMD (onDie n.val), .one LANE_OPT_I2C_DATA0 (onDie n.val), .one LANE_OPT_I2C_DATA1 (onDie n.val), .one LANE_OPT_I2C_STAT (onDie n.val)] [])

/-- From every state each of these commands completes, and it changes nothing but the areas of State and the registers listed for it: every byte of memory (unless memory is listed), every other area, every other register's stored word and every other value in effect is as before. Here: the framer, its defects and performance data, activation, PLOAM and the tables, the bandwidth map and bursts, XGEM frames and the channel group. -/
def Obligations.PonFrames : Prop :=
    (∀ (c : Chan) (flipped : Nat) (good : Bool), Keeps (.codewordDecode c flipped good) [.pon] [] []) ∧
    (∀ (c : Chan), Keeps (.sfsdCommit c) [.pon] [] []) ∧
    (∀ (c : Chan), Keeps (.sfsdWindowEnd c) [.pon] [.one PFR_DEF (atChan c.val), .one PFR_DEF_LATCH (atChan c.val), .one PFR_DEF_RAW (atChan c.val)] [.one PFR_SFSD_CFG (atChan c.val), .one PFR_SF_SET (atChan c.val), .one PFR_SF_CLR (atChan c.val), .one PFR_SD_SET (atChan c.val), .one PFR_SD_CLR (atChan c.val), .one PFR_UCW_CFG (atChan c.val)]) ∧
    (∀ (c : Chan), Keeps (.pmSecondEnd c) [.pon] [] [.one PFR_PM_CFG (atChan c.val), .one PFR_PM_SES (atChan c.val)]) ∧
    (∀ (c : Chan), Keeps (.pmClassificationFinal c) [.pon] [] []) ∧
    (∀ (c : Chan) (day : Bool), Keeps (.pmHistoryWrite c day) [.pon] [.one PFR_PM_STAT (atChan c.val)] []) ∧
    (∀ (c : Chan) (v : Word), Keeps (.pmEnable c v) [.pon] [.one PFR_PM_CFG (atChan c.val)] [.one PFR_PM_CFG (atChan c.val), .one PFR_PM_SES (atChan c.val)]) ∧
    (∀ (c : Chan) (v : Word), Keeps (.pmDisable c v) [.pon] [.one PFR_PM_CFG (atChan c.val), .one PFR_PM_STAT (atChan c.val)] [.one PFR_PM_CFG (atChan c.val), .one PFR_PM_SES (atChan c.val)]) ∧
    (∀ (c : Chan) (v : Word), Keeps (.pmSnap c v) [] [.one PFR_PM_SEL (atChan c.val), .die PFR_PM_W (chanDie c.val)] []) ∧
    (∀ (req : Requester) (c : Chan), Keeps (.sfcLoRead req c) [.mesh] [.one PFR_SFC_HI (atChan c.val)] []) ∧
    (∀ (c : Chan), Keeps (.receiverPowerUp c) [.pon] [.one PFR_SFC_LO (atChan c.val), .one PFR_SYNC_STAT (atChan c.val), .one PWR_PS_STAT (d0i c.val)] []) ∧
    (∀ (c : Chan), Keeps (.receiverPowerDown c) [.pon] [.one PFR_SFC_LO (atChan c.val), .one PFR_SYNC_STAT (atChan c.val), .one PWR_PS_STAT (d0i c.val), .one BOND_EVT d0, .one BOND_SKEW_STAT d0, .one CLK_STATUS d0, .one LANE_PRX_STAT (atChan c.val), .one TIME_STATUS d0] []) ∧
    (∀ (c : Chan) (k : Fin 6), ∀ cmd ∈ ([.defectRaise c k, .defectClear c k] : List Instr), Keeps cmd [.pon, .tm, .pmc, .dram] [.one PFR_DEF (atChan c.val), .one PFR_DEF_LATCH (atChan c.val), .one PFR_DEF_RAW (atChan c.val), .one PTC_ACT_STAT (atChan c.val), .one EST_GRANT_EVT (atChan c.val), .one EST_CNT_STATE (atChan c.val), .one BOND_EVT d0, .one BOND_CNT_UP_GAP d0, .one BOND_GROUP_STAT d0, .all TM_POOL_OCC, .all TM_CLS_OCC, .all TM_CLS_HWM, .all TM_PORT_OCC, .all RSV_FREE] []) ∧
    (∀ (c : Chan), Keeps (.wakeGraceEnd c) [.pwr, .pon, .tm, .pmc, .dram] [.one PFR_DEF (atChan c.val), .one PFR_DEF_LATCH (atChan c.val), .one PFR_DEF_RAW (atChan c.val), .one PFR_SFC_LO (atChan c.val), .one PFR_SYNC_STAT (atChan c.val), .one PTC_ACT_STAT (atChan c.val), .one EST_GRANT_EVT (atChan c.val), .one EST_CNT_STATE (atChan c.val), .one BOND_EVT d0, .one BOND_CNT_UP_GAP d0, .one BOND_GROUP_STAT d0, .all TM_POOL_OCC, .all TM_CLS_OCC, .all TM_CLS_HWM, .all TM_PORT_OCC, .all RSV_FREE] []) ∧
    (∀ (c : Chan) (f : FrameRx), Keeps (.frameTick c f) [.pwr, .pon, .tm, .pmc, .dram] [.one PFR_DEF (atChan c.val), .one PFR_DEF_LATCH (atChan c.val), .one PFR_DEF_RAW (atChan c.val), .one PFR_SFC_LO (atChan c.val), .one PFR_SYNC_STAT (atChan c.val), .one PFR_OC_HI (atChan c.val), .one PFR_OC_LO (atChan c.val), .one PTC_ACT_STAT (atChan c.val), .one EST_GRANT_EVT (atChan c.val), .one EST_CNT_STATE (atChan c.val), .one BOND_EVT d0, .one BOND_CNT_UP_GAP d0, .one BOND_GROUP_STAT d0, .all TM_POOL_OCC, .all TM_CLS_OCC, .all TM_CLS_HWM, .all TM_PORT_OCC, .all RSV_FREE, .one PWR_PS_STAT (d0i c.val), .one BOND_SKEW_STAT d0, .one PFR_PM_STAT (atChan c.val), .one CLK_STATUS d0, .one LANE_PRX_STAT (atChan c.val), .one TIME_STATUS d0] [.one PFR_SFSD_CFG (atChan c.val), .one PFR_SF_SET (atChan c.val), .one PFR_SF_CLR (atChan c.val), .one PFR_SD_SET (atChan c.val), .one PFR_SD_CLR (atChan c.val), .one PFR_UCW_CFG (atChan c.val), .one PFR_SYNC_CFG (atChan c.val), .one PTC_ACT_CTL (atChan c.val), .one PTC_ACT_TMR (atChan c.val), .one PTC_ONU_ID (atChan c.val), .one PTC_SN_CFG (atChan c.val), .one PTC_OMCI_CFG (atChan c.val), .one PTC_RX_CFG (atChan c.val), .one EST_BEN_CFG (atChan c.val), .one PTC_EQD (atChan c.val), .one PTC_RSP_CFG (atChan c.val), .one EST_GRANT_IEN (atChan c.val), .one PTC_ACT_IEN (atChan c.val), .one PTC_PLOAMD_IEN (atChan c.val), .die EST_PROF_CFG (chanDie c.val), .die EST_PROF_PRE_HI (chanDie c.val), .die EST_PROF_PRE_LO (chanDie c.val), .die EST_PROF_DEL_HI (chanDie c.val), .die EST_PROF_DEL_LO (chanDie c.val), .one PWR_PS_CFG (d0i c.val), .one PWR_PS_TMR (d0i c.val)]) ∧
    (∀ (c : Chan) (v : Word), ∀ cmd ∈ ([.actReqO23 c v, .actReqO4 c v, .actReqO5 c v, .actReqO11 c v, .actReqO7 c v] : List Instr), Keeps cmd [.pon, .tm, .pmc, .dram] [.one PTC_ACT_CTL (atChan c.val), .one PTC_ACT_STAT (atChan c.val), .one EST_GRANT_EVT (atChan c.val), .one EST_CNT_STATE (atChan c.val), .one BOND_EVT d0, .one BOND_CNT_UP_GAP d0, .one BOND_GROUP_STAT d0, .all TM_POOL_OCC, .all TM_CLS_OCC, .all TM_CLS_HWM, .all TM_PORT_OCC, .all RSV_FREE] []) ∧
    (∀ (c : Chan), ∀ cmd ∈ ([.to1Expiry c, .to2Expiry c] : List Instr), Keeps cmd [.pon, .tm, .pmc, .dram] [.one PTC_ACT_STAT (atChan c.val), .one EST_GRANT_EVT (atChan c.val), .one EST_CNT_STATE (atChan c.val), .one BOND_EVT d0, .one BOND_CNT_UP_GAP d0, .one BOND_GROUP_STAT d0, .all TM_POOL_OCC, .all TM_CLS_OCC, .all TM_CLS_HWM, .all TM_PORT_OCC, .all RSV_FREE] []) ∧
    (∀ (c : Chan), Keeps (.ploamuPush c) [.pon] [.one PTC_PLOAMU_STAT (atChan c.val)] []) ∧
    (∀ (c : Chan), ∀ cmd ∈ ([.ploamuDef c, .eqdCommit c, .profCommit c] : List Instr), Keeps cmd [.pon] [] []) ∧
    (∀ (c : Chan) (onu : BitVec 10) (msg : List Byte), Keeps (.ploamdReceive c onu msg) [.pon] [.one PTC_PLOAMD_STAT (atChan c.val), .die PTC_PLOAMD_DATA (chanDie c.val)] []) ∧
    (∀ (c : Chan), Keeps (.ploamdPop c) [.pon] [.one PTC_PLOAMD_STAT (atChan c.val), .die PTC_PLOAMD_DATA (chanDie c.val)] []) ∧
    (∀ (n : LineDie) (v : Word), Keeps (.pidTableWrite n v) [.pon] [.one PTC_PID_WR (onDie n.val)] []) ∧
    (∀ (n : LineDie) (v : Word), Keeps (.pidTableRead n v) [] [.one PTC_PID_WR (onDie n.val), .one PTC_PID_STAGE0 (onDie n.val), .one PTC_PID_STAGE1 (onDie n.val)] []) ∧
    (∀ (n : LineDie) (v : Word), Keeps (.allocTableWrite n v) [.pon] [.one EST_ALLOC_WR (onDie n.val)] []) ∧
    (∀ (n : LineDie) (v : Word), Keeps (.allocTableRead n v) [] [.one EST_ALLOC_WR (onDie n.val), .one EST_ALLOC_STAGE (onDie n.val)] []) ∧
    (∀ (c : Chan) (g : Grant), Keeps (.bwmapEntryParse c g) [.pon] [.one EST_GRANT_EVT (atChan c.val), .one EST_CNT_HEC (atChan c.val), .one EST_CNT_MALFORMED (atChan c.val), .one EST_CNT_ZERO (atChan c.val), .one EST_CNT_PROFILE (atChan c.val), .one EST_CNT_LATE (atChan c.val), .one EST_CNT_OVERLAP (atChan c.val), .one EST_CNT_PLAN_FULL (atChan c.val), .one EST_CNT_STATE (atChan c.val), .one EST_CNT_TX_OFF (atChan c.val), .one PTC_ACT_STAT (atChan c.val), .one PWR_CNT_PS_GRANT (d0i c.val)] []) ∧
    (∀ (c : Chan) (at_ : Nat), Keeps (.burstPlanReady c at_) [.pon, .tm, .pmc] [.one EST_GRANT_EVT (atChan c.val), .one EST_CNT_HEC (atChan c.val), .one EST_CNT_MALFORMED (atChan c.val), .one EST_CNT_ZERO (atChan c.val), .one EST_CNT_PROFILE (atChan c.val), .one EST_CNT_LATE (atChan c.val), .one EST_CNT_OVERLAP (atChan c.val), .one EST_CNT_PLAN_FULL (atChan c.val), .one EST_CNT_STATE (atChan c.val), .one EST_CNT_TX_OFF (atChan c.val), .one BOND_EVT d0, .one BOND_CNT_UP_GAP d0, .all TM_POOL_OCC, .all TM_CLS_OCC, .all TM_CLS_HWM, .all TM_PORT_OCC] []) ∧
    (∀ (c : Chan) (x : XgemRx), Keeps (.xgemFrameReceive c x) [.pwr, .pon, .dram, .pipe, .bond, .ciph] [.one CIPH_CNT_NO_KEY (atChan c.val), .one PTC_CNT_BAD_KEYIDX (atChan c.val), .one PTC_CNT_ENC_REQ (atChan c.val), .one PTC_CNT_ERR_CW (atChan c.val), .one PTC_CNT_HEC_LOSS (atChan c.val), .one PTC_CNT_OVERSIZE (atChan c.val), .one PTC_CNT_PID_MISS (atChan c.val), .one PTC_CNT_REASM_TMO (atChan c.val), .all RSV_CNT_NOBUF, .all RSV_FREE, .all DLINK_DROP, .one HW_ABSENT_DROP d0, .all PMC_CNT_LO, .all PMC_OVF] [.all PMC_CNT_HI]) ∧
    (∀ (c : Chan), Keeps (.reassemblyTimeout c) [.pon] [.one PTC_CNT_REASM_TMO (atChan c.val)] []) ∧
    (∀ (x : FillRead), Keeps (.fillPoint x) [.pwr, .pon, .dram, .bond, .tm, .ciph, .pmc] [.one CIPH_CNT_NO_KEY (atChan x.chan.val), .one CIPH_CNT_UP_NOKEY (atChan x.chan.val), .one PTC_PLOAMU_STAT (atChan x.chan.val), .one BOND_CNT_UP_ORPHAN d0, .all TM_POOL_OCC, .all TM_CLS_OCC, .all TM_CLS_HWM, .all TM_PORT_OCC, .all TM_CNT_CLAMP, .all RSV_FREE, .all RSV_LOST_CELLS, .all RSV_EVT, .all MEM_EVT, .all RSV_ELOG_W, .all MEM_ELOG_W, .all PMC_CNT_LO, .all PMC_OVF] [.all PMC_CNT_HI]) ∧
    (∀ (c : Chan), Keeps (.burstLaunch c) [.pon, .dram, .tm, .pmc] [.one EST_GRANT_EVT (atChan c.val), .one EST_CNT_HEC (atChan c.val), .one EST_CNT_MALFORMED (atChan c.val), .one EST_CNT_ZERO (atChan c.val), .one EST_CNT_PROFILE (atChan c.val), .one EST_CNT_LATE (atChan c.val), .one EST_CNT_OVERLAP (atChan c.val), .one EST_CNT_PLAN_FULL (atChan c.val), .one EST_CNT_STATE (atChan c.val), .one EST_CNT_TX_OFF (atChan c.val), .one CIPH_CNT_ERASED (atChan c.val), .one BOND_EVT d0, .one BOND_CNT_UP_GAP d0, .all TM_POOL_OCC, .all TM_CLS_OCC, .all TM_CLS_HWM, .all TM_PORT_OCC, .all RSV_FREE] []) ∧
    (∀ (c : Chan), Keeps (.bondFrameReceive c) [.bond] [.one BOND_CNT_BADTAG d0, .one BOND_CNT_NOT_MEMBER d0, .one BOND_EVT d0, .one BOND_GROUP_STAT d0, .one BOND_CNT_SKEW_OVF (d0i c.val)] []) ∧
    (∀ (x : Checked Chan), Keeps (.skewRelease x) [.bond, .dram] [.one BOND_CNT_NOT_MEMBER d0, .one BOND_GROUP_STAT d0, .die RSV_EVT (chanDie x.at_.val), .die MEM_EVT (chanDie x.at_.val), .die RSV_ELOG_W (chanDie x.at_.val), .die MEM_ELOG_W (chanDie x.at_.val), .die MEM_CNT_UE_DROP (chanDie x.at_.val)] []) ∧
    (∀ (x : Checked Chan), Keeps (.reorderArrival x) [.pwr, .dram, .pipe, .bond] [.one BOND_CNT_DUP d0, .one BOND_CNT_JUMP d0, .one BOND_CNT_LATE d0, .one BOND_CNT_LOST d0, .one BOND_EVT d0, .one BOND_GROUP_STAT d0, .all BOND_CNT_FORCE, .all RSV_CNT_NOBUF, .all RSV_FREE, .all MEM_CNT_UE_DROP, .all RSV_EVT, .all MEM_EVT, .all RSV_ELOG_W, .all MEM_ELOG_W, .all DLINK_DROP, .one HW_ABSENT_DROP d0, .all PMC_CNT_LO, .all PMC_OVF] [.all PMC_CNT_HI]) ∧
    (∀ (x : Checked (Fin 8)), Keeps (.reorderTimeoutSkip x) [.pwr, .dram, .pipe, .bond] [.one BOND_CNT_LOST d0, .one BOND_EVT d0, .one BOND_GROUP_STAT d0, .all BOND_CNT_TMO, .all RSV_CNT_NOBUF, .all RSV_FREE, .all MEM_CNT_UE_DROP, .all RSV_EVT, .all MEM_EVT, .all RSV_ELOG_W, .all MEM_ELOG_W, .all DLINK_DROP, .one HW_ABSENT_DROP d0, .all PMC_CNT_LO, .all PMC_OVF] [.all PMC_CNT_HI]) ∧
    (∀ (x : Checked (Fin 8)), Keeps (.reorderFastSkip x) [.pwr, .dram, .pipe, .bond] [.one BOND_CNT_LOST d0, .one BOND_GROUP_STAT d0, .all BOND_CNT_FAST, .all RSV_CNT_NOBUF, .all RSV_FREE, .all MEM_CNT_UE_DROP, .all RSV_EVT, .all MEM_EVT, .all RSV_ELOG_W, .all MEM_ELOG_W, .all DLINK_DROP, .one HW_ABSENT_DROP d0, .all PMC_CNT_LO, .all PMC_OVF] [.all PMC_CNT_HI]) ∧
    (∀ (v : Word), Keeps (.skewArm v) [] [.one BOND_EVT d0, .one BOND_SKEW_CTL d0, .one BOND_SKEW_STAT d0] []) ∧
    (∀ (c : Chan), Keeps (.skewCapture c) [] [.one BOND_EVT d0, .one BOND_SKEW_STAT d0, .one BOND_SKEW_CAP (d0i c.val)] []) ∧
    (∀ (c : Chan), Keeps (.memberRxChange c) [.bond] [.one BOND_EVT d0, .one BOND_GROUP_STAT d0] []) ∧
    (Keeps (.bondGroupCommit) [.pwr, .dram, .pipe, .bond] [.one BOND_CNT_NOT_MEMBER d0, .one BOND_EVT d0, .one BOND_GROUP_STAT d0, .all RSV_CNT_NOBUF, .all RSV_FREE, .all MEM_CNT_UE_DROP, .all RSV_EVT, .all MEM_EVT, .all RSV_ELOG_W, .all MEM_ELOG_W, .all DLINK_DROP, .one HW_ABSENT_DROP d0, .all PMC_CNT_LO, .all PMC_OVF] [.all BOND_GROUP_CFG, .all BOND_GROUP_TMO, .all BOND_MEMBER, .all PMC_CNT_HI]) ∧
    (∀ (v : Word), Keeps (.ugrpCommit v) [.bond] [.all BOND_UGRP_COMMIT] [.all BOND_UGRP_A, .all BOND_UGRP_B])

/-- From every state each of these commands completes, and it changes nothing but the areas of State and the registers listed for it: every byte of memory (unless memory is listed), every other area, every other register's stored word and every other value in effect is as before. Here: dispatch, images, the tile instructions, the lookup engines and the delta. With a clean fetch an instruction that works on its own thread leaves every other thread, the instruction memory, the counters and the commands in flight as they were. -/
def Obligations.PipelineFrames : Prop :=
    (∀ (d : LcDie) (k : Fin 32), Keeps (.dispatchSourceArrival d k) [.pwr, .dram, .pipe] [.one DISP_CNT_DIS (place d.val k.val), .one DISP_CNT_FULL (place d.val k.val), .all RSV_FREE] []) ∧
    (∀ (x : Checked LcDie), Keeps (.dispatch x) [.pipe, .dram] [.one EDDY_CNT_PASS1 (onDie x.at_.val), .one EDDY_CNT_PASS2 (onDie x.at_.val), .one MEM_CNT_UE_DROP (onDie x.at_.val), .die RSV_EVT (x.at_.val), .die MEM_EVT (x.at_.val), .die RSV_ELOG_W (x.at_.val), .die MEM_ELOG_W (x.at_.val), .die PMC_CNT_LO (x.at_.val), .die PMC_OVF (x.at_.val), .all RSV_FREE] [.die PMC_CNT_HI (x.at_.val)]) ∧
    (∀ (d : LcDie) (v : Word), Keeps (.dispRun d v) [] [.one DISP_CFG (onDie d.val)] []) ∧
    (∀ (d : LcDie), Keeps (.tileCommit d) [] [.one TILE_BANK_STAT (onDie d.val)] [.one TILE_CFG (onDie d.val), .die TILE_ENTRY (d.val)]) ∧
    (∀ (d : LcDie) (v : Word), Keeps (.imemDataWrite d v) [.pipe] [.one TILE_IMEM_ADDR (onDie d.val), .one TILE_IMEM_STAT (onDie d.val)] []) ∧
    (∀ (d : LcDie) (v : Word), Keeps (.imemCheck d v) [.pipe] [.one TILE_IMEM_CHK (onDie d.val), .one TILE_IMEM_STAT (onDie d.val)] []) ∧
    (∀ (d : LcDie), Keeps (.imemCheckDone d) [.pipe] [.one TILE_IMEM_CRC (onDie d.val), .one TILE_IMEM_STAT (onDie d.val)] []) ∧
    (∀ (d : CourseDie) (v : Word), Keeps (.deltaGroupWrite d v) [.pipe] [.one DELTA_GRP_WR (onDie (courseIdx d))] []) ∧
    (∀ (x : Checked CourseDie) (v : Word), Keeps (.deltaGroupRead x v) [.dram, .pipe] [.one DELTA_GRP_STAGE0 (onDie (courseIdx x.at_)), .one DELTA_GRP_STAGE1 (onDie (courseIdx x.at_)), .one DELTA_GRP_WR (onDie (courseIdx x.at_)), .die RSV_EVT (courseIdx x.at_), .die MEM_EVT (courseIdx x.at_), .die RSV_ELOG_W (courseIdx x.at_), .die MEM_ELOG_W (courseIdx x.at_)] []) ∧
    (∀ (d : CourseDie) (v : Word), Keeps (.deltaCopyWrite d v) [.pipe] [.die DELTA_CPY_WR_DATA (courseIdx d)] []) ∧
    (∀ (x : Checked LcDie), Keeps (.orderHoldLaunch x) [.mesh, .pwr, .pipe, .dram] [.all DLINK_DROP, .one HW_ABSENT_DROP d0, .all PWR_CNT_HOLD_DROP, .all RSV_FREE, .die RSV_EVT (x.at_.val), .die MEM_EVT (x.at_.val), .die RSV_ELOG_W (x.at_.val), .die MEM_ELOG_W (x.at_.val), .die MEM_CNT_UE_DROP (x.at_.val), .die PMC_CNT_LO (x.at_.val), .die PMC_OVF (x.at_.val)] [.die PMC_CNT_HI (x.at_.val)]) ∧
    (∀ (d : CourseDie), Keeps (.deltaArrival d) [.mesh, .pwr, .pipe, .dram] [.all DLINK_DROP, .one HW_ABSENT_DROP d0, .all PWR_CNT_HOLD_DROP, .all RSV_FREE, .one DELTA_CNT_FULL (onDie (courseIdx d)), .one LKP_GEN_STAT (onDie (courseIdx d))] []) ∧
    (∀ (x : DeltaRead), Keeps (.deltaAccept x) [.mesh, .pwr, .pipe, .dram] [.all DLINK_DROP, .one HW_ABSENT_DROP d0, .all PWR_CNT_HOLD_DROP, .all RSV_FREE, .one DELTA_CNT_BAD_COPY (onDie (courseIdx x.die)), .one DELTA_CNT_EMPTY (onDie (courseIdx x.die)), .die RSV_EVT (courseIdx x.die), .die MEM_EVT (courseIdx x.die), .die RSV_ELOG_W (courseIdx x.die), .die MEM_ELOG_W (courseIdx x.die), .die MEM_CNT_UE_DROP (courseIdx x.die), .die PMC_CNT_LO (courseIdx x.die), .die PMC_OVF (courseIdx x.die)] [.die PMC_CNT_HI (courseIdx x.die)]) ∧
    (∀ (d : LcDie), Keeps (.spillwayArrival d) [.dram, .pipe, .dma] [.all DMA_CNT_IN_FULL, .all DMA_CNT_OFF, .all RSV_FREE, .all SPW_CNT_DROP, .all SPW_CNT_PASS, .die PMC_CNT_LO (d.val), .die PMC_OVF (d.val)] [.die PMC_CNT_HI (d.val)]) ∧
    (∀ (d : LcDie) (r : Fin 64), Keeps (.spillwayRefill d r) [.pipe] [] [.die SPW_SLU (d.val)]) ∧
    (∀ (x : Issue), ∀ cmd ∈ ([.add x, .sub x, .and x, .or x, .xor x, .shl x, .shr x, .sar x, .minu x, .maxu x, .cmp x, .mul x, .addi x, .andi x, .ori x, .xori x, .cmpi x, .lui x, .shli x, .shri x, .sari x, .rori x, .ext x, .dep x, .hash x, .mfm x, .mtm x, .flgRead x, .flgWrite x, .ldh x, .sth x, .movh x, .nxt x, .csum x, .csi x, .bcc x, .jal x, .jr x, .reservedWordIssue x, .recirc x, .punt x, .lke x, .cnt x] : List Instr), Keeps cmd [.dram, .pipe] [.die RSV_EVT (x.die.val), .die MEM_EVT (x.die.val), .die RSV_ELOG_W (x.die.val), .die MEM_ELOG_W (x.die.val), .die MEM_CNT_TILE_UE (x.die.val), .die MEM_TILE_OFF (x.die.val), .die TILE_EXC_CNT (x.die.val), .die PMC_CNT_LO (x.die.val), .die PMC_OVF (x.die.val), .all RSV_FREE] [.die PMC_CNT_HI (x.die.val)]) ∧
    (∀ (x : Issue) (flipped : Bool), Keeps (.lkt x flipped) [.dram, .pipe] [.die RSV_EVT (x.die.val), .die MEM_EVT (x.die.val), .die RSV_ELOG_W (x.die.val), .die MEM_ELOG_W (x.die.val), .die MEM_CNT_TILE_UE (x.die.val), .die MEM_TILE_OFF (x.die.val), .die TILE_EXC_CNT (x.die.val), .die PMC_CNT_LO (x.die.val), .die PMC_OVF (x.die.val), .all RSV_FREE] [.die PMC_CNT_HI (x.die.val)]) ∧
    (∀ (x : Issue), Keeps (.lkl x) [.dram, .pipe] [.die RSV_EVT (x.die.val), .die MEM_EVT (x.die.val), .die RSV_ELOG_W (x.die.val), .die MEM_ELOG_W (x.die.val), .die MEM_CNT_TILE_UE (x.die.val), .die MEM_TILE_OFF (x.die.val), .die TILE_EXC_CNT (x.die.val), .die PMC_CNT_LO (x.die.val), .die PMC_OVF (x.die.val), .die LKP_LPM_USE (x.die.val), .die LKP_LPM_USE6 (x.die.val), .all RSV_FREE] [.die PMC_CNT_HI (x.die.val)]) ∧
    (∀ (x : Issue), Keeps (.drop x) [.dram, .pipe] [.die RSV_EVT (x.die.val), .die MEM_EVT (x.die.val), .die RSV_ELOG_W (x.die.val), .die MEM_ELOG_W (x.die.val), .die MEM_CNT_TILE_UE (x.die.val), .die MEM_TILE_OFF (x.die.val), .die TILE_EXC_CNT (x.die.val), .die PMC_CNT_LO (x.die.val), .die PMC_OVF (x.die.val), .die TILE_DROP_CNT (x.die.val), .all RSV_FREE] [.die PMC_CNT_HI (x.die.val)]) ∧
    (∀ (x : Issue), Keeps (.ldm x) [.dram, .pipe, .mesh, .pwr] [.die RSV_EVT (x.die.val), .die MEM_EVT (x.die.val), .die RSV_ELOG_W (x.die.val), .die MEM_ELOG_W (x.die.val), .die MEM_CNT_TILE_UE (x.die.val), .die MEM_TILE_OFF (x.die.val), .die TILE_EXC_CNT (x.die.val), .die PMC_CNT_LO (x.die.val), .die PMC_OVF (x.die.val), .all RSV_FREE, .all RSV_EVT, .all MEM_EVT, .all RSV_ELOG_W, .all MEM_ELOG_W, .all CTL_ECC_CE, .all CTL_ECC_UE, .all PMC_CNT_LO, .all PMC_OVF] [.die PMC_CNT_HI (x.die.val), .all PMC_CNT_HI]) ∧
    (∀ (x : Issue), Keeps (.stm x) [.mem, .dram, .pipe, .mesh, .pwr] [.die RSV_EVT (x.die.val), .die MEM_EVT (x.die.val), .die RSV_ELOG_W (x.die.val), .die MEM_ELOG_W (x.die.val), .die MEM_CNT_TILE_UE (x.die.val), .die MEM_TILE_OFF (x.die.val), .die TILE_EXC_CNT (x.die.val), .die PMC_CNT_LO (x.die.val), .die PMC_OVF (x.die.val), .all RSV_FREE, .all PMC_CNT_LO, .all PMC_OVF] [.die PMC_CNT_HI (x.die.val), .all PMC_CNT_HI]) ∧
    (∀ (x : Issue), ∀ cmd ∈ ([.enq x, .mcast x] : List Instr), Keeps cmd [.mesh, .pwr, .dram, .pipe] [.die RSV_EVT (x.die.val), .die MEM_EVT (x.die.val), .die RSV_ELOG_W (x.die.val), .die MEM_ELOG_W (x.die.val), .die MEM_CNT_TILE_UE (x.die.val), .die MEM_TILE_OFF (x.die.val), .die TILE_EXC_CNT (x.die.val), .die PMC_CNT_LO (x.die.val), .die PMC_OVF (x.die.val), .die DISP_CNT_ORDER_LATE (x.die.val), .all DLINK_DROP, .one HW_ABSENT_DROP d0, .all PWR_CNT_HOLD_DROP, .all RSV_FREE] [.die PMC_CNT_HI (x.die.val)]) ∧
    (∀ (x : Issue), Keeps (.mirror x) [.mesh, .pwr, .dram, .pipe] [.die RSV_EVT (x.die.val), .die MEM_EVT (x.die.val), .die RSV_ELOG_W (x.die.val), .die MEM_ELOG_W (x.die.val), .die MEM_CNT_TILE_UE (x.die.val), .die MEM_TILE_OFF (x.die.val), .die TILE_EXC_CNT (x.die.val), .die PMC_CNT_LO (x.die.val), .die PMC_OVF (x.die.val), .die TILE_CNT_MIRROR_LIM (x.die.val), .all DLINK_DROP, .one HW_ABSENT_DROP d0, .all PWR_CNT_HOLD_DROP, .all RSV_FREE] [.die PMC_CNT_HI (x.die.val)]) ∧
    (∀ (x : Issue), Keeps (.dflt x) [.mesh, .pwr, .dram, .pipe] [.die RSV_EVT (x.die.val), .die MEM_EVT (x.die.val), .die RSV_ELOG_W (x.die.val), .die MEM_ELOG_W (x.die.val), .die MEM_CNT_TILE_UE (x.die.val), .die MEM_TILE_OFF (x.die.val), .die TILE_EXC_CNT (x.die.val), .die PMC_CNT_LO (x.die.val), .die PMC_OVF (x.die.val), .die DISP_CNT_ORDER_LATE (x.die.val), .die TILE_DROP_CNT (x.die.val), .all DLINK_DROP, .one HW_ABSENT_DROP d0, .all PWR_CNT_HOLD_DROP, .all RSV_FREE] [.die PMC_CNT_HI (x.die.val)]) ∧
    (∀ (d : LcDie) (v : Word), Keeps (.emEntryWrite d v) [.pipe] [.one LKP_EM_WR (onDie d.val), .one LKP_WR_STAT (onDie d.val)] []) ∧
    (∀ (x : Checked LcDie) (v : Word), Keeps (.emEntryRead x v) [.dram, .pipe] [.one LKP_EM_WR (onDie x.at_.val), .one LKP_WR_STAT (onDie x.at_.val), .die LKP_EM_STAGE (x.at_.val), .die LKP_EM_STAGE6 (x.at_.val), .die RSV_EVT (x.at_.val), .die MEM_EVT (x.at_.val), .die RSV_ELOG_W (x.at_.val), .die MEM_ELOG_W (x.at_.val)] []) ∧
    (∀ (d : LcDie) (v : Word), Keeps (.tcEntryWrite d v) [.pipe] [.one LKP_TC_WR (onDie d.val), .one LKP_WR_STAT (onDie d.val)] []) ∧
    (∀ (d : LcDie) (v : Word), Keeps (.tcEntryRead d v) [] [.one LKP_TC_WR (onDie d.val), .one LKP_WR_STAT (onDie d.val), .one LKP_TC_CTL (onDie d.val), .die LKP_TC_DATA (d.val), .die LKP_TC_KEY (d.val), .die LKP_TC_MASK (d.val)] []) ∧
    (∀ (d : LcDie) (ternary : Bool), Keeps (.lkpEntryWriteDone d ternary) [.pipe] [.one LKP_WR_STAT (onDie d.val)] []) ∧
    (∀ (d : CourseDie) (v : Word), ∀ cmd ∈ ([.lpmSet d v, .lpmClear d v] : List Instr), Keeps cmd [.pipe] [.one LKP_LPM_CTL (onDie (courseIdx d))] []) ∧
    (∀ (x : Checked CourseDie) (v : Word), Keeps (.lpmRead x v) [.pipe, .dram] [.one LKP_LPM_CTL (onDie (courseIdx x.at_)), .die LKP_LPM_USE (courseIdx x.at_), .die LKP_LPM_USE6 (courseIdx x.at_), .die RSV_EVT (courseIdx x.at_), .die MEM_EVT (courseIdx x.at_), .die RSV_ELOG_W (courseIdx x.at_), .die MEM_ELOG_W (courseIdx x.at_)] []) ∧
    (∀ (d : CourseDie), Keeps (.lpmCommandDone d) [.pipe] [.one LKP_LPM_CTL (onDie (courseIdx d)), .one LKP_LPM_RES (onDie (courseIdx d)), .one LKP_LPM_USE (onDie (courseIdx d)), .one LKP_LPM_USE6 (onDie (courseIdx d)), .die LKP_LPM_PFX (courseIdx d)] []) ∧
    (∀ (x : Checked LcDie) (v : Word), Keeps (.counterRead x v) [.pipe, .dram] [.one LKP_CNT_BYTE_HI (onDie x.at_.val), .one LKP_CNT_BYTE_LO (onDie x.at_.val), .one LKP_CNT_PKT_HI (onDie x.at_.val), .one LKP_CNT_PKT_LO (onDie x.at_.val), .one LKP_CNT_RD (onDie x.at_.val), .die RSV_EVT (x.at_.val), .die MEM_EVT (x.at_.val), .die RSV_ELOG_W (x.at_.val), .die MEM_ELOG_W (x.at_.val)] []) ∧
    (∀ (d : LcDie), Keeps (.tblCommit d) [] [.one LKP_TBL_STAT (onDie d.val)] [.die LKP_CNT_BANK (d.val), .die LKP_EM_TBL (d.val), .die LKP_LPM_TBL (d.val), .die LKP_TC_TBL (d.val)]) ∧
    (∀ (d : LcDie) (v : Word), ∀ cmd ∈ ([.genSwitchNow d v, .genSwitchArm d v] : List Instr), Keeps cmd [] [.one LKP_GEN_CTL (onDie d.val), .one LKP_GEN_STAT (onDie d.val)] [.one LKP_GEN_CTL (onDie d.val), .one LKP_GEN_AT (onDie d.val)]) ∧
    (∀ (d : LcDie), ∀ cmd ∈ ([.genSwitchArmed d, .genDrained d] : List Instr), Keeps cmd [] [.one LKP_GEN_STAT (onDie d.val)] []) ∧
    (∀ (s : State) (x : Issue), x.fetch = .clean → ∀ cmd ∈ ([.add x, .sub x, .and x, .or x, .xor x, .shl x, .shr x, .sar x, .minu x, .maxu x, .cmp x, .mul x, .addi x, .andi x, .ori x, .xori x, .cmpi x, .lui x, .shli x, .shri x, .sari x, .rori x, .ext x, .dep x, .hash x, .mfm x, .mtm x, .flgRead x, .flgWrite x, .ldh x, .sth x, .movh x, .nxt x, .csum x, .csi x, .bcc x, .jal x, .jr x, .reservedWordIssue x, .recirc x, .punt x] : List Instr),
      Completes cmd s (fun t => s.Within t [.pipe] [.die TILE_EXC_CNT x.die.val, .die PMC_CNT_LO x.die.val, .die PMC_OVF x.die.val] [.die PMC_CNT_HI x.die.val] ∧
        (∀ d n, threadKey d n ≠ threadKey x.die.val x.thread.val → t.thread d n = s.thread d n) ∧
        t.pipe.imem = s.pipe.imem ∧ t.pipe.pairs = s.pipe.pairs ∧ t.pipe.flight = s.pipe.flight))

/-- From every state each of these commands completes, and it changes nothing but the areas of State and the registers listed for it: every byte of memory (unless memory is listed), every other area, every other register's stored word and every other value in effect is as before. Here: the queues, the scheduler, the gates, the MACs, MDIO and the cage I2C master. -/
def Obligations.TrafficAndMacFrames : Prop :=
    (∀ (d : LcDie), Keeps (.tmStateClearDone d) [] [.one TM_STAT (onDie d.val)] []) ∧
    (∀ (x : Checked LcDie) (v : Word), ∀ cmd ∈ ([.qopWrite x v, .qopFill x v] : List Instr), Keeps cmd [.tm, .dram] [.one TM_QOP (onDie x.at_.val), .die TM_CLS_OCC (x.at_.val), .die TM_CLS_HWM (x.at_.val), .die TM_PORT_OCC (x.at_.val), .die TM_POOL_OCC (x.at_.val), .die RSV_EVT (x.at_.val), .die MEM_EVT (x.at_.val), .die RSV_ELOG_W (x.at_.val), .die MEM_ELOG_W (x.at_.val), .all RSV_FREE, .all RSV_LOST_CELLS] []) ∧
    (∀ (x : Checked LcDie) (v : Word), Keeps (.qopRead x v) [.tm, .dram] [.one TM_QOP (onDie x.at_.val), .one TM_Q_STAGE0 (onDie x.at_.val), .one TM_Q_STAGE1 (onDie x.at_.val), .die TM_Q_STAT (x.at_.val), .die TM_CLS_OCC (x.at_.val), .die TM_CLS_HWM (x.at_.val), .die TM_PORT_OCC (x.at_.val), .die TM_POOL_OCC (x.at_.val), .die RSV_EVT (x.at_.val), .die MEM_EVT (x.at_.val), .die RSV_ELOG_W (x.at_.val), .die MEM_ELOG_W (x.at_.val), .all RSV_FREE, .all RSV_LOST_CELLS] []) ∧
    (∀ (x : Checked LcDie) (v : Word), Keeps (.qopFlush x v) [.dram, .tm] [.one TM_QOP (onDie x.at_.val), .one TM_CNT_FLUSH (onDie x.at_.val), .die TM_CLS_OCC (x.at_.val), .die TM_CLS_HWM (x.at_.val), .die TM_PORT_OCC (x.at_.val), .die TM_POOL_OCC (x.at_.val), .die RSV_EVT (x.at_.val), .die MEM_EVT (x.at_.val), .die RSV_ELOG_W (x.at_.val), .die MEM_ELOG_W (x.at_.val), .all RSV_FREE, .all RSV_LOST_CELLS] []) ∧
    (∀ (d : LcDie) (v : Word), Keeps (.sluWrite d v) [.tm] [.one SLU_WR (onDie d.val)] []) ∧
    (∀ (d : LcDie) (v : Word), Keeps (.sluRead d v) [] [.one SLU_WR (onDie d.val), .die SLU_STAGE0 (d.val), .die SLU_STAGE1 (d.val), .die SLU_STAGE2 (d.val)] []) ∧
    (∀ (d : LcDie) (v : Word), Keeps (.sluCounterRead d v) [.tm] [.one SLU_CNT_G (onDie d.val), .one SLU_CNT_R (onDie d.val), .one SLU_CNT_Y (onDie d.val), .one SLU_CNT_RD (onDie d.val)] []) ∧
    (∀ (d : LcDie), Keeps (.tmRefill d) [.tm] [.die WEIR_BAL (d.val)] [.die WEIR_CFG (d.val)]) ∧
    (∀ (x : Checked Port), Keeps (.decisionSlot x) [.dram, .tm, .macs, .pmc] [.one MAC_STAT (atPort x.at_.val), .one TM_CNT_TOOLONG (atPort x.at_.val), .die TM_POOL_OCC (portDie x.at_.val), .die TM_CLS_OCC (portDie x.at_.val), .die TM_CLS_HWM (portDie x.at_.val), .die TM_PORT_OCC (portDie x.at_.val), .die TM_CNT_CLAMP (portDie x.at_.val), .die RSV_EVT (portDie x.at_.val), .die MEM_EVT (portDie x.at_.val), .die RSV_ELOG_W (portDie x.at_.val), .die MEM_ELOG_W (portDie x.at_.val), .all RSV_FREE, .all RSV_LOST_CELLS] []) ∧
    (∀ (p : Port) (e : Ecc), Keeps (.dequeue p e) [.dram, .tm, .macs] [.one MAC_CNT_TX_LINK_DROP (atPort p.val), .one MAC_TS_STAT (atPort p.val), .die TM_POOL_OCC (portDie p.val), .die TM_CLS_OCC (portDie p.val), .die TM_CLS_HWM (portDie p.val), .die TM_PORT_OCC (portDie p.val), .die TM_CNT_CLAMP (portDie p.val), .die WEIR_BAL (portDie p.val), .die RSV_EVT (portDie p.val), .die MEM_EVT (portDie p.val), .die RSV_ELOG_W (portDie p.val), .die MEM_ELOG_W (portDie p.val), .die PMC_CNT_LO (portDie p.val), .die PMC_OVF (portDie p.val), .all RSV_FREE, .all RSV_LOST_CELLS] [.die PMC_CNT_HI (portDie p.val)]) ∧
    (∀ (d : LcDie) (e : Ecc), Keeps (.enqueueVisible d e) [.pwr, .tm, .dram, .pmc, .pipe] [.die PMC_CNT_LO (d.val), .die PMC_OVF (d.val), .die TM_CNT_CLAMP (d.val), .die TM_CNT_NOTREADY (d.val), .die TM_CNT_POOL (d.val), .die TM_CNT_QDIS (d.val), .die TM_CNT_QLIM (d.val), .die TM_CNT_RED (d.val), .die TM_CNT_RETIRED (d.val), .die TM_POOL_OCC (d.val), .die TM_CLS_OCC (d.val), .die TM_CLS_HWM (d.val), .die TM_PORT_OCC (d.val), .die RSV_EVT (d.val), .die MEM_EVT (d.val), .die RSV_ELOG_W (d.val), .die MEM_ELOG_W (d.val), .all RSV_FREE, .all RSV_LOST_CELLS] [.die TM_CLS_CFG (d.val), .die PMC_CNT_HI (d.val)]) ∧
    (∀ (d : LcDie) (k : Fin 64) (v : Word), Keeps (.gateAdminDataWrite d k v) [.tm] [.one GATE_ADM_ADDR (place d.val k.val), .one GATE_STAT (place d.val k.val)] []) ∧
    (∀ (d : LcDie) (k : Fin 64) (v : Word), Keeps (.gateCommit d k v) [.tm] [.one GATE_CTL (place d.val k.val), .one GATE_STAT (place d.val k.val)] []) ∧
    (∀ (d : LcDie) (k : Fin 64), Keeps (.gateSwap d k) [.tm] [.one GATE_STAT (place d.val k.val)] []) ∧
    (∀ (d : LcDie), Keeps (.aprofCommit d) [] [] [.die TM_APROF_A (d.val), .die TM_APROF_B (d.val)]) ∧
    (∀ (d : LcDie), Keeps (.poolCommit d) [] [] [.one TM_POOL_LIM_G (onDie d.val), .one TM_POOL_LIM_R (onDie d.val), .one TM_POOL_LIM_Y (onDie d.val)]) ∧
    (∀ (n : LineDie), Keeps (.uprofCommit n) [] [] [.die TM_UPROF_SP (n.val), .die TM_UPROF_W0 (n.val), .die TM_UPROF_W1 (n.val)]) ∧
    (∀ (m : MacPort) (k : Fin 9), Keeps (.pauseTimerExpiry m k) [.macs] [.one (m.reg MAC_STAT) (m.at_)] []) ∧
    (∀ (m : MacPort) (k : Fin 9), Keeps (.pauseWatchdog m k) [.macs] [.one (m.reg MAC_STAT) (m.at_), .one (m.reg MAC_CNT_PAUSE_WD) (m.at_)] []) ∧
    (∀ (m : MacPort) (v : Word), Keeps (.daFilterWrite m v) [.macs] [.one (m.reg MAC_DA_WR) (m.at_)] []) ∧
    (∀ (m : MacPort) (v : Word), Keeps (.daFilterRead m v) [] [.one (m.reg MAC_DA_WR) (m.at_), .one (m.reg MAC_DA_STAGE_HI) (m.at_), .one (m.reg MAC_DA_STAGE_LO) (m.at_)] []) ∧
    (∀ (m : MacPort) (phi : Nat), Keeps (.macTransmitStart m phi) [.dram, .macs, .ciph, .pwr] [.one (m.reg MAC_CNT_TX_CSUM_SKIP) (m.at_), .one (m.reg MAC_CNT_TX_DIS) (m.at_), .one (m.reg MAC_CNT_TX_LONG) (m.at_), .one (m.reg MAC_CNT_TX_TS_SKIP) (m.at_), .one (m.reg MAC_TS_STAT) (m.at_), .one (m.reg MAC_STAT) (m.at_), .one CIPH_CNT_MS_TX_NOKEY m.at_, .one CIPH_CNT_MS_TX_PNEXH m.at_, .one CIPH_CNT_MS_TX_PROT m.at_, .one TM_CNT_LATE_START m.at_, .one CIPH_EVT (onDie m.die), .all RSV_FREE, .all RSV_CNT_UE_TX, .all PMC_CNT_LO, .all PMC_OVF] [.all PMC_CNT_HI]) ∧
    (∀ (m : MacPort), Keeps (.frameTransmitEnd m) [.dram, .pipe, .macs, .ciph, .dma, .pmc, .pwr] [.one (m.reg MAC_CNT_TS_DROP) (m.at_), .one (m.reg MAC_CNT_TX_BYTES_LO) (m.at_), .one (m.reg MAC_CNT_TX_PAUSE) (m.at_), .one (m.reg MAC_CNT_TX_PKTS) (m.at_), .one (m.reg MAC_TS_STAT) (m.at_), .die (m.reg MAC_TSF_W) (m.die), .one (m.reg MAC_CNT_RX_BYTES_LO) (m.at_), .one (m.reg MAC_CNT_RX_CODE) (m.at_), .one (m.reg MAC_CNT_RX_CTL_DROP) (m.at_), .one (m.reg MAC_CNT_RX_FCS) (m.at_), .one (m.reg MAC_CNT_RX_FILT) (m.at_), .one (m.reg MAC_CNT_RX_LONG) (m.at_), .one (m.reg MAC_CNT_RX_PAUSE) (m.at_), .one (m.reg MAC_CNT_RX_PKTS) (m.at_), .one (m.reg MAC_CNT_RX_RUNT) (m.at_), .one (m.reg MAC_STAT) (m.at_), .one CIPH_CNT_MS_RX_BADTAG m.at_, .one CIPH_CNT_MS_RX_NOSA m.at_, .one CIPH_CNT_MS_RX_OK m.at_, .one CIPH_CNT_MS_RX_REPLAY m.at_, .one CIPH_CNT_MS_RX_TAGFAIL m.at_, .one CIPH_CNT_MS_RX_UNTAGGED m.at_, .all CIPH_EVT, .all DMA_CNT_IN_FULL, .all DMA_CNT_OFF, .all PWR_CNT_MGT_WAKE_DROP, .all PWR_CNT_PAT_MISS, .all PWR_CNT_WAKE_DROP, .all RSV_CNT_NOBUF, .all RSV_FREE, .all DLINK_DROP, .one HW_ABSENT_DROP d0, .all PMC_CNT_LO, .all PMC_OVF] [.one (m.reg MAC_CNT_TX_BYTES_HI) (m.at_), .one (m.reg MAC_CNT_RX_BYTES_HI) (m.at_), .one (m.reg MAC_FC_CFG) (m.at_), .one (m.reg MAC_FC_WD) (m.at_), .all PMC_CNT_HI]) ∧
    (∀ (m : MacPort) (frame : List Byte) (fcsOk : Bool) (codeErr : Bool) (age : Nat), Keeps (.frameReceive m frame fcsOk codeErr age) [.dram, .pipe, .macs, .ciph, .dma, .pmc, .pwr] [.one (m.reg MAC_CNT_RX_BYTES_LO) (m.at_), .one (m.reg MAC_CNT_RX_CODE) (m.at_), .one (m.reg MAC_CNT_RX_CTL_DROP) (m.at_), .one (m.reg MAC_CNT_RX_FCS) (m.at_), .one (m.reg MAC_CNT_RX_FILT) (m.at_), .one (m.reg MAC_CNT_RX_LONG) (m.at_), .one (m.reg MAC_CNT_RX_PAUSE) (m.at_), .one (m.reg MAC_CNT_RX_PKTS) (m.at_), .one (m.reg MAC_CNT_RX_RUNT) (m.at_), .one (m.reg MAC_STAT) (m.at_), .one CIPH_CNT_MS_RX_BADTAG m.at_, .one CIPH_CNT_MS_RX_NOSA m.at_, .one CIPH_CNT_MS_RX_OK m.at_, .one CIPH_CNT_MS_RX_REPLAY m.at_, .one CIPH_CNT_MS_RX_TAGFAIL m.at_, .one CIPH_CNT_MS_RX_UNTAGGED m.at_, .all CIPH_EVT, .all DMA_CNT_IN_FULL, .all DMA_CNT_OFF, .all PWR_CNT_MGT_WAKE_DROP, .all PWR_CNT_PAT_MISS, .all PWR_CNT_WAKE_DROP, .all RSV_CNT_NOBUF, .all RSV_FREE, .all DLINK_DROP, .one HW_ABSENT_DROP d0, .all PMC_CNT_LO, .all PMC_OVF] [.one (m.reg MAC_CNT_RX_BYTES_HI) (m.at_), .all PMC_CNT_HI]) ∧
    (∀ (m : MacPort) (v : Word), Keeps (.pauseTx m v) [.macs] [.one (m.reg MAC_PAUSE_TX) (m.at_)] []) ∧
    (∀ (m : MacPort), Keeps (.lpiEntry m) [] [.one (m.reg MAC_CNT_TX_LPI) (m.at_), .one (m.reg MAC_STAT) (m.at_)] []) ∧
    (∀ (m : MacPort) (up : Bool) (speed : Fin 3), Keeps (.linkChange m up speed) [.pwr, .dram, .macs] [.one (m.reg MAC_CNT_TX_LINK_DROP) (m.at_), .one (m.reg MAC_STAT) (m.at_), .one (m.reg MAC_TS_STAT) (m.at_), .all RSV_FREE] [.one (m.reg MAC_FC_CFG) (m.at_), .one (m.reg MAC_FC_WD) (m.at_)]) ∧
    (∀ (m : MacPort), Keeps (.tsFifoPop m) [.macs] [.one (m.reg MAC_TS_STAT) (m.at_), .die (m.reg MAC_TSF_W) (m.die)] []) ∧
    (∀ (m : MacPort), Keeps (.ptpCommit m) [.macs] [] [.one (m.reg MAC_PTP_CFG) (m.at_), .one (m.reg MAC_TS_RX_CORR) (m.at_), .one (m.reg MAC_TS_TX_CORR) (m.at_)]) ∧
    (∀ (d : CourseDie) (m : Fin 4) (v : Word), ∀ cmd ∈ ([.mdioC22Write d m v, .mdioC22Read d m v, .mdioC45Address d m v, .mdioC45Write d m v, .mdioC45Read d m v, .mdioC45ReadInc d m v] : List Instr), Keeps cmd [.macs] [.die MAC_MDIO_CMD (courseIdx d), .die MAC_MDIO_STAT (courseIdx d)] [.one MAC_MDIO_IEN (onDie (courseIdx d))]) ∧
    (∀ (d : CourseDie) (m : Fin 4) (data : BitVec 16), Keeps (.mdioFrameDone d m data) [.macs] [.die MAC_MDIO_CMD (courseIdx d), .die MAC_MDIO_DATA (courseIdx d), .die MAC_MDIO_STAT (courseIdx d)] []) ∧
    (∀ (d : CourseDie) (v : Word), ∀ cmd ∈ ([.cageI2cWrite d v, .cageI2cRead d v] : List Instr), Keeps cmd [.macs] [.one MAC_CAGE_I2C_CMD (onDie (courseIdx d)), .one MAC_CAGE_I2C_STAT (onDie (courseIdx d))] [.one MAC_CAGE_I2C_CFG (onDie (courseIdx d))]) ∧
    (∀ (d : CourseDie) (res : I2cEnd) (stretched : Bool) (got : List Byte), Keeps (.cageI2cDone d res stretched got) [.macs] [.one MAC_CAGE_I2C_CMD (onDie (courseIdx d)), .one MAC_CAGE_I2C_STAT (onDie (courseIdx d)), .one MAC_CAGE_I2C_DATA0 (onDie (courseIdx d)), .one MAC_CAGE_I2C_DATA1 (onDie (courseIdx d))] []) ∧
    (∀ (d : CourseDie), Keeps (.ledRefresh d) [.macs] [] []) ∧
    (∀ (m : MacPort) (on : Bool), Keeps (.rxLpiChange m on) [.pwr] [.one (m.reg MAC_CNT_RX_LPI) (m.at_), .one (m.reg MAC_STAT) (m.at_)] [])

/-- From every state each of these commands completes, and it changes nothing but the areas of State and the registers listed for it: every byte of memory (unless memory is listed), every other area, every other register's stored word and every other value in effect is as before. Here: the key slots, OMCI and MACsec, the look-aside engine, the buffer memories, their spares and the scrubber. -/
def Obligations.CipherAndMemoryFrames : Prop :=
    (∀ (d : LcDie) (v : Word), Keeps (.kslotWrite d v) [.ciph] [.one KSLOT_CMD (onDie d.val), .one KSLOT_STAT (onDie d.val), .die KSLOT_STAGE (d.val)] []) ∧
    (∀ (d : LcDie) (v : Word), Keeps (.kslotLoadKiln d v) [.hw, .ciph] [.one KSLOT_CMD (onDie d.val), .one KSLOT_STAT (onDie d.val), .die KSLOT_STAGE (d.val), .one KILN_STAT d0] []) ∧
    (∀ (d : LcDie), Keeps (.kslotHeldWriteDone d) [.ciph] [.one KSLOT_STAT (onDie d.val), .die KSLOT_STAGE (d.val)] []) ∧
    (∀ (d : LcDie) (v : Word), Keeps (.kslotErase d v) [.mem, .mesh, .pwr, .pon, .tm, .dram, .macs, .ciph] [.one KSLOT_CMD (onDie d.val), .one KSLOT_STAT (onDie d.val), .all CIPH_CNT_ERASED, .all CIPH_CNT_MS_TX_ERASED, .all CIPH_LA_ERR, .all CIPH_LA_STAT, .all CIPH_EVT, .all CIPH_LA_CTX_STAT, .all CIPH_LA_HEAD, .all RSV_EVT, .all MEM_EVT, .all RSV_ELOG_W, .all MEM_ELOG_W, .all CTL_ECC_CE, .all CTL_ECC_UE, .all PMC_CNT_LO, .all PMC_OVF] [.all PMC_CNT_HI]) ∧
    (∀ (c : Chan), Keeps (.omciDownstreamCheck c) [.dram, .ciph, .dma] [.one CIPH_CNT_NO_KEY (atChan c.val), .one CIPH_CNT_OMCI_MIC (atChan c.val), .one CIPH_CNT_ERASED (atChan c.val), .one CIPH_EVT (onDie (chanDie c.val)), .all DMA_CNT_IN_FULL, .all DMA_CNT_OFF, .all RSV_FREE] []) ∧
    (∀ (p : Port), Keeps (.msTxCommit p) [] [] [.one CIPH_MS_SCI_HI (atPort p.val), .one CIPH_MS_SCI_LO (atPort p.val), .one CIPH_MS_TX (atPort p.val)]) ∧
    (∀ (d : CourseDie) (k : Fin 2048) (v : Word), Keeps (.msPnWrite d k v) [.ciph] [.one CIPH_MS_PN_LO (place (courseIdx d) k.val)] []) ∧
    (∀ (d : CourseDie) (k : Fin 2048), Keeps (.msPnRead d k) [] [.one CIPH_MS_PN_HI (place (courseIdx d) k.val), .one CIPH_MS_PN_LO (place (courseIdx d) k.val)] []) ∧
    (∀ (p : Port) (n : Fin 4) (v : Word), Keeps (.msRxscWrite p n v) [] [.die CIPH_MS_RXSC_LO (portDie p.val)] [.die CIPH_MS_RXSC_HI (portDie p.val), .die CIPH_MS_RXSC_LO (portDie p.val)]) ∧
    (∀ (n : LineDie) (q : Fin 2), Keeps (.laDoorbell n q) [.mem, .mesh, .pwr, .ciph] [.one CIPH_EVT (onDie n.val), .one CIPH_LA_ERR (onDie n.val), .one CIPH_LA_STAT (onDie n.val), .all PMC_CNT_LO, .all PMC_OVF] [.all PMC_CNT_HI]) ∧
    (∀ (n : LineDie), ∀ cmd ∈ ([.laBulkSuspend n, .laBulkResume n] : List Instr), Keeps cmd [.ciph] [] []) ∧
    (∀ (n : LineDie) (q : Fin 2) (e : Ecc), ∀ cmd ∈ ([.laGcmEncrypt n q e, .laGcmDecrypt n q e, .laCtrEncrypt n q e, .laCtrDecrypt n q e, .laCmacGenerate n q e, .laCmacVerify n q e, .laContextSaveClear n q e, .laContextSaveWrapped n q e, .laContextRestoreClear n q e, .laContextRestoreWrapped n q e] : List Instr), Keeps cmd [.mem, .mesh, .pwr, .dram, .ciph] [.one CIPH_LA_ERR (onDie n.val), .one CIPH_LA_STAT (onDie n.val), .all CIPH_EVT, .all CIPH_LA_CTX_STAT, .all CIPH_LA_HEAD, .all RSV_EVT, .all MEM_EVT, .all RSV_ELOG_W, .all MEM_ELOG_W, .all CTL_ECC_CE, .all CTL_ECC_UE, .all PMC_CNT_LO, .all PMC_OVF] [.all PMC_CNT_HI]) ∧
    (∀ (n : LineDie) (q : Fin 2) (addr : Addr) (write : Bool) (onDesc : Bool), Keeps (.laBusError n q addr write onDesc) [.mem, .mesh, .dram, .ciph] [.one CIPH_EVT (onDie n.val), .one CIPH_LA_ERR (onDie n.val), .one CIPH_LA_STAT (onDie n.val), .all RSV_EVT, .all MEM_EVT, .all RSV_ELOG_W, .all MEM_ELOG_W, .all CTL_ECC_CE, .all CTL_ECC_UE, .all PMC_CNT_LO, .all PMC_OVF] [.all PMC_CNT_HI]) ∧
    (∀ (d : Die) (r : BufReader) (off : BitVec 36) (log2 : Fin 4) (e : Ecc), Keeps (.reservoirRead d r off log2 e) [.mesh, .dram, .macs] [.die RSV_EVT (d.val), .die MEM_EVT (d.val), .die RSV_ELOG_W (d.val), .die MEM_ELOG_W (d.val), .die CTL_ECC_CE (d.val), .die CTL_ECC_UE (d.val), .all RSV_CNT_UE_TX, .die PMC_CNT_LO (d.val), .die PMC_OVF (d.val)] [.die PMC_CNT_HI (d.val)]) ∧
    (∀ (d : Die) (r : Requester) (off : BitVec 36) (log2 : Fin 4) (v : BitVec 64), Keeps (.reservoirWrite d r off log2 v) [.mem, .mesh] [.die PMC_CNT_LO (d.val), .die PMC_OVF (d.val)] [.die PMC_CNT_HI (d.val)]) ∧
    (∀ (r : BufReader) (off : BitVec 36) (log2 : Fin 4) (e : Ecc), Keeps (.packetSramRead r off log2 e) [.mesh, .dram, .macs] [.all RSV_EVT, .all MEM_EVT, .all RSV_ELOG_W, .all MEM_ELOG_W, .all CTL_ECC_CE, .all CTL_ECC_UE, .all RSV_CNT_UE_TX] []) ∧
    (∀ (r : Requester) (off : BitVec 36) (log2 : Fin 4) (v : BitVec 64), Keeps (.packetSramWrite r off log2 v) [.mem, .mesh] [] []) ∧
    (∀ (d : Die) (b : Fin 2) (dom : Fin 32), Keeps (.selfTestStart d b dom) [.dram] [] []) ∧
    (∀ (d : Die) (b : Fin 2) (dom : Fin 32) (pass : Bool) (inUse : List Nat), Keeps (.selfTestEnd d b dom pass inUse) [.dram] [.die RSV_EVT (d.val), .die MEM_EVT (d.val), .die RSV_ELOG_W (d.val), .die MEM_ELOG_W (d.val), .die MEM_QUEUE_RETIRED (d.val), .die MEM_STAT (d.val), .die RSV_CAPACITY (d.val), .die RSV_FREE (d.val), .die RSV_STAT (d.val), .die PMC_CNT_LO (d.val), .die PMC_OVF (d.val)] [.die PMC_CNT_HI (d.val)]) ∧
    (∀ (d : CourseDie), Keeps (.spareBankCopyDone d) [.dram] [.die RSV_EVT (courseIdx d), .die MEM_EVT (courseIdx d), .die RSV_ELOG_W (courseIdx d), .die MEM_ELOG_W (courseIdx d), .die MEM_STAT (courseIdx d), .die RSV_STAT (courseIdx d)] []) ∧
    (∀ (d : LcDie) (bank : Fin 16), Keeps (.retiredQueuesEmpty d bank) [.dram] [.one MEM_EVT (onDie d.val)] []) ∧
    (∀ (d : Die) (v : Word), Keeps (.rsvEnable d v) [.dram] [.one RSV_CAPACITY (onDie d.val), .one RSV_CTL (onDie d.val), .one RSV_EVT (onDie d.val), .one RSV_STAT (onDie d.val), .one RSV_FREE (onDie d.val)] []) ∧
    (∀ (d : Die) (v : Word), Keeps (.rsvDisable d v) [.dram] [.one RSV_CTL (onDie d.val), .one RSV_FREE (onDie d.val), .one RSV_STAT (onDie d.val)] []) ∧
    (∀ (d : Die), Keeps (.rsvInitDone d) [.mem, .dram] [.one RSV_FREE (onDie d.val), .one RSV_STAT (onDie d.val)] []) ∧
    (∀ (d : Die) (b : Fin 2), Keeps (.elogPop d b) [.dram] [.die MEM_ELOG_W (d.val), .die RSV_ELOG_W (d.val)] []) ∧
    (∀ (d : Die) (b : Fin 2) (v : Word), ∀ cmd ∈ ([.spmapReadSpare d b v, .spmapReadRetirement d b v] : List Instr), Keeps cmd [] [.one MEM_SPMAP_CTL (onDie d.val), .one MEM_SPMAP_DATA (onDie d.val), .one RSV_SPMAP_CTL (onDie d.val), .one RSV_SPMAP_DATA (onDie d.val)] []) ∧
    (∀ (d : Die) (b : Fin 2) (v : Word), Keeps (.spmapWriteSpare d b v) [.dram, .tm] [.one MEM_SPMAP_CTL (onDie d.val), .one MEM_SPMAP_DATA (onDie d.val), .one RSV_SPMAP_CTL (onDie d.val), .one RSV_SPMAP_DATA (onDie d.val), .one MEM_STAT (onDie d.val), .one RSV_STAT (onDie d.val), .die TM_CLS_OCC (d.val), .die TM_CLS_HWM (d.val), .die TM_PORT_OCC (d.val), .die TM_POOL_OCC (d.val)] []) ∧
    (∀ (d : Die) (b : Fin 2) (v : Word), Keeps (.spmapWriteRetirement d b v) [.dram] [.one MEM_SPMAP_CTL (onDie d.val), .one MEM_SPMAP_DATA (onDie d.val), .one RSV_SPMAP_CTL (onDie d.val), .one RSV_SPMAP_DATA (onDie d.val), .die MEM_QUEUE_RETIRED (d.val)] []) ∧
    (∀ (d : LcDie) (v : Word), Keeps (.spmapLock d v) [] [.one MEM_SPMAP_CTL (onDie d.val)] []) ∧
    (∀ (d : Die) (at_ : ScrubAt) (e : Ecc), Keeps (.scrubRead d at_ e) [.dram, .pipe, .tm, .bond] [.one BOND_GROUP_STAT d0, .die RSV_EVT (d.val), .die MEM_EVT (d.val), .die RSV_ELOG_W (d.val), .die MEM_ELOG_W (d.val), .die LKP_LPM_USE (d.val), .die LKP_LPM_USE6 (d.val), .die MEM_CNT_UE_DROP (d.val), .die TM_POOL_OCC (d.val), .die TM_CLS_OCC (d.val), .die TM_PORT_OCC (d.val), .die TM_CNT_CLAMP (d.val), .die PMC_CNT_LO (d.val), .die PMC_OVF (d.val), .all RSV_FREE, .all RSV_LOST_CELLS] [.die PMC_CNT_HI (d.val)])

/-- From every state each of these commands completes, and it changes nothing but the areas of State and the registers listed for it: every byte of memory (unless memory is listed), every other area, every other register's stored word and every other value in effect is as before. Here: cores, the interrupt controller, semaphores, the UART and GPIO, DMA control, counters and sensors. Beyond the fetch, a core's operation, branch, system register read, call, return or TLB invalidation changes only that core and the event counters of its die. A bus error on a descriptor, with none started, or of a channel in TRANSMIT or INJECT changes only its channel, its descriptor and the packets it drops, and a sensor reading, but for the first of T0 after a thermal OFF that finds the part hot, only the sensors, the thermal records and the wakes. -/
def Obligations.ControlAndDmaFrames : Prop :=
    (∀ (n : LineDie) (v : Word), Keeps (.l2CfgWrite n v) [.ctl] [.one CTL_L2_CFG (onDie n.val)] []) ∧
    (∀ (lv : Level) (v : Word), Keeps (.coreRun lv v) [.ctl] [.one CTL_CORE_RUN (onDie 1)] []) ∧
    (∀ (n : Fin 2048), Keeps (.irqLevelChange n) [.pwr, .mesh] [.one IRQ_SRC_STAT (d0i n.val), .all DLINK_DROP, .one HW_ABSENT_DROP d0] []) ∧
    (∀ (r : Requester) (core : Fin 12) (x : Fin 2), Keeps (.irqClaim r core x) [.mesh, .ctl] [.one IRQ_RUNPRI (d0i (core.val * 2 + x.val))] []) ∧
    (∀ (core : Fin 12) (x : Fin 2) (v : Word), Keeps (.irqEoi core x v) [.ctl] [.one IRQ_RUNPRI (d0i (core.val * 2 + x.val))] []) ∧
    (∀ (v : Word), Keeps (.sgiSet v) [.pwr] [.one IRQ_SGI d0] []) ∧
    (∀ (core : Fin 12), Keeps (.timerInterrupt core) [.pwr, .ctl] [] []) ∧
    (∀ (core : Fin 12) (k : Fin 32), Keeps (.semaphoreRead core k) [.mesh] [.all CTL_SEM] []) ∧
    (∀ (core : Fin 12) (k : Fin 32) (v : Word), Keeps (.semaphoreWrite core k v) [] [.all CTL_SEM] []) ∧
    (∀ (v : Word), Keeps (.uartTxWrite v) [.ctl] [.one CTL_UART_STAT d0] []) ∧
    (∀ (r : Requester), Keeps (.uartRxRead r) [.mesh, .ctl] [.one CTL_UART_STAT d0] []) ∧
    (∀ (b : Byte) (stop : Bool), Keeps (.uartRxByte b stop) [.ctl] [.one CTL_UART_STAT d0] []) ∧
    (Keeps (.uartTxByte) [.ctl] [.one CTL_UART_STAT d0] []) ∧
    (∀ (v : Word), ∀ cmd ∈ ([.gpioSet v, .gpioClr v] : List Instr), Keeps cmd [] [.one CTL_GPIO_EVT d0, .one CTL_GPIO_IN d0, .one CTL_GPIO_OUT d0] []) ∧
    (∀ (k : Fin 32) (high : Bool), Keeps (.gpioInputEdge k high) [.ctl] [.one CTL_GPIO_EVT d0, .one CTL_GPIO_IN d0] []) ∧
    (∀ (core : Fin 12) (l : Fin 2), Keeps (.interruptEntry core l) [.ctl] [.all PMC_CNT_LO, .all PMC_OVF] [.all PMC_CNT_HI]) ∧
    (∀ (core : Fin 12) (line : BitVec 34), Keeps (.machineCheck core line) [.ctl] [.all PMC_CNT_LO, .all PMC_OVF, .one CTL_ECC_UE (onDie (coreDie core.val))] [.all PMC_CNT_HI]) ∧
    (∀ (core : Fin 12), Keeps (.slhWake core) [.ctl, .pwr] [] []) ∧
    (∀ (d : Die) (ch : Fin 32) (v : Word), Keeps (.dmaStart d ch v) [.dma] [.one DMA_STAT (place d.val ch.val)] [.one DMA_BASE_HI (place d.val ch.val), .one DMA_BASE_LO (place d.val ch.val), .one DMA_CFG (place d.val ch.val), .one DMA_PACE_PER (place d.val ch.val)]) ∧
    (∀ (d : Die) (ch : Fin 32) (v : Word), Keeps (.dmaStop d ch v) [.dma] [.one DMA_STAT (place d.val ch.val)] []) ∧
    (∀ (d : Die) (ch : Fin 32) (v : Word), Keeps (.dmaDisable d ch v) [.dram, .dma] [.one DMA_CNT_OFF (place d.val ch.val), .one DMA_STAT (place d.val ch.val), .all RSV_FREE] []) ∧
    (∀ (d : Die) (ch : Fin 32), Keeps (.dmaDoorbell d ch) [.dma] [.one DMA_STAT (place d.val ch.val)] []) ∧
    (∀ (d : Die) (ch : Fin 32), Keeps (.paceTimerFire d ch) [.dma] [] [.one DMA_PACE_PER (place d.val ch.val)]) ∧
    (∀ (d : Die) (ch : Fin 32), Keeps (.paceTrigger d ch) [.dma] [.one DMA_EVT (place d.val ch.val), .one DMA_STAT (place d.val ch.val)] []) ∧
    (∀ (d : Die), Keeps (.refModeChange d) [] [.one RSV_STAT (onDie d.val)] []) ∧
    (∀ (lv : Level) (d : Die) (v : Word), Keeps (.pmcArm lv d v) [.pmc] [.one PMC_ARM (onDie d.val), .one PMC_ARM_STAT (onDie d.val)] []) ∧
    (∀ (d : Die), Keeps (.pmcArmedAction d) [.pmc] [.die PMC_CTL (d.val)] []) ∧
    (∀ (r : Requester) (lv : Level) (d : Die) (u : Fin 16) (n : Fin 9), Keeps (.pmcCounterRead r lv d u n) [.mesh] [.one PMC_CNT_HI (place d.val (u.val * 8 + n.val)), .one PMC_CYC_HI (place d.val u.val)] []) ∧
    (∀ (lv : Level) (d : Die) (u : Fin 16) (n : Fin 8) (v : Word), Keeps (.pmcCounterWrite lv d u n v) [.pmc] [.one PMC_CNT_HI (place d.val (u.val * 8 + n.val)), .one PMC_CNT_LO (place d.val (u.val * 8 + n.val))] [.one PMC_CNT_HI (place d.val (u.val * 8 + n.val))]) ∧
    (∀ (d : CourseDie), Keeps (.bwWindowClose d) [.pmc] [.one PMC_BW_STAT (onDie (courseIdx d))] [.one PMC_BW_CFG (onDie (courseIdx d))]) ∧
    (∀ (lv : Level) (d : CourseDie) (v : Word), Keeps (.bwSnap lv d v) [.pmc] [.one PMC_BW_SEL (onDie (courseIdx d)), .one PMC_BW_STAT (onDie (courseIdx d)), .die PMC_BW_W (courseIdx d)] [.one PMC_BW_CFG (onDie (courseIdx d))]) ∧
    (∀ (s : State) (x : CoreIssue) (u : State) (op : IntOp) (rd ra : XReg) (b : CoreSrc) (j : CoreJump) (k : BitVec 12) (z : TlbInv), s.insAt x u →
      ∀ c ∈ ([.coreIntegerOperation x op rd ra b, .coreBranch x j, .mfs x rd k, .supervisorCall x, .monitorCall x, .rfx x, .tlbInvalidate x z] : List Instr), Completes c s (fun t =>
        u.Within t [.ctl] [.die PMC_CNT_LO (coreDie x.core.val), .die PMC_OVF (coreDie x.core.val)] [.die PMC_CNT_HI (coreDie x.core.val)] ∧
        (∀ m, m ≠ x.core.val → t.core m = u.core m) ∧ t.ctl.uart = u.ctl.uart)) ∧
    (∀ (s : State) (d : Die) (ch : Fin 32) (a : Addr) (w l o : Bool) (n : BitVec 24), o = true ∨ (s.dmaCh d.val ch.val).started = false ∨ 2 ≤ s.getEff DMA_CFG_MODE (place d.val ch.val) →
      Completes (.dmaBusError d ch a w l o n) s (fun t => s.Within t [.mem, .dram, .dma] [.one DMA_CNT_RING_DROP (place d.val ch.val), .one DMA_ERR_ADDR (place d.val ch.val), .one DMA_ERR_INFO (place d.val ch.val), .one DMA_EVT (place d.val ch.val), .one DMA_STAT (place d.val ch.val), .one MGT_CNT_RING_DROP d0, .all RSV_FREE, .all RSV_EVT, .all MEM_EVT, .all RSV_ELOG_W, .all MEM_ELOG_W, .all CTL_ECC_CE, .all CTL_ECC_UE, .all PMC_CNT_LO, .all PMC_OVF] [.all PMC_CNT_HI])) ∧
    (∀ (s : State) (d : Die) (k : Fin 8) (x : BitVec 12) (m : Byte), s.hw.tempCheck = false ∨ signed 12 x.toNat < 1000 →
      Completes (.sensorReading d k x m) s (fun t => s.Within t [.hw, .pwr, .dram, .pmc] [.die SENS_EVT (d.val), .die SENS_MARGIN (d.val), .die SENS_STAT (d.val), .die SENS_TEMP (d.val), .die SENS_VOLT (d.val), .one PWR_THERM_STAT d0] []))

/-- From every state each of these commands completes, and it changes nothing but the areas of State and the registers listed for it: every byte of memory (unless memory is listed), every other area, every other register's stored word and every other value in effect is as before. Here: reset requests, rails, PMBus and AVS, fuses, secure boot, the kiln, debug authentication, zeroisation, die power states, channel power saving and thermal limits. A thermal comparison that does not enter OFF (no reading of 155 degrees before it) changes only the thermal and AVS records, and an OFF entry that is refused changes nothing. -/
def Obligations.HeadwaterAndPowerFrames : Prop :=
    (∀ (high : Bool) (lowFor : Nat), Keeps (.resetNChange high lowFor) [.hw] [] []) ∧
    (∀ (lv : Level) (v : Word), ∀ cmd ∈ ([.rstCtlWarm lv v, .rstCtlCold lv v] : List Instr), Keeps cmd [.hw] [] []) ∧
    (Keeps (.railPowerGood) [.hw] [.one CLK_STATUS d0, .one HW_OPMODE d0, .one CLK_SSC_POS d0, .one TIME_STATUS d0] [.one CLK_SSC_CFG d0]) ∧
    (∀ (r : Fin 24) (lost : Bool), Keeps (.railFault r lost) [.hw, .pwr] [.one HW_OPMODE d0, .all PWR_DIE_STAT] []) ∧
    (Keeps (.railFaultRetry) [.hw] [] []) ∧
    (∀ (lv : Level) (v : Word), ∀ cmd ∈ ([.pmbSendByte lv v, .pmbWriteByte lv v, .pmbWriteWord lv v, .pmbReadByte lv v, .pmbReadWord lv v] : List Instr), Keeps cmd [.hw] [.one PWR_PMB_CMD d0] []) ∧
    (∀ (ack : Bool) (pec : Bool) (data : BitVec 16), Keeps (.pmbTransactionDone ack pec data) [.hw] [.one PWR_PMB_CMD d0, .one PWR_PMB_DATA d0] []) ∧
    (∀ (lv : Level) (v : Word) (mode : Byte) (vout : BitVec 16), Keeps (.avsEnable lv v mode vout) [.hw] [.one PWR_AVS_CFG d0, .one PWR_AVS_STAT d0] []) ∧
    (Keeps (.avsAdjust) [.hw] [.one PWR_AVS_STAT d0] []) ∧
    (∀ (lv : Level) (v : Word), ∀ cmd ∈ ([.fuseAdvance lv v, .fuseScrap lv v, .fuseRollback lv v, .fuseRevoke lv v, .fuseRailTable lv v, .fuseBootKey lv v, .fuseDbgKey lv v] : List Instr), Keeps cmd [.hw] [.one HW_FUSE_CMD d0] []) ∧
    (∀ (ok : Bool), Keeps (.fuseBurnDone ok) [.hw] [.one HW_FUSE_CMD d0, .one HW_LC_STAT d0, .one PWR_SEQ_STAT d0, .all PWR_RAIL_CFG] []) ∧
    (Keeps (.tapFuseProg) [.hw] [.one HW_FUSE_CMD d0] []) ∧
    (∀ (image : List Byte), Keeps (.bootSlotCheck image) [.mem, .hw] [.one CTL_L2_CFG d0, .one HW_BOOT_STAT d0] []) ∧
    (Keeps (.bootRelease) [.hw, .ctl] [.one CTL_RESET_VEC d0, .one HW_BOOT_STAT d0] []) ∧
    (∀ (lv : Level) (v : Word), ∀ cmd ∈ ([.kilnGenerate lv v, .kilnWrap lv v, .kilnUnwrap lv v, .kilnDerive lv v, .kilnClear lv v] : List Instr), Keeps cmd [.hw] [.one KILN_CMD d0, .one KILN_STAT d0] []) ∧
    (Keeps (.kilnCommandDone) [.hw] [.all KILN_BLOB, .all KILN_KEYIN, .one KILN_STAT d0] []) ∧
    (Keeps (.kilnParityError) [.hw] [.one KILN_STAT d0, .one KILN_DIV d0, .all KILN_BLOB, .all KILN_KEYIN] []) ∧
    (∀ (level : Fin 4), Keeps (.dbgReq level) [.hw] [] []) ∧
    (∀ (resp : List Byte), Keeps (.dbgResp resp) [.hw] [] []) ∧
    (Keeps (.dbgAuthDone) [.hw] [] []) ∧
    (∀ (ok : Bool), Keeps (.zeroisationStep ok) [.mem, .hw, .ciph, .ctl] [.one HW_LC_STAT d0, .one HW_OPMODE d0, .one HW_SEC_EVT d0, .one KILN_STAT d0, .all KILN_BLOB, .all KILN_DIV, .all KILN_KEYIN, .all KSLOT_STAGE, .all KSLOT_STAT, .all CIPH_LA_CTX_STAT] []) ∧
    (∀ (d : Die) (h : BitVec 24) (hsrc : Fin 16) (idleFor : Nat) (wake : Option (Fin 16 × BitVec 8)), Keeps (.powerStateEntry d h hsrc idleFor wake) [.pwr, .pmc] [.one HW_WAKE_SOURCE (d0i d.val), .one PWR_CNT_ABORT (d0i d.val), .one PWR_DIE_STAT (d0i d.val), .one PWR_LAST_EVENT (d0i d.val), .one CLK_STATUS d0] []) ∧
    (∀ (d : Die), Keeps (.powerEntryComplete d) [.pwr, .lanes] [.one PWR_CNT_DEEP (d0i d.val), .one PWR_CNT_SLEEP (d0i d.val), .one PWR_DIE_STAT (d0i d.val), .one PWR_LAST_EVENT (d0i d.val), .all DLINK_STATUS, .one CLK_STATUS d0] [.all PWR_PAT_DATA, .all PWR_PAT_MASK]) ∧
    (∀ (d : Die) (h : BitVec 24) (hsrc : Fin 16), Keeps (.powerStateExit d h hsrc) [.pwr] [.one HW_WAKE_SOURCE (d0i d.val), .one PWR_DIE_STAT (d0i d.val), .one PWR_LAST_EVENT (d0i d.val), .one CLK_STATUS d0] []) ∧
    (∀ (lv : Level) (d : Die) (v : Word), Keeps (.dieWakeWrite lv d v) [.pwr] [] []) ∧
    (∀ (m : MacPort) (ev : WakeEvent), Keeps (.portWakeEvent m ev) [.pwr] [] []) ∧
    (∀ (m : MacPort), Keeps (.wakeStoreRelease m) [.pwr, .dram, .pipe, .macs, .dma] [.all DMA_CNT_IN_FULL, .all DMA_CNT_OFF, .all RSV_CNT_NOBUF, .all RSV_FREE, .all DLINK_DROP, .one HW_ABSENT_DROP d0, .all PMC_CNT_LO, .all PMC_OVF] [.all PMC_CNT_HI]) ∧
    (∀ (lv : Level) (d : Die) (v : Word), Keeps (.patCommit lv d v) [.pwr] [] []) ∧
    (∀ (lv : Level) (c : Chan) (v : Word), ∀ cmd ∈ ([.psCommit lv c v, .psEnter lv c v] : List Instr), Keeps cmd [.pwr] [] []) ∧
    (∀ (lv : Level) (c : Chan) (v : Word), Keeps (.psLeave lv c v) [.pwr, .pon] [.one PFR_SFC_LO (atChan c.val), .one PFR_SYNC_STAT (atChan c.val), .one PWR_PS_STAT (d0i c.val)] []) ∧
    (∀ (c : Chan), Keeps (.psPhaseChange c) [.pwr, .pon] [.one PFR_SFC_LO (atChan c.val), .one PFR_SYNC_STAT (atChan c.val), .one PWR_PS_STAT (d0i c.val), .one BOND_EVT d0, .one BOND_SKEW_STAT d0, .one CLK_STATUS d0, .one LANE_PRX_STAT (atChan c.val), .one TIME_STATUS d0] []) ∧
    (∀ (c : Chan), Keeps (.psReceiverPowerUp c) [.pon] [.one PFR_SFC_LO (atChan c.val), .one PFR_SYNC_STAT (atChan c.val), .one PWR_PS_STAT (d0i c.val)] []) ∧
    (∀ (c : Chan), Keeps (.psEnd c) [.pwr, .pon] [.one PFR_SFC_LO (atChan c.val), .one PFR_SYNC_STAT (atChan c.val), .one PWR_PS_STAT (d0i c.val)] []) ∧
    (∀ (d : Die) (v : Word), Keeps (.retLostClear d v) [] [.one PWR_RET_LOST (d0i d.val)] []) ∧
    (Keeps (.wakeNAssert) [.hw, .pwr] [] []) ∧
    (∀ s : State, s.hw.hot155 = 0 → Completes .thermalCompare s (fun t => s.Within t [.hw, .pwr] [.one PWR_AVS_STAT d0, .one PWR_THERM_STAT d0] [])) ∧
    (∀ (lv : Level) (v : Word) (s : State), lv ≠ .monitor ∨ s.hw.off = true ∨ bits v 31 31 = 0 ∨ bits v 15 0 ≠ 0x5AF0 → exec (.offEntry lv v) s = .next s)

/-- On a part with power whose UART is enabled: a write to UART_DATA appends a byte to the transmit FIFO, or while it holds 64 bytes is discarded and sets TX_DROP; a received byte is appended to the receive FIFO, or while it holds 64 bytes is discarded and sets OVF; one whose stop bit is low is discarded and sets FERR; a read of UART_DATA removes the oldest received byte and returns it with VALID = 1, or returns 0 with VALID = 0 when the FIFO is empty; and neither FIFO ever grows beyond 64 bytes. -/
def Obligations.UartFifos : Prop :=
    (∀ (s : State) (v : Word), (s.hw.alive = true) → (s.is CTL_UART_CFG_EN d0 = true) → (s.ctl.uart.tx.length < 64) →
      Completes (.uartTxWrite v) s (fun t => t.ctl.uart = { s.ctl.uart with tx := s.ctl.uart.tx ++ [v.setWidth 8] } ∧ t.is CTL_UART_STAT_TX_DROP d0 = s.is CTL_UART_STAT_TX_DROP d0)) ∧
    (∀ (s : State) (v : Word), (s.hw.alive = true) → (s.is CTL_UART_CFG_EN d0 = true) → (64 ≤ s.ctl.uart.tx.length) →
      Completes (.uartTxWrite v) s (fun t => t.ctl.uart = s.ctl.uart ∧ t.is CTL_UART_STAT_TX_DROP d0 = true)) ∧
    (∀ (s : State) (b : Byte), (s.hw.alive = true) → (s.is CTL_UART_CFG_EN d0 = true) → (s.ctl.uart.rx.length < 64) →
      Completes (.uartRxByte b true) s (fun t => t.ctl.uart = { s.ctl.uart with rx := s.ctl.uart.rx ++ [b], rxDiv := t.ctl.uart.rxDiv } ∧ t.is CTL_UART_STAT_OVF d0 = s.is CTL_UART_STAT_OVF d0)) ∧
    (∀ (s : State) (b : Byte), (s.hw.alive = true) → (s.is CTL_UART_CFG_EN d0 = true) → (64 ≤ s.ctl.uart.rx.length) →
      Completes (.uartRxByte b true) s (fun t => t.ctl.uart = { s.ctl.uart with rxDiv := t.ctl.uart.rxDiv } ∧ t.is CTL_UART_STAT_OVF d0 = true)) ∧
    (∀ (s : State) (b : Byte), (s.hw.alive = true) → (s.is CTL_UART_CFG_EN d0 = true) →
      Completes (.uartRxByte b false) s (fun t => t.ctl.uart = { s.ctl.uart with rxDiv := t.ctl.uart.rxDiv } ∧ t.is CTL_UART_STAT_FERR d0 = true)) ∧
    (∀ (s : State) (r : Requester) (b : Byte) (l : List Byte), (s.hw.alive = true) → (s.ctl.uart.rx = b :: l) →
      Completes (.uartRxRead r) s (fun t => t.ctl.uart = { s.ctl.uart with rx := l } ∧ t.answerOf (reqCode r) = { data := BitVec.ofNat 64 (256 + b.toNat) })) ∧
    (∀ (s : State) (r : Requester), (s.hw.alive = true) → (s.ctl.uart.rx = []) →
      Completes (.uartRxRead r) s (fun t => t.ctl.uart = s.ctl.uart ∧ t.answerOf (reqCode r) = { data := 0 })) ∧
    (∀ (s : State) (v : Word) (b : Byte) (p : Bool) (r : Requester), (s.ctl.uart.tx.length ≤ 64) → (s.ctl.uart.rx.length ≤ 64) →
      ∀ cmd ∈ ([.uartTxWrite v, .uartRxByte b p, .uartTxByte, .uartRxRead r] : List Instr), Completes cmd s (fun t => t.ctl.uart.tx.length ≤ 64 ∧ t.ctl.uart.rx.length ≤ 64))

/-- A trigger that arrives at a channel adds 1 to STAT.PACE_PEND; at 255 the count stays, the trigger is lost and EVT.PACE_OVF is set; where a descriptor of the channel waits for a trigger, it starts on that edge, a channel in PACE_WAIT runs, its decrement takes the increment back and the count is as before. -/
def Obligations.PaceTriggersCount : Prop :=
    (∀ (s : State) (d : Die) (ch : Fin 32), (s.unitRuns d.val (dmaBank d.val) = true) → ((s.dmaCh d.val ch.val).due ≠ 0) → (s.get DMA_STAT_PACE_PEND (place d.val ch.val) < 255) → ((s.dmaCh d.val ch.val).waits = false) →
      Completes (.paceTrigger d ch) s (fun t => t.get DMA_STAT_PACE_PEND (place d.val ch.val) = s.get DMA_STAT_PACE_PEND (place d.val ch.val) + 1 ∧ t.is DMA_EVT_PACE_OVF (place d.val ch.val) = s.is DMA_EVT_PACE_OVF (place d.val ch.val) ∧ (t.dmaCh d.val ch.val).due = (s.dmaCh d.val ch.val).due - 1)) ∧
    (∀ (s : State) (d : Die) (ch : Fin 32), (s.unitRuns d.val (dmaBank d.val) = true) → ((s.dmaCh d.val ch.val).due ≠ 0) → (s.get DMA_STAT_PACE_PEND (place d.val ch.val) = 255) →
      Completes (.paceTrigger d ch) s (fun t => t.get DMA_STAT_PACE_PEND (place d.val ch.val) = 255 ∧ t.is DMA_EVT_PACE_OVF (place d.val ch.val) = true ∧ t.dmaState d.val ch.val = s.dmaState d.val ch.val)) ∧
    (∀ (s : State) (d : Die) (ch : Fin 32), (s.unitRuns d.val (dmaBank d.val) = true) → ((s.dmaCh d.val ch.val).due ≠ 0) → (s.get DMA_STAT_PACE_PEND (place d.val ch.val) < 255) → ((s.dmaCh d.val ch.val).waits = true) →
      Completes (.paceTrigger d ch) s (fun t => t.get DMA_STAT_PACE_PEND (place d.val ch.val) = s.get DMA_STAT_PACE_PEND (place d.val ch.val) ∧ t.dmaState d.val ch.val = (if s.dmaState d.val ch.val = dmaPaceWait then dmaRun else s.dmaState d.val ch.val) ∧ (t.dmaCh d.val ch.val).started = true ∧ (t.dmaCh d.val ch.val).waits = false))

/-- A store of a value of n bytes at a puts bits [8j + 7:8j] of it in byte a + j for every j below n and leaves every other byte; a load of n bytes at a gives the value of n bytes whose bits [8j + 7:8j] are byte a + j. Every requester's store and load of the model is one of these. -/
def Obligations.MemoryIsLittleEndian : Prop :=
    (∀ (s : State) (a n v j : Nat), j < n → (s.store a n v).byte (a + j) = BitVec.ofNat 8 (v / 2 ^ (8 * j))) ∧
    (∀ (s : State) (a n v b : Nat), b < a ∨ a + n ≤ b → (s.store a n v).byte b = s.byte b) ∧
    (∀ (s : State) (a n : Nat), s.load a n < 2 ^ (8 * n) ∧ ∀ j < n, BitVec.ofNat 8 (s.load a n / 2 ^ (8 * j)) = s.byte (a + j))

/-- A reservoir or packet SRAM write changes only the 2^k bytes at its address; an STM only the four bytes at the address of its registers; a posted write only the bytes it carries, and none where it carries an interrupt level; the end of an initialisation only the packet buffer; a boot slot check only the load areas of the image's segments; a look-aside descriptor that is taken only its destination and the 64 bytes of the descriptor. Every other byte reads as before. -/
def Obligations.MemoryByteFrames : Prop :=
    (∀ (s : State) (d : Die) (r : Requester) (off : BitVec 36) (k : Fin 4) (v : BitVec 64),
      Completes (.reservoirWrite d r off k v) s (fun t => ∀ b, b < d.val * 2 ^ 36 + off.toNat ∨ d.val * 2 ^ 36 + off.toNat + 2 ^ k.val ≤ b → t.byte b = s.byte b)) ∧
    (∀ (s : State) (r : Requester) (off : BitVec 36) (k : Fin 4) (v : BitVec 64),
      Completes (.packetSramWrite r off k v) s (fun t => ∀ b, b < 2 * 2 ^ 36 + off.toNat ∨ 2 * 2 ^ 36 + off.toNat + 2 ^ k.val ≤ b → t.byte b = s.byte b)) ∧
    (∀ (s : State) (x : Issue) (u : Thread) (m : Nat), (s.thread x.die.val x.thread.val = some u) → (m = memAddr u (s.imemAt x.die.val (x.thread.val / 8) u.bank u.pc)) →
      Completes (.stm x) s (fun t => ∀ b, b < m ∨ m + 4 ≤ b → t.byte b = s.byte b)) ∧
    (∀ (s : State) (x : Issue), (s.thread x.die.val x.thread.val = none) →
      Completes (.stm x) s (fun t => ∀ b, t.byte b = s.byte b)) ∧
    (∀ (s : State) (d : Die) (p : Addr) (l : List Byte),
      Completes (.postedWrite d (.bytes p l)) s (fun t => ∀ b, b < p.toNat ∨ p.toNat + l.length ≤ b → t.byte b = s.byte b)) ∧
    (∀ (s : State) (d : Die) (i : Fin 2048) (h : Bool),
      Completes (.postedWrite d (.level i h)) s (fun t => ∀ b, t.byte b = s.byte b)) ∧
    (∀ (s : State) (d : Die),
      Completes (.rsvInitDone d) s (fun t => ∀ b, b < d.val * 2 ^ 36 ∨ d.val * 2 ^ 36 + bufferSize d.val ≤ b → t.byte b = s.byte b)) ∧
    (∀ (s : State) (l : List Byte),
      Completes (.bootSlotCheck l) s (fun t => ∀ b, (∀ x ∈ imageSegs l, b < x.dst ∨ x.dst + x.len ≤ b) → t.byte b = s.byte b)) ∧
    (∀ (s : State) (n : LineDie) (q : Fin 2) (op : Nat) (x : LaDesc) (l : List Byte), (s.laJob n.val q.val op x l) →
      ∀ cmd ∈ ([.laGcmEncrypt n q .clean, .laGcmDecrypt n q .clean, .laCtrEncrypt n q .clean, .laCtrDecrypt n q .clean, .laCmacGenerate n q .clean, .laCmacVerify n q .clean, .laContextSaveClear n q .clean, .laContextSaveWrapped n q .clean, .laContextRestoreClear n q .clean, .laContextRestoreWrapped n q .clean] : List Instr), Completes cmd s (fun t => ∀ b, (b < x.dst ∨ x.dst + x.outLen ≤ b) → (b < s.laDesc n.val q.val ∨ s.laDesc n.val q.val + 64 ≤ b) → t.byte b = s.byte b))

/-- For every command c and every state s whose queue is c and then the rest, step s is exec c on s with the rest as its queue. -/
def Obligations.StepRunsTheFrontCommand : Prop :=
    ∀ (s : State) (c : Instr) (rest : List Instr), s.pending = c :: rest → step s = exec c { s with pending := rest }

/-- Every command answers a next state from every state, with the family member and the queue as they were; so does every step. With no command waiting a step lets one nominal mc period pass (the MODEL's choice, log 3): a part without power stays as it is; with power the phase advances modulo 50 and ac counts at its end; unless the part is stopped, mc counts by the share of a nominal period that THROTTLE leaves it (frac and slow, in 50,000ths), and network time stands still where it does not run. -/
def Obligations.NothingStops : Prop :=
    (∀ (c : Instr) (s : State), Completes c s (fun t => t.part = s.part ∧ t.pending = s.pending)) ∧
    (∀ s : State, Goes (step s)) ∧
    (∀ s : State, s.pending = [] → s.hw.alive = false → step s = .next s) ∧
    (∀ s : State, s.pending = [] → s.hw.alive = true → ∃ t, step s = .next t ∧ t.pending = [] ∧
      t.clk.phase = (s.clk.phase + 1) % 50 ∧ t.clk.ac = (if s.clk.phase = 49 then s.clk.ac + 1 else s.clk.ac) ∧
      t.clk.mc = (if s.running ∧ 50000 ≤ s.clk.frac + 50000 - s.clk.slow then s.clk.mc + 1 else s.clk.mc) ∧
      t.clk.frac = (if s.running then (if s.clk.frac + 50000 - s.clk.slow < 50000 then s.clk.frac + 50000 - s.clk.slow
        else s.clk.frac - s.clk.slow) else s.clk.frac) ∧
      (s.time.run = false → t.time.sec = s.time.sec ∧ t.time.ns = s.time.ns ∧ t.time.frac = s.time.frac) ∧
      (s.running = false → t.time = s.time ∧ t.ctl = s.ctl ∧ t.mem = s.mem))

/-- In State.reset every field of every register holds the value of its Reset column, at every place of the register (where the manual gives no Reset value, 0, the MODEL's choice of log 10; the eleven registers excepted hold what the part, link, pad group, alarm or die makes of it); DIE_MAP shows the dies of the part; shadow copies and values in effect agree; the queue is empty; no tile thread carries a packet; the rails are not up, so that the stoppable domains do not run; the cores do not run; memory reads 0 (the MODEL's choice, log 11). -/
def Obligations.ResetValues : Prop :=
    (∀ reg, reg ∉ [HW_ID, HW_DIE_MAP, HW_UID_HI, HW_UID_LO, HW_PAD_CFG, DLINK_STATUS, SENS_ALM, RSV_CAPACITY, RSV_FREE, RSV_STAT, MEM_STAT] →
      ∀ f ∈ (regDesc reg).fields, ∀ a, bits (State.reset.rd reg a) f.hi f.lo = f.reset) ∧
    (∀ reg a, State.reset.rdEff reg a = State.reset.rd reg a) ∧
    State.reset.get HW_DIE_MAP_PRESENT d0 = presentMask State.reset.part ∧ State.reset.pending = [] ∧
    (∀ d k, State.reset.thread d k = none) ∧ State.reset.hw.railsUp = false ∧ State.reset.hw.alive = true ∧
    (∀ n, (State.reset.core n).run = false) ∧ (∀ a, State.reset.byte a = 0) ∧ State.reset.running = false

/-- While a freeze has stopped the part, its rails are not up, or it has no power, every command but those of the always-on ac domain, the TAP and the power supply leaves the whole state as it is; without power every command but a cold reset and the loss of power does. That an event of a stopped domain leaves the state unchanged is the MODEL's reading (log 6). -/
def Obligations.FreezeStopsEveryStoppableDomain : Prop :=
    (∀ (c : Instr) (s : State), s.running = false → isAlways c = false → exec c s = .next s) ∧
    (∀ (c : Instr) (s : State), s.hw.alive = false → c ≠ .coldReset → c ≠ .alwaysOnPowerLoss → exec c s = .next s)

/-- From every state, over every command, reset, loss of power and idle step: a lifecycle bit that reads 1 goes on reading 1, a rail table that is burnt keeps its words, the rollback count never falls, a revoked key stays revoked, and every burnt bit of a key hash stays burnt (that a hash burnt over another ORs the two is the MODEL's reading, log 46). -/
def Obligations.FusesOnlyGrow : Prop :=
    ∀ s t : State, step s = .next t → s.hw.fuses.Grows t.hw.fuses

/-- From every state, not only from those a run reaches: if memory is in canonical form (addresses strictly rising, no byte listed that reads as an unlisted one) and the fuse array is whole (three lifecycle bits of at most three fuses, a rail table of 24 words, key hashes of 12 words), then so they are after a step, whatever the command. The canonical form is the MODEL's representation. -/
def Obligations.EveryStepKeepsTheInvariant : Prop :=
    ∀ s t : State, s.Inv → step s = .next t → t.Inv

/-- In State.reset memory is in canonical form and the fuse array is whole. -/
def Obligations.ResetMeetsTheInvariant : Prop :=
    State.reset.Inv
end

