-- ==== Sys2Proof/Laws/State.lean ====
section
/-!
SUPPORT. What each shared update leaves alone, one lemma for each field of the state, so that no proof unfolds a record
update.
-/
namespace Sys2Proof.Machine

@[simp] theorem State.wr_part (s : State) (reg at_ : Nat) (w : Word) : (s.wr reg at_ w).part = s.part := by unfold State.wr; rfl
@[simp] theorem State.wr_pending (s : State) (reg at_ : Nat) (w : Word) : (s.wr reg at_ w).pending = s.pending := by unfold State.wr; rfl
@[simp] theorem State.wr_fresh (s : State) (reg at_ : Nat) (w : Word) : (s.wr reg at_ w).fresh = s.fresh := by unfold State.wr; rfl
@[simp] theorem State.wr_eff (s : State) (reg at_ : Nat) (w : Word) : (s.wr reg at_ w).eff = s.eff := by unfold State.wr; rfl
@[simp] theorem State.wr_mem (s : State) (reg at_ : Nat) (w : Word) : (s.wr reg at_ w).mem = s.mem := by unfold State.wr; rfl
@[simp] theorem State.wr_mesh (s : State) (reg at_ : Nat) (w : Word) : (s.wr reg at_ w).mesh = s.mesh := by unfold State.wr; rfl
@[simp] theorem State.wr_clk (s : State) (reg at_ : Nat) (w : Word) : (s.wr reg at_ w).clk = s.clk := by unfold State.wr; rfl
@[simp] theorem State.wr_time (s : State) (reg at_ : Nat) (w : Word) : (s.wr reg at_ w).time = s.time := by unfold State.wr; rfl
@[simp] theorem State.wr_frz (s : State) (reg at_ : Nat) (w : Word) : (s.wr reg at_ w).frz = s.frz := by unfold State.wr; rfl
@[simp] theorem State.wr_lanes (s : State) (reg at_ : Nat) (w : Word) : (s.wr reg at_ w).lanes = s.lanes := by unfold State.wr; rfl
@[simp] theorem State.wr_hw (s : State) (reg at_ : Nat) (w : Word) : (s.wr reg at_ w).hw = s.hw := by unfold State.wr; rfl
@[simp] theorem State.wr_pwr (s : State) (reg at_ : Nat) (w : Word) : (s.wr reg at_ w).pwr = s.pwr := by unfold State.wr; rfl
@[simp] theorem State.wr_pon (s : State) (reg at_ : Nat) (w : Word) : (s.wr reg at_ w).pon = s.pon := by unfold State.wr; rfl
@[simp] theorem State.wr_dram (s : State) (reg at_ : Nat) (w : Word) : (s.wr reg at_ w).dram = s.dram := by unfold State.wr; rfl
@[simp] theorem State.wr_pipe (s : State) (reg at_ : Nat) (w : Word) : (s.wr reg at_ w).pipe = s.pipe := by unfold State.wr; rfl
@[simp] theorem State.wr_bond (s : State) (reg at_ : Nat) (w : Word) : (s.wr reg at_ w).bond = s.bond := by unfold State.wr; rfl
@[simp] theorem State.wr_tm (s : State) (reg at_ : Nat) (w : Word) : (s.wr reg at_ w).tm = s.tm := by unfold State.wr; rfl
@[simp] theorem State.wr_macs (s : State) (reg at_ : Nat) (w : Word) : (s.wr reg at_ w).macs = s.macs := by unfold State.wr; rfl
@[simp] theorem State.wr_ciph (s : State) (reg at_ : Nat) (w : Word) : (s.wr reg at_ w).ciph = s.ciph := by unfold State.wr; rfl
@[simp] theorem State.wr_ctl (s : State) (reg at_ : Nat) (w : Word) : (s.wr reg at_ w).ctl = s.ctl := by unfold State.wr; rfl
@[simp] theorem State.wr_dma (s : State) (reg at_ : Nat) (w : Word) : (s.wr reg at_ w).dma = s.dma := by unfold State.wr; rfl
@[simp] theorem State.wr_pmc (s : State) (reg at_ : Nat) (w : Word) : (s.wr reg at_ w).pmc = s.pmc := by unfold State.wr; rfl

@[simp] theorem State.wrEff_part (s : State) (reg at_ : Nat) (w : Word) : (s.wrEff reg at_ w).part = s.part := by unfold State.wrEff; rfl
@[simp] theorem State.wrEff_pending (s : State) (reg at_ : Nat) (w : Word) : (s.wrEff reg at_ w).pending = s.pending := by unfold State.wrEff; rfl
@[simp] theorem State.wrEff_fresh (s : State) (reg at_ : Nat) (w : Word) : (s.wrEff reg at_ w).fresh = s.fresh := by unfold State.wrEff; rfl
@[simp] theorem State.wrEff_regs (s : State) (reg at_ : Nat) (w : Word) : (s.wrEff reg at_ w).regs = s.regs := by unfold State.wrEff; rfl
@[simp] theorem State.wrEff_mem (s : State) (reg at_ : Nat) (w : Word) : (s.wrEff reg at_ w).mem = s.mem := by unfold State.wrEff; rfl
@[simp] theorem State.wrEff_mesh (s : State) (reg at_ : Nat) (w : Word) : (s.wrEff reg at_ w).mesh = s.mesh := by unfold State.wrEff; rfl
@[simp] theorem State.wrEff_clk (s : State) (reg at_ : Nat) (w : Word) : (s.wrEff reg at_ w).clk = s.clk := by unfold State.wrEff; rfl
@[simp] theorem State.wrEff_time (s : State) (reg at_ : Nat) (w : Word) : (s.wrEff reg at_ w).time = s.time := by unfold State.wrEff; rfl
@[simp] theorem State.wrEff_frz (s : State) (reg at_ : Nat) (w : Word) : (s.wrEff reg at_ w).frz = s.frz := by unfold State.wrEff; rfl
@[simp] theorem State.wrEff_lanes (s : State) (reg at_ : Nat) (w : Word) : (s.wrEff reg at_ w).lanes = s.lanes := by unfold State.wrEff; rfl
@[simp] theorem State.wrEff_hw (s : State) (reg at_ : Nat) (w : Word) : (s.wrEff reg at_ w).hw = s.hw := by unfold State.wrEff; rfl
@[simp] theorem State.wrEff_pwr (s : State) (reg at_ : Nat) (w : Word) : (s.wrEff reg at_ w).pwr = s.pwr := by unfold State.wrEff; rfl
@[simp] theorem State.wrEff_pon (s : State) (reg at_ : Nat) (w : Word) : (s.wrEff reg at_ w).pon = s.pon := by unfold State.wrEff; rfl
@[simp] theorem State.wrEff_dram (s : State) (reg at_ : Nat) (w : Word) : (s.wrEff reg at_ w).dram = s.dram := by unfold State.wrEff; rfl
@[simp] theorem State.wrEff_pipe (s : State) (reg at_ : Nat) (w : Word) : (s.wrEff reg at_ w).pipe = s.pipe := by unfold State.wrEff; rfl
@[simp] theorem State.wrEff_bond (s : State) (reg at_ : Nat) (w : Word) : (s.wrEff reg at_ w).bond = s.bond := by unfold State.wrEff; rfl
@[simp] theorem State.wrEff_tm (s : State) (reg at_ : Nat) (w : Word) : (s.wrEff reg at_ w).tm = s.tm := by unfold State.wrEff; rfl
@[simp] theorem State.wrEff_macs (s : State) (reg at_ : Nat) (w : Word) : (s.wrEff reg at_ w).macs = s.macs := by unfold State.wrEff; rfl
@[simp] theorem State.wrEff_ciph (s : State) (reg at_ : Nat) (w : Word) : (s.wrEff reg at_ w).ciph = s.ciph := by unfold State.wrEff; rfl
@[simp] theorem State.wrEff_ctl (s : State) (reg at_ : Nat) (w : Word) : (s.wrEff reg at_ w).ctl = s.ctl := by unfold State.wrEff; rfl
@[simp] theorem State.wrEff_dma (s : State) (reg at_ : Nat) (w : Word) : (s.wrEff reg at_ w).dma = s.dma := by unfold State.wrEff; rfl
@[simp] theorem State.wrEff_pmc (s : State) (reg at_ : Nat) (w : Word) : (s.wrEff reg at_ w).pmc = s.pmc := by unfold State.wrEff; rfl

@[simp] theorem State.put_part (s : State) (f : Fld) (at_ v : Nat) : (s.put f at_ v).part = s.part := by unfold State.put State.wr; rfl
@[simp] theorem State.put_pending (s : State) (f : Fld) (at_ v : Nat) : (s.put f at_ v).pending = s.pending := by unfold State.put State.wr; rfl
@[simp] theorem State.put_fresh (s : State) (f : Fld) (at_ v : Nat) : (s.put f at_ v).fresh = s.fresh := by unfold State.put State.wr; rfl
@[simp] theorem State.put_eff (s : State) (f : Fld) (at_ v : Nat) : (s.put f at_ v).eff = s.eff := by unfold State.put State.wr; rfl
@[simp] theorem State.put_mem (s : State) (f : Fld) (at_ v : Nat) : (s.put f at_ v).mem = s.mem := by unfold State.put State.wr; rfl
@[simp] theorem State.put_mesh (s : State) (f : Fld) (at_ v : Nat) : (s.put f at_ v).mesh = s.mesh := by unfold State.put State.wr; rfl
@[simp] theorem State.put_clk (s : State) (f : Fld) (at_ v : Nat) : (s.put f at_ v).clk = s.clk := by unfold State.put State.wr; rfl
@[simp] theorem State.put_time (s : State) (f : Fld) (at_ v : Nat) : (s.put f at_ v).time = s.time := by unfold State.put State.wr; rfl
@[simp] theorem State.put_frz (s : State) (f : Fld) (at_ v : Nat) : (s.put f at_ v).frz = s.frz := by unfold State.put State.wr; rfl
@[simp] theorem State.put_lanes (s : State) (f : Fld) (at_ v : Nat) : (s.put f at_ v).lanes = s.lanes := by unfold State.put State.wr; rfl
@[simp] theorem State.put_hw (s : State) (f : Fld) (at_ v : Nat) : (s.put f at_ v).hw = s.hw := by unfold State.put State.wr; rfl
@[simp] theorem State.put_pwr (s : State) (f : Fld) (at_ v : Nat) : (s.put f at_ v).pwr = s.pwr := by unfold State.put State.wr; rfl
@[simp] theorem State.put_pon (s : State) (f : Fld) (at_ v : Nat) : (s.put f at_ v).pon = s.pon := by unfold State.put State.wr; rfl
@[simp] theorem State.put_dram (s : State) (f : Fld) (at_ v : Nat) : (s.put f at_ v).dram = s.dram := by unfold State.put State.wr; rfl
@[simp] theorem State.put_pipe (s : State) (f : Fld) (at_ v : Nat) : (s.put f at_ v).pipe = s.pipe := by unfold State.put State.wr; rfl
@[simp] theorem State.put_bond (s : State) (f : Fld) (at_ v : Nat) : (s.put f at_ v).bond = s.bond := by unfold State.put State.wr; rfl
@[simp] theorem State.put_tm (s : State) (f : Fld) (at_ v : Nat) : (s.put f at_ v).tm = s.tm := by unfold State.put State.wr; rfl
@[simp] theorem State.put_macs (s : State) (f : Fld) (at_ v : Nat) : (s.put f at_ v).macs = s.macs := by unfold State.put State.wr; rfl
@[simp] theorem State.put_ciph (s : State) (f : Fld) (at_ v : Nat) : (s.put f at_ v).ciph = s.ciph := by unfold State.put State.wr; rfl
@[simp] theorem State.put_ctl (s : State) (f : Fld) (at_ v : Nat) : (s.put f at_ v).ctl = s.ctl := by unfold State.put State.wr; rfl
@[simp] theorem State.put_dma (s : State) (f : Fld) (at_ v : Nat) : (s.put f at_ v).dma = s.dma := by unfold State.put State.wr; rfl
@[simp] theorem State.put_pmc (s : State) (f : Fld) (at_ v : Nat) : (s.put f at_ v).pmc = s.pmc := by unfold State.put State.wr; rfl

@[simp] theorem State.setByte_part (s : State) (a : Nat) (b : Byte) : (s.setByte a b).part = s.part := by unfold State.setByte; rfl
@[simp] theorem State.setByte_pending (s : State) (a : Nat) (b : Byte) : (s.setByte a b).pending = s.pending := by unfold State.setByte; rfl
@[simp] theorem State.setByte_fresh (s : State) (a : Nat) (b : Byte) : (s.setByte a b).fresh = s.fresh := by unfold State.setByte; rfl
@[simp] theorem State.setByte_regs (s : State) (a : Nat) (b : Byte) : (s.setByte a b).regs = s.regs := by unfold State.setByte; rfl
@[simp] theorem State.setByte_eff (s : State) (a : Nat) (b : Byte) : (s.setByte a b).eff = s.eff := by unfold State.setByte; rfl
@[simp] theorem State.setByte_mesh (s : State) (a : Nat) (b : Byte) : (s.setByte a b).mesh = s.mesh := by unfold State.setByte; rfl
@[simp] theorem State.setByte_clk (s : State) (a : Nat) (b : Byte) : (s.setByte a b).clk = s.clk := by unfold State.setByte; rfl
@[simp] theorem State.setByte_time (s : State) (a : Nat) (b : Byte) : (s.setByte a b).time = s.time := by unfold State.setByte; rfl
@[simp] theorem State.setByte_frz (s : State) (a : Nat) (b : Byte) : (s.setByte a b).frz = s.frz := by unfold State.setByte; rfl
@[simp] theorem State.setByte_lanes (s : State) (a : Nat) (b : Byte) : (s.setByte a b).lanes = s.lanes := by unfold State.setByte; rfl
@[simp] theorem State.setByte_hw (s : State) (a : Nat) (b : Byte) : (s.setByte a b).hw = s.hw := by unfold State.setByte; rfl
@[simp] theorem State.setByte_pwr (s : State) (a : Nat) (b : Byte) : (s.setByte a b).pwr = s.pwr := by unfold State.setByte; rfl
@[simp] theorem State.setByte_pon (s : State) (a : Nat) (b : Byte) : (s.setByte a b).pon = s.pon := by unfold State.setByte; rfl
@[simp] theorem State.setByte_dram (s : State) (a : Nat) (b : Byte) : (s.setByte a b).dram = s.dram := by unfold State.setByte; rfl
@[simp] theorem State.setByte_pipe (s : State) (a : Nat) (b : Byte) : (s.setByte a b).pipe = s.pipe := by unfold State.setByte; rfl
@[simp] theorem State.setByte_bond (s : State) (a : Nat) (b : Byte) : (s.setByte a b).bond = s.bond := by unfold State.setByte; rfl
@[simp] theorem State.setByte_tm (s : State) (a : Nat) (b : Byte) : (s.setByte a b).tm = s.tm := by unfold State.setByte; rfl
@[simp] theorem State.setByte_macs (s : State) (a : Nat) (b : Byte) : (s.setByte a b).macs = s.macs := by unfold State.setByte; rfl
@[simp] theorem State.setByte_ciph (s : State) (a : Nat) (b : Byte) : (s.setByte a b).ciph = s.ciph := by unfold State.setByte; rfl
@[simp] theorem State.setByte_ctl (s : State) (a : Nat) (b : Byte) : (s.setByte a b).ctl = s.ctl := by unfold State.setByte; rfl
@[simp] theorem State.setByte_dma (s : State) (a : Nat) (b : Byte) : (s.setByte a b).dma = s.dma := by unfold State.setByte; rfl
@[simp] theorem State.setByte_pmc (s : State) (a : Nat) (b : Byte) : (s.setByte a b).pmc = s.pmc := by unfold State.setByte; rfl

@[simp] theorem State.answer_part (s : State) (r : Nat) (a : MeshResp) : (s.answer r a).part = s.part := by unfold State.answer; rfl
@[simp] theorem State.answer_pending (s : State) (r : Nat) (a : MeshResp) : (s.answer r a).pending = s.pending := by unfold State.answer; rfl
@[simp] theorem State.answer_fresh (s : State) (r : Nat) (a : MeshResp) : (s.answer r a).fresh = s.fresh := by unfold State.answer; rfl
@[simp] theorem State.answer_regs (s : State) (r : Nat) (a : MeshResp) : (s.answer r a).regs = s.regs := by unfold State.answer; rfl
@[simp] theorem State.answer_eff (s : State) (r : Nat) (a : MeshResp) : (s.answer r a).eff = s.eff := by unfold State.answer; rfl
@[simp] theorem State.answer_mem (s : State) (r : Nat) (a : MeshResp) : (s.answer r a).mem = s.mem := by unfold State.answer; rfl
@[simp] theorem State.answer_clk (s : State) (r : Nat) (a : MeshResp) : (s.answer r a).clk = s.clk := by unfold State.answer; rfl
@[simp] theorem State.answer_time (s : State) (r : Nat) (a : MeshResp) : (s.answer r a).time = s.time := by unfold State.answer; rfl
@[simp] theorem State.answer_frz (s : State) (r : Nat) (a : MeshResp) : (s.answer r a).frz = s.frz := by unfold State.answer; rfl
@[simp] theorem State.answer_lanes (s : State) (r : Nat) (a : MeshResp) : (s.answer r a).lanes = s.lanes := by unfold State.answer; rfl
@[simp] theorem State.answer_hw (s : State) (r : Nat) (a : MeshResp) : (s.answer r a).hw = s.hw := by unfold State.answer; rfl
@[simp] theorem State.answer_pwr (s : State) (r : Nat) (a : MeshResp) : (s.answer r a).pwr = s.pwr := by unfold State.answer; rfl
@[simp] theorem State.answer_pon (s : State) (r : Nat) (a : MeshResp) : (s.answer r a).pon = s.pon := by unfold State.answer; rfl
@[simp] theorem State.answer_dram (s : State) (r : Nat) (a : MeshResp) : (s.answer r a).dram = s.dram := by unfold State.answer; rfl
@[simp] theorem State.answer_pipe (s : State) (r : Nat) (a : MeshResp) : (s.answer r a).pipe = s.pipe := by unfold State.answer; rfl
@[simp] theorem State.answer_bond (s : State) (r : Nat) (a : MeshResp) : (s.answer r a).bond = s.bond := by unfold State.answer; rfl
@[simp] theorem State.answer_tm (s : State) (r : Nat) (a : MeshResp) : (s.answer r a).tm = s.tm := by unfold State.answer; rfl
@[simp] theorem State.answer_macs (s : State) (r : Nat) (a : MeshResp) : (s.answer r a).macs = s.macs := by unfold State.answer; rfl
@[simp] theorem State.answer_ciph (s : State) (r : Nat) (a : MeshResp) : (s.answer r a).ciph = s.ciph := by unfold State.answer; rfl
@[simp] theorem State.answer_ctl (s : State) (r : Nat) (a : MeshResp) : (s.answer r a).ctl = s.ctl := by unfold State.answer; rfl
@[simp] theorem State.answer_dma (s : State) (r : Nat) (a : MeshResp) : (s.answer r a).dma = s.dma := by unfold State.answer; rfl
@[simp] theorem State.answer_pmc (s : State) (r : Nat) (a : MeshResp) : (s.answer r a).pmc = s.pmc := by unfold State.answer; rfl

@[simp] theorem State.kept_fresh (s t : State) : (s.kept t).fresh = t.fresh := rfl
@[simp] theorem State.kept_regs (s t : State) : (s.kept t).regs = t.regs := rfl
@[simp] theorem State.kept_eff (s t : State) : (s.kept t).eff = t.eff := rfl
@[simp] theorem State.kept_mem (s t : State) : (s.kept t).mem = t.mem := rfl
@[simp] theorem State.kept_mesh (s t : State) : (s.kept t).mesh = t.mesh := rfl
@[simp] theorem State.kept_clk (s t : State) : (s.kept t).clk = t.clk := rfl
@[simp] theorem State.kept_time (s t : State) : (s.kept t).time = t.time := rfl
@[simp] theorem State.kept_frz (s t : State) : (s.kept t).frz = t.frz := rfl
@[simp] theorem State.kept_lanes (s t : State) : (s.kept t).lanes = t.lanes := rfl
@[simp] theorem State.kept_pwr (s t : State) : (s.kept t).pwr = t.pwr := rfl
@[simp] theorem State.kept_pon (s t : State) : (s.kept t).pon = t.pon := rfl
@[simp] theorem State.kept_dram (s t : State) : (s.kept t).dram = t.dram := rfl
@[simp] theorem State.kept_pipe (s t : State) : (s.kept t).pipe = t.pipe := rfl
@[simp] theorem State.kept_bond (s t : State) : (s.kept t).bond = t.bond := rfl
@[simp] theorem State.kept_tm (s t : State) : (s.kept t).tm = t.tm := rfl
@[simp] theorem State.kept_macs (s t : State) : (s.kept t).macs = t.macs := rfl
@[simp] theorem State.kept_ciph (s t : State) : (s.kept t).ciph = t.ciph := rfl
@[simp] theorem State.kept_ctl (s t : State) : (s.kept t).ctl = t.ctl := rfl
@[simp] theorem State.kept_dma (s t : State) : (s.kept t).dma = t.dma := rfl
@[simp] theorem State.kept_pmc (s t : State) : (s.kept t).pmc = t.pmc := rfl

@[simp] theorem State.pinned_fresh (s t : State) : (s.pinned t).fresh = t.fresh := rfl
@[simp] theorem State.pinned_regs (s t : State) : (s.pinned t).regs = t.regs := rfl
@[simp] theorem State.pinned_eff (s t : State) : (s.pinned t).eff = t.eff := rfl
@[simp] theorem State.pinned_mem (s t : State) : (s.pinned t).mem = t.mem := rfl
@[simp] theorem State.pinned_mesh (s t : State) : (s.pinned t).mesh = t.mesh := rfl
@[simp] theorem State.pinned_clk (s t : State) : (s.pinned t).clk = t.clk := rfl
@[simp] theorem State.pinned_time (s t : State) : (s.pinned t).time = t.time := rfl
@[simp] theorem State.pinned_frz (s t : State) : (s.pinned t).frz = t.frz := rfl
@[simp] theorem State.pinned_lanes (s t : State) : (s.pinned t).lanes = t.lanes := rfl
@[simp] theorem State.pinned_hw (s t : State) : (s.pinned t).hw = t.hw := rfl
@[simp] theorem State.pinned_pwr (s t : State) : (s.pinned t).pwr = t.pwr := rfl
@[simp] theorem State.pinned_pon (s t : State) : (s.pinned t).pon = t.pon := rfl
@[simp] theorem State.pinned_dram (s t : State) : (s.pinned t).dram = t.dram := rfl
@[simp] theorem State.pinned_pipe (s t : State) : (s.pinned t).pipe = t.pipe := rfl
@[simp] theorem State.pinned_bond (s t : State) : (s.pinned t).bond = t.bond := rfl
@[simp] theorem State.pinned_tm (s t : State) : (s.pinned t).tm = t.tm := rfl
@[simp] theorem State.pinned_macs (s t : State) : (s.pinned t).macs = t.macs := rfl
@[simp] theorem State.pinned_ciph (s t : State) : (s.pinned t).ciph = t.ciph := rfl
@[simp] theorem State.pinned_ctl (s t : State) : (s.pinned t).ctl = t.ctl := rfl
@[simp] theorem State.pinned_dma (s t : State) : (s.pinned t).dma = t.dma := rfl
@[simp] theorem State.pinned_pmc (s t : State) : (s.pinned t).pmc = t.pmc := rfl

@[simp] theorem State.kept_part (s t : State) : (s.kept t).part = s.part := rfl
@[simp] theorem State.kept_pending (s t : State) : (s.kept t).pending = s.pending := rfl
@[simp] theorem State.pinned_part (s t : State) : (s.pinned t).part = s.part := rfl
@[simp] theorem State.pinned_pending (s t : State) : (s.pinned t).pending = s.pending := rfl
theorem State.wr_regs (s : State) (reg at_ : Nat) (w : Word) :
    (s.wr reg at_ w).regs = Tab.set s.regs (resetWord s.part (rkey reg at_)) (rkey reg at_) w := by unfold State.wr; rfl
theorem State.wrEff_eff (s : State) (reg at_ : Nat) (w : Word) :
    (s.wrEff reg at_ w).eff = Tab.set s.eff (resetWord s.part (rkey reg at_)) (rkey reg at_) w := by unfold State.wrEff; rfl
theorem State.setByte_mem (s : State) (a : Nat) (b : Byte) : (s.setByte a b).mem = Tab.set s.mem 0 a b := by
  unfold State.setByte; rfl

/-- What the headwater holds beside the fuses is as the command left it. -/
@[simp] theorem State.kept_hw (s t : State) : (s.kept t).hw = { t.hw with fuses := s.hw.fuses } := rfl

end Sys2Proof.Machine
end

