-- ==== Sys2Proof/Laws/Tables.lean ====
section
/-!
SUPPORT. The laws of the sparse tables and of bit fields: a read after a write, what a write leaves alone, and that every
write keeps the canonical form.
-/
namespace Sys2Proof.Machine

variable {α : Type}

theorem Tab.get_erase_same (m : Tab α) (d : α) (k : Nat) : Tab.get (Tab.erase m k) d k = d := by
  induction m with
  | nil => rfl
  | cons x t ih => by_cases h : x.1 = k <;> simp [Tab.erase, Tab.get, h, ih]

theorem Tab.get_erase_ne (m : Tab α) (d : α) {k j : Nat} (h : j ≠ k) : Tab.get (Tab.erase m k) d j = Tab.get m d j := by
  induction m with
  | nil => rfl
  | cons x t ih =>
    by_cases hk : x.1 = k
    · have : x.1 ≠ j := by omega
      simp [Tab.erase, Tab.get, hk, ih]
      omega
    · by_cases hj : x.1 = j
      · have : ¬ j = k := h
        simp [Tab.erase, Tab.get, hj, this]
      · simp [Tab.erase, Tab.get, hk, hj, ih]

theorem Tab.get_insert_same (m : Tab α) (d v : α) (k : Nat) :
    (∀ x ∈ m, x.1 ≠ k) → Tab.get (Tab.insert m k v) d k = v := by
  intro hm
  induction m with
  | nil => simp [Tab.insert, Tab.get]
  | cons x t ih =>
    have hx : x.1 ≠ k := hm x (by simp)
    by_cases hk : k < x.1
    · simp [Tab.insert, Tab.get, hk]
    · simp [Tab.insert, Tab.get, hk, hx]
      exact ih (fun y hy => hm y (by simp [hy]))

theorem Tab.get_insert_ne (m : Tab α) (d v : α) {k j : Nat} (h : j ≠ k) :
    Tab.get (Tab.insert m k v) d j = Tab.get m d j := by
  induction m with
  | nil => simp [Tab.insert, Tab.get]; omega
  | cons x t ih =>
    by_cases hk : k < x.1
    · simp [Tab.insert, Tab.get, hk]; omega
    · by_cases hj : x.1 = j
      · have : ¬ k < j := by omega
        simp [Tab.insert, Tab.get, hj, this]
      · simp [Tab.insert, Tab.get, hk, hj, ih]

theorem Tab.mem_erase {m : Tab α} {k : Nat} {x : Nat × α} : x ∈ Tab.erase m k → x ∈ m ∧ x.1 ≠ k := by
  induction m with
  | nil => simp [Tab.erase]
  | cons y t ih =>
    by_cases hy : y.1 = k
    · simp only [Tab.erase, hy, if_true]
      exact fun h => ⟨List.mem_cons_of_mem _ (ih h).1, (ih h).2⟩
    · simp only [Tab.erase, hy, if_false, List.mem_cons]
      rintro (rfl | h)
      · exact ⟨.inl rfl, hy⟩
      · exact ⟨.inr (ih h).1, (ih h).2⟩

/-- A read after a write to the same key gives the value written. -/
@[simp] theorem Tab.get_set_same [DecidableEq α] (m : Tab α) (d v : α) (k : Nat) : Tab.get (Tab.set m d k v) d k = v := by
  by_cases h : v = d
  · simp [Tab.set, h, Tab.get_erase_same]
  · simp only [Tab.set, h, if_false]
    exact Tab.get_insert_same _ _ _ _ (fun x hx => (Tab.mem_erase hx).2)

/-- A write leaves every other key alone, whatever default each is read with. -/
theorem Tab.get_set_ne [DecidableEq α] (m : Tab α) (d d' v : α) {k j : Nat} (h : j ≠ k) :
    Tab.get (Tab.set m d k v) d' j = Tab.get m d' j := by
  by_cases hv : v = d
  · simp [Tab.set, hv, Tab.get_erase_ne _ _ h]
  · simp [Tab.set, hv, Tab.get_insert_ne _ _ _ h, Tab.get_erase_ne _ _ h]

/-- The canonical form, as a property of the list: keys rise, and no entry holds what an unlisted key reads as. -/
theorem Tab.wf_iff [DecidableEq α] (d : Nat → α) (m : Tab α) :
    Tab.wf d m = true ↔ m.Pairwise (fun x y => x.1 < y.1) ∧ ∀ x ∈ m, x.2 ≠ d x.1 := by
  induction m with
  | nil => simp [Tab.wf]
  | cons x t ih =>
    cases t with
    | nil => simp [Tab.wf]
    | cons y t =>
      simp only [Tab.wf, Bool.and_eq_true, decide_eq_true_eq, ih, List.pairwise_cons, List.mem_cons, forall_eq_or_imp]
      constructor
      · rintro ⟨⟨h1, h2⟩, ⟨h3, h4⟩, h5⟩
        exact ⟨⟨⟨h2, fun z hz => lt_trans h2 (h3 z hz)⟩, h3, h4⟩, h1, h5⟩
      · rintro ⟨⟨⟨h1, _⟩, h3, h4⟩, h5, h6⟩
        exact ⟨⟨h5, h1⟩, ⟨h3, h4⟩, h6⟩

theorem Tab.erase_eq_filter (m : Tab α) (k : Nat) : Tab.erase m k = m.filter (fun x => x.1 ≠ k) := by
  induction m with
  | nil => rfl
  | cons x t ih => by_cases h : x.1 = k <;> simp [Tab.erase, h, ih]

theorem Tab.mem_insert {m : Tab α} {k : Nat} {v : α} {x : Nat × α} : x ∈ Tab.insert m k v ↔ x = (k, v) ∨ x ∈ m := by
  induction m with
  | nil => simp [Tab.insert]
  | cons y t ih =>
    by_cases h : k < y.1
    · simp [Tab.insert, h]
    · simp only [Tab.insert, h, if_false, List.mem_cons, ih]
      tauto

theorem Tab.insert_rising {m : Tab α} {k : Nat} {v : α} (hm : m.Pairwise (fun x y => x.1 < y.1)) (hk : ∀ x ∈ m, x.1 ≠ k) :
    (Tab.insert m k v).Pairwise (fun x y => x.1 < y.1) := by
  induction m with
  | nil => simp [Tab.insert]
  | cons y t ih =>
    rw [List.pairwise_cons] at hm
    by_cases h : k < y.1
    · simp only [Tab.insert, h, if_true, List.pairwise_cons, List.mem_cons]
      refine ⟨?_, hm.1, hm.2⟩
      rintro z (rfl | hz)
      · exact h
      · exact lt_trans h (hm.1 z hz)
    · simp only [Tab.insert, h, if_false, List.pairwise_cons]
      refine ⟨?_, ih hm.2 (fun x hx => hk x (by simp [hx]))⟩
      intro z hz
      rcases Tab.mem_insert.1 hz with rfl | hz
      · have := hk y (by simp)
        simp only
        omega
      · exact hm.1 z hz

/-- A write keeps the canonical form, where each key is written with its own default. -/
theorem Tab.wf_set [DecidableEq α] {d : Nat → α} {m : Tab α} (h : Tab.wf d m = true) (k : Nat) (v : α) :
    Tab.wf d (Tab.set m (d k) k v) = true := by
  rw [Tab.wf_iff] at h ⊢
  have he : (Tab.erase m k).Pairwise (fun x y => x.1 < y.1) := by
    rw [Tab.erase_eq_filter]; exact h.1.filter _
  by_cases hv : v = d k
  · simp only [Tab.set, hv, if_true]
    exact ⟨he, fun x hx => h.2 x (Tab.mem_erase hx).1⟩
  · simp only [Tab.set, hv, if_false]
    refine ⟨Tab.insert_rising he (fun x hx => (Tab.mem_erase hx).2), fun x hx => ?_⟩
    rcases Tab.mem_insert.1 hx with rfl | hx
    · exact hv
    · exact h.2 x (Tab.mem_erase hx).1

/-! ## Bit fields -/

/-- Bit i of a word whose field [hi:lo] took v. -/
theorem setBits_getLsbD (w : Word) (hi lo v i : Nat) (hl : lo ≤ hi) (hh : hi < 32) :
    (setBits w hi lo v).getLsbD i = if lo ≤ i ∧ i ≤ hi then v.testBit (i - lo) else w.getLsbD i := by
  unfold setBits
  simp only [BitVec.getLsbD_or, BitVec.getLsbD_and, BitVec.getLsbD_not, BitVec.getLsbD_shiftLeft, BitVec.getLsbD_ofNat,
    Nat.testBit_two_pow_sub_one]
  by_cases hi32 : i < 32
  · by_cases h1 : lo ≤ i
    · by_cases h2 : i ≤ hi
      · have h3 : i - lo < hi + 1 - lo := by omega
        have h4 : i - lo < 32 := by omega
        have h5 : ¬ i < lo := by omega
        simp [h1, h2, h3, h4, h5, hi32]
      · have h3 : ¬ i - lo < hi + 1 - lo := by omega
        simp [h2, h3, hi32]
    · have h5 : i < lo := by omega
      simp [h1, h5, hi32]
  · have h2 : ¬ i ≤ hi := by omega
    have := BitVec.getLsbD_of_ge w i (by omega)
    simp [hi32, h2, this]

/-- Bit j of a field. -/
theorem bits_testBit (w : Word) (hi lo j : Nat) : (bits w hi lo).testBit j = (decide (j < hi + 1 - lo) && w.getLsbD (lo + j)) := by
  simp [bits, Nat.testBit_mod_two_pow, Nat.testBit_shiftRight, BitVec.getLsbD]

/-- A field reads as what it took. -/
theorem bits_setBits_same (w : Word) (hi lo v : Nat) (hl : lo ≤ hi) (hh : hi < 32) :
    bits (setBits w hi lo v) hi lo = v % 2 ^ (hi + 1 - lo) := by
  apply Nat.eq_of_testBit_eq
  intro j
  rw [bits_testBit, setBits_getLsbD _ _ _ _ _ hl hh, Nat.testBit_mod_two_pow]
  by_cases h : j < hi + 1 - lo
  · have : lo + j ≤ hi := by omega
    simp [h, this]
  · simp [h]

/-- A field that shares no bit with the one written is unchanged. -/
theorem bits_setBits_other (w : Word) (hi lo v hi' lo' : Nat) (hl : lo ≤ hi) (hh : hi < 32) (h : hi' < lo ∨ hi < lo') :
    bits (setBits w hi lo v) hi' lo' = bits w hi' lo' := by
  apply Nat.eq_of_testBit_eq
  intro j
  rw [bits_testBit, bits_testBit, setBits_getLsbD _ _ _ _ _ hl hh]
  by_cases hj : j < hi' + 1 - lo'
  · have : ¬ (lo ≤ lo' + j ∧ lo' + j ≤ hi) := by omega
    simp [this]
  · simp [hj]

end Sys2Proof.Machine
end

