-- ==== Sys2Proof/Laws/Registers.lean ====
section
/-!
SUPPORT. The laws of the register file, of its values in effect and of memory: a read after a write, and what a write leaves
alone. Every register's identity is below 2^28 and every place too, so that different registers never share a key.
-/
namespace Sys2Proof.Machine

theorem rkey_ne {r r' a a' : Nat} (h : r ≠ r') : rkey r a ≠ rkey r' a' := by
  unfold rkey
  have h1 := Nat.mod_lt a (show 0 < 2 ^ 28 by decide)
  have h2 := Nat.mod_lt a' (show 0 < 2 ^ 28 by decide)
  omega

theorem rkey_ne_at {r a a' : Nat} (h : a % 2 ^ 28 ≠ a' % 2 ^ 28) : rkey r a ≠ rkey r a' := by
  unfold rkey
  omega

/-! ## Stored words -/

@[simp] theorem State.rd_wr_same (s : State) (r a : Nat) (w : Word) : (s.wr r a w).rd r a = w := by
  rw [State.rd, State.wr_regs, State.wr_part, Tab.get_set_same]

@[simp] theorem State.rd_wr_ne (s : State) {r r' : Nat} (a a' : Nat) (w : Word) (h : r' ≠ r) :
    (s.wr r a w).rd r' a' = s.rd r' a' := by
  rw [State.rd, State.rd, State.wr_regs, State.wr_part, Tab.get_set_ne _ _ _ _ (rkey_ne h)]

theorem State.rd_wr_at (s : State) (r : Nat) {a a' : Nat} (w : Word) (h : a' % 2 ^ 28 ≠ a % 2 ^ 28) :
    (s.wr r a w).rd r a' = s.rd r a' := by
  rw [State.rd, State.rd, State.wr_regs, State.wr_part, Tab.get_set_ne _ _ _ _ (rkey_ne_at h)]

/-- A field reads as what it took, as many bits as it has. -/
@[simp] theorem State.get_put_same (s : State) (f : Fld) (a v : Nat) (hl : f.lo ≤ f.hi) (hh : f.hi < 32) :
    (s.put f a v).get f a = v % 2 ^ (f.hi + 1 - f.lo) := by
  simp only [State.put, State.get, State.rd_wr_same]
  exact bits_setBits_same _ _ _ _ hl hh

/-- A field of another register is unchanged. -/
@[simp] theorem State.get_put_ne (s : State) {f g : Fld} (a a' v : Nat) (h : g.reg ≠ f.reg) :
    (s.put f a v).get g a' = s.get g a' := by
  simp only [State.put, State.get, State.rd_wr_ne _ _ _ _ h]

/-- A field of the same register that shares no bit with it is unchanged. -/
theorem State.get_put_field (s : State) {f g : Fld} (a v : Nat) (h : g.reg = f.reg) (hl : f.lo ≤ f.hi) (hh : f.hi < 32)
    (hd : g.hi < f.lo ∨ f.hi < g.lo) : (s.put f a v).get g a = s.get g a := by
  simp only [State.put, State.get, h, State.rd_wr_same]
  exact bits_setBits_other _ _ _ _ _ _ hl hh hd

/-- A field at another place is unchanged. -/
theorem State.get_put_at (s : State) {f g : Fld} {a a' : Nat} (v : Nat) (h : a' % 2 ^ 28 ≠ a % 2 ^ 28) :
    (s.put f a v).get g a' = s.get g a' := by
  by_cases hr : g.reg = f.reg
  · simp only [State.put, State.get, hr, State.rd_wr_at _ _ _ h]
  · exact State.get_put_ne _ _ _ _ hr

@[simp] theorem State.rd_put_ne (s : State) (f : Fld) {r : Nat} (a a' v : Nat) (h : r ≠ f.reg) :
    (s.put f a v).rd r a' = s.rd r a' := by
  simp only [State.put, State.rd_wr_ne _ _ _ _ h]

/-! ## Values in effect -/

@[simp] theorem State.rdEff_wrEff_same (s : State) (r a : Nat) (w : Word) : (s.wrEff r a w).rdEff r a = w := by
  rw [State.rdEff, State.wrEff_eff, State.wrEff_part, Tab.get_set_same]

@[simp] theorem State.rdEff_wrEff_ne (s : State) {r r' : Nat} (a a' : Nat) (w : Word) (h : r' ≠ r) :
    (s.wrEff r a w).rdEff r' a' = s.rdEff r' a' := by
  rw [State.rdEff, State.rdEff, State.wrEff_eff, State.wrEff_part, Tab.get_set_ne _ _ _ _ (rkey_ne h)]

/-- The stored words and the part stand in a state as in any with the same register file. -/
theorem State.rd_congr {s t : State} (hr : t.regs = s.regs) (hp : t.part = s.part) (r a : Nat) : t.rd r a = s.rd r a := by
  unfold State.rd
  rw [hr, hp]

theorem State.get_congr {s t : State} (hr : t.regs = s.regs) (hp : t.part = s.part) (f : Fld) (a : Nat) :
    t.get f a = s.get f a := by
  simp only [State.get, State.rd_congr hr hp]

@[simp] theorem State.rd_kept (s t : State) (h : t.part = s.part) (r a : Nat) : (s.kept t).rd r a = t.rd r a :=
  State.rd_congr (by simp) (by simp [h]) r a

@[simp] theorem State.get_kept (s t : State) (h : t.part = s.part) (f : Fld) (a : Nat) : (s.kept t).get f a = t.get f a :=
  State.get_congr (by simp) (by simp [h]) f a

@[simp] theorem State.rdEff_wr (s : State) (r a r' a' : Nat) (w : Word) : (s.wr r a w).rdEff r' a' = s.rdEff r' a' := by
  rw [State.rdEff, State.rdEff, State.wr_eff, State.wr_part]

@[simp] theorem State.rdEff_put (s : State) (f : Fld) (a v r' a' : Nat) : (s.put f a v).rdEff r' a' = s.rdEff r' a' := by
  rw [State.rdEff, State.rdEff, State.put_eff, State.put_part]

@[simp] theorem State.rd_wrEff (s : State) (r a r' a' : Nat) (w : Word) : (s.wrEff r a w).rd r' a' = s.rd r' a' := by
  rw [State.rd, State.rd, State.wrEff_regs, State.wrEff_part]

@[simp] theorem State.rd_answer (s : State) (k : Nat) (x : MeshResp) (r a : Nat) : (s.answer k x).rd r a = s.rd r a := by
  rw [State.rd, State.rd, State.answer_regs, State.answer_part]

@[simp] theorem State.get_answer (s : State) (k : Nat) (x : MeshResp) (f : Fld) (a : Nat) : (s.answer k x).get f a = s.get f a := by
  rw [State.get, State.get, State.rd_answer]

@[simp] theorem State.answerOf_answer (s : State) (k : Nat) (x : MeshResp) : (s.answer k x).answerOf k = x := by
  simp only [State.answerOf, State.answer, Tab.get_set_same]

/-! ## Memory (R761) -/

@[simp] theorem State.byte_setByte_same (s : State) (a : Nat) (b : Byte) : (s.setByte a b).byte a = b := by
  rw [State.byte, State.setByte_mem, Tab.get_set_same]

theorem State.byte_setByte_ne (s : State) {a a' : Nat} (b : Byte) (h : a' ≠ a) : (s.setByte a b).byte a' = s.byte a' := by
  rw [State.byte, State.byte, State.setByte_mem, Tab.get_set_ne _ _ _ _ h]

/-- Bytes outside those written are unchanged. -/
theorem State.byte_setBytes_ne (s : State) (a a' : Nat) (l : List Byte) (h : a' < a ∨ a + l.length ≤ a') :
    (s.setBytes a l).byte a' = s.byte a' := by
  induction l generalizing s a with
  | nil => rfl
  | cons b t ih =>
    simp only [List.length_cons] at h
    rw [State.setBytes, ih _ _ (by omega), State.byte_setByte_ne _ _ (by omega)]

/-- Memory is in its canonical form. -/
abbrev State.memWf (s : State) : Bool := Tab.wf (fun _ => (0 : Byte)) s.mem

theorem State.memWf_setByte {s : State} (h : s.memWf = true) (a : Nat) (b : Byte) : (s.setByte a b).memWf = true := by
  unfold State.memWf State.setByte
  exact Tab.wf_set (d := fun _ => (0 : Byte)) h a b

/-- A store of any length keeps the canonical form. -/
theorem State.memWf_setBytes {s : State} (h : s.memWf = true) (a : Nat) (l : List Byte) : (s.setBytes a l).memWf = true := by
  induction l generalizing s a with
  | nil => exact h
  | cons b t ih => exact ih (State.memWf_setByte h a b) _

/-- Memory without some of its bytes keeps the canonical form (what an initialisation or a zeroisation leaves). -/
theorem memWf_filter {m : List Host.Cell} (h : Tab.wf (fun _ => (0 : Byte)) m = true) (p : Host.Cell → Bool) :
    Tab.wf (fun _ => (0 : Byte)) (m.filter p) = true := by
  rw [Tab.wf_iff] at h ⊢
  exact ⟨h.1.filter _, fun x hx => h.2 x (List.mem_filter.1 hx).1⟩

theorem memWf_reset : State.reset.memWf = true := rfl

end Sys2Proof.Machine
end

