-- ==== Sys2Proof/Laws/Counting.lean ====
section
/-!
SUPPORT. What the counting of an event changes (R693): registers, stored and in effect, and nothing else.
-/
namespace Sys2Proof.Machine

/-- Two states agree in all but the registers. -/
def OnlyRegs (s t : State) : Prop := ∃ r e, t = { s with regs := r, eff := e }

theorem OnlyRegs.refl (s : State) : OnlyRegs s s := ⟨s.regs, s.eff, rfl⟩

theorem OnlyRegs.trans {s t u : State} (h : OnlyRegs s t) (k : OnlyRegs t u) : OnlyRegs s u := by
  obtain ⟨_, _, rfl⟩ := h
  obtain ⟨r, e, rfl⟩ := k
  exact ⟨r, e, rfl⟩

/-- A fold of steps that each change registers alone does. -/
theorem OnlyRegs.foldl {α : Type} (f : State → α → State) (h : ∀ s a, OnlyRegs s (f s a)) :
    ∀ (l : List α) (s : State), OnlyRegs s (l.foldl f s)
  | [], s => .refl s
  | a :: l, s => (h s a).trans (OnlyRegs.foldl f h l (f s a))

/-- A write of a stored register word. -/
theorem State.wr_onlyRegs (s : State) (reg a : Nat) (w : Word) : OnlyRegs s (s.wr reg a w) := ⟨_, s.eff, rfl⟩

/-- A write of a register word in effect. -/
theorem State.wrEff_onlyRegs (s : State) (reg a : Nat) (w : Word) : OnlyRegs s (s.wrEff reg a w) := ⟨s.regs, _, rfl⟩

/-- A write of a field. -/
theorem State.put_onlyRegs (s : State) (f : Fld) (a v : Nat) : OnlyRegs s (s.put f a v) := s.wr_onlyRegs ..

/-- A counter of a unit adds (R694). -/
theorem State.pmcAdd_onlyRegs (s : State) (d u n k : Nat) : OnlyRegs s (s.pmcAdd d u n k) := by
  unfold State.pmcAdd
  dsimp only
  split
  · exact ((s.wr_onlyRegs ..).trans (State.wrEff_onlyRegs ..)).trans (State.put_onlyRegs ..)
  · exact (s.wr_onlyRegs ..).trans (State.wrEff_onlyRegs ..)

/-- An event of Table 17.4 is counted (R693). -/
theorem State.pmcEvent_onlyRegs (s : State) (d u code idx k : Nat) (pass : Word → Bool) :
    OnlyRegs s (s.pmcEvent d u code idx k pass) := by
  unfold State.pmcEvent
  split
  · exact .refl s
  · refine OnlyRegs.foldl _ (fun s n => ?_) _ s
    dsimp only
    split
    · exact s.pmcAdd_onlyRegs ..
    · exact .refl s

/-- The accesses of a reservoir die are counted (R519). -/
theorem State.rcUse_onlyRegs (s : State) (d off n : Nat) (write : Bool) : OnlyRegs s (s.rcUse d off n write) := by
  unfold State.rcUse
  split
  · exact .refl s
  · exact OnlyRegs.foldl _ (fun s i => (s.pmcEvent_onlyRegs ..).trans (State.pmcEvent_onlyRegs ..)) _ s

/-- What agrees in all but the registers agrees in memory, so that counting moves no byte. -/
theorem OnlyRegs.mem {s t : State} (h : OnlyRegs s t) : t.mem = s.mem := by
  obtain ⟨_, _, rfl⟩ := h
  rfl

@[simp] theorem State.rcUse_mem (s : State) (d off n : Nat) (write : Bool) : (s.rcUse d off n write).mem = s.mem :=
  (s.rcUse_onlyRegs ..).mem

/-- Bytes set in states of equal memory leave equal memory. -/
theorem State.setBytes_mem_congr : ∀ (l : List Byte) {s t : State} (a : Nat), s.mem = t.mem → (s.setBytes a l).mem = (t.setBytes a l).mem
  | [], _, _, _, h => h
  | b :: l, s, t, a, h => State.setBytes_mem_congr l (a + 1) (by simp only [State.setByte, h])

/-- A counted write leaves the memory that the write leaves (R519, R761). -/
@[simp] theorem State.putBytes_mem (s : State) (a : Nat) (l : List Byte) : (s.putBytes a l).mem = (s.setBytes a l).mem :=
  State.setBytes_mem_congr l a (s.rcUse_mem ..)

end Sys2Proof.Machine
end

