-- ==== Sys2Proof/Laws/Events.lean ====
section
/-!
SUPPORT. What the kinds of events answer: always a next state, with the effect where the domain takes edges and the
state as it was where it takes none.
-/
namespace Sys2Proof.Machine

/-- A stoppable domain that runs: the effect, with part, queue and fuses as before. -/
@[simp] theorem State.event_running (s : State) (f : State → State) (h : s.running = true) :
    s.event f = .next (s.kept (f s)) := by simp only [State.event, h, if_true]

/-- A stoppable domain that is stopped: nothing changes. -/
@[simp] theorem State.event_stopped (s : State) (f : State → State) (h : s.running = false) : s.event f = .next s := by
  simp only [State.event, h, Bool.false_eq_true, if_false]

/-- The ac domain of a part with power. -/
@[simp] theorem State.acEvent_alive (s : State) (f : State → State) (h : s.hw.alive = true) :
    s.acEvent f = .next (s.kept (f s)) := by simp only [State.acEvent, h, if_true]

/-- The ac domain of a part without power. -/
@[simp] theorem State.acEvent_dead (s : State) (f : State → State) (h : s.hw.alive = false) : s.acEvent f = .next s := by
  simp only [State.acEvent, h, Bool.false_eq_true, if_false]

/-- The unit of a retention bank that runs: its part is not held for a lost state (R682). -/
@[simp] theorem State.unit_runs (s : State) (d b : Nat) (f : State → State) (h : s.unitRuns d b = true) :
    s.unit d b f = .next (s.kept (f s)) := by simp only [State.unit, h, if_true]

/-- The unit of a bank that is held or whose domain is stopped: nothing changes. -/
@[simp] theorem State.unit_held (s : State) (d b : Nat) (f : State → State) (h : s.unitRuns d b = false) :
    s.unit d b f = .next s := by simp only [State.unit, h, Bool.false_eq_true, if_false]

/-- A unit of the core island runs exactly where the stoppable domains run, its bank is not held and its die is in RUN. -/
theorem State.unitRuns_iff (s : State) (d b : Nat) :
    s.unitRuns d b = true ↔ s.running = true ∧ s.unitHeld d b = false ∧ s.awake d = true := by
  simp [State.unitRuns, and_assoc]

/-- A unit of the port or router island runs whatever the state of its die. -/
theorem State.islandRuns_iff (s : State) (d b : Nat) : s.islandRuns d b = true ↔ s.running = true ∧ s.unitHeld d b = false := by
  simp [State.islandRuns]

/-- The unit of the port or router island of a retention bank that runs. -/
@[simp] theorem State.island_runs (s : State) (d b : Nat) (f : State → State) (h : s.islandRuns d b = true) :
    s.island d b f = .next (s.kept (f s)) := by simp only [State.island, h, if_true]

/-- The same unit where its bank is held or its domain stopped: nothing changes. -/
@[simp] theorem State.island_held (s : State) (d b : Nat) (f : State → State) (h : s.islandRuns d b = false) :
    s.island d b f = .next s := by simp only [State.island, h, Bool.false_eq_true, if_false]

/-- A unit of the ac domain: the effect while the part has power and the bank is not held. -/
@[simp] theorem State.acUnit_runs (s : State) (d b : Nat) (f : State → State) (h : s.hw.alive = true)
    (hb : s.unitHeld d b = false) : s.acUnit d b f = .next (s.kept (f s)) := by simp [State.acUnit, h, hb]

theorem State.acUnit_held (s : State) (d b : Nat) (f : State → State) (h : s.hw.alive = false ∨ s.unitHeld d b = true) :
    s.acUnit d b f = .next s := by rcases h with h | h <;> simp [State.acUnit, h]

@[simp] theorem State.burnEvent_alive (s : State) (f : State → State) (h : s.hw.alive = true) :
    s.burnEvent f = .next (s.pinned (f s)) := by simp only [State.burnEvent, h, if_true]

@[simp] theorem State.burnEvent_dead (s : State) (f : State → State) (h : s.hw.alive = false) : s.burnEvent f = .next s := by
  simp only [State.burnEvent, h, Bool.false_eq_true, if_false]

/-- Whatever an event leaves has the part and the queue of before (an effect on everything but the queue). -/
theorem State.event_pinned {s t : State} {f : State → State} (h : s.event f = .next t) :
    t.part = s.part ∧ t.pending = s.pending ∧ t.hw.fuses = s.hw.fuses := by
  by_cases hr : s.running = true
  · rw [State.event_running _ _ hr] at h; cases h; simp
  · rw [State.event_stopped _ _ (by simpa using hr)] at h; cases h; simp

theorem State.acEvent_pinned {s t : State} {f : State → State} (h : s.acEvent f = .next t) :
    t.part = s.part ∧ t.pending = s.pending ∧ t.hw.fuses = s.hw.fuses := by
  by_cases hr : s.hw.alive = true
  · rw [State.acEvent_alive _ _ hr] at h; cases h; simp
  · rw [State.acEvent_dead _ _ (by simpa using hr)] at h; cases h; simp

theorem State.unit_pinned {s t : State} {d b : Nat} {f : State → State} (h : s.unit d b f = .next t) :
    t.part = s.part ∧ t.pending = s.pending ∧ t.hw.fuses = s.hw.fuses := by
  by_cases hr : s.unitRuns d b = true
  · rw [State.unit_runs _ _ _ _ hr] at h; cases h; simp
  · rw [State.unit_held _ _ _ _ (by simpa using hr)] at h; cases h; simp

theorem State.burnEvent_pinned {s t : State} {f : State → State} (h : s.burnEvent f = .next t) :
    t.part = s.part ∧ t.pending = s.pending := by
  by_cases hr : s.hw.alive = true
  · rw [State.burnEvent_alive _ _ hr] at h; cases h; simp
  · rw [State.burnEvent_dead _ _ (by simpa using hr)] at h; cases h; simp

end Sys2Proof.Machine
end

