-- ==== Sys2Proof/Laws/Records.lean ====
section
/-!
SUPPORT. What the updates of one record leave alone, one lemma for each field of the state, and what they read back: a channel,
a framer, a MAC, a core and the like reads as it was put, and every other one as before.
-/
namespace Sys2Proof.Machine

@[simp] theorem State.setHw_part (s : State) (f : Hw → Hw) : (s.setHw f).part = s.part := by unfold State.setHw; rfl
@[simp] theorem State.setHw_pending (s : State) (f : Hw → Hw) : (s.setHw f).pending = s.pending := by unfold State.setHw; rfl
@[simp] theorem State.setHw_fresh (s : State) (f : Hw → Hw) : (s.setHw f).fresh = s.fresh := by unfold State.setHw; rfl
@[simp] theorem State.setHw_regs (s : State) (f : Hw → Hw) : (s.setHw f).regs = s.regs := by unfold State.setHw; rfl
@[simp] theorem State.setHw_eff (s : State) (f : Hw → Hw) : (s.setHw f).eff = s.eff := by unfold State.setHw; rfl
@[simp] theorem State.setHw_mem (s : State) (f : Hw → Hw) : (s.setHw f).mem = s.mem := by unfold State.setHw; rfl
@[simp] theorem State.setHw_mesh (s : State) (f : Hw → Hw) : (s.setHw f).mesh = s.mesh := by unfold State.setHw; rfl
@[simp] theorem State.setHw_clk (s : State) (f : Hw → Hw) : (s.setHw f).clk = s.clk := by unfold State.setHw; rfl
@[simp] theorem State.setHw_time (s : State) (f : Hw → Hw) : (s.setHw f).time = s.time := by unfold State.setHw; rfl
@[simp] theorem State.setHw_frz (s : State) (f : Hw → Hw) : (s.setHw f).frz = s.frz := by unfold State.setHw; rfl
@[simp] theorem State.setHw_lanes (s : State) (f : Hw → Hw) : (s.setHw f).lanes = s.lanes := by unfold State.setHw; rfl
@[simp] theorem State.setHw_pwr (s : State) (f : Hw → Hw) : (s.setHw f).pwr = s.pwr := by unfold State.setHw; rfl
@[simp] theorem State.setHw_pon (s : State) (f : Hw → Hw) : (s.setHw f).pon = s.pon := by unfold State.setHw; rfl
@[simp] theorem State.setHw_dram (s : State) (f : Hw → Hw) : (s.setHw f).dram = s.dram := by unfold State.setHw; rfl
@[simp] theorem State.setHw_pipe (s : State) (f : Hw → Hw) : (s.setHw f).pipe = s.pipe := by unfold State.setHw; rfl
@[simp] theorem State.setHw_bond (s : State) (f : Hw → Hw) : (s.setHw f).bond = s.bond := by unfold State.setHw; rfl
@[simp] theorem State.setHw_tm (s : State) (f : Hw → Hw) : (s.setHw f).tm = s.tm := by unfold State.setHw; rfl
@[simp] theorem State.setHw_macs (s : State) (f : Hw → Hw) : (s.setHw f).macs = s.macs := by unfold State.setHw; rfl
@[simp] theorem State.setHw_ciph (s : State) (f : Hw → Hw) : (s.setHw f).ciph = s.ciph := by unfold State.setHw; rfl
@[simp] theorem State.setHw_ctl (s : State) (f : Hw → Hw) : (s.setHw f).ctl = s.ctl := by unfold State.setHw; rfl
@[simp] theorem State.setHw_dma (s : State) (f : Hw → Hw) : (s.setHw f).dma = s.dma := by unfold State.setHw; rfl
@[simp] theorem State.setHw_pmc (s : State) (f : Hw → Hw) : (s.setHw f).pmc = s.pmc := by unfold State.setHw; rfl

@[simp] theorem State.setPwr_part (s : State) (f : Power → Power) : (s.setPwr f).part = s.part := by unfold State.setPwr; rfl
@[simp] theorem State.setPwr_pending (s : State) (f : Power → Power) : (s.setPwr f).pending = s.pending := by unfold State.setPwr; rfl
@[simp] theorem State.setPwr_fresh (s : State) (f : Power → Power) : (s.setPwr f).fresh = s.fresh := by unfold State.setPwr; rfl
@[simp] theorem State.setPwr_regs (s : State) (f : Power → Power) : (s.setPwr f).regs = s.regs := by unfold State.setPwr; rfl
@[simp] theorem State.setPwr_eff (s : State) (f : Power → Power) : (s.setPwr f).eff = s.eff := by unfold State.setPwr; rfl
@[simp] theorem State.setPwr_mem (s : State) (f : Power → Power) : (s.setPwr f).mem = s.mem := by unfold State.setPwr; rfl
@[simp] theorem State.setPwr_mesh (s : State) (f : Power → Power) : (s.setPwr f).mesh = s.mesh := by unfold State.setPwr; rfl
@[simp] theorem State.setPwr_clk (s : State) (f : Power → Power) : (s.setPwr f).clk = s.clk := by unfold State.setPwr; rfl
@[simp] theorem State.setPwr_time (s : State) (f : Power → Power) : (s.setPwr f).time = s.time := by unfold State.setPwr; rfl
@[simp] theorem State.setPwr_frz (s : State) (f : Power → Power) : (s.setPwr f).frz = s.frz := by unfold State.setPwr; rfl
@[simp] theorem State.setPwr_lanes (s : State) (f : Power → Power) : (s.setPwr f).lanes = s.lanes := by unfold State.setPwr; rfl
@[simp] theorem State.setPwr_hw (s : State) (f : Power → Power) : (s.setPwr f).hw = s.hw := by unfold State.setPwr; rfl
@[simp] theorem State.setPwr_pon (s : State) (f : Power → Power) : (s.setPwr f).pon = s.pon := by unfold State.setPwr; rfl
@[simp] theorem State.setPwr_dram (s : State) (f : Power → Power) : (s.setPwr f).dram = s.dram := by unfold State.setPwr; rfl
@[simp] theorem State.setPwr_pipe (s : State) (f : Power → Power) : (s.setPwr f).pipe = s.pipe := by unfold State.setPwr; rfl
@[simp] theorem State.setPwr_bond (s : State) (f : Power → Power) : (s.setPwr f).bond = s.bond := by unfold State.setPwr; rfl
@[simp] theorem State.setPwr_tm (s : State) (f : Power → Power) : (s.setPwr f).tm = s.tm := by unfold State.setPwr; rfl
@[simp] theorem State.setPwr_macs (s : State) (f : Power → Power) : (s.setPwr f).macs = s.macs := by unfold State.setPwr; rfl
@[simp] theorem State.setPwr_ciph (s : State) (f : Power → Power) : (s.setPwr f).ciph = s.ciph := by unfold State.setPwr; rfl
@[simp] theorem State.setPwr_ctl (s : State) (f : Power → Power) : (s.setPwr f).ctl = s.ctl := by unfold State.setPwr; rfl
@[simp] theorem State.setPwr_dma (s : State) (f : Power → Power) : (s.setPwr f).dma = s.dma := by unfold State.setPwr; rfl
@[simp] theorem State.setPwr_pmc (s : State) (f : Power → Power) : (s.setPwr f).pmc = s.pmc := by unfold State.setPwr; rfl

@[simp] theorem State.setConv_part (s : State) (c : Nat) (v : Conv) : (s.setConv c v).part = s.part := by unfold State.setConv; rfl
@[simp] theorem State.setConv_pending (s : State) (c : Nat) (v : Conv) : (s.setConv c v).pending = s.pending := by unfold State.setConv; rfl
@[simp] theorem State.setConv_fresh (s : State) (c : Nat) (v : Conv) : (s.setConv c v).fresh = s.fresh := by unfold State.setConv; rfl
@[simp] theorem State.setConv_regs (s : State) (c : Nat) (v : Conv) : (s.setConv c v).regs = s.regs := by unfold State.setConv; rfl
@[simp] theorem State.setConv_eff (s : State) (c : Nat) (v : Conv) : (s.setConv c v).eff = s.eff := by unfold State.setConv; rfl
@[simp] theorem State.setConv_mem (s : State) (c : Nat) (v : Conv) : (s.setConv c v).mem = s.mem := by unfold State.setConv; rfl
@[simp] theorem State.setConv_mesh (s : State) (c : Nat) (v : Conv) : (s.setConv c v).mesh = s.mesh := by unfold State.setConv; rfl
@[simp] theorem State.setConv_clk (s : State) (c : Nat) (v : Conv) : (s.setConv c v).clk = s.clk := by unfold State.setConv; rfl
@[simp] theorem State.setConv_time (s : State) (c : Nat) (v : Conv) : (s.setConv c v).time = s.time := by unfold State.setConv; rfl
@[simp] theorem State.setConv_frz (s : State) (c : Nat) (v : Conv) : (s.setConv c v).frz = s.frz := by unfold State.setConv; rfl
@[simp] theorem State.setConv_lanes (s : State) (c : Nat) (v : Conv) : (s.setConv c v).lanes = s.lanes := by unfold State.setConv; rfl
@[simp] theorem State.setConv_hw (s : State) (c : Nat) (v : Conv) : (s.setConv c v).hw = s.hw := by unfold State.setConv; rfl
@[simp] theorem State.setConv_pwr (s : State) (c : Nat) (v : Conv) : (s.setConv c v).pwr = s.pwr := by unfold State.setConv; rfl
@[simp] theorem State.setConv_dram (s : State) (c : Nat) (v : Conv) : (s.setConv c v).dram = s.dram := by unfold State.setConv; rfl
@[simp] theorem State.setConv_pipe (s : State) (c : Nat) (v : Conv) : (s.setConv c v).pipe = s.pipe := by unfold State.setConv; rfl
@[simp] theorem State.setConv_bond (s : State) (c : Nat) (v : Conv) : (s.setConv c v).bond = s.bond := by unfold State.setConv; rfl
@[simp] theorem State.setConv_tm (s : State) (c : Nat) (v : Conv) : (s.setConv c v).tm = s.tm := by unfold State.setConv; rfl
@[simp] theorem State.setConv_macs (s : State) (c : Nat) (v : Conv) : (s.setConv c v).macs = s.macs := by unfold State.setConv; rfl
@[simp] theorem State.setConv_ciph (s : State) (c : Nat) (v : Conv) : (s.setConv c v).ciph = s.ciph := by unfold State.setConv; rfl
@[simp] theorem State.setConv_ctl (s : State) (c : Nat) (v : Conv) : (s.setConv c v).ctl = s.ctl := by unfold State.setConv; rfl
@[simp] theorem State.setConv_dma (s : State) (c : Nat) (v : Conv) : (s.setConv c v).dma = s.dma := by unfold State.setConv; rfl
@[simp] theorem State.setConv_pmc (s : State) (c : Nat) (v : Conv) : (s.setConv c v).pmc = s.pmc := by unfold State.setConv; rfl

@[simp] theorem State.setFramer_part (s : State) (c : Nat) (v : Framer) : (s.setFramer c v).part = s.part := by unfold State.setFramer; rfl
@[simp] theorem State.setFramer_pending (s : State) (c : Nat) (v : Framer) : (s.setFramer c v).pending = s.pending := by unfold State.setFramer; rfl
@[simp] theorem State.setFramer_fresh (s : State) (c : Nat) (v : Framer) : (s.setFramer c v).fresh = s.fresh := by unfold State.setFramer; rfl
@[simp] theorem State.setFramer_regs (s : State) (c : Nat) (v : Framer) : (s.setFramer c v).regs = s.regs := by unfold State.setFramer; rfl
@[simp] theorem State.setFramer_eff (s : State) (c : Nat) (v : Framer) : (s.setFramer c v).eff = s.eff := by unfold State.setFramer; rfl
@[simp] theorem State.setFramer_mem (s : State) (c : Nat) (v : Framer) : (s.setFramer c v).mem = s.mem := by unfold State.setFramer; rfl
@[simp] theorem State.setFramer_mesh (s : State) (c : Nat) (v : Framer) : (s.setFramer c v).mesh = s.mesh := by unfold State.setFramer; rfl
@[simp] theorem State.setFramer_clk (s : State) (c : Nat) (v : Framer) : (s.setFramer c v).clk = s.clk := by unfold State.setFramer; rfl
@[simp] theorem State.setFramer_time (s : State) (c : Nat) (v : Framer) : (s.setFramer c v).time = s.time := by unfold State.setFramer; rfl
@[simp] theorem State.setFramer_frz (s : State) (c : Nat) (v : Framer) : (s.setFramer c v).frz = s.frz := by unfold State.setFramer; rfl
@[simp] theorem State.setFramer_lanes (s : State) (c : Nat) (v : Framer) : (s.setFramer c v).lanes = s.lanes := by unfold State.setFramer; rfl
@[simp] theorem State.setFramer_hw (s : State) (c : Nat) (v : Framer) : (s.setFramer c v).hw = s.hw := by unfold State.setFramer; rfl
@[simp] theorem State.setFramer_pwr (s : State) (c : Nat) (v : Framer) : (s.setFramer c v).pwr = s.pwr := by unfold State.setFramer; rfl
@[simp] theorem State.setFramer_dram (s : State) (c : Nat) (v : Framer) : (s.setFramer c v).dram = s.dram := by unfold State.setFramer; rfl
@[simp] theorem State.setFramer_pipe (s : State) (c : Nat) (v : Framer) : (s.setFramer c v).pipe = s.pipe := by unfold State.setFramer; rfl
@[simp] theorem State.setFramer_bond (s : State) (c : Nat) (v : Framer) : (s.setFramer c v).bond = s.bond := by unfold State.setFramer; rfl
@[simp] theorem State.setFramer_tm (s : State) (c : Nat) (v : Framer) : (s.setFramer c v).tm = s.tm := by unfold State.setFramer; rfl
@[simp] theorem State.setFramer_macs (s : State) (c : Nat) (v : Framer) : (s.setFramer c v).macs = s.macs := by unfold State.setFramer; rfl
@[simp] theorem State.setFramer_ciph (s : State) (c : Nat) (v : Framer) : (s.setFramer c v).ciph = s.ciph := by unfold State.setFramer; rfl
@[simp] theorem State.setFramer_ctl (s : State) (c : Nat) (v : Framer) : (s.setFramer c v).ctl = s.ctl := by unfold State.setFramer; rfl
@[simp] theorem State.setFramer_dma (s : State) (c : Nat) (v : Framer) : (s.setFramer c v).dma = s.dma := by unfold State.setFramer; rfl
@[simp] theorem State.setFramer_pmc (s : State) (c : Nat) (v : Framer) : (s.setFramer c v).pmc = s.pmc := by unfold State.setFramer; rfl

@[simp] theorem State.setPm_part (s : State) (c : Nat) (v : Pm) : (s.setPm c v).part = s.part := by unfold State.setPm; rfl
@[simp] theorem State.setPm_pending (s : State) (c : Nat) (v : Pm) : (s.setPm c v).pending = s.pending := by unfold State.setPm; rfl
@[simp] theorem State.setPm_fresh (s : State) (c : Nat) (v : Pm) : (s.setPm c v).fresh = s.fresh := by unfold State.setPm; rfl
@[simp] theorem State.setPm_regs (s : State) (c : Nat) (v : Pm) : (s.setPm c v).regs = s.regs := by unfold State.setPm; rfl
@[simp] theorem State.setPm_eff (s : State) (c : Nat) (v : Pm) : (s.setPm c v).eff = s.eff := by unfold State.setPm; rfl
@[simp] theorem State.setPm_mem (s : State) (c : Nat) (v : Pm) : (s.setPm c v).mem = s.mem := by unfold State.setPm; rfl
@[simp] theorem State.setPm_mesh (s : State) (c : Nat) (v : Pm) : (s.setPm c v).mesh = s.mesh := by unfold State.setPm; rfl
@[simp] theorem State.setPm_clk (s : State) (c : Nat) (v : Pm) : (s.setPm c v).clk = s.clk := by unfold State.setPm; rfl
@[simp] theorem State.setPm_time (s : State) (c : Nat) (v : Pm) : (s.setPm c v).time = s.time := by unfold State.setPm; rfl
@[simp] theorem State.setPm_frz (s : State) (c : Nat) (v : Pm) : (s.setPm c v).frz = s.frz := by unfold State.setPm; rfl
@[simp] theorem State.setPm_lanes (s : State) (c : Nat) (v : Pm) : (s.setPm c v).lanes = s.lanes := by unfold State.setPm; rfl
@[simp] theorem State.setPm_hw (s : State) (c : Nat) (v : Pm) : (s.setPm c v).hw = s.hw := by unfold State.setPm; rfl
@[simp] theorem State.setPm_pwr (s : State) (c : Nat) (v : Pm) : (s.setPm c v).pwr = s.pwr := by unfold State.setPm; rfl
@[simp] theorem State.setPm_dram (s : State) (c : Nat) (v : Pm) : (s.setPm c v).dram = s.dram := by unfold State.setPm; rfl
@[simp] theorem State.setPm_pipe (s : State) (c : Nat) (v : Pm) : (s.setPm c v).pipe = s.pipe := by unfold State.setPm; rfl
@[simp] theorem State.setPm_bond (s : State) (c : Nat) (v : Pm) : (s.setPm c v).bond = s.bond := by unfold State.setPm; rfl
@[simp] theorem State.setPm_tm (s : State) (c : Nat) (v : Pm) : (s.setPm c v).tm = s.tm := by unfold State.setPm; rfl
@[simp] theorem State.setPm_macs (s : State) (c : Nat) (v : Pm) : (s.setPm c v).macs = s.macs := by unfold State.setPm; rfl
@[simp] theorem State.setPm_ciph (s : State) (c : Nat) (v : Pm) : (s.setPm c v).ciph = s.ciph := by unfold State.setPm; rfl
@[simp] theorem State.setPm_ctl (s : State) (c : Nat) (v : Pm) : (s.setPm c v).ctl = s.ctl := by unfold State.setPm; rfl
@[simp] theorem State.setPm_dma (s : State) (c : Nat) (v : Pm) : (s.setPm c v).dma = s.dma := by unfold State.setPm; rfl
@[simp] theorem State.setPm_pmc (s : State) (c : Nat) (v : Pm) : (s.setPm c v).pmc = s.pmc := by unfold State.setPm; rfl

@[simp] theorem State.setGuard_part (s : State) (d b : Nat) (v : Guard) : (s.setGuard d b v).part = s.part := by unfold State.setGuard; rfl
@[simp] theorem State.setGuard_pending (s : State) (d b : Nat) (v : Guard) : (s.setGuard d b v).pending = s.pending := by unfold State.setGuard; rfl
@[simp] theorem State.setGuard_fresh (s : State) (d b : Nat) (v : Guard) : (s.setGuard d b v).fresh = s.fresh := by unfold State.setGuard; rfl
@[simp] theorem State.setGuard_regs (s : State) (d b : Nat) (v : Guard) : (s.setGuard d b v).regs = s.regs := by unfold State.setGuard; rfl
@[simp] theorem State.setGuard_eff (s : State) (d b : Nat) (v : Guard) : (s.setGuard d b v).eff = s.eff := by unfold State.setGuard; rfl
@[simp] theorem State.setGuard_mem (s : State) (d b : Nat) (v : Guard) : (s.setGuard d b v).mem = s.mem := by unfold State.setGuard; rfl
@[simp] theorem State.setGuard_mesh (s : State) (d b : Nat) (v : Guard) : (s.setGuard d b v).mesh = s.mesh := by unfold State.setGuard; rfl
@[simp] theorem State.setGuard_clk (s : State) (d b : Nat) (v : Guard) : (s.setGuard d b v).clk = s.clk := by unfold State.setGuard; rfl
@[simp] theorem State.setGuard_time (s : State) (d b : Nat) (v : Guard) : (s.setGuard d b v).time = s.time := by unfold State.setGuard; rfl
@[simp] theorem State.setGuard_frz (s : State) (d b : Nat) (v : Guard) : (s.setGuard d b v).frz = s.frz := by unfold State.setGuard; rfl
@[simp] theorem State.setGuard_lanes (s : State) (d b : Nat) (v : Guard) : (s.setGuard d b v).lanes = s.lanes := by unfold State.setGuard; rfl
@[simp] theorem State.setGuard_hw (s : State) (d b : Nat) (v : Guard) : (s.setGuard d b v).hw = s.hw := by unfold State.setGuard; rfl
@[simp] theorem State.setGuard_pwr (s : State) (d b : Nat) (v : Guard) : (s.setGuard d b v).pwr = s.pwr := by unfold State.setGuard; rfl
@[simp] theorem State.setGuard_pon (s : State) (d b : Nat) (v : Guard) : (s.setGuard d b v).pon = s.pon := by unfold State.setGuard; rfl
@[simp] theorem State.setGuard_pipe (s : State) (d b : Nat) (v : Guard) : (s.setGuard d b v).pipe = s.pipe := by unfold State.setGuard; rfl
@[simp] theorem State.setGuard_bond (s : State) (d b : Nat) (v : Guard) : (s.setGuard d b v).bond = s.bond := by unfold State.setGuard; rfl
@[simp] theorem State.setGuard_tm (s : State) (d b : Nat) (v : Guard) : (s.setGuard d b v).tm = s.tm := by unfold State.setGuard; rfl
@[simp] theorem State.setGuard_macs (s : State) (d b : Nat) (v : Guard) : (s.setGuard d b v).macs = s.macs := by unfold State.setGuard; rfl
@[simp] theorem State.setGuard_ciph (s : State) (d b : Nat) (v : Guard) : (s.setGuard d b v).ciph = s.ciph := by unfold State.setGuard; rfl
@[simp] theorem State.setGuard_ctl (s : State) (d b : Nat) (v : Guard) : (s.setGuard d b v).ctl = s.ctl := by unfold State.setGuard; rfl
@[simp] theorem State.setGuard_dma (s : State) (d b : Nat) (v : Guard) : (s.setGuard d b v).dma = s.dma := by unfold State.setGuard; rfl
@[simp] theorem State.setGuard_pmc (s : State) (d b : Nat) (v : Guard) : (s.setGuard d b v).pmc = s.pmc := by unfold State.setGuard; rfl

@[simp] theorem State.setThread_part (s : State) (d k : Nat) (v : Option Thread) : (s.setThread d k v).part = s.part := by unfold State.setThread; rfl
@[simp] theorem State.setThread_pending (s : State) (d k : Nat) (v : Option Thread) : (s.setThread d k v).pending = s.pending := by unfold State.setThread; rfl
@[simp] theorem State.setThread_fresh (s : State) (d k : Nat) (v : Option Thread) : (s.setThread d k v).fresh = s.fresh := by unfold State.setThread; rfl
@[simp] theorem State.setThread_regs (s : State) (d k : Nat) (v : Option Thread) : (s.setThread d k v).regs = s.regs := by unfold State.setThread; rfl
@[simp] theorem State.setThread_eff (s : State) (d k : Nat) (v : Option Thread) : (s.setThread d k v).eff = s.eff := by unfold State.setThread; rfl
@[simp] theorem State.setThread_mem (s : State) (d k : Nat) (v : Option Thread) : (s.setThread d k v).mem = s.mem := by unfold State.setThread; rfl
@[simp] theorem State.setThread_mesh (s : State) (d k : Nat) (v : Option Thread) : (s.setThread d k v).mesh = s.mesh := by unfold State.setThread; rfl
@[simp] theorem State.setThread_clk (s : State) (d k : Nat) (v : Option Thread) : (s.setThread d k v).clk = s.clk := by unfold State.setThread; rfl
@[simp] theorem State.setThread_time (s : State) (d k : Nat) (v : Option Thread) : (s.setThread d k v).time = s.time := by unfold State.setThread; rfl
@[simp] theorem State.setThread_frz (s : State) (d k : Nat) (v : Option Thread) : (s.setThread d k v).frz = s.frz := by unfold State.setThread; rfl
@[simp] theorem State.setThread_lanes (s : State) (d k : Nat) (v : Option Thread) : (s.setThread d k v).lanes = s.lanes := by unfold State.setThread; rfl
@[simp] theorem State.setThread_hw (s : State) (d k : Nat) (v : Option Thread) : (s.setThread d k v).hw = s.hw := by unfold State.setThread; rfl
@[simp] theorem State.setThread_pwr (s : State) (d k : Nat) (v : Option Thread) : (s.setThread d k v).pwr = s.pwr := by unfold State.setThread; rfl
@[simp] theorem State.setThread_pon (s : State) (d k : Nat) (v : Option Thread) : (s.setThread d k v).pon = s.pon := by unfold State.setThread; rfl
@[simp] theorem State.setThread_dram (s : State) (d k : Nat) (v : Option Thread) : (s.setThread d k v).dram = s.dram := by unfold State.setThread; rfl
@[simp] theorem State.setThread_bond (s : State) (d k : Nat) (v : Option Thread) : (s.setThread d k v).bond = s.bond := by unfold State.setThread; rfl
@[simp] theorem State.setThread_tm (s : State) (d k : Nat) (v : Option Thread) : (s.setThread d k v).tm = s.tm := by unfold State.setThread; rfl
@[simp] theorem State.setThread_macs (s : State) (d k : Nat) (v : Option Thread) : (s.setThread d k v).macs = s.macs := by unfold State.setThread; rfl
@[simp] theorem State.setThread_ciph (s : State) (d k : Nat) (v : Option Thread) : (s.setThread d k v).ciph = s.ciph := by unfold State.setThread; rfl
@[simp] theorem State.setThread_ctl (s : State) (d k : Nat) (v : Option Thread) : (s.setThread d k v).ctl = s.ctl := by unfold State.setThread; rfl
@[simp] theorem State.setThread_dma (s : State) (d k : Nat) (v : Option Thread) : (s.setThread d k v).dma = s.dma := by unfold State.setThread; rfl
@[simp] theorem State.setThread_pmc (s : State) (d k : Nat) (v : Option Thread) : (s.setThread d k v).pmc = s.pmc := by unfold State.setThread; rfl

@[simp] theorem State.setQueue_part (s : State) (d q : Nat) (v : Queue) : (s.setQueue d q v).part = s.part := by unfold State.setQueue; rfl
@[simp] theorem State.setQueue_pending (s : State) (d q : Nat) (v : Queue) : (s.setQueue d q v).pending = s.pending := by unfold State.setQueue; rfl
@[simp] theorem State.setQueue_fresh (s : State) (d q : Nat) (v : Queue) : (s.setQueue d q v).fresh = s.fresh := by unfold State.setQueue; rfl
@[simp] theorem State.setQueue_regs (s : State) (d q : Nat) (v : Queue) : (s.setQueue d q v).regs = s.regs := by unfold State.setQueue; rfl
@[simp] theorem State.setQueue_eff (s : State) (d q : Nat) (v : Queue) : (s.setQueue d q v).eff = s.eff := by unfold State.setQueue; rfl
@[simp] theorem State.setQueue_mem (s : State) (d q : Nat) (v : Queue) : (s.setQueue d q v).mem = s.mem := by unfold State.setQueue; rfl
@[simp] theorem State.setQueue_mesh (s : State) (d q : Nat) (v : Queue) : (s.setQueue d q v).mesh = s.mesh := by unfold State.setQueue; rfl
@[simp] theorem State.setQueue_clk (s : State) (d q : Nat) (v : Queue) : (s.setQueue d q v).clk = s.clk := by unfold State.setQueue; rfl
@[simp] theorem State.setQueue_time (s : State) (d q : Nat) (v : Queue) : (s.setQueue d q v).time = s.time := by unfold State.setQueue; rfl
@[simp] theorem State.setQueue_frz (s : State) (d q : Nat) (v : Queue) : (s.setQueue d q v).frz = s.frz := by unfold State.setQueue; rfl
@[simp] theorem State.setQueue_lanes (s : State) (d q : Nat) (v : Queue) : (s.setQueue d q v).lanes = s.lanes := by unfold State.setQueue; rfl
@[simp] theorem State.setQueue_hw (s : State) (d q : Nat) (v : Queue) : (s.setQueue d q v).hw = s.hw := by unfold State.setQueue; rfl
@[simp] theorem State.setQueue_pwr (s : State) (d q : Nat) (v : Queue) : (s.setQueue d q v).pwr = s.pwr := by unfold State.setQueue; rfl
@[simp] theorem State.setQueue_pon (s : State) (d q : Nat) (v : Queue) : (s.setQueue d q v).pon = s.pon := by unfold State.setQueue; rfl
@[simp] theorem State.setQueue_dram (s : State) (d q : Nat) (v : Queue) : (s.setQueue d q v).dram = s.dram := by unfold State.setQueue; rfl
@[simp] theorem State.setQueue_pipe (s : State) (d q : Nat) (v : Queue) : (s.setQueue d q v).pipe = s.pipe := by unfold State.setQueue; rfl
@[simp] theorem State.setQueue_bond (s : State) (d q : Nat) (v : Queue) : (s.setQueue d q v).bond = s.bond := by unfold State.setQueue; rfl
@[simp] theorem State.setQueue_macs (s : State) (d q : Nat) (v : Queue) : (s.setQueue d q v).macs = s.macs := by unfold State.setQueue; rfl
@[simp] theorem State.setQueue_ciph (s : State) (d q : Nat) (v : Queue) : (s.setQueue d q v).ciph = s.ciph := by unfold State.setQueue; rfl
@[simp] theorem State.setQueue_ctl (s : State) (d q : Nat) (v : Queue) : (s.setQueue d q v).ctl = s.ctl := by unfold State.setQueue; rfl
@[simp] theorem State.setQueue_dma (s : State) (d q : Nat) (v : Queue) : (s.setQueue d q v).dma = s.dma := by unfold State.setQueue; rfl
@[simp] theorem State.setQueue_pmc (s : State) (d q : Nat) (v : Queue) : (s.setQueue d q v).pmc = s.pmc := by unfold State.setQueue; rfl

@[simp] theorem State.setMac_part (s : State) (k : Nat) (v : Mac) : (s.setMac k v).part = s.part := by unfold State.setMac; rfl
@[simp] theorem State.setMac_pending (s : State) (k : Nat) (v : Mac) : (s.setMac k v).pending = s.pending := by unfold State.setMac; rfl
@[simp] theorem State.setMac_fresh (s : State) (k : Nat) (v : Mac) : (s.setMac k v).fresh = s.fresh := by unfold State.setMac; rfl
@[simp] theorem State.setMac_regs (s : State) (k : Nat) (v : Mac) : (s.setMac k v).regs = s.regs := by unfold State.setMac; rfl
@[simp] theorem State.setMac_eff (s : State) (k : Nat) (v : Mac) : (s.setMac k v).eff = s.eff := by unfold State.setMac; rfl
@[simp] theorem State.setMac_mem (s : State) (k : Nat) (v : Mac) : (s.setMac k v).mem = s.mem := by unfold State.setMac; rfl
@[simp] theorem State.setMac_mesh (s : State) (k : Nat) (v : Mac) : (s.setMac k v).mesh = s.mesh := by unfold State.setMac; rfl
@[simp] theorem State.setMac_clk (s : State) (k : Nat) (v : Mac) : (s.setMac k v).clk = s.clk := by unfold State.setMac; rfl
@[simp] theorem State.setMac_time (s : State) (k : Nat) (v : Mac) : (s.setMac k v).time = s.time := by unfold State.setMac; rfl
@[simp] theorem State.setMac_frz (s : State) (k : Nat) (v : Mac) : (s.setMac k v).frz = s.frz := by unfold State.setMac; rfl
@[simp] theorem State.setMac_lanes (s : State) (k : Nat) (v : Mac) : (s.setMac k v).lanes = s.lanes := by unfold State.setMac; rfl
@[simp] theorem State.setMac_hw (s : State) (k : Nat) (v : Mac) : (s.setMac k v).hw = s.hw := by unfold State.setMac; rfl
@[simp] theorem State.setMac_pwr (s : State) (k : Nat) (v : Mac) : (s.setMac k v).pwr = s.pwr := by unfold State.setMac; rfl
@[simp] theorem State.setMac_pon (s : State) (k : Nat) (v : Mac) : (s.setMac k v).pon = s.pon := by unfold State.setMac; rfl
@[simp] theorem State.setMac_dram (s : State) (k : Nat) (v : Mac) : (s.setMac k v).dram = s.dram := by unfold State.setMac; rfl
@[simp] theorem State.setMac_pipe (s : State) (k : Nat) (v : Mac) : (s.setMac k v).pipe = s.pipe := by unfold State.setMac; rfl
@[simp] theorem State.setMac_bond (s : State) (k : Nat) (v : Mac) : (s.setMac k v).bond = s.bond := by unfold State.setMac; rfl
@[simp] theorem State.setMac_tm (s : State) (k : Nat) (v : Mac) : (s.setMac k v).tm = s.tm := by unfold State.setMac; rfl
@[simp] theorem State.setMac_ciph (s : State) (k : Nat) (v : Mac) : (s.setMac k v).ciph = s.ciph := by unfold State.setMac; rfl
@[simp] theorem State.setMac_ctl (s : State) (k : Nat) (v : Mac) : (s.setMac k v).ctl = s.ctl := by unfold State.setMac; rfl
@[simp] theorem State.setMac_dma (s : State) (k : Nat) (v : Mac) : (s.setMac k v).dma = s.dma := by unfold State.setMac; rfl
@[simp] theorem State.setMac_pmc (s : State) (k : Nat) (v : Mac) : (s.setMac k v).pmc = s.pmc := by unfold State.setMac; rfl

@[simp] theorem State.setCore_part (s : State) (n : Nat) (v : Core) : (s.setCore n v).part = s.part := by unfold State.setCore; rfl
@[simp] theorem State.setCore_pending (s : State) (n : Nat) (v : Core) : (s.setCore n v).pending = s.pending := by unfold State.setCore; rfl
@[simp] theorem State.setCore_fresh (s : State) (n : Nat) (v : Core) : (s.setCore n v).fresh = s.fresh := by unfold State.setCore; rfl
@[simp] theorem State.setCore_regs (s : State) (n : Nat) (v : Core) : (s.setCore n v).regs = s.regs := by unfold State.setCore; rfl
@[simp] theorem State.setCore_eff (s : State) (n : Nat) (v : Core) : (s.setCore n v).eff = s.eff := by unfold State.setCore; rfl
@[simp] theorem State.setCore_mem (s : State) (n : Nat) (v : Core) : (s.setCore n v).mem = s.mem := by unfold State.setCore; rfl
@[simp] theorem State.setCore_mesh (s : State) (n : Nat) (v : Core) : (s.setCore n v).mesh = s.mesh := by unfold State.setCore; rfl
@[simp] theorem State.setCore_clk (s : State) (n : Nat) (v : Core) : (s.setCore n v).clk = s.clk := by unfold State.setCore; rfl
@[simp] theorem State.setCore_time (s : State) (n : Nat) (v : Core) : (s.setCore n v).time = s.time := by unfold State.setCore; rfl
@[simp] theorem State.setCore_frz (s : State) (n : Nat) (v : Core) : (s.setCore n v).frz = s.frz := by unfold State.setCore; rfl
@[simp] theorem State.setCore_lanes (s : State) (n : Nat) (v : Core) : (s.setCore n v).lanes = s.lanes := by unfold State.setCore; rfl
@[simp] theorem State.setCore_hw (s : State) (n : Nat) (v : Core) : (s.setCore n v).hw = s.hw := by unfold State.setCore; rfl
@[simp] theorem State.setCore_pwr (s : State) (n : Nat) (v : Core) : (s.setCore n v).pwr = s.pwr := by unfold State.setCore; rfl
@[simp] theorem State.setCore_pon (s : State) (n : Nat) (v : Core) : (s.setCore n v).pon = s.pon := by unfold State.setCore; rfl
@[simp] theorem State.setCore_dram (s : State) (n : Nat) (v : Core) : (s.setCore n v).dram = s.dram := by unfold State.setCore; rfl
@[simp] theorem State.setCore_pipe (s : State) (n : Nat) (v : Core) : (s.setCore n v).pipe = s.pipe := by unfold State.setCore; rfl
@[simp] theorem State.setCore_bond (s : State) (n : Nat) (v : Core) : (s.setCore n v).bond = s.bond := by unfold State.setCore; rfl
@[simp] theorem State.setCore_tm (s : State) (n : Nat) (v : Core) : (s.setCore n v).tm = s.tm := by unfold State.setCore; rfl
@[simp] theorem State.setCore_macs (s : State) (n : Nat) (v : Core) : (s.setCore n v).macs = s.macs := by unfold State.setCore; rfl
@[simp] theorem State.setCore_ciph (s : State) (n : Nat) (v : Core) : (s.setCore n v).ciph = s.ciph := by unfold State.setCore; rfl
@[simp] theorem State.setCore_dma (s : State) (n : Nat) (v : Core) : (s.setCore n v).dma = s.dma := by unfold State.setCore; rfl
@[simp] theorem State.setCore_pmc (s : State) (n : Nat) (v : Core) : (s.setCore n v).pmc = s.pmc := by unfold State.setCore; rfl

@[simp] theorem State.setDma_part (s : State) (d ch : Nat) (v : DmaCh) : (s.setDma d ch v).part = s.part := by unfold State.setDma; rfl
@[simp] theorem State.setDma_pending (s : State) (d ch : Nat) (v : DmaCh) : (s.setDma d ch v).pending = s.pending := by unfold State.setDma; rfl
@[simp] theorem State.setDma_fresh (s : State) (d ch : Nat) (v : DmaCh) : (s.setDma d ch v).fresh = s.fresh := by unfold State.setDma; rfl
@[simp] theorem State.setDma_regs (s : State) (d ch : Nat) (v : DmaCh) : (s.setDma d ch v).regs = s.regs := by unfold State.setDma; rfl
@[simp] theorem State.setDma_eff (s : State) (d ch : Nat) (v : DmaCh) : (s.setDma d ch v).eff = s.eff := by unfold State.setDma; rfl
@[simp] theorem State.setDma_mem (s : State) (d ch : Nat) (v : DmaCh) : (s.setDma d ch v).mem = s.mem := by unfold State.setDma; rfl
@[simp] theorem State.setDma_mesh (s : State) (d ch : Nat) (v : DmaCh) : (s.setDma d ch v).mesh = s.mesh := by unfold State.setDma; rfl
@[simp] theorem State.setDma_clk (s : State) (d ch : Nat) (v : DmaCh) : (s.setDma d ch v).clk = s.clk := by unfold State.setDma; rfl
@[simp] theorem State.setDma_time (s : State) (d ch : Nat) (v : DmaCh) : (s.setDma d ch v).time = s.time := by unfold State.setDma; rfl
@[simp] theorem State.setDma_frz (s : State) (d ch : Nat) (v : DmaCh) : (s.setDma d ch v).frz = s.frz := by unfold State.setDma; rfl
@[simp] theorem State.setDma_lanes (s : State) (d ch : Nat) (v : DmaCh) : (s.setDma d ch v).lanes = s.lanes := by unfold State.setDma; rfl
@[simp] theorem State.setDma_hw (s : State) (d ch : Nat) (v : DmaCh) : (s.setDma d ch v).hw = s.hw := by unfold State.setDma; rfl
@[simp] theorem State.setDma_pwr (s : State) (d ch : Nat) (v : DmaCh) : (s.setDma d ch v).pwr = s.pwr := by unfold State.setDma; rfl
@[simp] theorem State.setDma_pon (s : State) (d ch : Nat) (v : DmaCh) : (s.setDma d ch v).pon = s.pon := by unfold State.setDma; rfl
@[simp] theorem State.setDma_dram (s : State) (d ch : Nat) (v : DmaCh) : (s.setDma d ch v).dram = s.dram := by unfold State.setDma; rfl
@[simp] theorem State.setDma_pipe (s : State) (d ch : Nat) (v : DmaCh) : (s.setDma d ch v).pipe = s.pipe := by unfold State.setDma; rfl
@[simp] theorem State.setDma_bond (s : State) (d ch : Nat) (v : DmaCh) : (s.setDma d ch v).bond = s.bond := by unfold State.setDma; rfl
@[simp] theorem State.setDma_tm (s : State) (d ch : Nat) (v : DmaCh) : (s.setDma d ch v).tm = s.tm := by unfold State.setDma; rfl
@[simp] theorem State.setDma_macs (s : State) (d ch : Nat) (v : DmaCh) : (s.setDma d ch v).macs = s.macs := by unfold State.setDma; rfl
@[simp] theorem State.setDma_ciph (s : State) (d ch : Nat) (v : DmaCh) : (s.setDma d ch v).ciph = s.ciph := by unfold State.setDma; rfl
@[simp] theorem State.setDma_ctl (s : State) (d ch : Nat) (v : DmaCh) : (s.setDma d ch v).ctl = s.ctl := by unfold State.setDma; rfl
@[simp] theorem State.setDma_pmc (s : State) (d ch : Nat) (v : DmaCh) : (s.setDma d ch v).pmc = s.pmc := by unfold State.setDma; rfl

@[simp] theorem State.setHw_hw (s : State) (f : Hw → Hw) : (s.setHw f).hw = f s.hw := by unfold State.setHw; rfl
@[simp] theorem State.setPwr_pwr (s : State) (f : Power → Power) : (s.setPwr f).pwr = f s.pwr := by unfold State.setPwr; rfl

@[simp] theorem State.conv_setConv_same (s : State) (c : Nat) (v : Conv) : (s.setConv c v).conv c = v := by
  unfold State.setConv State.conv; exact Tab.get_set_same _ _ _ _
theorem State.conv_setConv_ne (s : State) {c j : Nat} (v : Conv) (h : j ≠ c) : (s.setConv c v).conv j = s.conv j := by
  unfold State.setConv State.conv; exact Tab.get_set_ne _ _ _ _ h
@[simp] theorem State.framer_setFramer_same (s : State) (c : Nat) (v : Framer) : (s.setFramer c v).framer c = v := by
  unfold State.setFramer State.framer; exact Tab.get_set_same _ _ _ _
theorem State.framer_setFramer_ne (s : State) {c j : Nat} (v : Framer) (h : j ≠ c) : (s.setFramer c v).framer j = s.framer j := by
  unfold State.setFramer State.framer; exact Tab.get_set_ne _ _ _ _ h
@[simp] theorem State.pm_setPm_same (s : State) (c : Nat) (v : Pm) : (s.setPm c v).pm c = v := by
  unfold State.setPm State.pm; exact Tab.get_set_same _ _ _ _
theorem State.pm_setPm_ne (s : State) {c j : Nat} (v : Pm) (h : j ≠ c) : (s.setPm c v).pm j = s.pm j := by
  unfold State.setPm State.pm; exact Tab.get_set_ne _ _ _ _ h
@[simp] theorem State.mac_setMac_same (s : State) (k : Nat) (v : Mac) : (s.setMac k v).mac k = v := by
  unfold State.setMac State.mac; exact Tab.get_set_same _ _ _ _
theorem State.mac_setMac_ne (s : State) {k j : Nat} (v : Mac) (h : j ≠ k) : (s.setMac k v).mac j = s.mac j := by
  unfold State.setMac State.mac; exact Tab.get_set_ne _ _ _ _ h
@[simp] theorem State.core_setCore_same (s : State) (n : Nat) (v : Core) : (s.setCore n v).core n = v := by
  unfold State.setCore State.core; exact Tab.get_set_same _ _ _ _
theorem State.core_setCore_ne (s : State) {n j : Nat} (v : Core) (h : j ≠ n) : (s.setCore n v).core j = s.core j := by
  unfold State.setCore State.core; exact Tab.get_set_ne _ _ _ _ h
@[simp] theorem State.guard_setGuard_same (s : State) (d b : Nat) (v : Guard) : (s.setGuard d b v).guard d b = v := by
  unfold State.setGuard State.guard; exact Tab.get_set_same _ _ _ _
theorem State.guard_setGuard_ne (s : State) {d b e j : Nat} (v : Guard) (h : e * 2 + j ≠ d * 2 + b) :
    (s.setGuard d b v).guard e j = s.guard e j := by
  unfold State.setGuard State.guard; exact Tab.get_set_ne _ _ _ _ h
@[simp] theorem State.queue_setQueue_same (s : State) (d q : Nat) (v : Queue) : (s.setQueue d q v).queue d q = v := by
  unfold State.setQueue State.queue; exact Tab.get_set_same _ _ _ _
theorem State.queue_setQueue_ne (s : State) {d q e j : Nat} (v : Queue) (h : e * 2 ^ 18 + j ≠ d * 2 ^ 18 + q) :
    (s.setQueue d q v).queue e j = s.queue e j := by
  unfold State.setQueue State.queue; exact Tab.get_set_ne _ _ _ _ h
@[simp] theorem State.dmaCh_setDma_same (s : State) (d ch : Nat) (v : DmaCh) : (s.setDma d ch v).dmaCh d ch = v := by
  unfold State.setDma State.dmaCh; exact Tab.get_set_same _ _ _ _
theorem State.dmaCh_setDma_ne (s : State) {d ch e j : Nat} (v : DmaCh) (h : e * 32 + j ≠ d * 32 + ch) :
    (s.setDma d ch v).dmaCh e j = s.dmaCh e j := by
  unfold State.setDma State.dmaCh; exact Tab.get_set_ne _ _ _ _ h
@[simp] theorem State.thread_setThread_same (s : State) (d k : Nat) (v : Option Thread) : (s.setThread d k v).thread d k = v := by
  unfold State.setThread State.thread; exact Tab.get_set_same _ _ _ _
theorem State.thread_setThread_ne (s : State) {d k e j : Nat} (v : Option Thread) (h : threadKey e j ≠ threadKey d k) :
    (s.setThread d k v).thread e j = s.thread e j := by
  unfold State.setThread State.thread; exact Tab.get_set_ne _ _ _ _ h

/-! ## Drawing a free value counts up `fresh` and changes nothing else -/

@[simp] theorem State.draw_part {α : Type} (s : State) (f : Nat → α) : (s.draw f).2.part = s.part := by unfold State.draw; rfl
@[simp] theorem State.draw_pending {α : Type} (s : State) (f : Nat → α) : (s.draw f).2.pending = s.pending := by unfold State.draw; rfl
@[simp] theorem State.draw_regs {α : Type} (s : State) (f : Nat → α) : (s.draw f).2.regs = s.regs := by unfold State.draw; rfl
@[simp] theorem State.draw_eff {α : Type} (s : State) (f : Nat → α) : (s.draw f).2.eff = s.eff := by unfold State.draw; rfl
@[simp] theorem State.draw_mem {α : Type} (s : State) (f : Nat → α) : (s.draw f).2.mem = s.mem := by unfold State.draw; rfl
@[simp] theorem State.draw_mesh {α : Type} (s : State) (f : Nat → α) : (s.draw f).2.mesh = s.mesh := by unfold State.draw; rfl
@[simp] theorem State.draw_clk {α : Type} (s : State) (f : Nat → α) : (s.draw f).2.clk = s.clk := by unfold State.draw; rfl
@[simp] theorem State.draw_time {α : Type} (s : State) (f : Nat → α) : (s.draw f).2.time = s.time := by unfold State.draw; rfl
@[simp] theorem State.draw_frz {α : Type} (s : State) (f : Nat → α) : (s.draw f).2.frz = s.frz := by unfold State.draw; rfl
@[simp] theorem State.draw_lanes {α : Type} (s : State) (f : Nat → α) : (s.draw f).2.lanes = s.lanes := by unfold State.draw; rfl
@[simp] theorem State.draw_hw {α : Type} (s : State) (f : Nat → α) : (s.draw f).2.hw = s.hw := by unfold State.draw; rfl
@[simp] theorem State.draw_pwr {α : Type} (s : State) (f : Nat → α) : (s.draw f).2.pwr = s.pwr := by unfold State.draw; rfl
@[simp] theorem State.draw_pon {α : Type} (s : State) (f : Nat → α) : (s.draw f).2.pon = s.pon := by unfold State.draw; rfl
@[simp] theorem State.draw_dram {α : Type} (s : State) (f : Nat → α) : (s.draw f).2.dram = s.dram := by unfold State.draw; rfl
@[simp] theorem State.draw_pipe {α : Type} (s : State) (f : Nat → α) : (s.draw f).2.pipe = s.pipe := by unfold State.draw; rfl
@[simp] theorem State.draw_bond {α : Type} (s : State) (f : Nat → α) : (s.draw f).2.bond = s.bond := by unfold State.draw; rfl
@[simp] theorem State.draw_tm {α : Type} (s : State) (f : Nat → α) : (s.draw f).2.tm = s.tm := by unfold State.draw; rfl
@[simp] theorem State.draw_macs {α : Type} (s : State) (f : Nat → α) : (s.draw f).2.macs = s.macs := by unfold State.draw; rfl
@[simp] theorem State.draw_ciph {α : Type} (s : State) (f : Nat → α) : (s.draw f).2.ciph = s.ciph := by unfold State.draw; rfl
@[simp] theorem State.draw_ctl {α : Type} (s : State) (f : Nat → α) : (s.draw f).2.ctl = s.ctl := by unfold State.draw; rfl
@[simp] theorem State.draw_dma {α : Type} (s : State) (f : Nat → α) : (s.draw f).2.dma = s.dma := by unfold State.draw; rfl
@[simp] theorem State.draw_pmc {α : Type} (s : State) (f : Nat → α) : (s.draw f).2.pmc = s.pmc := by unfold State.draw; rfl
@[simp] theorem State.draw_fresh {α : Type} (s : State) (f : Nat → α) : (s.draw f).2.fresh = s.fresh + 1 := by unfold State.draw; rfl
@[simp] theorem State.draw_value {α : Type} (s : State) (f : Nat → α) : (s.draw f).1 = f s.fresh := by unfold State.draw; rfl

end Sys2Proof.Machine
end

