-- ==== Sys2Proof/Machine/Package.lean ====
section
/-!
DEFINITION. The package and its ball map (18_package_and_electrical.md, R711 to R717, R724): what stands at each site, in which
lane cell a lane lies, which balls a part leaves unconnected, and the level that a pull gives an undriven input. No command
moves a ball; the levels of pins that commands change stand in State.
-/
namespace Sys2Proof.Machine

/-- The 19 letters of row names (R710). -/
def rowLetters : List Char := "ABCDEFGHJKLMNPTUVWY".toList

/-- The name of row i, 1 to 75 (R710). -/
def rowName (i : Nat) : String :=
  let c := rowLetters.getD ((i - 1) % 19) 'A'
  match (i - 1) / 19 with
  | 0 => String.ofList [c]
  | n + 1 => String.ofList [rowLetters.getD n 'A', c]

/-- A serial lane that has balls (R712). -/
inductive BallLane where
  | pon (c : Nat)
  | mgt
  | sub (p : Nat)
  deriving DecidableEq, Repr

/-- The supplies of Table 18.6, and ground. -/
inductive Rail where
  | vss | core | sram | sd09 | sd12 | dram | io18 | io33 | aon
  deriving DecidableEq, Repr

/-- What stands at a site (R711): a lane signal (transmit or receive, P or N), a signal of the CMOS region by its place in the
order of Table 18.3, a supply, a MECH ball, or no ball. -/
inductive Ball where
  | lane (l : BallLane) (tx pos : Bool)
  | cmos (k : Nat)
  | supply (r : Rail)
  | mech
  | none_
  deriving DecidableEq, Repr

/-- The ball of a lane cell at a row and column of the cell, 0 to 2 and 0 to 3 (R712). -/
def cellBall (l : BallLane) (r c : Nat) : Ball :=
  if r ≠ 1 && (c = 1 || c = 2) then .lane l (r == 0) (c == 1) else .supply .vss

/-- The first row and column of a lane's cell (Table 18.2, R713). -/
def BallLane.cell : BallLane → Nat × Nat
  | .pon c => (1, 4 * c + 1)
  | .mgt => (1, 17)
  | .sub p => (64 + 3 * (p % 16 / 4), 16 * (p / 16) + 4 * (p % 16 % 4) + 1)

/-- The order of a site in the CMOS region, from 0 (R714). -/
def cmosOrder (i j : Nat) : Nat := if i ≤ 3 then (i - 1) * 55 + (j - 21) else 165 + (i - 4) * 75 + (j - 1)

/-- The signals of the CMOS region (Table 18.3). -/
def cmosSignals : Nat := 359

/-- The net of the supply region (Table 18.4). -/
def supplyNet (i j : Nat) : Rail :=
  match i with
  | 8 | 10 | 12 | 14 => .core
  | 16 => .sram
  | 17 => .sd09
  | 19 => if j ≤ 40 then .sd12 else .dram
  | 20 => if j ≤ 24 then .io18 else if j ≤ 40 then .io33 else if j ≤ 44 then .aon else .vss
  | _ => .vss

/-- What stands at site (i, j), rows and columns from 1 to 75 (R711, Table 18.2). -/
def site (i j : Nat) : Ball :=
  if i = 0 || 75 < i || j = 0 || 75 < j then .none_
  else if i ≤ 3 && j ≤ 20 then cellBall (if j ≤ 16 then .pon ((j - 1) / 4) else .mgt) (i - 1) ((j - 1) % 4)
  else if i ≤ 6 then (if cmosOrder i j < cmosSignals then .cmos (cmosOrder i j) else .supply .vss)
  else if i ≤ 20 then .supply (supplyNet i j)
  else if i ≤ 45 then (if j ≤ 5 || 71 ≤ j then .mech else .none_)
  else if i ≤ 63 || 64 < j then .mech
  else cellBall (.sub (16 * ((j - 1) / 16) + 4 * ((i - 64) / 3) + (j - 1) % 16 / 4)) ((i - 64) % 3) ((j - 1) % 4)

/-- The bank of a CMOS ball (Table 18.3): it is supplied by VDD_IO33 or VDD_IO18, or has none. -/
inductive Bank where
  | io33 | io18 | none_
  deriving DecidableEq, Repr

/-- The type of a ball of the CMOS region (Table 18.3). -/
inductive PadType where
  | input | output | openDrain | bidirectional | differential | analogue | crystal | reserved
  deriving DecidableEq, Repr

/-- A group of Table 18.3: how many instances it has, the signals of each with their types, its bank, and which instances a part connects
(R717). GPIO[16] to GPIO[31] stand in the other bank (`cmosBank`). -/
structure CmosGroup where
  name : String
  count : Nat
  signals : List (String × PadType)
  bank : Bank
  on6440 : Nat
  on6420 : Nat
  deriving DecidableEq, Repr

/-- Table 18.3 in site order, with Table 18.5: the instances from the named number on are unconnected on the part. CAL_RES, of
which dies 1, 4 and 5, or 1, 3, 4 and 5, have none, is told apart below. -/
def cmosGroups : List CmosGroup :=
  [⟨"Optics control", 4, [("TX_BEN", .output), ("SD", .input), ("LASER_DIS", .output)], .io33, 2, 2⟩,
   ⟨"Optics I2C", 2, [("OPT_SCL", .openDrain), ("OPT_SDA", .openDrain)], .io33, 1, 1⟩,
   ⟨"PON reference", 2, [("REFCLK_PON_P", .differential), ("REFCLK_PON_N", .differential)], .none_, 1, 1⟩,
   ⟨"Subscriber reference", 4, [("REFCLK_SUB_P", .differential), ("REFCLK_SUB_N", .differential)], .none_, 2, 1⟩,
   ⟨"Calibration", 6, [("CAL_RES", .analogue)], .none_, 6, 6⟩,
   ⟨"MDIO", 16, [("MDC", .output), ("MDIO", .bidirectional)], .io33, 8, 4⟩,
   ⟨"Cage I2C", 64, [("CAGE_SCL", .openDrain), ("CAGE_SDA", .openDrain)], .io33, 32, 16⟩,
   ⟨"Port LEDs", 4, [("LED_CLK", .output), ("LED_DATA", .output), ("LED_LATCH", .output)], .io33, 2, 1⟩,
   ⟨"Serial NOR", 1, [("FL_SCK", .output), ("FL_CS_N", .output), ("FL_IO0", .bidirectional), ("FL_IO1", .bidirectional),
     ("FL_IO2", .bidirectional), ("FL_IO3", .bidirectional)], .io18, 1, 1⟩,
   ⟨"Rails", 24, [("RAIL_EN", .output), ("RAIL_PG", .input)], .io18, 24, 24⟩,
   ⟨"Headwater control", 1, [("PMB_SCL", .openDrain), ("PMB_SDA", .openDrain), ("WAKE_N", .input), ("RESET_N", .input), ("FREEZE_N", .input)],
     .io18, 1, 1⟩,
   ⟨"TAP", 1, [("TCK", .input), ("TMS", .input), ("TDI", .input), ("TDO", .output), ("TRST_N", .input)], .io18, 1, 1⟩,
   ⟨"Console", 1, [("UART_TX", .output), ("UART_RX", .input)], .io18, 1, 1⟩, ⟨"GPIO", 32, [("GPIO", .bidirectional)], .io18, 32, 32⟩,
   ⟨"Time", 1, [("1PPS_IN", .input), ("1PPS_OUT", .output), ("TOD_IN", .input), ("TOD_OUT", .output)], .io33, 1, 1⟩,
   ⟨"Headwater clocks", 1, [("REFCLK_SYS", .input), ("XTAL_IN", .crystal), ("XTAL_OUT", .crystal)], .io18, 1, 1⟩,
   ⟨"Test mode", 1, [("TEST_MODE", .input)], .io18, 1, 1⟩, ⟨"Test", 47, [("TEST", .reserved)], .io18, 47, 47⟩]

/-- The group, instance and signal at place k of the CMOS region (R714). -/
def cmosAt : List CmosGroup → Nat → Option (CmosGroup × Nat × String × PadType)
  | [], _ => none
  | g :: t, k =>
    let n := g.signals.length
    if k < g.count * n then some (g, k / n, g.signals.getD (k % n) ("", .reserved)) else cmosAt t (k - g.count * n)

/-- The bank of the ball at place k of the CMOS region: GPIO[16] to GPIO[31] are IO33 balls. -/
def cmosBank (k : Nat) : Bank :=
  match cmosAt cmosGroups k with
  | none => .none_
  | some (g, i, _) => if g.name = "GPIO" && 16 ≤ i then .io33 else g.bank

/-- A ball connects to a circuit of the part (R715 to R717, Table 18.5): no MECH ball does, and of the test balls TEST_MODE
alone. -/
def Part.connects (p : Part) : Ball → Bool
  | .none_ | .mech => false
  | .supply r => r != .dram || p != .zg6420
  | .lane .mgt _ _ => true
  | .lane (.pon c) _ _ => present p (c / 2)
  | .lane (.sub q) _ _ => present p (q / 16 + 2)
  | .cmos k =>
    match cmosAt cmosGroups k with
    | none => false
    | some (g, i, _) =>
      if g.name = "Calibration" then present p i
      else if g.name = "Test" then false
      else match p with
        | .zg6480 => true
        | .zg6440 => i < g.on6440
        | .zg6420 => i < g.on6420

/-- An input with an analogue glitch filter (R724, Table 18.9). -/
def filtered (signal : String) : Bool := ["RESET_N", "WAKE_N", "FREEZE_N", "TRST_N", "RAIL_PG"].contains signal

/-- What a glitch filter does with a pulse of some picoseconds (R724): one shorter than 10 ns is rejected, one longer than 30 ns passes, and
between the two the rule does not say. -/
def filterPasses (signal : String) (ps : Nat) : Option Bool :=
  if !filtered signal then some true else if ps < 10000 then some false else if 30000 < ps then some true else none

/-- The level that a pull gives an undriven input (R724, Table 18.9): none where the input has no pull. -/
def pullLevel (signal : String) : Option Bool :=
  if ["RESET_N", "WAKE_N", "FREEZE_N", "TMS", "TDI", "TOD_IN", "UART_RX"].contains signal then some true
  else if ["TRST_N", "TCK", "SD", "TEST_MODE", "GPIO", "RAIL_PG", "1PPS_IN"].contains signal then some false
  else none

end Sys2Proof.Machine
end

