-- ==== Sys2Proof/Machine/Paths.lean ====
section
/-!
DEFINITION. The path counts of 20_path_timing.md (R750 to R757, Tables 20.1 to 20.3): what the manual counts on each path. A step
of the model places an event in the order of commands; these counts say how far apart the hardware puts them (log 82).
-/
namespace Sys2Proof.Machine

/-- The clock domains of a path. -/
inductive PathClock where
  | mc | cc | rc | sw | lw | uw | tc | ac
  deriving DecidableEq, Repr

/-- A term of a path: whole cycles of a domain, a queue or synchroniser crossing into a domain, or bits of a lane. -/
inductive PathTerm where
  | cycles (n : Nat) (c : PathClock)
  | queue (into : PathClock)
  | sync (into : PathClock)
  | bits (n : Nat)
  deriving DecidableEq, Repr

/-- The paths of Table 20.1, with what their counts depend on. -/
inductive Path where
  | receive
  | decode (word : Nat)
  | toCipher
  | ponToDispatch
  | skew (delay : Nat)
  | skewToReorder (otherDie : Bool)
  | reorderToDispatch (otherDie : Bool)
  | injection
  | dispatch
  | enqueue (hops : Nat)
  | multicast (copy hops : Nat)
  | recirculation
  | spillway
  | decision
  | fetch (packetSram : Bool)
  | transmit (csL4 macsec : Bool) (length : Nat)
  | grantParse
  | burstLaunch (fillLead : Nat)
  | burstToBalls (shift : Nat)
  | reservoirRead
  | refusedAtRouter
  | refusedAtTarget (hops : Nat)
  | interrupt (hops : Nat) (dieOne : Bool)
  | exceptionEntry
  | freeze
  | hop
  deriving DecidableEq, Repr

/-- The mc of some hops (R22, R142). -/
def hopTerms (n : Nat) : List PathTerm := if n = 0 then [] else [.cycles (22 * n) .mc]

/-- The count of a path (Table 20.1, R751, R752, R754). -/
def Path.terms : Path → List PathTerm
  | .receive => [.cycles 12 .sw, .queue .mc, .cycles 18 .mc]
  | .decode k => [.cycles (120 + k) .lw]
  | .toCipher => [.cycles 8 .lw, .cycles 4 .lw]
  | .ponToDispatch => [.queue .mc, .cycles 14 .mc]
  | .skew d => [.cycles (d + 2) .lw]
  | .skewToReorder o => .queue .mc :: hopTerms (if o then 1 else 0)
  | .reorderToDispatch o => [.cycles 6 .mc, .cycles 10 .mc] ++ hopTerms (if o then 1 else 0)
  | .injection => [.cycles 6 .mc]
  | .dispatch => [.cycles 4 .mc]
  | .enqueue h => .cycles 20 .mc :: hopTerms h
  | .multicast j h => [.cycles 12 .mc, .cycles 4 .mc, .cycles j .mc, .cycles 16 .mc] ++ hopTerms h
  | .recirculation => [.cycles 16 .mc, .cycles 4 .mc]
  | .spillway => [.cycles 8 .mc]
  | .decision => [.cycles 12 .mc]
  | .fetch true => [.cycles 14 .mc, .cycles 16 .mc, .queue .sw]
  | .fetch false => [.cycles 14 .mc, .cycles 22 .mc, .queue .rc, .cycles 96 .rc, .queue .mc, .cycles 22 .mc, .queue .sw]
  | .transmit cs ms l =>
    (if cs then [.cycles ((l + 63) / 64) .mc] else []) ++ (if ms then [.cycles 8 .sw] else []) ++ [.cycles 10 .sw]
  | .grantParse => [.cycles 40 .lw]
  | .burstLaunch n => [.cycles (n - 12) .uw]
  | .burstToBalls n => [.cycles 12 .uw, .bits n]
  | .reservoirRead => [.cycles 22 .mc, .queue .rc, .cycles 96 .rc, .queue .mc, .cycles 22 .mc]
  | .refusedAtRouter => [.cycles 12 .mc]
  | .refusedAtTarget h => hopTerms h ++ [.cycles 12 .mc] ++ hopTerms h
  | .interrupt h o => hopTerms h ++ [.cycles 8 .mc] ++ hopTerms (if o then 1 else 0) ++ [.sync .cc]
  | .exceptionEntry => [.cycles 6 .cc]
  | .freeze => [.sync .mc, .cycles 12 .mc]
  | .hop => [.cycles 22 .mc]

/-- The latency of a route is the sum of the paths it passes, each beginning where the one before ends (R750). -/
def routeTerms (l : List Path) : List PathTerm := l.flatMap Path.terms

/-- The whole cycles of a domain on a route. -/
def cyclesOn (c : PathClock) (l : List PathTerm) : Nat :=
  l.foldl (fun n t => match t with
    | .cycles k d => if d = c then n + k else n
    | _ => n) 0

end Sys2Proof.Machine
end

