-- ==== Sys2Proof/Tests/Slice0.lean ====
section
/-!
SUPPORT. Small checks: an ill-formed command for each test of Instr.wf, single steps whose results the manual gives, and for
each statement with hypotheses a concrete state and operands that meet them.
-/
namespace Sys2Proof.Tests
open Sys2Proof.Machine Sys2Proof.Machine.Reg

set_option maxRecDepth 100000
set_option exponentiation.threshold 1024

/-- The state after cold reset, once the rails are up and every die has left reset with its PLLs locked. -/
def r0 : State :=
  (State.reset.setHw fun h => { h with railsUp := true, railStep := none, released := 0xFF }).put CLK_STATUS_DIE_PLL d0 0xFF
/-- Every link of the part is up. -/
def allLinks : State := (List.range 25).foldl (fun (s : State) l => s.putLink DLINK_STATUS_LOCKED l 1) r0
/-- Every lane of link l has lock. -/
def lanesUp (l : Nat) : State :=
  (List.range (linkWidth l)).foldl (fun (s : State) k => (s.setLane l false k true).setLane l true k true) r0

/-- The issue slot of thread 5 of course die 2. -/
def x0 : Issue := ⟨2, 5, .clean, .clean, false⟩
/-- A thread with 32 registers, g1 = 7, g2 = 4, and a budget of 40 slots. -/
def u0 : Thread :=
  { g := [0, 7, 4] ++ List.replicate 29 0, h := List.replicate 256 1, m := List.replicate 16 0, flags := 0, pc := 0, budget := 40
    used := 0, mirrors := 0, bytes := [1, 2, 3], buf := 1, src := 0, first := 0, hold := none, entries := [] }
/-- Thread x of a running part carries u and stands at word w. -/
def tileAt (x : Issue) (u : Thread) (w : Word) : State :=
  let s := r0.setThread x.die.val x.thread.val (some u)
  { s with pipe := { s.pipe with imem := Tab.set s.pipe.imem none (x.die.val * 16384 + u.pc) (some w) } }
/-- The issue slot of thread 0 of line die 0. -/
def x1 : Issue := ⟨0, 0, .clean, .clean, false⟩
/-- A thread whose g1 and g2 address the first core's memory on line die 0. -/
def um : Thread := { u0 with g := [0, 1, 0x10] ++ List.replicate 29 0 }
/-- A thread whose g4 names queue 3 of die 2. -/
def uf : Thread := { u0 with g := [0, 7, 4, 0, 0x20000003] ++ List.replicate 27 0 }
/-- The same, with a default action that names queue 3 of die 2. -/
def ud : Thread := { uf with m := listSet uf.m 10 0x00080003#32 }


/-- A command completes on s, and p holds of the state it leaves. -/
def goesTo (c : Instr) (s : State) (p : State → Bool) : Bool :=
  match exec c s with
  | .next t => p t
  | .fault _ | .refused _ => false

/-! ## Ill-formed commands: one for each test of Instr.wf -/

theorem test_wf_tile_requester : Requester.wf (.tile 0 384) = false ∧ Requester.wf (.tile 2 384) = true := by decide
theorem test_wf_buffer_reader : BufReader.wf (.req (.tile 1 1023)) = false := by decide
theorem test_wf_lane : TxLane.wf (.link 0 5) = false ∧ (linkLow 0 = 0 ∧ TxLane.wf (.link 0 0) = true) := by decide
theorem test_wf_issue : Issue.wf ⟨0, 384, .clean, .clean, false⟩ = false ∧ Issue.wf x0 = true := by decide
theorem test_wf_tile_command : Instr.wf (.add ⟨1, 1000, .clean, .clean, false⟩) = false := by decide
theorem test_wf_request : Instr.wf (.meshRequest ⟨.tile 0 400, .clean, none⟩ .user false 0 2 0) = false := by decide
theorem test_wf_rc_read : Instr.wf (.rcRead (.tile 0 400) 0 0) = false := by decide
theorem test_wf_i2c : Instr.wf (.optI2cDone 0 .acked (List.replicate 9 0)) = false := by decide
theorem test_wf_cage_i2c : Instr.wf (.cageI2cDone 2 .acked false (List.replicate 9 0)) = false := by decide
theorem test_wf_ploamd : Instr.wf (.ploamdReceive 0 0 (List.replicate 47 0)) = false := by decide
theorem test_wf_reservoir_die : Instr.wf (.reservoirWrite 5 .tap 0 3 0) = false ∧ Instr.wf (.reservoirRead 5 (.req .tap) 0 3 .clean) = false := by decide
theorem test_wf_packet_sram : Instr.wf (.packetSramWrite (.tile 0 400) 0 3 0) = false := by decide
theorem test_wf_ref_mode : Instr.wf (.refModeChange 2) = false := by decide
theorem test_wf_buffer_die : Instr.wf (.rsvEnable 1 0) = false ∧ Instr.wf (.rsvDisable 3 0) = false ∧ Instr.wf (.rsvInitDone 5) = false := by decide
theorem test_wf_debug_response : Instr.wf (.dbgResp (List.replicate 191 0)) = false := by decide

/-! ## Single steps: words written out from Table 7.2 and Table 7.3, results from the manual -/

/-- ADD g3, g1, g2 is 000000 00011 00001 00010 00000 000000: a sum of 2^32 is 0 with Z and C, no N and no V (R308). -/
theorem test_add_wraps : goesTo (.add x0) (tileAt x0 { u0 with g := listSet (listSet u0.g 1 0xFFFFFFFF#32) 2 1 } 0b00000000011000010001000000000000)
    (fun t => (t.thread 2 5).map (fun u => (u.reg 3, u.flags, u.pc, u.used)) = some (0, 0b00101, 1, 1)) = true := by decide
/-- SUB g3, g2, g1: 4 - 7 borrows, so C is 0, and N is 1 (R308). -/
theorem test_sub_borrows : goesTo (.sub x0) (tileAt x0 u0 0b00000000011000100000100001000000)
    (fun t => (t.thread 2 5).map (fun u => (u.reg 3, u.flags)) = some (0xFFFFFFFD, 0b00010)) = true := by decide
/-- SAR g3, g1, g2 keeps the sign (R308). -/
theorem test_sar_sign : goesTo (.sar x0) (tileAt x0 { u0 with g := listSet u0.g 1 0x80000000#32 } 0b00000000011000010001000111000000)
    (fun t => (t.thread 2 5).map (fun u => u.reg 3) = some 0xF8000000) = true := by decide
/-- ADDI g3, g1, -1 sign-extends its immediate (R307). -/
theorem test_addi_sign : goesTo (.addi x0) (tileAt x0 u0 0b00000100011000011111111111111111)
    (fun t => (t.thread 2 5).map (fun u => u.reg 3) = some 6) = true := by decide
/-- ANDI g3, g1, 0xFFFF zero-extends its immediate (R307). -/
theorem test_andi_zero_extends : goesTo (.andi x0) (tileAt x0 { u0 with g := listSet u0.g 1 0xFFFFFFFF#32 } 0b00001000011000011111111111111111)
    (fun t => (t.thread 2 5).map (fun u => u.reg 3) = some 0xFFFF) = true := by decide
/-- LUI g0, 7 writes nothing: g0 reads 0 (R297). -/
theorem test_g0_reads_zero : goesTo (.lui x0) (tileAt x0 u0 0b00011000000000000000000000000111)
    (fun t => (t.thread 2 5).map (fun u => (u.reg 0, u.pc)) = some (0, 1)) = true := by decide
/-- LDH g3, [g0 + 2] of 2 bytes takes the first byte as the more significant (R308). -/
theorem test_ldh_big_endian : goesTo (.ldh x0) (tileAt x0 { u0 with h := [9, 9, 0x12, 0x34] ++ List.replicate 252 0 } 0b01000000011000000010000000000010)
    (fun t => (t.thread 2 5).map (fun u => u.reg 3) = some 0x1234) = true := by decide
/-- JAL g3, 8191 links the next word and goes to its target (R308). -/
theorem test_jal_links : goesTo (.jal x0) (tileAt x0 u0 0b01100100011000000001111111111111)
    (fun t => (t.thread 2 5).map (fun u => (u.reg 3, u.pc)) = some (1, 8191)) = true := by decide
/-- A word with the reserved opcode 0x0E raises ILLEGAL, reason 3, and the pass ends (R306, R326). -/
theorem test_reserved_word : goesTo (.reservedWordIssue x0) (tileAt x0 u0 0b00111000000000000000000000000000)
    (fun t => t.thread 2 5 = none && t.rd TILE_EXC_CNT (place 2 3) == 1) = true := by decide

/-! ## The package, the paths and the address map: examples of the manual -/

/-- SUB_TX_P[37] is CK38, SUB_TX_N[37] CK39 and SUB_RX_P[37] CM38 (R713). -/
theorem test_ball_of_port_37 : rowName 67 = "CK" ∧ rowName 69 = "CM" ∧ site 67 38 = .lane (.sub 37) true true ∧
    site 67 39 = .lane (.sub 37) true false ∧ site 69 38 = .lane (.sub 37) false true := by decide
/-- Table 20.4: a frame is eligible after 12 sw, a queue and 18 mc, and visible one hop away 42 mc after its ENQ; one more hop
adds 22 mc. Table 20.5: word 20 of a codeword is at PTC after 140 lw. -/
theorem test_path_counts : routeTerms [.receive] = [.cycles 12 .sw, .queue .mc, .cycles 18 .mc] ∧
    cyclesOn .mc (routeTerms [.enqueue 1]) = 42 ∧ cyclesOn .mc (routeTerms [.enqueue 2]) = 64 ∧
    cyclesOn .lw (routeTerms [.decode 20]) = 140 := by decide
/-- The LANE window begins with PRX_CFG[0] to PRX_CFG[3]; PRX_STAT[0] follows at 0x010; on line die 1 PRX_CFG[0] is a hole (R740, R759). -/
theorem test_register_layout : target .zg6480 0 (0xF00600000 + 0x10) = .reg LANE_PRX_STAT 0 ∧
    target .zg6480 1 (0xF00600000 + 0xC) = .reg LANE_PRX_CFG 3 ∧
    target .zg6480 1 0xF00600000 = .hole := by decide

/-- Exponent -12: 720 mV is 0.720 x 4,096 = 2,949 = 0x0B85 (R637). -/
theorem test_vout_command : voutCommand 720 (-12) = 0x0B85 := by decide

/-! ## The queue -/

/-- The first command in is the first taken. -/
theorem test_fifo : (match step { r0 with pending := [.modeChange, .timeSnap] } with | .next t => t.pending == [.timeSnap] | _ => false) = true := by decide
/-- The idle step after reset lets one mc period pass (log 3). -/
theorem test_idle : (match step r0 with | .next t => t.clk.mc == r0.clk.mc + 1 && t.pending == [] | _ => false) = true := by decide

/-- With every thread idle, none served yet and no tile off, the rotation of die 2 starts at tile 0 (R343). -/
theorem pick_first (s : State) (h : s.pipe.threads = []) (hl : s.pipe.lastTile = [])
    (h0 : s.get MEM_TILE_OFF_V (place 2 0) = 0) : s.pickThread 2 = some (0, slotThread 2 0 s.clk.mc) := by
  have e : List.range (tilesOf 2) = 0 :: (List.range (tilesOf 2 - 1)).map Nat.succ := by decide
  have e1 : Tab.get ([] : Tab Nat) (tilesOf 2 - 1) 2 + 1 = tilesOf 2 := by decide
  have e2 : ∀ k, Tab.get ([] : Tab (Option Thread)) none k = none := fun _ => rfl
  have e3 : bitOf 0 0 = false := by decide
  unfold State.pickThread
  simp only [hl, e, e1, List.map_cons, List.find?_cons, Nat.add_zero, Nat.mod_self, Nat.zero_div, Nat.zero_mod, h0, State.thread, h, e2,
    Option.isNone_none, e3, Bool.not_false, Bool.and_self, Option.map_some, Nat.zero_mul, Nat.zero_add]

/-- Ring 0 of line die 0 holds one descriptor for operation op: 16 bytes from 0x1_0000_1000 to 0x1_0000_2000, key slot 3, first
and last part, IRQ 0, a tag of 4 × tagw bytes. -/
def laMem (op tagw : Nat) : State :=
  let s := (((r0.put CIPH_LA_CFG_EN (onDie 0) 1).put CIPH_LA_CFG_CLEAR_CTX (onDie 0) 1).put CIPH_LA_RING_EN (place 0 0) 1).put CIPH_LA_RING_LOG2N (place 0 0) 4
  let s := s.put CIPH_LA_BASE_HI_V (place 0 0) 1
  let s := { s with ciph := { s.ciph with slots := [(slotKey 0 poolLa 3, { valid := true })] } }
  let s := s.setBytes 0x100000000 (leBytes 4 (2 ^ 31 + op * 2 ^ 27 + 2 ^ 26 + 2 ^ 25 + 3 * 2 ^ 16 + 5 * 2 ^ 8 + tagw))
  ((s.setBytes 0x100000008 (leBytes 8 0x100001000)).setBytes 0x100000010 (leBytes 8 0x100002000)).setBytes 0x100000018 (leBytes 3 (if op ≤ 5 then 16 else 0))
/-- That descriptor. -/
def laDs (op tagw : Nat) : LaDesc :=
  { own := true, op := op, first := true, last := true, irq := false, slot := 3, ctx := 5, tagw := tagw, src := 0x100001000
    dst := 0x100002000, len := if op ≤ 5 then 16 else 0, aad := 0, iv := List.replicate 16 0, tag := List.replicate 16 0 }

/-- A descriptor of 16 bytes stands at 0x1_0000_0000 with its first word given and moves 0x1_0000_1000 to 0x1_0000_2000; the head
of every channel of line die 0 named here is there. -/
def dmaMem (ch st mode : Nat) (ctl : Nat) (c : DmaCh) : State :=
  let s := ((r0.put DMA_STAT_STATE (place 0 ch) st).put DMA_DESC_HI_V (place 0 ch) 1).setDma 0 ch c
  let s := (s.put DMA_CFG_MODE (place 0 ch) mode).commit DMA_CFG (place 0 ch)
  let s := s.setBytes 0x100000000 (leBytes 4 ctl)
  let s := (s.setBytes 0x100000008 (leBytes 8 0x100001000)).setBytes 0x100000010 (leBytes 8 0x100002000)
  s.setBytes 0x100001000 ((List.range 16).map (fun i => BitVec.ofNat 8 (i + 1)))
/-- The bytes of that descriptor. -/
def dmaWords (ctl : Nat) : List Byte :=
  leBytes 4 ctl ++ leBytes 4 0 ++ leBytes 8 0x100001000 ++ leBytes 8 0x100002000 ++ leBytes 8 0
/-- Interrupt source 5 of line die 0 is pending at priority 5 for core 3's supervisor level. -/
def irq5 : State := ((r0.wr IRQ_SRC_CFG (d0i 5) 0x80500003).put IRQ_SRC_STAT_LEVEL (d0i 5) 1).setCore 3 { cmp := 5 }
/-- The UART runs with these FIFOs. -/
def uartOn (u : Uart) : State := (r0.put CTL_UART_CFG_EN d0 1).setUart u

/-- Core 3 runs at level lv from the start of its tightly coupled memory. -/
def coreAt (lv : Level) (c : Core) : State := r0.setCore 3 { c with run := true, level := lv, pc := 0x1000C0000 }
/-- A read that finds no error and whose response is not lost. -/
def f0 : Found := ⟨.clean, false⟩
/-- The instruction of core 3 with no error. -/
def i3 : CoreIssue := ⟨3, false, f0, f0, false, f0, f0⟩
/-- The state that the instruction of core 3 acts on. -/
def fetchAt (s : State) : State := (s.fetched i3 none).getD s
/-- Core 3 at level lv stands at the device-specific instruction w. -/
def coreDev (lv : Level) (c : Core) (w : Word) : State := (coreAt lv c).setBytes 0x1000C0000 (leBytes 4 w.toNat)
/-- The state that the device-specific instruction w of core 3 acts on. -/
def fetchDev (s : State) (w : Word) : State := (s.fetched i3 (some w)).getD s
/-- Line die 0 reaches the reservoir of die 6. -/
def mem6 (s : State) : State := (s.put RSV_STAT_READY (onDie 6) 1).putLink DLINK_STATUS_LOCKED 9 1
/-- A core whose register r holds v. -/
def xreg (r : XReg) (v : BitVec 64) : Core := ({} : Core).setReg r v

/-- An image of one 4-byte segment for the first word of core 0's tightly coupled memory, its entry. -/
def bootImg : List Byte :=
  [0x5A, 0x47, 0x42, 0x31, 1, 0, 0, 0, 5, 0, 0, 0, 2, 4, 1, 0] ++ leBytes 8 0x100000000 ++ leBytes 8 0 ++
    leBytes 4 0x200 ++ leBytes 4 4 ++ leBytes 8 0x100000000 ++ List.replicate 464 0 ++ [7, 8, 9, 10]
/-- The rails are up. -/
def railsOn : State := r0
/-- In COLD, with the rail table of the part known: rail 0 in step 1, rail 1 in step 3, every other in none. -/
def railsIn : State :=
  let s := (List.range 24).foldl (fun (s : State) r => s.put PWR_RAIL_CFG_STEP (d0i r) (if r = 0 then 1 else if r = 1 then 3 else 15)) State.reset
  s.put PWR_SEQ_STAT_TABLE_VALID d0 1
/-- Die 6 has been idle in normal operation for 65,536 ac, and may enter DEEP. -/
def idle6 : State :=
  let s := (r0.put HW_OPMODE_MODE d0 2).put RSV_STAT_READY (onDie 6) 1
  let s := { s with clk := { s.clk with ac := 0x10000 }, pwr := { s.pwr with idleSince := [(6, some 0)] } }
  (s.put PWR_DIE_CFG_EN (d0i 6) 1).put PWR_DIE_CFG_MAX_STATE (d0i 6) 3

/-- A write of 4 bytes by core 3 at monitor level. -/
def meshW (a : Addr) : MeshReq := ⟨.core 3, .monitor, true, a, 2, 7⟩

theorem wit_PipelineFrames : ∃ x : Issue, x.fetch = .clean := ⟨x0, by decide⟩
theorem wit_ControlAndDmaFrames : (∃ (s : State) (x : CoreIssue) (u : State), s.insAt x u) ∧ (∃ (s : State) (d : Die) (ch : Fin 32) (o : Bool), o = true ∨ (s.dmaCh d.val ch.val).started = false ∨ 2 ≤ s.getEff DMA_CFG_MODE (place d.val ch.val)) ∧ ∃ (s : State) (x : BitVec 12), s.hw.tempCheck = false ∨ signed 12 x.toNat < 1000 :=
  ⟨⟨coreAt .monitor (xreg 5 7), i3, fetchAt (coreAt .monitor (xreg 5 7)), by decide⟩, ⟨r0, 0, 0, true, by decide⟩, r0, 0, by decide⟩
theorem wit_HeadwaterAndPowerFrames : (∃ s : State, s.hw.hot155 = 0) ∧ ∃ (lv : Level) (v : Word) (s : State), lv ≠ .monitor ∨ s.hw.off = true ∨ bits v 31 31 = 0 ∨ bits v 15 0 ≠ 0x5AF0 :=
  ⟨⟨r0, by decide⟩, ⟨.user, 0, r0, by decide⟩⟩
theorem wit_MemoryIsLittleEndian : (∃ j n : Nat, j < n) ∧ (∃ a n b : Nat, b < a ∨ a + n ≤ b) := ⟨⟨0, 1, by decide⟩, ⟨4, 4, 8, by decide⟩⟩
theorem wit_StepRunsTheFrontCommand : ∃ (s : State) (c : Instr) (rest : List Instr), s.pending = c :: rest :=
  ⟨{ r0 with pending := [.modeChange] }, .modeChange, [], rfl⟩
theorem wit_NothingStops : (∃ s : State, s.pending = [] ∧ s.hw.alive = false) ∧
    (∃ s : State, s.pending = [] ∧ s.hw.alive = true ∧ s.running = false ∧ s.time.run = false) :=
  ⟨⟨r0.setHw fun h => { h with alive := false }, by decide⟩,
   ⟨{ r0 with frz := { r0.frz with phase := .stopped } }, by decide⟩⟩
theorem wit_FreezeStopsEveryStoppableDomain : (∃ (c : Instr) (s : State), s.running = false ∧ isAlways c = false) ∧
    (∃ (c : Instr) (s : State), s.hw.alive = false ∧ c ≠ .coldReset ∧ c ≠ .alwaysOnPowerLoss) :=
  ⟨⟨.add x0, { r0 with frz := { r0.frz with phase := .stopped } }, by decide⟩,
   ⟨.modeChange, r0.setHw fun h => { h with alive := false }, by decide⟩⟩
theorem wit_FusesOnlyGrow : ∃ s t : State, step s = .next t :=
  ⟨{ (r0.setHw fun h => { h with burn := some (1, 0) }) with pending := [.fuseBurnDone true] }, _, rfl⟩
theorem wit_EveryStepKeepsTheInvariant : ∃ s t : State, s.Inv ∧ step s = .next t :=
  ⟨r0.setByte 5 7, _, ⟨by unfold State.memCanonical; decide, by decide, by decide, (by intro w h; cases h), by decide, by decide⟩, rfl⟩
theorem wit_MeshAndBootEventsComplete :
    (∃ s : State, ∃ d : Die, ∃ r : Refusal32, (s.running = true) ∧ (s.mesh.reports.find? (fun r => r.die == d.val) = some r) ∧ (s.is HW_ABSENT_INFO_VALID d0 = false)) ∧
    (∃ s : State, ∃ d : Die, ∃ r : Refusal32, (s.running = true) ∧ (s.mesh.reports.find? (fun r => r.die == d.val) = some r) ∧ (s.is HW_ABSENT_INFO_VALID d0 = true)) ∧
    (∃ s : State, ∃ d : Die, ∃ a : Addr, ∃ h : Nat, (s.running = true) ∧ (s.route d.val (a.toNat / 2 ^ 36) = .clear h)) ∧
    (∃ s : State, ∃ d : Die, ∃ h : Nat, (s.running = true) ∧ (s.route d.val 0 = .clear h)) ∧
    (∃ s : State, ∃ d : Die, ∃ m : Posted, (s.running = true) ∧ (s.route d.val (postedDie m) = .absent)) ∧
    (∃ s : State, ∃ d : Die, ∃ m : Posted, ∃ l : Nat, (s.running = true) ∧ (s.route d.val (postedDie m) = .firstDown l)) ∧
    (∃ s : State, ∃ d : Die, ∃ m : Posted, ∃ l : Nat, ∃ v : Nat, (s.running = true) ∧ (s.route d.val (postedDie m) = .secondDown l v)) ∧
    (∃ s : State, ∃ d : Die, ∃ m : Posted, ∃ v : Nat, (s.running = true) ∧ (s.route d.val (postedDie m) = .asleep v)) ∧
    (∃ s : State, ∃ d : Die, (s.running = true) ∧ (s.get HW_OPMODE_MODE d0 = 1) ∧ (present s.part d.val = true) ∧ (s.hw.released.getLsbD d.val = true) ∧ (bitOf (s.get HW_DIE_MAP_UP d0) d.val = false)) ∧
    (∃ s : State, (s.running = true)) ∧
    (∃ s : State, ∃ lv : Level, (s.running = true) ∧ (lv ≠ .monitor)) ∧
    (∃ s : State, (s.hw.alive = true)) :=
  ⟨⟨{ r0 with mesh := { r0.mesh with reports := [⟨3, 1, true, 0x4000000010#40⟩] } }, 3, ⟨3, 1, true, 0x4000000010#40⟩, by decide⟩,
   ⟨({ r0 with mesh := { r0.mesh with reports := [⟨3, 1, true, 0x4000000010#40⟩] } }.put HW_ABSENT_INFO_VALID d0 1).put HW_ABSENT_INFO_MORE d0 0xFF, 3, ⟨3, 1, true, 0x4000000010#40⟩, by decide⟩,
   ⟨r0, 2, 0x2000000000#40, 0, by decide⟩,
   ⟨r0, 0, 0, by decide⟩,
   ⟨{ r0 with part := .zg6420 }, 0, .bytes 0x3000000000#40 [1], by decide⟩,
   ⟨r0, 0, .bytes 0x3000000000#40 [1], 2, by decide⟩,
   ⟨r0.putLink DLINK_STATUS_LOCKED 21 1, 2, .bytes 0x4000000000#40 [1], 22, 3, by decide⟩,
   ⟨r0.put PWR_DIE_STAT_STATE (d0i 3) 2, 0, .bytes 0x3000000000#40 [1], 3, by decide⟩,
   ⟨{ r0 with hw := { r0.hw with released := 0xFF } }.put HW_OPMODE_MODE d0 1, 5, by decide⟩,
   ⟨r0, by decide⟩,
   ⟨r0, .supervisor, by decide⟩,
   ⟨{ r0 with hw := { r0.hw with railsUp := true } }, by decide⟩⟩
theorem wit_NetworkTimeEventsComplete :
    (∃ s : State, (s.hw.alive = true) ∧ (s.is CLK_STATUS_REF_LOCK d0 = true) ∧ (s.sscP ≤ s.get CLK_SSC_POS_K d0 + 1)) ∧
    (∃ s : State, (s.running = true)) ∧
    (∃ s : State, (s.running = true) ∧ (s.time.relocking = true) ∧ (s.is TIME_STATUS_HOLDOVER d0 = false)) ∧
    (∃ s : State, ∃ op : Fin 3, (s.running = true) ∧ (s.get TIME_ADJ_CTL_OP d0 = op.val)) ∧
    (∃ s : State, ∃ a : TimeAdj, (s.running = true) ∧ (s.time.pend = some a) ∧ (a.op = 0)) ∧
    (∃ s : State, ∃ a : TimeAdj, (s.running = true) ∧ (s.time.pend = some a) ∧ (a.op = 2) ∧ (a.ns.toNat < 1000000000)) ∧
    (∃ s : State, ∃ a : TimeAdj, (s.running = true) ∧ (s.time.pend = some a) ∧ (a.op = 1) ∧ (a.ns.toNat < 1000000000) ∧ (s.time.ns.toNat < 1000000000)) ∧
    (∃ s : State, (s.running = true)) ∧
    (∃ s : State, (s.running = true) ∧ (s.time.snap = .going)) ∧
    (∃ s : State, (s.running = true) ∧ (s.time.snap = .copied)) ∧
    (∃ s : State, (s.running = true)) ∧
    (∃ s : State, ∃ f : BitVec 51, (s.running = true) ∧ (s.is TIME_TOD_CAP_CTL_ARM d0 = true) ∧ (chanExists s.part (s.get TIME_CFG_MASTER_CHAN d0) = true) ∧ (s.masterSfc = f) ∧ (f.toNat % 2 ^ 30 = s.get TIME_TOD_CAP_CTL_SF_LO d0)) ∧
    (∃ s : State, (s.running = true) ∧ (s.time.ppsDue = true) ∧ (s.time.ppsOut = false)) ∧
    (∃ s : State, (s.running = true) ∧ (s.time.ppsDue = true) ∧ (s.time.ppsOut = true)) ∧
    (∃ s : State, (s.running = true) ∧ (s.time.ppsLow = 0)) ∧
    (∃ s : State, (s.running = true) ∧ (s.is TIME_PPS_CFG_IN_EN d0 = true) ∧ (s.is TIME_PPS_IN_STAT_VALID d0 = false)) ∧
    (∃ s : State, (s.running = true) ∧ (s.is TIME_PPS_CFG_IN_EN d0 = true) ∧ (s.is TIME_PPS_IN_STAT_VALID d0 = true)) ∧
    (∃ s : State, (s.running = true) ∧ (0 ∈ s.time.todWaits) ∧ (s.is TIME_TOD_TX_READY d0 = true)) ∧
    (∃ s : State, (s.running = true) ∧ (0 ∈ s.time.todWaits) ∧ (s.is TIME_TOD_TX_READY d0 = false)) ∧
    (∃ s : State, (s.running = true) ∧ (s.time.todFifo.length < 64)) ∧
    (∃ s : State, (s.running = true) ∧ (64 ≤ s.time.todFifo.length)) :=
  ⟨⟨(r0.put CLK_STATUS_REF_LOCK d0 1).put CLK_SSC_POS_K d0 832, by decide⟩,
   ⟨r0, by decide⟩,
   ⟨{ r0 with time := { r0.time with relocking := true } }, by decide⟩,
   ⟨r0.put TIME_ADJ_CTL_OP d0 2, 2, by decide⟩,
   ⟨{ r0 with time := { r0.time with pend := some ⟨0, 5, 0, 0⟩ } }, ⟨0, 5, 0, 0⟩, by decide⟩,
   ⟨{ r0 with time := { r0.time with pend := some ⟨2, 5, 7, 999999999⟩ } }, ⟨2, 5, 7, 999999999⟩, by decide⟩,
   ⟨{ r0 with time := { r0.time with ns := 5, pend := some ⟨1, 5, 7, 999999999⟩ } }, ⟨1, 5, 7, 999999999⟩, by decide⟩,
   ⟨r0, by decide⟩,
   ⟨{ r0 with time := { r0.time with snap := .going, sec := 3, ns := 4 } }, by decide⟩,
   ⟨{ r0 with time := { r0.time with snap := .copied } }, by decide⟩,
   ⟨r0, by decide⟩,
   ⟨r0.put TIME_TOD_CAP_CTL_ARM d0 1, 0, by decide⟩,
   ⟨{ r0 with time := { r0.time with ppsDue := true } }, by decide⟩,
   ⟨{ r0 with time := { r0.time with ppsDue := true, ppsOut := true } }, by decide⟩,
   ⟨{ r0 with time := { r0.time with ppsOut := true } }, by decide⟩,
   ⟨r0.put TIME_PPS_CFG_IN_EN d0 1, by decide⟩,
   ⟨(r0.put TIME_PPS_CFG_IN_EN d0 1).put TIME_PPS_IN_STAT_VALID d0 1, by decide⟩,
   ⟨{ r0 with time := { r0.time with todWaits := [7, 0] } }.put TIME_TOD_TX_READY d0 1, by decide⟩,
   ⟨{ r0 with time := { r0.time with todWaits := [0] } }, by decide⟩,
   ⟨r0, by decide⟩,
   ⟨{ r0 with time := { r0.time with todFifo := List.replicate 64 0 } }, by decide⟩⟩
theorem wit_FreezeAndThawComplete :
    (∃ s : State, (s.hw.alive = true)) ∧
    (∃ s : State, (s.hw.alive = true)) ∧
    (∃ s : State, (s.hw.alive = true) ∧ (s.frz.phase = .running) ∧ (s.hw.railsUp = true) ∧ (s.freezeAsked = true) ∧ (∀ d ∈ List.range 8, s.reachable d = true → s.powerState d = 0)) ∧
    (∃ s : State, (s.running = true) ∧ (s.frz.phase = .freezing)) ∧
    (∃ s : State, (s.hw.alive = true) ∧ (s.frz.phase = .stopped) ∧ (s.hw.dbg.level ≠ 0)) ∧
    (∃ s : State, (s.hw.alive = true) ∧ (s.frz.phase = .stopped) ∧ (s.frz.pinLow = false) ∧ (s.is FRZ_CTL_REQ d0 = false) ∧ (s.is FRZ_STATUS_CHAIN_DIRTY d0 = false) ∧ (s.hw.openGranted = false) ∧ (s.is FRZ_STATUS_THAW_FAIL d0 = false)) ∧
    (∃ s : State, ∃ k : BitVec 8, (s.hw.alive = true) ∧ (s.frz.phase = .thawing) ∧ (∀ l ∈ s.thawLinks, s.linkUp l = true) ∧ (∀ d ∈ s.stackDies, k.getLsbD d = true)) ∧
    (∃ s : State, (s.hw.alive = true) ∧ (s.frz.phase = .resuming)) ∧
    (∃ s : State, ∃ l : Nat, (s.hw.alive = true) ∧ (s.frz.phase = .thawing) ∧ (l ∈ s.thawLinks) ∧ (s.linkUp l = false)) ∧
    (∃ s : State, ∃ k : BitVec 8, ∃ d : Nat, (s.hw.alive = true) ∧ (s.frz.phase = .thawing) ∧ (d ∈ s.stackDies) ∧ (k.getLsbD d = false)) :=
  ⟨⟨r0, by decide⟩,
   ⟨r0, by decide⟩,
   ⟨{ r0 with frz := { r0.frz with pinLow := true } }, by decide⟩,
   ⟨{ r0 with frz := { r0.frz with phase := .freezing } }, by decide⟩,
   ⟨{ r0 with frz := { r0.frz with phase := .stopped }, hw := { r0.hw with dbg := { r0.hw.dbg with level := 1 } } }, by decide⟩,
   ⟨{ r0 with frz := { r0.frz with phase := .stopped } }, by decide⟩,
   ⟨{ allLinks with frz := { r0.frz with phase := .thawing } }, 0xC0, by decide⟩,
   ⟨{ r0 with frz := { r0.frz with phase := .resuming } }, by decide⟩,
   ⟨{ r0 with frz := { r0.frz with phase := .thawing } }, 24, by decide⟩,
   ⟨{ allLinks with frz := { r0.frz with phase := .thawing } }, 0x40, 7, by decide⟩⟩
theorem wit_LaneAndLinkEventsComplete :
    (∃ s : State, ∃ l : TxLane, ∃ v : Word, (s.running = true) ∧ (eqExists s.part l = true) ∧ (eqLegal v = false)) ∧
    (∃ s : State, ∃ l : TxLane, ∃ v : Word, (s.running = true) ∧ (eqExists s.part l = true) ∧ (eqLegal v = true)) ∧
    (∃ s : State, ∃ c : Chan, (s.running = true) ∧ (s.rxPowered c.val = true) ∧ (s.is LANE_PRX_STAT_SD (atChan c.val) = true)) ∧
    (∃ s : State, ∃ c : Chan, (s.running = true) ∧ (chanExists s.part c.val = true)) ∧
    (∃ s : State, ∃ c : Chan, (s.running = true) ∧ (chanExists s.part c.val = true)) ∧
    (∃ s : State, (s.running = true)) ∧
    (∃ s : State, ∃ l : Fin 25, ∃ k : Fin 16, ∃ h : Nat, ∃ m : Bool, (s.hw.alive = true) ∧ (if s.part = .zg6480 then m = true else 64 ≤ h) ∧ (linkPresent s.part l.val = true) ∧ (s.linkSends l.val = true) ∧ (k.val < linkWidth l.val) ∧ (s.frz.phase ≠ .stopped)) ∧
    (∃ s : State, ∃ i : Nat, ∃ m : Nat, ∃ e : Nat, (s.running = true) ∧ (if s.part = .zg6480 then 2 ≤ m ∨ 16 ≤ e else 16 ≤ i) ∧ (s.is FRZ_STATUS_FROZEN d0 = false)) ∧
    (∃ s : State, ∃ l : Fin 25, ∃ x : Deskew, (s.hw.alive = true) ∧ (s.hw.railsUp = true) ∧ (deskews s.part l.val x = true) ∧ (s.is FRZ_STATUS_FROZEN d0 = false ∨ s.frz.phase = .thawing) ∧ (linkPresent s.part l.val = true) ∧ (s.allLanes l.val = true) ∧ (s.mustRepeat l.val = true → Tab.get s.lanes.fixedDelay 0 l.val = x.delay)) ∧
    (∃ s : State, ∃ l : Fin 25, ∃ x : Deskew, (s.hw.alive = true) ∧ (s.hw.railsUp = true) ∧ (deskews s.part l.val x = true) ∧ (s.is FRZ_STATUS_FROZEN d0 = false ∨ s.frz.phase = .thawing) ∧ (linkPresent s.part l.val = true) ∧ (s.allLanes l.val = true) ∧ (s.mustRepeat l.val = true → Tab.get s.lanes.fixedDelay 0 l.val = x.delay)) ∧
    (∃ s : State, ∃ l : Fin 25, (s.running = true) ∧ (s.linkUp l.val = true) ∧ (s.is FRZ_STATUS_FROZEN d0 = false)) ∧
    (∃ s : State, ∃ q : Requester, ∃ e : ErrResp, (s.running = true) ∧ (s.mesh.lost.find? (fun e => e.req == q) = some e)) ∧
    (∃ s : State, ∃ d : Die, (s.running = true) ∧ (s.is LANE_ESCAN_STAT_BUSY (onDie d.val) = false)) ∧
    (∃ s : State, ∃ d : Die, (s.running = true) ∧ ((s.scanOf d.val).isSome = true)) ∧
    (∃ s : State, ∃ d : Die, ∃ p : ScanPoint, (s.running = true) ∧ (s.scanOf d.val = some p) ∧ (s.scanEnds d.val p none = true)) ∧
    (∃ s : State, ∃ d : Die, ∃ p : ScanPoint, ∃ k : Fin 3, (s.running = true) ∧ (s.scanOf d.val = some p) ∧ (s.scanEnds d.val p (some k) = true)) ∧
    (∃ s : State, ∃ n : LineDie, (s.hw.alive = true) ∧ (bits (s.rd LANE_OPT_I2C_CMD (onDie n.val)) 30 30 = 0) ∧ (bits (s.rd LANE_OPT_I2C_CFG (onDie n.val)) 31 31 = 1)) ∧
    (∃ s : State, ∃ n : LineDie, (s.hw.alive = true) ∧ (bits (s.rd LANE_OPT_I2C_CMD (onDie n.val)) 30 30 = 0) ∧ (bits (s.rd LANE_OPT_I2C_CFG (onDie n.val)) 31 31 = 1)) ∧
    (∃ s : State, ∃ n : LineDie, (s.hw.alive = true) ∧ (bits (s.rd LANE_OPT_I2C_CMD (onDie n.val)) 30 30 = 1)) ∧
    (∃ s : State, ∃ n : LineDie, (s.hw.alive = true) ∧ (bits (s.rd LANE_OPT_I2C_CMD (onDie n.val)) 30 30 = 1)) ∧
    (∃ s : State, ∃ n : LineDie, ∃ j : I2cJob, (s.hw.alive = true) ∧ (Tab.get s.lanes.optI2c none n.val = some j)) ∧
    (∃ s : State, ∃ n : LineDie, ∃ j : I2cJob, (s.hw.alive = true) ∧ (Tab.get s.lanes.optI2c none n.val = some j)) :=
  ⟨⟨r0, .pon 0, 0x3F1F0F00#32, by decide⟩,
   ⟨r0, .pon 0, 0x20000000#32, by decide⟩,
   ⟨((r0.put LANE_PRX_STAT_SD (atChan 3) 1).put LANE_PRX_CFG_EN (atChan 3) 1).put PWR_PS_STAT_RX_ON (d0i 3) 1, 3, by decide⟩,
   ⟨r0, 0, by decide⟩,
   ⟨r0.put LANE_PRX_STAT_SD (atChan 2) 1, 2, by decide⟩,
   ⟨r0, by decide⟩,
   ⟨r0, 0, 3, 0, true, by decide⟩,
   ⟨r0, 0, 2, 0, by decide⟩,
   ⟨lanesUp 0, 0, ⟨0, 64, 9⟩, by decide⟩,
   ⟨lanesUp 0, 0, ⟨0xF, 0, 9⟩, by decide⟩,
   ⟨allLinks, 24, by decide⟩,
   ⟨{ r0 with mesh := { r0.mesh with lost := [⟨.tap, 5, true⟩] } }, .tap, ⟨.tap, 5, true⟩, by decide⟩,
   ⟨r0, 4, by decide⟩,
   ⟨r0.setScan 4 (some ⟨0, 0, 0, 0, 0⟩), 4, by decide⟩,
   ⟨(r0.setScan 4 (some ⟨0, 0, 0, 0, 0⟩)).put LANE_SUB_CFG_EN (atPort 32) 1, 4, ⟨0, 0, 0, 0, 0⟩, by decide⟩,
   ⟨r0.setScan 4 (some ⟨0, 0, 0, 0, 0⟩), 4, ⟨0, 0, 0, 0, 0⟩, 2, by decide⟩,
   ⟨r0.wr LANE_OPT_I2C_CFG (onDie 1) 0x80000000#32, 1, by decide⟩,
   ⟨r0.wr LANE_OPT_I2C_CFG (onDie 1) 0x80000000#32, 1, by decide⟩,
   ⟨r0.wr LANE_OPT_I2C_CMD (onDie 1) 0x40000000#32, 1, by decide⟩,
   ⟨r0.wr LANE_OPT_I2C_CMD (onDie 1) 0x40000000#32, 1, by decide⟩,
   ⟨{ r0 with lanes := { r0.lanes with optI2c := [(1, some ⟨false, 1, 0, 0, 0, 0, false, false⟩)] } }, 1, ⟨false, 1, 0, 0, 0, 0, false, false⟩, by decide⟩,
   ⟨{ r0 with lanes := { r0.lanes with optI2c := [(1, some ⟨false, 1, 0, 0, 0, 0, false, false⟩)] } }, 1, ⟨false, 1, 0, 0, 0, 0, false, false⟩, by decide⟩⟩
theorem wit_FramerAndDefectEventsComplete :
    (∃ s : State, ∃ c : Chan, (s.running = true) ∧ (chanExists s.part c.val = true)) ∧
    (∃ s : State, ∃ c : Chan, ∃ f : FrameRx, ∃ e : Nat, (s.running = true) ∧ (chanExists s.part c.val = true) ∧ (s.rxEnabled c.val = true) ∧ ((s.framer c.val).sync = .hunt) ∧ ((s.framer c.val).rxDown = false) ∧ (f.psync = some e) ∧ (e ≤ s.get PFR_SYNC_CFG_PSYNC_TOL (atChan c.val)) ∧ (Tab.get s.pwr.psEnter false c.val = false)) ∧
    (∃ s : State, ∃ c : Chan, (s.running = true) ∧ (s.rxEnabled c.val = true) ∧ ((s.framer c.val).sync = .sync)) ∧
    (∃ s : State, ∃ c : Chan, ∃ k : Fin 6, (s.running = true) ∧ (s.raises c.val k.val = true) ∧ (s.rxEnabled c.val = true) ∧ ((s.framer c.val).held = false)) ∧
    (∃ s : State, ∃ c : Chan, ∃ k : Fin 6, (s.running = true) ∧ (s.clears c.val k.val = true) ∧ (s.rxEnabled c.val = true) ∧ ((s.framer c.val).held = false)) ∧
    (∃ s : State, ∃ c : Chan, (s.running = true) ∧ ((s.framer c.val).sync = .sync) ∧ (s.getEff PFR_SFSD_CFG_WIN (atChan c.val) ≤ (s.framer c.val).winFrames)) ∧
    (∃ s : State, (s.running = true)) ∧
    (∃ s : State, ∃ c : Chan, (s.running = true) ∧ (chanExists s.part c.val = true)) ∧
    (∃ s : State, ∃ c : Chan, (s.running = true) ∧ ((s.framer c.val).rxDown = true)) ∧
    (∃ s : State, ∃ c : Chan, (s.running = true) ∧ ((s.framer c.val).held = true) ∧ ((s.framer c.val).rxDown = false) ∧ ((s.framer c.val).sync = .sync ∨ s.getEff PFR_SYNC_CFG_WAKE_GRACE (atChan c.val) ≤ (s.framer c.val).grace)) ∧
    (∃ s : State, (s.running = true)) :=
  ⟨⟨r0, 3, by decide⟩,
   ⟨r0.put LANE_PRX_CFG_EN (atChan 3) 1, 3, ⟨some 0, .bad, .bad⟩, 0, by decide⟩,
   ⟨(r0.put LANE_PRX_CFG_EN (atChan 1) 1).setFramer 1 { sync := .sync }, 1, by decide⟩,
   ⟨r0.put LANE_PRX_CFG_EN (atChan 1) 1, 1, 2, by decide⟩,
   ⟨((r0.put LANE_PRX_CFG_EN (atChan 1) 1).put PFR_DEF_RAW_V (atChan 1) 4).setFramer 1 { sync := .sync }, 1, 2, by decide⟩,
   ⟨r0.setFramer 1 { sync := .sync, winFrames := 65536 }, 1, by decide⟩,
   ⟨r0, by decide⟩,
   ⟨r0, 2, by decide⟩,
   ⟨r0.setFramer 2 { rxDown := true, held := true }, 2, by decide⟩,
   ⟨r0.setFramer 2 { held := true, grace := 5000 }, 2, by decide⟩,
   ⟨r0.setFramer 2 { sfc := 0x7FFFFFFFFFFFF }, by decide⟩⟩
theorem wit_PerformanceBinsComplete :
    (∃ s : State, ∃ c : Chan, (s.running = true) ∧ (s.is PFR_PM_CFG_EN (atChan c.val) = true) ∧ (s.isEff PFR_PM_CFG_TIMEBASE (atChan c.val) = true ∨ s.is TIME_CFG_EN d0 = true)) ∧
    (∃ s : State, ∃ c : Chan, (s.running = true) ∧ (10 ≤ (s.pm c.val).pend.length)) ∧
    (∃ s : State, ∃ c : Chan, ∃ y : Bool, ∃ x : Bool × PmBin, (s.running = true) ∧ ((s.pm c.val).waiting.find? (fun x => x.1 == y) = some x)) ∧
    (∃ s : State, ∃ c : Chan, (s.running = true) ∧ (s.is PFR_PM_CFG_EN (atChan c.val) = false)) ∧
    (∃ s : State, ∃ c : Chan, (s.running = true) ∧ (s.is PFR_PM_CFG_EN (atChan c.val) = true)) ∧
    (∃ s : State, ∃ c : Chan, ∃ v : Word, ∃ b : PmBin, (s.running = true) ∧ (bits v PFR_PM_SEL_DAY.hi PFR_PM_SEL_DAY.lo = 0) ∧ (bits v PFR_PM_SEL_INDEX.hi PFR_PM_SEL_INDEX.lo = 0) ∧ ((s.pm c.val).cur15 = some b)) :=
  ⟨⟨(r0.put PFR_PM_CFG_EN (atChan 1) 1).put TIME_CFG_EN d0 1, 1, by decide⟩,
   ⟨r0.setPm 1 { pend := List.replicate 10 ⟨0, 0, true, true, false, false, false, false, true, false⟩ }, 1, by decide⟩,
   ⟨r0.setPm 1 { waiting := [(true, { cw := 3 })] }, 1, true, (true, { cw := 3 }), by decide⟩,
   ⟨r0, 1, by decide⟩,
   ⟨(r0.setPm 1 { cur15 := some {}, curDay := some {}, pend := [⟨0, 0, true, true, false, false, false, false, true, false⟩] }).put PFR_PM_CFG_EN (atChan 1) 1, 1, by decide⟩,
   ⟨r0.setPm 1 { cur15 := some { psync := 9, unc := 4 }, n15 := 6 }, 1, 0, { psync := 9, unc := 4 }, by decide⟩⟩
theorem wit_ActivationRequestsComplete :
    (∃ s : State, ∃ c : Chan, (s.running = true) ∧ (requestListed (s.actState c.val) 2 = true) ∧ (s.get HW_OPMODE_MODE d0 ≠ 1) ∧ (s.isEff PTC_ACT_CTL_EN (atChan c.val) = true)) ∧
    (∃ s : State, ∃ c : Chan, (s.running = true) ∧ (requestListed (s.actState c.val) 3 = true) ∧ (s.get HW_OPMODE_MODE d0 ≠ 1) ∧ (s.isEff PTC_ACT_CTL_EN (atChan c.val) = true)) ∧
    (∃ s : State, ∃ c : Chan, (s.running = true) ∧ (requestListed (s.actState c.val) 4 = true) ∧ (s.get HW_OPMODE_MODE d0 ≠ 1) ∧ (s.isEff PTC_ACT_CTL_EN (atChan c.val) = true)) ∧
    (∃ s : State, ∃ c : Chan, (s.running = true) ∧ (requestListed (s.actState c.val) 0 = true) ∧ (s.get HW_OPMODE_MODE d0 ≠ 1) ∧ (s.isEff PTC_ACT_CTL_EN (atChan c.val) = true)) ∧
    (∃ s : State, ∃ c : Chan, (s.running = true) ∧ (s.actState c.val ≠ 6)) ∧
    (∃ s : State, ∃ c : Chan, (s.running = true) ∧ (s.actState c.val = 6)) ∧
    (∃ s : State, ∃ c : Chan, (s.running = true) ∧ (requestListed (s.actState c.val) 2 = false ∨ s.get HW_OPMODE_MODE d0 = 1 ∨ s.isEff PTC_ACT_CTL_EN (atChan c.val) = false)) ∧
    (∃ s : State, ∃ c : Chan, (s.running = true) ∧ (requestListed (s.actState c.val) 3 = false ∨ s.get HW_OPMODE_MODE d0 = 1 ∨ s.isEff PTC_ACT_CTL_EN (atChan c.val) = false)) ∧
    (∃ s : State, ∃ c : Chan, (s.running = true) ∧ (requestListed (s.actState c.val) 4 = false ∨ s.get HW_OPMODE_MODE d0 = 1 ∨ s.isEff PTC_ACT_CTL_EN (atChan c.val) = false)) ∧
    (∃ s : State, ∃ c : Chan, (s.running = true) ∧ (requestListed (s.actState c.val) 0 = false ∨ s.get HW_OPMODE_MODE d0 = 1 ∨ s.isEff PTC_ACT_CTL_EN (atChan c.val) = false)) ∧
    (∃ s : State, ∃ c : Chan, (s.running = true) ∧ (s.actState c.val = 2 ∨ s.actState c.val = 3) ∧ (s.getEff PTC_ACT_TMR_TO1_MS (atChan c.val) * 8 ≤ (s.conv c.val).to1)) ∧
    (∃ s : State, ∃ c : Chan, (s.running = true) ∧ (s.actState c.val = 5) ∧ (s.getEff PTC_ACT_TMR_TO2_FR (atChan c.val) ≤ (s.conv c.val).to2)) :=
  ⟨⟨(r0.wrEff PTC_ACT_CTL (atChan 1) 0xFFFFFFFF#32).put PTC_ACT_STAT_STATE (atChan 1) 1, 1, by decide⟩,
   ⟨(r0.wrEff PTC_ACT_CTL (atChan 1) 0xFFFFFFFF#32).put PTC_ACT_STAT_STATE (atChan 1) 2, 1, by decide⟩,
   ⟨(r0.wrEff PTC_ACT_CTL (atChan 1) 0xFFFFFFFF#32).put PTC_ACT_STAT_STATE (atChan 1) 3, 1, by decide⟩,
   ⟨(r0.wrEff PTC_ACT_CTL (atChan 1) 0xFFFFFFFF#32).put PTC_ACT_STAT_STATE (atChan 1) 4, 1, by decide⟩,
   ⟨r0, 1, by decide⟩,
   ⟨r0.put PTC_ACT_STAT_STATE (atChan 1) 6, 1, by decide⟩,
   ⟨r0, 1, by decide⟩,
   ⟨r0, 1, by decide⟩,
   ⟨r0, 1, by decide⟩,
   ⟨r0, 1, by decide⟩,
   ⟨(r0.put PTC_ACT_STAT_STATE (atChan 1) 3).setConv 1 { to1 := 1000000 }, 1, by decide⟩,
   ⟨(r0.put PTC_ACT_STAT_STATE (atChan 1) 5).setConv 1 { to2 := 1000000 }, 1, by decide⟩⟩
theorem wit_PloamAndXgemComplete :
    (∃ s : State, ∃ c : Chan, (s.running = true) ∧ ((s.conv c.val).ploamu.length < 8)) ∧
    (∃ s : State, ∃ c : Chan, (s.running = true) ∧ (8 ≤ (s.conv c.val).ploamu.length)) ∧
    (∃ s : State, (s.running = true)) ∧
    (∃ s : State, ∃ c : Chan, ∃ o : BitVec 10, (s.running = true) ∧ ((s.framer c.val).sync = .sync) ∧ (o.toNat = 0x3FF ∨ (s.isEff PTC_ONU_ID_VALID (atChan c.val) = true ∧ s.getEff PTC_ONU_ID_ID (atChan c.val) = o.toNat)) ∧ ((s.conv c.val).ploamd.length < 32)) ∧
    (∃ s : State, ∃ c : Chan, ∃ o : BitVec 10, (s.running = true) ∧ (o.toNat ≠ 0x3FF) ∧ (s.isEff PTC_ONU_ID_VALID (atChan c.val) = false ∨ s.getEff PTC_ONU_ID_ID (atChan c.val) ≠ o.toNat)) ∧
    (∃ s : State, ∃ c : Chan, ∃ o : BitVec 10, (s.running = true) ∧ ((s.framer c.val).sync = .sync) ∧ (o.toNat = 0x3FF ∨ (s.isEff PTC_ONU_ID_VALID (atChan c.val) = true ∧ s.getEff PTC_ONU_ID_ID (atChan c.val) = o.toNat)) ∧ (32 ≤ (s.conv c.val).ploamd.length)) ∧
    (∃ s : State, ∃ c : Chan, ∃ x : List Byte, ∃ l : List (List Byte), (s.running = true) ∧ ((s.conv c.val).ploamd = x :: l)) ∧
    (∃ s : State, (s.running = true)) ∧
    (∃ s : State, (s.running = true)) ∧
    (∃ s : State, (s.running = true)) ∧
    (∃ s : State, (s.running = true)) ∧
    (∃ s : State, ∃ c : Chan, ∃ x : XgemRx, (s.running = true) ∧ (s.delineated c.val x = true) ∧ (x.hecOk = false)) ∧
    (∃ s : State, ∃ c : Chan, ∃ x : XgemRx, ∃ i : Nat, ∃ e : BitVec 64, (s.running = true) ∧ (s.delineated c.val x = true) ∧ (x.hecOk = true) ∧ (x.idle = false) ∧ (x.errHdr = false) ∧ (x.errBody = false) ∧ (x.last = false) ∧ (x.keyIdx = 0) ∧ (s.pidEntry c.val x.port.toNat = some (i, e)) ∧ (e.getLsbD 44 = false) ∧ (e.getLsbD 58 = false) ∧ (e.toNat / 2 ^ 59 % 4 < 3) ∧ (e.toNat / 2 ^ 59 % 4 ≠ 1) ∧ ((s.conv c.val).reasm.find? (fun r => r.port == x.port.toNat) = none)) ∧
    (∃ s : State, ∃ c : Chan, ∃ x : XgemRx, (s.running = true) ∧ (s.delineated c.val x = true) ∧ (x.hecOk = true) ∧ (x.idle = false) ∧ (x.errHdr = false) ∧ (s.pidEntry c.val x.port.toNat = none)) ∧
    (∃ s : State, (s.running = true)) :=
  ⟨⟨r0, 1, by decide⟩,
   ⟨r0.setConv 1 { ploamu := List.replicate 8 [] }, 1, by decide⟩,
   ⟨r0, by decide⟩,
   ⟨r0.setFramer 1 { sync := .sync }, 1, 0x3FF, by decide⟩,
   ⟨r0.setFramer 1 { sync := .sync }, 1, 5, by decide⟩,
   ⟨((r0.setFramer 1 { sync := .sync }).setConv 1 { ploamd := List.replicate 32 [] }).wrEff PTC_ONU_ID (atChan 1) (setBits 0x80000000#32 PTC_ONU_ID_VALID.hi PTC_ONU_ID_VALID.lo 1), 1, 0, by decide⟩,
   ⟨r0.setConv 1 { ploamd := [[], [1]] }, 1, [], [[1]], by decide⟩,
   ⟨r0.wr PTC_PID_STAGE0 (onDie 1) 5, by decide⟩,
   ⟨{ r0 with pon := { r0.pon with pid := [(4099, 77)] } }, by decide⟩,
   ⟨r0.wr EST_ALLOC_STAGE (onDie 1) 5, by decide⟩,
   ⟨{ r0 with pon := { r0.pon with alloc := [(1027, 77)] } }, by decide⟩,
   ⟨r0.setFramer 1 { sync := .sync }, 1, ⟨false, false, false, false, 5, 0, true, false, 0, [1, 2]⟩, by decide⟩,
   ⟨{ (r0.setFramer 1 { sync := .sync }) with pon := { (r0.setFramer 1 { sync := .sync }).pon with pid := [(0, 0xC000000000050000)] } }, 1, ⟨true, false, false, false, 5, 0, false, false, 0, [1, 2]⟩, 0, 0xC000000000050000, by decide⟩,
   ⟨(r0.setFramer 1 { sync := .sync }).setConv 1 { reasm := [⟨5, 0, 0, 0, [], none⟩] }, 1, ⟨true, false, false, false, 5, 0, false, false, 0, [1, 2]⟩, by decide⟩,
   ⟨r0.setConv 1 { frames := 5, reasm := [⟨7, 2, 0, 0, [], none⟩] }, by decide⟩⟩
theorem wit_UpstreamBurstsComplete :
    (∃ s : State, (s.running = true)) ∧
    (∃ s : State, (s.running = true)) ∧
    (∃ s : State, ∃ c : Chan, ∃ g : Grant, (s.running = true) ∧ ((s.framer c.val).sync = .sync) ∧ (g.hecOk = false)) ∧
    (∃ s : State, ∃ c : Chan, ∃ g : Grant, (s.running = true) ∧ ((s.framer c.val).sync = .sync) ∧ (g.hecOk = true) ∧ (s.actState c.val = 4) ∧ (s.isEff PTC_ONU_ID_VALID (atChan c.val) = true) ∧ (s.getEff PTC_ONU_ID_ID (atChan c.val) = g.allocId.toNat) ∧ (s.is PWR_PS_STAT_TX_ON (d0i c.val) = true) ∧ (g.start.toNat ≠ 0xFFFF) ∧ (g.start.toNat < frameUw (s.xgs c.val) * s.upW c.val / 32) ∧ (g.size ≠ 0) ∧ ((s.conv c.val).nBursts < 64) ∧ ((s.conv c.val).nAllocs < 256)) ∧
    (∃ s : State, ∃ c : Chan, ∃ g : Grant, (s.running = true) ∧ ((s.framer c.val).sync = .sync) ∧ (g.hecOk = true) ∧ (s.actState c.val = 4) ∧ (s.isEff PTC_ONU_ID_VALID (atChan c.val) = true) ∧ (s.getEff PTC_ONU_ID_ID (atChan c.val) = g.allocId.toNat) ∧ (s.is PWR_PS_STAT_TX_ON (d0i c.val) = true) ∧ (g.start.toNat ≠ 0xFFFF) ∧ (frameUw (s.xgs c.val) * s.upW c.val / 32 ≤ g.start.toNat)) ∧
    (∃ s : State, ∃ c : Chan, ∃ g : Grant, (s.running = true) ∧ ((s.framer c.val).sync = .sync) ∧ (g.hecOk = true) ∧ (s.actState c.val = 4) ∧ (s.isEff PTC_ONU_ID_VALID (atChan c.val) = true) ∧ (s.getEff PTC_ONU_ID_ID (atChan c.val) = g.allocId.toNat) ∧ (s.is PWR_PS_STAT_TX_ON (d0i c.val) = true) ∧ (g.start.toNat ≠ 0xFFFF) ∧ (g.start.toNat < frameUw (s.xgs c.val) * s.upW c.val / 32) ∧ (g.size = 0) ∧ (g.ploamu = false) ∧ (g.dbru = false)) ∧
    (∃ s : State, ∃ c : Chan, ∃ g : Grant, (s.running = true) ∧ ((s.framer c.val).sync = .sync) ∧ (g.hecOk = true) ∧ (s.actState c.val = 4) ∧ (s.isEff PTC_ONU_ID_VALID (atChan c.val) = true) ∧ (s.getEff PTC_ONU_ID_ID (atChan c.val) = g.allocId.toNat) ∧ (s.is PWR_PS_STAT_TX_ON (d0i c.val) = true) ∧ (g.start.toNat ≠ 0xFFFF) ∧ (g.start.toNat < frameUw (s.xgs c.val) * s.upW c.val / 32) ∧ (g.size ≠ 0) ∧ (64 ≤ (s.conv c.val).nBursts ∨ 256 ≤ (s.conv c.val).nAllocs)) ∧
    (∃ s : State, ∃ c : Chan, ∃ g : Grant, (s.running = true) ∧ ((s.framer c.val).sync = .sync) ∧ (g.hecOk = true) ∧ (s.actState c.val = 4) ∧ (s.isEff PTC_ONU_ID_VALID (atChan c.val) = true) ∧ (s.getEff PTC_ONU_ID_ID (atChan c.val) = g.allocId.toNat) ∧ (g.start.toNat ≠ 0xFFFF) ∧ (g.start.toNat < frameUw (s.xgs c.val) * s.upW c.val / 32) ∧ (s.is PWR_PS_STAT_TX_ON (d0i c.val) = false)) ∧
    (∃ s : State, ∃ c : Chan, ∃ k : Nat, ∃ n : Nat, ∃ b : Burst, ∃ l : List Nat, (s.running = true) ∧ ((s.conv c.val).waits = n :: l) ∧ ((s.conv c.val).bursts.find? (fun b => b.num == n) = some b) ∧ (b.ready = false) ∧ (bits b.profCfg 31 31 = 1) ∧ (k + fillLead (s.xgs c.val) ≤ b.pos / b.wordBits) ∧ (∀ x ∈ (s.conv c.val).bursts, x.ready = true → (x.span (frameUw (s.xgs c.val) * b.wordBits)).2 ≤ (b.span (frameUw (s.xgs c.val) * b.wordBits)).1)) ∧
    (∃ s : State, ∃ c : Chan, ∃ n : Nat, ∃ b : Burst, ∃ l : List Nat, (s.running = true) ∧ ((s.conv c.val).waits = n :: l) ∧ ((s.conv c.val).bursts.find? (fun b => b.num == n) = some b) ∧ (b.ready = false) ∧ (bits b.profCfg 31 31 = 0)) ∧
    (∃ s : State, ∃ c : Chan, ∃ k : Nat, ∃ n : Nat, ∃ b : Burst, ∃ l : List Nat, (s.running = true) ∧ ((s.conv c.val).waits = n :: l) ∧ ((s.conv c.val).bursts.find? (fun b => b.num == n) = some b) ∧ (b.ready = true ∨ bits b.profCfg 31 31 = 1) ∧ (b.pos / b.wordBits < k + fillLead (s.xgs c.val))) ∧
    (∃ s : State, ∃ c : Chan, ∃ k : Nat, ∃ n : Nat, ∃ b : Burst, ∃ x : Burst, ∃ l : List Nat, (s.running = true) ∧ ((s.conv c.val).waits = n :: l) ∧ ((s.conv c.val).bursts.find? (fun b => b.num == n) = some b) ∧ (b.ready = false) ∧ (bits b.profCfg 31 31 = 1) ∧ (k + fillLead (s.xgs c.val) ≤ b.pos / b.wordBits) ∧ (x ∈ (s.conv c.val).bursts) ∧ (x.ready = true) ∧ ((b.span (frameUw (s.xgs c.val) * b.wordBits)).1 < (x.span (frameUw (s.xgs c.val) * b.wordBits)).2)) ∧
    (∃ s : State, ∃ x : FillRead, ∃ b : Burst, (s.running = true) ∧ ((s.conv x.chan.val).bursts.find? (fun b => b.ready && !b.filled && !(s.conv x.chan.val).waits.contains b.num) = some b)) ∧
    (∃ s : State, ∃ c : Chan, ∃ b : Burst, (s.running = true) ∧ ((s.conv c.val).bursts.find? (fun b => b.filled && !b.launched) = some b) ∧ (s.is LANE_PTX_CFG_EN (atChan c.val) = true) ∧ (s.laserOff c.val = false)) ∧
    (∃ s : State, ∃ c : Chan, ∃ b : Burst, (s.running = true) ∧ ((s.conv c.val).bursts.find? (fun b => b.filled && !b.launched) = some b) ∧ (s.is LANE_PTX_CFG_EN (atChan c.val) = false ∨ s.laserOff c.val = true)) :=
  ⟨⟨r0, by decide⟩,
   ⟨r0, by decide⟩,
   ⟨r0.setFramer 1 { sync := .sync }, 1, ⟨false, 0, false, false, false, 0, 0, 0⟩, by decide⟩,
   ⟨((((r0.setFramer 1 { sync := .sync }).put PTC_ACT_STAT_STATE (atChan 1) 4).put PWR_PS_STAT_TX_ON (d0i 1) 1).wrEff PTC_ONU_ID (atChan 1) (setBits 0#32 PTC_ONU_ID_VALID.hi PTC_ONU_ID_VALID.lo 1)), 1, ⟨true, 0, false, false, false, 100, 4, 0⟩, by decide⟩,
   ⟨((((r0.setFramer 1 { sync := .sync }).put PTC_ACT_STAT_STATE (atChan 1) 4).put PWR_PS_STAT_TX_ON (d0i 1) 1).wrEff PTC_ONU_ID (atChan 1) (setBits 0#32 PTC_ONU_ID_VALID.hi PTC_ONU_ID_VALID.lo 1)), 1, ⟨true, 0, false, false, false, 65000, 4, 0⟩, by decide⟩,
   ⟨((((r0.setFramer 1 { sync := .sync }).put PTC_ACT_STAT_STATE (atChan 1) 4).put PWR_PS_STAT_TX_ON (d0i 1) 1).wrEff PTC_ONU_ID (atChan 1) (setBits 0#32 PTC_ONU_ID_VALID.hi PTC_ONU_ID_VALID.lo 1)), 1, ⟨true, 0, false, false, false, 100, 0, 0⟩, by decide⟩,
   ⟨((((r0.setFramer 1 { sync := .sync }).put PTC_ACT_STAT_STATE (atChan 1) 4).put PWR_PS_STAT_TX_ON (d0i 1) 1).wrEff PTC_ONU_ID (atChan 1) (setBits 0#32 PTC_ONU_ID_VALID.hi PTC_ONU_ID_VALID.lo 1)).setConv 1 { nBursts := 64 }, 1, ⟨true, 0, false, false, false, 100, 4, 0⟩, by decide⟩,
   ⟨((((r0.setFramer 1 { sync := .sync }).put PTC_ACT_STAT_STATE (atChan 1) 4).put PWR_PS_STAT_TX_ON (d0i 1) 1).wrEff PTC_ONU_ID (atChan 1) (setBits 0#32 PTC_ONU_ID_VALID.hi PTC_ONU_ID_VALID.lo 1)).put PWR_PS_STAT_TX_ON (d0i 1) 0, 1, ⟨true, 0, false, false, false, 100, 4, 0⟩, by decide⟩,
   ⟨r0.setConv 1 { bursts := [({ kind := .serial, start := 0, delay := 0, prof := 0, profCfg := 0x80000000#32, preamble := 0, delim := 0, frame := 0, pos := 1000000, wordBits := 64, lead := 0, lag := 0, ploamuFlag := false } : Burst)], waits := [0] }, 1, 0, 0, ({ kind := .serial, start := 0, delay := 0, prof := 0, profCfg := 0x80000000#32, preamble := 0, delim := 0, frame := 0, pos := 1000000, wordBits := 64, lead := 0, lag := 0, ploamuFlag := false } : Burst), [], by decide⟩,
   ⟨r0.setConv 1 { bursts := [({ kind := .serial, start := 0, delay := 0, prof := 0, profCfg := 0#32, preamble := 0, delim := 0, frame := 0, pos := 1000000, wordBits := 64, lead := 0, lag := 0, ploamuFlag := false } : Burst)], waits := [0] }, 1, 0, ({ kind := .serial, start := 0, delay := 0, prof := 0, profCfg := 0#32, preamble := 0, delim := 0, frame := 0, pos := 1000000, wordBits := 64, lead := 0, lag := 0, ploamuFlag := false } : Burst), [], by decide⟩,
   ⟨r0.setConv 1 { bursts := [({ kind := .serial, start := 0, delay := 0, prof := 0, profCfg := 0x80000000#32, preamble := 0, delim := 0, frame := 0, pos := 1000000, wordBits := 64, lead := 0, lag := 0, ploamuFlag := false } : Burst)], waits := [0] }, 1, 15000, 0, ({ kind := .serial, start := 0, delay := 0, prof := 0, profCfg := 0x80000000#32, preamble := 0, delim := 0, frame := 0, pos := 1000000, wordBits := 64, lead := 0, lag := 0, ploamuFlag := false } : Burst), [], by decide⟩,
   ⟨r0.setConv 1 { bursts := [{ ({ kind := .serial, start := 0, delay := 0, prof := 0, profCfg := 0x80000000#32, preamble := 0, delim := 0, frame := 0, pos := 1000000, wordBits := 64, lead := 0, lag := 0, ploamuFlag := false } : Burst) with num := 7, ready := true }, ({ kind := .serial, start := 0, delay := 0, prof := 0, profCfg := 0x80000000#32, preamble := 0, delim := 0, frame := 0, pos := 1000000, wordBits := 64, lead := 0, lag := 0, ploamuFlag := false } : Burst)], waits := [0] }, 1, 0, 0, ({ kind := .serial, start := 0, delay := 0, prof := 0, profCfg := 0x80000000#32, preamble := 0, delim := 0, frame := 0, pos := 1000000, wordBits := 64, lead := 0, lag := 0, ploamuFlag := false } : Burst), { ({ kind := .serial, start := 0, delay := 0, prof := 0, profCfg := 0x80000000#32, preamble := 0, delim := 0, frame := 0, pos := 1000000, wordBits := 64, lead := 0, lag := 0, ploamuFlag := false } : Burst) with num := 7, ready := true }, [], by decide⟩,
   ⟨r0.setConv 1 { bursts := [{ ({ kind := .serial, start := 0, delay := 0, prof := 0, profCfg := 0x80000000#32, preamble := 0, delim := 0, frame := 0, pos := 1000000, wordBits := 64, lead := 0, lag := 0, ploamuFlag := false } : Burst) with ready := true, ploamuFlag := true }], ploamu := [[7]] }, ⟨1, .clean, .clean, 0⟩, { ({ kind := .serial, start := 0, delay := 0, prof := 0, profCfg := 0x80000000#32, preamble := 0, delim := 0, frame := 0, pos := 1000000, wordBits := 64, lead := 0, lag := 0, ploamuFlag := false } : Burst) with ready := true, ploamuFlag := true }, by decide⟩,
   ⟨((r0.put LANE_PTX_CFG_EN (atChan 1) 1 |>.put LANE_PTX_CFG_FORCE_DIS (atChan 1) 0).put PTC_ACT_STAT_STATE (atChan 1) 4).setConv 1 { bursts := [{ ({ kind := .serial, start := 0, delay := 0, prof := 0, profCfg := 0x80000000#32, preamble := 0, delim := 0, frame := 0, pos := 1000000, wordBits := 64, lead := 0, lag := 0, ploamuFlag := false } : Burst) with filled := true }] }, 1, { ({ kind := .serial, start := 0, delay := 0, prof := 0, profCfg := 0x80000000#32, preamble := 0, delim := 0, frame := 0, pos := 1000000, wordBits := 64, lead := 0, lag := 0, ploamuFlag := false } : Burst) with filled := true }, by decide⟩,
   ⟨r0.setConv 1 { bursts := [{ ({ kind := .serial, start := 0, delay := 0, prof := 0, profCfg := 0x80000000#32, preamble := 0, delim := 0, frame := 0, pos := 1000000, wordBits := 64, lead := 0, lag := 0, ploamuFlag := false } : Burst) with filled := true }] }, 1, { ({ kind := .serial, start := 0, delay := 0, prof := 0, profCfg := 0x80000000#32, preamble := 0, delim := 0, frame := 0, pos := 1000000, wordBits := 64, lead := 0, lag := 0, ploamuFlag := false } : Burst) with filled := true }, by decide⟩⟩
theorem wit_ChannelGroupComplete :
    (∃ s : State, ∃ c : Chan, ∃ x : BondFrame, ∃ l : List BondFrame, (s.islandRuns (chanDie c.val) 7 = true) ∧ (Tab.get s.bond.inbox [] c.val = x :: l) ∧ (tagValid x = true) ∧ (s.bondOn = true) ∧ (s.bondMember c.val = true) ∧ (cellSum (Tab.get s.bond.skew [] c.val) + (untag x).cells ≤ 65536) ∧ ((Tab.get s.bond.skew [] c.val).length < 24576)) ∧
    (∃ s : State, ∃ c : Chan, ∃ x : BondFrame, ∃ l : List BondFrame, (s.islandRuns (chanDie c.val) 7 = true) ∧ (Tab.get s.bond.inbox [] c.val = x :: l) ∧ (tagValid x = false)) ∧
    (∃ s : State, ∃ c : Chan, ∃ x : BondFrame, ∃ l : List BondFrame, (s.islandRuns (chanDie c.val) 7 = true) ∧ (Tab.get s.bond.inbox [] c.val = x :: l) ∧ (tagValid x = true) ∧ (s.bondOn = false ∨ s.bondMember c.val = false)) ∧
    (∃ s : State, ∃ c : Chan, ∃ x : BondFrame, ∃ l : List BondFrame, (s.islandRuns (chanDie c.val) 7 = true) ∧ (Tab.get s.bond.inbox [] c.val = x :: l) ∧ (tagValid x = true) ∧ (s.bondOn = true) ∧ (s.bondMember c.val = true) ∧ (65536 < cellSum (Tab.get s.bond.skew [] c.val) + (untag x).cells ∨ 24576 ≤ (Tab.get s.bond.skew [] c.val).length)) ∧
    (∃ s : State, ∃ c : Chan, ∃ e : Ecc, ∃ x : BondFrame, ∃ l : List BondFrame, (s.islandRuns (chanDie c.val) 7 = true) ∧ (eccBad e = false) ∧ (Tab.get s.bond.skew [] c.val = x :: l) ∧ (s.bondOn = false ∨ s.bondMember c.val = false)) ∧
    (∃ s : State, ∃ c : Chan, ∃ e : Ecc, ∃ x : BondFrame, ∃ l : List BondFrame, (s.islandRuns (chanDie c.val) 7 = true) ∧ (eccBad e = false) ∧ (Tab.get s.bond.skew [] c.val = x :: l) ∧ (s.bondOn = true) ∧ (s.bondMember c.val = true)) ∧
    (∃ s : State, ∃ c : Chan, ∃ x : BondFrame, ∃ l : List BondFrame, ∃ h : Nat, (s.islandRuns s.bondHome 7 = true) ∧ (s.route (chanDie c.val) s.bondHome = .clear h) ∧ (Tab.get s.bond.coming [] c.val = x :: l) ∧ (s.isHeld x.stream x.seq = true)) ∧
    (∃ s : State, ∃ c : Chan, ∃ x : BondFrame, ∃ l : List BondFrame, ∃ h : Nat, (s.islandRuns s.bondHome 7 = true) ∧ (s.route (chanDie c.val) s.bondHome = .clear h) ∧ (Tab.get s.bond.coming [] c.val = x :: l) ∧ (s.isHeld x.stream x.seq = false) ∧ (Tab.get s.bond.synced false x.stream = true) ∧ (x.resync = false) ∧ (2 ^ 23 ≤ ahead (s.bondExp x.stream) x.seq)) ∧
    (∃ s : State, ∃ c : Chan, ∃ x : BondFrame, ∃ l : List BondFrame, ∃ h : Nat, (s.islandRuns s.bondHome 7 = true) ∧ (s.route (chanDie c.val) s.bondHome = .clear h) ∧ (Tab.get s.bond.coming [] c.val = x :: l) ∧ (s.bond.held = []) ∧ (s.mayPass x.stream = true) ∧ (s.isHeld x.stream x.seq = false) ∧ (Tab.get s.bond.synced false x.stream = true) ∧ (x.resync = false) ∧ (s.bondExp x.stream = x.seq) ∧ (x.seq < 2 ^ 24) ∧ (0 < s.getEff BOND_GROUP_CFG_WINDOW d0)) ∧
    (∃ s : State, ∃ c : Chan, ∃ x : BondFrame, ∃ l : List BondFrame, ∃ h : Nat, (s.islandRuns s.bondHome 7 = true) ∧ (s.route (chanDie c.val) s.bondHome = .clear h) ∧ (Tab.get s.bond.coming [] c.val = x :: l) ∧ (s.isHeld x.stream x.seq = false) ∧ (s.heldAt x.stream (s.bondExp x.stream) = none) ∧ (Tab.get s.bond.synced false x.stream = true) ∧ (x.resync = false) ∧ (0 < ahead (s.bondExp x.stream) x.seq) ∧ (ahead (s.bondExp x.stream) x.seq < 2 ^ 23) ∧ (ahead (s.bondExp x.stream) x.seq < s.getEff BOND_GROUP_CFG_WINDOW d0) ∧ (x.seq ≠ s.bondExp x.stream) ∧ (s.storeFull x = false)) ∧
    (∃ s : State, ∃ k : Fin 8, ∃ o : BondFrame, ∃ y : BondFrame, (s.unitRuns s.bondHome 7 = true) ∧ ((s.heldOf k.val).head? = some o) ∧ (s.fastSkip k.val = false) ∧ (o.edge + s.getEff BOND_GROUP_TMO_TIMEOUT d0 * 1250 ≤ s.clk.mc) ∧ (s.gapped k.val = true) ∧ (lowestHeld (s.bondExp k.val) (s.heldOf k.val) = some y) ∧ (y.seq < 2 ^ 24) ∧ (s.mayPass k.val = true) ∧ (s.heldAt k.val ((y.seq + 1) % 2 ^ 24) = none)) ∧
    (∃ s : State, ∃ k : Fin 8, ∃ o : BondFrame, ∃ y : BondFrame, (s.unitRuns s.bondHome 7 = true) ∧ ((s.heldOf k.val).head? = some o) ∧ (s.fastSkip k.val = false) ∧ (o.edge + s.getEff BOND_GROUP_TMO_TIMEOUT d0 * 1250 ≤ s.clk.mc) ∧ (s.gapped k.val = true) ∧ (lowestHeld (s.bondExp k.val) (s.heldOf k.val) = some y) ∧ (y.seq < 2 ^ 24) ∧ (s.mayPass k.val = false)) ∧
    (∃ s : State, ∃ k : Fin 8, ∃ y : BondFrame, (s.unitRuns s.bondHome 7 = true) ∧ (s.fastSkip k.val = true) ∧ (s.gapped k.val = true) ∧ (lowestHeld (s.bondExp k.val) (s.heldOf k.val) = some y) ∧ (y.seq < 2 ^ 24) ∧ (s.mayPass k.val = true) ∧ (s.heldAt k.val ((y.seq + 1) % 2 ^ 24) = none)) ∧
    (∃ s : State, ∃ k : Fin 8, ∃ y : BondFrame, (s.unitRuns s.bondHome 7 = true) ∧ (s.fastSkip k.val = true) ∧ (s.gapped k.val = true) ∧ (lowestHeld (s.bondExp k.val) (s.heldOf k.val) = some y) ∧ (y.seq < 2 ^ 24) ∧ (s.mayPass k.val = false)) ∧
    (∃ s : State, (s.running = true)) ∧
    (∃ s : State, ∃ c : Chan, (s.islandRuns 0 7 = true) ∧ (bitOf (s.get BOND_SKEW_STAT_ARMED d0) c.val = true) ∧ (bitOf (s.get BOND_SKEW_STAT_CAPTURED d0) c.val = false) ∧ ((s.framer c.val).sync = .sync) ∧ ((s.framer c.val).sfc.toNat % 2 ^ 16 = s.get BOND_SKEW_CTL_SF_LO d0)) ∧
    (∃ s : State, ∃ c : Chan, (s.islandRuns 0 7 = true) ∧ (s.bondMember c.val = true) ∧ (bitOf (s.get BOND_GROUP_STAT_RX_UP d0) c.val ≠ s.receiveUp c.val)) ∧
    (∃ s : State, (s.running = true) ∧ (s.groupCause = 0)) ∧
    (∃ s : State, (s.running = true) ∧ (s.groupCause ≠ 0)) ∧
    (∃ s : State, (s.running = true)) :=
  ⟨⟨((r0.put BOND_GROUP_STAT_EN_EFF d0 1).put BOND_GROUP_STAT_MEMBERS_EFF d0 2).setBond { r0.bond with inbox := [(1, [{ chan := 1, dtag := 0, sec := 0, ns := 0, bytes := [0x40, 0, 0, 7, 1, 2] }])] }, 1, { chan := 1, dtag := 0, sec := 0, ns := 0, bytes := [0x40, 0, 0, 7, 1, 2] }, [], by decide⟩,
   ⟨((r0.put BOND_GROUP_STAT_EN_EFF d0 1).put BOND_GROUP_STAT_MEMBERS_EFF d0 2).setBond { r0.bond with inbox := [(1, [{ chan := 1, dtag := 0, sec := 0, ns := 0, bytes := [0x80, 0, 0, 7, 1, 2] }])] }, 1, { chan := 1, dtag := 0, sec := 0, ns := 0, bytes := [0x80, 0, 0, 7, 1, 2] }, [], by decide⟩,
   ⟨r0.setBond { r0.bond with inbox := [(1, [{ chan := 1, dtag := 0, sec := 0, ns := 0, bytes := [0x40, 0, 0, 7, 1, 2] }])] }, 1, { chan := 1, dtag := 0, sec := 0, ns := 0, bytes := [0x40, 0, 0, 7, 1, 2] }, [], by decide⟩,
   ⟨((r0.put BOND_GROUP_STAT_EN_EFF d0 1).put BOND_GROUP_STAT_MEMBERS_EFF d0 2).setBond { r0.bond with skew := [(1, [{ ({ chan := 1, dtag := 0, sec := 0, ns := 0, bytes := [], stream := 2, seq := 5 } : BondFrame) with cells := 65536 }])], inbox := [(1, [{ chan := 1, dtag := 0, sec := 0, ns := 0, bytes := [0x40, 0, 0, 7, 1, 2] }])] }, 1, { chan := 1, dtag := 0, sec := 0, ns := 0, bytes := [0x40, 0, 0, 7, 1, 2] }, [], by decide⟩,
   ⟨r0.setBond { r0.bond with skew := [(1, [({ chan := 1, dtag := 0, sec := 0, ns := 0, bytes := [], stream := 2, seq := 5 } : BondFrame)])] }, 1, .clean, ({ chan := 1, dtag := 0, sec := 0, ns := 0, bytes := [], stream := 2, seq := 5 } : BondFrame), [], by decide⟩,
   ⟨((r0.put BOND_GROUP_STAT_EN_EFF d0 1).put BOND_GROUP_STAT_MEMBERS_EFF d0 2).setBond { r0.bond with skew := [(1, [{ chan := 1, dtag := 0, sec := 0, ns := 0, bytes := [0x40, 0, 0, 7, 1, 2] }])] }, 1, .clean, { chan := 1, dtag := 0, sec := 0, ns := 0, bytes := [0x40, 0, 0, 7, 1, 2] }, [], by decide⟩,
   ⟨r0.setBond { r0.bond with coming := [(1, [({ chan := 1, dtag := 0, sec := 0, ns := 0, bytes := [], stream := 2, seq := 5 } : BondFrame)])], held := [({ chan := 1, dtag := 0, sec := 0, ns := 0, bytes := [], stream := 2, seq := 5 } : BondFrame)] }, 1, ({ chan := 1, dtag := 0, sec := 0, ns := 0, bytes := [], stream := 2, seq := 5 } : BondFrame), [], 0, by decide⟩,
   ⟨r0.setBond { r0.bond with coming := [(1, [({ chan := 1, dtag := 0, sec := 0, ns := 0, bytes := [], stream := 2, seq := 5 } : BondFrame)])], synced := [(2, true)], exp := [(2, 6)] }, 1, ({ chan := 1, dtag := 0, sec := 0, ns := 0, bytes := [], stream := 2, seq := 5 } : BondFrame), [], 0, by decide⟩,
   ⟨(r0.wrEff BOND_GROUP_CFG d0 (setBits 0#32 BOND_GROUP_CFG_WINDOW.hi BOND_GROUP_CFG_WINDOW.lo 1000)).setBond { r0.bond with coming := [(1, [({ chan := 1, dtag := 0, sec := 0, ns := 0, bytes := [], stream := 2, seq := 5 } : BondFrame)])], synced := [(2, true)], exp := [(2, 5)] }, 1, ({ chan := 1, dtag := 0, sec := 0, ns := 0, bytes := [], stream := 2, seq := 5 } : BondFrame), [], 0, by decide⟩,
   ⟨(r0.wrEff BOND_GROUP_CFG d0 (setBits 0#32 BOND_GROUP_CFG_WINDOW.hi BOND_GROUP_CFG_WINDOW.lo 1000)).setBond { r0.bond with coming := [(1, [({ chan := 1, dtag := 0, sec := 0, ns := 0, bytes := [], stream := 2, seq := 5 } : BondFrame)])], synced := [(2, true)], exp := [(2, 4)] }, 1, ({ chan := 1, dtag := 0, sec := 0, ns := 0, bytes := [], stream := 2, seq := 5 } : BondFrame), [], 0, by decide⟩,
   ⟨({ r0 with clk := { r0.clk with mc := 1000000000 } }.put BOND_GROUP_STAT_MEMBERS_EFF d0 1 |>.put BOND_GROUP_STAT_RX_UP d0 1).setBond { r0.bond with held := [({ chan := 1, dtag := 0, sec := 0, ns := 0, bytes := [], stream := 2, seq := 5 } : BondFrame)], exp := [(2, 4)] }, 2, ({ chan := 1, dtag := 0, sec := 0, ns := 0, bytes := [], stream := 2, seq := 5 } : BondFrame), ({ chan := 1, dtag := 0, sec := 0, ns := 0, bytes := [], stream := 2, seq := 5 } : BondFrame), by decide⟩,
   ⟨({ r0 with clk := { r0.clk with mc := 1000000000 } }.put BOND_GROUP_STAT_MEMBERS_EFF d0 1 |>.put BOND_GROUP_STAT_RX_UP d0 1).setBond { r0.bond with held := [({ chan := 1, dtag := 0, sec := 0, ns := 0, bytes := [], stream := 2, seq := 5 } : BondFrame)], exp := [(2, 4)], refused := [{ ({ chan := 1, dtag := 0, sec := 0, ns := 0, bytes := [], stream := 2, seq := 5 } : BondFrame) with seq := 3 }] }, 2, ({ chan := 1, dtag := 0, sec := 0, ns := 0, bytes := [], stream := 2, seq := 5 } : BondFrame), ({ chan := 1, dtag := 0, sec := 0, ns := 0, bytes := [], stream := 2, seq := 5 } : BondFrame), by decide⟩,
   ⟨r0.setBond { r0.bond with held := [({ chan := 1, dtag := 0, sec := 0, ns := 0, bytes := [], stream := 2, seq := 5 } : BondFrame)], exp := [(2, 4)] }, 2, ({ chan := 1, dtag := 0, sec := 0, ns := 0, bytes := [], stream := 2, seq := 5 } : BondFrame), by decide⟩,
   ⟨r0.setBond { r0.bond with held := [({ chan := 1, dtag := 0, sec := 0, ns := 0, bytes := [], stream := 2, seq := 5 } : BondFrame)], exp := [(2, 4)], refused := [{ ({ chan := 1, dtag := 0, sec := 0, ns := 0, bytes := [], stream := 2, seq := 5 } : BondFrame) with seq := 3 }] }, 2, ({ chan := 1, dtag := 0, sec := 0, ns := 0, bytes := [], stream := 2, seq := 5 } : BondFrame), by decide⟩,
   ⟨r0, by decide⟩,
   ⟨(r0.setFramer 1 { sync := .sync }).put BOND_SKEW_STAT_ARMED d0 2, 1, by decide⟩,
   ⟨((r0.put BOND_GROUP_STAT_EN_EFF d0 1).put BOND_GROUP_STAT_MEMBERS_EFF d0 2).put BOND_GROUP_STAT_RX_UP d0 2, 1, by decide⟩,
   ⟨r0, by decide⟩,
   ⟨r0.put BOND_GROUP_CFG_EN d0 1, by decide⟩,
   ⟨r0, by decide⟩⟩
theorem wit_TileRegisterArithmeticCompletes :
    (∃ s : State, ∃ x : Issue, ∃ u : Thread, ∃ d : Fin 32, ∃ a : Fin 32, ∃ b : Fin 32, (s.issues x u (Tile.encR 0 d.val a.val b.val 0) 1)) ∧
    (∃ s : State, ∃ x : Issue, ∃ u : Thread, ∃ d : Fin 32, ∃ a : Fin 32, ∃ b : Fin 32, (s.issues x u (Tile.encR 0 d.val a.val b.val 1) 1)) ∧
    (∃ s : State, ∃ x : Issue, ∃ u : Thread, ∃ d : Fin 32, ∃ a : Fin 32, ∃ b : Fin 32, (s.issues x u (Tile.encR 0 d.val a.val b.val 2) 1)) ∧
    (∃ s : State, ∃ x : Issue, ∃ u : Thread, ∃ d : Fin 32, ∃ a : Fin 32, ∃ b : Fin 32, (s.issues x u (Tile.encR 0 d.val a.val b.val 3) 1)) ∧
    (∃ s : State, ∃ x : Issue, ∃ u : Thread, ∃ d : Fin 32, ∃ a : Fin 32, ∃ b : Fin 32, (s.issues x u (Tile.encR 0 d.val a.val b.val 4) 1)) ∧
    (∃ s : State, ∃ x : Issue, ∃ u : Thread, ∃ d : Fin 32, ∃ a : Fin 32, ∃ b : Fin 32, (s.issues x u (Tile.encR 0 d.val a.val b.val 5) 1)) ∧
    (∃ s : State, ∃ x : Issue, ∃ u : Thread, ∃ d : Fin 32, ∃ a : Fin 32, ∃ b : Fin 32, (s.issues x u (Tile.encR 0 d.val a.val b.val 6) 1)) ∧
    (∃ s : State, ∃ x : Issue, ∃ u : Thread, ∃ d : Fin 32, ∃ a : Fin 32, ∃ b : Fin 32, (s.issues x u (Tile.encR 0 d.val a.val b.val 7) 1)) ∧
    (∃ s : State, ∃ x : Issue, ∃ u : Thread, ∃ d : Fin 32, ∃ a : Fin 32, ∃ b : Fin 32, (s.issues x u (Tile.encR 0 d.val a.val b.val 8) 1)) ∧
    (∃ s : State, ∃ x : Issue, ∃ u : Thread, ∃ d : Fin 32, ∃ a : Fin 32, ∃ b : Fin 32, (s.issues x u (Tile.encR 0 d.val a.val b.val 9) 1)) ∧
    (∃ s : State, ∃ x : Issue, ∃ u : Thread, ∃ d : Fin 32, ∃ a : Fin 32, ∃ b : Fin 32, (s.issues x u (Tile.encR 0 d.val a.val b.val 11) 1)) ∧
    (∃ s : State, ∃ x : Issue, ∃ u : Thread, ∃ a : Fin 32, ∃ b : Fin 32, (s.issues x u (Tile.encR 0 0 a.val b.val 10) 1)) :=
  ⟨⟨tileAt x0 u0 (Tile.encR 0 3 1 2 0), x0, u0, 3, 1, 2, by decide⟩,
   ⟨tileAt x0 u0 (Tile.encR 0 3 1 2 1), x0, u0, 3, 1, 2, by decide⟩,
   ⟨tileAt x0 u0 (Tile.encR 0 3 1 2 2), x0, u0, 3, 1, 2, by decide⟩,
   ⟨tileAt x0 u0 (Tile.encR 0 3 1 2 3), x0, u0, 3, 1, 2, by decide⟩,
   ⟨tileAt x0 u0 (Tile.encR 0 3 1 2 4), x0, u0, 3, 1, 2, by decide⟩,
   ⟨tileAt x0 u0 (Tile.encR 0 3 1 2 5), x0, u0, 3, 1, 2, by decide⟩,
   ⟨tileAt x0 u0 (Tile.encR 0 3 1 2 6), x0, u0, 3, 1, 2, by decide⟩,
   ⟨tileAt x0 u0 (Tile.encR 0 3 1 2 7), x0, u0, 3, 1, 2, by decide⟩,
   ⟨tileAt x0 u0 (Tile.encR 0 3 1 2 8), x0, u0, 3, 1, 2, by decide⟩,
   ⟨tileAt x0 u0 (Tile.encR 0 3 1 2 9), x0, u0, 3, 1, 2, by decide⟩,
   ⟨tileAt x0 u0 (Tile.encR 0 3 1 2 11), x0, u0, 3, 1, 2, by decide⟩,
   ⟨tileAt x0 u0 (Tile.encR 0 0 1 2 10), x0, u0, 1, 2, by decide⟩⟩
theorem wit_TileImmediateAndFieldOperationsComplete :
    (∃ s : State, ∃ x : Issue, ∃ u : Thread, ∃ d : Fin 32, ∃ a : Fin 32, ∃ i : BitVec 16, (s.issues x u (Tile.encI 1 d.val a.val i.toNat) 1)) ∧
    (∃ s : State, ∃ x : Issue, ∃ u : Thread, ∃ d : Fin 32, ∃ a : Fin 32, ∃ i : BitVec 16, (s.issues x u (Tile.encI 2 d.val a.val i.toNat) 1)) ∧
    (∃ s : State, ∃ x : Issue, ∃ u : Thread, ∃ d : Fin 32, ∃ a : Fin 32, ∃ i : BitVec 16, (s.issues x u (Tile.encI 3 d.val a.val i.toNat) 1)) ∧
    (∃ s : State, ∃ x : Issue, ∃ u : Thread, ∃ d : Fin 32, ∃ a : Fin 32, ∃ i : BitVec 16, (s.issues x u (Tile.encI 4 d.val a.val i.toNat) 1)) ∧
    (∃ s : State, ∃ x : Issue, ∃ u : Thread, ∃ a : Fin 32, ∃ i : BitVec 16, (s.issues x u (Tile.encI 5 0 a.val i.toNat) 1)) ∧
    (∃ s : State, ∃ x : Issue, ∃ u : Thread, ∃ d : Fin 32, ∃ i : BitVec 16, (s.issues x u (Tile.encI 6 d.val 0 i.toNat) 1)) ∧
    (∃ s : State, ∃ x : Issue, ∃ u : Thread, ∃ d : Fin 32, ∃ a : Fin 32, ∃ n : Fin 32, (s.issues x u (Tile.encS d.val a.val 0 n.val) 1)) ∧
    (∃ s : State, ∃ x : Issue, ∃ u : Thread, ∃ d : Fin 32, ∃ a : Fin 32, ∃ n : Fin 32, (s.issues x u (Tile.encS d.val a.val 1 n.val) 1)) ∧
    (∃ s : State, ∃ x : Issue, ∃ u : Thread, ∃ d : Fin 32, ∃ a : Fin 32, ∃ n : Fin 32, (s.issues x u (Tile.encS d.val a.val 2 n.val) 1)) ∧
    (∃ s : State, ∃ x : Issue, ∃ u : Thread, ∃ d : Fin 32, ∃ a : Fin 32, ∃ n : Fin 32, (s.issues x u (Tile.encS d.val a.val 3 n.val) 1)) ∧
    (∃ s : State, ∃ x : Issue, ∃ u : Thread, ∃ d : Fin 32, ∃ a : Fin 32, ∃ p : Fin 32, ∃ l : Fin 32, (s.issues x u (Tile.encX 8 d.val a.val p.val l.val) 1)) ∧
    (∃ s : State, ∃ x : Issue, ∃ u : Thread, ∃ d : Fin 32, ∃ a : Fin 32, ∃ p : Fin 32, ∃ l : Fin 32, (s.issues x u (Tile.encX 9 d.val a.val p.val l.val) 1)) ∧
    (∃ s : State, ∃ x : Issue, ∃ u : Thread, ∃ d : Fin 32, ∃ k : Fin 8, (s.issues x u (Tile.encL 0x0A d.val (4 * k.val) 0) 1)) ∧
    (∃ s : State, ∃ x : Issue, ∃ u : Thread, ∃ d : Fin 32, ∃ m : Fin 16, (s.issues x u (Tile.encM 0x0B d.val 0 m.val 0) 1)) ∧
    (∃ s : State, ∃ x : Issue, ∃ u : Thread, ∃ a : Fin 32, ∃ m : Fin 16, (s.issues x u (Tile.encM 0x0C 0 a.val m.val 0) 1) ∧ (m.val ≠ 5) ∧ (m.val ≠ 6)) ∧
    (∃ s : State, ∃ x : Issue, ∃ u : Thread, ∃ a : Fin 32, (s.issues x u (Tile.encM 0x0C 0 a.val 5 0) 1) ∧ (bits (u.reg a.val) 19 16 ≤ 12) ∧ (bits (u.reg a.val) 8 0 ≤ 256)) ∧
    (∃ s : State, ∃ x : Issue, ∃ u : Thread, ∃ a : Fin 32, (s.issues x u (Tile.encM 0x0C 0 a.val 6 0) 1) ∧ (bits (u.reg a.val) 24 16 ≤ 256) ∧ (bits (u.reg a.val) 8 0 ≤ 256)) ∧
    (∃ s : State, ∃ x : Issue, ∃ u : Thread, ∃ d : Fin 32, (s.issues x u (Tile.encM 0x0D d.val 0 0 0) 1)) ∧
    (∃ s : State, ∃ x : Issue, ∃ u : Thread, ∃ a : Fin 32, (s.issues x u (Tile.encM 0x0D 0 a.val 0 1) 1)) :=
  ⟨⟨tileAt x0 u0 (Tile.encI 1 3 1 0xFFFF), x0, u0, 3, 1, 0xFFFF#16, by decide⟩,
   ⟨tileAt x0 u0 (Tile.encI 2 3 1 0xFFFF), x0, u0, 3, 1, 0xFFFF#16, by decide⟩,
   ⟨tileAt x0 u0 (Tile.encI 3 3 1 0xFFFF), x0, u0, 3, 1, 0xFFFF#16, by decide⟩,
   ⟨tileAt x0 u0 (Tile.encI 4 3 1 0xFFFF), x0, u0, 3, 1, 0xFFFF#16, by decide⟩,
   ⟨tileAt x0 u0 (Tile.encI 5 0 1 7), x0, u0, 1, 7#16, by decide⟩,
   ⟨tileAt x0 u0 (Tile.encI 6 1 0 7), x0, u0, 1, 7#16, by decide⟩,
   ⟨tileAt x0 u0 (Tile.encS 3 1 0 31), x0, u0, 3, 1, 31, by decide⟩,
   ⟨tileAt x0 u0 (Tile.encS 3 1 1 31), x0, u0, 3, 1, 31, by decide⟩,
   ⟨tileAt x0 u0 (Tile.encS 3 1 2 31), x0, u0, 3, 1, 31, by decide⟩,
   ⟨tileAt x0 u0 (Tile.encS 3 1 3 31), x0, u0, 3, 1, 31, by decide⟩,
   ⟨tileAt x0 u0 (Tile.encX 8 3 1 4 7), x0, u0, 3, 1, 4, 7, by decide⟩,
   ⟨tileAt x0 u0 (Tile.encX 9 3 1 4 7), x0, u0, 3, 1, 4, 7, by decide⟩,
   ⟨tileAt x0 u0 (Tile.encL 0x0A 3 (4 * 1) 0), x0, u0, 3, 1, by decide⟩,
   ⟨tileAt x0 u0 (Tile.encM 0x0B 3 0 9 0), x0, u0, 3, 9, by decide⟩,
   ⟨tileAt x0 u0 (Tile.encM 0x0C 0 1 11 0), x0, u0, 1, 11, by decide⟩,
   ⟨tileAt x0 u0 (Tile.encM 0x0C 0 1 5 0), x0, u0, 1, by decide⟩,
   ⟨tileAt x0 u0 (Tile.encM 0x0C 0 1 6 0), x0, u0, 1, by decide⟩,
   ⟨tileAt x0 u0 (Tile.encM 0x0D 3 0 0 0), x0, u0, 3, by decide⟩,
   ⟨tileAt x0 u0 (Tile.encM 0x0D 0 1 0 1), x0, u0, 1, by decide⟩⟩
theorem wit_TileWindowMemoryAndBranchesComplete :
    (∃ s : State, ∃ x : Issue, ∃ u : Thread, ∃ d : Fin 32, ∃ a : Fin 32, ∃ c : Fin 2, ∃ z : Fin 3, ∃ o : Fin 256, (s.issues x u (Tile.encH 0x10 d.val a.val c.val z.val o.val) 1) ∧ ((u.reg a.val).toNat + o.val + (if c.val = 1 then u.cur else 0) + 2 ^ z.val ≤ 256)) ∧
    (∃ s : State, ∃ x : Issue, ∃ u : Thread, ∃ d : Fin 32, ∃ a : Fin 32, ∃ c : Fin 2, ∃ z : Fin 3, ∃ o : Fin 256, (s.issues x u (Tile.encH 0x11 d.val a.val c.val z.val o.val) 1) ∧ ((u.reg a.val).toNat + o.val + (if c.val = 1 then u.cur else 0) + 2 ^ z.val ≤ 256)) ∧
    (∃ s : State, ∃ x : Issue, ∃ u : Thread, ∃ d : Fin 32, ∃ a : Fin 32, ∃ l : Fin 32, (s.issues x u (Tile.encX 0x12 d.val a.val 0 l.val) 2) ∧ ((u.reg d.val).toNat + (l.val + 1) ≤ 256) ∧ ((u.reg a.val).toNat + (l.val + 1) ≤ 256)) ∧
    (∃ s : State, ∃ x : Issue, ∃ u : Thread, ∃ a : Fin 32, ∃ k : Fin 512, (s.issues x u (Tile.encI 0x13 0 a.val k.val) 1) ∧ (u.cur + (u.reg a.val).toNat + k.val ≤ 256) ∧ (u.level < 12)) ∧
    (∃ s : State, ∃ x : Issue, ∃ u : Thread, ∃ d : Fin 32, ∃ a : Fin 32, ∃ l : Fin 32, (s.issues x u (Tile.encX 0x14 d.val a.val 0 l.val) 2) ∧ ((u.reg a.val).toNat + (l.val + 1) ≤ 256)) ∧
    (∃ s : State, ∃ x : Issue, ∃ u : Thread, ∃ d : Fin 32, ∃ a : Fin 32, ∃ b : Fin 32, (s.issues x u (Tile.encR 0x15 d.val a.val b.val 0) 1)) ∧
    (∃ s : State, ∃ x : Issue, ∃ u : Thread, ∃ c : Fin 11, ∃ i : BitVec 16, (s.issues x u (Tile.encB c.val i.toNat) 1) ∧ (0 ≤ (u.pc : Int) + i.toInt) ∧ ((u.pc : Int) + i.toInt ≤ 8191)) ∧
    (∃ s : State, ∃ x : Issue, ∃ u : Thread, ∃ d : Fin 32, ∃ k : Fin 8192, (s.issues x u (Tile.encJ d.val k.val) 1)) ∧
    (∃ s : State, ∃ x : Issue, ∃ u : Thread, ∃ a : Fin 32, (s.issues x u (Tile.encR 0x1A 0 a.val 0 0) 1)) ∧
    (∃ s : State, ∃ x : Issue, ∃ u : Thread, ∃ d : Fin 32, ∃ a : Fin 32, ∃ b : Fin 32, ∃ h : Nat, ∃ n : Nat, ∃ k : Nat, (s.issues x u (Tile.encR 36 d.val a.val b.val 0) n) ∧ (eccBad x.mem = false) ∧ (x.lost = false ∨ h = 0) ∧ (n = memSlots false x s u (Tile.encR 36 d.val a.val b.val 0)) ∧ (k = slotsOf (s.tileResp (s.region (memAddr u (Tile.encR 36 d.val a.val b.val 0) / 2 ^ 36) (memAddr u (Tile.encR 36 d.val a.val b.val 0) % 2 ^ 36)) false h).1) ∧ (addrIllegal (memAddr u (Tile.encR 36 d.val a.val b.val 0)) = false) ∧ (s.route x.die.val (memAddr u (Tile.encR 36 d.val a.val b.val 0) / 2 ^ 36) = .clear h) ∧ (s.region (memAddr u (Tile.encR 36 d.val a.val b.val 0) / 2 ^ 36) (memAddr u (Tile.encR 36 d.val a.val b.val 0) % 2 ^ 36) ≠ .unbacked)) ∧
    (∃ s : State, ∃ x : Issue, ∃ u : Thread, ∃ d : Fin 32, ∃ a : Fin 32, ∃ b : Fin 32, ∃ h : Nat, ∃ n : Nat, ∃ k : Nat, (s.issues x u (Tile.encR 37 d.val a.val b.val 0) n) ∧ (eccBad x.mem = false) ∧ (x.lost = false ∨ h = 0) ∧ (n = memSlots true x s u (Tile.encR 37 d.val a.val b.val 0)) ∧ (k = slotsOf (s.tileResp (s.region (memAddr u (Tile.encR 37 d.val a.val b.val 0) / 2 ^ 36) (memAddr u (Tile.encR 37 d.val a.val b.val 0) % 2 ^ 36)) true h).1) ∧ (addrIllegal (memAddr u (Tile.encR 37 d.val a.val b.val 0)) = false) ∧ (s.route x.die.val (memAddr u (Tile.encR 37 d.val a.val b.val 0) / 2 ^ 36) = .clear h) ∧ (s.region (memAddr u (Tile.encR 37 d.val a.val b.val 0) / 2 ^ 36) (memAddr u (Tile.encR 37 d.val a.val b.val 0) % 2 ^ 36) ≠ .unbacked)) :=
  ⟨⟨tileAt x0 u0 (Tile.encH 0x10 3 1 0 2 4), x0, u0, 3, 1, 0, 2, 4, by decide⟩,
   ⟨tileAt x0 u0 (Tile.encH 0x11 3 1 0 2 4), x0, u0, 3, 1, 0, 2, 4, by decide⟩,
   ⟨tileAt x0 u0 (Tile.encX 0x12 3 1 0 31), x0, u0, 3, 1, 31, by decide⟩,
   ⟨tileAt x0 u0 (Tile.encI 0x13 0 1 14), x0, u0, 1, 14, by decide⟩,
   ⟨tileAt x0 u0 (Tile.encX 0x14 3 1 0 31), x0, u0, 3, 1, 31, by decide⟩,
   ⟨tileAt x0 u0 (Tile.encR 0x15 3 1 2 0), x0, u0, 3, 1, 2, by decide⟩,
   ⟨tileAt x0 u0 (Tile.encB 0 5), x0, u0, 0, 5#16, by decide⟩,
   ⟨tileAt x0 u0 (Tile.encJ 3 8191), x0, u0, 3, 8191, by decide⟩,
   ⟨tileAt x0 u0 (Tile.encR 0x1A 0 1 0 0), x0, u0, 1, by decide⟩,
   ⟨tileAt x1 um (Tile.encR 36 3 1 2 0), x1, um, 3, 1, 2, 0, 3, 3, by decide⟩,
   ⟨tileAt x1 um (Tile.encR 37 3 1 2 0), x1, um, 3, 1, 2, 0, 3, 3, by decide⟩⟩
theorem wit_TilePacketFatesComplete :
    (∃ s : State, ∃ x : Issue, ∃ u : Thread, ∃ a : Fin 32, ∃ h : Nat, (s.issues x u (Tile.encF 0x30 a.val 0) 1) ∧ (u.hold = none) ∧ (u.outOk = true) ∧ (regHandleOk (u.reg a.val) = true) ∧ (s.route x.die.val (bits (u.reg a.val) 31 28) = .clear h)) ∧
    (∃ s : State, ∃ x : Issue, ∃ u : Thread, ∃ a : Fin 32, ∃ k : Nat, (s.issues x u (Tile.encF 0x30 a.val 0) 1) ∧ (u.hold = some k) ∧ (s.clk.mc < u.first + k) ∧ (u.outOk = true) ∧ (regHandleOk (u.reg a.val) = true)) ∧
    (∃ s : State, ∃ x : Issue, ∃ u : Thread, ∃ a : Fin 32, ∃ h : Nat, (s.issues x u (Tile.encF 0x31 a.val 0) 1) ∧ (u.hold = none) ∧ (u.outOk = true) ∧ (2 ≤ bits (u.reg a.val) 31 28) ∧ (bits (u.reg a.val) 31 28 ≤ 5) ∧ (bits (u.reg a.val) 27 16 = 0) ∧ (bits (u.reg a.val) 15 0 < 16384) ∧ (s.route x.die.val (bits (u.reg a.val) 31 28) = .clear h)) ∧
    (∃ s : State, ∃ x : Issue, ∃ u : Thread, ∃ a : Fin 32, ∃ h : Nat, (s.issues x u (Tile.encF 0x32 a.val 0) 2) ∧ (u.outOk = true) ∧ (u.mirrors < 2) ∧ (regHandleOk (u.reg a.val) = true) ∧ (s.route x.die.val (bits (u.reg a.val) 31 28) = .clear h)) ∧
    (∃ s : State, ∃ x : Issue, ∃ u : Thread, ∃ a : Fin 32, (s.issues x u (Tile.encF 0x32 a.val 0) 2) ∧ (u.outOk = true) ∧ (2 ≤ u.mirrors) ∧ (regHandleOk (u.reg a.val) = true)) ∧
    (∃ s : State, ∃ x : Issue, ∃ u : Thread, ∃ e : Fin 8, (s.issues x u (Tile.encF 0x33 0 e.val) 1) ∧ (u.outOk = true) ∧ (u.pass ≠ 2)) ∧
    (∃ s : State, ∃ x : Issue, ∃ u : Thread, ∃ r : Fin 64, (s.issues x u (Tile.encF 0x34 0 r.val) 1) ∧ (8 ≤ r.val) ∧ (u.outOk = true)) ∧
    (∃ s : State, ∃ x : Issue, ∃ u : Thread, ∃ r : Fin 64, (s.issues x u (Tile.encF 0x35 0 r.val) 1) ∧ (8 ≤ r.val)) ∧
    (∃ s : State, ∃ x : Issue, ∃ u : Thread, ∃ h : Nat, (s.issues x u (Tile.encF 0x36 0 0) 1) ∧ (u.hold = none) ∧ (u.outOk = true) ∧ (bits (u.mreg 10) 31 30 = 0) ∧ (handleOk (bits (u.mreg 10) 21 18) 0 (bits (u.mreg 10) 17 0) = true) ∧ (s.route x.die.val (bits (u.mreg 10) 21 18) = .clear h)) ∧
    (∃ s : State, ∃ x : Issue, ∃ u : Thread, (s.issues x u (Tile.encF 0x36 0 0) 1) ∧ (bits (u.mreg 10) 31 30 = 1) ∧ (8 ≤ bits (u.mreg 10) 29 24)) ∧
    (∃ s : State, ∃ x : Issue, ∃ u : Thread, (s.issues x u (Tile.encF 0x36 0 0) 1) ∧ (bits (u.mreg 10) 31 30 = 2) ∧ (8 ≤ bits (u.mreg 10) 29 24) ∧ (u.outOk = true)) :=
  ⟨⟨tileAt x0 uf (Tile.encF 0x30 4 0), x0, uf, 4, 0, by decide⟩,
   ⟨tileAt x0 { uf with hold := some 7 } (Tile.encF 0x30 4 0), x0, { uf with hold := some 7 }, 4, 7, by decide⟩,
   ⟨tileAt x0 uf (Tile.encF 0x31 4 0), x0, uf, 4, 0, by decide⟩,
   ⟨tileAt x0 uf (Tile.encF 0x32 4 0), x0, uf, 4, 0, by decide⟩,
   ⟨tileAt x0 { uf with mirrors := 2 } (Tile.encF 0x32 4 0), x0, { uf with mirrors := 2 }, 4, by decide⟩,
   ⟨tileAt x0 uf (Tile.encF 0x33 0 7), x0, uf, 7, by decide⟩,
   ⟨tileAt x0 uf (Tile.encF 0x34 0 63), x0, uf, 63, by decide⟩,
   ⟨tileAt x0 uf (Tile.encF 0x35 0 8), x0, uf, 8, by decide⟩,
   ⟨tileAt x0 ud (Tile.encF 0x36 0 0), x0, ud, 0, by decide⟩,
   ⟨tileAt x0 { uf with m := listSet uf.m 10 0x4A000000#32 } (Tile.encF 0x36 0 0), x0, { uf with m := listSet uf.m 10 0x4A000000#32 }, by decide⟩,
   ⟨tileAt x0 { uf with m := listSet uf.m 10 0x8A000000#32 } (Tile.encF 0x36 0 0), x0, { uf with m := listSet uf.m 10 0x8A000000#32 }, by decide⟩⟩
theorem wit_TileLookupsAndCountersComplete :
    (∃ s : State, ∃ x : Issue, ∃ u : Thread, ∃ d : Fin 16, ∃ n : Fin 16, ∃ k : Fin 8, ∃ i : Nat, ∃ e : EmEntry, (s.issues x u (Tile.encL 0x20 (2 * d.val) (4 * k.val) n.val) 3) ∧ (eccBad x.mem = false) ∧ (s.unitHeld x.die.val 2 = false) ∧ (s.emLookup x.die.val n.val u.gen [u.reg (4 * k.val), u.reg (4 * k.val + 1), u.reg (4 * k.val + 2), u.reg (4 * k.val + 3)] = some (i, e))) ∧
    (∃ s : State, ∃ x : Issue, ∃ u : Thread, ∃ d : Fin 16, ∃ n : Fin 16, ∃ k : Fin 8, ∃ i : Nat, ∃ e : EmEntry, (s.issues x u (Tile.encL 0x20 (2 * d.val) (4 * k.val) n.val) 3) ∧ (eccBad x.mem = true) ∧ (s.unitHeld x.die.val 2 = false) ∧ (s.emLookup x.die.val n.val u.gen [u.reg (4 * k.val), u.reg (4 * k.val + 1), u.reg (4 * k.val + 2), u.reg (4 * k.val + 3)] = some (i, e))) ∧
    (∃ s : State, ∃ x : Issue, ∃ u : Thread, ∃ d : Fin 16, ∃ n : Fin 16, ∃ k : Fin 8, (s.issues x u (Tile.encL 0x20 (2 * d.val) (4 * k.val) n.val) 3) ∧ (s.unitHeld x.die.val 2 = false) ∧ (s.emLookup x.die.val n.val u.gen [u.reg (4 * k.val), u.reg (4 * k.val + 1), u.reg (4 * k.val + 2), u.reg (4 * k.val + 3)] = none)) ∧
    (∃ s : State, ∃ x : Issue, ∃ u : Thread, ∃ d : Fin 16, ∃ n : Fin 16, ∃ k : Fin 2, (s.issues x u (Tile.encL 0x21 (2 * d.val) (16 * k.val) n.val) 2) ∧ (s.unitHeld x.die.val 2 = false)) ∧
    (∃ s : State, ∃ x : Issue, ∃ u : Thread, ∃ d : Fin 16, ∃ n : Fin 16, ∃ k : Fin 2, (s.issues x u (Tile.encL 0x21 (2 * d.val) (16 * k.val) n.val) 2) ∧ (s.unitHeld x.die.val 2 = false)) ∧
    (∃ s : State, ∃ x : Issue, ∃ u : Thread, ∃ d : Fin 16, ∃ n : Fin 16, ∃ k : Fin 8, ∃ v6 : Bool, (s.issues x u (Tile.encL 0x22 (2 * d.val) (4 * k.val) n.val) 4) ∧ (eccBad x.mem = false) ∧ (s.unitHeld x.die.val 2 = false) ∧ (2 ≤ x.die.val) ∧ (v6 = (bits (s.rdEff LKP_LPM_TBL (place x.die.val n.val)) 30 30 == 1))) ∧
    (∃ s : State, ∃ x : Issue, ∃ u : Thread, ∃ a : Fin 32, ∃ b : Fin 32, ∃ n : Fin 16, ∃ i : Nat, (s.issues x u (Tile.encC 0x23 a.val b.val n.val) 1) ∧ (eccBad x.mem = false) ∧ (s.unitHeld x.die.val 2 = false) ∧ (bits (s.rdEff LKP_CNT_BANK (place x.die.val n.val)) 31 31 = 1) ∧ (i = bits (s.rdEff LKP_CNT_BANK (place x.die.val n.val)) 17 0 + (u.reg b.val).toNat % 2 ^ bits (s.rdEff LKP_CNT_BANK (place x.die.val n.val)) 22 18)) ∧
    (∃ s : State, ∃ x : Issue, ∃ u : Thread, ∃ a : Fin 32, ∃ b : Fin 32, ∃ n : Fin 16, (s.issues x u (Tile.encC 0x23 a.val b.val n.val) 1) ∧ (bits (s.rdEff LKP_CNT_BANK (place x.die.val n.val)) 31 31 = 0)) ∧
    (∃ s : State, ∃ x : Issue, ∃ u : Thread, ∃ w : Word, (s.issues x u w 1) ∧ (Tile.reserved w = true)) :=
  ⟨⟨((tileAt x0 u0 (Tile.encL 0x20 6 0 1)).wrEff LKP_EM_TBL (place 2 1) 0x80000000#32).setEm 2 0 { g0 := true, tbl := 1, data := 0x500000006, key := 0x00000000000000070000000400000000 }, x0, u0, 3, 1, 0, 0, { g0 := true, tbl := 1, data := 0x500000006, key := 0x00000000000000070000000400000000 }, by decide⟩,
   ⟨((tileAt x0 u0 (Tile.encL 0x20 6 0 1)).wrEff LKP_EM_TBL (place 2 1) 0x80000000#32).setEm 2 0 { g0 := true, tbl := 1, data := 0x500000006, key := 0x00000000000000070000000400000000 }, ⟨2, 5, .clean, .bad 1 1, false⟩, u0, 3, 1, 0, 0, { g0 := true, tbl := 1, data := 0x500000006, key := 0x00000000000000070000000400000000 }, by decide⟩,
   ⟨tileAt x0 u0 (Tile.encL 0x20 (2 * 3) (4 * 1) 0), x0, u0, 3, 0, 1, by decide⟩,
   ⟨tileAt x0 u0 (Tile.encL 0x21 (2 * 3) (16 * 1) 0), x0, u0, 3, 0, 1, by decide⟩,
   ⟨tileAt x0 u0 (Tile.encL 0x21 (2 * 3) (16 * 1) 0), x0, u0, 3, 0, 1, by decide⟩,
   ⟨tileAt x0 u0 (Tile.encL 0x22 (2 * 3) (4 * 1) 0), x0, u0, 3, 0, 1, false, by decide⟩,
   ⟨(tileAt x0 u0 (Tile.encC 0x23 1 2 0)).wrEff LKP_CNT_BANK (place 2 0) 0x80200000#32, x0, u0, 1, 2, 0, 4, by decide⟩,
   ⟨tileAt x0 u0 (Tile.encC 0x23 1 2 0), x0, u0, 1, 2, 0, by decide⟩,
   ⟨tileAt x0 u0 0xFC000000#32, x0, u0, 0xFC000000#32, by decide⟩⟩
theorem wit_TileExceptionsEndThePass :
    (∃ s : State, ∃ x : Issue, ∃ u : Thread, (s.unitRuns x.die.val 1 = true) ∧ (s.thread x.die.val x.thread.val = some u) ∧ (eccBad x.fetch = false) ∧ (isFn 0 (s.imemAt x.die.val (x.thread.val / 8) u.bank u.pc) = true) ∧ (u.budget < u.used + 1)) ∧
    (∃ s : State, ∃ x : Issue, ∃ u : Thread, ∃ d : Fin 32, ∃ a : Fin 32, ∃ z : Fin 3, ∃ o : Fin 256, (s.issues x u (Tile.encH 0x10 d.val a.val 0 z.val o.val) 1) ∧ (256 < (u.reg a.val).toNat + o.val + 2 ^ z.val)) ∧
    (∃ s : State, ∃ x : Issue, ∃ u : Thread, ∃ a : Fin 32, (s.issues x u (Tile.encF 0x30 a.val 0) 1) ∧ (regHandleOk (u.reg a.val) = false)) ∧
    (∃ s : State, ∃ x : Issue, ∃ u : Thread, ∃ e : Fin 8, (s.issues x u (Tile.encF 0x33 0 e.val) 1) ∧ (u.outOk = true) ∧ (u.pass = 2)) ∧
    (∃ s : State, ∃ x : Issue, ∃ u : Thread, ∃ d : Fin 32, ∃ a : Fin 32, ∃ b : Fin 32, ∃ n : Nat, (s.issues x u (Tile.encR 0x24 d.val a.val b.val 0) n) ∧ (eccBad x.fetch = false) ∧ (n = memSlots false x s u (Tile.encR 0x24 d.val a.val b.val 0)) ∧ (addrIllegal (memAddr u (Tile.encR 0x24 d.val a.val b.val 0)) = false) ∧ (s.route x.die.val (memAddr u (Tile.encR 0x24 d.val a.val b.val 0) / 2 ^ 36) = .absent)) :=
  ⟨⟨tileAt x0 { u0 with used := 40 } 0, x0, { u0 with used := 40 }, by decide⟩,
   ⟨tileAt x0 u0 (Tile.encH 0x10 3 1 0 2 250), x0, u0, 3, 1, 2, 250, by decide⟩,
   ⟨tileAt x0 { u0 with g := listSet u0.g 1 0xF0000000#32 } (Tile.encF 0x30 1 0), x0, { u0 with g := listSet u0.g 1 0xF0000000#32 }, 1, by decide⟩,
   ⟨tileAt x0 { uf with m := listSet uf.m 0 0x08000000#32 } (Tile.encF 0x33 0 7), x0, { uf with m := listSet uf.m 0 0x08000000#32 }, 7, by decide⟩,
   ⟨{ tileAt x1 { um with g := listSet um.g 1 0x31#32 } (Tile.encR 0x24 3 1 2 0) with part := .zg6420 }, x1, { um with g := listSet um.g 1 0x31#32 }, 3, 1, 2, 1, by decide⟩⟩
theorem wit_ExactMatchAndTernaryEntriesComplete :
    (∃ s : State, ∃ d : LcDie, ∃ v : Word, (s.running = true) ∧ (s.is LKP_WR_STAT_EM_BUSY (onDie d.val) = false) ∧ (bits v 18 0 < emBuckets d.val * 4)) ∧
    (∃ s : State, ∃ d : LcDie, (s.running = true) ∧ (s.is LKP_WR_STAT_EM_BUSY (onDie d.val) = true)) ∧
    (∃ s : State, ∃ d : LcDie, ∃ v : Word, (s.running = true) ∧ (s.is LKP_WR_STAT_TC_BUSY (onDie d.val) = false) ∧ (bits v 13 0 < tcEntries d.val)) ∧
    (∃ s : State, ∃ d : LcDie, (s.running = true) ∧ (s.is LKP_WR_STAT_TC_BUSY (onDie d.val) = true)) ∧
    (∃ s : State, ∃ d : LcDie, ∃ i : Nat, ∃ e : EmEntry, (s.unitRuns d.val 2 = true) ∧ (Tab.get s.pipe.emBusy none d.val = some (i, e))) ∧
    (∃ s : State, ∃ d : LcDie, ∃ i : Nat, ∃ e : TcEntry, (s.unitRuns d.val 2 = true) ∧ (Tab.get s.pipe.tcBusy none d.val = some (i, e))) ∧
    (∃ s : State, ∃ d : LcDie, ∃ v : Word, ∃ e0 : Ecc, ∃ e : EmEntry, (s.running = true) ∧ (eccBad e0 = false) ∧ (s.is LKP_WR_STAT_EM_BUSY (onDie d.val) = false) ∧ (e = s.emEntry d.val (bits v 18 0)) ∧ (e.tbl < 16)) ∧
    (∃ s : State, ∃ d : LcDie, ∃ v : Word, ∃ e : TcEntry, (s.running = true) ∧ (s.is LKP_WR_STAT_TC_BUSY (onDie d.val) = false) ∧ (e = Tab.get s.pipe.tc {} (d.val * 2 ^ 14 + bits v 13 0))) ∧
    (∃ s : State, ∃ e0 : Ecc, (s.running = true) ∧ (eccBad e0 = false)) :=
  ⟨⟨r0, 3, 0x80012345#32, by decide⟩,
   ⟨r0.put LKP_WR_STAT_EM_BUSY (onDie 3) 1, 3, by decide⟩,
   ⟨r0, 1, 0x80000FFF#32, by decide⟩,
   ⟨r0.put LKP_WR_STAT_TC_BUSY (onDie 1) 1, 1, by decide⟩,
   ⟨{ r0 with pipe := { r0.pipe with emBusy := [(2, some (7, { g1 := true, tbl := 3, data := 5 }))] } }.put LKP_WR_STAT_EM_BUSY (onDie 2) 1, 2, 7, { g1 := true, tbl := 3, data := 5 }, by decide⟩,
   ⟨{ r0 with pipe := { r0.pipe with tcBusy := [(2, some (7, { g1 := true, mask := 3, data := 5 }))] } }.put LKP_WR_STAT_TC_BUSY (onDie 2) 1, 2, 7, { g1 := true, mask := 3, data := 5 }, by decide⟩,
   ⟨r0.setEm 2 9 { g0 := true, tbl := 4, data := 0x123456789ABCDEF0, key := 0x00112233445566778899AABBCCDDEEFF }, 2, 0xC0000009#32, .clean, { g0 := true, tbl := 4, data := 0x123456789ABCDEF0, key := 0x00112233445566778899AABBCCDDEEFF }, by decide⟩,
   ⟨{ r0 with pipe := { r0.pipe with tc := [(2 * 2 ^ 14 + 9, { g0 := true, key := 0x99, mask := 0xFF0000000000, data := 0x123456789ABCDEF0 })] } }, 2, 0xC0000009#32, { g0 := true, key := 0x99, mask := 0xFF0000000000, data := 0x123456789ABCDEF0 }, by decide⟩,
   ⟨r0.setPair 2 5 0x1234567890 0xABCDEF01234567, .clean, by decide⟩⟩
theorem wit_LongestPrefixAndGenerationsComplete :
    (∃ s : State, ∃ d : CourseDie, (s.running = true) ∧ (s.is LKP_LPM_CTL_BUSY (onDie (courseIdx d)) = false)) ∧
    (∃ s : State, ∃ d : CourseDie, (s.running = true) ∧ (s.is LKP_LPM_CTL_BUSY (onDie (courseIdx d)) = false)) ∧
    (∃ s : State, ∃ d : CourseDie, ∃ e : Ecc, (s.running = true) ∧ (eccBad e = false) ∧ (s.is LKP_LPM_CTL_BUSY (onDie (courseIdx d)) = false)) ∧
    (∃ s : State, ∃ d : CourseDie, (s.running = true) ∧ (s.is LKP_LPM_CTL_BUSY (onDie (courseIdx d)) = true)) ∧
    (∃ s : State, ∃ d : CourseDie, (s.running = true) ∧ (s.is LKP_LPM_CTL_BUSY (onDie (courseIdx d)) = true)) ∧
    (∃ s : State, ∃ d : CourseDie, (s.running = true) ∧ (s.is LKP_LPM_CTL_BUSY (onDie (courseIdx d)) = true)) ∧
    (∃ s : State, ∃ d : CourseDie, ∃ c : LpmCmd, (s.unitRuns (courseIdx d) 2 = true) ∧ (Tab.get s.pipe.lpmBusy none (courseIdx d) = some c) ∧ (c.op = 0) ∧ ((s.lpmList (courseIdx d)).find? c.names = none) ∧ (((s.lpmList (courseIdx d)).filter (fun e => e.v6 == c.v6)).length < if c.v6 then 65536 else 262144)) ∧
    (∃ s : State, ∃ d : CourseDie, ∃ c : LpmCmd, ∃ e : LpmEntry, (s.unitRuns (courseIdx d) 2 = true) ∧ (Tab.get s.pipe.lpmBusy none (courseIdx d) = some c) ∧ (c.op = 0) ∧ ((s.lpmList (courseIdx d)).find? c.names = some e)) ∧
    (∃ s : State, ∃ d : CourseDie, ∃ c : LpmCmd, (s.unitRuns (courseIdx d) 2 = true) ∧ (Tab.get s.pipe.lpmBusy none (courseIdx d) = some c) ∧ (c.op ≠ 0) ∧ ((s.lpmList (courseIdx d)).find? c.names = none)) ∧
    (∃ s : State, ∃ d : CourseDie, ∃ c : LpmCmd, ∃ e : LpmEntry, (s.unitRuns (courseIdx d) 2 = true) ∧ (Tab.get s.pipe.lpmBusy none (courseIdx d) = some c) ∧ (c.op = 1) ∧ ((s.lpmList (courseIdx d)).find? c.names = some e) ∧ (e.v0 = true) ∧ (e.v1 = true)) ∧
    (∃ s : State, ∃ d : CourseDie, ∃ c : LpmCmd, ∃ e : LpmEntry, (s.unitRuns (courseIdx d) 2 = true) ∧ (Tab.get s.pipe.lpmBusy none (courseIdx d) = some c) ∧ (c.op = 2) ∧ ((s.lpmList (courseIdx d)).find? c.names = some e) ∧ ((if c.gen then e.v1 else e.v0) = true)) ∧
    (∃ s : State, ∃ d : LcDie, (s.running = true) ∧ (s.tblOk d.val = true)) ∧
    (∃ s : State, ∃ d : LcDie, (s.running = true) ∧ (s.tblOk d.val = false)) ∧
    (∃ s : State, ∃ d : LcDie, ∃ v : Word, (s.running = true) ∧ (bits v 0 0 ≠ s.get LKP_GEN_STAT_ACTIVE (onDie d.val)) ∧ (s.is LKP_GEN_STAT_DRAINED (onDie d.val) = true) ∧ (s.is LKP_GEN_STAT_ARMED (onDie d.val) = false)) ∧
    (∃ s : State, ∃ d : LcDie, ∃ v : Word, ∃ k : Nat, (s.running = true) ∧ (bits v 0 0 ≠ s.get LKP_GEN_STAT_ACTIVE (onDie d.val)) ∧ (s.is LKP_GEN_STAT_DRAINED (onDie d.val) = true) ∧ (s.is LKP_GEN_STAT_ARMED (onDie d.val) = false) ∧ (s.rd LKP_GEN_AT (onDie d.val) = BitVec.ofNat 32 (s.clk.mc + k)) ∧ (1 ≤ k) ∧ (k < 2 ^ 31)) ∧
    (∃ s : State, ∃ d : LcDie, ∃ v : Word, (s.running = true) ∧ (bits v 0 0 = s.get LKP_GEN_STAT_ACTIVE (onDie d.val))) ∧
    (∃ s : State, ∃ d : LcDie, (s.unitRuns d.val 2 = true) ∧ (s.is LKP_GEN_STAT_ARMED (onDie d.val) = true) ∧ (s.rdEff LKP_GEN_AT (onDie d.val) = BitVec.ofNat 32 s.clk.mc)) ∧
    (∃ s : State, ∃ d : LcDie, (s.unitRuns d.val 2 = true) ∧ (s.is LKP_GEN_STAT_DRAINED (onDie d.val) = false) ∧ (s.genRefs d.val (!s.activeGen d.val) = 0)) :=
  ⟨⟨r0, 1, by decide⟩,
   ⟨r0, 1, by decide⟩,
   ⟨r0, 1, .clean, by decide⟩,
   ⟨r0.put LKP_LPM_CTL_BUSY (onDie 3) 1, 1, by decide⟩,
   ⟨r0.put LKP_LPM_CTL_BUSY (onDie 3) 1, 1, by decide⟩,
   ⟨r0.put LKP_LPM_CTL_BUSY (onDie 3) 1, 1, by decide⟩,
   ⟨{ r0 with pipe := { r0.pipe with lpm := [(3, [])], lpmBusy := [(3, some ⟨0, true, 2, false, 0x0A000000000000000000000000000000, 8, 0x55⟩)] } }, 1, ⟨0, true, 2, false, 0x0A000000000000000000000000000000, 8, 0x55⟩, by decide⟩,
   ⟨{ r0 with pipe := { r0.pipe with lpm := [(3, [⟨2, false, 0x0A000000000000000000000000000000, 8, 7, 9, true, true⟩])], lpmBusy := [(3, some ⟨0, true, 2, false, 0x0A000000000000000000000000000000, 8, 0x55⟩)] } }, 1, ⟨0, true, 2, false, 0x0A000000000000000000000000000000, 8, 0x55⟩, ⟨2, false, 0x0A000000000000000000000000000000, 8, 7, 9, true, true⟩, by decide⟩,
   ⟨{ r0 with pipe := { r0.pipe with lpm := [(3, [])], lpmBusy := [(3, some ⟨1, true, 2, false, 0x0A000000000000000000000000000000, 8, 0x55⟩)] } }, 1, ⟨1, true, 2, false, 0x0A000000000000000000000000000000, 8, 0x55⟩, by decide⟩,
   ⟨{ r0 with pipe := { r0.pipe with lpm := [(3, [⟨2, false, 0x0A000000000000000000000000000000, 8, 7, 9, true, true⟩])], lpmBusy := [(3, some ⟨1, true, 2, false, 0x0A000000000000000000000000000000, 8, 0x55⟩)] } }, 1, ⟨1, true, 2, false, 0x0A000000000000000000000000000000, 8, 0x55⟩, ⟨2, false, 0x0A000000000000000000000000000000, 8, 7, 9, true, true⟩, by decide⟩,
   ⟨{ r0 with pipe := { r0.pipe with lpm := [(3, [⟨2, false, 0x0A000000000000000000000000000000, 8, 7, 9, true, true⟩])], lpmBusy := [(3, some ⟨2, true, 2, false, 0x0A000000000000000000000000000000, 8, 0x55⟩)] } }, 1, ⟨2, true, 2, false, 0x0A000000000000000000000000000000, 8, 0x55⟩, ⟨2, false, 0x0A000000000000000000000000000000, 8, 7, 9, true, true⟩, by decide⟩,
   ⟨(r0.wr LKP_EM_TBL (place 2 3) 0x80200000).wr LKP_CNT_BANK (place 2 15) 0x80000001, 2, by decide⟩,
   ⟨r0.wr LKP_TC_TBL (place 2 3) 0x80000000, 2, by decide⟩,
   ⟨r0.put LKP_GEN_STAT_DRAINED (onDie 3) 1, 3, 0x80000001#32, by decide⟩,
   ⟨(r0.put LKP_GEN_STAT_DRAINED (onDie 3) 1).wr LKP_GEN_AT (onDie 3) 0x7FFFFFFF, 3, 0xC0000001#32, 0x7FFFFFFF, by decide⟩,
   ⟨r0, 3, 0x80000000#32, by decide⟩,
   ⟨(r0.put LKP_GEN_STAT_ARMED (onDie 3) 1).wrEff LKP_GEN_CTL (onDie 3) 1, 3, by decide⟩,
   ⟨r0.put LKP_GEN_STAT_DRAINED (onDie 3) 0, 3, by decide⟩⟩
theorem wit_DispatchAndImagesComplete :
    (∃ s : State, ∃ d : LcDie, ∃ k : Fin 32, ∃ p : SrcPkt, ∃ l : List SrcPkt, (s.islandRuns d.val 0 = true) ∧ (2 ≤ d.val) ∧ (Tab.get s.pipe.coming [] (srcKey d.val k.val) = p :: l) ∧ (s.is DISP_SRC_CFG_EN (place d.val k.val) = true) ∧ ((Tab.get s.pipe.fifo [] (srcKey d.val k.val)).length < 32)) ∧
    (∃ s : State, ∃ d : LcDie, ∃ k : Fin 32, ∃ p : SrcPkt, ∃ l : List SrcPkt, (s.islandRuns d.val 0 = true) ∧ (Tab.get s.pipe.coming [] (srcKey d.val k.val) = p :: l) ∧ (s.is DISP_SRC_CFG_EN (place d.val k.val) = false) ∧ (2 ≤ d.val) ∧ (0 < p.buf)) ∧
    (∃ s : State, ∃ d : LcDie, ∃ k : Fin 32, ∃ p : SrcPkt, ∃ l : List SrcPkt, (s.islandRuns d.val 0 = true) ∧ (Tab.get s.pipe.coming [] (srcKey d.val k.val) = p :: l) ∧ (s.is DISP_SRC_CFG_EN (place d.val k.val) = true) ∧ (32 ≤ (Tab.get s.pipe.fifo [] (srcKey d.val k.val)).length) ∧ (2 ≤ d.val) ∧ (0 < p.buf)) ∧
    (∃ s : State, ∃ d : LcDie, ∃ x : Ecc, ∃ i : Nat, ∃ k : Nat, ∃ e : EddyPkt, ∃ l : List EddyPkt, (s.unitRuns d.val 0 = true) ∧ (eccBad x = false) ∧ (s.pickThread d.val = some (i, k)) ∧ (Tab.get s.pipe.eddy [] d.val = e :: l)) ∧
    (∃ s : State, ∃ d : LcDie, ∃ x : Ecc, ∃ i : Nat, ∃ k : Nat, ∃ src : Nat, ∃ p : SrcPkt, ∃ q : Option Nat, (s.unitRuns d.val 0 = true) ∧ (eccBad x = false) ∧ (s.pickThread d.val = some (i, k)) ∧ (Tab.get s.pipe.eddy [] d.val = []) ∧ (s.is DISP_CFG_RUN (onDie d.val) = true) ∧ (s.pickSource d.val = some (src, p)) ∧ (q = if s.is DISP_SRC_CFG_ORDER (place d.val src) then some (s.get DISP_CFG_ORDER_HOLD (onDie d.val)) else none)) ∧
    (∃ s : State, (s.running = true)) ∧
    (∃ s : State, ∃ d : LcDie, ∃ e : Ecc, ∃ f : Fwd, ∃ h : Nat, (s.unitRuns d.val 0 = true) ∧ (eccBad e = false) ∧ (firstLaunch (s.pipe.hold.filter (fun f => f.from_ == d.val)) = some f) ∧ (f.launch ≤ s.clk.mc) ∧ (s.route f.from_ f.die = .clear h)) ∧
    (∃ s : State, ∃ d : LcDie, ∃ f : Fwd, (s.unitRuns d.val 0 = true) ∧ (firstLaunch (s.pipe.hold.filter (fun f => f.from_ == d.val)) = some f) ∧ (s.clk.mc < f.launch)) ∧
    (∃ s : State, (s.running = true)) ∧
    (∃ s : State, ∃ d : LcDie, (s.running = true) ∧ (s.bankRefs d.val (s.inactiveBank d.val) = 0) ∧ (s.is TILE_IMEM_STAT_CHK_BUSY (onDie d.val) = false)) ∧
    (∃ s : State, ∃ d : LcDie, (s.running = true) ∧ (0 < s.bankRefs d.val (s.inactiveBank d.val) ∨ s.is TILE_IMEM_STAT_CHK_BUSY (onDie d.val) = true)) ∧
    (∃ s : State, ∃ d : LcDie, ∃ v : Word, ∃ n : Nat, (s.running = true) ∧ (s.is TILE_IMEM_STAT_CHK_BUSY (onDie d.val) = false) ∧ (n = bits v 13 0) ∧ (1 ≤ n) ∧ (n ≤ 8192)) ∧
    (∃ s : State, ∃ d : LcDie, (s.running = true) ∧ (s.is TILE_IMEM_STAT_CHK_BUSY (onDie d.val) = true)) ∧
    (∃ s : State, ∃ d : LcDie, ∃ m : Bool, ∃ c : Word, (s.unitRuns d.val 1 = true) ∧ (Tab.get s.pipe.check none d.val = some (c, m))) :=
  ⟨⟨({ r0 with pipe := { r0.pipe with coming := [(srcKey 2 3, [⟨3, 1, 0, 0, 0, 0, 0, 7, [1, 2]⟩])] } }).put DISP_SRC_CFG_EN (place 2 3) 1, 2, 3, ⟨3, 1, 0, 0, 0, 0, 0, 7, [1, 2]⟩, [], by decide⟩,
   ⟨({ r0 with pipe := { r0.pipe with coming := [(srcKey 2 3, [⟨3, 1, 0, 0, 0, 0, 0, 7, [1, 2]⟩])] } }).put DISP_SRC_CFG_EN (place 2 3) 0, 2, 3, ⟨3, 1, 0, 0, 0, 0, 0, 7, [1, 2]⟩, [], by decide⟩,
   ⟨({ r0 with pipe := { r0.pipe with fifo := [(srcKey 2 3, List.replicate 32 ⟨3, 1, 0, 0, 0, 0, 0, 7, [1, 2]⟩)], coming := [(srcKey 2 3, [⟨3, 1, 0, 0, 0, 0, 0, 7, [1, 2]⟩])] } }).put DISP_SRC_CFG_EN (place 2 3) 1, 2, 3, ⟨3, 1, 0, 0, 0, 0, 0, 7, [1, 2]⟩, [], by decide⟩,
   ⟨{ r0 with pipe := { r0.pipe with eddy := [(2, [⟨[0x04000000], [1, 2], 7, 5, 3, 0, none, [9, 8, 7, 6, 5, 4, 3, 2]⟩])] } }, 2, .clean, 0, slotThread 2 0 0, ⟨[0x04000000], [1, 2], 7, 5, 3, 0, none, [9, 8, 7, 6, 5, 4, 3, 2]⟩, [], by decide, by decide, pick_first _ (by decide) (by decide) (by decide), by decide⟩,
   ⟨{ r0 with pipe := { r0.pipe with fifo := [(srcKey 2 3, [⟨3, 1, 0, 0, 0, 0, 0, 7, [1, 2]⟩])] } }.put DISP_CFG_RUN (onDie 2) 1, 2, .clean, 0, slotThread 2 0 0, 3, ⟨3, 1, 0, 0, 0, 0, 0, 7, [1, 2]⟩, none, by decide, by decide, pick_first _ (by decide) (by decide) (by decide), by decide, by decide, by decide, by decide⟩,
   ⟨r0, by decide⟩,
   ⟨{ allLinks with pipe := { r0.pipe with hold := [⟨2, 0, false, false, 3, 9, {}, 0⟩] } }, 2, .clean, ⟨2, 0, false, false, 3, 9, {}, 0⟩, 1, by decide⟩,
   ⟨{ allLinks with pipe := { r0.pipe with hold := [⟨2, 0, false, false, 3, 9, {}, 4⟩] } }, 2, ⟨2, 0, false, false, 3, 9, {}, 4⟩, by decide⟩,
   ⟨r0.put TILE_CFG_BANK (onDie 1) 1, by decide⟩,
   ⟨r0.wr TILE_IMEM_ADDR (onDie 2) 0x80001FFF, 2, by decide⟩,
   ⟨r0.put TILE_IMEM_STAT_CHK_BUSY (onDie 2) 1, 2, by decide⟩,
   ⟨r0, 2, 0x80000002#32, 2, by decide⟩,
   ⟨r0.put TILE_IMEM_STAT_CHK_BUSY (onDie 2) 1, 2, by decide⟩,
   ⟨{ r0 with pipe := { r0.pipe with check := [(2, some (0x1234, true))] } }, 2, true, 0x1234, by decide⟩⟩
theorem wit_DeltaAndSpillwayComplete :
    (∃ s : State, ∃ d : CourseDie, ∃ f : Fwd, (s.unitRuns (courseIdx d) 2 = true) ∧ (firstFwd (s.pipe.flight.filter (fun f => f.mcast && f.die == courseIdx d)) = some f) ∧ ((Tab.get s.pipe.delta [] (courseIdx d)).length < 512)) ∧
    (∃ s : State, ∃ d : CourseDie, ∃ f : Fwd, (s.unitRuns (courseIdx d) 2 = true) ∧ (firstFwd (s.pipe.flight.filter (fun f => f.mcast && f.die == courseIdx d)) = some f) ∧ (512 ≤ (Tab.get s.pipe.delta [] (courseIdx d)).length)) ∧
    (∃ s : State, ∃ d : CourseDie, ∃ x : Ecc, ∃ y : Ecc, ∃ z : Ecc, ∃ g : Nat, ∃ f : Nat, ∃ n : Nat, ∃ k : Nat, ∃ p : Pkt, ∃ l : List (Nat × Pkt), ∃ es : List Word, ∃ send : List Word, (s.unitRuns (courseIdx d) 2 = true) ∧ (eccBad x = false) ∧ (eccBad y = false) ∧ (eccBad z = false) ∧ (Tab.get s.pipe.delta [] (courseIdx d) = (g, p) :: l) ∧ (groupList (Tab.get s.pipe.groups 0 (courseIdx d * 2 ^ 14 + g)) (bits (p.m.getD 0 0) 25 25 == 1) = some (f, n)) ∧ (s.copyList (courseIdx d) f n = es) ∧ (send = (es.filter (fun e => !suppressed p e && handleOk (bits e 31 28) 0 (bits e 17 0)))) ∧ (send ≠ []) ∧ (send.all (fun e => (s.route (courseIdx d) (bits e 31 28)).isClear) = true) ∧ (k = Nat.max (s.clk.mc + 4) (Tab.get s.pipe.lastCopy 0 (courseIdx d) + 1))) ∧
    (∃ s : State, ∃ d : CourseDie, ∃ x : Ecc, ∃ y : Ecc, ∃ z : Ecc, ∃ g : Nat, ∃ f : Nat, ∃ n : Nat, ∃ p : Pkt, ∃ l : List (Nat × Pkt), ∃ es : List Word, (s.unitRuns (courseIdx d) 2 = true) ∧ (eccBad x = false) ∧ (eccBad y = false) ∧ (eccBad z = false) ∧ (Tab.get s.pipe.delta [] (courseIdx d) = (g, p) :: l) ∧ (groupList (Tab.get s.pipe.groups 0 (courseIdx d * 2 ^ 14 + g)) (bits (p.m.getD 0 0) 25 25 == 1) = some (f, n)) ∧ (s.copyList (courseIdx d) f n = es) ∧ ((es.filter (fun e => !suppressed p e && handleOk (bits e 31 28) 0 (bits e 17 0))) = [])) ∧
    (∃ s : State, ∃ d : CourseDie, ∃ x : Ecc, ∃ y : Ecc, ∃ z : Ecc, ∃ g : Nat, ∃ p : Pkt, ∃ l : List (Nat × Pkt), (s.unitRuns (courseIdx d) 2 = true) ∧ (eccBad x = false) ∧ (eccBad y = false) ∧ (eccBad z = false) ∧ (Tab.get s.pipe.delta [] (courseIdx d) = (g, p) :: l) ∧ (groupList (Tab.get s.pipe.groups 0 (courseIdx d * 2 ^ 14 + g)) (bits (p.m.getD 0 0) 25 25 == 1) = none)) ∧
    (∃ s : State, (s.running = true)) ∧
    (∃ s : State, ∃ e : Ecc, (s.running = true) ∧ (eccBad e = false)) ∧
    (∃ s : State, (s.running = true)) ∧
    (∃ s : State, ∃ d : LcDie, ∃ x : Spill, (s.running = true) ∧ (s.pipe.spill.find? (fun x => x.die == d.val) = some x) ∧ (s.is SPW_MAP_EN (place d.val x.reason) = true) ∧ (1000000 ≤ s.credit d.val x.reason)) ∧
    (∃ s : State, ∃ d : LcDie, ∃ x : Spill, ∃ n : Nat, (s.running = true) ∧ (n = s.get SPW_MAP_CH (place d.val x.reason)) ∧ (s.pipe.spill.find? (fun x => x.die == d.val) = some x) ∧ (s.is SPW_MAP_EN (place d.val x.reason) = true) ∧ (1000000 ≤ s.credit d.val x.reason) ∧ (s.get DMA_STAT_STATE (place d.val n) ≠ 0) ∧ (s.getEff DMA_CFG_MODE (place d.val n) = 1) ∧ ((s.dmaCh d.val n).store = []) ∧ ((spillRecord d.val x.reason (Tab.get s.pipe.seq 0 d.val) x.pkt).length ≤ 32768)) ∧
    (∃ s : State, ∃ d : LcDie, ∃ x : Spill, (s.running = true) ∧ (s.pipe.spill.find? (fun x => x.die == d.val) = some x) ∧ (s.is SPW_MAP_EN (place d.val x.reason) = false ∨ s.credit d.val x.reason < 1000000)) ∧
    (∃ s : State, (s.running = true)) :=
  ⟨⟨{ r0 with pipe := { r0.pipe with flight := [⟨2, 0, false, true, 2, 9, {}, 4⟩] } }, 0, ⟨2, 0, false, true, 2, 9, {}, 4⟩, by decide⟩,
   ⟨{ r0 with pipe := { r0.pipe with flight := [⟨2, 0, false, true, 2, 9, {}, 4⟩], delta := [(2, List.replicate 512 (1, {}))] } }, 0, ⟨2, 0, false, true, 2, 9, {}, 4⟩, by decide⟩,
   ⟨{ r0 with pipe := { r0.pipe with delta := [(2, [(5, { buf := 1, bytes := [1], m := [] })])], groups := [(2 * 2 ^ 14 + 5, 0x82000001)], copies := [(2 * 2 ^ 17 + 1, 0x20000009), (2 * 2 ^ 17 + 2, 0x2000000A)] }, dram := { r0.dram with bufs := [(1, { holds := 1 })] } }, ⟨0, by decide⟩, .clean, .clean, .clean, 5, 1, 2, 4, { buf := 1, bytes := [1], m := [] }, [], [0x20000009, 0x2000000A], [0x20000009, 0x2000000A], by decide⟩,
   ⟨{ r0 with pipe := { r0.pipe with delta := [(2, [(5, { buf := 1, bytes := [1], m := [] })])], groups := [(2 * 2 ^ 14 + 5, 0x82000001)], copies := [(2 * 2 ^ 17 + 1, 0xF0000009), (2 * 2 ^ 17 + 2, 0xF000000A)] }, dram := { r0.dram with bufs := [(1, { holds := 1 })] } }, ⟨0, by decide⟩, .clean, .clean, .clean, 5, 1, 2, { buf := 1, bytes := [1], m := [] }, [], [0xF0000009, 0xF000000A], by decide⟩,
   ⟨{ r0 with pipe := { r0.pipe with delta := [(2, [(5, { buf := 1, bytes := [1], m := [] })])], groups := [(2 * 2 ^ 14 + 5, 0x02000001)], copies := [(2 * 2 ^ 17 + 1, 0x20000009), (2 * 2 ^ 17 + 2, 0x2000000A)] }, dram := { r0.dram with bufs := [(1, { holds := 1 })] } }, ⟨0, by decide⟩, .clean, .clean, .clean, 5, { buf := 1, bytes := [1], m := [] }, [], by decide⟩,
   ⟨r0.wr DELTA_GRP_STAGE1 (onDie 3) 5, by decide⟩,
   ⟨{ r0 with pipe := { r0.pipe with groups := [(3 * 2 ^ 14 + 7, 0x123456789ABCDEF0)] } }, .clean, by decide⟩,
   ⟨r0.put DELTA_CPY_WR_ADDR_V (onDie 3) 0x1FFFF, by decide⟩,
   ⟨({ r0 with pipe := { r0.pipe with spill := [⟨2, 9, {}⟩] } }.setCredit 2 9 1000001).wr SPW_MAP (place 2 9) 0x80000003, 2, ⟨2, 9, {}⟩, by decide⟩,
   ⟨((({ r0 with pipe := { r0.pipe with spill := [⟨2, 9, {}⟩] } }.setCredit 2 9 1000001).wr SPW_MAP (place 2 9) 0x80000003).put DMA_STAT_STATE (place 2 3) 1).wrEff DMA_CFG (place 2 3) (setBits (r0.rd DMA_CFG (place 2 3)) DMA_CFG_MODE.hi DMA_CFG_MODE.lo 1), 2, ⟨2, 9, {}⟩, 3, by decide⟩,
   ⟨({ r0 with pipe := { r0.pipe with spill := [⟨2, 9, {}⟩] } }.setCredit 2 9 999999).wr SPW_MAP (place 2 9) 0x80000003, 2, ⟨2, 9, {}⟩, by decide⟩,
   ⟨(r0.setCredit 2 9 5000000).wr SPW_SLU (place 2 9) 0x00005005, by decide⟩⟩
theorem wit_QueueOperationsAndAdmissionComplete :
    (∃ s : State, ∃ d : LcDie, (s.unitRuns d.val 3 = true)) ∧
    (∃ s : State, ∃ d : LcDie, ∃ e : Ecc, ∃ v : Word, ∃ q : Nat, (s.running = true) ∧ (eccBad e = false) ∧ (s.is TM_STAT_READY (onDie d.val) = true) ∧ (s.is TM_QOP_BUSY (onDie d.val) = false) ∧ (q = bits v 17 0) ∧ (q < queuesOf d.val)) ∧
    (∃ s : State, ∃ d : LcDie, ∃ e : Ecc, ∃ v : Word, ∃ q : Nat, (s.running = true) ∧ (eccBad e = false) ∧ (s.is TM_STAT_READY (onDie d.val) = true) ∧ (s.is TM_QOP_BUSY (onDie d.val) = false) ∧ (q = bits v 17 0) ∧ ((s.queue d.val q).prof < 16) ∧ ((s.queue d.val q).slu < 2 ^ 14) ∧ ((s.queue d.val q).w < 2 ^ 16) ∧ ((s.queue d.val q).tag < 2 ^ 48) ∧ ((s.queue d.val q).drop < 2 ^ 16) ∧ ((s.queue d.val q).pkts.length < 2 ^ 21) ∧ ((s.queue d.val q).bytes < 2 ^ 26)) ∧
    (∃ s : State, ∃ d : LcDie, ∃ e : Ecc, ∃ v : Word, ∃ q : Nat, ∃ k : Nat, (s.running = true) ∧ (eccBad e = false) ∧ (s.is TM_STAT_READY (onDie d.val) = true) ∧ (s.is TM_QOP_BUSY (onDie d.val) = false) ∧ (q = bits v 17 0) ∧ (k < s.get TM_QOP_CNT_V (onDie d.val)) ∧ (q + k < queuesOf d.val)) ∧
    (∃ s : State, ∃ d : LcDie, ∃ e : Ecc, ∃ v : Word, ∃ q : Nat, (s.running = true) ∧ (eccBad e = false) ∧ (s.is TM_STAT_READY (onDie d.val) = true) ∧ (s.is TM_QOP_BUSY (onDie d.val) = false) ∧ (q = bits v 17 0) ∧ ((Tab.get s.tm.chosen none (qPort d.val q)).isNone = true)) ∧
    (∃ s : State, ∃ d : LcDie, ∃ e : Ecc, ∃ v : Word, ∃ q : Nat, ∃ x : Chosen, (s.running = true) ∧ (eccBad e = false) ∧ (s.is TM_STAT_READY (onDie d.val) = true) ∧ (s.is TM_QOP_BUSY (onDie d.val) = false) ∧ (q = bits v 17 0) ∧ (2 ≤ d.val) ∧ (Tab.get s.tm.chosen none (qPort d.val q) = some x) ∧ (x.queue = q) ∧ ((s.queue d.val q).pkts ≠ [])) ∧
    (∃ s : State, ∃ d : LcDie, ∃ e : Ecc, ∃ v : Word, ∃ q : Nat, ∃ k : Pkt, (s.running = true) ∧ (eccBad e = false) ∧ (s.is TM_STAT_READY (onDie d.val) = true) ∧ (s.is TM_QOP_BUSY (onDie d.val) = false) ∧ (q = bits v 17 0) ∧ ((Tab.get s.tm.chosen none (qPort d.val q)).isNone = true) ∧ ((s.queue d.val q).pkts = [k]) ∧ (0 < k.buf)) ∧
    (∃ s : State, ∃ d : LcDie, (s.running = true) ∧ (s.is TM_QOP_BUSY (onDie d.val) = true ∨ s.is TM_STAT_READY (onDie d.val) = false)) ∧
    (∃ s : State, ∃ d : LcDie, (s.running = true) ∧ (s.is TM_QOP_BUSY (onDie d.val) = true ∨ s.is TM_STAT_READY (onDie d.val) = false)) ∧
    (∃ s : State, ∃ d : LcDie, (s.running = true) ∧ (s.is TM_QOP_BUSY (onDie d.val) = true ∨ s.is TM_STAT_READY (onDie d.val) = false)) ∧
    (∃ s : State, ∃ d : LcDie, (s.running = true) ∧ (s.is TM_QOP_BUSY (onDie d.val) = true ∨ s.is TM_STAT_READY (onDie d.val) = false)) ∧
    (∃ s : State, ∃ d : LcDie, ∃ e : Ecc, ∃ f : Fwd, ∃ q : Nat, (s.unitRuns d.val 3 = true) ∧ (eccBad e = false) ∧ (firstFwd (s.pipe.flight.filter (fun f => !f.mcast && f.die == d.val)) = some f) ∧ (s.is TM_STAT_READY (onDie d.val) = true) ∧ (q = s.modeQueue d.val f.queue f.pkt) ∧ (s.retired d.val q = false) ∧ ((s.queue d.val q).en = true) ∧ (¬((s.colour d.val q f.pkt).1 = 2 ∧ (s.colour d.val q f.pkt).2.1 = true)) ∧ ((s.queue d.val q).bytes + f.pkt.bytes.length ≤ s.profLimit d.val (s.queue d.val q).prof (s.colour d.val q f.pkt).1 * 1024) ∧ (s.get TM_POOL_OCC_V (onDie d.val) + f.pkt.cells ≤ s.poolLimit d.val (s.colour d.val q f.pkt).1)) ∧
    (∃ s : State, ∃ d : LcDie, ∃ e : Ecc, ∃ f : Fwd, ∃ q : Nat, (s.unitRuns d.val 3 = true) ∧ (eccBad e = false) ∧ (firstFwd (s.pipe.flight.filter (fun f => !f.mcast && f.die == d.val)) = some f) ∧ (s.is TM_STAT_READY (onDie d.val) = true) ∧ (q = s.modeQueue d.val f.queue f.pkt) ∧ (s.retired d.val q = false) ∧ ((s.queue d.val q).en = false)) ∧
    (∃ s : State, (s.running = true)) ∧
    (∃ s : State, (s.running = true)) ∧
    (∃ s : State, (s.running = true)) :=
  ⟨⟨r0, 2, by decide⟩,
   ⟨(r0.setQueue 2 5 { en := true, prof := 3, slu := 7, w := 9, pkts := [], drop := 4, tag := 0x123456789A }).put TM_STAT_READY (onDie 2) 1|>.wr TM_Q_STAGE0 (onDie 2) 0xF8000005, 2, .clean, 0x80000005#32, 5, by decide⟩,
   ⟨(r0.setQueue 2 5 { en := true, prof := 3, slu := 7, w := 9, pkts := [{ buf := 1, bytes := [1, 2], m := [] }], drop := 4, tag := 0x123456789A }).put TM_STAT_READY (onDie 2) 1, 2, .clean, 0xA0000005#32, 5, by decide⟩,
   ⟨((r0.setQueue 2 5 { en := true, prof := 3, slu := 7, w := 9, pkts := [], drop := 4, tag := 0x123456789A }).put TM_STAT_READY (onDie 2) 1).put TM_QOP_CNT_V (onDie 2) 3, 2, .clean, 0xC0000004#32, 4, 1, by decide⟩,
   ⟨(r0.setQueue 2 5 { en := true, prof := 3, slu := 7, w := 9, pkts := [{ buf := 1, bytes := [1, 2], m := [] }], drop := 4, tag := 0x123456789A }).put TM_STAT_READY (onDie 2) 1, 2, .clean, 0xE0000005#32, 5, by decide⟩,
   ⟨((r0.setQueue 2 5 { en := true, prof := 3, slu := 7, w := 9, pkts := [{ buf := 1, bytes := [1, 2], m := [] },{ buf := 1, bytes := [1, 2], m := [] }], drop := 4, tag := 0x123456789A }).put TM_STAT_READY (onDie 2) 1).setChosen 0 (some ⟨5, 3, 0, 5, 0⟩), 2, .clean, 0xE0000005#32, 5, ⟨5, 3, 0, 5, 0⟩, by decide⟩,
   ⟨(r0.setQueue 2 5 { en := true, prof := 3, slu := 7, w := 9, pkts := [{ buf := 1, bytes := [1, 2], m := [] }], drop := 4, tag := 0x123456789A }).put TM_STAT_READY (onDie 2) 1 |> fun s => { s with dram := { s.dram with bufs := [(1, { holds := 1 })] } }, 2, .clean, 0xE0000005#32, 5, { buf := 1, bytes := [1, 2], m := [] }, by decide⟩,
   ⟨r0.put TM_STAT_READY (onDie 2) 0, 2, by decide⟩,
   ⟨r0.put TM_STAT_READY (onDie 2) 0, 2, by decide⟩,
   ⟨r0.put TM_STAT_READY (onDie 2) 0, 2, by decide⟩,
   ⟨r0.put TM_STAT_READY (onDie 2) 0, 2, by decide⟩,
   ⟨((({ r0 with pipe := { r0.pipe with flight := [⟨2, 0, false, false, 2, 5, { buf := 1, bytes := [1, 2], m := [0, 0, 0, 0, 0, 0, 0, 0] }, 4⟩] } }.setQueue 2 5 { en := true, prof := 3, slu := 7 }).put TM_STAT_READY (onDie 2) 1).wrEff TM_APROF_A (place 2 3) 0x00010001).wrEff TM_POOL_LIM_G (onDie 2) 5, 2, .clean, ⟨2, 0, false, false, 2, 5, { buf := 1, bytes := [1, 2], m := [0, 0, 0, 0, 0, 0, 0, 0] }, 4⟩, 5, by decide⟩,
   ⟨(((({ r0 with pipe := { r0.pipe with flight := [⟨2, 0, false, false, 2, 5, { buf := 1, bytes := [1, 2], m := [0, 0, 0, 0, 0, 0, 0, 0] }, 4⟩] } }.setQueue 2 5 { en := true, prof := 3, slu := 7 }).put TM_STAT_READY (onDie 2) 1).wrEff TM_APROF_A (place 2 3) 0x00010001).wrEff TM_POOL_LIM_G (onDie 2) 5).setQueue 2 5 {}, 2, .clean, ⟨2, 0, false, false, 2, 5, { buf := 1, bytes := [1, 2], m := [0, 0, 0, 0, 0, 0, 0, 0] }, 4⟩, 5, by decide⟩,
   ⟨r0, by decide⟩,
   ⟨r0, by decide⟩,
   ⟨r0, by decide⟩⟩
theorem wit_SchedulingEventsComplete :
    (∃ s : State, ∃ d : LcDie, ∃ v : Word, (s.running = true) ∧ (1 ≤ bits v 13 0) ∧ (bits v 13 0 ≤ sluicesOf d.val)) ∧
    (∃ s : State, (s.running = true)) ∧
    (∃ s : State, ∃ d : LcDie, ∃ v : Word, ∃ x : Sluice, (s.running = true) ∧ (x = s.sluice d.val (bits v 13 0))) ∧
    (∃ s : State, ∃ d : LcDie, ∃ i : Nat, (s.unitRuns d.val 3 = true) ∧ (i < 2 ^ 14)) ∧
    (∃ s : State, ∃ d : LcDie, ∃ w : Nat, (s.unitRuns d.val 3 = true) ∧ (w ∈ weirsOf d.val) ∧ (s.is WEIR_CFG_EN (place d.val w) = true) ∧ (s.isEff WEIR_CFG_EN (place d.val w) = true)) ∧
    (∃ s : State, ∃ d : LcDie, ∃ i : Fin 64, ∃ k : Nat, (s.running = true) ∧ (hasGate d.val i.val = true) ∧ (s.gatePending d.val i.val = false) ∧ (k = s.get GATE_ADM_ADDR_ADDR (place d.val i.val)) ∧ (2 ≤ d.val ∨ k < 64)) ∧
    (∃ s : State, ∃ d : LcDie, ∃ i : Fin 64, (s.running = true) ∧ (hasGate d.val i.val = true) ∧ (s.gatePending d.val i.val = true)) ∧
    (∃ s : State, ∃ d : LcDie, ∃ i : Fin 64, ∃ b : Nat, ∃ c : Nat, ∃ n : Nat, (s.running = true) ∧ (n = s.tNow.1) ∧ (hasGate d.val i.val = true) ∧ (s.gatePending d.val i.val = false) ∧ (b = (s.get GATE_ADM_BASE_SEC_HI_V (place d.val i.val) * 2 ^ 32 + s.get GATE_ADM_BASE_SEC_LO_V (place d.val i.val)) * 1000000000 + s.get GATE_ADM_BASE_NS_V (place d.val i.val)) ∧ (c = s.get GATE_ADM_CYCLE_V (place d.val i.val)) ∧ (1 ≤ c)) ∧
    (∃ s : State, ∃ d : LcDie, ∃ i : Fin 64, ∃ l : GateList, (s.unitRuns d.val 3 = true) ∧ ((s.gate d.val i.val).pend = some l) ∧ (l.start * unitNs ≤ s.time.units)) ∧
    (∃ s : State, ∃ p : Port, ∃ e : Ecc, ∃ c : Fin 8, ∃ q : Nat, ∃ n : Nat, ∃ st : Nat, ∃ w : Nat, (s.unitRuns (portDie p.val) 3 = true) ∧ (eccBad e = false) ∧ (w = s.tNow.1) ∧ ((Tab.get s.tm.chosen none p.val).isNone = true) ∧ (s.is MAC_STAT_TX_LPI (atPort p.val) = false) ∧ ((s.mac p.val).pauseTx.isNone = true) ∧ (s.portEligible p.val w = true) ∧ (∀ k < 8, c.val < k → (match s.nextFlow (portDie p.val) (8 * p.val + k) with | none => true | some r => !s.weirOk (portDie p.val) (8 * p.val + k) || s.pfcPaused p.val k || (!s.tooLong p.val k (s.wireD p.val ((s.queue (portDie p.val) r).pkts.headD {}).bytes.length) && !s.fits p.val k st (s.wireD p.val ((s.queue (portDie p.val) r).pkts.headD {}).bytes.length))) = true) ∧ (s.nextFlow (portDie p.val) (8 * p.val + c.val) = some q) ∧ (n = ((s.queue (portDie p.val) q).pkts.headD {}).bytes.length) ∧ (s.weirOk (portDie p.val) (8 * p.val + c.val) = true) ∧ (s.pfcPaused p.val c.val = false) ∧ (s.tooLong p.val c.val (s.wireD p.val n) = false) ∧ (st = Nat.max (w + s.get TM_PORT_CFG_TX_LAT (atPort p.val) * unitNs) (s.cursor p.val)) ∧ (s.fits p.val c.val st (s.wireD p.val n) = true)) ∧
    (∃ s : State, ∃ p : Port, ∃ e : Ecc, ∃ x : Chosen, ∃ k : Pkt, ∃ l : List Pkt, (s.unitRuns (portDie p.val) 3 = true) ∧ (Tab.get s.tm.chosen none p.val = some x) ∧ ((s.queue (portDie p.val) x.queue).pkts = k :: l) ∧ (s.is MAC_STAT_LINK (atPort p.val) = true) ∧ (x.cls < 8) ∧ (p.val < 64) ∧ (s.isEff WEIR_CFG_EN (place (portDie p.val) (512 + p.val)) = true) ∧ (s.isEff WEIR_CFG_EN (place (portDie p.val) (8 * p.val + x.cls)) = true) ∧ (eccBad e = false)) :=
  ⟨⟨r0, 0, 0x80000FFF#32, by decide⟩,
   ⟨r0, by decide⟩,
   ⟨r0.setSluice 2 5 { g := 1, y := 2, r := 3 }, 2, 0xC0000005#32, { g := 1, y := 2, r := 3 }, by decide⟩,
   ⟨r0.setSluice 2 5 { w0 := 0x80000000, w1 := 0x00080001, w2 := 0x00080001 }, 2, 5, by decide⟩,
   ⟨(r0.wr WEIR_CFG (place 2 0) 0x80080005).wrEff WEIR_CFG (place 2 0) 0x80000000, 2, 0, by decide⟩,
   ⟨r0.put GATE_ADM_ADDR_ADDR (place 2 3) 255, 2, 3, 255, by decide⟩,
   ⟨r0.put GATE_STAT_PENDING (place 2 3) 1, 2, 3, by decide⟩,
   ⟨(((r0.setGate 2 3 { admin := [(0, 0x0F000064), (1, 0xF0000064)] }).put GATE_ADM_LEN_LEN (place 2 3) 2).put GATE_ADM_CYCLE_V (place 2 3) 200).put GATE_ADM_BASE_NS_V (place 2 3) 20000, 2, 3, 20000, 200, r0.tNow.1, by decide⟩,
   ⟨r0.setGate 2 3 { pend := some ⟨0, 100, [5]⟩ }, 2, 3, ⟨0, 100, [5]⟩, by decide⟩,
   ⟨(((r0.setTmClass 3 { cal := [(0, 6144)] }).setQueue 2 6144 { en := true, pkts := [{ buf := 1, bytes := [1, 2], m := [] }] }).put TM_PORT_CFG_EN (atPort 0) 1).put MAC_STAT_LINK (atPort 0) 1, 0, .clean, 3, 6144, 2, Nat.max (r0.tNow.1 + r0.get TM_PORT_CFG_TX_LAT (atPort 0) * unitNs) 0, r0.tNow.1, by decide⟩,
   ⟨((((r0.setTmClass 3 { cal := [(0, 6144)] }).setQueue 2 6144 { en := true, pkts := [{ buf := 1, bytes := [1, 2], m := [] }] }).put TM_PORT_CFG_EN (atPort 0) 1).put MAC_STAT_LINK (atPort 0) 1).setChosen 0 (some ⟨6144, 3, 0, 5, 0⟩) |>.wrEff WEIR_CFG (place 2 512) 0x80000000 |>.wrEff WEIR_CFG (place 2 3) 0x80000000, 0, .clean, ⟨6144, 3, 0, 5, 0⟩, { buf := 1, bytes := [1, 2], m := [] }, [], by decide⟩⟩
theorem wit_MacReceiveTransmitAndPauseComplete :
    (∃ s : State, ∃ p : Port, ∃ l : List Byte, ∃ n : Nat, ∃ v : RxView, ∃ w : Word, (s.islandRuns (MacPort.port p).die (MacPort.port p).bank = true) ∧ (v = s.rxView (.port p) n) ∧ (s.laneLoops (.port p) = false) ∧ (MAC_CFG_RX_EN.on v.cfg = true) ∧ (s.carries (.port p) = true) ∧ (60 ≤ l.length) ∧ (l.length + 4 ≤ MAC_CFG_MAX_FRAME.of v.cfg) ∧ (etherType l ≠ 0x8808) ∧ (v.addrFilter (beNat (slice l 0 6)) = some w) ∧ (s.is CIPH_MS_RX_EN (atPort p.val) = false) ∧ (s.powerState (portDie p.val) = 0) ∧ ((s.pickPool (portDie p.val) (cellsOf l.length)).isSome = true)) ∧
    (∃ s : State, ∃ p : Port, ∃ n : Nat, ∃ v : RxView, (s.islandRuns (MacPort.port p).die (MacPort.port p).bank = true) ∧ (v = s.rxView (.port p) n) ∧ (s.laneLoops (.port p) = false) ∧ (MAC_CFG_RX_EN.on v.cfg = true) ∧ (s.carries (.port p) = true)) ∧
    (∃ s : State, ∃ p : Port, ∃ l : List Byte, ∃ n : Nat, ∃ v : RxView, (s.islandRuns (MacPort.port p).die (MacPort.port p).bank = true) ∧ (v = s.rxView (.port p) n) ∧ (s.laneLoops (.port p) = false) ∧ (MAC_CFG_RX_EN.on v.cfg = true) ∧ (s.carries (.port p) = true) ∧ (l.length < 60)) ∧
    (∃ s : State, ∃ p : Port, ∃ l : List Byte, ∃ n : Nat, ∃ v : RxView, (s.islandRuns (MacPort.port p).die (MacPort.port p).bank = true) ∧ (v = s.rxView (.port p) n) ∧ (s.laneLoops (.port p) = false) ∧ (MAC_CFG_RX_EN.on v.cfg = true) ∧ (s.carries (.port p) = true) ∧ (60 ≤ l.length) ∧ (MAC_CFG_MAX_FRAME.of v.cfg < l.length + 4)) ∧
    (∃ s : State, ∃ p : Port, ∃ l : List Byte, ∃ n : Nat, ∃ v : RxView, (s.islandRuns (MacPort.port p).die (MacPort.port p).bank = true) ∧ (v = s.rxView (.port p) n) ∧ (s.laneLoops (.port p) = false) ∧ (MAC_CFG_RX_EN.on v.cfg = true) ∧ (s.carries (.port p) = true) ∧ (60 ≤ l.length) ∧ (l.length + 4 ≤ MAC_CFG_MAX_FRAME.of v.cfg) ∧ (etherType l ≠ 0x8808) ∧ (v.addrFilter (beNat (slice l 0 6)) = none)) ∧
    (∃ s : State, ∃ p : Port, ∃ l : List Byte, ∃ n : Nat, ∃ v : RxView, ∃ w : Word, (s.islandRuns (MacPort.port p).die (MacPort.port p).bank = true) ∧ (v = s.rxView (.port p) n) ∧ (s.laneLoops (.port p) = false) ∧ (MAC_CFG_RX_EN.on v.cfg = true) ∧ (s.carries (.port p) = true) ∧ (60 ≤ l.length) ∧ (l.length + 4 ≤ MAC_CFG_MAX_FRAME.of v.cfg) ∧ (etherType l ≠ 0x8808) ∧ (v.addrFilter (beNat (slice l 0 6)) = some w) ∧ (s.is CIPH_MS_RX_EN (atPort p.val) = false) ∧ (s.powerState (portDie p.val) ≠ 0) ∧ (s.get PWR_PORT_WAKE_MODE (d0i p.val) = 2)) ∧
    (∃ s : State, ∃ p : Port, ∃ l : List Byte, ∃ n : Nat, ∃ v : RxView, ∃ w : Word, (s.islandRuns (MacPort.port p).die (MacPort.port p).bank = true) ∧ (v = s.rxView (.port p) n) ∧ (s.laneLoops (.port p) = false) ∧ (MAC_CFG_RX_EN.on v.cfg = true) ∧ (s.carries (.port p) = true) ∧ (60 ≤ l.length) ∧ (l.length + 4 ≤ MAC_CFG_MAX_FRAME.of v.cfg) ∧ (etherType l ≠ 0x8808) ∧ (v.addrFilter (beNat (slice l 0 6)) = some w) ∧ (s.is CIPH_MS_RX_EN (atPort p.val) = false) ∧ (s.powerState (portDie p.val) ≠ 0) ∧ (s.get PWR_PORT_WAKE_MODE (d0i p.val) = 1) ∧ (s.patternMatch (portDie p.val) l = false)) ∧
    (∃ s : State, ∃ p : Port, ∃ l : List Byte, ∃ n : Nat, ∃ v : RxView, ∃ w : Word, (s.islandRuns (MacPort.port p).die (MacPort.port p).bank = true) ∧ (v = s.rxView (.port p) n) ∧ (s.laneLoops (.port p) = false) ∧ (MAC_CFG_RX_EN.on v.cfg = true) ∧ (s.carries (.port p) = true) ∧ (60 ≤ l.length) ∧ (l.length + 4 ≤ MAC_CFG_MAX_FRAME.of v.cfg) ∧ (etherType l ≠ 0x8808) ∧ (v.addrFilter (beNat (slice l 0 6)) = some w) ∧ (s.is CIPH_MS_RX_EN (atPort p.val) = false) ∧ (s.powerState (portDie p.val) ≠ 0) ∧ (s.get PWR_PORT_WAKE_MODE (d0i p.val) = 1) ∧ (s.patternMatch (portDie p.val) l = true) ∧ ((s.mac p.val).store.foldl (fun n g => n + g.bytes.length) 0 + l.length ≤ 16384)) ∧
    (∃ s : State, ∃ p : Port, ∃ l : List Byte, ∃ n : Nat, ∃ v : RxView, (s.islandRuns (MacPort.port p).die (MacPort.port p).bank = true) ∧ (v = s.rxView (.port p) n) ∧ (s.laneLoops (.port p) = false) ∧ (MAC_CFG_RX_EN.on v.cfg = true) ∧ (s.carries (.port p) = true) ∧ (60 ≤ l.length) ∧ (l.length + 4 ≤ MAC_CFG_MAX_FRAME.of v.cfg) ∧ (etherType l ≠ 0x8808)) ∧
    (∃ s : State, ∃ p : Port, ∃ phi : Nat, ∃ f : TxFrame, ∃ l : List TxFrame, (s.unitRuns (MacPort.port p).die (MacPort.port p).bank = true) ∧ ((s.mac p.val).tx = f :: l) ∧ ((s.mac p.val).sending.isNone = true) ∧ (s.portView (.port p) phi < f.start)) ∧
    (∃ s : State, ∃ p : Port, ∃ phi : Nat, ∃ f : TxFrame, ∃ l : List TxFrame, (s.unitRuns (MacPort.port p).die (MacPort.port p).bank = true) ∧ ((s.mac p.val).tx = f :: l) ∧ ((s.mac p.val).sending.isNone = true) ∧ (s.carries (.port p) = true) ∧ (f.start ≤ s.portView (.port p) phi) ∧ (f.late = false) ∧ (s.heldByPause (.port p) f = false) ∧ (s.frameWaits (.port p) f = true)) ∧
    (∃ s : State, ∃ p : Port, ∃ phi : Nat, ∃ f : TxFrame, ∃ l : List TxFrame, (s.unitRuns (MacPort.port p).die (MacPort.port p).bank = true) ∧ ((s.mac p.val).tx = f :: l) ∧ ((s.mac p.val).sending.isNone = true) ∧ (f.late = false) ∧ (s.frameWaits (.port p) f = false) ∧ (s.carries (.port p) = true) ∧ (f.start ≤ s.portView (.port p) phi) ∧ (s.heldByPause (.port p) f = false) ∧ (f.pause.isNone = true) ∧ (f.bad = false) ∧ (s.mis (.port p) MAC_CFG_TX_EN = true) ∧ (frameLen f.pkt.bytes.length ≤ s.mget (.port p) MAC_CFG_MAX_FRAME) ∧ (bits (f.pkt.m.getD 7 0) 26 23 = 0) ∧ (s.isEff CIPH_MS_TX_EN (atPort p.val) = false) ∧ (s.doubtful (s.bufOf f.pkt.buf) = false) ∧ (s.bufError (s.bufOf f.pkt.buf) = false) ∧ (s.cutOff (portDie p.val) (s.bufOf f.pkt.buf) = false)) ∧
    (∃ s : State, ∃ m : MacPort, ∃ f : Sending, (s.unitRuns m.die m.bank = true) ∧ ((s.mac m.key).sending = some f) ∧ (s.laneLoops m = false) ∧ (f.stamp.isNone = true)) ∧
    (∃ s : State, ∃ m : MacPort, ∃ f : Sending, ∃ x : Stamp, (s.unitRuns m.die m.bank = true) ∧ ((s.mac m.key).sending = some f) ∧ (s.laneLoops m = false) ∧ (f.stamp = some x) ∧ ((s.mac m.key).fifo.length < 32)) ∧
    (∃ s : State, ∃ m : MacPort, ∃ x : Stamp, ∃ l : List Stamp, (s.running = true) ∧ ((s.mac m.key).fifo = x :: l)) ∧
    (∃ s : State, ∃ m : MacPort, (s.running = true) ∧ ((s.mac m.key).tx.any (·.pause.isSome) = false)) ∧
    (∃ s : State, ∃ m : MacPort, (s.running = true) ∧ ((s.mac m.key).tx.any (·.pause.isSome) = true)) ∧
    (∃ s : State, ∃ m : MacPort, ∃ k : Fin 9, (s.islandRuns m.die m.bank = true) ∧ (Tab.get (s.mac m.key).timers 0 k.val ≠ 0)) ∧
    (∃ s : State, ∃ m : MacPort, ∃ k : Fin 9, (s.unitRuns m.die m.bank = true) ∧ (Tab.get (s.mac m.key).timers 0 k.val ≠ 0) ∧ (s.getEff (m.fld MAC_FC_WD_WD_MS) m.at_ ≠ 0)) ∧
    (∃ s : State, ∃ m : MacPort, (s.unitRuns m.die m.bank = true) ∧ (s.mis m MAC_EEE_CFG_EN = true) ∧ (s.macByte25 m ≤ 200) ∧ (s.mis m MAC_STAT_LINK = true) ∧ (s.mis m MAC_STAT_TX_LPI = false) ∧ ((s.mac m.key).tx = []) ∧ ((s.mac m.key).sending.isNone = true) ∧ ((s.mac m.key).pauseTx.isNone = true)) ∧
    (∃ s : State, ∃ m : MacPort, (s.islandRuns m.die m.bank = true) ∧ (s.mis m MAC_STAT_RX_LPI = false) ∧ (s.carries m = true)) ∧
    (∃ s : State, ∃ m : MacPort, (s.islandRuns m.die m.bank = true) ∧ (s.carries m = false)) ∧
    (∃ s : State, ∃ m : MacPort, (s.islandRuns m.die m.bank = true) ∧ (s.mis m MAC_STAT_LINK = false) ∧ (s.laneOn m = true)) ∧
    (∃ s : State, ∃ m : MacPort, (s.islandRuns m.die m.bank = true) ∧ (s.laneOn m = false)) ∧
    (∃ s : State, ∃ m : MacPort, (s.islandRuns m.die m.bank = true) ∧ (s.mis m MAC_STAT_LINK = true)) :=
  ⟨⟨((((((((((((r0.put LANE_SUB_CFG_EN (atPort 0) 1).mput (.port 0) MAC_STAT_LINK 1).mput (.port 0) MAC_CFG_RX_EN 1).mput (.port 0) MAC_CFG_PROMISC 1).mput (.port 0) MAC_CFG_MAX_FRAME 1518).put RSV_STAT_READY (onDie 6) 1)).put PWR_DIE_STAT_STATE (d0i 6) 0)))).put HW_DIE_MAP_UP d0 0xFF).put RSV_FREE_V (onDie 6) 4, 0, List.replicate 60 (0 : Byte), 0, (((((((((((((r0.put LANE_SUB_CFG_EN (atPort 0) 1).mput (.port 0) MAC_STAT_LINK 1).mput (.port 0) MAC_CFG_RX_EN 1).mput (.port 0) MAC_CFG_PROMISC 1).mput (.port 0) MAC_CFG_MAX_FRAME 1518).put RSV_STAT_READY (onDie 6) 1)).put PWR_DIE_STAT_STATE (d0i 6) 0)))).put HW_DIE_MAP_UP d0 0xFF).put RSV_FREE_V (onDie 6) 4).rxView (.port 0) 0, 0, by decide⟩,
   ⟨(((r0.put LANE_SUB_CFG_EN (atPort 0) 1).mput (.port 0) MAC_STAT_LINK 1).mput (.port 0) MAC_CFG_RX_EN 1).mput (.port 0) MAC_CFG_PROMISC 1, 0, 0, ((((r0.put LANE_SUB_CFG_EN (atPort 0) 1).mput (.port 0) MAC_STAT_LINK 1).mput (.port 0) MAC_CFG_RX_EN 1).mput (.port 0) MAC_CFG_PROMISC 1).rxView (.port 0) 0, by decide⟩,
   ⟨(((r0.put LANE_SUB_CFG_EN (atPort 0) 1).mput (.port 0) MAC_STAT_LINK 1).mput (.port 0) MAC_CFG_RX_EN 1).mput (.port 0) MAC_CFG_PROMISC 1, 0, [1, 2], 0, ((((r0.put LANE_SUB_CFG_EN (atPort 0) 1).mput (.port 0) MAC_STAT_LINK 1).mput (.port 0) MAC_CFG_RX_EN 1).mput (.port 0) MAC_CFG_PROMISC 1).rxView (.port 0) 0, by decide⟩,
   ⟨(((r0.put LANE_SUB_CFG_EN (atPort 0) 1).mput (.port 0) MAC_STAT_LINK 1).mput (.port 0) MAC_CFG_RX_EN 1).mput (.port 0) MAC_CFG_PROMISC 1 |>.mput (.port 0) MAC_CFG_MAX_FRAME 60, 0, List.replicate 60 (0 : Byte), 0, ((((r0.put LANE_SUB_CFG_EN (atPort 0) 1).mput (.port 0) MAC_STAT_LINK 1).mput (.port 0) MAC_CFG_RX_EN 1).mput (.port 0) MAC_CFG_PROMISC 1 |>.mput (.port 0) MAC_CFG_MAX_FRAME 60).rxView (.port 0) 0, by decide⟩,
   ⟨((((((((((((r0.put LANE_SUB_CFG_EN (atPort 0) 1).mput (.port 0) MAC_STAT_LINK 1).mput (.port 0) MAC_CFG_RX_EN 1).mput (.port 0) MAC_CFG_PROMISC 1).mput (.port 0) MAC_CFG_MAX_FRAME 1518).put RSV_STAT_READY (onDie 6) 1)).put PWR_DIE_STAT_STATE (d0i 6) 0))))).mput (.port 0) MAC_CFG_PROMISC 0, 0, List.replicate 60 (0 : Byte), 0, (((((((((((((r0.put LANE_SUB_CFG_EN (atPort 0) 1).mput (.port 0) MAC_STAT_LINK 1).mput (.port 0) MAC_CFG_RX_EN 1).mput (.port 0) MAC_CFG_PROMISC 1).mput (.port 0) MAC_CFG_MAX_FRAME 1518).put RSV_STAT_READY (onDie 6) 1)).put PWR_DIE_STAT_STATE (d0i 6) 0))))).mput (.port 0) MAC_CFG_PROMISC 0).rxView (.port 0) 0, by decide⟩,
   ⟨((((((((((((((r0.put LANE_SUB_CFG_EN (atPort 0) 1).mput (.port 0) MAC_STAT_LINK 1).mput (.port 0) MAC_CFG_RX_EN 1).mput (.port 0) MAC_CFG_PROMISC 1).mput (.port 0) MAC_CFG_MAX_FRAME 1518).put RSV_STAT_READY (onDie 6) 1)).put PWR_DIE_STAT_STATE (d0i 6) 0))))).put PWR_DIE_STAT_STATE (d0i 2) 2).put PWR_PORT_WAKE_MODE (d0i 0) 2), 0, List.replicate 60 (0 : Byte), 0, (((((((((((((((r0.put LANE_SUB_CFG_EN (atPort 0) 1).mput (.port 0) MAC_STAT_LINK 1).mput (.port 0) MAC_CFG_RX_EN 1).mput (.port 0) MAC_CFG_PROMISC 1).mput (.port 0) MAC_CFG_MAX_FRAME 1518).put RSV_STAT_READY (onDie 6) 1)).put PWR_DIE_STAT_STATE (d0i 6) 0))))).put PWR_DIE_STAT_STATE (d0i 2) 2).put PWR_PORT_WAKE_MODE (d0i 0) 2)).rxView (.port 0) 0, 0, by decide⟩,
   ⟨((((((((((((((r0.put LANE_SUB_CFG_EN (atPort 0) 1).mput (.port 0) MAC_STAT_LINK 1).mput (.port 0) MAC_CFG_RX_EN 1).mput (.port 0) MAC_CFG_PROMISC 1).mput (.port 0) MAC_CFG_MAX_FRAME 1518).put RSV_STAT_READY (onDie 6) 1)).put PWR_DIE_STAT_STATE (d0i 6) 0))))).put PWR_DIE_STAT_STATE (d0i 2) 2).put PWR_PORT_WAKE_MODE (d0i 0) 1).wrEff PWR_PAT_MASK (place 0 32) 0xFF |>.wrEff PWR_PAT_DATA (place 0 32) 5, 0, List.replicate 60 (0 : Byte), 0, (((((((((((((((r0.put LANE_SUB_CFG_EN (atPort 0) 1).mput (.port 0) MAC_STAT_LINK 1).mput (.port 0) MAC_CFG_RX_EN 1).mput (.port 0) MAC_CFG_PROMISC 1).mput (.port 0) MAC_CFG_MAX_FRAME 1518).put RSV_STAT_READY (onDie 6) 1)).put PWR_DIE_STAT_STATE (d0i 6) 0))))).put PWR_DIE_STAT_STATE (d0i 2) 2).put PWR_PORT_WAKE_MODE (d0i 0) 1).wrEff PWR_PAT_MASK (place 0 32) 0xFF |>.wrEff PWR_PAT_DATA (place 0 32) 5).rxView (.port 0) 0, 0, by decide⟩,
   ⟨((((((((((((((r0.put LANE_SUB_CFG_EN (atPort 0) 1).mput (.port 0) MAC_STAT_LINK 1).mput (.port 0) MAC_CFG_RX_EN 1).mput (.port 0) MAC_CFG_PROMISC 1).mput (.port 0) MAC_CFG_MAX_FRAME 1518).put RSV_STAT_READY (onDie 6) 1)).put PWR_DIE_STAT_STATE (d0i 6) 0))))).put PWR_DIE_STAT_STATE (d0i 2) 2).put PWR_PORT_WAKE_MODE (d0i 0) 1), 0, List.replicate 60 (0 : Byte), 0, (((((((((((((((r0.put LANE_SUB_CFG_EN (atPort 0) 1).mput (.port 0) MAC_STAT_LINK 1).mput (.port 0) MAC_CFG_RX_EN 1).mput (.port 0) MAC_CFG_PROMISC 1).mput (.port 0) MAC_CFG_MAX_FRAME 1518).put RSV_STAT_READY (onDie 6) 1)).put PWR_DIE_STAT_STATE (d0i 6) 0))))).put PWR_DIE_STAT_STATE (d0i 2) 2).put PWR_PORT_WAKE_MODE (d0i 0) 1)).rxView (.port 0) 0, 0, by decide⟩,
   ⟨(((((((((((r0.put LANE_SUB_CFG_EN (atPort 0) 1).mput (.port 0) MAC_STAT_LINK 1).mput (.port 0) MAC_CFG_RX_EN 1).mput (.port 0) MAC_CFG_PROMISC 1).mput (.port 0) MAC_CFG_MAX_FRAME 1518).put RSV_STAT_READY (onDie 6) 1)).put PWR_DIE_STAT_STATE (d0i 6) 0)))), 0, List.replicate 60 (0 : Byte), 0, ((((((((((((r0.put LANE_SUB_CFG_EN (atPort 0) 1).mput (.port 0) MAC_STAT_LINK 1).mput (.port 0) MAC_CFG_RX_EN 1).mput (.port 0) MAC_CFG_PROMISC 1).mput (.port 0) MAC_CFG_MAX_FRAME 1518).put RSV_STAT_READY (onDie 6) 1)).put PWR_DIE_STAT_STATE (d0i 6) 0))))).rxView (.port 0) 0, by decide⟩,
   ⟨((((r0.put LANE_SUB_CFG_EN (atPort 0) 1).mput (.port 0) MAC_STAT_LINK 1).mput (.port 0) MAC_CFG_TX_EN 1).mput (.port 0) MAC_CFG_MAX_FRAME 1518).setMac 0 { (((((r0.put LANE_SUB_CFG_EN (atPort 0) 1).mput (.port 0) MAC_STAT_LINK 1).mput (.port 0) MAC_CFG_TX_EN 1).mput (.port 0) MAC_CFG_MAX_FRAME 1518)).mac 0 with tx := [{ pkt := { buf := 0, bytes := [1, 2, 3], m := [0, 0, 0, 0, 0, 0, 0, 0] }, start := 2 ^ 80 }] }, 0, 5, { pkt := { buf := 0, bytes := [1, 2, 3], m := [0, 0, 0, 0, 0, 0, 0, 0] }, start := 2 ^ 80 }, [], by decide⟩,
   ⟨((({ ((((r0.put LANE_SUB_CFG_EN (atPort 0) 1).mput (.port 0) MAC_STAT_LINK 1).mput (.port 0) MAC_CFG_TX_EN 1).mput (.port 0) MAC_CFG_MAX_FRAME 1518) with dram := { r0.dram with bufs := [(1, { die := 6, holds := 1 })] } } : State).put HW_DIE_MAP_UP d0 0xFF).put PWR_DIE_STAT_STATE (d0i 6) 1 |>.put PWR_DIE_STAT_STATE (d0i 2) 0 |> fun (s : State) => { s with time := { sec := 5 } }).setMac 0 { (((({ ((((r0.put LANE_SUB_CFG_EN (atPort 0) 1).mput (.port 0) MAC_STAT_LINK 1).mput (.port 0) MAC_CFG_TX_EN 1).mput (.port 0) MAC_CFG_MAX_FRAME 1518) with dram := { r0.dram with bufs := [(1, { die := 6, holds := 1 })] } } : State).put HW_DIE_MAP_UP d0 0xFF).put PWR_DIE_STAT_STATE (d0i 6) 1 |>.put PWR_DIE_STAT_STATE (d0i 2) 0 |> fun (s : State) => { s with time := { sec := 5 } })).mac 0 with tx := [{ pkt := { buf := 1, bytes := [1, 2, 3], m := [] } }] }, 0, 5, { pkt := { buf := 1, bytes := [1, 2, 3], m := [] } }, [], by decide⟩,
   ⟨({ ((((r0.put LANE_SUB_CFG_EN (atPort 0) 1).mput (.port 0) MAC_STAT_LINK 1).mput (.port 0) MAC_CFG_TX_EN 1).mput (.port 0) MAC_CFG_MAX_FRAME 1518) with time := { sec := 5 } } : State).setMac 0 { (({ ((((r0.put LANE_SUB_CFG_EN (atPort 0) 1).mput (.port 0) MAC_STAT_LINK 1).mput (.port 0) MAC_CFG_TX_EN 1).mput (.port 0) MAC_CFG_MAX_FRAME 1518) with time := { sec := 5 } } : State)).mac 0 with tx := [{ pkt := { buf := 0, bytes := [1, 2, 3], m := [0, 0, 0, 0, 0, 0, 0, 0] } }] }, 0, 5, { pkt := { buf := 0, bytes := [1, 2, 3], m := [0, 0, 0, 0, 0, 0, 0, 0] } }, [], by decide⟩,
   ⟨r0.setMac 0 { (r0).mac 0 with sending := some { wire := [1, 2, 3], buf := 0, pause := false, stamp := none } }, (.port 0), { wire := [1, 2, 3], buf := 0, pause := false, stamp := none }, by decide⟩,
   ⟨r0.setMac 0 { (r0).mac 0 with sending := some { wire := [1, 2, 3], buf := 0, pause := false, stamp := some ⟨1, 2, 3, 4, 5, 6⟩ } }, (.port 0), { wire := [1, 2, 3], buf := 0, pause := false, stamp := some ⟨1, 2, 3, 4, 5, 6⟩ }, ⟨1, 2, 3, 4, 5, 6⟩, by decide⟩,
   ⟨r0.setMac 0 { (r0).mac 0 with fifo := [⟨1, 2, 3, 4, 5, 6⟩] }, (.port 0), ⟨1, 2, 3, 4, 5, 6⟩, [], by decide⟩,
   ⟨r0, .mgt, by decide⟩,
   ⟨r0.setMac 0 { (r0).mac 0 with tx := [{ pause := some 9 }] }, (.port 0), by decide⟩,
   ⟨r0.setMac 0 { (r0).mac 0 with timers := [(3, 9)] }, (.port 0), 3, by decide⟩,
   ⟨(r0.setMac 0 { (r0).mac 0 with timers := [(8, 9)] }).wrEff MAC_FC_WD (atPort 0) (setBits 0 MAC_FC_WD_WD_MS.hi MAC_FC_WD_WD_MS.lo 5), (.port 0), 8, by decide⟩,
   ⟨((r0.mput (.port 0) MAC_STAT_LINK 1).mput (.port 0) MAC_EEE_CFG_EN 1).mput (.port 0) MAC_STAT_TX_LPI 0, (.port 0), by decide⟩,
   ⟨(((r0.put LANE_SUB_CFG_EN (atPort 0) 1).mput (.port 0) MAC_STAT_LINK 1).mput (.port 0) MAC_CFG_RX_EN 1).mput (.port 0) MAC_CFG_PROMISC 1, (.port 0), by decide⟩,
   ⟨r0.mput (.port 0) MAC_STAT_LINK 0, (.port 0), by decide⟩,
   ⟨r0.put LANE_SUB_CFG_EN (atPort 0) 1, (.port 0), by decide⟩,
   ⟨r0.put LANE_SUB_CFG_EN (atPort 0) 0, (.port 0), by decide⟩,
   ⟨((((r0.put LANE_SUB_CFG_EN (atPort 0) 1).mput (.port 0) MAC_STAT_LINK 1).mput (.port 0) MAC_CFG_TX_EN 1).mput (.port 0) MAC_CFG_MAX_FRAME 1518).setMac 0 { (((((r0.put LANE_SUB_CFG_EN (atPort 0) 1).mput (.port 0) MAC_STAT_LINK 1).mput (.port 0) MAC_CFG_TX_EN 1).mput (.port 0) MAC_CFG_MAX_FRAME 1518)).mac 0 with tx := [{ pkt := { buf := 0, bytes := [1, 2, 3], m := [0, 0, 0, 0, 0, 0, 0, 0] } }] }, (.port 0), by decide⟩⟩
theorem wit_MacFiltersAndManagementMastersComplete :
    (∃ s : State, (s.running = true)) ∧
    (∃ s : State, (s.running = true)) ∧
    (∃ s : State, (s.running = true)) ∧
    (∃ s : State, ∃ d : CourseDie, ∃ m : Fin 4, (s.hw.alive = true) ∧ (present s.part (courseIdx d) = true) ∧ (s.is MAC_MDIO_CMD_BUSY (place (courseIdx d) m.val) = false)) ∧
    (∃ s : State, ∃ d : CourseDie, ∃ m : Fin 4, (s.hw.alive = true) ∧ (present s.part (courseIdx d) = true) ∧ (s.is MAC_MDIO_CMD_BUSY (place (courseIdx d) m.val) = false)) ∧
    (∃ s : State, ∃ d : CourseDie, ∃ m : Fin 4, (s.hw.alive = true) ∧ (present s.part (courseIdx d) = true) ∧ (s.is MAC_MDIO_CMD_BUSY (place (courseIdx d) m.val) = false)) ∧
    (∃ s : State, ∃ d : CourseDie, ∃ m : Fin 4, (s.hw.alive = true) ∧ (present s.part (courseIdx d) = true) ∧ (s.is MAC_MDIO_CMD_BUSY (place (courseIdx d) m.val) = false)) ∧
    (∃ s : State, ∃ d : CourseDie, ∃ m : Fin 4, (s.hw.alive = true) ∧ (present s.part (courseIdx d) = true) ∧ (s.is MAC_MDIO_CMD_BUSY (place (courseIdx d) m.val) = false)) ∧
    (∃ s : State, ∃ d : CourseDie, ∃ m : Fin 4, (s.hw.alive = true) ∧ (present s.part (courseIdx d) = true) ∧ (s.is MAC_MDIO_CMD_BUSY (place (courseIdx d) m.val) = false)) ∧
    (∃ s : State, ∃ d : CourseDie, ∃ m : Fin 4, (s.hw.alive = true) ∧ (present s.part (courseIdx d) = true) ∧ (s.is MAC_MDIO_CMD_BUSY (place (courseIdx d) m.val) = true)) ∧
    (∃ s : State, ∃ d : CourseDie, ∃ m : Fin 4, (s.hw.alive = true) ∧ (present s.part (courseIdx d) = true) ∧ (s.is MAC_MDIO_CMD_BUSY (place (courseIdx d) m.val) = true)) ∧
    (∃ s : State, ∃ d : CourseDie, ∃ m : Fin 4, (s.hw.alive = true) ∧ (present s.part (courseIdx d) = true) ∧ (s.is MAC_MDIO_CMD_BUSY (place (courseIdx d) m.val) = true)) ∧
    (∃ s : State, ∃ d : CourseDie, ∃ m : Fin 4, (s.hw.alive = true) ∧ (present s.part (courseIdx d) = true) ∧ (s.is MAC_MDIO_CMD_BUSY (place (courseIdx d) m.val) = true)) ∧
    (∃ s : State, ∃ d : CourseDie, ∃ m : Fin 4, (s.hw.alive = true) ∧ (present s.part (courseIdx d) = true) ∧ (s.is MAC_MDIO_CMD_BUSY (place (courseIdx d) m.val) = true)) ∧
    (∃ s : State, ∃ d : CourseDie, ∃ m : Fin 4, (s.hw.alive = true) ∧ (present s.part (courseIdx d) = true) ∧ (s.is MAC_MDIO_CMD_BUSY (place (courseIdx d) m.val) = true)) ∧
    (∃ s : State, ∃ d : CourseDie, (s.hw.alive = true) ∧ (bits (s.rd MAC_CAGE_I2C_CMD (onDie (courseIdx d))) 30 30 = 1)) ∧
    (∃ s : State, ∃ d : CourseDie, (s.hw.alive = true) ∧ (bits (s.rd MAC_CAGE_I2C_CMD (onDie (courseIdx d))) 30 30 = 1)) ∧
    (∃ s : State, ∃ d : CourseDie, ∃ m : Fin 4, ∃ j : MdioJob, (s.hw.alive = true) ∧ (s.unitHeld (courseIdx d) 4 = false) ∧ (Tab.get s.macs.mdio none (courseIdx d * 4 + m.val) = some j)) ∧
    (∃ s : State, ∃ d : CourseDie, ∃ v : Word, (s.hw.alive = true) ∧ (bits (s.rd MAC_CAGE_I2C_CMD (onDie (courseIdx d))) 30 30 = 0) ∧ (bits (s.rd MAC_CAGE_I2C_CFG (onDie (courseIdx d))) 31 31 = 1) ∧ (1 ≤ bits v 23 20) ∧ (bits v 23 20 ≤ 8)) ∧
    (∃ s : State, ∃ d : CourseDie, ∃ v : Word, (s.hw.alive = true) ∧ (bits (s.rd MAC_CAGE_I2C_CMD (onDie (courseIdx d))) 30 30 = 0) ∧ (bits (s.rd MAC_CAGE_I2C_CFG (onDie (courseIdx d))) 31 31 = 1) ∧ (1 ≤ bits v 23 20) ∧ (bits v 23 20 ≤ 8)) ∧
    (∃ s : State, ∃ d : CourseDie, ∃ j : I2cJob, (s.hw.alive = true) ∧ (s.unitHeld (courseIdx d) 4 = false) ∧ (Tab.get s.macs.cage none (courseIdx d) = some j)) ∧
    (∃ s : State, ∃ d : CourseDie, (s.hw.alive = true) ∧ (s.unitHeld (courseIdx d) 4 = false) ∧ (s.is MAC_LED_CFG_EN (onDie (courseIdx d)) = true) ∧ (∀ i < 64, (s.rd MAC_LED_SRC (place (courseIdx d) (i / 4))).toNat / 16 ^ (i % 4) % 16 ≤ 1)) :=
  ⟨⟨r0, by decide⟩,
   ⟨r0.setMac 0 { (r0).mac 0 with da := [(7, 0x8000112233445566)] }, by decide⟩,
   ⟨r0, by decide⟩,
   ⟨r0, 1, 3, by decide⟩,
   ⟨r0, 1, 3, by decide⟩,
   ⟨r0, 1, 3, by decide⟩,
   ⟨r0, 1, 3, by decide⟩,
   ⟨r0, 1, 3, by decide⟩,
   ⟨r0, 1, 3, by decide⟩,
   ⟨r0.put MAC_MDIO_CMD_BUSY (place 3 3) 1, 1, 3, by decide⟩,
   ⟨r0.put MAC_MDIO_CMD_BUSY (place 3 3) 1, 1, 3, by decide⟩,
   ⟨r0.put MAC_MDIO_CMD_BUSY (place 3 3) 1, 1, 3, by decide⟩,
   ⟨r0.put MAC_MDIO_CMD_BUSY (place 3 3) 1, 1, 3, by decide⟩,
   ⟨r0.put MAC_MDIO_CMD_BUSY (place 3 3) 1, 1, 3, by decide⟩,
   ⟨r0.put MAC_MDIO_CMD_BUSY (place 3 3) 1, 1, 3, by decide⟩,
   ⟨r0.wr MAC_CAGE_I2C_CMD (onDie 3) 0x40000000#32, 1, by decide⟩,
   ⟨r0.wr MAC_CAGE_I2C_CMD (onDie 3) 0x40000000#32, 1, by decide⟩,
   ⟨{ r0 with macs := { r0.macs with mdio := [(3 * 4 + 3, some { cl45 := true, op := 3, prtad := 1, devad := 2, data := 3, pre := true, div := 5 })] } }, 1, 3, { cl45 := true, op := 3, prtad := 1, devad := 2, data := 3, pre := true, div := 5 }, by decide⟩,
   ⟨r0.wr MAC_CAGE_I2C_CFG (onDie 3) 0x80000000#32, 1, 0x80150B05#32, by decide⟩,
   ⟨r0.wr MAC_CAGE_I2C_CFG (onDie 3) 0x80000000#32, 1, 0x88150B05#32, by decide⟩,
   ⟨{ r0 with macs := { r0.macs with cage := [(3, some ⟨false, 1, 0, 0, 0, 0, false, false⟩)] } }, 1, ⟨false, 1, 0, 0, 0, 0, false, false⟩, by decide⟩,
   ⟨(List.range 16).foldl (fun (s : State) i => s.wr MAC_LED_SRC (place 3 i) 1) (r0.put MAC_LED_CFG_EN (onDie 3) 1), 1, by decide⟩⟩
theorem wit_KeySlotCommandsComplete :
    (∃ s : State, ∃ d : LcDie, ∃ v : Word, (s.running = true) ∧ (s.hw.zeroising = false) ∧ (s.is KSLOT_STAT_BUSY (onDie d.val) = false) ∧ (bits v 11 0 < poolSize d.val (bits v 28 27)) ∧ (¬(bits v 26 26 = 1 ∧ bits v 28 27 = poolPon)) ∧ (s.copyUsed (slotKey d.val (bits v 28 27) (bits v 11 0)) (!(s.slotAt (slotKey d.val (bits v 28 27) (bits v 11 0))).second) = false)) ∧
    (∃ s : State, ∃ d : LcDie, ∃ v : Word, (s.running = true) ∧ (s.hw.zeroising = false) ∧ (s.is KSLOT_STAT_BUSY (onDie d.val) = false) ∧ (bits v 11 0 < poolSize d.val (bits v 28 27)) ∧ (¬(bits v 26 26 = 1 ∧ bits v 28 27 = poolPon)) ∧ (s.copyUsed (slotKey d.val (bits v 28 27) (bits v 11 0)) (!(s.slotAt (slotKey d.val (bits v 28 27) (bits v 11 0))).second) = true)) ∧
    (∃ s : State, ∃ d : LcDie, ∃ v : Word, ∃ k : BitVec 256, (s.running = true) ∧ (s.hw.zeroising = false) ∧ (s.is KSLOT_STAT_BUSY (onDie d.val) = false) ∧ (bits v 11 0 < poolSize d.val (bits v 28 27)) ∧ (¬(bits v 26 26 = 1 ∧ bits v 28 27 = poolPon)) ∧ (s.copyUsed (slotKey d.val (bits v 28 27) (bits v 11 0)) (!(s.slotAt (slotKey d.val (bits v 28 27) (bits v 11 0))).second) = false) ∧ (s.hw.ready = some k) ∧ (s.get KILN_STAT_R_PURPOSE d0 = poolPurpose (bits v 28 27)) ∧ (s.is KILN_STAT_R_KLEN d0 = (bits v 26 26 == 1))) ∧
    (∃ s : State, ∃ d : LcDie, ∃ k : Nat, ∃ c : KeyCopy, (s.unitRuns d.val 5 = true) ∧ (Tab.get s.ciph.held none d.val = some (k, c)) ∧ (s.copyUsed k (!(s.slotAt k).second) = false) ∧ (k / 2 ^ 12 % 4 ≠ poolLa)) ∧
    (∃ s : State, ∃ d : LcDie, ∃ v : Word, (s.running = true) ∧ (s.hw.zeroising = false) ∧ (bits v 11 0 < poolSize d.val (bits v 28 27)) ∧ ((Tab.get s.ciph.bulk none d.val).isNone = true)) ∧
    (∃ s : State, ∃ d : LcDie, ∃ v : Word, ∃ j : LaBulk, (s.running = true) ∧ (s.hw.zeroising = false) ∧ (bits v 28 27 = poolLa) ∧ (bits v 11 0 < poolSize d.val poolLa) ∧ (Tab.get s.ciph.bulk none d.val = some j) ∧ (j.slot = bits v 11 0)) ∧
    (∃ s : State, ∃ d : LcDie, ∃ v : Word, (s.running = true) ∧ (bits v 28 27 ≠ 3) ∧ (poolSize d.val (bits v 28 27) ≤ bits v 11 0) ∧ (s.hw.zeroising = false) ∧ (s.is KSLOT_STAT_BUSY (onDie d.val) = false)) ∧
    (∃ s : State, ∃ d : LcDie, ∃ v : Word, (s.running = true) ∧ (bits v 28 27 ≠ 3) ∧ (poolSize d.val (bits v 28 27) ≤ bits v 11 0) ∧ (s.hw.zeroising = false) ∧ (s.is KSLOT_STAT_BUSY (onDie d.val) = false)) ∧
    (∃ s : State, ∃ d : LcDie, ∃ v : Word, (s.running = true) ∧ (bits v 28 27 ≠ 3) ∧ (poolSize d.val (bits v 28 27) ≤ bits v 11 0) ∧ (s.hw.zeroising = false)) ∧
    (∃ s : State, ∃ d : LcDie, (s.running = true) ∧ (s.hw.zeroising = false) ∧ (s.is KSLOT_STAT_BUSY (onDie d.val) = true)) ∧
    (∃ s : State, ∃ d : LcDie, (s.running = true) ∧ (s.hw.zeroising = false) ∧ (s.is KSLOT_STAT_BUSY (onDie d.val) = true)) ∧
    (∃ s : State, ∃ d : LcDie, ∃ v : Word, (s.running = true) ∧ (s.hw.zeroising = false) ∧ (s.is KSLOT_STAT_BUSY (onDie d.val) = false) ∧ (bits v 28 27 = poolPon) ∧ (bits v 11 0 < poolSize d.val poolPon) ∧ (bits v 26 26 = 1)) ∧
    (∃ s : State, ∃ d : LcDie, ∃ v : Word, (s.running = true) ∧ (s.hw.zeroising = false) ∧ (s.is KSLOT_STAT_BUSY (onDie d.val) = false) ∧ (bits v 28 27 = poolPon) ∧ (bits v 11 0 < poolSize d.val poolPon) ∧ (bits v 26 26 = 1)) ∧
    (∃ s : State, ∃ d : LcDie, ∃ v : Word, (s.running = true) ∧ (s.hw.zeroising = false) ∧ (s.is KSLOT_STAT_BUSY (onDie d.val) = false) ∧ (bits v 11 0 < poolSize d.val (bits v 28 27)) ∧ (¬(bits v 26 26 = 1 ∧ bits v 28 27 = poolPon)) ∧ (s.hw.ready = none ∨ s.get KILN_STAT_R_PURPOSE d0 ≠ poolPurpose (bits v 28 27) ∨ s.is KILN_STAT_R_KLEN d0 ≠ (bits v 26 26 == 1))) ∧
    (∃ s : State, (s.running = true) ∧ (s.hw.zeroising = true)) ∧
    (∃ s : State, (s.running = true) ∧ (s.hw.zeroising = true)) ∧
    (∃ s : State, (s.running = true) ∧ (s.hw.zeroising = true)) :=
  ⟨⟨r0.wr KSLOT_STAGE (place 0 3) 0x12345678, 0, 0x88000005#32, by decide⟩,
   ⟨{ r0 with ciph := { r0.ciph with bulk := [(0, some ⟨5, true, false, [], [], { op := 2, slot := 5, serial := 0, aad := 0, text := 0, counter := 0, acc := 0, iv := 0 }⟩)] } }, 0, 0x88000005#32, by decide⟩,
   ⟨{ r0 with hw := { r0.hw with ready := some 0x77 } }.put KILN_STAT_R_PURPOSE d0 1, 0, 0xA0000005#32, 0x77, by decide⟩,
   ⟨{ r0 with ciph := { r0.ciph with held := [(0, some (slotKey 0 poolPon 5, { key := 9 }))] } }, 0, slotKey 0 poolPon 5, { key := 9 }, by decide⟩,
   ⟨r0.setSlotAt (slotKey 0 0 5) { valid := true, serial := 7, a := { key := 9 } }, 0, 0xC0000005#32, by decide⟩,
   ⟨{ laMem 2 0 with ciph := { (laMem 2 0).ciph with bulk := [(0, some ⟨3, false, true, [], [], { op := 2, slot := 5, serial := 0, aad := 0, text := 0, counter := 0, acc := 0, iv := 0 }⟩)] } }, 0, 0xC8000003#32, ⟨3, false, true, [], [], { op := 2, slot := 5, serial := 0, aad := 0, text := 0, counter := 0, acc := 0, iv := 0 }⟩, by decide⟩,
   ⟨r0, 2, 0x80000FFF#32, by decide⟩,
   ⟨r0, 2, 0x80000FFF#32, by decide⟩,
   ⟨r0, 2, 0x80000FFF#32, by decide⟩,
   ⟨r0.put KSLOT_STAT_BUSY (onDie 2) 1, 2, by decide⟩,
   ⟨r0.put KSLOT_STAT_BUSY (onDie 2) 1, 2, by decide⟩,
   ⟨r0, 1, 0x84000FFF#32, by decide⟩,
   ⟨r0, 1, 0x84000FFF#32, by decide⟩,
   ⟨r0, 1, 0xA0000FFF#32, by decide⟩,
   ⟨{ r0 with hw := { r0.hw with dbg := { seq := some (1, 2) } } }, by decide⟩,
   ⟨{ r0 with hw := { r0.hw with dbg := { seq := some (1, 2) } } }, by decide⟩,
   ⟨{ r0 with hw := { r0.hw with dbg := { seq := some (1, 2) } } }, by decide⟩⟩
theorem wit_OmciAndMacsecStateComplete :
    (∃ s : State, ∃ c : Chan, ∃ m : OmciMsg, ∃ l : List OmciMsg, (s.islandRuns (chanDie c.val) 5 = true) ∧ (Tab.get s.ciph.omci [] c.val = m :: l) ∧ (m.key = none) ∧ (s.get DMA_STAT_STATE (place (chanDie c.val) (s.getEff PTC_OMCI_CFG_DMA_CH (atChan c.val))) ≠ 0) ∧ (s.getEff DMA_CFG_MODE (place (chanDie c.val) (s.getEff PTC_OMCI_CFG_DMA_CH (atChan c.val))) = 1) ∧ ((s.dmaCh (chanDie c.val) (s.getEff PTC_OMCI_CFG_DMA_CH (atChan c.val))).store = []) ∧ (m.bytes.length ≤ 32768)) ∧
    (∃ s : State, ∃ c : Chan, ∃ m : OmciMsg, ∃ l : List OmciMsg, ∃ i : Nat, (s.islandRuns (chanDie c.val) 5 = true) ∧ (Tab.get s.ciph.omci [] c.val = m :: l) ∧ (m.key = some ⟨i, none, false⟩)) ∧
    (∃ s : State, ∃ c : Chan, ∃ m : OmciMsg, ∃ l : List OmciMsg, ∃ i : Nat, ∃ b : Option Bool, (s.islandRuns (chanDie c.val) 5 = true) ∧ (Tab.get s.ciph.omci [] c.val = m :: l) ∧ (m.key = some ⟨i, b, true⟩)) ∧
    (∃ s : State, ∃ c : Chan, ∃ m : OmciMsg, ∃ l : List OmciMsg, ∃ i : Nat, ∃ b : Bool, ∃ x : List Byte, (s.islandRuns (chanDie c.val) 5 = true) ∧ (Tab.get s.ciph.omci [] c.val = m :: l) ∧ (m.key = some ⟨i, some b, false⟩) ∧ (m.bytes = x ++ slice (Config.omciMic ((s.slotAt (slotKey (chanDie c.val) poolPon i)).copy b).key false x) 0 4) ∧ (s.get DMA_STAT_STATE (place (chanDie c.val) (s.getEff PTC_OMCI_CFG_DMA_CH (atChan c.val))) ≠ 0) ∧ (s.getEff DMA_CFG_MODE (place (chanDie c.val) (s.getEff PTC_OMCI_CFG_DMA_CH (atChan c.val))) = 1) ∧ ((s.dmaCh (chanDie c.val) (s.getEff PTC_OMCI_CFG_DMA_CH (atChan c.val))).store = []) ∧ (m.bytes.length ≤ 32768)) ∧
    (∃ s : State, ∃ c : Chan, ∃ m : OmciMsg, ∃ l : List OmciMsg, ∃ i : Nat, ∃ b : Bool, (s.islandRuns (chanDie c.val) 5 = true) ∧ (Tab.get s.ciph.omci [] c.val = m :: l) ∧ (m.key = some ⟨i, some b, false⟩) ∧ (m.bytes.length < 4 ∨ slice (Config.omciMic ((s.slotAt (slotKey (chanDie c.val) poolPon i)).copy b).key false (m.bytes.take (m.bytes.length - 4))) 0 4 ≠ m.bytes.drop (m.bytes.length - 4))) ∧
    (∃ s : State, (s.running = true)) ∧
    (∃ s : State, (s.running = true)) ∧
    (∃ s : State, (s.running = true)) ∧
    (∃ s : State, (s.running = true)) :=
  ⟨⟨({ r0 with ciph := { r0.ciph with omci := [(3, [⟨[1, 2], none⟩])] } }.put DMA_STAT_STATE (place 1 0) 1).wrEff DMA_CFG (place 1 0) (setBits (r0.rd DMA_CFG (place 1 0)) DMA_CFG_MODE.hi DMA_CFG_MODE.lo 1), 3, ⟨[1, 2], none⟩, [], by decide⟩,
   ⟨({ r0 with ciph := { r0.ciph with omci := [(3, [⟨[1, 2], some ⟨5, none, false⟩⟩])] } }.put DMA_STAT_STATE (place 1 0) 1).wrEff DMA_CFG (place 1 0) (setBits (r0.rd DMA_CFG (place 1 0)) DMA_CFG_MODE.hi DMA_CFG_MODE.lo 1), 3, ⟨[1, 2], some ⟨5, none, false⟩⟩, [], 5, by decide⟩,
   ⟨({ r0 with ciph := { r0.ciph with omci := [(3, [⟨[1, 2], some ⟨5, none, true⟩⟩])] } }.put DMA_STAT_STATE (place 1 0) 1).wrEff DMA_CFG (place 1 0) (setBits (r0.rd DMA_CFG (place 1 0)) DMA_CFG_MODE.hi DMA_CFG_MODE.lo 1), 3, ⟨[1, 2], some ⟨5, none, true⟩⟩, [], 5, none, by decide⟩,
   ⟨({ r0 with ciph := { r0.ciph with omci := [(3, [⟨[1, 2] ++ slice (Config.omciMic (r0.slotAt (slotKey 1 poolPon 5)).now.key false [1, 2]) 0 4, some ⟨5, some false, false⟩⟩])] } }.put DMA_STAT_STATE (place 1 0) 1).wrEff DMA_CFG (place 1 0) (setBits (r0.rd DMA_CFG (place 1 0)) DMA_CFG_MODE.hi DMA_CFG_MODE.lo 1), 3, ⟨[1, 2] ++ slice (Config.omciMic (r0.slotAt (slotKey 1 poolPon 5)).now.key false [1, 2]) 0 4, some ⟨5, some false, false⟩⟩, [], 5, false, [1, 2], by decide, rfl, rfl, rfl, by decide, by decide, by decide, by decide⟩,
   ⟨({ r0 with ciph := { r0.ciph with omci := [(3, [⟨[1, 2], some ⟨5, some true, false⟩⟩])] } }.put DMA_STAT_STATE (place 1 0) 1).wrEff DMA_CFG (place 1 0) (setBits (r0.rd DMA_CFG (place 1 0)) DMA_CFG_MODE.hi DMA_CFG_MODE.lo 1), 3, ⟨[1, 2], some ⟨5, some true, false⟩⟩, [], 5, true, by decide⟩,
   ⟨r0, by decide⟩,
   ⟨r0, by decide⟩,
   ⟨r0, by decide⟩,
   ⟨r0, by decide⟩⟩
theorem wit_LookAsideOperationsComplete :
    (∃ s : State, ∃ n : LineDie, ∃ q : Fin 2, ∃ e : Ecc, ∃ x : LaDesc, ∃ l : List Byte, ∃ iv : BitVec 96, ∃ c : LaCtx, (s.laJob n.val q.val 0 x l) ∧ (s.laApart n.val q.val x) ∧ (eccBad e = false) ∧ (x.first = true) ∧ (x.last = true) ∧ ((s.slotAt (slotKey n.val poolLa x.slot)).valid = true) ∧ ((Tab.get s.ciph.bulk none n.val).isNone = true) ∧ ((s.slotAt (slotKey n.val poolLa x.slot)).now.counter.toNat ≠ 2 ^ 64 - 1) ∧ (iv = BitVec.ofNat 96 ((s.slotAt (slotKey n.val poolLa x.slot)).now.fixedIv.toNat * 2 ^ 64 + (s.slotAt (slotKey n.val poolLa x.slot)).now.counter.toNat)) ∧ (s.laStart n.val x iv = some c)) ∧
    (∃ s : State, ∃ n : LineDie, ∃ q : Fin 2, ∃ e : Ecc, ∃ x : LaDesc, ∃ l : List Byte, ∃ iv : BitVec 96, ∃ c : LaCtx, (s.laJob n.val q.val 2 x l) ∧ (s.laApart n.val q.val x) ∧ (eccBad e = false) ∧ (x.first = true) ∧ (x.last = true) ∧ ((s.slotAt (slotKey n.val poolLa x.slot)).valid = true) ∧ ((Tab.get s.ciph.bulk none n.val).isNone = true) ∧ ((s.slotAt (slotKey n.val poolLa x.slot)).now.counter.toNat ≠ 2 ^ 64 - 1) ∧ (iv = BitVec.ofNat 96 ((s.slotAt (slotKey n.val poolLa x.slot)).now.fixedIv.toNat * 2 ^ 64 + (s.slotAt (slotKey n.val poolLa x.slot)).now.counter.toNat)) ∧ (s.laStart n.val x iv = some c)) ∧
    (∃ s : State, ∃ n : LineDie, ∃ q : Fin 2, ∃ e : Ecc, ∃ x : LaDesc, ∃ l : List Byte, ∃ iv : BitVec 96, ∃ c : LaCtx, (s.laJob n.val q.val 1 x l) ∧ (s.laApart n.val q.val x) ∧ (eccBad e = false) ∧ (x.first = true) ∧ (x.last = true) ∧ ((s.slotAt (slotKey n.val poolLa x.slot)).valid = true) ∧ ((Tab.get s.ciph.bulk none n.val).isNone = true) ∧ (iv = BitVec.ofNat 96 (beNat (x.iv.take 12))) ∧ (s.laStart n.val x iv = some c)) ∧
    (∃ s : State, ∃ n : LineDie, ∃ q : Fin 2, ∃ e : Ecc, ∃ x : LaDesc, ∃ l : List Byte, ∃ iv : BitVec 96, ∃ c : LaCtx, (s.laJob n.val q.val 3 x l) ∧ (s.laApart n.val q.val x) ∧ (eccBad e = false) ∧ (x.first = true) ∧ (x.last = true) ∧ ((s.slotAt (slotKey n.val poolLa x.slot)).valid = true) ∧ ((Tab.get s.ciph.bulk none n.val).isNone = true) ∧ (iv = BitVec.ofNat 96 (beNat (x.iv.take 12))) ∧ (s.laStart n.val x iv = some c)) ∧
    (∃ s : State, ∃ n : LineDie, ∃ q : Fin 2, ∃ e : Ecc, ∃ x : LaDesc, ∃ l : List Byte, ∃ iv : BitVec 96, ∃ c : LaCtx, (s.laJob n.val q.val 4 x l) ∧ (s.laApart n.val q.val x) ∧ (eccBad e = false) ∧ (x.first = true) ∧ (x.last = true) ∧ ((s.slotAt (slotKey n.val poolLa x.slot)).valid = true) ∧ ((Tab.get s.ciph.bulk none n.val).isNone = true) ∧ (iv = BitVec.ofNat 96 (beNat (x.iv.take 12))) ∧ (s.laStart n.val x iv = some c)) ∧
    (∃ s : State, ∃ n : LineDie, ∃ q : Fin 2, ∃ e : Ecc, ∃ x : LaDesc, ∃ l : List Byte, ∃ iv : BitVec 96, ∃ c : LaCtx, (s.laJob n.val q.val 5 x l) ∧ (s.laApart n.val q.val x) ∧ (eccBad e = false) ∧ (x.first = true) ∧ (x.last = true) ∧ ((s.slotAt (slotKey n.val poolLa x.slot)).valid = true) ∧ ((Tab.get s.ciph.bulk none n.val).isNone = true) ∧ (iv = BitVec.ofNat 96 (beNat (x.iv.take 12))) ∧ (s.laStart n.val x iv = some c)) ∧
    (∃ s : State, ∃ n : LineDie, ∃ q : Fin 2, ∃ e : Ecc, ∃ x : LaDesc, ∃ l : List Byte, ∃ c : LaCtx, (s.laJob n.val q.val 6 x l) ∧ (s.laApart n.val q.val x) ∧ (eccBad e = false) ∧ (s.laCtx n.val x.ctx = some c)) ∧
    (∃ s : State, ∃ n : LineDie, ∃ q : Fin 2, ∃ e : Ecc, ∃ x : LaDesc, ∃ l : List Byte, ∃ c : LaCtx, (s.laJob n.val q.val 7 x l) ∧ (s.laApart n.val q.val x) ∧ (eccBad e = false) ∧ (s.laCtx n.val x.ctx = some c)) ∧
    (∃ s : State, ∃ n : LineDie, ∃ q : Fin 2, ∃ e : Ecc, ∃ x : LaDesc, ∃ l : List Byte, ∃ c : LaCtx, (s.laJob n.val q.val 8 x l) ∧ (eccBad e = false) ∧ (ctxOfImage l = some c) ∧ ((s.slotAt (slotKey n.val poolLa c.slot)).serial = c.serial)) ∧
    (∃ s : State, ∃ n : LineDie, ∃ q : Fin 2, ∃ e : Ecc, ∃ x : LaDesc, ∃ l : List Byte, (s.laJob n.val q.val 9 x l) ∧ (eccBad e = false)) ∧
    (∃ s : State, ∃ n : LineDie, ∃ q : Fin 2, ∃ x : LaDesc, (s.running = true) ∧ (s.is CIPH_LA_CFG_EN (onDie n.val) = true) ∧ (s.is CIPH_LA_RING_EN (place n.val q.val) = true) ∧ (bitOf (s.get CIPH_LA_STAT_HALT (onDie n.val)) q.val = false) ∧ ((s.spanReach n.val (s.laDesc n.val q.val) 64).isOpen = true) ∧ ((s.readSpan n.val (s.laDesc n.val q.val) 64 .clean).1.map laDecode = some x)) ∧
    (∃ s : State, ∃ n : LineDie, ∃ q : Fin 2, (s.running = true) ∧ (s.is CIPH_LA_CFG_EN (onDie n.val) = false ∨ s.is CIPH_LA_RING_EN (place n.val q.val) = false ∨ bitOf (s.get CIPH_LA_STAT_HALT (onDie n.val)) q.val = true)) ∧
    (∃ s : State, ∃ n : LineDie, ∃ q : Fin 2, (s.unitRuns n.val 5 = true) ∧ (s.laRuns n.val q.val = true)) ∧
    (∃ s : State, ∃ n : LineDie, ∃ j : LaBulk, ∃ u : State, (s.unitRuns n.val 5 = true) ∧ ((Tab.get s.ciph.bulk none n.val).isNone = true) ∧ (s.laRuns n.val 0 = true) ∧ (s.laOwned n.val 0 = true) ∧ (s.laRuns n.val 1 = true) ∧ (s.laBulkJob n.val = some (j, u))) ∧
    (∃ s : State, ∃ n : LineDie, ∃ j : LaBulk, (s.unitRuns n.val 5 = true) ∧ (Tab.get s.ciph.bulk none n.val = some j) ∧ (s.laRuns n.val 0 = true) ∧ (s.laOwned n.val 0 = true)) ∧
    (∃ s : State, ∃ n : LineDie, ∃ j : LaBulk, (s.unitRuns n.val 5 = true) ∧ (Tab.get s.ciph.bulk none n.val = some j) ∧ (s.laOwned n.val 0 = false)) :=
  ⟨⟨laMem 0 4, 0, 0, .clean, laDs 0 4, List.replicate 16 0, 0, { op := 0, slot := 3, serial := 0, aad := 0, text := 0, counter := counterBlock 0 2, acc := 0, iv := 0 }, by decide +kernel⟩,
   ⟨laMem 2 0, 0, 0, .clean, laDs 2 0, List.replicate 16 0, 0, { op := 2, slot := 3, serial := 0, aad := 0, text := 0, counter := counterBlock 0 1, acc := 0, iv := 0 }, by decide +kernel⟩,
   ⟨laMem 1 4, 0, 0, .clean, laDs 1 4, List.replicate 16 0, 0, { op := 1, slot := 3, serial := 0, aad := 0, text := 0, counter := counterBlock 0 2, acc := 0, iv := 0 }, by decide +kernel⟩,
   ⟨laMem 3 0, 0, 0, .clean, laDs 3 0, List.replicate 16 0, 0, { op := 3, slot := 3, serial := 0, aad := 0, text := 0, counter := counterBlock 0 1, acc := 0, iv := 0 }, by decide +kernel⟩,
   ⟨laMem 4 4, 0, 0, .clean, laDs 4 4, List.replicate 16 0, 0, { op := 4, slot := 3, serial := 0, aad := 0, text := 0, counter := counterBlock 0 1, acc := 0, iv := 0 }, by decide +kernel⟩,
   ⟨laMem 5 4, 0, 0, .clean, laDs 5 4, List.replicate 16 0, 0, { op := 5, slot := 3, serial := 0, aad := 0, text := 0, counter := counterBlock 0 1, acc := 0, iv := 0 }, by decide +kernel⟩,
   ⟨(laMem 6 0).setLaCtx 0 5 (some { op := 2, slot := 3, serial := 0, aad := 0, text := 0, counter := counterBlock 0 1, acc := 0, iv := 0 }), 0, 0, .clean, laDs 6 0, [], { op := 2, slot := 3, serial := 0, aad := 0, text := 0, counter := counterBlock 0 1, acc := 0, iv := 0 }, by decide +kernel⟩,
   ⟨(laMem 7 0).setLaCtx 0 5 (some { op := 2, slot := 3, serial := 0, aad := 0, text := 0, counter := counterBlock 0 1, acc := 0, iv := 0 }), 0, 0, .clean, laDs 7 0, [], { op := 2, slot := 3, serial := 0, aad := 0, text := 0, counter := counterBlock 0 1, acc := 0, iv := 0 }, by decide +kernel⟩,
   ⟨(laMem 8 0).setBytes 0x100001000 (leBytes 4 0x12030000), 0, 0, .clean, laDs 8 0, leBytes 4 0x12030000 ++ List.replicate 92 0, { op := 2, slot := 3, serial := 0, aad := 0, text := 0, counter := 0, acc := 0, iv := 0 }, by decide +kernel⟩,
   ⟨laMem 9 0, 0, 0, .clean, laDs 9 0, List.replicate 104 0, by decide +kernel⟩,
   ⟨laMem 0 4, 0, 0, laDs 0 4, by decide +kernel⟩,
   ⟨r0, 1, 1, by decide +kernel⟩,
   ⟨laMem 0 4, 0, 0, by decide +kernel⟩,
   ⟨(((laMem 2 0).put CIPH_LA_BASE_HI_V (place 0 1) 1).put CIPH_LA_RING_EN (place 0 1) 1), 0, ((((((laMem 2 0).put CIPH_LA_BASE_HI_V (place 0 1) 1).put CIPH_LA_RING_EN (place 0 1) 1)).laBulkJob 0).getD (⟨0, false, false, [], [], { op := 2, slot := 5, serial := 0, aad := 0, text := 0, counter := 0, acc := 0, iv := 0 }⟩, r0)).1, ((((((laMem 2 0).put CIPH_LA_BASE_HI_V (place 0 1) 1).put CIPH_LA_RING_EN (place 0 1) 1)).laBulkJob 0).getD (⟨0, false, false, [], [], { op := 2, slot := 5, serial := 0, aad := 0, text := 0, counter := 0, acc := 0, iv := 0 }⟩, r0)).2, by decide +kernel⟩,
   ⟨{ laMem 0 4 with ciph := { (laMem 0 4).ciph with bulk := [(0, some ⟨5, true, false, [], [], { op := 2, slot := 5, serial := 0, aad := 0, text := 0, counter := 0, acc := 0, iv := 0 }⟩)] } }, 0, ⟨5, true, false, [], [], { op := 2, slot := 5, serial := 0, aad := 0, text := 0, counter := 0, acc := 0, iv := 0 }⟩, by decide +kernel⟩,
   ⟨{ r0 with ciph := { r0.ciph with bulk := [(0, some ⟨5, true, true, [], [], { op := 2, slot := 5, serial := 0, aad := 0, text := 0, counter := 0, acc := 0, iv := 0 }⟩)] } }, 0, ⟨5, true, true, [], [], { op := 2, slot := 5, serial := 0, aad := 0, text := 0, counter := 0, acc := 0, iv := 0 }⟩, by decide +kernel⟩⟩
theorem wit_KilnCommandsComplete :
    (∃ s : State, (s.running = true) ∧ (s.hw.zeroising = false) ∧ (s.hw.kiln.isNone = true)) ∧
    (∃ s : State, (s.running = true) ∧ (s.hw.zeroising = false) ∧ (s.hw.kiln.isNone = true)) ∧
    (∃ s : State, (s.running = true) ∧ (s.hw.zeroising = false) ∧ (s.hw.kiln.isNone = true)) ∧
    (∃ s : State, (s.running = true) ∧ (s.hw.zeroising = false) ∧ (s.hw.kiln.isNone = true)) ∧
    (∃ s : State, (s.running = true) ∧ (s.hw.zeroising = false) ∧ (s.hw.kiln.isNone = true)) ∧
    (∃ s : State, ∃ l : Level, (s.running = true) ∧ (l ≠ .monitor)) ∧
    (∃ s : State, ∃ l : Level, (s.running = true) ∧ (l ≠ .monitor)) ∧
    (∃ s : State, ∃ l : Level, (s.running = true) ∧ (l ≠ .monitor)) ∧
    (∃ s : State, ∃ l : Level, (s.running = true) ∧ (l ≠ .monitor)) ∧
    (∃ s : State, ∃ l : Level, (s.running = true) ∧ (l ≠ .monitor)) ∧
    (∃ s : State, (s.running = true) ∧ (s.hw.zeroising = true)) ∧
    (∃ s : State, (s.running = true) ∧ (s.hw.zeroising = true)) ∧
    (∃ s : State, (s.running = true) ∧ (s.hw.zeroising = true)) ∧
    (∃ s : State, (s.running = true) ∧ (s.hw.zeroising = true)) ∧
    (∃ s : State, (s.running = true) ∧ (s.hw.zeroising = true)) ∧
    (∃ s : State, (s.running = true) ∧ (s.hw.zeroising = false) ∧ (s.hw.kiln.isSome = true)) ∧
    (∃ s : State, (s.running = true) ∧ (s.hw.zeroising = false) ∧ (s.hw.kiln.isSome = true)) ∧
    (∃ s : State, (s.running = true) ∧ (s.hw.zeroising = false) ∧ (s.hw.kiln.isSome = true)) ∧
    (∃ s : State, (s.running = true) ∧ (s.hw.zeroising = false) ∧ (s.hw.kiln.isSome = true)) ∧
    (∃ s : State, (s.running = true) ∧ (s.hw.zeroising = false) ∧ (s.hw.kiln.isSome = true)) ∧
    (∃ s : State, ∃ p : Nat, ∃ b : Bool, (s.hw.alive = true) ∧ (s.hw.zeroising = false) ∧ (s.hw.kiln = some (0, p, b)) ∧ (s.hw.fuses.lifecycle = 1 ∨ s.hw.fuses.lifecycle = 2) ∧ (kilnFieldsOk 0 p b = true)) ∧
    (∃ s : State, ∃ p : Nat, ∃ b : Bool, (s.hw.alive = true) ∧ (s.hw.zeroising = false) ∧ (s.hw.kiln = some (1, p, b)) ∧ (s.hw.fuses.lifecycle = 1 ∨ s.hw.fuses.lifecycle = 2) ∧ (kilnFieldsOk 1 p b = true)) ∧
    (∃ s : State, ∃ p : Nat, ∃ b : Bool, (s.hw.alive = true) ∧ (s.hw.zeroising = false) ∧ (s.hw.kiln = some (2, p, b)) ∧ (s.hw.fuses.lifecycle = 1 ∨ s.hw.fuses.lifecycle = 2) ∧ (kilnFieldsOk 2 p b = true)) ∧
    (∃ s : State, ∃ p : Nat, ∃ b : Bool, (s.hw.alive = true) ∧ (s.hw.zeroising = false) ∧ (s.hw.kiln = some (3, p, b)) ∧ (s.hw.fuses.lifecycle = 1 ∨ s.hw.fuses.lifecycle = 2) ∧ (kilnFieldsOk 3 p b = true)) ∧
    (∃ s : State, ∃ p : Nat, ∃ b : Bool, (s.hw.alive = true) ∧ (s.hw.zeroising = false) ∧ (s.hw.kiln = some (4, p, b))) ∧
    (∃ s : State, ∃ p : Nat, ∃ b : Bool, ∃ op : Nat, (s.hw.alive = true) ∧ (s.hw.zeroising = false) ∧ (s.hw.kiln = some (op, p, b)) ∧ (op ≠ 4) ∧ (s.hw.fuses.lifecycle = 0 ∨ s.hw.fuses.lifecycle = 3)) ∧
    (∃ s : State, ∃ p : Nat, ∃ b : Bool, ∃ op : Nat, (s.hw.alive = true) ∧ (s.hw.zeroising = false) ∧ (s.hw.kiln = some (op, p, b)) ∧ (op ≠ 4) ∧ (s.hw.fuses.lifecycle = 1 ∨ s.hw.fuses.lifecycle = 2) ∧ (kilnFieldsOk op p b = false)) ∧
    (∃ s : State, ∃ p : Nat, ∃ b : Bool, ∃ op : Nat, (s.hw.alive = true) ∧ (s.hw.zeroising = true) ∧ (s.hw.kiln = some (op, p, b))) ∧
    (∃ s : State, (s.hw.alive = true)) :=
  ⟨⟨r0, by decide⟩,
   ⟨r0, by decide⟩,
   ⟨r0, by decide⟩,
   ⟨r0, by decide⟩,
   ⟨r0, by decide⟩,
   ⟨r0, .user, by decide⟩,
   ⟨r0, .user, by decide⟩,
   ⟨r0, .user, by decide⟩,
   ⟨r0, .user, by decide⟩,
   ⟨r0, .user, by decide⟩,
   ⟨{ r0 with hw := { r0.hw with dbg := { seq := some (1, 2) } } }, by decide⟩,
   ⟨{ r0 with hw := { r0.hw with dbg := { seq := some (1, 2) } } }, by decide⟩,
   ⟨{ r0 with hw := { r0.hw with dbg := { seq := some (1, 2) } } }, by decide⟩,
   ⟨{ r0 with hw := { r0.hw with dbg := { seq := some (1, 2) } } }, by decide⟩,
   ⟨{ r0 with hw := { r0.hw with dbg := { seq := some (1, 2) } } }, by decide⟩,
   ⟨{ r0 with hw := { r0.hw with kiln := some (0, 1, false) } }, by decide⟩,
   ⟨{ r0 with hw := { r0.hw with kiln := some (0, 1, false) } }, by decide⟩,
   ⟨{ r0 with hw := { r0.hw with kiln := some (0, 1, false) } }, by decide⟩,
   ⟨{ r0 with hw := { r0.hw with kiln := some (0, 1, false) } }, by decide⟩,
   ⟨{ r0 with hw := { r0.hw with kiln := some (0, 1, false) } }, by decide⟩,
   ⟨{ r0 with hw := { r0.hw with fuses := { r0.hw.fuses with lc := [3, 0, 0] }, kiln := some (0, 3, false) } }, 3, false, by decide⟩,
   ⟨{ r0 with hw := { r0.hw with fuses := { r0.hw.fuses with lc := [3, 0, 0] }, kiln := some (1, 3, false) } }, 3, false, by decide⟩,
   ⟨{ r0 with hw := { r0.hw with fuses := { r0.hw.fuses with lc := [3, 0, 0] }, kiln := some (2, 3, false) } }, 3, false, by decide⟩,
   ⟨{ r0 with hw := { r0.hw with fuses := { r0.hw.fuses with lc := [3, 0, 0] }, kiln := some (3, 3, false) } }, 3, false, by decide⟩,
   ⟨{ r0 with hw := { r0.hw with kiln := some (4, 1, false), ready := some 5 } }, 1, false, by decide⟩,
   ⟨{ r0 with hw := { r0.hw with kiln := some (0, 1, false), ready := some 7 } }, 1, false, 0, by decide⟩,
   ⟨{ r0 with hw := { r0.hw with fuses := { r0.hw.fuses with lc := [3, 0, 0] }, kiln := some (2, 1, true), ready := some 7 } }, 1, true, 2, by decide⟩,
   ⟨{ r0 with hw := { r0.hw with kiln := some (0, 1, false), ready := some 7, dbg := { seq := some (1, 2) } } }, 1, false, 0, by decide⟩,
   ⟨r0, by decide⟩⟩
theorem wit_DebugGateAndZeroisationComplete :
    (∃ s : State, ∃ l : Fin 4, (s.hw.alive = true) ∧ (s.is FRZ_STATUS_FROZEN d0 = true) ∧ (s.hw.dbg.locked = false) ∧ (s.hw.dbg.seq.isNone = true) ∧ (l.val = 1 ∨ l.val = 2) ∧ (s.hw.dbg.level < l.val) ∧ (s.hw.fuses.lifecycle = 1 ∨ s.hw.fuses.lifecycle = 2)) ∧
    (∃ s : State, ∃ l : Fin 4, (s.hw.alive = true) ∧ (s.is FRZ_STATUS_FROZEN d0 = true) ∧ (s.hw.dbg.locked = false) ∧ (s.hw.dbg.seq.isNone = true) ∧ (l.val = 1 ∨ l.val = 2) ∧ (s.hw.dbg.level < l.val) ∧ (s.hw.fuses.lifecycle = 0 ∨ s.hw.fuses.lifecycle = 3)) ∧
    (∃ s : State, ∃ l : Fin 4, (s.hw.alive = true) ∧ (s.is FRZ_STATUS_FROZEN d0 = false ∨ s.hw.dbg.locked = true ∨ s.hw.dbg.seq.isSome = true ∨ l.val = 0 ∨ l.val = 3 ∨ l.val ≤ s.hw.dbg.level)) ∧
    (∃ s : State, ∃ c : List Byte, ∃ l : Nat, (s.hw.alive = true) ∧ (s.hw.dbg.chal = some (l, c)) ∧ (s.hw.dbg.seq.isNone = true)) ∧
    (∃ s : State, ∃ r : List Byte, ∃ c : List Byte, ∃ l : Nat, (s.hw.alive = true) ∧ (s.hw.dbg.checking = some (l, c, r))) ∧
    (∃ s : State, ∃ k : Nat, ∃ l : Nat, (s.hw.alive = true) ∧ (s.hw.dbg.seq = some (k, l)) ∧ (k ≤ 7) ∧ (l ≠ 0)) ∧
    (∃ s : State, ∃ l : Nat, (s.hw.alive = true) ∧ (s.hw.dbg.seq = some (2, l))) ∧
    (∃ s : State, ∃ l : Nat, (s.hw.alive = true) ∧ (s.hw.dbg.seq = some (4, l))) ∧
    (∃ s : State, ∃ l : Nat, (s.hw.alive = true) ∧ (s.hw.dbg.seq = some (5, l))) ∧
    (∃ s : State, ∃ l : Nat, ∃ k : Nat, ∃ a : Nat, (s.hw.alive = true) ∧ (s.hw.dbg.seq = some (6, l)) ∧ (k < 8) ∧ (s.is HW_SRGN_CTL_EN (d0i k) = true) ∧ (s.secretOk (s.secretRegion k).1 (s.secretRegion k).2 = true) ∧ ((s.secretRegion k).1 ≤ a) ∧ (a < (s.secretRegion k).1 + (s.secretRegion k).2)) ∧
    (∃ s : State, ∃ l : Nat, ∃ k : Nat, (s.hw.alive = true) ∧ (s.hw.dbg.seq = some (6, l)) ∧ (k < 8) ∧ (s.is HW_SRGN_CTL_EN (d0i k) = true) ∧ (s.secretOk (s.secretRegion k).1 (s.secretRegion k).2 = false)) ∧
    (∃ s : State, ∃ l : Nat, ∃ a : Nat, (s.hw.alive = true) ∧ (s.hw.dbg.seq = some (6, l)) ∧ (∀ k < 8, s.is HW_SRGN_CTL_EN (d0i k) = true → ¬((s.secretRegion k).1 ≤ a ∧ a < (s.secretRegion k).1 + (s.secretRegion k).2))) ∧
    (∃ s : State, ∃ l : Nat, (s.hw.alive = true) ∧ (s.hw.dbg.seq = some (7, l))) ∧
    (∃ s : State, ∃ l : Nat, (s.hw.alive = true) ∧ (s.hw.dbg.seq = some (1, l)) ∧ (s.hw.fuses.lifecycle = 1)) ∧
    (∃ s : State, ∃ l : Nat, (s.hw.alive = true) ∧ (s.hw.dbg.seq = some (1, l)) ∧ (s.hw.fuses.lifecycle = 1)) ∧
    (∃ s : State, ∃ l : Nat, (s.hw.alive = true) ∧ (s.hw.dbg.seq = some (3, l))) ∧
    (∃ s : State, ∃ l : Nat, ∃ k : Nat, (s.hw.alive = true) ∧ (s.hw.dbg.seq = some (k, l)) ∧ (l = 0)) ∧
    (∃ s : State, ∃ l : Nat, (s.hw.alive = true) ∧ (l ≠ 0) ∧ (s.hw.dbg.seq = some (8, l)) ∧ (s.hw.dbg.fuseFail = false) ∧ (s.hw.dbg.zeroFail = false)) ∧
    (∃ s : State, ∃ l : Nat, (s.hw.alive = true) ∧ (l ≠ 0) ∧ (s.hw.dbg.seq = some (8, l)) ∧ (s.hw.dbg.fuseFail = true ∨ s.hw.dbg.zeroFail = true)) :=
  ⟨⟨({ r0 with hw := { r0.hw with fuses := { r0.hw.fuses with lc := [3, 0, 0] } } }).put FRZ_STATUS_FROZEN d0 1, 2, by decide⟩,
   ⟨(r0).put FRZ_STATUS_FROZEN d0 1, 2, by decide⟩,
   ⟨r0, 2, by decide⟩,
   ⟨{ r0 with hw := { r0.hw with dbg := { r0.hw.dbg with chal := some (2, [1]) } } }, [1], 2, by decide⟩,
   ⟨{ r0 with hw := { r0.hw with dbg := { r0.hw.dbg with checking := some (2, [1], [2]) } } }, [2], [1], 2, by decide⟩,
   ⟨{ r0 with frz := { r0.frz with phase := .stopped }, hw := { r0.hw with dbg := { r0.hw.dbg with seq := some (4, 1) } } }, 4, 1, by decide⟩,
   ⟨{ r0 with hw := { r0.hw with ready := some 7, dbg := { r0.hw.dbg with seq := some (2, 2) } } }, 2, by decide⟩,
   ⟨{ r0 with hw := { r0.hw with dbg := { r0.hw.dbg with seq := some (4, 2) } }, ciph := { r0.ciph with bulk := [(1, some ⟨5, true, false, [], [7], ⟨2, 5, 0, 0, 0, 3, 4, 5⟩⟩)] } }, 2, by decide⟩,
   ⟨{ r0 with ctl := { r0.ctl with l1d := [(5, some { tag := 7, bytes := List.replicate 64 9, dirty := true })] }, hw := { r0.hw with dbg := { r0.hw.dbg with seq := some (5, 2) } } }, 2, by decide⟩,
   ⟨({ r0 with mem := [(0x100000010, 7)], hw := { r0.hw with dbg := { r0.hw.dbg with seq := some (6, 2) } } }.wr HW_SRGN_BASE (d0i 3) 0x100000).wr HW_SRGN_CTL (d0i 3) 0x80000001, 2, 3, 0x100000010, by decide⟩,
   ⟨({ r0 with hw := { r0.hw with dbg := { r0.hw.dbg with seq := some (6, 2) } } }.wr HW_SRGN_BASE (d0i 3) 0).wr HW_SRGN_CTL (d0i 3) 0x80000001, 2, 3, by decide⟩,
   ⟨({ r0 with mem := [(0x100000010, 7)], hw := { r0.hw with dbg := { r0.hw.dbg with seq := some (6, 2) } } }.wr HW_SRGN_BASE (d0i 3) 0x100001).wr HW_SRGN_CTL (d0i 3) 0x80000001, 2, 0x100000010, by decide⟩,
   ⟨{ r0 with hw := { r0.hw with dbg := { r0.hw.dbg with seq := some (7, 2) } } }, 2, by decide⟩,
   ⟨{ r0 with hw := { r0.hw with fuses := { r0.hw.fuses with lc := [3, 0, 0] }, dbg := { r0.hw.dbg with seq := some (1, 2) } } }, 2, by decide⟩,
   ⟨{ r0 with hw := { r0.hw with fuses := { r0.hw.fuses with lc := [3, 0, 0] }, dbg := { r0.hw.dbg with seq := some (1, 2) } } }, 2, by decide⟩,
   ⟨{ r0 with hw := { r0.hw with dbg := { r0.hw.dbg with seq := some (3, 2) } } }, 2, by decide⟩,
   ⟨{ r0 with hw := { r0.hw with dbg := { r0.hw.dbg with seq := some (4, 0) } } }, 0, 4, by decide⟩,
   ⟨{ r0 with hw := { r0.hw with dbg := { r0.hw.dbg with seq := some (8, 2) } } }, 2, by decide⟩,
   ⟨{ r0 with hw := { r0.hw with dbg := { r0.hw.dbg with seq := some (8, 2), zeroFail := true } } }, 2, by decide⟩⟩
theorem wit_PacketMemoryAccessesComplete :
    (∃ s : State, ∃ d : Die, ∃ off : BitVec 36, ∃ e : Ecc, (s.running = true) ∧ (eccBad e = false) ∧ (6 ≤ d.val) ∧ (s.hasBuffer d.val = true) ∧ (s.region d.val off.toNat = .reservoir)) ∧
    (∃ s : State, ∃ d : Die, ∃ off : BitVec 36, (s.running = true) ∧ (6 ≤ d.val) ∧ (s.hasBuffer d.val = true) ∧ (s.region d.val off.toNat = .reservoir)) ∧
    (∃ s : State, ∃ off : BitVec 36, ∃ e : Ecc, (s.running = true) ∧ (eccBad e = false) ∧ (s.hasBuffer 2 = true) ∧ (s.region 2 off.toNat = .sram)) ∧
    (∃ s : State, ∃ off : BitVec 36, (s.running = true) ∧ (s.hasBuffer 2 = true) ∧ (s.region 2 off.toNat = .sram)) ∧
    (∃ s : State, ∃ d : Die, ∃ off : BitVec 36, (s.running = true) ∧ (6 ≤ d.val) ∧ (s.hasBuffer d.val = true) ∧ (s.region d.val off.toNat = .reservoir)) ∧
    (∃ s : State, ∃ d : Die, ∃ p : Port, ∃ off : BitVec 36, ∃ f : TxFrame, ∃ l : List TxFrame, (s.running = true) ∧ (6 ≤ d.val) ∧ (s.hasBuffer d.val = true) ∧ (s.region d.val off.toNat = .reservoir) ∧ ((s.mac p.val).sending = none) ∧ ((s.mac p.val).tx = f :: l)) ∧
    (∃ s : State, ∃ d : Die, ∃ p : Port, ∃ off : BitVec 36, ∃ f : Sending, (s.running = true) ∧ (6 ≤ d.val) ∧ (s.hasBuffer d.val = true) ∧ (s.region d.val off.toNat = .reservoir) ∧ ((s.mac p.val).sending = some f) ∧ (f.pause = false)) ∧
    (∃ s : State, ∃ d : Die, (s.running = true) ∧ (6 ≤ d.val) ∧ (s.hasBuffer d.val = true) ∧ (s.is RSV_STAT_READY (onDie d.val) = false)) ∧
    (∃ s : State, ∃ d : Die, (s.running = true) ∧ (6 ≤ d.val) ∧ (s.hasBuffer d.val = true) ∧ (s.is RSV_STAT_READY (onDie d.val) = false)) ∧
    (∃ s : State, ∃ d : Die, ∃ v : Word, (s.running = true) ∧ (s.is RSV_CTL_EN (onDie d.val) = false) ∧ (bits v 31 31 = 1) ∧ (s.hasBuffer d.val = true)) ∧
    (∃ s : State, ∃ d : Die, (s.unitRuns d.val 0 = true) ∧ ((s.guard d.val 0).initing = true)) ∧
    (∃ s : State, ∃ d : Die, (s.unitRuns d.val 0 = true) ∧ ((s.guard d.val 0).initing = true) ∧ (s.get RSV_LOST_CELLS_V (onDie d.val) = 0)) ∧
    (∃ s : State, ∃ d : Die, ∃ v : Word, (s.running = true) ∧ (s.is RSV_CTL_EN (onDie d.val) = true) ∧ (bits v 31 31 = 0) ∧ (s.hasBuffer d.val = true)) ∧
    (∃ s : State, ∃ d : Die, ∃ i : Fin 524288, (s.running = true) ∧ (s.hasScrub d.val (.exact i) = true) ∧ (s.scrubTurn d.val (.exact i) = true)) ∧
    (∃ s : State, ∃ d : Die, ∃ i : Fin 262144, (s.running = true) ∧ (s.hasScrub d.val (.pair i) = true) ∧ (s.scrubTurn d.val (.pair i) = true)) ∧
    (∃ s : State, ∃ d : Die, ∃ i : Nat, ∃ e : EddyPkt, (s.running = true) ∧ (s.hasScrub d.val (.eddy i) = true) ∧ (s.scrubTurn d.val (.eddy i) = true) ∧ ((Tab.get s.pipe.eddy [] d.val)[i]? = some e)) ∧
    (∃ s : State, (s.running = true)) ∧
    (∃ s : State, ∃ d : Die, ∃ x : ScrubAt, ∃ v : ScrubVisit, (s.running = true) ∧ (s.hasScrub d.val x = true) ∧ (s.scrubTurn d.val x = true) ∧ (scrubVisit d.val x = some v)) ∧
    (∃ s : State, ∃ d : Die, ∃ x : ScrubAt, (s.running = true) ∧ (s.hasScrub d.val x = false ∨ s.scrubTurn d.val x = false)) :=
  ⟨⟨(((r0.put RSV_STAT_READY (onDie 6) 1)).put RSV_CTL_EN (onDie 6) 1), 6, 0x1000#36, .corrected 5 6, by decide⟩,
   ⟨(((r0.put RSV_STAT_READY (onDie 6) 1)).put RSV_CTL_EN (onDie 6) 1), 6, 0x1000#36, by decide⟩,
   ⟨{ r0 with part := .zg6420 }.put RSV_STAT_READY (onDie 2) 1, 0x1000#36, .clean, by decide⟩,
   ⟨{ r0 with part := .zg6420 }.put RSV_STAT_READY (onDie 2) 1, 0x1000#36, by decide⟩,
   ⟨(((r0.put RSV_STAT_READY (onDie 6) 1)).put RSV_CTL_EN (onDie 6) 1), 6, 0x1000#36, by decide⟩,
   ⟨(((r0.put RSV_STAT_READY (onDie 6) 1)).put RSV_CTL_EN (onDie 6) 1).setMac 3 { tx := [{}] }, 6, 3, 0x1000#36, {}, [], by decide⟩,
   ⟨(((r0.put RSV_STAT_READY (onDie 6) 1)).put RSV_CTL_EN (onDie 6) 1).setMac 3 { sending := some { wire := [1, 2, 3, 4, 5], buf := 1, pause := false, stamp := none } }, 6, 3, 0x1000#36, { wire := [1, 2, 3, 4, 5], buf := 1, pause := false, stamp := none }, by decide⟩,
   ⟨r0.put RSV_STAT_READY (onDie 6) 0, 6, by decide⟩,
   ⟨r0.put RSV_STAT_READY (onDie 6) 0, 6, by decide⟩,
   ⟨r0.put RSV_CTL_EN (onDie 6) 0, 6, 0x80000000#32, by decide⟩,
   ⟨(r0.setByte (6 * 2 ^ 36) 7).setGuard 6 0 { initing := true }, 6, by decide⟩,
   ⟨(r0.setByte (6 * 2 ^ 36) 7).setGuard 6 0 { initing := true }, 6, by decide⟩,
   ⟨(((r0.put RSV_STAT_READY (onDie 6) 1)).put RSV_CTL_EN (onDie 6) 1), 6, 0#32, by decide⟩,
   ⟨r0.setEm 2 0 { g1 := true, key := 5 }, 2, 0, by decide⟩,
   ⟨r0.setPair 2 0 5 6, 2, 0, by decide⟩,
   ⟨{ r0 with pipe := { r0.pipe with eddy := [(2, [⟨[0x04000000], [1, 2], 7, 5, 3, 0, none, []⟩])] } }, 2, 0, ⟨[0x04000000], [1, 2], 7, 5, 3, 0, none, []⟩, by decide⟩,
   ⟨r0, by decide⟩,
   ⟨r0, 2, .group 0, ⟨1, 34, 0, 1, 2 ^ 14⟩, by decide⟩,
   ⟨r0, 2, .group 1, by decide⟩⟩
theorem wit_SelfTestsAndSparesComplete :
    (∃ s : State, ∃ d : Die, ∃ b : Fin 2, ∃ m : Fin 32, ∃ x : TestRow, (s.running = true) ∧ (s.maintained d.val b.val = true) ∧ ((Tab.get (s.guard d.val b.val).testing none m.val).isNone = true) ∧ ((Tab.get (s.guard d.val b.val).waiting [] m.val).find? (fun t => (Tab.get (s.guard d.val b.val).scratch none t.row.bank).isNone) = some x)) ∧
    (∃ s : State, ∃ d : Die, ∃ b : Fin 2, ∃ m : Fin 32, ∃ x : TestRow, (s.running = true) ∧ (Tab.get (s.guard d.val b.val).testing none m.val = some x) ∧ (s.maintained d.val b.val = true)) ∧
    (∃ s : State, ∃ d : Die, ∃ b : Fin 2, ∃ m : Fin 32, ∃ x : TestRow, ∃ i : Nat, (s.running = true) ∧ (Tab.get (s.guard d.val b.val).testing none m.val = some x) ∧ (s.maintained d.val b.val = true) ∧ ((s.failSpare d.val b.val x.row).nextSpare d.val b.val x.row.bank = some i)) ∧
    (∃ s : State, ∃ d : Die, ∃ m : Fin 32, ∃ x : TestRow, (s.running = true) ∧ (Tab.get (s.guard d.val 0).testing none m.val = some x) ∧ (s.maintained d.val 0 = true) ∧ ((s.failSpare d.val 0 x.row).nextSpare d.val 0 x.row.bank = none) ∧ (4 ≤ s.get RSV_FREE_V (onDie d.val)) ∧ (4 ≤ s.get RSV_CAPACITY_V (onDie d.val)) ∧ ((List.range (retireSize s.part d.val 0)).find? (fun i => bits (Tab.get (s.guard d.val 0).retired 0 i) 31 31 == 0) = some 0)) ∧
    (∃ s : State, ∃ d : Die, ∃ b : Fin 2, ∃ m : Fin 32, ∃ x : TestRow, (s.running = true) ∧ (Tab.get (s.guard d.val b.val).testing none m.val = some x) ∧ (s.maintained d.val b.val = false)) ∧
    (∃ s : State, ∃ d : CourseDie, ∃ x : TestRow, (s.running = true) ∧ ((s.guard (courseIdx d) 1).copying = some x) ∧ (x.row.bank < 16)) ∧
    (∃ s : State, ∃ d : LcDie, ∃ k : Fin 16, ∃ r : RowId, ∃ n : Nat, (s.unitRuns d.val 3 = true) ∧ (Tab.get (s.guard d.val 1).scratch none k.val = some (r, n)) ∧ (n ≠ 0) ∧ ((rowQueues d.val r).all (fun q => (s.queue d.val q).pkts.isEmpty) = true)) ∧
    (∃ s : State, (s.running = true)) ∧
    (∃ s : State, ∃ d : Die, ∃ b : Fin 2, ∃ v : Word, (s.running = true) ∧ (hasBlock d.val b.val = true) ∧ ((bits v 10 0) < spareRows s.part d.val b.val (bits v 24 16))) ∧
    (∃ s : State, ∃ d : Die, ∃ b : Fin 2, ∃ v : Word, (s.running = true) ∧ (hasBlock d.val b.val = true) ∧ (s.spmapOpen d.val b.val = true) ∧ ((bits v 10 0) < spareRows s.part d.val b.val (bits v 24 16)) ∧ ((bits v 24 16) ≠ 0x1FF)) ∧
    (∃ s : State, ∃ d : Die, ∃ b : Fin 2, ∃ v : Word, (s.running = true) ∧ (hasBlock d.val b.val = true) ∧ ((bits v 10 0) < retireSize s.part d.val b.val)) ∧
    (∃ s : State, ∃ d : Die, ∃ b : Fin 2, ∃ v : Word, (s.running = true) ∧ (hasBlock d.val b.val = true) ∧ (s.spmapOpen d.val b.val = true) ∧ ((bits v 10 0) < retireSize s.part d.val b.val)) ∧
    (∃ s : State, ∃ d : Die, ∃ b : Fin 2, ∃ v : Word, (s.running = true) ∧ (hasBlock d.val b.val = true) ∧ (spareRows s.part d.val b.val (bits v 24 16) ≤ (bits v 10 0))) ∧
    (∃ s : State, ∃ d : Die, ∃ b : Fin 2, ∃ v : Word, (s.running = true) ∧ (hasBlock d.val b.val = true) ∧ (spareRows s.part d.val b.val (bits v 24 16) ≤ (bits v 10 0))) ∧
    (∃ s : State, ∃ d : Die, ∃ b : Fin 2, ∃ v : Word, (s.running = true) ∧ (hasBlock d.val b.val = true) ∧ (retireSize s.part d.val b.val ≤ (bits v 10 0))) ∧
    (∃ s : State, ∃ d : Die, ∃ b : Fin 2, ∃ v : Word, (s.running = true) ∧ (hasBlock d.val b.val = true) ∧ (retireSize s.part d.val b.val ≤ (bits v 10 0))) ∧
    (∃ s : State, ∃ d : Die, ∃ b : Fin 2, (s.running = true) ∧ (hasBlock d.val b.val = true) ∧ (s.spmapOpen d.val b.val = false)) ∧
    (∃ s : State, ∃ d : Die, ∃ b : Fin 2, (s.running = true) ∧ (hasBlock d.val b.val = true) ∧ (s.spmapOpen d.val b.val = false)) ∧
    (∃ s : State, ∃ v : Word, (s.running = true) ∧ (bits v 26 26 = 1)) :=
  ⟨⟨r0.setGuard 0 1 { waiting := [(3, [{ row := ⟨3, 7⟩ }])] } |>.put PWR_DIE_STAT_STATE (d0i 0) 0, 0, 1, 3, { row := ⟨3, 7⟩ }, by decide⟩,
   ⟨r0.setGuard 0 1 { testing := [(3, some { row := ⟨3, 7⟩ })] } |>.put PWR_DIE_STAT_STATE (d0i 0) 0, 0, 1, 3, { row := ⟨3, 7⟩ }, by decide⟩,
   ⟨r0.setGuard 0 1 { testing := [(0, some { row := ⟨0, 7⟩ })] } |>.put PWR_DIE_STAT_STATE (d0i 0) 0, 0, 1, 0, { row := ⟨0, 7⟩ }, 0, by decide⟩,
   ⟨((((((r0.put RSV_STAT_READY (onDie 6) 1)).put RSV_CTL_EN (onDie 6) 1).put RSV_FREE_V (onDie 6) 99).put RSV_CAPACITY_V (onDie 6) 99).setGuard 6 0 { testing := [(0, some { row := ⟨0, 7⟩ })], spares := (List.range 32).map (fun i => (spareKey 0 i, 0xA0000000#32)) }) |>.put PWR_DIE_STAT_STATE (d0i 6) 0, 6, 0, { row := ⟨0, 7⟩ }, by decide⟩,
   ⟨r0.setGuard 0 1 { testing := [(3, some { row := ⟨3, 7⟩ })] } |>.put PWR_DIE_STAT_STATE (d0i 0) 1, 0, 1, 3, { row := ⟨3, 7⟩ }, by decide⟩,
   ⟨r0.setGuard 2 1 { copying := some { row := ⟨3, 7⟩ } }, 0, { row := ⟨3, 7⟩ }, by decide⟩,
   ⟨r0.setGuard 2 1 { scratch := [(3, some (⟨3, 7⟩, 16))] }, 2, 3, ⟨3, 7⟩, 16, by decide⟩,
   ⟨r0.setGuard 2 1 { log := [(1, 2, 3), (4, 5, 6)] }, by decide⟩,
   ⟨r0, 2, 1, 0x80030005#32, by decide⟩,
   ⟨r0, 2, 1, 0xA0030005#32, by decide⟩,
   ⟨r0, 2, 1, 0xC0000005#32, by decide⟩,
   ⟨r0, 2, 1, 0xE0000005#32, by decide⟩,
   ⟨r0, 2, 1, 0xE00007FF#32, by decide⟩,
   ⟨r0, 2, 1, 0xE00007FF#32, by decide⟩,
   ⟨r0, 2, 1, 0xE00007FF#32, by decide⟩,
   ⟨r0, 2, 1, 0xE00007FF#32, by decide⟩,
   ⟨r0.put MEM_SPMAP_CTL_LOCKED (onDie 2) 1, 2, 1, by decide⟩,
   ⟨r0.put MEM_SPMAP_CTL_LOCKED (onDie 2) 1, 2, 1, by decide⟩,
   ⟨r0, 0x04000000#32, by decide⟩⟩
theorem wit_ControlComplexDevicesComplete :
    (∃ s : State, ∃ n : Fin 2048, ∃ h : Nat, (s.running = true) ∧ (s.route (n.val / 256) 0 = .clear h) ∧ (s.powerState (n.val / 256) = 0)) ∧
    (∃ s : State, ∃ core : Fin 12, ∃ x : Fin 2, ∃ p : Nat, ∃ n : Nat, (s.islandRuns 0 6 = true) ∧ (s.deliverable core.val x.val = some (p, n))) ∧
    (∃ s : State, ∃ core : Fin 12, ∃ x : Fin 2, (s.islandRuns 0 6 = true) ∧ (coreExists s.part core.val = true) ∧ (s.deliverable core.val x.val = none)) ∧
    (∃ s : State, ∃ core : Fin 12, (s.islandRuns 0 6 = true) ∧ (coreExists s.part core.val = false)) ∧
    (∃ s : State, ∃ core : Fin 12, (s.islandRuns 0 6 = true) ∧ (coreExists s.part core.val = true) ∧ (s.timerPending core.val = true) ∧ (s.get IRQ_RUNPRI_V (d0i (core.val * 2)) < 15)) ∧
    (∃ s : State, ∃ core : Fin 12, ∃ x : Fin 2, ∃ p : Nat, ∃ l : List Nat, (s.running = true) ∧ (coreExists s.part core.val = true) ∧ (Tab.get s.ctl.runStack [] (core.val * 2 + x.val) = p :: l)) ∧
    (∃ s : State, (s.running = true)) ∧
    (∃ s : State, ∃ core : Fin 12, (s.islandRuns (coreDie core.val) 4 = true) ∧ (coreExists s.part core.val = true) ∧ (s.timerPending core.val = true) ∧ (s.get IRQ_RUNPRI_V (d0i (core.val * 2)) < 15) ∧ (s.powerState (coreDie core.val) ≠ 0) ∧ (Tab.get s.pwr.wake none (coreDie core.val) = none)) ∧
    (∃ s : State, ∃ core : Fin 12, (s.islandRuns (coreDie core.val) 4 = true) ∧ (coreExists s.part core.val = false ∨ s.timerPending core.val = false)) ∧
    (∃ s : State, ∃ i : Fin 32, (s.running = true) ∧ (s.is CTL_SEM_HELD (d0i i.val) = false)) ∧
    (∃ s : State, ∃ i : Fin 32, (s.running = true) ∧ (s.is CTL_SEM_HELD (d0i i.val) = true)) ∧
    (∃ s : State, ∃ i : Fin 32, (s.running = true) ∧ (s.is CTL_SEM_HELD (d0i i.val) = true)) ∧
    (∃ s : State, (s.hw.alive = true) ∧ (s.is CTL_UART_CFG_EN d0 = true)) ∧
    (∃ s : State, ∃ b : Byte, ∃ l : List Byte, (s.hw.alive = true) ∧ (s.ctl.uart.rx = b :: l)) ∧
    (∃ s : State, (s.hw.alive = true) ∧ (s.is CTL_UART_CFG_EN d0 = true)) ∧
    (∃ s : State, (s.hw.alive = true) ∧ (s.is CTL_UART_CFG_EN d0 = true)) ∧
    (∃ s : State, (s.hw.alive = true) ∧ (s.is CTL_UART_CFG_EN d0 = true) ∧ (s.ctl.uart.shift.isNone = true ∨ s.ctl.uart.txFrom + 10 * s.ctl.uart.txDiv ≤ s.clk.ac)) ∧
    (∃ s : State, (s.hw.alive = true) ∧ (s.ctl.uart.shift.isSome = true) ∧ (s.clk.ac < s.ctl.uart.txFrom + 10 * s.ctl.uart.txDiv)) ∧
    (∃ s : State, (s.hw.alive = true) ∧ (s.hw.off = false)) ∧
    (∃ s : State, (s.hw.alive = true) ∧ (s.hw.off = false)) ∧
    (∃ s : State, ∃ i : Fin 32, (s.hw.alive = true) ∧ (s.hw.off = false) ∧ ((s.rd CTL_GPIO_DIR d0).getLsbD i.val = false)) ∧
    (∃ s : State, ∃ n : LineDie, ∃ v : Word, (s.running = true) ∧ (s.is CTL_L2_CFG_EN (onDie n.val) = false) ∧ (bits v 4 0 ≤ 12)) ∧
    (∃ s : State, ∃ n : LineDie, ∃ v : Word, (s.running = true) ∧ (s.is CTL_L2_CFG_EN (onDie n.val) = true) ∧ (bits v 4 0 ≠ s.get CTL_L2_CFG_SRAM_WAYS (onDie n.val))) ∧
    (∃ s : State, ∃ v : Word, (s.running = true) ∧ (s.part = .zg6480) ∧ (bits v 0 0 = 1) ∧ (∀ n < 4, (s.core (8 + n)).run = false)) ∧
    (∃ l : Level, (l ≠ .monitor)) :=
  ⟨⟨r0, 5, 0, by decide⟩,
   ⟨irq5, 3, 0, 5, 5, by decide⟩,
   ⟨r0.setCore 3 { cmp := 5 }, 3, 0, by decide⟩,
   ⟨{ r0 with part := .zg6420 }, 9, by decide⟩,
   ⟨r0.setCore 3 { cmp := 0 }, 3, by decide⟩,
   ⟨{ r0 with ctl := { r0.ctl with runStack := [(6, [4, 2])] } }, 3, 0, 4, [2], by decide⟩,
   ⟨r0.put IRQ_SGI_V d0 5, by decide⟩,
   ⟨(r0.setCore 3 { cmp := 0 }).setPowerState 0 1, 3, by decide⟩,
   ⟨r0.setCore 3 { cmp := 5 }, 3, by decide⟩,
   ⟨r0, 7, by decide⟩,
   ⟨r0.wr CTL_SEM (d0i 7) 0x40000005, 7, by decide⟩,
   ⟨r0.wr CTL_SEM (d0i 7) 0x40000005, 7, by decide⟩,
   ⟨uartOn { tx := [1] }, by decide⟩,
   ⟨uartOn { rx := [7, 8] }, 7, [8], by decide⟩,
   ⟨uartOn { rx := [7] }, by decide⟩,
   ⟨uartOn { rx := [7] }, by decide⟩,
   ⟨uartOn { tx := [1, 2], shift := some 3, txDiv := 0 }, by decide⟩,
   ⟨uartOn { tx := [1, 2], shift := some 3, txDiv := 9 }, by decide⟩,
   ⟨(r0.wr CTL_GPIO_DIR d0 3).wr CTL_GPIO_OUT d0 1, by decide⟩,
   ⟨(r0.wr CTL_GPIO_DIR d0 3).wr CTL_GPIO_OUT d0 1, by decide⟩,
   ⟨r0.wr CTL_GPIO_RISE d0 0xFF, 4, by decide⟩,
   ⟨r0, 0, 0x80000004#32, by decide⟩,
   ⟨r0.put CTL_L2_CFG_EN (onDie 0) 1, 0, 0x80000004#32, by decide⟩,
   ⟨r0.wr CTL_RESET_VEC (onDie 1) 0x40000000, 1#32, by decide⟩,
   ⟨.user, by decide⟩⟩
theorem wit_DmaControlCompletes :
    (∃ s : State, ∃ d : Die, ∃ ch : Fin 32, ∃ v : Word, (s.running = true) ∧ (s.dmaExists d.val ch.val = true) ∧ (s.dmaState d.val ch.val = 0 ∨ s.dmaState d.val ch.val = 5 ∨ s.dmaState d.val ch.val = 6) ∧ (bits v 31 31 = 1) ∧ (dmaModeOk d.val (s.get DMA_CFG_MODE (place d.val ch.val)) = true)) ∧
    (∃ s : State, ∃ d : Die, ∃ ch : Fin 32, ∃ v : Word, (s.running = true) ∧ (s.dmaExists d.val ch.val = true) ∧ (1 ≤ s.dmaState d.val ch.val ∧ s.dmaState d.val ch.val ≤ 4) ∧ (bits v 31 31 = 1)) ∧
    (∃ s : State, ∃ d : Die, ∃ ch : Fin 32, ∃ v : Word, (s.running = true) ∧ (s.dmaExists d.val ch.val = true) ∧ (1 ≤ s.dmaState d.val ch.val ∧ s.dmaState d.val ch.val ≤ 4) ∧ (bits v 30 30 = 1)) ∧
    (∃ s : State, ∃ d : Die, ∃ ch : Fin 32, ∃ v : Word, (s.running = true) ∧ (s.dmaExists d.val ch.val = true) ∧ (s.dmaState d.val ch.val = 1 ∨ s.dmaState d.val ch.val = 5 ∨ s.dmaState d.val ch.val = 6) ∧ (bits v 29 29 = 1)) ∧
    (∃ s : State, ∃ d : Die, ∃ ch : Fin 32, (s.running = true) ∧ (s.dmaExists d.val ch.val = true) ∧ (s.dmaState d.val ch.val = 1)) ∧
    (∃ s : State, ∃ d : Die, ∃ ch : Fin 32, (s.running = true) ∧ (s.dmaExists d.val ch.val = true) ∧ (s.dmaState d.val ch.val ≠ 1)) ∧
    (∃ s : State, ∃ d : Die, ∃ ch : Fin 32, (s.hw.alive = true) ∧ (s.unitHeld d.val (dmaBank d.val) = false) ∧ (s.dmaState d.val ch.val ≠ 0) ∧ (s.getEff DMA_CFG_PACE_SRC (place d.val ch.val) = 1) ∧ ((s.dmaCh d.val ch.val).fireAt ≤ s.clk.ac)) ∧
    (∃ s : State, ∃ d : Die, ∃ ch : Fin 32, (s.hw.alive = true) ∧ (s.unitHeld d.val (dmaBank d.val) = false) ∧ (s.dmaState d.val ch.val = 0 ∨ s.getEff DMA_CFG_PACE_SRC (place d.val ch.val) ≠ 1 ∨ s.clk.ac < (s.dmaCh d.val ch.val).fireAt)) ∧
    (∃ s : State, ∃ d : Die, ∃ ch : Fin 32, (s.unitRuns d.val (dmaBank d.val) = true) ∧ ((s.dmaCh d.val ch.val).due ≠ 0) ∧ (s.get DMA_STAT_PACE_PEND (place d.val ch.val) < 255) ∧ ((s.dmaCh d.val ch.val).waits = false)) ∧
    (∃ s : State, ∃ d : Die, ∃ ch : Fin 32, (s.unitRuns d.val (dmaBank d.val) = true) ∧ ((s.dmaCh d.val ch.val).due ≠ 0) ∧ (s.get DMA_STAT_PACE_PEND (place d.val ch.val) < 255) ∧ ((s.dmaCh d.val ch.val).waits = true)) ∧
    (∃ s : State, ∃ d : Die, ∃ ch : Fin 32, (s.unitRuns d.val (dmaBank d.val) = true) ∧ ((s.dmaCh d.val ch.val).due ≠ 0) ∧ (s.get DMA_STAT_PACE_PEND (place d.val ch.val) = 255)) ∧
    (∃ s : State, ∃ d : Die, ∃ ch : Fin 32, ∃ o : Bool, (s.unitRuns d.val (dmaBank d.val) = true) ∧ (s.dmaState d.val ch.val = 2 ∨ s.dmaState d.val ch.val = 4) ∧ (o = true ∨ (s.dmaCh d.val ch.val).started = false ∨ 2 ≤ s.getEff DMA_CFG_MODE (place d.val ch.val)) ∧ (s.is DMA_ERR_INFO_VALID (place d.val ch.val) = false)) ∧
    (∃ s : State, ∃ d : Die, ∃ ch : Fin 32, (s.unitRuns d.val (dmaBank d.val) = true) ∧ (s.dmaState d.val ch.val = 2 ∨ s.dmaState d.val ch.val = 4)) :=
  ⟨⟨r0.put DMA_CFG_CHAIN (place 2 3) 1, 2, 3, 0x80000000#32, by decide⟩,
   ⟨r0.put DMA_STAT_STATE (place 2 3) 2, 2, 3, 0x80000000#32, by decide⟩,
   ⟨r0.put DMA_STAT_STATE (place 2 3) 2, 2, 3, 0x40000000#32, by decide⟩,
   ⟨(r0.put DMA_STAT_STATE (place 2 3) 1).setDma 2 3 { store := [⟨[1], 4, false⟩] }, 2, 3, 0x20000000#32, by decide⟩,
   ⟨r0.put DMA_STAT_STATE (place 2 3) 1, 2, 3, by decide⟩,
   ⟨r0.put DMA_STAT_STATE (place 2 3) 2, 2, 3, by decide⟩,
   ⟨((r0.put DMA_STAT_STATE (place 2 3) 3).put DMA_CFG_PACE_SRC (place 2 3) 1).commit DMA_CFG (place 2 3), 2, 3, by decide⟩,
   ⟨((r0.put DMA_STAT_STATE (place 2 3) 3).put DMA_CFG_PACE_SRC (place 2 3) 1).commit DMA_CFG (place 2 3)|>.setDma 2 3 { fireAt := 7 }, 2, 3, by decide⟩,
   ⟨(r0.put DMA_STAT_STATE (place 2 3) 2).setDma 2 3 { due := 2 }, 2, 3, by decide⟩,
   ⟨(r0.put DMA_STAT_STATE (place 2 3) 3).setDma 2 3 { due := 2, waits := true }, 2, 3, by decide⟩,
   ⟨(r0.put DMA_STAT_PACE_PEND (place 2 3) 255).setDma 2 3 { due := 2 }, 2, 3, by decide⟩,
   ⟨r0.put DMA_STAT_STATE (place 2 3) 2, 2, 3, false, by decide⟩,
   ⟨r0.put DMA_STAT_STATE (place 2 3) 4, 2, 3, by decide⟩⟩
theorem wit_DmaTransfersComplete :
    (∃ s : State, ∃ d : Die, ∃ ch : Fin 32, ∃ m : Found, ∃ l : List Byte, (s.unitRuns d.val (dmaBank d.val) = true) ∧ (eccBad m.ecc = false) ∧ (m.lost = false) ∧ (s.dmaExists d.val ch.val = true) ∧ (s.dmaState d.val ch.val = 2) ∧ ((s.dmaCh d.val ch.val).started = false) ∧ ((s.dmaCh d.val ch.val).waits = false) ∧ (s.dmaAsleep d.val (s.dmaHead d.val ch.val) = none) ∧ ((s.dmaHead d.val ch.val) % 2 ^ 36 < 0xF00000000) ∧ ((s.readSpan d.val (s.dmaHead d.val ch.val) 32 .clean).1 = some l) ∧ ((dmaDecode l).own = true) ∧ (s.dmaBad d.val ch.val (dmaDecode l) = false) ∧ (s.getEff DMA_CFG_MODE (place d.val ch.val) < 2) ∧ ((dmaDecode l).pace = false)) ∧
    (∃ s : State, ∃ d : Die, ∃ ch : Fin 32, ∃ m : Found, ∃ l : List Byte, (s.unitRuns d.val (dmaBank d.val) = true) ∧ (eccBad m.ecc = false) ∧ (m.lost = false) ∧ (s.dmaExists d.val ch.val = true) ∧ (s.dmaState d.val ch.val = 2) ∧ ((s.dmaCh d.val ch.val).started = false) ∧ ((s.dmaCh d.val ch.val).waits = false) ∧ ((s.dmaCh d.val ch.val).filled = []) ∧ ((s.dmaCh d.val ch.val).bell = false) ∧ (s.dmaAsleep d.val (s.dmaHead d.val ch.val) = none) ∧ ((s.dmaHead d.val ch.val) % 2 ^ 36 < 0xF00000000) ∧ ((s.readSpan d.val (s.dmaHead d.val ch.val) 32 .clean).1 = some l) ∧ ((dmaDecode l).own = false)) ∧
    (∃ s : State, ∃ d : Die, ∃ ch : Fin 32, ∃ m : Found, ∃ l : List Byte, (s.unitRuns d.val (dmaBank d.val) = true) ∧ (eccBad m.ecc = false) ∧ (m.lost = false) ∧ (s.dmaExists d.val ch.val = true) ∧ (s.dmaState d.val ch.val = 2) ∧ ((s.dmaCh d.val ch.val).started = true) ∧ (s.getEff DMA_CFG_MODE (place d.val ch.val) = 0) ∧ ((s.readSpan d.val (s.dmaHead d.val ch.val) 32 .clean).1 = some l) ∧ (s.dmaAsleep d.val (dmaDecode l).src = none) ∧ (s.dmaAsleep d.val (dmaDecode l).dst = none) ∧ ((s.spanReach d.val (dmaDecode l).src (dmaDecode l).len).isOpen = true) ∧ ((s.spanReach d.val (dmaDecode l).dst (dmaDecode l).len).isOpen = true) ∧ ((dmaDecode l).src + (dmaDecode l).len ≤ (dmaDecode l).dst ∨ (dmaDecode l).dst + (dmaDecode l).len ≤ (dmaDecode l).src) ∧ ((dmaDecode l).dst + (dmaDecode l).len ≤ (s.dmaHead d.val ch.val) ∨ (s.dmaHead d.val ch.val) + 32 ≤ (dmaDecode l).dst) ∧ ((s.dmaCh d.val ch.val).chain + 1 < s.getEff DMA_CFG_CHAIN_LIMIT (place d.val ch.val)) ∧ (s.isEff DMA_CFG_PERSIST (place d.val ch.val) = false)) ∧
    (∃ s : State, ∃ d : Die, ∃ ch : Fin 32, ∃ n : BitVec 24, ∃ l : List Byte, (s.unitRuns d.val (dmaBank d.val) = true) ∧ (s.dmaExists d.val ch.val = true) ∧ (s.dmaState d.val ch.val = 2) ∧ ((s.dmaCh d.val ch.val).started = true) ∧ (s.getEff DMA_CFG_MODE (place d.val ch.val) = 0) ∧ (n.toNat ≤ (dmaDecode l).len) ∧ ((s.readSpan d.val (s.dmaHead d.val ch.val) 32 .clean).1 = some l) ∧ (s.dmaAsleep d.val (dmaDecode l).src = none) ∧ (s.dmaAsleep d.val (dmaDecode l).dst = none) ∧ (s.dmaAsleep d.val (s.dmaHead d.val ch.val) = none) ∧ ((s.spanReach d.val (dmaDecode l).src (dmaDecode l).len).isOpen = true) ∧ ((s.spanReach d.val (dmaDecode l).dst (dmaDecode l).len).isOpen = true) ∧ ((dmaDecode l).src + (dmaDecode l).len ≤ (dmaDecode l).dst ∨ (dmaDecode l).dst + (dmaDecode l).len ≤ (dmaDecode l).src) ∧ ((dmaDecode l).dst + (dmaDecode l).len ≤ (s.dmaHead d.val ch.val) ∨ (s.dmaHead d.val ch.val) + 32 ≤ (dmaDecode l).dst) ∧ (s.isEff DMA_CFG_PERSIST (place d.val ch.val) = false)) ∧
    (∃ s : State, ∃ d : Die, ∃ ch : Fin 32, ∃ m : Found, ∃ l : List Byte, ∃ r : DmaRec, ∃ q : List DmaRec, (s.unitRuns d.val (dmaBank d.val) = true) ∧ (eccBad m.ecc = false) ∧ (m.lost = false) ∧ ((s.dmaCh d.val ch.val).waits = false) ∧ ((s.dmaCh d.val ch.val).filled = []) ∧ (s.dmaExists d.val ch.val = true) ∧ (s.dmaState d.val ch.val = 2) ∧ ((s.dmaCh d.val ch.val).started = true) ∧ (s.getEff DMA_CFG_MODE (place d.val ch.val) = 1) ∧ ((s.dmaCh d.val ch.val).store = r :: q) ∧ (s.dmaAsleep d.val (s.dmaHead d.val ch.val) = none) ∧ ((s.readSpan d.val (s.dmaHead d.val ch.val) 32 .clean).1 = some l) ∧ ((dmaDecode l).own = true) ∧ (s.dmaBad d.val ch.val (dmaDecode l) = false) ∧ (r.bytes.length ≤ (dmaDecode l).len) ∧ (s.dmaAsleep d.val (dmaDecode l).dst = none) ∧ ((s.spanReach d.val (dmaDecode l).dst r.bytes.length).isOpen = true) ∧ ((dmaDecode l).dst + r.bytes.length ≤ (s.dmaHead d.val ch.val) ∨ (s.dmaHead d.val ch.val) + 32 ≤ (dmaDecode l).dst) ∧ (s.isEff DMA_CFG_PERSIST (place d.val ch.val) = false)) ∧
    (∃ s : State, ∃ ch : Fin 32, ∃ m : Found, ∃ l : List Byte, (s.unitRuns 0 (dmaBank 0) = true) ∧ (eccBad m.ecc = false) ∧ (m.lost = false) ∧ (s.dmaState 0 ch.val = 2) ∧ ((s.dmaCh 0 ch.val).started = true) ∧ (s.getEff DMA_CFG_MODE (place 0 ch.val) = 2) ∧ ((s.mac 64).tx = []) ∧ ((s.dmaCh 0 ch.val).got ≠ [] ∨ (s.is MGT_TX_CFG_EN d0 = true ∧ s.get MGT_TX_CFG_DMA_CH d0 = ch.val)) ∧ (s.dmaAsleep 0 (s.dmaHead 0 ch.val) = none) ∧ ((s.readSpan 0 (s.dmaHead 0 ch.val) 32 .clean).1 = some l) ∧ ((dmaDecode l).eop = true) ∧ ((s.dmaCh 0 ch.val).done < (dmaDecode l).len) ∧ ((dmaDecode l).len - (s.dmaCh 0 ch.val).done ≤ 256) ∧ ((s.spanReach 0 ((dmaDecode l).src + (s.dmaCh 0 ch.val).done) ((dmaDecode l).len - (s.dmaCh 0 ch.val).done)).isOpen = true)) ∧
    (∃ s : State, ∃ d : LcDie, ∃ ch : Fin 32, ∃ m : Found, ∃ l : List Byte, ∃ p : Nat, (s.unitRuns d.val (dmaBank d.val) = true) ∧ (eccBad m.ecc = false) ∧ (m.lost = false) ∧ (s.dmaExists d.val ch.val = true) ∧ (s.dmaState d.val ch.val = 2) ∧ ((s.dmaCh d.val ch.val).started = true) ∧ (s.getEff DMA_CFG_MODE (place d.val ch.val) = 3) ∧ (s.injectRoom d.val = true) ∧ (s.dmaAsleep d.val (s.dmaHead d.val ch.val) = none) ∧ ((s.readSpan d.val (s.dmaHead d.val ch.val) 32 .clean).1 = some l) ∧ ((dmaDecode l).eop = true) ∧ ((s.dmaCh d.val ch.val).done < (dmaDecode l).len) ∧ ((dmaDecode l).len - (s.dmaCh d.val ch.val).done ≤ 256) ∧ ((s.spanReach d.val ((dmaDecode l).src + (s.dmaCh d.val ch.val).done) ((dmaDecode l).len - (s.dmaCh d.val ch.val).done)).isOpen = true) ∧ (s.pickPool d.val (cellsOf ((s.dmaCh d.val ch.val).got.length + ((dmaDecode l).len - (s.dmaCh d.val ch.val).done))) = some p)) :=
  ⟨⟨dmaMem 3 2 0 (2 ^ 31 + 2 ^ 27 + 16) {}, 0, 3, foundClean, dmaWords (2 ^ 31 + 2 ^ 27 + 16), by decide⟩,
   ⟨dmaMem 3 2 0 16 {}, 0, 3, foundClean, dmaWords 16, by decide⟩,
   ⟨dmaMem 3 2 0 (2 ^ 31 + 2 ^ 27 + 16) { started := true }, 0, 3, foundClean, dmaWords (2 ^ 31 + 2 ^ 27 + 16), by decide⟩,
   ⟨dmaMem 3 2 0 (2 ^ 31 + 2 ^ 27 + 16) { started := true }, 0, 3, 5, dmaWords (2 ^ 31 + 2 ^ 27 + 16), by decide⟩,
   ⟨dmaMem 3 2 1 (2 ^ 31 + 64) { started := true, store := [⟨[7, 8, 9], 0, false⟩] }, 0, 3, foundClean, dmaWords (2 ^ 31 + 64), ⟨[7, 8, 9], 0, false⟩, [], by decide⟩,
   ⟨(dmaMem 3 2 2 (2 ^ 31 + 2 ^ 27 + 16) { started := true }).put MGT_TX_CFG_EN d0 1 |>.put MGT_TX_CFG_DMA_CH d0 3, 3, foundClean, dmaWords (2 ^ 31 + 2 ^ 27 + 16), by decide⟩,
   ⟨(dmaMem 3 2 3 (2 ^ 31 + 2 ^ 27 + 16) { started := true }).put RSV_STAT_READY (onDie 6) 1, 0, 3, foundClean, dmaWords (2 ^ 31 + 2 ^ 27 + 16), 6, by decide⟩⟩
theorem wit_CoreInstructionsComplete :
    (∃ s : State, ∃ x : CoreIssue, ∃ u : State, ∃ op : IntOp, ∃ ra : XReg, ∃ b : CoreSrc, ∃ v : BitVec 64, (s.insAt x u) ∧ (intResult op ((u.core x.core.val).reg ra) (match b with | .reg r => (u.core x.core.val).reg r | .imm y => y) = some v)) ∧
    (∃ s : State, ∃ x : CoreIssue, ∃ u : State, (s.insAt x u)) ∧
    (∃ s : State, ∃ x : CoreIssue, ∃ u : State, (s.insAt x u)) ∧
    (∃ s : State, ∃ x : CoreIssue, ∃ u : State, (s.insAt x u)) ∧
    (∃ s : State, ∃ x : CoreIssue, ∃ u : State, ∃ ra : XReg, ∃ off : BitVec 64, ∃ k : Fin 4, ∃ v : Nat, ∃ z : State, (s.insAt x u) ∧ (((u.core x.core.val).reg ra + off).toNat % (2 ^ k.val) = 0) ∧ (u.loads x ((u.core x.core.val).reg ra + off) (2 ^ k.val) = some (v, z))) ∧
    (∃ s : State, ∃ x : CoreIssue, ∃ u : State, ∃ ra : XReg, ∃ off : BitVec 64, ∃ k : Fin 4, (s.insAt x u) ∧ (((u.core x.core.val).reg ra + off).toNat % (2 ^ k.val) = 0) ∧ ((u.core x.core.val).level = .monitor) ∧ (((u.core x.core.val).reg ra + off).toNat < 2 ^ 40) ∧ (u.ownTcm x.core.val ((u.core x.core.val).reg ra + off).toNat) ∧ (eccBad x.mem.ecc = false) ∧ ((u.core x.core.val).sb = [])) ∧
    (∃ s : State, ∃ x : CoreIssue, ∃ u : State, ∃ rs : XReg, ∃ ra : XReg, ∃ off : BitVec 64, ∃ k : Fin 4, ∃ z : State, (s.insAt x u) ∧ (((u.core x.core.val).reg ra + off).toNat % (2 ^ k.val) = 0) ∧ (u.stores x ((u.core x.core.val).reg ra + off) (2 ^ k.val) (((u.core x.core.val).reg rs).toNat % 256 ^ (2 ^ k.val)) = some z)) ∧
    (∃ s : State, ∃ x : CoreIssue, ∃ u : State, ∃ ra : XReg, ∃ off : BitVec 64, ∃ k : Fin 4, (s.insAt x u) ∧ (((u.core x.core.val).reg ra + off).toNat % (2 ^ k.val) = 0) ∧ ((u.core x.core.val).level = .monitor) ∧ (((u.core x.core.val).reg ra + off).toNat < 2 ^ 40) ∧ (u.ownTcm x.core.val ((u.core x.core.val).reg ra + off).toNat) ∧ ((u.core x.core.val).sb.length < 8)) ∧
    (∃ s : State, ∃ x : CoreIssue, ∃ u : State, ∃ k : BitVec 12, (s.insAt x u) ∧ (u.sysCause x.core.val k.toNat false = none)) ∧
    (∃ s : State, ∃ x : CoreIssue, ∃ u : State, ∃ k : BitVec 12, (s.insAt x u) ∧ (u.sysCause x.core.val k.toNat true = none)) :=
  ⟨⟨coreAt .monitor (xreg 5 7), i3, fetchAt (coreAt .monitor (xreg 5 7)), .add, 5, .imm 3, 10, by decide⟩,
   ⟨coreAt .monitor (xreg 5 7), i3, fetchAt (coreAt .monitor (xreg 5 7)), by decide⟩,
   ⟨coreAt .monitor (xreg 5 7), i3, fetchAt (coreAt .monitor (xreg 5 7)), by decide⟩,
   ⟨coreAt .monitor (xreg 5 0x1000C0100), i3, fetchAt (coreAt .monitor (xreg 5 0x1000C0100)), by decide⟩,
   ⟨coreAt .monitor (xreg 5 0x1000C0100), i3, fetchAt (coreAt .monitor (xreg 5 0x1000C0100)), 5, 8, 2, 0, fetchAt (coreAt .monitor (xreg 5 0x1000C0100)), by decide⟩,
   ⟨coreAt .monitor (xreg 5 0x1000C0100), i3, fetchAt (coreAt .monitor (xreg 5 0x1000C0100)), 5, 8, 2, by decide⟩,
   ⟨coreAt .monitor (xreg 5 0x1000C0100), i3, fetchAt (coreAt .monitor (xreg 5 0x1000C0100)), 5, 5, 8, 2, ((fetchAt (coreAt .monitor (xreg 5 0x1000C0100))).stores i3 0x1000C0108 4 0xC0100).getD r0, by decide⟩,
   ⟨coreAt .monitor (xreg 5 0x1000C0100), i3, fetchAt (coreAt .monitor (xreg 5 0x1000C0100)), 5, 8, 2, by decide⟩,
   ⟨coreAt .monitor (xreg 5 7), i3, fetchAt (coreAt .monitor (xreg 5 7)), 0x010#12, by decide⟩,
   ⟨coreAt .monitor (xreg 5 0x12345), i3, fetchAt (coreAt .monitor (xreg 5 0x12345)), 0x010#12, by decide⟩⟩
theorem wit_CoreSystemInstructionsComplete :
    (∃ s : State, ∃ x : CoreIssue, ∃ u : State, (s.insAt x u)) ∧
    (∃ s : State, ∃ x : CoreIssue, ∃ u : State, (s.insAt x u)) ∧
    (∃ s : State, ∃ x : CoreIssue, ∃ u : State, (s.insAt x u) ∧ ((u.core x.core.val).level = .monitor)) ∧
    (∃ s : State, ∃ x : CoreIssue, ∃ u : State, (s.insAt x u) ∧ ((u.core x.core.val).level = .supervisor)) ∧
    (∃ s : State, ∃ core : Fin 12, ∃ l : Fin 2, (s.running = true) ∧ (s.coreIssues core.val = true) ∧ ((s.deliverable core.val l.val).isSome = true) ∧ (s.spanAt (32 + core.val) = none) ∧ (s.spanAt (16 + core.val) = none) ∧ ((if l.val = 1 then (s.core core.val).ieM else (s.core core.val).ieS) = true ∨ (s.core core.val).level = .user ∨ (l = 1 ∧ (s.core core.val).level = .supervisor))) ∧
    (∃ s : State, ∃ core : Fin 12, (s.running = true) ∧ (s.coreIssues core.val = true) ∧ ((s.spanAt (32 + core.val)).isSome = true ∨ (s.spanAt (16 + core.val)).isSome = true)) ∧
    (∃ s : State, ∃ core : Fin 12, ∃ line : BitVec 34, (s.running = true) ∧ (s.coreIssues core.val = true) ∧ ((s.line (.data core.val) (line.toNat * 64)).any (·.dirty) = true ∨ (s.line (.l2 (coreDie core.val)) (line.toNat * 64)).any (·.dirty) = true)) ∧
    (∃ s : State, ∃ x : CoreIssue, ∃ u : State, (s.insAt x u) ∧ ((u.core x.core.val).level ≠ .user)) ∧
    (∃ s : State, ∃ x : CoreIssue, ∃ u : State, ∃ ra : XReg, ∃ a : Nat, ∃ z : State, ∃ l : Line, (s.insAt x u) ∧ (u.readAt x ((u.core x.core.val).reg ra) = some (a, z)) ∧ ((z.core x.core.val).sb = []) ∧ (z.line (.l2 (coreDie x.core.val)) a = some l) ∧ (l.dirty = true) ∧ (l.bytes.length = 64) ∧ (z.noneDirty (coreDie x.core.val) a) ∧ ((z.spanReach (coreDie x.core.val) (a / 64 * 64) 64).isOpen = true) ∧ (x.mem.lost = false ∨ a / 2 ^ 36 = (coreDie x.core.val))) ∧
    (∃ s : State, ∃ x : CoreIssue, ∃ u : State, ∃ ra : XReg, ∃ a : Nat, ∃ z : State, ∃ l : Line, ∃ m : Line, (s.insAt x u) ∧ (u.readAt x ((u.core x.core.val).reg ra) = some (a, z)) ∧ ((z.core x.core.val).sb = []) ∧ (z.line (.data x.core.val) a = some l) ∧ (l.dirty = true) ∧ (l.bytes.length = 64) ∧ ((dieCores z.part (coreDie x.core.val)).all (fun k => k == x.core.val || !(z.line (.data k) a).any (·.dirty)) = true) ∧ (z.ownSram (coreDie x.core.val) a = false) ∧ (z.line (.l2 (coreDie x.core.val)) a = some m) ∧ ((z.spanReach (coreDie x.core.val) (a / 64 * 64) 64).isOpen = true) ∧ (x.mem.lost = false ∨ a / 2 ^ 36 = (coreDie x.core.val))) ∧
    (∃ s : State, ∃ x : CoreIssue, ∃ u : State, ∃ ra : XReg, ∃ a : Nat, ∃ z : State, (s.insAt x u) ∧ (u.readAt x ((u.core x.core.val).reg ra) = some (a, z)) ∧ ((z.core x.core.val).sb = [])) ∧
    (∃ s : State, ∃ x : CoreIssue, ∃ u : State, ∃ ra : XReg, ∃ a : Nat, ∃ z : State, ∃ l : Line, (s.insAt x u) ∧ (u.readAt x ((u.core x.core.val).reg ra) = some (a, z)) ∧ ((z.core x.core.val).sb = []) ∧ (z.line (.l2 (coreDie x.core.val)) a = some l) ∧ (l.bytes.length = 64) ∧ (z.noneDirty (coreDie x.core.val) a) ∧ ((z.spanReach (coreDie x.core.val) (a / 64 * 64) 64).isOpen = true) ∧ (x.mem.lost = false ∨ a / 2 ^ 36 = (coreDie x.core.val))) ∧
    (∃ s : State, ∃ x : CoreIssue, ∃ u : State, ∃ set : Fin 4096, ∃ way : Fin 16, ∃ l : Line, (s.insAt x u) ∧ ((u.core x.core.val).level ≠ .user) ∧ ((u.core x.core.val).sb = []) ∧ (set.val < 256 ∧ way.val < 4) ∧ (u.lineAt (.code x.core.val) ((Cache.code x.core.val).first (set.val * 64) + way.val) = some l)) ∧
    (∃ s : State, ∃ x : CoreIssue, ∃ u : State, ∃ set : Fin 4096, ∃ way : Fin 16, ∃ l : Line, ∃ m : Line, (s.insAt x u) ∧ ((u.core x.core.val).level ≠ .user) ∧ ((u.core x.core.val).sb = []) ∧ (set.val < 256 ∧ way.val < 4) ∧ (u.lineAt (.data x.core.val) ((Cache.data x.core.val).first (set.val * 64) + way.val) = some l) ∧ (u.line (.data x.core.val) (l.tag * 64) = some l) ∧ (u.ownSram (coreDie x.core.val) (l.tag * 64) = false) ∧ (u.line (.l2 (coreDie x.core.val)) (l.tag * 64) = some m)) ∧
    (∃ s : State, ∃ x : CoreIssue, ∃ u : State, ∃ set : Fin 4096, ∃ way : Fin 16, ∃ l : Line, (s.insAt x u) ∧ ((u.core x.core.val).level ≠ .user) ∧ ((u.core x.core.val).sb = []) ∧ (way.val < u.ways (.l2 (coreDie x.core.val))) ∧ (u.lineAt (.l2 (coreDie x.core.val)) ((Cache.l2 (coreDie x.core.val)).first (set.val * 64) + way.val) = some l) ∧ (u.line (.l2 (coreDie x.core.val)) (l.tag * 64) = some l) ∧ (u.noneDirty (coreDie x.core.val) (l.tag * 64)) ∧ (l.bytes.length = 64) ∧ ((u.spanReach (coreDie x.core.val) ((l.tag * 64) / 64 * 64) 64).isOpen = true) ∧ (x.mem.lost = false ∨ (l.tag * 64) / 2 ^ 36 = (coreDie x.core.val))) ∧
    (∃ s : State, ∃ x : CoreIssue, ∃ u : State, ∃ kind : CacheKind, ∃ set : Fin 4096, ∃ way : Fin 16, (s.insAt x u) ∧ ((u.core x.core.val).level ≠ .user) ∧ ((u.core x.core.val).sb = []) ∧ ((kind = .code → 4 ≤ way.val ∨ 256 ≤ set.val ∨ u.lineAt (.code x.core.val) ((Cache.code x.core.val).first (set.val * 64) + way.val) = none) ∧ (kind = .data → 4 ≤ way.val ∨ 256 ≤ set.val ∨ u.lineAt (.data x.core.val) ((Cache.data x.core.val).first (set.val * 64) + way.val) = none) ∧ (kind = .l2 → u.ways (.l2 (coreDie x.core.val)) ≤ way.val ∨ u.lineAt (.l2 (coreDie x.core.val)) ((Cache.l2 (coreDie x.core.val)).first (set.val * 64) + way.val) = none))) ∧
    (∃ s : State, ∃ x : CoreIssue, ∃ u : State, ∃ imm : Byte, (s.insAt x u (some (deviceWord 0 0 0 0 imm))) ∧ (imm.toNat < 8) ∧ (imm.getLsbD 0 = true → ((u.drainAll x.core.val).core x.core.val).sb = [])) ∧
    (∃ s : State, ∃ x : CoreIssue, ∃ u : State, ∃ rd : XReg, ∃ ra : XReg, ∃ rb : XReg, ∃ imm : Byte, ∃ w : SpanWait, (s.insAt x u (some (deviceWord 1 rd ra rb imm))) ∧ ((u.core x.core.val).level ≠ .user) ∧ (((u.core x.core.val).reg rb).toNat / 2 ^ 32 = 0xF) ∧ (((u.core x.core.val).reg rb).toNat % 4 = 0) ∧ (u.spanAt (16 + x.core.val) = none) ∧ ((u.spanDeliver (16 + x.core.val) (.core x.core) (u.core x.core.val).level (if imm = 0 then 0xFF else imm.toNat) ((u.core x.core.val).reg rb).toNat 4 (((u.core x.core.val).reg ra).toNat % 2 ^ 32)).spanAt (16 + x.core.val) = some w) ∧ (w.waiting = 0)) ∧
    (∃ s : State, ∃ x : CoreIssue, ∃ u : State, ∃ rd : XReg, ∃ ra : XReg, ∃ rb : XReg, ∃ imm : Byte, ∃ h : Nat, (s.insAt x u (some (deviceWord 2 rd ra rb imm))) ∧ (rd.val % 2 = 0) ∧ (imm.toNat < 2) ∧ ((u.core x.core.val).level ≠ .user ∨ (u.core x.core.val).ucrd = true) ∧ (((u.core x.core.val).reg ra).toNat / 2 ^ 32 < 6) ∧ (((u.core x.core.val).reg ra).toNat % 2 ^ 32 / 2 ^ 18 = 0) ∧ (u.reach (coreDie x.core.val) (((u.core x.core.val).reg ra).toNat / 2 ^ 32) = .open_ h) ∧ (((u.core x.core.val).reg ra).toNat % 2 ^ 18 < cntPairs (((u.core x.core.val).reg ra).toNat / 2 ^ 32)) ∧ (x.mem.lost = false ∨ ((u.core x.core.val).reg ra).toNat / 2 ^ 32 = (coreDie x.core.val))) ∧
    (∃ s : State, ∃ x : CoreIssue, ∃ u : State, ∃ ra : XReg, (s.insAt x u (some (deviceWord 3 0 ra 0 0))) ∧ ((u.core x.core.val).level ≠ .user) ∧ ((u.core x.core.val).sb = [])) ∧
    (∃ s : State, ∃ core : Fin 12, ∃ xa : BitVec 64, (s.islandRuns (coreDie core.val) 4 = true) ∧ ((s.core core.val).slh = some xa) ∧ (s.slhWakes core.val xa = true) ∧ (s.powerState (coreDie core.val) = 0)) ∧
    (∃ s : State, ∃ core : Fin 12, ∃ xa : BitVec 64, (s.islandRuns (coreDie core.val) 4 = true) ∧ ((s.core core.val).slh = some xa) ∧ (s.slhWakes core.val xa = true) ∧ (s.powerState (coreDie core.val) ≠ 0) ∧ (Tab.get s.pwr.wake none (coreDie core.val) = none)) :=
  ⟨⟨coreAt .user { tlb := [⟨0x1000C0, 12, 0, 0x37FF0001000C0000⟩] }, i3, fetchAt (coreAt .user { tlb := [⟨0x1000C0, 12, 0, 0x37FF0001000C0000⟩] }), by decide⟩,
   ⟨coreAt .monitor { hvecM := 0x4000 }, i3, fetchAt (coreAt .monitor { hvecM := 0x4000 }), by decide⟩,
   ⟨coreAt .monitor { retM := 0x4000 }, i3, fetchAt (coreAt .monitor { retM := 0x4000 }), by decide⟩,
   ⟨coreAt .supervisor { tlb := [⟨0x1000C0, 12, 0, 0xBFC00001000C0000⟩] }, i3, fetchAt (coreAt .supervisor { tlb := [⟨0x1000C0, 12, 0, 0xBFC00001000C0000⟩] }), by decide⟩,
   ⟨irq5.setCore 3 { run := true, level := .user, hvecS := 0x4000, cmp := 5 }, 3, 0, by decide⟩,
   ⟨(irq5.setCore 3 { run := true, level := .user }).setSpan 19 (some ⟨1, 0, 1⟩), 3, by decide⟩,
   ⟨((mem6 (coreAt .supervisor { hvecM := 0x4000 })).setLineAt (.l2 0) ((Cache.l2 0).first 0x6000000040) (some ⟨0x6000000040 / 64, List.replicate 64 5, true⟩)), 3, 0x180000001#34, by decide⟩,
   ⟨coreAt .monitor { tlb := [⟨0x1000C0, 12, 0, 0xBFC00001000C0000⟩] }, i3, fetchAt (coreAt .monitor { tlb := [⟨0x1000C0, 12, 0, 0xBFC00001000C0000⟩] }), by decide⟩,
   ⟨((mem6 ((coreAt .monitor (xreg 5 0x6000000044)))).setLineAt (.l2 0) ((Cache.l2 0).first 0x6000000040) (some ⟨0x6000000040 / 64, List.replicate 64 5, true⟩)), i3, fetchAt (((mem6 ((coreAt .monitor (xreg 5 0x6000000044)))).setLineAt (.l2 0) ((Cache.l2 0).first 0x6000000040) (some ⟨0x6000000040 / 64, List.replicate 64 5, true⟩))), 5, 0x6000000044, fetchAt (((mem6 ((coreAt .monitor (xreg 5 0x6000000044)))).setLineAt (.l2 0) ((Cache.l2 0).first 0x6000000040) (some ⟨0x6000000040 / 64, List.replicate 64 5, true⟩))), ⟨0x6000000040 / 64, List.replicate 64 5, true⟩, by decide⟩,
   ⟨((((mem6 ((coreAt .monitor (xreg 5 0x6000000044)))).setLineAt (.l2 0) ((Cache.l2 0).first 0x6000000040) (some ⟨0x6000000040 / 64, List.replicate 64 5, false⟩))).setLineAt (.data 3) ((Cache.data 3).first 0x6000000040) (some ⟨0x6000000040 / 64, List.replicate 64 6, true⟩)), i3, fetchAt (((((mem6 ((coreAt .monitor (xreg 5 0x6000000044)))).setLineAt (.l2 0) ((Cache.l2 0).first 0x6000000040) (some ⟨0x6000000040 / 64, List.replicate 64 5, false⟩))).setLineAt (.data 3) ((Cache.data 3).first 0x6000000040) (some ⟨0x6000000040 / 64, List.replicate 64 6, true⟩))), 5, 0x6000000044, fetchAt (((((mem6 ((coreAt .monitor (xreg 5 0x6000000044)))).setLineAt (.l2 0) ((Cache.l2 0).first 0x6000000040) (some ⟨0x6000000040 / 64, List.replicate 64 5, false⟩))).setLineAt (.data 3) ((Cache.data 3).first 0x6000000040) (some ⟨0x6000000040 / 64, List.replicate 64 6, true⟩))), ⟨0x6000000040 / 64, List.replicate 64 6, true⟩, ⟨0x6000000040 / 64, List.replicate 64 5, false⟩, by decide⟩,
   ⟨((((mem6 ((coreAt .monitor (xreg 5 0x6000000044)))).setLineAt (.l2 0) ((Cache.l2 0).first 0x6000000040) (some ⟨0x6000000040 / 64, List.replicate 64 5, false⟩))).setLineAt (.data 3) ((Cache.data 3).first 0x6000000040) (some ⟨0x6000000040 / 64, List.replicate 64 6, true⟩)), i3, fetchAt (((((mem6 ((coreAt .monitor (xreg 5 0x6000000044)))).setLineAt (.l2 0) ((Cache.l2 0).first 0x6000000040) (some ⟨0x6000000040 / 64, List.replicate 64 5, false⟩))).setLineAt (.data 3) ((Cache.data 3).first 0x6000000040) (some ⟨0x6000000040 / 64, List.replicate 64 6, true⟩))), 5, 0x6000000044, fetchAt (((((mem6 ((coreAt .monitor (xreg 5 0x6000000044)))).setLineAt (.l2 0) ((Cache.l2 0).first 0x6000000040) (some ⟨0x6000000040 / 64, List.replicate 64 5, false⟩))).setLineAt (.data 3) ((Cache.data 3).first 0x6000000040) (some ⟨0x6000000040 / 64, List.replicate 64 6, true⟩))), by decide⟩,
   ⟨((mem6 ((coreAt .monitor (xreg 5 0x6000000044)))).setLineAt (.l2 0) ((Cache.l2 0).first 0x6000000040) (some ⟨0x6000000040 / 64, List.replicate 64 5, true⟩)), i3, fetchAt (((mem6 ((coreAt .monitor (xreg 5 0x6000000044)))).setLineAt (.l2 0) ((Cache.l2 0).first 0x6000000040) (some ⟨0x6000000040 / 64, List.replicate 64 5, true⟩))), 5, 0x6000000044, fetchAt (((mem6 ((coreAt .monitor (xreg 5 0x6000000044)))).setLineAt (.l2 0) ((Cache.l2 0).first 0x6000000040) (some ⟨0x6000000040 / 64, List.replicate 64 5, true⟩))), ⟨0x6000000040 / 64, List.replicate 64 5, true⟩, by decide⟩,
   ⟨(coreAt .monitor {}).setLineAt (.code 3) 3072 (some ⟨0x4020000, List.replicate 64 5, false⟩), i3, fetchAt ((coreAt .monitor {}).setLineAt (.code 3) 3072 (some ⟨0x4020000, List.replicate 64 5, false⟩)), 0, 0, ⟨0x4020000, List.replicate 64 5, false⟩, by decide⟩,
   ⟨((((mem6 (coreAt .monitor {})).setLineAt (.l2 0) ((Cache.l2 0).first 0x6000000040) (some ⟨0x6000000040 / 64, List.replicate 64 5, false⟩))).setLineAt (.data 3) ((Cache.data 3).first 0x6000000040) (some ⟨0x6000000040 / 64, List.replicate 64 6, true⟩)), i3, fetchAt (((((mem6 (coreAt .monitor {})).setLineAt (.l2 0) ((Cache.l2 0).first 0x6000000040) (some ⟨0x6000000040 / 64, List.replicate 64 5, false⟩))).setLineAt (.data 3) ((Cache.data 3).first 0x6000000040) (some ⟨0x6000000040 / 64, List.replicate 64 6, true⟩))), 1, 0, ⟨0x6000000040 / 64, List.replicate 64 6, true⟩, ⟨0x6000000040 / 64, List.replicate 64 5, false⟩, by decide⟩,
   ⟨((mem6 (coreAt .monitor {})).setLineAt (.l2 0) ((Cache.l2 0).first 0x6000000040) (some ⟨0x6000000040 / 64, List.replicate 64 5, true⟩)), i3, fetchAt (((mem6 (coreAt .monitor {})).setLineAt (.l2 0) ((Cache.l2 0).first 0x6000000040) (some ⟨0x6000000040 / 64, List.replicate 64 5, true⟩))), 1, 0, ⟨0x6000000040 / 64, List.replicate 64 5, true⟩, by decide⟩,
   ⟨coreAt .monitor {}, i3, fetchAt (coreAt .monitor {}), .l2, 5, 15, by decide⟩,
   ⟨(coreDev .monitor { sb := [⟨0x1000C0200, 4, 7⟩] } (deviceWord 0 0 0 0 1)), i3, fetchDev ((coreDev .monitor { sb := [⟨0x1000C0200, 4, 7⟩] } (deviceWord 0 0 0 0 1))) (deviceWord 0 0 0 0 1), 1, by decide⟩,
   ⟨(coreDev .monitor ((xreg 5 0xF00000000).setReg 6 7) (deviceWord 1 4 6 5 1)), i3, fetchDev ((coreDev .monitor ((xreg 5 0xF00000000).setReg 6 7) (deviceWord 1 4 6 5 1))) (deviceWord 1 4 6 5 1), 4, 6, 5, 1, ⟨1, 0, 0⟩, by decide⟩,
   ⟨((coreDev .monitor (xreg 5 7) (deviceWord 2 4 5 0 1))).setPair 0 7 5 6, i3, fetchDev (((coreDev .monitor (xreg 5 7) (deviceWord 2 4 5 0 1))).setPair 0 7 5 6) (deviceWord 2 4 5 0 1), 4, 5, 0, 1, 0, by decide⟩,
   ⟨(coreDev .monitor { cmp := 5 } (deviceWord 3 0 5 0 0)), i3, fetchDev ((coreDev .monitor { cmp := 5 } (deviceWord 3 0 5 0 0))) (deviceWord 3 0 5 0 0), 5, by decide⟩,
   ⟨irq5.setCore 3 { run := true, slh := some 0 }, 3, 0, by decide⟩,
   ⟨(irq5.setCore 3 { run := true, slh := some 0 }).setPowerState 0 1, 3, 0, by decide⟩⟩
theorem wit_ResetsAndRailsComplete :
    (∃ s : State, ∃ n : Nat, (s.hw.alive = true) ∧ (s.hw.off = false) ∧ (250 ≤ n ∧ n < 25000) ∧ (s.hw.openGranted = false) ∧ (s.hw.pinHold = false) ∧ (s.hw.req = none ∨ s.hw.req.any ResetCause.warm = true)) ∧
    (∃ s : State, ∃ n : Nat, (s.hw.alive = true) ∧ (s.hw.off = false) ∧ (25000 ≤ n) ∧ (s.hw.resetTaken = false)) ∧
    (∃ s : State, ∃ n : Nat, (s.hw.alive = true) ∧ (s.hw.off = false) ∧ (n < 25000 ∨ s.hw.resetTaken = true) ∧ (s.hw.pinHold = true) ∧ (s.hw.req = none)) ∧
    (∃ s : State, ∃ b : Bool, ∃ n : Nat, (s.hw.alive = true) ∧ (n < 250) ∧ (b = false ∨ s.hw.pinHold = false)) ∧
    (∃ s : State, ∃ v : Word, (s.running = true) ∧ (bits v 1 1 = 1)) ∧
    (∃ s : State, ∃ v : Word, (s.running = true) ∧ (bits v 1 1 = 0) ∧ (bits v 0 0 = 1) ∧ (s.hw.openGranted = false) ∧ (s.hw.req = none ∨ s.hw.req.any ResetCause.warm = true)) ∧
    (∃ s : State, ∃ c : ResetCause, (s.hw.alive = true) ∧ (s.hw.req = some c) ∧ (c.warm = true) ∧ (s.hw.openGranted = false) ∧ (s.hw.railsUp = true) ∧ (s.hw.dbg.seq.any (fun x => x.1 == 1) = false)) ∧
    (∃ s : State, ∃ c : ResetCause, (s.hw.alive = true) ∧ (s.hw.req = some c) ∧ (c.warm = false) ∧ (s.hw.burn = none) ∧ (s.hw.dbg.seq.any (fun x => x.1 == 1) = false)) ∧
    (∃ s : State, (s.hw.alive = false) ∧ (s.hw.burn = none) ∧ (s.hw.dbg.seq.any (fun x => x.1 == 1) = false)) ∧
    (∃ s : State, (s.hw.alive = true) ∧ (s.hw.burn = none) ∧ (s.hw.dbg.seq.any (fun x => x.1 == 1) = false)) ∧
    (∃ s : State, ∃ x : RailDown, ∃ j : Nat, (s.hw.railDown = some x) ∧ (s.hw.railAt + s.stepDelay x.step ≤ s.clk.ac) ∧ (s.stepBelow x.step = some j)) ∧
    (∃ s : State, ∃ x : RailDown, (s.hw.railDown = some x) ∧ (s.hw.railAt + s.stepDelay x.step ≤ s.clk.ac) ∧ (s.stepBelow x.step = none)) ∧
    (∃ s : State, (s.hw.railDown = none) ∧ (s.hw.sensing = true) ∧ (s.hw.railAt + 500 ≤ s.clk.ac)) ∧
    (∃ s : State, ∃ j : Nat, ∃ k : Nat, (s.hw.alive = true) ∧ (s.hw.railsUp = false) ∧ (s.hw.railDown = none) ∧ (s.railStepNow = some k) ∧ (s.hw.railAt + 4 + s.stepDelay k ≤ s.clk.ac) ∧ (s.nextStep (k + 1) = some j)) ∧
    (∃ s : State, ∃ k : Nat, (s.hw.alive = true) ∧ (s.hw.railsUp = false) ∧ (s.hw.railDown = none) ∧ (s.railStepNow = some k) ∧ (s.hw.railAt + 4 + s.stepDelay k ≤ s.clk.ac) ∧ (s.nextStep (k + 1) = none)) ∧
    (∃ s : State, ∃ k : Nat, (s.hw.alive = true) ∧ (s.hw.railsUp = false) ∧ (s.railStepNow = some k) ∧ (s.clk.ac < s.hw.railAt + 4 + s.stepDelay k)) ∧
    (∃ s : State, (s.hw.alive = true) ∧ (s.is PWR_SEQ_STAT_TABLE_VALID d0 = false)) ∧
    (∃ s : State, ∃ r : Fin 24, (s.hw.alive = true) ∧ (s.hw.railsUp = true) ∧ (s.hw.railDown = none) ∧ (s.hw.powerGood.getLsbD r.val = true) ∧ (s.get PWR_RAIL_CFG_STEP (d0i r.val) ≠ 15) ∧ (s.hw.railAt + 4 ≤ s.clk.ac)) ∧
    (∃ s : State, ∃ r : Fin 24, (s.hw.alive = true) ∧ (s.hw.railsUp = false) ∧ (s.hw.railDown = none) ∧ (s.railStepNow = some (s.get PWR_RAIL_CFG_STEP (d0i r.val))) ∧ (s.hw.powerGood.getLsbD r.val = false) ∧ (s.hw.railAt + s.railTimeout r.val ≤ s.clk.ac)) ∧
    (∃ s : State, ∃ r : Fin 24, ∃ b : Bool, (s.hw.alive = true) ∧ (s.railEnable r.val = false ∨ (b = true ∧ s.hw.powerGood.getLsbD r.val = false))) ∧
    (∃ s : State, (s.hw.alive = true) ∧ (s.get HW_RST_CAUSE_CAUSE d0 = 2 ^ 5) ∧ (s.hw.railStep = none) ∧ (s.hw.railDown = none) ∧ (s.hw.sensing = false) ∧ (s.hw.railsUp = false) ∧ (s.hw.off = false) ∧ (s.hw.faults < 3) ∧ (s.hw.railAt + 25000000 ≤ s.clk.ac)) :=
  ⟨⟨r0, 300, by decide⟩,
   ⟨r0, 25000, by decide⟩,
   ⟨State.reset.setHw fun h => { h with pinHold := true, railStep := none, resetLow := true }, 2500, by decide⟩,
   ⟨r0, true, 249, by decide⟩,
   ⟨r0, 3#32, by decide⟩,
   ⟨r0, 1#32, by decide⟩,
   ⟨(railsOn.setHw fun h => { h with req := some .regWarm }).setByte 0x100000000 7, .regWarm, by decide⟩,
   ⟨(railsOn.setHw fun h => { h with req := some .regCold }).setByte 0x100000000 7, .regCold, by decide⟩,
   ⟨r0.setHw fun h => { h with alive := false }, by decide⟩,
   ⟨r0.setByte 5 5, by decide⟩,
   ⟨{ (railsIn.setHw fun h => { h with railStep := none, railDown := some ⟨3, 15⟩ }) with clk := { ((railsIn.setHw fun h => { h with railStep := none, railDown := some ⟨3, 15⟩ })).clk with ac := 50000 } }, ⟨3, 15⟩, 1, by decide⟩,
   ⟨{ (railsIn.setHw fun h => { h with railStep := none, railDown := some ⟨1, 15⟩ }) with clk := { ((railsIn.setHw fun h => { h with railStep := none, railDown := some ⟨1, 15⟩ })).clk with ac := 50000 } }, ⟨1, 15⟩, by decide⟩,
   ⟨{ (railsIn.setHw fun h => { h with railStep := none, sensing := true }) with clk := { ((railsIn.setHw fun h => { h with railStep := none, sensing := true })).clk with ac := 500 } }, by decide⟩,
   ⟨{ railsIn with clk := { (railsIn).clk with ac := 50000 } }, 3, 1, by decide⟩,
   ⟨{ (railsIn.setHw fun h => { h with railStep := some 3 }) with clk := { ((railsIn.setHw fun h => { h with railStep := some 3 })).clk with ac := 50000 } }, 3, by decide⟩,
   ⟨{ railsIn with clk := { (railsIn).clk with ac := 3 } }, 1, by decide⟩,
   ⟨State.reset, by decide⟩,
   ⟨{ (railsIn.setHw fun h => { h with railsUp := true, powerGood := 1 }) with clk := { ((railsIn.setHw fun h => { h with railsUp := true, powerGood := 1 })).clk with ac := 4 } }, 0, by decide⟩,
   ⟨{ railsIn with clk := { (railsIn).clk with ac := 2500000 } }, 0, by decide⟩,
   ⟨r0, 0, true, by decide⟩,
   ⟨{ ((State.reset.put HW_RST_CAUSE_CAUSE d0 32).setHw fun h => { h with railStep := none, faults := 1 }) with clk := { (((State.reset.put HW_RST_CAUSE_CAUSE d0 32).setHw fun h => { h with railStep := none, faults := 1 })).clk with ac := 25000000 } }, by decide⟩⟩
theorem wit_PowerRailsFusesAndBootComplete :
    (∃ s : State, (s.running = true) ∧ (s.is PWR_PMB_CMD_BUSY d0 = false)) ∧
    (∃ s : State, ∃ j : PmbJob, ∃ l : List PmbJob, (s.hw.alive = true) ∧ (s.hw.pmb = j :: l) ∧ (j.avs = false)) ∧
    (∃ s : State, ∃ j : PmbJob, ∃ l : List PmbJob, (s.hw.alive = true) ∧ (s.hw.pmb = j :: l) ∧ (j.avs = false) ∧ (3 ≤ j.kind) ∧ (j.pec = true)) ∧
    (∃ s : State, ∃ j : PmbJob, ∃ l : List PmbJob, (s.hw.alive = true) ∧ (s.hw.pmb = j :: l) ∧ (j.avs = true)) ∧
    (∃ s : State, ∃ j : PmbJob, ∃ l : List PmbJob, (s.hw.alive = true) ∧ (s.hw.pmb = j :: l) ∧ (j.avs = false)) ∧
    (∃ s : State, ∃ v : Word, ∃ m : Byte, (s.running = true) ∧ (s.is PWR_AVS_CFG_EN d0 = false) ∧ (bits v 31 31 = 1) ∧ (m.toNat / 32 = 0)) ∧
    (∃ s : State, ∃ v : Word, ∃ m : Byte, (s.running = true) ∧ (s.is PWR_AVS_CFG_EN d0 = false) ∧ (bits v 31 31 = 1) ∧ (m.toNat / 32 ≠ 0)) ∧
    (∃ s : State, ∃ v : Word, (s.running = true) ∧ (bits v 31 31 = 0)) ∧
    (∃ s : State, (s.hw.alive = true) ∧ (s.hw.avs.run = true) ∧ (s.leastMargin + s.get PWR_AVS_CFG_HYST d0 < s.get PWR_AVS_CFG_TARGET d0) ∧ (s.hw.avs.cap = none)) ∧
    (∃ s : State, (s.hw.alive = true) ∧ (s.hw.avs.run = true) ∧ (s.get PWR_AVS_CFG_TARGET d0 + s.get PWR_AVS_CFG_HYST d0 < s.leastMargin)) ∧
    (∃ s : State, ∃ k : Fin 7, ∃ v : Word, (s.running = true) ∧ (s.hw.burn = none) ∧ (bits v 15 0 = 0xA5C3) ∧ (s.fuseErr k.val (bits v 23 16) = 0)) ∧
    (∃ s : State, ∃ k : Fin 7, ∃ v : Word, (s.running = true) ∧ (s.hw.burn = none) ∧ (bits v 15 0 = 0xA5C3) ∧ (s.fuseErr k.val (bits v 23 16) ≠ 0)) ∧
    (∃ s : State, ∃ v : Word, (s.running = true) ∧ (s.hw.burn = none) ∧ (bits v 15 0 ≠ 0xA5C3)) ∧
    (∃ s : State, ∃ k : Nat, ∃ a : Nat, (s.hw.alive = true) ∧ (s.hw.burn = some (k, a))) ∧
    (∃ s : State, ∃ k : Nat, ∃ a : Nat, (s.hw.alive = true) ∧ (s.hw.burn = some (k, a))) ∧
    (∃ s : State, (s.hw.alive = true) ∧ (s.hw.burn = none) ∧ (s.hw.fuses.lifecycle = 0) ∧ (s.hw.fuses.rails = none)) ∧
    (∃ s : State, ∃ l : List Byte, (s.hw.alive = true) ∧ (s.hw.railsUp = true) ∧ (s.hw.boot = none) ∧ (s.hw.slot < 2) ∧ (s.hw.fuses.lifecycle ≠ 3) ∧ (s.hw.fuses.earlyErr l = 0) ∧ (s.hw.fuses.signed l = true)) ∧
    (∃ s : State, ∃ l : List Byte, ∃ e : Nat, (s.hw.alive = true) ∧ (s.hw.railsUp = true) ∧ (s.hw.boot = none) ∧ (s.hw.slot < 2) ∧ (s.hw.fuses.lifecycle ≠ 3) ∧ (s.hw.fuses.earlyErr l = e) ∧ (e ≠ 0)) ∧
    (∃ s : State, ∃ b : BootImage, (s.hw.alive = true) ∧ (s.hw.boot = some b) ∧ (s.get HW_BOOT_STAT_STATE d0 ≠ 2) ∧ (s.hw.tempCheck = false)) :=
  ⟨⟨r0, by decide⟩,
   ⟨r0.setHw fun h => { h with pmb := [⟨false, 1, 1, 2, 3, true⟩] }, ⟨false, 1, 1, 2, 3, true⟩, [], by decide⟩,
   ⟨r0.setHw fun h => { h with pmb := [⟨false, 3, 1, 2, 3, true⟩] }, ⟨false, 3, 1, 2, 3, true⟩, [], by decide⟩,
   ⟨r0.setHw fun h => { h with pmb := [⟨true, 2, 1, 0x21, 3, true⟩] }, ⟨true, 2, 1, 0x21, 3, true⟩, [], by decide⟩,
   ⟨r0.setHw fun h => { h with pmb := [⟨false, 3, 1, 2, 3, false⟩] }, ⟨false, 3, 1, 2, 3, false⟩, [], by decide⟩,
   ⟨r0, 0xA0501101#32, 0x14#8, by decide⟩,
   ⟨r0, 0xA0501101#32, 0x54#8, by decide⟩,
   ⟨r0.put PWR_AVS_CFG_EN d0 1, 0x20501101#32, by decide⟩,
   ⟨((((r0.put SENS_MARGIN_V (onDie 0) 20).put PWR_AVS_CFG_TARGET d0 40).put PWR_AVS_LIM_VMAX_MV d0 900).put PWR_AVS_CFG_STEP d0 2).put PWR_AVS_STAT_VOUT_MV d0 800 |>.setHw fun h => { h with avs := { run := true, exp := -12, v := 800 } }, by decide⟩,
   ⟨(((r0.put PWR_AVS_LIM_VMIN_MV d0 700).put PWR_AVS_CFG_STEP d0 2).put PWR_AVS_STAT_VOUT_MV d0 800 |>.setHw fun h => { h with avs := { run := true, exp := -12, v := 800 } }) |> fun s => (List.range 8).foldl (fun (s : State) d => s.put SENS_MARGIN_V (onDie d) 200) (s.put PWR_AVS_CFG_TARGET d0 40), by decide⟩,
   ⟨r0, 0, 0x8000A5C3#32, by decide⟩,
   ⟨r0, 1, 0x8000A5C3#32, by decide⟩,
   ⟨r0, 0x8000A5C4#32, by decide⟩,
   ⟨r0.setHw fun h => { h with burn := some (3, 2) }, 3, 2, by decide⟩,
   ⟨r0.setHw fun h => { h with burn := some (3, 2) }, 3, 2, by decide⟩,
   ⟨r0, by decide⟩,
   ⟨railsOn, bootImg, by decide⟩,
   ⟨railsOn, [1, 2], 1, by decide⟩,
   ⟨railsOn.setHw fun h => { h with boot := some ⟨0, 5, 2, 0x100000000, 4⟩ }, ⟨0, 5, 2, 0x100000000, 4⟩, by decide⟩⟩
theorem wit_DiePowerStatesComplete :
    (∃ s : State, ∃ d : Die, ∃ h : BitVec 24, ∃ x : Fin 16, ∃ n : Nat, ∃ g : Nat, (s.hw.alive = true) ∧ (s.is PWR_DIE_CFG_EN (d0i d.val) = true) ∧ (s.powerState d.val = 0 ∨ (s.powerState d.val = 1 ∧ exitCount d.val 1 + s.get PWR_DIE_CFG_GUARD (d0i d.val) < (s.horizon d.val h.toNat x.val).1)) ∧ (s.idle d.val = true) ∧ (s.wakes d.val = false) ∧ (s.sleepChoice d.val (s.horizon d.val h.toNat x.val).1 (s.idleTime d.val n) = some g)) ∧
    (∃ s : State, ∃ d : Die, ∃ h : BitVec 24, ∃ x : Fin 16, ∃ n : Nat, ∃ g : Nat, (s.hw.alive = true) ∧ (s.is PWR_DIE_CFG_EN (d0i d.val) = true) ∧ (s.powerState d.val = 0) ∧ (s.idle d.val = true) ∧ (s.wakes d.val = false) ∧ (s.sleepChoice d.val (s.horizon d.val h.toNat x.val).1 (s.idleTime d.val n) = some g)) ∧
    (∃ s : State, ∃ d : Die, ∃ h : BitVec 24, ∃ x : Fin 16, ∃ y : Option (Fin 16 × BitVec 8), ∃ w : Nat × Nat, (s.hw.alive = true) ∧ (s.powerState d.val = 1) ∧ (lowestWake (s.wakeSources d.val (s.horizon d.val h.toNat x.val).1 (y.map fun v => (v.1.val, v.2.toNat))) = some w)) ∧
    (∃ s : State, ∃ d : Nat, (present s.part d = true) ∧ (d < 8)) ∧
    (∃ s : State, ∃ d : Die, (s.hw.alive = true) ∧ (s.hw.railsUp = true) ∧ (s.powerState d.val = 4) ∧ (Tab.get s.pwr.goal 0 d.val < 8)) ∧
    (∃ s : State, ∃ d : Die, ∃ h : BitVec 24, ∃ x : Fin 16, ∃ w : Nat × Nat, (s.hw.alive = true) ∧ (s.hw.railsUp = true) ∧ (1 ≤ s.powerState d.val ∧ s.powerState d.val ≤ 3) ∧ (lowestWake (s.wakeSources d.val (s.horizon d.val h.toNat x.val).1 none) = some w)) ∧
    (∃ s : State, ∃ d : Die, ∃ h : BitVec 24, ∃ x : Fin 16, (s.hw.alive = true) ∧ (s.hw.railsUp = true) ∧ (1 ≤ s.powerState d.val ∧ s.powerState d.val ≤ 3) ∧ (s.is PWR_DIE_CFG_EN (d0i d.val) = true) ∧ ((s.horizon d.val h.toNat x.val).1 ≤ exitCount d.val (s.powerState d.val) + s.get PWR_DIE_CFG_GUARD (d0i d.val)) ∧ ((Tab.get s.pwr.wake none d.val).all (fun w => decide (1 < w.1)) = true)) ∧
    (∃ s : State, ∃ d : Die, (s.hw.alive = true) ∧ (s.hw.railsUp = true) ∧ (s.powerState d.val = 5) ∧ (Tab.get s.pwr.goal 0 d.val ≠ 3)) ∧
    (∃ s : State, ∃ d : Die, (s.hw.alive = true) ∧ (s.hw.railsUp = true) ∧ (s.powerState d.val = 5) ∧ (Tab.get s.pwr.goal 0 d.val = 3) ∧ ((linksOf s.part d.val).all (fun l => s.fenced (if linkLow l = d.val then linkHigh l else linkLow l) || s.routerOff (if linkLow l = d.val then linkHigh l else linkLow l) || s.linkUp l) = true)) ∧
    (∃ s : State, ∃ d : Die, (s.hw.alive = true) ∧ (s.hw.railsUp = true) ∧ (s.powerState d.val = 5) ∧ (Tab.get s.pwr.goal 0 d.val = 3) ∧ ((linksOf s.part d.val).all (fun l => s.fenced (if linkLow l = d.val then linkHigh l else linkLow l) || s.routerOff (if linkLow l = d.val then linkHigh l else linkLow l) || s.linkUp l) = false)) ∧
    (∃ k : Nat, (k < 8)) ∧
    (∃ s : State, (s.running = true)) ∧
    (∃ s : State, ∃ d : Die, ∃ v : Word, (s.running = true) ∧ (bits v 0 0 = 1) ∧ (s.powerState d.val ≠ 0) ∧ (Tab.get s.pwr.wake none d.val = none)) ∧
    (∃ s : State, ∃ m : MacPort, ∃ e : WakeEvent, (s.hw.alive = true) ∧ (s.laneOn m = true) ∧ (s.wakeMode m = 0) ∧ (s.powerState m.die ≠ 0) ∧ (Tab.get s.pwr.wake none m.die = none) ∧ (e = .start ∨ e = .lpiEnd ∨ e = .link)) ∧
    (∃ s : State, ∃ m : MacPort, ∃ l : List Byte, (s.hw.alive = true) ∧ (s.laneOn m = true) ∧ (s.wakeMode m = 1) ∧ (s.patternMatch m.die l = true) ∧ (s.powerState m.die ≠ 0) ∧ (Tab.get s.pwr.wake none m.die = none)) ∧
    (∃ s : State, ∃ m : MacPort, ∃ e : WakeEvent, (s.hw.alive = true) ∧ (s.laneOn m = false ∨ s.wakeMode m = 2 ∨ (s.wakeMode m = 1 ∧ (e = .start ∨ e = .lpiEnd ∨ e = .link)))) ∧
    (∃ s : State, ∃ m : MacPort, ∃ l : List Byte, (s.hw.alive = true) ∧ (s.wakeMode m = 0 ∨ s.patternMatch m.die l = false)) ∧
    (∃ s : State, ∃ m : MacPort, (s.running = true) ∧ (s.powerState m.die = 0)) ∧
    (∃ s : State, ∃ v : Word, (s.running = true) ∧ (bits v 0 0 = 1)) ∧
    (∃ s : State, ∃ d : Die, ∃ r : MeshReq, ∃ h : Nat, (s.running = true) ∧ (s.mesh.held = [(d.val, .request r)]) ∧ (r.addr.toNat / 2 ^ 36 < 8) ∧ (s.route (reqDie r.req) d.val = .clear h) ∧ (r.addr.toNat / 2 ^ 36 = d.val) ∧ (r.write = true) ∧ ((s.memWrite d.val (r.addr.toNat % 2 ^ 36) (2 ^ r.log2) (r.data.toNat % 256 ^ (2 ^ r.log2))).isSome = true) ∧ (r.addr.toNat % 2 ^ 36 < 0xF00000000)) ∧
    (∃ s : State, ∃ v : Word, (s.running = true) ∧ (s.hw.off = false) ∧ (bits v 31 31 = 1) ∧ (bits v 15 0 = 0x5AF0)) ∧
    (∃ s : State, ∃ v : Word, (s.running = true) ∧ (s.hw.off = false) ∧ (bits v 31 31 = 1) ∧ (bits v 15 0 = 0x5AF0)) ∧
    (∃ s : State, ∃ n : Nat, (s.hw.alive = true) ∧ (s.hw.off = true) ∧ (s.hw.railDown = none) ∧ (s.hw.thermalOff = false) ∧ (3 ≤ n)) ∧
    (∃ s : State, ∃ n : Nat, (s.hw.alive = true) ∧ (s.hw.off = true) ∧ (s.hw.railDown = none) ∧ (3 ≤ n)) ∧
    (∃ s : State, ∃ n : Nat, (s.hw.alive = true) ∧ (s.hw.off = true) ∧ (s.hw.railDown = none) ∧ (s.hw.thermalOff = false) ∧ (s.is PWR_OFF_CTL_TMR_EN d0 = true) ∧ (s.get PWR_OFF_TMR_V d0 ≤ n)) ∧
    (∃ s : State, ∃ k : Fin 3, ∃ n : Nat, (s.hw.alive = true) ∧ (s.hw.off = false ∨ s.hw.railDown.isSome = true ∨ (k.val ≠ 2 ∧ n < 3) ∨ (k.val ≠ 1 ∧ s.hw.thermalOff = true) ∨ (k.val = 2 ∧ (s.is PWR_OFF_CTL_TMR_EN d0 = false ∨ n < s.get PWR_OFF_TMR_V d0)))) ∧
    (∃ s : State, (s.hw.alive = true) ∧ (s.hw.off = false) ∧ (s.hw.railsUp = true) ∧ (present s.part 6 = true) ∧ (s.powerState 6 ≠ 0) ∧ (Tab.get s.pwr.wake none 6 = none)) ∧
    (∃ s : State, (s.hw.alive = true) ∧ (s.hw.off = false) ∧ (s.hw.railsUp = false) ∧ (s.hw.railStep = none) ∧ (s.hw.railDown = none) ∧ (s.hw.sensing = false) ∧ (s.hw.pinHold = false) ∧ (3 ≤ s.hw.faults)) ∧
    (∃ s : State, (s.hw.alive = true) ∧ (s.hw.off = false) ∧ (s.allTemps.all (fun x => decide (x < 1040)) = true) ∧ (s.get PWR_THERM_STAT_THROTTLE d0 ≠ 0)) ∧
    (∃ s : State, ∃ d : Nat, ∃ x : Int, (s.hw.alive = true) ∧ (s.hw.off = false) ∧ (d < 8) ∧ (present s.part d = true) ∧ (x ∈ s.temps d) ∧ (1200 ≤ x) ∧ (s.allTemps.all (fun y => decide (y < 1240)) = true)) ∧
    (∃ s : State, ∃ d : Nat, ∃ x : Int, (s.hw.alive = true) ∧ (s.hw.off = false) ∧ (d < 8) ∧ (present s.part d = true) ∧ (x ∈ s.temps d) ∧ (1240 ≤ x) ∧ (1 ≤ s.hw.hot155)) ∧
    (∃ s : State, ∃ n : Nat, (s.hw.alive = true) ∧ (s.hw.off = true) ∧ (s.hw.railDown = none) ∧ (s.hw.thermalOff = true) ∧ (327680 ≤ n)) ∧
    (∃ s : State, ∃ n : Nat, (s.hw.alive = true) ∧ (n < 327680)) ∧
    (∃ s : State, ∃ d : Die, ∃ k : Fin 8, (s.hw.alive = true) ∧ (s.unitHeld d.val (pmcBank d.val) = false) ∧ (d = 0 ∧ k = 0) ∧ (s.hw.off = false) ∧ (s.hw.railsUp = true) ∧ (s.hw.tempCheck = true) ∧ (sensorTurn (Tab.get s.pmc.conv 0 0) = 0)) :=
  ⟨⟨idle6, 6, 0x10000#24, 1, 5000, 3, by decide⟩,
   ⟨idle6, 6, 0x10000#24, 1, 5000, 3, by decide⟩,
   ⟨(r0.setPowerState 6 1).setPwr fun p => { p with wake := [(6, some (4, 9))] }, 6, 0, 1, some (2, 7), (2, 7), by decide⟩,
   ⟨idle6, 6, by decide⟩,
   ⟨(idle6.setPowerState 6 4).setPwr fun p => { p with goal := [(6, 3)] }, 6, by decide⟩,
   ⟨(r0.setPowerState 6 2).setPwr fun p => { p with wake := [(6, some (2, 5))] }, 6, 0, 1, (2, 5), by decide⟩,
   ⟨((idle6.setPowerState 6 2).put DMA_STAT_STATE (place 6 0) 3).wrEff DMA_CFG (place 6 0) 0x04000000, 6, 5, 4, by decide⟩,
   ⟨(r0.setPowerState 6 5).setPwr fun p => { p with goal := [(6, 2)] }, 6, by decide⟩,
   ⟨(allLinks.setPowerState 6 5).setPwr fun p => { p with goal := [(6, 3)], banks := [(49, 7)] }, 6, by decide⟩,
   ⟨(r0.setPowerState 6 5).setPwr fun p => { p with goal := [(6, 3)] }, 6, by decide⟩,
   ⟨1, by decide⟩,
   ⟨r0.put PWR_RET_LOST_V (d0i 6) 7, by decide⟩,
   ⟨r0.setPowerState 6 2, 6, 1#32, by decide⟩,
   ⟨((r0.setPowerState 2 2).put LANE_SUB_CFG_EN (atPort 3) 1), .port 3, .lpiEnd, by decide⟩,
   ⟨((r0.setPowerState 2 2).put LANE_SUB_CFG_EN (atPort 3) 1).put PWR_PORT_WAKE_MODE (d0i 3) 1, .port 3, [], by decide⟩,
   ⟨(r0.setPowerState 2 2), .port 3, .start, by decide⟩,
   ⟨(r0.setPowerState 2 2), .port 3, [], by decide⟩,
   ⟨r0, .port 3, by decide⟩,
   ⟨r0, 1#32, by decide⟩,
   ⟨{ r0 with mesh := { r0.mesh with held := [(0, .request ⟨.core 3, .monitor, true, 0x100000008#40, 2, 7⟩)] } }, 0, ⟨.core 3, .monitor, true, 0x100000008#40, 2, 7⟩, 0, by decide⟩,
   ⟨railsOn, 0xC0005AF0#32, by decide⟩,
   ⟨railsOn, 0xC0005AF0#32, by decide⟩,
   ⟨railsOn.setHw fun h => { h with off := true }, 3, by decide⟩,
   ⟨railsOn.setHw fun h => { h with off := true }, 3, by decide⟩,
   ⟨(railsOn.setHw fun h => { h with off := true }).put PWR_OFF_CTL_TMR_EN d0 1, 9, by decide⟩,
   ⟨railsOn.setHw fun h => { h with off := true }, 0, 2, by decide⟩,
   ⟨railsOn.setPowerState 6 2, by decide⟩,
   ⟨r0.setHw fun h => { h with railsUp := false, railStep := none, faults := 3 }, by decide⟩,
   ⟨r0.put PWR_THERM_STAT_THROTTLE d0 2, by decide⟩,
   ⟨(r0.put SENS_TEMP_VALID (onDie 2) 1).put SENS_TEMP_VALUE (onDie 2) 1210, 2, 1210, by decide⟩,
   ⟨((r0.put SENS_TEMP_VALID (onDie 2) 1).put SENS_TEMP_VALUE (onDie 2) 1250).setHw fun h => { h with hot155 := 1 }, 2, 1250, by decide⟩,
   ⟨r0.setHw fun h => { h with off := true, thermalOff := true }, 327680, by decide⟩,
   ⟨r0.setHw fun h => { h with off := true, thermalOff := true }, 100, by decide⟩,
   ⟨r0.setHw fun h => { h with tempCheck := true }, 0, 0, by decide⟩⟩
theorem wit_PonPowerSavingAndCountersComplete :
    (∃ s : State, ∃ v : Word, (s.running = true) ∧ (bits v 0 0 = 1)) ∧
    (∃ s : State, ∃ v : Word, (s.running = true) ∧ (bits v 31 31 = 1)) ∧
    (∃ s : State, ∃ c : Chan, ∃ v : Word, (s.running = true) ∧ (s.psPhase c.val ≠ 0) ∧ (bits v 30 30 = 1)) ∧
    (∃ s : State, ∃ c : Chan, (s.running = true) ∧ (s.psPhase c.val = 1) ∧ (Tab.get s.pwr.psLeft 0 c.val = 0) ∧ (s.getEff PWR_PS_CFG_MODE (d0i c.val) = 3)) ∧
    (∃ s : State, ∃ c : Chan, (s.running = true) ∧ (s.psPhase c.val = 1) ∧ (Tab.get s.pwr.psLeft 0 c.val = 0) ∧ (s.getEff PWR_PS_CFG_MODE (d0i c.val) ≠ 3)) ∧
    (∃ s : State, ∃ c : Chan, (s.running = true) ∧ (2 ≤ s.psPhase c.val) ∧ (Tab.get s.pwr.psLeft 0 c.val = 0)) ∧
    (∃ s : State, ∃ c : Chan, (s.running = true) ∧ (s.psPhase c.val = 1) ∧ (s.is PWR_PS_STAT_RX_ON (d0i c.val) = false)) ∧
    (∃ s : State, ∃ c : Chan, (s.running = true) ∧ (s.psPhase c.val ≠ 0) ∧ ((s.conv c.val).fwi = true ∨ Tab.get s.pwr.lwi false c.val = true ∨ Tab.get s.pwr.rxFail false c.val = true)) ∧
    (∃ s : State, ∃ lv : Level, ∃ d : Die, ∃ v : Word, (s.running = true) ∧ (lv ≠ .user) ∧ (present s.part d.val = true) ∧ (bits v 31 31 = 1) ∧ (1 ≤ (s.rd PMC_ARM_AT (onDie d.val) - BitVec.ofNat 32 s.clk.mc).toNat) ∧ ((s.rd PMC_ARM_AT (onDie d.val) - BitVec.ofNat 32 s.clk.mc).toNat < 2 ^ 31)) ∧
    (∃ s : State, ∃ d : Die, ∃ o : Bool, ∃ n : Nat, (s.unitRuns d.val (pmcBank d.val) = true) ∧ (Tab.get s.pmc.armed none d.val = some (o, n)) ∧ (s.clk.mc % 2 ^ 32 = n)) ∧
    (∃ s : State, ∃ lv : Level, ∃ d : Die, ∃ u : Fin 16, ∃ n : Fin 9, (s.running = true) ∧ (n.val < 8) ∧ (s.hasUnit d.val u.val = true) ∧ (lv ≠ .user ∨ s.is PMC_CTL_USER_RD (place d.val u.val) = true)) ∧
    (∃ s : State, ∃ lv : Level, ∃ d : Die, ∃ u : Fin 16, (s.running = true) ∧ (s.hasUnit d.val u.val = true) ∧ (lv ≠ .user ∨ s.is PMC_CTL_USER_RD (place d.val u.val) = true)) ∧
    (∃ s : State, ∃ lv : Level, ∃ d : Die, ∃ u : Fin 16, ∃ n : Fin 8, ∃ h : Word, (s.running = true) ∧ (lv ≠ .user) ∧ (s.hasUnit d.val u.val = true) ∧ (Tab.get s.pmc.held none (heldKey d.val u.val n.val) = some h)) ∧
    (∃ s : State, ∃ d : CourseDie, (s.islandRuns (courseIdx d) 7 = true) ∧ (present s.part (courseIdx d) = true) ∧ (s.time.run = true) ∧ (s.isEff PMC_BW_CFG_EN (onDie (courseIdx d)) = true) ∧ (s.getEff PMC_BW_CFG_WIN_US (onDie (courseIdx d)) ≠ 0) ∧ (1000000 % s.getEff PMC_BW_CFG_WIN_US (onDie (courseIdx d)) = 0) ∧ (s.pmc.due.contains (courseIdx d) = true)) ∧
    (∃ s : State, ∃ d : CourseDie, (s.islandRuns (courseIdx d) 7 = true) ∧ (s.isEff PMC_BW_CFG_EN (onDie (courseIdx d)) = true) ∧ (s.getEff PMC_BW_CFG_WIN_US (onDie (courseIdx d)) ≠ 0) ∧ (1000000 % s.getEff PMC_BW_CFG_WIN_US (onDie (courseIdx d)) = 0) ∧ (s.pmc.due.contains (courseIdx d) = false)) ∧
    (∃ s : State, ∃ lv : Level, ∃ d : CourseDie, ∃ v : Word, (s.running = true) ∧ (lv ≠ .user) ∧ (present s.part (courseIdx d) = true) ∧ (bits v 31 31 = 1) ∧ (bits v 2 0 ≠ 0)) ∧
    (∃ s : State, ∃ lv : Level, ∃ d : CourseDie, ∃ v : Word, (s.running = true) ∧ (lv ≠ .user) ∧ (present s.part (courseIdx d) = true) ∧ (bits v 31 31 = 1) ∧ (bits v 2 0 = 0) ∧ (s.pmc.due.contains (courseIdx d) = false)) ∧
    (∃ s : State, ∃ d : Die, ∃ k : Fin 8, (s.hw.alive = true) ∧ (s.unitHeld d.val (pmcBank d.val) = false) ∧ (present s.part d.val = true) ∧ (s.hw.off = false) ∧ (d.val ≠ 0 ∨ k.val ≠ 0 ∨ s.hw.tempCheck = false) ∧ (k.val < 4) ∧ (k.val = sensorTurn (Tab.get s.pmc.conv 0 d.val))) ∧
    (∃ s : State, ∃ d : Die, ∃ k : Fin 8, (s.hw.alive = true) ∧ (s.unitHeld d.val (pmcBank d.val) = false) ∧ (present s.part d.val = true) ∧ (s.hw.off = false) ∧ (4 ≤ k.val) ∧ (k.val = sensorTurn (Tab.get s.pmc.conv 0 d.val))) ∧
    (∃ s : State, ∃ d : Die, ∃ k : Fin 8, (s.hw.alive = true) ∧ (s.unitHeld d.val (pmcBank d.val) = false) ∧ (k.val ≠ sensorTurn (Tab.get s.pmc.conv 0 d.val))) ∧
    (∃ s : State, ∃ d : Die, (s.islandRuns d.val 0 = true) ∧ (6 ≤ d.val) ∧ (present s.part d.val = true) ∧ (s.get RSV_STAT_REF_MODE (onDie d.val) < (s.temps d.val).foldl (fun m x => Nat.max m (refMode x)) 0)) ∧
    (∃ s : State, ∃ d : Die, ∃ n : Nat, (s.islandRuns d.val 0 = true) ∧ (6 ≤ d.val) ∧ (present s.part d.val = true) ∧ ((s.temps d.val).foldl (fun m x => Nat.max m (refMode x)) 0 ≤ s.get RSV_STAT_REF_MODE (onDie d.val)) ∧ (0 < s.get RSV_STAT_REF_MODE (onDie d.val)) ∧ (Tab.get (s.guard d.val 0).cool none (s.get RSV_STAT_REF_MODE (onDie d.val)) = some n) ∧ (n + 1000000 ≤ s.clk.rc) ∧ (s.cooled d.val (s.get RSV_STAT_REF_MODE (onDie d.val)) = true)) :=
  ⟨⟨r0, 1#32, by decide⟩,
   ⟨r0, 0x80000000#32, by decide⟩,
   ⟨r0.put PWR_PS_STAT_PHASE (d0i 1) 1, 1, 0x40000000#32, by decide⟩,
   ⟨(r0.put PWR_PS_STAT_PHASE (d0i 1) 1).put PWR_PS_CFG_MODE (d0i 1) 3 |>.commit PWR_PS_CFG (d0i 1), 1, by decide⟩,
   ⟨(r0.put PWR_PS_STAT_PHASE (d0i 1) 1).put PWR_PS_CFG_MODE (d0i 1) 2 |>.commit PWR_PS_CFG (d0i 1), 1, by decide⟩,
   ⟨(r0.put PWR_PS_STAT_PHASE (d0i 1) 2).put PWR_PS_CFG_MODE (d0i 1) 2 |>.commit PWR_PS_CFG (d0i 1), 1, by decide⟩,
   ⟨(r0.put PWR_PS_STAT_PHASE (d0i 1) 1).put PWR_PS_STAT_RX_ON (d0i 1) 0, 1, by decide⟩,
   ⟨(r0.put PWR_PS_STAT_PHASE (d0i 1) 1).setPwr fun p => { p with lwi := [(1, true)] }, 1, by decide⟩,
   ⟨r0.wr PMC_ARM_AT (onDie 2) 100, .supervisor, 2, 0xC0000000#32, by decide⟩,
   ⟨{ r0 with pmc := { r0.pmc with armed := [(2, some (true, 0))] } }, 2, true, 0, by decide⟩,
   ⟨r0.wr PMC_CNT_LO (place 2 3) 77, .supervisor, 2, 0, 3, by decide⟩,
   ⟨r0, .supervisor, 2, 0, by decide⟩,
   ⟨r0.setPmcHeld (heldKey 2 0 3) (some 5), .monitor, 2, 0, 3, 5, by decide⟩,
   ⟨{ (((r0.put PMC_BW_CFG_EN (onDie 2) 1).put PMC_BW_CFG_WIN_US (onDie 2) 1000).commit PMC_BW_CFG (onDie 2)) with time := { r0.time with run := true }, pmc := { r0.pmc with due := [2] } }, 0, by decide⟩,
   ⟨((r0.put PMC_BW_CFG_EN (onDie 2) 1).put PMC_BW_CFG_WIN_US (onDie 2) 1000).commit PMC_BW_CFG (onDie 2), 0, by decide⟩,
   ⟨r0, .monitor, 0, 0x80030001#32, by decide⟩,
   ⟨r0, .monitor, 0, 0x80030000#32, by decide⟩,
   ⟨{ r0 with pmc := { r0.pmc with conv := [(2, 6)] } }, 2, 3, by decide⟩,
   ⟨{ r0 with pmc := { r0.pmc with conv := [(2, 7)] } }, 2, 7, by decide⟩,
   ⟨r0, 2, 1, by decide⟩,
   ⟨(r0.put SENS_TEMP_VALID (onDie 6) 1).put SENS_TEMP_VALUE (onDie 6) 1010, 6, by decide⟩,
   ⟨{ ((r0.put RSV_STAT_REF_MODE (onDie 6) 1).setGuard 6 0 { r0.guard 6 0 with cool := [(1, some 5)] }) with clk := { r0.clk with rc := 1000005 } }, 6, 5, by decide⟩⟩
theorem wit_RegisterAccessesComplete :
    (∃ s : State, ∃ a : Addr, ∃ v : Word, ∃ lv : Level, ∃ d : Nat, ∃ r : Nat, ∃ i : Nat, (s.running = true) ∧ (s.regAt a = some (d, r, i)) ∧ (mayWrite r lv = true) ∧ (writeRows .tap lv d r i v = []) ∧ (plainReg r = true)) ∧
    (∃ s : State, ∃ a : Addr, ∃ v : Word, ∃ lv : Level, ∃ d : Nat, ∃ r : Nat, ∃ i : Nat, (s.running = true) ∧ (s.regAt a = some (d, r, i)) ∧ (mayWrite r lv = true) ∧ (writeRows .tap lv d r i v = []) ∧ (plainReg r = true)) ∧
    (∃ s : State, ∃ a : Addr, ∃ lv : Level, ∃ d : Nat, ∃ r : Nat, ∃ i : Nat, (s.running = true) ∧ (s.regAt a = some (d, r, i)) ∧ (mayWrite r lv = true)) ∧
    (∃ s : State, ∃ a : Addr, ∃ lv : Level, ∃ d : Nat, ∃ r : Nat, ∃ i : Nat, (s.running = true) ∧ (s.regAt a = some (d, r, i)) ∧ (mayWrite r lv = false)) ∧
    (∃ s : State, ∃ a : Addr, ∃ v : Word, ∃ lv : Level, ∃ d : Nat, ∃ r : Nat, ∃ i : Nat, ∃ f : State → Out, (s.running = true) ∧ (s.regAt a = some (d, r, i)) ∧ (mayWrite r lv = true) ∧ (writeRows .tap lv d r i v = [f])) ∧
    (∃ s : State, ∃ q : Requester, ∃ a : Addr, ∃ d : Nat, ∃ r : Nat, ∃ i : Nat, (s.running = true) ∧ (s.regAt a = some (d, r, i)) ∧ ((readRow q .monitor d r i).isNone = true) ∧ (storedReg r = true)) :=
  ⟨⟨r0, 0xf01c000b4#40, 5#32, .monitor, 0, CTL_GPIO_RISE, 0, by decide⟩,
   ⟨r0.wr CTL_GPIO_EVT d0 7, 0xf01c000bc#40, 3#32, .monitor, 0, CTL_GPIO_EVT, 0, by decide⟩,
   ⟨r0, 0xf01c000bc#40, .monitor, 0, CTL_GPIO_EVT, 0, by decide⟩,
   ⟨r0, 0xf00000020#40, .supervisor, 0, HW_RST_CTL, 0, by decide⟩,
   ⟨r0, 0xf01c000a8#40, 5#32, .monitor, 0, CTL_GPIO_SET, 0, execGpioSet 5#32, ⟨by decide, by decide, by decide, rfl⟩⟩,
   ⟨r0.wr CTL_ECC_CE (onDie 0) 7, .core 3, 0xf01c0000c#40, 0, CTL_ECC_CE, 0, by decide⟩⟩
theorem wit_MeshRequestsComplete :
    (∃ s : State, ∃ n : Fin 12, ∃ a : Addr, ∃ k : Fin 4, ∃ v : BitVec 64, ∃ h : Nat, (s.running = true) ∧ ((a.toNat / 2 ^ 36) < 8) ∧ (s.route (reqDie (.core n)) (a.toNat / 2 ^ 36) = .clear h) ∧ ((s.memWrite (a.toNat / 2 ^ 36) (a.toNat % 2 ^ 36) (2 ^ k.val) (v.toNat % 256 ^ (2 ^ k.val))).isSome = true)) ∧
    (∃ s : State, ∃ n : Fin 12, ∃ e : Ecc, ∃ a : Addr, ∃ h : Nat, (s.running = true) ∧ ((a.toNat / 2 ^ 36) < 8) ∧ (s.route (reqDie (.core n)) (a.toNat / 2 ^ 36) = .clear h) ∧ (s.region (a.toNat / 2 ^ 36) (a.toNat % 2 ^ 36) ≠ .unbacked) ∧ (eccBad e = false)) ∧
    (∃ s : State, ∃ n : Fin 12, ∃ e : Ecc, ∃ a : Addr, ∃ h : Nat, (s.running = true) ∧ ((a.toNat / 2 ^ 36) < 8) ∧ (s.route (reqDie (.core n)) (a.toNat / 2 ^ 36) = .clear h) ∧ (s.region (a.toNat / 2 ^ 36) (a.toNat % 2 ^ 36) ≠ .unbacked) ∧ (eccBad e = true)) ∧
    (∃ s : State, ∃ n : Fin 12, ∃ a : Addr, (s.running = true) ∧ ((a.toNat / 2 ^ 36) < 8) ∧ (s.route (reqDie (.core n)) (a.toNat / 2 ^ 36) = .absent)) ∧
    (∃ s : State, ∃ n : Fin 12, ∃ a : Addr, ∃ x : Nat, (s.running = true) ∧ ((a.toNat / 2 ^ 36) < 8) ∧ (s.route (reqDie (.core n)) (a.toNat / 2 ^ 36) = .asleep x) ∧ ((s.mesh.held.filter (fun x => x.1 == (a.toNat / 2 ^ 36) && x.2.requestOf (reqDie (.core n)))).length < 64)) ∧
    (∃ s : State, ∃ n : Fin 12, ∃ a : Addr, ∃ x : Nat, (s.running = true) ∧ ((a.toNat / 2 ^ 36) < 8) ∧ (s.route (reqDie (.core n)) (a.toNat / 2 ^ 36) = .asleep x) ∧ (64 ≤ (s.mesh.held.filter (fun x => x.1 == (a.toNat / 2 ^ 36) && x.2.requestOf (reqDie (.core n)))).length)) ∧
    (∃ s : State, ∃ n : Fin 12, ∃ a : Addr, ∃ h : Nat, (s.running = true) ∧ ((a.toNat / 2 ^ 36) < 8) ∧ (s.route (reqDie (.core n)) (a.toNat / 2 ^ 36) = .clear h) ∧ (a.toNat % 4 = 0) ∧ (target s.part (a.toNat / 2 ^ 36) (a.toNat % 2 ^ 36) = .hole)) ∧
    (∃ s : State, ∃ w : Bool, ∃ a : Addr, (s.hw.alive = true) ∧ ((a.toNat / 2 ^ 36) ≠ 0xF) ∧ (s.tapMay w a.toNat = false)) ∧
    (∃ s : State, (s.hw.alive = true) ∧ (s.hw.dbg.level = 0)) ∧
    (∃ s : State, ∃ y : ArrayAt, ∃ z : BitVec 64, (s.hw.alive = true) ∧ (s.hw.dbg.level ≠ 0) ∧ (present s.part y.die.val = true) ∧ (s.arrayWord y = some z)) ∧
    (∃ s : State, (s.hw.alive = true) ∧ (s.hw.dbg.level ≠ 0)) ∧
    (∃ s : State, ∃ n : Fin 12, ∃ e : ErrResp, (s.running = true) ∧ (s.mesh.errs.find? (fun e => e.req == .core n) = some e) ∧ (s.coreIssues n.val = true) ∧ ((s.core n.val).level = .monitor)) ∧
    (∃ s : State, ∃ d : Die, ∃ ch : Fin 32, ∃ e : ErrResp, (s.running = true) ∧ (s.mesh.errs.find? (fun e => e.req == .dma d ch) = some e) ∧ (s.dmaActive d.val ch.val = true)) ∧
    (∃ s : State, ∃ n : Fin 12, ∃ lv : Level, ∃ off : BitVec 36, ∃ v : Word, ∃ w : SpanWait, (s.running = true) ∧ (lv ≠ .user) ∧ (s.spanAt n.val = none) ∧ ((s.spanDeliver n.val (.core n) lv 0xFF off.toNat 4 v.toNat).spanAt n.val = some w) ∧ (w.waiting = 0)) ∧
    (∃ s : State, (s.running = true)) :=
  ⟨⟨r0, 3, 0x100000008#40, 2, 7, 0, by decide⟩,
   ⟨r0.setByte 0x100000008 7, 3, .clean, 0x100000008#40, 0, by decide⟩,
   ⟨r0.setByte 0x100000008 7, 3, .bad 0 0, 0x100000008#40, 0, by decide⟩,
   ⟨r0.put HW_DIE_MAP_FENCED d0 64, 3, 0x6000000008#40, by decide⟩,
   ⟨r0.put PWR_DIE_STAT_STATE (d0i 6) 2, 3, 0x6000000008#40, 6, by decide⟩,
   ⟨let s := r0.put PWR_DIE_STAT_STATE (d0i 6) 2; { s with mesh := { s.mesh with held := List.replicate 64 (6, .request ⟨.core 3, .monitor, true, 0x6000000008#40, 2, 7⟩) } }, 3, 0x6000000008#40, 6, by decide⟩,
   ⟨r0, 3, 0xF000FFFF0#40, 0, by decide⟩,
   ⟨r0, true, 0x100000008#40, by decide⟩,
   ⟨r0, by decide⟩,
   ⟨(r0.setDbg fun g => { g with level := 1 }).setPair 0 7 5 6, ⟨0, .pair 7, 0⟩, 5, by decide⟩,
   ⟨r0.setDbg fun g => { g with level := 2 }, by decide⟩,
   ⟨let s := coreAt .monitor {}; { s with mesh := { s.mesh with errs := [⟨.core 3, 0x6000000008#40, true⟩] } }, 3, ⟨.core 3, 0x6000000008#40, true⟩, by decide⟩,
   ⟨let s := r0.put DMA_STAT_STATE (place 2 3) 2; { s with mesh := { s.mesh with errs := [⟨.dma 2 3, 0x6000000008#40, true⟩] } }, 2, 3, ⟨.dma 2 3, 0x6000000008#40, true⟩, by decide⟩,
   ⟨r0, 3, .monitor, 0xf01c000b4#36, 5, ⟨1, 254, 0⟩, by decide⟩,
   ⟨r0, by decide⟩⟩
theorem wit_UartFifos :
    (∃ s : State, (s.hw.alive = true) ∧ (s.is CTL_UART_CFG_EN d0 = true) ∧ (s.ctl.uart.tx.length < 64)) ∧
    (∃ s : State, (s.hw.alive = true) ∧ (s.is CTL_UART_CFG_EN d0 = true) ∧ (64 ≤ s.ctl.uart.tx.length)) ∧
    (∃ s : State, (s.hw.alive = true) ∧ (s.is CTL_UART_CFG_EN d0 = true) ∧ (s.ctl.uart.rx.length < 64)) ∧
    (∃ s : State, (s.hw.alive = true) ∧ (s.is CTL_UART_CFG_EN d0 = true) ∧ (64 ≤ s.ctl.uart.rx.length)) ∧
    (∃ s : State, (s.hw.alive = true) ∧ (s.is CTL_UART_CFG_EN d0 = true)) ∧
    (∃ s : State, ∃ b : Byte, ∃ l : List Byte, (s.hw.alive = true) ∧ (s.ctl.uart.rx = b :: l)) ∧
    (∃ s : State, (s.hw.alive = true) ∧ (s.ctl.uart.rx = [])) ∧
    (∃ s : State, (s.ctl.uart.tx.length ≤ 64) ∧ (s.ctl.uart.rx.length ≤ 64)) :=
  ⟨⟨uartOn { tx := [1] }, by decide⟩,
   ⟨uartOn { tx := List.replicate 64 1 }, by decide⟩,
   ⟨uartOn { rx := [7] }, by decide⟩,
   ⟨uartOn { rx := List.replicate 64 7 }, by decide⟩,
   ⟨uartOn { rx := [7] }, by decide⟩,
   ⟨uartOn { rx := [7, 8] }, 7, [8], by decide⟩,
   ⟨r0, by decide⟩,
   ⟨uartOn { tx := List.replicate 64 1 }, by decide⟩⟩
theorem wit_PaceTriggersCount :
    (∃ s : State, ∃ d : Die, ∃ ch : Fin 32, (s.unitRuns d.val (dmaBank d.val) = true) ∧ ((s.dmaCh d.val ch.val).due ≠ 0) ∧ (s.get DMA_STAT_PACE_PEND (place d.val ch.val) < 255) ∧ ((s.dmaCh d.val ch.val).waits = false)) ∧
    (∃ s : State, ∃ d : Die, ∃ ch : Fin 32, (s.unitRuns d.val (dmaBank d.val) = true) ∧ ((s.dmaCh d.val ch.val).due ≠ 0) ∧ (s.get DMA_STAT_PACE_PEND (place d.val ch.val) = 255)) ∧
    (∃ s : State, ∃ d : Die, ∃ ch : Fin 32, (s.unitRuns d.val (dmaBank d.val) = true) ∧ ((s.dmaCh d.val ch.val).due ≠ 0) ∧ (s.get DMA_STAT_PACE_PEND (place d.val ch.val) < 255) ∧ ((s.dmaCh d.val ch.val).waits = true)) :=
  ⟨⟨(r0.put DMA_STAT_STATE (place 0 3) 2).setDma 0 3 { due := 1 }, 0, 3, by decide⟩,
   ⟨((r0.put DMA_STAT_STATE (place 0 3) 2).put DMA_STAT_PACE_PEND (place 0 3) 255).setDma 0 3 { due := 1 }, 0, 3, by decide⟩,
   ⟨(r0.put DMA_STAT_STATE (place 0 3) dmaPaceWait).setDma 0 3 { due := 1, waits := true }, 0, 3, by decide⟩⟩
theorem wit_MemoryByteFrames :
    (∃ s : State, ∃ x : Issue, ∃ u : Thread, ∃ m : Nat, (s.thread x.die.val x.thread.val = some u) ∧ (m = memAddr u (s.imemAt x.die.val (x.thread.val / 8) u.bank u.pc))) ∧
    (∃ s : State, ∃ x : Issue, (s.thread x.die.val x.thread.val = none)) ∧
    (∃ s : State, ∃ n : LineDie, ∃ q : Fin 2, ∃ op : Nat, ∃ x : LaDesc, ∃ l : List Byte, (s.laJob n.val q.val op x l)) :=
  ⟨⟨tileAt x1 um 0, x1, um, memAddr um ((tileAt x1 um 0).imemAt 0 0 um.bank um.pc), by decide⟩,
   ⟨r0, x1, by decide⟩,
   ⟨laMem 0 4, 0, 0, 0, laDs 0 4, List.replicate 16 0, by decide +kernel⟩⟩

end Sys2Proof.Tests
end

section
/-!
Frames (R8, R14, R761). A footprint lists what a command may change; two states are the same for it when they differ nowhere else. The
relation is an equivalence, so that each operation of the model has one rewriting rule: where the footprint lists what the operation
changes, the operation may be dropped.
-/
namespace Sys2Proof.Machine
open Reg

theorem Area.same_refl (u : Area) (s : State) : u.same s s := by
  cases u <;> simp [Area.same]

theorem Area.same_symm {u : Area} {s t : State} (h : u.same s t) : u.same t s := by
  cases u <;> simp_all [Area.same]

theorem Area.same_trans {u : Area} {s t v : State} (h : u.same s t) (k : u.same t v) : u.same s v := by
  cases u <;> simp_all [Area.same]

/-- A place covers register words by their keys. -/
theorem Place.covers_congr {p : Place} {r r' a a' : Nat} (h : rkey r' a' = rkey r a) : p.covers r' a' = p.covers r a := by
  have hr : r' = r := by
    by_contra hne
    exact rkey_ne hne h
  subst hr
  have ha : a' % 2 ^ 28 = a % 2 ^ 28 := by
    by_contra hne
    exact rkey_ne_at hne h
  cases p with
  | one reg q => simp only [Place.covers, h]
  | die reg d => simp only [Place.covers, ha]
  | all reg => rfl

@[simp] theorem Place.covers_one (r a : Nat) : (Place.one r a).covers r a = true := by simp [Place.covers]

@[simp] theorem Place.covers_all (r a : Nat) : (Place.all r).covers r a = true := by simp [Place.covers]

/-- A register word that no place of a list covers has another key than one that some place of it covers. -/
theorem rkey_ne_of_covers {ps : List Place} {r a r' a' : Nat} (h : ∃ p ∈ ps, p.covers r a = true)
    (hp : ∀ p ∈ ps, p.covers r' a' = false) : rkey r' a' ≠ rkey r a := by
  obtain ⟨p, hmem, hc⟩ := h
  intro e
  have := hp p hmem
  rw [Place.covers_congr e, hc] at this
  cases this

/-- What a command may change: areas of State, stored words and values in effect. -/
structure Footprint where
  areas : List Area
  stored : List Place
  inEffect : List Place

namespace Footprint

/-- Two states of one part that differ within the footprint only. -/
structure Same (F : Footprint) (s t : State) : Prop where
  part : t.part = s.part
  within : s.Within t F.areas F.stored F.inEffect

/-- The footprint lists the stored word of a register at a place. -/
def Stores (F : Footprint) (r a : Nat) : Prop := ∃ p ∈ F.stored, p.covers r a = true

/-- The footprint lists the value in effect of a register at a place. -/
def Effects (F : Footprint) (r a : Nat) : Prop := ∃ p ∈ F.inEffect, p.covers r a = true

/-- The footprint lists all that another one does. -/
def Has (F G : Footprint) : Prop := G.areas ⊆ F.areas ∧ G.stored ⊆ F.stored ∧ G.inEffect ⊆ F.inEffect

variable {F G : Footprint} {s t u : State}

/-! ## The equivalence -/

@[simp] theorem Same.refl (F : Footprint) (s : State) : F.Same s s :=
  ⟨rfl, fun u _ => u.same_refl s, fun _ _ _ => rfl, fun _ _ _ => rfl⟩

theorem Same.symm (h : F.Same s t) : F.Same t s :=
  ⟨h.part.symm, fun v hv => Area.same_symm (h.within.areas v hv), fun r a hp => (h.within.stored r a hp).symm,
    fun r a hp => (h.within.inEffect r a hp).symm⟩

theorem Same.trans (h : F.Same s t) (k : F.Same t u) : F.Same s u :=
  ⟨k.part.trans h.part, fun v hv => Area.same_trans (h.within.areas v hv) (k.within.areas v hv),
    fun r a hp => (k.within.stored r a hp).trans (h.within.stored r a hp),
    fun r a hp => (k.within.inEffect r a hp).trans (h.within.inEffect r a hp)⟩

theorem Same.mono (h : G.Same s t) (hF : F.Has G) : F.Same s t := by
  obtain ⟨ha, hs, he⟩ := hF
  exact ⟨h.part, fun v hv => h.within.areas v fun hG => hv (ha hG),
    fun r a hp => h.within.stored r a fun p hG => hp p (hs hG),
    fun r a hp => h.within.inEffect r a fun p hG => hp p (he hG)⟩

/-- An operation that stays within the footprint may be dropped. -/
theorem same_congr (h : F.Same t u) : F.Same s u ↔ F.Same s t :=
  ⟨fun k => k.trans h.symm, fun k => k.trans h⟩

/-- An operation whose own footprint the footprint lists may be dropped. -/
theorem same_of (hF : F.Has G) (h : G.Same t u) : F.Same s u ↔ F.Same s t := same_congr (h.mono hF)

/-! ## Membership in a footprint that is written out -/

section
variable {us us' : List Area} {rs rs' es es' : List Place} {p : Place} {r a : Nat}

@[simp] theorem has_mk : (⟨us, rs, es⟩ : Footprint).Has ⟨us', rs', es'⟩ ↔ us' ⊆ us ∧ rs' ⊆ rs ∧ es' ⊆ es := Iff.rfl

@[simp] theorem stores_nil : (⟨us, [], es⟩ : Footprint).Stores r a ↔ False := by simp [Stores]

@[simp] theorem stores_cons :
    (⟨us, p :: rs, es⟩ : Footprint).Stores r a ↔ p.covers r a = true ∨ (⟨us, rs, es⟩ : Footprint).Stores r a := by
  simp [Stores]

@[simp] theorem effects_nil : (⟨us, rs, []⟩ : Footprint).Effects r a ↔ False := by simp [Effects]

@[simp] theorem effects_cons :
    (⟨us, rs, p :: es⟩ : Footprint).Effects r a ↔ p.covers r a = true ∨ (⟨us, rs, es⟩ : Footprint).Effects r a := by
  simp [Effects]

end

/-! ## Writes of registers -/

section
variable {r a n lim v : Nat} {w : Word} {f : Fld}

@[simp] theorem same_wr (h : F.Stores r a) : F.Same s (t.wr r a w) ↔ F.Same s t := by
  refine same_congr ⟨by simp, fun u _ => ?_, fun r' a' hp => ?_, by simp⟩
  · cases u <;> simp [Area.same, State.byte]
  · rw [State.rd, State.rd, State.wr_regs, State.wr_part, Tab.get_set_ne _ _ _ _ (rkey_ne_of_covers h hp)]

@[simp] theorem same_wrEff (h : F.Effects r a) : F.Same s (t.wrEff r a w) ↔ F.Same s t := by
  refine same_congr ⟨by simp, fun u _ => ?_, by simp, fun r' a' hp => ?_⟩
  · cases u <;> simp [Area.same, State.byte]
  · rw [State.rdEff, State.rdEff, State.wrEff_eff, State.wrEff_part, Tab.get_set_ne _ _ _ _ (rkey_ne_of_covers h hp)]

@[simp] theorem same_put (h : F.Stores f.reg a) : F.Same s (t.put f a v) ↔ F.Same s t := by
  rw [State.put, same_wr h]

@[simp] theorem same_inc (h : F.Stores f.reg a) : F.Same s (t.inc f a n) ↔ F.Same s t := by
  rw [State.inc, same_put h]

@[simp] theorem same_incSat (h : F.Stores f.reg a) : F.Same s (t.incSat f a n lim) ↔ F.Same s t := by
  rw [State.incSat, same_put h]

@[simp] theorem same_latch (h : F.Stores f.reg a) : F.Same s (t.latch f a n) ↔ F.Same s t := by
  rw [State.latch, same_put h]

@[simp] theorem same_count (h : F.Stores r a) : F.Same s (t.count r a) ↔ F.Same s t := by
  rw [State.count, same_wr h]

@[simp] theorem same_commit (h : F.Effects r a) : F.Same s (t.commit r a) ↔ F.Same s t := by
  rw [State.commit, same_wrEff h]

end

/-! ## Updates of one area -/

/-- A state that differs in one area of the footprint, and in the model's own queue and count of free values. -/
theorem same_of_area {v : Area} (h : v ∈ F.areas) (hp : u.part = t.part) (hr : u.regs = t.regs) (he : u.eff = t.eff)
    (ha : ∀ w, w ≠ v → w.same t u) : F.Same t u :=
  ⟨hp, fun w hw => ha w fun e => hw (e ▸ h), fun r a _ => State.rd_congr hr hp r a,
    fun r a _ => by rw [State.rdEff, State.rdEff, he, hp]⟩

theorem same_fresh {n : Nat} : F.Same s { t with fresh := n } ↔ F.Same s t :=
  same_congr ⟨rfl, fun u _ => by cases u <;> simp [Area.same, State.byte], fun _ _ _ => rfl, fun _ _ _ => rfl⟩

theorem same_mesh {x : Mesh} (h : .mesh ∈ F.areas) : F.Same s { t with mesh := x } ↔ F.Same s t :=
  same_congr (same_of_area h rfl rfl rfl fun w hw => by cases w <;> simp_all [Area.same, State.byte])

theorem same_time {x : NetTime} (h : .time ∈ F.areas) : F.Same s { t with time := x } ↔ F.Same s t :=
  same_congr (same_of_area h rfl rfl rfl fun w hw => by cases w <;> simp_all [Area.same, State.byte])

theorem same_frz {x : Freeze} (h : .frz ∈ F.areas) : F.Same s { t with frz := x } ↔ F.Same s t :=
  same_congr (same_of_area h rfl rfl rfl fun w hw => by cases w <;> simp_all [Area.same, State.byte])

theorem same_lanes {x : Lanes} (h : .lanes ∈ F.areas) : F.Same s { t with lanes := x } ↔ F.Same s t :=
  same_congr (same_of_area h rfl rfl rfl fun w hw => by cases w <;> simp_all [Area.same, State.byte])

theorem same_hw {x : Hw} (h : .hw ∈ F.areas) : F.Same s { t with hw := x } ↔ F.Same s t :=
  same_congr (same_of_area h rfl rfl rfl fun w hw => by cases w <;> simp_all [Area.same, State.byte])

theorem same_pwr {x : Power} (h : .pwr ∈ F.areas) : F.Same s { t with pwr := x } ↔ F.Same s t :=
  same_congr (same_of_area h rfl rfl rfl fun w hw => by cases w <;> simp_all [Area.same, State.byte])

theorem same_pon {x : Pon} (h : .pon ∈ F.areas) : F.Same s { t with pon := x } ↔ F.Same s t :=
  same_congr (same_of_area h rfl rfl rfl fun w hw => by cases w <;> simp_all [Area.same, State.byte])

theorem same_dram {x : Store} (h : .dram ∈ F.areas) : F.Same s { t with dram := x } ↔ F.Same s t :=
  same_congr (same_of_area h rfl rfl rfl fun w hw => by cases w <;> simp_all [Area.same, State.byte])

theorem same_pipe {x : Pipe} (h : .pipe ∈ F.areas) : F.Same s { t with pipe := x } ↔ F.Same s t :=
  same_congr (same_of_area h rfl rfl rfl fun w hw => by cases w <;> simp_all [Area.same, State.byte])

theorem same_macs {x : Macs} (h : .macs ∈ F.areas) : F.Same s { t with macs := x } ↔ F.Same s t :=
  same_congr (same_of_area h rfl rfl rfl fun w hw => by cases w <;> simp_all [Area.same, State.byte])

theorem same_ciph {x : Ciph} (h : .ciph ∈ F.areas) : F.Same s { t with ciph := x } ↔ F.Same s t :=
  same_congr (same_of_area h rfl rfl rfl fun w hw => by cases w <;> simp_all [Area.same, State.byte])

theorem same_pmc {x : Pmc} (h : .pmc ∈ F.areas) : F.Same s { t with pmc := x } ↔ F.Same s t :=
  same_congr (same_of_area h rfl rfl rfl fun w hw => by cases w <;> simp_all [Area.same, State.byte])

theorem same_lanes_mesh {x : Lanes} {y : Mesh} (hl : .lanes ∈ F.areas) (hm : .mesh ∈ F.areas) :
    F.Same s { t with lanes := x, mesh := y } ↔ F.Same s t :=
  (same_mesh (t := { t with lanes := x }) hm).trans (same_lanes hl)

theorem same_fresh_time {n : Nat} {x : NetTime} (h : .time ∈ F.areas) :
    F.Same s { t with fresh := n, time := x } ↔ F.Same s t :=
  (same_time (t := { t with fresh := n }) h).trans same_fresh

@[simp] theorem same_setByte {a : Nat} {b : Byte} (h : .mem ∈ F.areas) : F.Same s (t.setByte a b) ↔ F.Same s t :=
  same_congr (same_of_area h rfl rfl rfl fun w hw => by cases w <;> simp_all [Area.same])

@[simp] theorem same_setBytes {l : List Byte} (h : .mem ∈ F.areas) : ∀ {t : State} {a : Nat},
    F.Same s (t.setBytes a l) ↔ F.Same s t := by
  induction l with
  | nil => exact Iff.rfl
  | cons b l ih => exact ih.trans (same_setByte h)

@[simp] theorem same_answer {r : Nat} {x : MeshResp} (h : .mesh ∈ F.areas) : F.Same s (t.answer r x) ↔ F.Same s t :=
  same_mesh h

/-! ## Branches, folds and events -/

theorem same_ite {c : Prop} [Decidable c] {a b : State} :
    F.Same s (if c then a else b) ↔ if c then F.Same s a else F.Same s b := by
  split <;> rfl

/-- A fold of steps that each stay within the footprint. -/
theorem same_foldl {α : Type} {f : State → α → State} (h : ∀ x a, F.Same x (f x a)) (l : List α) :
    F.Same s (l.foldl f t) ↔ F.Same s t := by
  induction l generalizing t with
  | nil => rfl
  | cons a l ih => rw [List.foldl_cons, ih, same_congr (h t a)]

/-- The fuses, the part and the queue that an event keeps are those of before. -/
theorem Same.kept (h : F.Same s t) : F.Same s (s.kept t) := by
  obtain ⟨hp, ha, hs, he⟩ := h
  refine ⟨rfl, fun u hu => ?_, fun r a hr => ?_, fun r a hr => ?_⟩
  · have := ha u hu
    cases u <;> simp_all [Area.same, State.byte]
  · rw [State.rd_kept _ _ hp]
    exact hs r a hr
  · have := he r a hr
    simp_all [State.rdEff]

end Footprint

section
variable {c : Instr} {f : State → State} {us : List Area} {rs es : List Place}

/-- An event of a stoppable domain keeps to a footprint that its effect keeps to. -/
theorem keeps_of_event (hc : ∀ s, exec c s = s.event f) (h : ∀ s, Footprint.Same ⟨us, rs, es⟩ s (f s)) : Keeps c us rs es := by
  intro s
  by_cases hr : s.running = true
  · exact ⟨_, (hc s).trans (State.event_running s f hr), (h s).kept.within⟩
  · exact ⟨_, (hc s).trans (State.event_stopped s f (by simpa using hr)), (Footprint.Same.refl ⟨us, rs, es⟩ s).within⟩

/-- An event of the ac domain keeps to a footprint that its effect keeps to. -/
theorem keeps_of_acEvent (hc : ∀ s, exec c s = s.acEvent f) (h : ∀ s, Footprint.Same ⟨us, rs, es⟩ s (f s)) :
    Keeps c us rs es := by
  intro s
  by_cases ha : s.hw.alive = true
  · exact ⟨_, (hc s).trans (State.acEvent_alive s f ha), (h s).kept.within⟩
  · exact ⟨_, (hc s).trans (State.acEvent_dead s f (by simpa using ha)), (Footprint.Same.refl ⟨us, rs, es⟩ s).within⟩

end

end Sys2Proof.Machine
end

section
/-!
The footprints of the operations that several commands share.
-/
namespace Sys2Proof.Machine.Footprint
open Reg

variable {F : Footprint} {s t : State}

/-! ## Firmware writes, network time and the mode -/

@[simp] theorem same_fwWriteFields {fs : List FieldDesc} {r a : Nat} {new same : Word} (h : F.Stores r a) :
    F.Same s (t.fwWriteFields fs r a new same) ↔ F.Same s t := by
  simp [State.fwWriteFields, h, ↓same_ite, same_fresh]

@[simp] theorem same_fwWrite {r a : Nat} {v : Word} (h : F.Stores r a) : F.Same s (t.fwWrite r a v) ↔ F.Same s t :=
  same_fwWriteFields h

@[simp] theorem same_evalHoldover (h : F.Has ⟨[], [.one TIME_STATUS d0], []⟩) : F.Same s t.evalHoldover ↔ F.Same s t := by
  refine same_of h ?_
  simp [State.evalHoldover, ↓same_ite]

@[simp] theorem same_startRelock (h : F.Has ⟨[.time], [.one TIME_STATUS d0], []⟩) : F.Same s t.startRelock ↔ F.Same s t := by
  refine same_of h ?_
  simp [State.startRelock, ↓same_time]

@[simp] theorem same_copyTime {hi lo ns : Nat} (hhi : F.Stores hi d0) (hlo : F.Stores lo d0) (hns : F.Stores ns d0) :
    F.Same s (t.copyTime hi lo ns) ↔ F.Same s t := by
  simp [State.copyTime, hhi, hlo, hns]

@[simp] theorem same_applyAdj {a : TimeAdj} (h : .time ∈ F.areas) : F.Same s (t.applyAdj a) ↔ F.Same s t := by
  simp [State.applyAdj, h, ↓same_ite, ↓same_fresh_time]

@[simp] theorem same_evalMode (h : F.Has ⟨[], [.one HW_OPMODE d0], []⟩) : F.Same s t.evalMode ↔ F.Same s t := by
  refine same_of h ?_
  simp [State.evalMode, State.setMode, ↓same_ite]

/-! ## Wake requests -/

@[simp] theorem same_wakeReq {d src idx : Nat} (h : .pwr ∈ F.areas) : F.Same s (t.wakeReq d src idx) ↔ F.Same s t := by
  simp [State.wakeReq, h, ↓same_ite, ↓same_pwr]

@[simp] theorem same_wakeRoute {a b : Nat} (h : .pwr ∈ F.areas) : F.Same s (t.wakeRoute a b) ↔ F.Same s t := by
  unfold State.wakeRoute
  cases viaDie a b with
  | none => simp [h]
  | some v => simp [h, ↓same_ite]

@[simp] theorem same_wakeAll {src : Nat} (h : .pwr ∈ F.areas) : F.Same s (t.wakeAll src) ↔ F.Same s t :=
  same_foldl (fun x d => by simp [h, ↓same_ite]) _

@[simp] theorem same_freezeWakes (h : .pwr ∈ F.areas) : F.Same s t.freezeWakes ↔ F.Same s t := by
  simp [State.freezeWakes, h, ↓same_ite]

/-! ## Counted accesses of memory (R519, R693) -/

/-- What the counting of events changes. -/
abbrev counting : Footprint := ⟨[], [.all PMC_CNT_LO, .all PMC_OVF], [.all PMC_CNT_HI]⟩

@[simp] theorem same_pmcAdd {d u n k : Nat} (h : F.Has counting) : F.Same s (t.pmcAdd d u n k) ↔ F.Same s t := by
  refine same_of h ?_
  simp [State.pmcAdd, ↓same_ite]

@[simp] theorem same_pmcEvent {d u code idx k : Nat} {pass : Word → Bool} (h : F.Has counting) :
    F.Same s (t.pmcEvent d u code idx k pass) ↔ F.Same s t := by
  refine same_of h ?_
  unfold State.pmcEvent
  split
  · simp
  · exact (same_foldl (fun x n => by simp [↓same_ite]) _).2 (Same.refl _ t)

@[simp] theorem same_rcUse {d off n : Nat} {write : Bool} (h : F.Has counting) :
    F.Same s (t.rcUse d off n write) ↔ F.Same s t := by
  refine same_of h ?_
  unfold State.rcUse
  split
  · simp
  · exact (same_foldl (fun x n => by simp) _).2 (Same.refl _ t)

@[simp] theorem same_putBytes {a : Nat} {l : List Byte} (h : F.Has counting) (hm : .mem ∈ F.areas) :
    F.Same s (t.putBytes a l) ↔ F.Same s t := by
  simp [State.putBytes, h, hm]

/-! ## Packet buffers and bursts -/

@[simp] theorem same_setGuard {d b : Nat} {g : Guard} (h : .dram ∈ F.areas) : F.Same s (t.setGuard d b g) ↔ F.Same s t :=
  same_dram h

/-- What a buffer that is given back changes. -/
abbrev buffers : Footprint := ⟨[.dram], [.all RSV_FREE], []⟩

@[simp] theorem same_freeBuf {k : Nat} (h : F.Has buffers) : F.Same s (t.freeBuf k) ↔ F.Same s t := by
  refine same_of h ?_
  unfold State.freeBuf
  dsimp only [State.draw]
  split
  · simp [↓same_dram]
  · split
    · rw [same_put (by simp), same_fresh, same_setGuard (by simp), same_dram (by simp)]
      exact Same.refl _ t
    · simp [↓same_dram]

@[simp] theorem same_release {k : Nat} (h : F.Has buffers) : F.Same s (t.release k) ↔ F.Same s t := by
  refine same_of h ?_
  simp [State.release, ↓same_ite, ↓same_dram]

@[simp] theorem same_setConv {c : Nat} {v : Conv} (h : .pon ∈ F.areas) : F.Same s (t.setConv c v) ↔ F.Same s t :=
  same_pon h

@[simp] theorem same_releasePieces {b : Burst} (h : F.Has buffers) : F.Same s (t.releasePieces b) ↔ F.Same s t :=
  same_foldl (fun x p => by simp [h, ↓same_ite]) _

@[simp] theorem same_cutBursts {c : Nat} (h : F.Has buffers) (hp : .pon ∈ F.areas) :
    F.Same s (t.cutBursts c) ↔ F.Same s t := by
  unfold State.cutBursts
  dsimp only
  split
  · rfl
  · rw [same_foldl fun x b => by simp [h]]
    simp [hp]

@[simp] theorem same_linkDrop {d l n : Nat} (h : F.Stores DLINK_DROP (place d l)) : F.Same s (t.linkDrop d l n) ↔ F.Same s t :=
  same_inc h

/-! ## Performance bins and bandwidth windows -/

@[simp] theorem same_setPm {c : Nat} {p : Pm} (h : .pon ∈ F.areas) : F.Same s (t.setPm c p) ↔ F.Same s t :=
  same_pon h

/-- What the end of a second of performance data changes. -/
abbrev seconds : Footprint := ⟨[.pon], [.all PFR_PM_STAT], [.all PFR_PM_CFG, .all PFR_PM_SES]⟩

@[simp] theorem same_pmCountSecond {c : Nat} (h : .pon ∈ F.areas) : F.Same s (t.pmCountSecond c) ↔ F.Same s t := by
  unfold State.pmCountSecond
  dsimp only
  split <;> simp [h]

@[simp] theorem same_pmClose15 {c : Nat} {suspect short : Bool} (h : .pon ∈ F.areas) :
    F.Same s (t.pmClose15 c suspect short) ↔ F.Same s t := by
  unfold State.pmClose15
  dsimp only
  split <;> simp [h]

@[simp] theorem same_pmCloseDay {c : Nat} {suspect short : Bool} (h : .pon ∈ F.areas) :
    F.Same s (t.pmCloseDay c suspect short) ↔ F.Same s t := by
  unfold State.pmCloseDay
  dsimp only
  split <;> simp [h]

@[simp] theorem same_pmClose {c : Nat} {quarter day suspect short : Bool} (h : F.Has seconds) :
    F.Same s (t.pmClose c quarter day suspect short) ↔ F.Same s t := by
  refine same_of h ?_
  simp [State.pmClose, State.commitAll, ↓same_ite]

@[simp] theorem same_pmFlush {c : Nat} (h : F.Has seconds) : F.Same s (t.pmFlush c) ↔ F.Same s t := by
  refine same_of h ?_
  simp [State.pmFlush, ↓same_ite]

@[simp] theorem same_pmStart {c n : Nat} {short : Bool} (h : .pon ∈ F.areas) :
    F.Same s (t.pmStart c n short) ↔ F.Same s t := by
  simp [State.pmStart, h]

@[simp] theorem same_pmNewSecond {c : Nat} (h : .pon ∈ F.areas) : F.Same s (t.pmNewSecond c) ↔ F.Same s t := by
  simp [State.pmNewSecond, h]

@[simp] theorem same_pmStep {c : Nat} (h : F.Has seconds) : F.Same s (t.pmStep c) ↔ F.Same s t := by
  refine same_of h ?_
  simp [State.pmStep, ↓same_ite]

/-- What the close of a bandwidth window changes. -/
abbrev windows : Footprint := ⟨[.pmc], [.all PMC_BW_STAT], [.all PMC_BW_CFG]⟩

@[simp] theorem same_bwPeak {p : Nat} (h : .pmc ∈ F.areas) : F.Same s (t.bwPeak p) ↔ F.Same s t := by
  simp [State.bwPeak, State.bwMod, h, ↓same_ite, ↓same_pmc]

@[simp] theorem same_bwClose {d : Nat} {step : Bool} (h : F.Has windows) : F.Same s (t.bwClose d step) ↔ F.Same s t := by
  refine same_of h ?_
  unfold State.bwClose
  dsimp only
  rw [same_foldl fun x p => by simp [↓same_pmc]]
  rw [same_commit (by simp)]
  split
  · rw [same_put (by simp), same_foldl fun x p => by simp [↓same_pmc]]
    simp
  · simp

@[simp] theorem same_bwStep (h : F.Has windows) : F.Same s t.bwStep ↔ F.Same s t :=
  same_foldl (fun x d => by simp [h, ↓same_ite]) _

/-! ## Receivers and links -/

@[simp] theorem same_setLane {l k : Nat} {back b : Bool} (h : .lanes ∈ F.areas) : F.Same s (t.setLane l back k b) ↔ F.Same s t :=
  same_lanes h

@[simp] theorem same_dropLanes {l : Nat} (h : .lanes ∈ F.areas) : F.Same s (t.dropLanes l) ↔ F.Same s t :=
  same_foldl (fun x k => by simp [h]) _

@[simp] theorem same_putLink {f : Fld} {l v : Nat} (hl : F.Stores f.reg (place (linkLow l) l))
    (hh : F.Stores f.reg (place (linkHigh l) l)) : F.Same s (t.putLink f l v) ↔ F.Same s t := by
  simp [State.putLink, hl, hh]

@[simp] theorem same_evalUp {d : Nat} (h : F.Stores HW_DIE_MAP d0) : F.Same s (t.evalUp d) ↔ F.Same s t := by
  simp [State.evalUp, h, ↓same_ite]

@[simp] theorem same_resend {l : Nat} (h : .pipe ∈ F.areas) : F.Same s (t.resend l) ↔ F.Same s t :=
  same_pipe h

@[simp] theorem same_dropFlight {l : Nat} (h : F.Has ⟨[.pipe, .dram], [.all DLINK_DROP, .all RSV_FREE], []⟩) :
    F.Same s (t.dropFlight l) ↔ F.Same s t := by
  refine same_of h ?_
  unfold State.dropFlight
  dsimp only
  rw [same_foldl fun x f => by simp]
  simp [↓same_pipe]

@[simp] theorem same_showChain (h : F.Has ⟨[], [.one FRZ_CHAIN_LEN d0, .one FRZ_CHAIN_POS d0, .one FRZ_STATUS d0], []⟩) :
    F.Same s t.showChain ↔ F.Same s t := by
  refine same_of h ?_
  simp [State.showChain]

@[simp] theorem same_setDbg {f : Debug → Debug} (h : .hw ∈ F.areas) : F.Same s (t.setDbg f) ↔ F.Same s t :=
  same_hw h

@[simp] theorem same_cdrLoss {c : Nat}
    (h : F.Has ⟨[], [.one CLK_STATUS d0, .one LANE_PRX_STAT (atChan c), .one TIME_STATUS d0], []⟩) :
    F.Same s (t.cdrLoss c) ↔ F.Same s t := by
  refine same_of h ?_
  simp [State.cdrLoss]

@[simp] theorem same_cdrGain {c : Nat}
    (h : F.Has ⟨[.time], [.one CLK_STATUS d0, .one LANE_PRX_STAT (atChan c), .one TIME_STATUS d0], []⟩) :
    F.Same s (t.cdrGain c) ↔ F.Same s t := by
  refine same_of h ?_
  simp [State.cdrGain, ↓same_ite]

/-- What equaliser coefficients that move change. -/
abbrev coefficients (c : Nat) : Footprint :=
  ⟨[.lanes], [], [.one LANE_PRX_DFE (atChan c), .one LANE_PRX_FFE0 (atChan c), .one LANE_PRX_FFE1 (atChan c)]⟩

@[simp] theorem same_coefMoved {c : Nat} (h : .lanes ∈ F.areas) : F.Same s (t.coefMoved c) ↔ F.Same s t :=
  same_lanes h

@[simp] theorem same_adapt {c : Nat} (h : F.Has (coefficients c)) : F.Same s (t.adapt c) ↔ F.Same s t := by
  refine same_of h ?_
  unfold State.adapt
  dsimp only [State.draw, List.foldl_cons, List.foldl_nil]
  split
  · simp
  · rw [same_wrEff (by simp), same_fresh, same_wrEff (by simp), same_fresh, same_wrEff (by simp), same_fresh]
    simp

@[simp] theorem same_setSd {c : Nat} {sd : Bool}
    (h : F.Has ⟨[.lanes], [.one CLK_STATUS d0, .one LANE_PRX_STAT (atChan c), .one TIME_STATUS d0], (coefficients c).inEffect⟩) :
    F.Same s (t.setSd c sd) ↔ F.Same s t := by
  refine same_of h ?_
  simp [State.setSd, ↓same_ite]

/-! ## Eye scan and I2C -/

@[simp] theorem same_setScan {d : Nat} {p : Option ScanPoint} (h : .lanes ∈ F.areas) : F.Same s (t.setScan d p) ↔ F.Same s t :=
  same_lanes h

@[simp] theorem same_endScan {d errors : Nat} {early : Option Nat}
    (h : F.Has ⟨[.lanes], [.one LANE_ESCAN_ERR (onDie d), .one LANE_ESCAN_STAT (onDie d)], []⟩) :
    F.Same s (t.endScan d errors early) ↔ F.Same s t := by
  refine same_of h ?_
  unfold State.endScan
  cases early <;> simp

@[simp] theorem same_i2cGo {m : I2cRegs} {v : Word} {rd : Bool} (hcmd : F.Stores m.cmd m.at_) (hstat : F.Stores m.stat m.at_)
    (hcfg : F.Effects m.cfg m.at_) : F.Same s (t.i2cGo m v rd).1 ↔ F.Same s t := by
  unfold State.i2cGo
  dsimp only
  split
  · simp [hcmd, hstat]
  · split
    · simp [hcmd]
    · simp [hcmd, hcfg]

@[simp] theorem same_optGo {n : Nat} {v : Word} {rd : Bool}
    (h : F.Has ⟨[.lanes], [.one LANE_OPT_I2C_CMD (onDie n), .one LANE_OPT_I2C_STAT (onDie n)],
      [.one LANE_OPT_I2C_CFG (onDie n)]⟩) : F.Same s (t.optGo n v rd) ↔ F.Same s t := by
  refine same_of h ?_
  have hgo : Same ⟨[.lanes], [.one LANE_OPT_I2C_CMD (onDie n), .one LANE_OPT_I2C_STAT (onDie n)],
      [.one LANE_OPT_I2C_CFG (onDie n)]⟩ t (t.i2cGo (optRegs n) v rd).1 := by
    rw [same_i2cGo (by simp [optRegs]) (by simp [optRegs]) (by simp [optRegs])]
    exact Same.refl _ t
  unfold State.optGo
  split
  · next u e => simpa only [e] using hgo
  · next u j e =>
    rw [same_lanes (by simp)]
    simpa only [e] using hgo

end Sys2Proof.Machine.Footprint
end

section
/-!
The footprint of the outcomes that operations on an erased key slot take when the domains resume (R655).
-/
namespace Sys2Proof.Machine.Footprint
open Reg

variable {F : Footprint} {s t : State}

/-! ## Frames and messages under an erased key -/

@[simp] theorem same_setMac {k : Nat} {m : Mac} (h : .macs ∈ F.areas) : F.Same s (t.setMac k m) ↔ F.Same s t :=
  same_macs h

@[simp] theorem same_cutFrame {p : Nat} (h : F.Has ⟨[.macs], [.all CIPH_CNT_MS_TX_ERASED], []⟩) :
    F.Same s (t.cutFrame p) ↔ F.Same s t := by
  refine same_of h ?_
  unfold State.cutFrame
  dsimp only [State.draw]
  split
  · simp
  · rw [same_count (by simp), same_setMac (by simp), same_fresh]
    simp

@[simp] theorem same_changeAllocs {c : Nat} {f : Nat → Alloc → Alloc} (h : .pon ∈ F.areas) :
    F.Same s (t.changeAllocs c f) ↔ F.Same s t := by
  unfold State.changeAllocs
  split
  · rfl
  · simp [State.setBurst, h]

@[simp] theorem same_countErased {c n : Nat} (h : F.Stores CIPH_CNT_ERASED (atChan c)) :
    F.Same s (t.countErased c n) ↔ F.Same s t :=
  same_wr h

/-- What the erasure of a PON slot's key changes in the work under it. -/
abbrev ponKeys : Footprint := ⟨[.pon, .ciph], [.all CIPH_CNT_ERASED], []⟩

@[simp] theorem same_cutCrypt {i c : Nat} (h : F.Has ponKeys) : F.Same s (t.cutCrypt i c) ↔ F.Same s t := by
  refine same_of h ?_
  simp [State.cutCrypt]

@[simp] theorem same_cutOmci {i c : Nat} (h : F.Has ponKeys) : F.Same s (t.cutOmci i c) ↔ F.Same s t := by
  refine same_of h ?_
  unfold State.cutOmci
  dsimp only
  rw [same_countErased (by simp), same_ciph (by simp), same_setConv (by simp), same_foldl fun x u => by simp]
  simp

@[simp] theorem same_cutPon {d i : Nat} (h : F.Has ponKeys) : F.Same s (t.cutPon d i) ↔ F.Same s t := by
  refine same_of h ?_
  simp [State.cutPon]

/-! ## Bulk jobs of the look-aside engine -/

@[simp] theorem same_setWaiting {n q : Nat} {b : Bool} (h : .ciph ∈ F.areas) : F.Same s (t.setWaiting n q b) ↔ F.Same s t :=
  same_ciph h

@[simp] theorem same_endBulk {n q : Nat} (h : .ciph ∈ F.areas) : F.Same s (t.endBulk n q) ↔ F.Same s t := by
  simp [State.endBulk, h, ↓same_ite, ↓same_ciph]

@[simp] theorem same_setLaCtx {n c : Nat} {x : Option LaCtx} (h : F.Has ⟨[.ciph], [.all CIPH_LA_CTX_STAT], []⟩) :
    F.Same s (t.setLaCtx n c x) ↔ F.Same s t := by
  refine same_of h ?_
  simp [State.setLaCtx, ↓same_ciph]

@[simp] theorem same_laRefused {n addr : Nat} {write : Bool} (h : .mesh ∈ F.areas) :
    F.Same s (t.laRefused n addr write) ↔ F.Same s t := by
  unfold State.laRefused State.refuseIfAbsent
  dsimp only [State.draw]
  split
  · rw [State.refuse, State.report, same_mesh h, same_fresh]
  · split
    · rw [State.refuse, State.report, same_mesh h, same_fresh]
    · rw [same_fresh]

@[simp] theorem same_laHalt {n q addr : Nat} {write : Bool}
    (h : F.Has ⟨[], [.all CIPH_EVT, .all CIPH_LA_ERR, .all CIPH_LA_STAT], []⟩) :
    F.Same s (t.laHalt n q addr write) ↔ F.Same s t := by
  refine same_of h ?_
  simp [State.laHalt, ↓same_ite]

@[simp] theorem same_takeIv {n : Nat} {x : LaDesc} (h : .ciph ∈ F.areas) : F.Same s (t.takeIv n x).2 ↔ F.Same s t :=
  same_ciph h

@[simp] theorem same_laBegin {n : Nat} {x : LaDesc} (h : .ciph ∈ F.areas) : F.Same s (t.laBegin n x).2.2.2 ↔ F.Same s t := by
  unfold State.laBegin
  dsimp only
  split <;> simp [h]

/-- What a descriptor that ends changes: its bytes, counted, and the cipher engine. -/
abbrev descriptors : Footprint :=
  ⟨[.mem, .mesh, .pwr, .ciph],
    [.all CIPH_EVT, .all CIPH_LA_CTX_STAT, .all CIPH_LA_ERR, .all CIPH_LA_HEAD, .all CIPH_LA_STAT, .all PMC_CNT_LO, .all PMC_OVF],
    [.all PMC_CNT_HI]⟩

@[simp] theorem same_laPartial {d : Nat} {x : LaDesc} {job : Option LaBulk} {n : Nat} (h : F.Has descriptors) :
    F.Same s (t.laPartial d x job n) ↔ F.Same s t := by
  refine same_of h ?_
  unfold State.laPartial
  split
  · simp
  · cases job <;> simp

@[simp] theorem same_laBusError {n q addr : Nat} {write onDesc : Bool} (h : F.Has descriptors) :
    F.Same s (t.laBusError n q addr write onDesc) ↔ F.Same s t := by
  refine same_of h ?_
  unfold State.laBusError
  extract_lets a job u
  have hu : descriptors.Same t u := by simp [u]
  split
  · simpa using hu
  · split <;> simpa using hu

@[simp] theorem same_laLook {n q : Nat} (h : F.Has descriptors) : F.Same s (t.laLook n q) ↔ F.Same s t := by
  refine same_of h ?_
  unfold State.laLook
  dsimp only
  split
  · simp
  · split
    · simp
    · split <;> simp

@[simp] theorem same_laComplete {n q : Nat} {x : LaDesc} {code : Nat} {iv tag : List Byte} (h : F.Has descriptors) :
    F.Same s (t.laComplete n q x code iv tag) ↔ F.Same s t := by
  refine same_of h ?_
  unfold State.laComplete
  dsimp only
  rw [same_laLook (by simp), same_endBulk (by simp), same_put (by simp)]
  split
  · split <;> simp
  · simp

@[simp] theorem same_writeSpan {src addr : Nat} {l : List Byte} (h : F.Has descriptors) :
    F.Same s ((t.writeSpan src addr l).getD t) ↔ F.Same s t := by
  refine same_of h ?_
  unfold State.writeSpan
  split <;> simp

@[simp] theorem same_laAbort {n slot : Nat} (h : F.Has descriptors) : F.Same s (t.laAbort n slot) ↔ F.Same s t := by
  refine same_of h ?_
  unfold State.laAbort
  split
  · simp
  · simp [↓same_ite]

/-- What the outcomes of erased slots change. -/
abbrev erasures : Footprint :=
  ⟨[.mem, .mesh, .pwr, .pon, .macs, .ciph],
    [.all CIPH_CNT_ERASED, .all CIPH_CNT_MS_TX_ERASED, .all CIPH_EVT, .all CIPH_LA_CTX_STAT, .all CIPH_LA_ERR,
      .all CIPH_LA_HEAD, .all CIPH_LA_STAT, .all PMC_CNT_LO, .all PMC_OVF],
    [.all PMC_CNT_HI]⟩

@[simp] theorem same_erasedOutcomes (h : F.Has erasures) : F.Same s t.erasedOutcomes ↔ F.Same s t := by
  refine same_of h ?_
  unfold State.erasedOutcomes
  dsimp only
  rw [same_foldl fun x n => ?_, same_foldl fun x d => ?_, same_foldl fun x p => ?_]
  · exact Same.refl _ t
  · split
    · split
      · simp [↓same_ite]
      · simp
    · simp
  · rw [same_foldl fun x i => by simp [↓same_ite]]
    exact Same.refl _ x
  · split
    · simp [↓same_ite]
    · simp

end Sys2Proof.Machine.Footprint
end

section
/-!
The frames of the commands of organisation and mode, network time, freeze and thaw, lanes and links, eye scan and the optics I2C master.
-/
namespace Sys2Proof.Machine
open Reg Footprint

/-! ## Organisation and mode -/

theorem absentRefusalReport_keeps (d : Die) :
    Keeps (.absentRefusalReport d) [.mesh] [.one HW_ABSENT_INFO d0, .one HW_ABSENT_ADDR d0] [] := by
  refine keeps_of_event (fun _ => rfl) fun s => ?_
  split
  · simp
  · simp [State.latchReport, ↓same_ite, ↓same_mesh]

theorem postedWrite_keeps (d : Die) (m : Posted) :
    Keeps (.postedWrite d m) [.mem, .mesh, .pwr]
      [.all DLINK_DROP, .one HW_ABSENT_DROP d0, .all IRQ_SRC_STAT, .all PMC_CNT_LO, .all PMC_OVF] [.all PMC_CNT_HI] := by
  refine keeps_of_event (fun _ => rfl) fun s => ?_
  unfold State.sendPosted
  split
  · simp
  · simp
  · simp
  · cases m <;> simp [State.applyPosted, State.setLevel]
  · simp [↓same_mesh]

theorem dieFence_keeps (d : Die) : Keeps (.dieFence d) [] [.one HW_DIE_MAP d0] [] := by
  refine keeps_of_event (fun _ => rfl) fun s => ?_
  simp [↓same_ite]

theorem bootCtlDone_keeps (lv : Level) : Keeps (.bootCtlDone lv) [.hw] [] [] := by
  refine keeps_of_event (fun _ => rfl) fun s => ?_
  simp [↓same_ite, ↓same_hw]

theorem modeChange_keeps : Keeps .modeChange [] [.one HW_OPMODE d0] [] := by
  refine keeps_of_acEvent (fun _ => rfl) fun s => ?_
  simp

/-! ## Spread and network time -/

theorem sscTurningPoint_keeps : Keeps .sscTurningPoint [] [.one CLK_SSC_POS d0] [.one CLK_SSC_CFG d0] := by
  refine keeps_of_acEvent (fun _ => rfl) fun s => ?_
  simp [State.sscTurn, ↓same_ite]

theorem timeCfgWrite_keeps (v : Word) : Keeps (.timeCfgWrite v) [.time] [.one TIME_CFG d0, .one TIME_STATUS d0] [] := by
  refine keeps_of_event (fun _ => rfl) fun s => ?_
  simp [↓same_time]

theorem timeRelockDone_keeps : Keeps .timeRelockDone [.time] [.one TIME_STATUS d0] [] := by
  refine keeps_of_event (fun _ => rfl) fun s => ?_
  simp [↓same_ite, ↓same_time]

/-- A command of network time on the area alone. -/
theorem timeArea_keeps (cmd : Instr)
    (h : cmd ∈ ([.timeCommitIncr, .timeCommitOffset, .timeCommitLoad, .ppsOutRise, .ppsOutFall] : List Instr)) :
    Keeps cmd [.time] [] [] := by
  simp only [List.mem_cons, List.not_mem_nil, or_false] at h
  rcases h with rfl | rfl | rfl | rfl | rfl <;> refine keeps_of_event (fun _ => rfl) fun s => ?_
  · simp [State.timeCommit, ↓same_ite, ↓same_time]
  · simp [State.timeCommit, ↓same_ite, ↓same_time]
  · simp [State.timeCommit, ↓same_ite, ↓same_time]
  · simp [↓same_ite, ↓same_time]
  · simp [↓same_ite, ↓same_time]

theorem timeSnap_keeps : Keeps .timeSnap [.time] [.one TIME_SNAP d0] [] := by
  refine keeps_of_event (fun _ => rfl) fun s => ?_
  simp [↓same_time]

theorem timeSnapCapture_keeps :
    Keeps .timeSnapCapture [.time]
      [.one TIME_SNAP_FRAC d0, .one TIME_SNAP_NS d0, .one TIME_SNAP_SEC_HI d0, .one TIME_SNAP_SEC_LO d0] [] := by
  refine keeps_of_event (fun _ => rfl) fun s => ?_
  simp [↓same_ite, ↓same_time]

theorem timeSnapValid_keeps : Keeps .timeSnapValid [.time] [.one TIME_SNAP d0] [] := by
  refine keeps_of_event (fun _ => rfl) fun s => ?_
  simp [↓same_ite, ↓same_time]

theorem todCapArm_keeps (sfLo : BitVec 30) : Keeps (.todCapArm sfLo) [] [.one TIME_TOD_CAP_CTL d0] [] := by
  refine keeps_of_event (fun _ => rfl) fun s => ?_
  simp

theorem todCapture_keeps (sfc : BitVec 51) :
    Keeps (.todCapture sfc) [] [.one TIME_TOD_CAP_CTL d0, .one TIME_TOD_CAP_FRAC d0, .one TIME_TOD_CAP_NS d0,
      .one TIME_TOD_CAP_SEC_HI d0, .one TIME_TOD_CAP_SEC_LO d0, .one TIME_TOD_CAP_STAT d0] [] := by
  refine keeps_of_event (fun _ => rfl) fun s => ?_
  simp [↓same_ite]

theorem ppsInCapture_keeps :
    Keeps .ppsInCapture [] [.one TIME_PPS_IN_NS d0, .one TIME_PPS_IN_SEC_HI d0, .one TIME_PPS_IN_SEC_LO d0,
      .one TIME_PPS_IN_STAT d0] [] := by
  refine keeps_of_event (fun _ => rfl) fun s => ?_
  simp [↓same_ite]

theorem todTxStart_keeps : Keeps .todTxStart [.time] [.one TIME_TOD_STAT d0, .one TIME_TOD_TX d0] [] := by
  refine keeps_of_event (fun _ => rfl) fun s => ?_
  simp [↓same_ite, ↓same_time]

theorem todRxByte_keeps (b : Byte) (afterIdle : Bool) :
    Keeps (.todRxByte b afterIdle) [.time] [.one TIME_TOD_RX_TS d0, .one TIME_TOD_STAT d0] [] := by
  refine keeps_of_event (fun _ => rfl) fun s => ?_
  simp [↓same_ite, ↓same_time]

theorem timeCommitApply_keeps :
    Keeps .timeCommitApply [.time, .pon, .pmc] [.one TIME_STATUS d0, .all PFR_PM_STAT, .all PMC_BW_STAT]
      [.one TIME_INCR d0, .all PFR_PM_CFG, .all PFR_PM_SES, .all PMC_BW_CFG] := by
  refine keeps_of_event (fun _ => rfl) fun s => ?_
  split
  · simp
  · dsimp only
    split
    · simp [↓same_time]
    · rw [same_bwStep (by simp), same_foldl fun x c => by simp [↓same_ite]]
      simp [↓same_time]

/-! ## Freeze and thaw -/

theorem freezeNChange_keeps (low : Bool) : Keeps (.freezeNChange low) [.frz, .pwr] [] [] := by
  refine keeps_of_acEvent (fun _ => rfl) fun s => ?_
  simp [↓same_frz]

theorem frzCtlWrite_keeps (req : Bool) : Keeps (.frzCtlWrite req) [.pwr] [.one FRZ_CTL d0] [] := by
  refine keeps_of_acEvent (fun _ => rfl) fun s => ?_
  simp

theorem synchronisedFreeze_keeps :
    Keeps .synchronisedFreeze [.frz, .pon, .dram] [.one FRZ_STATUS d0, .all RSV_FREE, .one HW_OPMODE d0] [] := by
  refine keeps_of_acEvent (fun _ => rfl) fun s => ?_
  split
  · simp
  · dsimp only
    rw [same_evalMode (by simp), same_inc (by simp), same_put (by simp), same_put (by simp), same_put (by simp),
      same_foldl fun x c => by simp]
    simp [↓same_frz]

theorem freezeEdgeF_keeps : Keeps .freezeEdgeF [.frz] [.one FRZ_STATUS d0] [] := by
  refine keeps_of_event (fun _ => rfl) fun s => ?_
  simp [↓same_ite, ↓same_frz]

theorem thawFail_keeps (stacksUp : BitVec 8) : Keeps (.thawFail stacksUp) [.frz] [.one FRZ_STATUS d0] [] := by
  refine keeps_of_acEvent (fun _ => rfl) fun s => ?_
  simp [↓same_ite, ↓same_frz]

theorem chainShift_keeps (n : Nat) :
    Keeps (.chainShift n) [.frz, .mesh] [.one FRZ_CHAIN_LEN d0, .one FRZ_CHAIN_POS d0, .one FRZ_STATUS d0] [] := by
  refine keeps_of_acEvent (fun _ => rfl) fun s => ?_
  dsimp only [State.draw]
  split
  · simp
  · rw [same_showChain (by simp), same_frz (by simp), same_answer (by simp), same_fresh]
    exact Same.refl _ s

theorem thawStart_keeps : Keeps .thawStart [.frz, .lanes, .hw] [.one FRZ_STATUS d0, .all DLINK_STATUS] [] := by
  refine keeps_of_acEvent (fun _ => rfl) fun s => ?_
  split
  · simp
  · dsimp only
    rw [same_foldl fun x l => by simp [↓same_ite]]
    simp [↓same_frz]

theorem thawRelease_keeps (stacksUp : BitVec 8) :
    Keeps (.thawRelease stacksUp) [.mem, .mesh, .pwr, .frz, .pon, .dram, .pipe, .macs, .ciph]
      [.one FRZ_STATUS d0, .all CIPH_CNT_ERASED, .all CIPH_CNT_MS_TX_ERASED, .all CIPH_EVT, .all CIPH_LA_CTX_STAT,
        .all CIPH_LA_ERR, .all CIPH_LA_HEAD, .all CIPH_LA_STAT, .all RSV_EVT, .all MEM_EVT, .all RSV_ELOG_W, .all MEM_ELOG_W,
        .all CTL_ECC_CE, .all CTL_ECC_UE, .all PMC_CNT_LO, .all PMC_OVF]
      [.all PMC_CNT_HI] := by
  refine keeps_of_acEvent (fun _ => rfl) fun s => ?_
  split
  · simp
  · dsimp only
    rw [same_erasedOutcomes (by simp), same_foldl fun x l => by simp]
    simp [↓same_frz]

theorem thawEnd_keeps :
    Keeps .thawEnd [.frz, .hw, .pon, .pmc] [.one FRZ_STATUS d0, .one TIME_STATUS d0, .all PFR_PM_STAT, .all PMC_BW_STAT]
      [.all PFR_PM_CFG, .all PFR_PM_SES, .all PMC_BW_CFG] := by
  refine keeps_of_acEvent (fun _ => rfl) fun s => ?_
  split
  · simp
  · dsimp only
    rw [same_bwStep (by simp), same_foldl fun x c => by simp]
    simp [↓same_frz]

/-! ## Lanes and links -/

theorem txEqWrite_keeps (lane : TxLane) (v : Word) :
    Keeps (.txEqWrite lane v) [] [.one (eqPlace lane).1 ((eqPlace lane).2)] [] := by
  refine keeps_of_event (fun _ => rfl) fun s => ?_
  simp [↓same_ite]

theorem signalDetectChange_keeps (c : Chan) (high : Bool) :
    Keeps (.signalDetectChange c high) [.lanes]
      [.one CLK_STATUS d0, .one LANE_PRX_STAT (atChan c.val), .one TIME_STATUS d0]
      [.one LANE_PRX_DFE (atChan c.val), .one LANE_PRX_FFE0 (atChan c.val), .one LANE_PRX_FFE1 (atChan c.val)] := by
  refine keeps_of_event (fun _ => rfl) fun s => ?_
  simp [↓same_ite]

theorem cdrLockChange_keeps (c : Chan) (lock : Bool) :
    Keeps (.cdrLockChange c lock) [.time]
      [.one CLK_STATUS d0, .one LANE_PRX_STAT (atChan c.val), .one TIME_STATUS d0] [] := by
  refine keeps_of_event (fun _ => rfl) fun s => ?_
  simp [↓same_ite]

theorem prxEqCommit_keeps (c : Chan) :
    Keeps (.prxEqCommit c) [.lanes] []
      [.one LANE_PRX_DFE (atChan c.val), .one LANE_PRX_FFE0 (atChan c.val), .one LANE_PRX_FFE1 (atChan c.val)] := by
  refine keeps_of_event (fun _ => rfl) fun s => ?_
  simp [State.commitAll]

theorem laneLock_keeps (l : Fin 25) (back : Bool) (lane : Fin 16) (headers : Nat) (comma : Bool) :
    Keeps (.laneLock l back lane headers comma) [.lanes] [] [] := by
  refine keeps_of_acEvent (fun _ => rfl) fun s => ?_
  simp [↓same_ite]

theorem laneLockLoss_keeps (l : Fin 25) (back : Bool) (lane : Fin 16) (invalid missing crcBad : Nat) :
    Keeps (.laneLockLoss l back lane invalid missing crcBad) [.lanes] [] [] := by
  refine keeps_of_event (fun _ => rfl) fun s => ?_
  simp [↓same_ite]

theorem dlinkLocked_keeps (l : Fin 25) (x : Deskew) (slack : Option (Fin 16)) :
    Keeps (.dlinkLocked l x slack) [.lanes]
      [.one DLINK_STATUS (place (linkLow l.val) l.val), .one DLINK_STATUS (place (linkHigh l.val) l.val), .one HW_DIE_MAP d0]
      [] := by
  refine keeps_of_acEvent (fun _ => rfl) fun s => ?_
  split
  · simp
  · split
    · simp
    · cases slack with
      | none => simp
      | some k => simp [↓same_lanes]

theorem dlinkLockLoss_keeps (l : Fin 25) (lost : List (Requester × Addr × Bool)) (dropLow dropHigh : Nat) :
    Keeps (.dlinkLockLoss l lost dropLow dropHigh) [.mesh, .lanes, .pipe, .dram]
      [.one DLINK_STATUS (place (linkLow l.val) l.val), .one DLINK_STATUS (place (linkHigh l.val) l.val), .all DLINK_DROP,
        .all RSV_FREE] [] := by
  refine keeps_of_event (fun _ => rfl) fun s => ?_
  split
  · simp
  · extract_lets u1 u2 u3 u4 u5 u6 u7
    rw [same_lanes_mesh (by simp) (by simp)]
    refine (same_foldl (fun x y => by simp) lost).2 ?_
    simp [u6, u5, u4, u3, u2, u1]

theorem linkLossErrorResponse_keeps (req : Requester) : Keeps (.linkLossErrorResponse req) [.mesh] [] [] := by
  refine keeps_of_event (fun _ => rfl) fun s => ?_
  split
  · simp
  · simp [↓same_mesh]

/-! ## Eye scan and the optics I2C master -/

theorem escanStart_keeps (d : Die) (v : Word) :
    Keeps (.escanStart d v) [.lanes]
      [.one LANE_ESCAN_CTL (onDie d.val), .one LANE_ESCAN_ERR (onDie d.val), .one LANE_ESCAN_STAT (onDie d.val)] [] := by
  refine keeps_of_event (fun _ => rfl) fun s => ?_
  simp [↓same_ite]

theorem escanAbort_keeps (d : Die) (v : Word) (errors : Nat) :
    Keeps (.escanAbort d v errors) [.lanes]
      [.one LANE_ESCAN_CTL (onDie d.val), .one LANE_ESCAN_ERR (onDie d.val), .one LANE_ESCAN_STAT (onDie d.val)] [] := by
  refine keeps_of_event (fun _ => rfl) fun s => ?_
  simp [↓same_ite]

theorem escanDone_keeps (d : Die) (errors : Nat) (early : Option (Fin 3)) :
    Keeps (.escanDone d errors early) [.lanes]
      [.one LANE_ESCAN_ERR (onDie d.val), .one LANE_ESCAN_STAT (onDie d.val)] [] := by
  refine keeps_of_event (fun _ => rfl) fun s => ?_
  split
  · simp
  · simp [↓same_ite]

theorem optI2cGo_keeps (n : LineDie) (v : Word) (cmd : Instr) (h : cmd ∈ ([.optI2cWrite n v, .optI2cRead n v] : List Instr)) :
    Keeps cmd [.lanes] [.one LANE_OPT_I2C_CMD (onDie n.val), .one LANE_OPT_I2C_STAT (onDie n.val)]
      [.one LANE_OPT_I2C_CFG (onDie n.val)] := by
  simp only [List.mem_cons, List.not_mem_nil, or_false] at h
  rcases h with rfl | rfl <;> refine keeps_of_acEvent (fun _ => rfl) fun s => ?_
  · simp
  · simp

theorem optI2cStretchTimeout_keeps (n : LineDie) : Keeps (.optI2cStretchTimeout n) [.lanes] [] [] := by
  refine keeps_of_acEvent (fun _ => rfl) fun s => ?_
  split
  · simp
  · simp [↓same_lanes]

theorem optI2cDone_keeps (n : LineDie) (res : I2cEnd) (got : List Byte) :
    Keeps (.optI2cDone n res got) [.lanes]
      [.one LANE_OPT_I2C_CMD (onDie n.val), .one LANE_OPT_I2C_DATA0 (onDie n.val), .one LANE_OPT_I2C_DATA1 (onDie n.val),
        .one LANE_OPT_I2C_STAT (onDie n.val)] [] := by
  refine keeps_of_acEvent (fun _ => rfl) fun s => ?_
  split
  · simp
  · simp [State.i2cFinish, optRegs, ↓same_lanes]

/-- Settles O43: the frame of each command, by the rules of the operations it is made of. -/
theorem organisationTimeLaneFrames : Obligations.OrganisationTimeLaneFrames :=
  ⟨absentRefusalReport_keeps, postedWrite_keeps, dieFence_keeps, bootCtlDone_keeps, modeChange_keeps, sscTurningPoint_keeps,
    timeCfgWrite_keeps, timeRelockDone_keeps, timeArea_keeps, timeSnap_keeps, timeSnapCapture_keeps, timeSnapValid_keeps,
    todCapArm_keeps, todCapture_keeps, ppsInCapture_keeps, todTxStart_keeps, todRxByte_keeps, timeCommitApply_keeps,
    freezeNChange_keeps, frzCtlWrite_keeps, synchronisedFreeze_keeps, freezeEdgeF_keeps, chainShift_keeps, thawStart_keeps,
    thawFail_keeps, thawRelease_keeps, thawEnd_keeps, txEqWrite_keeps, signalDetectChange_keeps, cdrLockChange_keeps,
    prxEqCommit_keeps, laneLock_keeps, laneLockLoss_keeps, dlinkLocked_keeps, dlinkLockLoss_keeps,
    linkLossErrorResponse_keeps, escanStart_keeps, escanAbort_keeps, escanDone_keeps, optI2cGo_keeps,
    optI2cStretchTimeout_keeps, optI2cDone_keeps⟩

end Sys2Proof.Machine
end

section
/-!
The fields of the registers of Table 19.3 lie apart, so that a word made field by field reads field by field (R8, R14).
-/
namespace Sys2Proof.Machine

/-- Each field lies in its word, and no two share a bit. -/
abbrev FieldsApart (fs : List FieldDesc) : Prop :=
  (∀ f ∈ fs, f.lo ≤ f.hi ∧ f.hi < 32) ∧ fs.Pairwise fun f g => g.hi < f.lo ∨ f.hi < g.lo

/-- The fields of every register of the table lie apart, and each holds its Reset value. -/
theorem block_fields : ∀ b < 34, ∀ r ∈ RegTable.block b,
    FieldsApart r.fields ∧ ∀ f ∈ r.fields, f.reset < 2 ^ (f.hi + 1 - f.lo) := by
  decide

theorem block_beyond (k : Nat) : RegTable.block (k + 34) = [] := rfl

/-- A register of the table is one of its 34 blocks; any other has no fields. -/
theorem regDesc_fields (reg : Nat) :
    FieldsApart (regDesc reg).fields ∧ ∀ f ∈ (regDesc reg).fields, f.reset < 2 ^ (f.hi + 1 - f.lo) := by
  have hnone : FieldsApart [] ∧ ∀ f ∈ ([] : List FieldDesc), f.reset < 2 ^ (f.hi + 1 - f.lo) := by simp [FieldsApart]
  unfold regDesc
  by_cases hi : reg % 256 < (RegTable.block (reg / 256)).length
  · rw [List.getD_eq_getElem _ _ hi]
    by_cases hb : reg / 256 < 34
    · exact block_fields _ hb _ (List.getElem_mem hi)
    · obtain ⟨k, hk⟩ := Nat.exists_eq_add_of_le' (Nat.not_lt.1 hb)
      rw [hk, block_beyond] at hi
      exact absurd hi (Nat.not_lt_zero _)
  · rw [List.getD_eq_default _ _ (by omega)]
    exact hnone

/-! ## Words made field by field -/

/-- A step of a fold over fields that leaves every field apart from its own as it was. -/
def FieldStep (g : Word → FieldDesc → Word) : Prop :=
  ∀ (w : Word) (f h : FieldDesc), f.lo ≤ f.hi ∧ f.hi < 32 → (h.hi < f.lo ∨ f.hi < h.lo) → bits (g w f) h.hi h.lo = bits w h.hi h.lo

/-- Steps for other fields than f leave f. -/
theorem bits_foldl_other {g : Word → FieldDesc → Word} (hg : FieldStep g) {f : FieldDesc} {fs : List FieldDesc}
    (hin : ∀ h ∈ fs, h.lo ≤ h.hi ∧ h.hi < 32) (hne : ∀ h ∈ fs, f.hi < h.lo ∨ h.hi < f.lo) (w : Word) :
    bits (fs.foldl g w) f.hi f.lo = bits w f.hi f.lo := by
  induction fs generalizing w with
  | nil => rfl
  | cons h fs ih =>
    rw [List.foldl_cons, ih (fun x hx => hin x (by simp [hx])) (fun x hx => hne x (by simp [hx]))]
    exact hg w h f (hin h (by simp)) (hne h (by simp))

/-- A field of a word made field by field is what its own step made of it. -/
theorem bits_foldl_field {g : Word → FieldDesc → Word} (hg : FieldStep g) {fs : List FieldDesc} (hfs : FieldsApart fs)
    {f : FieldDesc} (hf : f ∈ fs) (w : Word) :
    ∃ u, bits u f.hi f.lo = bits w f.hi f.lo ∧ bits (fs.foldl g w) f.hi f.lo = bits (g u f) f.hi f.lo := by
  induction fs generalizing w with
  | nil => simp at hf
  | cons h fs ih =>
    obtain ⟨hin, hpair⟩ := hfs
    obtain ⟨hhead, htail⟩ := List.pairwise_cons.1 hpair
    have hin' : ∀ x ∈ fs, x.lo ≤ x.hi ∧ x.hi < 32 := fun x hx => hin x (by simp [hx])
    rw [List.foldl_cons]
    rcases List.mem_cons.1 hf with rfl | hmem
    · exact ⟨w, rfl, bits_foldl_other hg hin' (fun x hx => (hhead x hx).symm) _⟩
    · obtain ⟨u, hu, hfold⟩ := ih ⟨hin', htail⟩ hmem (g w h)
      exact ⟨u, hu.trans (hg w h f (hin h (by simp)) (hhead f hmem)), hfold⟩

theorem fieldStep_reset : FieldStep fun w (f : FieldDesc) => setBits w f.hi f.lo f.reset :=
  fun w f h hf hne => bits_setBits_other w f.hi f.lo _ h.hi h.lo hf.1 hf.2 hne

/-- A field of the word of Reset columns holds its Reset value. -/
theorem bits_fieldsReset {fs : List FieldDesc} (hfs : FieldsApart fs) {f : FieldDesc} (hf : f ∈ fs)
    (hr : f.reset < 2 ^ (f.hi + 1 - f.lo)) : bits (fieldsReset fs) f.hi f.lo = f.reset := by
  obtain ⟨hlo, hhi⟩ := hfs.1 f hf
  obtain ⟨u, -, hfold⟩ := bits_foldl_field fieldStep_reset hfs hf 0
  rw [fieldsReset, hfold, bits_setBits_same _ _ _ _ hlo hhi, Nat.mod_eq_of_lt hr]

end Sys2Proof.Machine
end

section
/-!
The state after cold reset (R14, R744).
-/
namespace Sys2Proof.Machine
open Reg

/-- The registers whose Reset column names the part, the link, the pad group, the alarm or the die. -/
abbrev namedResets : List Nat :=
  [HW_ID, HW_DIE_MAP, HW_UID_HI, HW_UID_LO, HW_PAD_CFG, DLINK_STATUS, SENS_ALM, RSV_CAPACITY, RSV_FREE, RSV_STAT, MEM_STAT]

theorem rkey_div (r a : Nat) : rkey r a / 2 ^ 28 = r := by
  unfold rkey
  have := Nat.mod_lt a (show 0 < 2 ^ 28 by decide)
  omega

/-- The word of any other register after cold reset is that of its Reset columns. -/
theorem resetWord_of_fields {reg : Nat} (h : reg ∉ namedResets) (p : Part) (a : Nat) :
    resetWord p (rkey reg a) = fieldsReset (regDesc reg).fields := by
  simp only [List.mem_cons, List.not_mem_nil, or_false, not_or] at h
  unfold resetWord
  rw [rkey_div]
  simp [h]

theorem reset_rd (reg a : Nat) : State.reset.rd reg a = resetWord .zg6480 (rkey reg a) := rfl

/-- Settles O56: the words at reset are those of the Reset columns, whose fields lie apart; all else stands in State.reset as
written. -/
theorem resetValues : Obligations.ResetValues := by
  refine ⟨fun reg hreg f hf a => ?_, fun _ _ => rfl, ?_, rfl, fun _ _ => rfl, rfl, rfl, fun _ => rfl, fun _ => rfl, rfl⟩
  · obtain ⟨hapart, hreset⟩ := regDesc_fields reg
    rw [reset_rd, resetWord_of_fields hreg]
    exact bits_fieldsReset hapart hf (hreset f hf)
  · decide

end Sys2Proof.Machine
end

section
/-!
What a firmware write leaves in the fields of a register (R8, R9, R12, R13).
-/
namespace Sys2Proof.Machine
open Reg

/-! ## Fields of combined words -/

theorem bits_or (x y : Word) (hi lo : Nat) : bits (x ||| y) hi lo = bits x hi lo ||| bits y hi lo := by
  apply Nat.eq_of_testBit_eq
  intro j
  simp [bits_testBit, Nat.testBit_or, Bool.and_or_distrib_left]

theorem bits_and (x y : Word) (hi lo : Nat) : bits (x &&& y) hi lo = bits x hi lo &&& bits y hi lo := by
  apply Nat.eq_of_testBit_eq
  intro j
  simp only [bits_testBit, Nat.testBit_and, BitVec.getLsbD_and]
  cases decide (j < hi + 1 - lo) <;> simp

theorem bits_lt (w : Word) (hi lo : Nat) : bits w hi lo < 2 ^ (hi + 1 - lo) := Nat.mod_lt _ (Nat.two_pow_pos _)

/-- A field reads as the field of a word that it took. -/
theorem bits_setBits_bits (w x : Word) {hi lo : Nat} (h : lo ≤ hi ∧ hi < 32) :
    bits (setBits w hi lo (bits x hi lo)) hi lo = bits x hi lo := by
  rw [bits_setBits_same _ _ _ _ h.1 h.2, Nat.mod_eq_of_lt (bits_lt x hi lo)]

/-! ## One write -/

theorem fieldStep_write (free new same : Word) : FieldStep (writeField free new same) := by
  intro w f h hf hne
  obtain ⟨hlo, hhi⟩ := hf
  unfold writeField
  cases f.acc with
  | rw => dsimp only; split <;> exact bits_setBits_other _ _ _ _ _ _ hlo hhi hne
  | w1c => exact (bits_setBits_other _ _ _ _ _ _ hlo hhi hne).trans (bits_setBits_other _ _ _ _ _ _ hlo hhi hne)
  | ro => rfl
  | rc => rfl
  | wo => rfl

/-- A write of a field in a word that holds the field's old value. -/
theorem took_writeField {f : FieldDesc} (hf : f.lo ≤ f.hi ∧ f.hi < 32) {old u : Word} (hu : bits u f.hi f.lo = bits old f.hi f.lo)
    (free new same now : Word) (hnow : bits now f.hi f.lo = bits (writeField free new same u f) f.hi f.lo) :
    f.took old new same now = true := by
  unfold FieldDesc.took
  unfold writeField at hnow
  cases hacc : f.acc with
  | rw =>
    simp only [hacc] at hnow ⊢
    by_cases hl : f.legal (bits new f.hi f.lo) = true
    · simp [hnow, hl, bits_setBits_bits _ _ hf]
    · simp [hl]
  | w1c =>
    simp only [hacc] at hnow ⊢
    rw [bits_setBits_bits _ _ hf, bits_or, bits_setBits_bits _ _ hf, bits_and, hu] at hnow
    simp [hnow, bits_or, bits_and]
  | ro => simp_all
  | rc => simp_all
  | wo => simp_all

/-- Each of the fields written takes what its access code says. -/
theorem took_writeWord {fs : List FieldDesc} (hfs : FieldsApart fs) (free old new same : Word) {f : FieldDesc} (hf : f ∈ fs) :
    f.took old new same (writeWord fs free old new same) = true := by
  obtain ⟨u, hu, hfold⟩ := bits_foldl_field (fieldStep_write free new same) hfs hf old
  exact took_writeField (hfs.1 f hf) hu free new same _ hfold

/-! ## The fields that a write may change -/

/-- The fields with their legal values changed. -/
def FieldsLike (fs gs : List FieldDesc) : Prop := ∃ g : FieldDesc → FieldDesc, gs = fs.map g ∧
  ∀ f, (g f).hi = f.hi ∧ (g f).lo = f.lo ∧ (g f).acc = f.acc

theorem FieldsLike.refl (fs : List FieldDesc) : FieldsLike fs fs := ⟨id, by simp, by simp⟩

theorem FieldsLike.ranged {fs gs : List FieldDesc} (h : FieldsLike fs gs) (lo min max : Nat) :
    FieldsLike fs (ranged gs lo min max) := by
  obtain ⟨g, rfl, hg⟩ := h
  refine ⟨_, List.map_map, fun f => ?_⟩
  dsimp only [Function.comp]
  split <;> exact hg f

theorem FieldsLike.ite {fs gs hs : List FieldDesc} {c : Prop} [Decidable c] (hg : FieldsLike fs gs) (hh : FieldsLike fs hs) :
    FieldsLike fs (if c then gs else hs) := by
  split
  · exact hg
  · exact hh

/-- The encodings that depend on a register's place change legal values alone. -/
theorem regFields_like (p : Part) (r a : Nat) (v : Word) : FieldsLike (regDesc r).fields (regFields p r a v) := by
  have h := FieldsLike.refl (regDesc r).fields
  have h1 (lo min max : Nat) := h.ranged lo min max
  refine .ite (h1 _ _ _) <| .ite (h1 _ _ _) <| .ite (h1 _ _ _) <| .ite (h1 _ _ _) <| .ite (h1 _ _ _) <|
    .ite ((h1 _ _ _).ranged _ _ _) <| .ite (h1 _ _ _) <| .ite (h1 _ _ _) <| .ite (h1 _ _ _) <| .ite (h1 _ _ _) <|
    .ite (h1 _ _ _) <| .ite ?_ h
  cases eventInstances (a / 2 ^ 24) (a % 2 ^ 24 / 8) (bits v 9 0) with
  | none => exact h1 _ _ _
  | some n => exact .ite h (h1 _ _ _)

theorem FieldsLike.apart {fs gs : List FieldDesc} (h : FieldsLike fs gs) (hfs : FieldsApart fs) : FieldsApart gs := by
  obtain ⟨g, rfl, hg⟩ := h
  obtain ⟨hin, hpair⟩ := hfs
  refine ⟨by simpa [hg] using hin, ?_⟩
  simpa [List.pairwise_map, hg] using hpair

theorem FieldsApart.filter {fs : List FieldDesc} (h : FieldsApart fs) (p : FieldDesc → Bool) : FieldsApart (fs.filter p) :=
  ⟨fun f hf => h.1 f (List.mem_of_mem_filter hf), h.2.filter p⟩

theorem writableFields_apart (p : Part) (r a : Nat) (v : Word) (lv : Level) : FieldsApart (writableFields p r a v lv) := by
  have h := (regFields_like p r a v).apart (regDesc_fields r).1
  unfold writableFields
  dsimp only
  split
  · exact h
  · split
    · exact h.filter _
    · split
      · exact h.filter _
      · exact h

end Sys2Proof.Machine
end

section
/-!
Firmware writes and reads of registers (R8 to R13, R560, R623): the three rows of register accesses.
-/
namespace Sys2Proof.Machine
open Reg

/-! ## A write that starts no command -/

section
variable (s : State) (fs : List FieldDesc) (r a : Nat) (new same : Word)

theorem State.rd_fwWriteFields : (s.fwWriteFields fs r a new same).rd r a =
    writeWord fs (Config.freeReserved s.fresh) (s.rd r a) new same := by
  unfold State.fwWriteFields
  exact State.rd_wr_same _ _ _ _

@[simp] theorem State.fwWriteFields_part : (s.fwWriteFields fs r a new same).part = s.part := by
  simp only [State.fwWriteFields, State.wr_part]
  split <;> rfl

@[simp] theorem State.fwWriteFields_mem : (s.fwWriteFields fs r a new same).mem = s.mem := by
  simp only [State.fwWriteFields, State.wr_mem]
  split <;> rfl

@[simp] theorem State.fwWriteFields_eff : (s.fwWriteFields fs r a new same).eff = s.eff := by
  simp only [State.fwWriteFields, State.wr_eff]
  split <;> rfl

@[simp] theorem State.fwWriteFields_hw : (s.fwWriteFields fs r a new same).hw = s.hw := by
  simp only [State.fwWriteFields, State.wr_hw]
  split <;> rfl

end

/-- What a write of register r at element i of die d sets by access code. -/
abbrev State.fieldWrite (s : State) (lv : Level) (d r i : Nat) (v same : Word) : State :=
  s.fwWriteFields (writableFields s.part r (place d i) v lv) r (place d i) v same

theorem State.took_fieldWrite (s : State) (lv : Level) (d r i : Nat) (v same : Word) {f : FieldDesc}
    (hf : f ∈ writableFields s.part r (place d i) v lv) :
    f.took (s.rd r (place d i)) v same ((s.fieldWrite lv d r i v same).rd r (place d i)) = true := by
  rw [State.rd_fwWriteFields]
  exact took_writeWord (writableFields_apart ..) _ _ _ _ hf

/-- A register without an effect of its own only takes its fields. -/
theorem State.plainWrite_plain (s : State) (lv : Level) {r : Nat} (h : plainReg r = true) (d i : Nat) (v same : Word) :
    s.plainWrite lv d r i v same = s.fieldWrite lv d r i v same := by
  simp only [plainReg, List.contains_cons, List.contains_nil, Bool.or_false, Bool.not_eq_true', Bool.or_eq_false_iff, beq_eq_false_iff_ne] at h
  simp [State.plainWrite, isGateAdmin, h]

theorem State.regWrite_plain (s : State) (req : Requester) {lv : Level} {d r i : Nat} {v : Word} (hmay : mayWrite r lv = true)
    (hrows : writeRows req lv d r i v = []) (hplain : plainReg r = true) (same : Word) :
    s.regWrite req lv d r i v same = s.fieldWrite lv d r i v same := by
  simp [State.regWrite, hmay, hrows, State.plainWrite_plain s lv hplain]

/-! ## The three rows, while the domains run -/

theorem exec_registerWrite_running {s : State} {a : Addr} {d r i : Nat} (hrun : s.running = true)
    (hat : s.regAt a = some (d, r, i)) (v : Word) (lv : Level) :
    exec (.registerWrite a v lv) s = .next (s.kept (s.regWrite .tap lv d r i v 0)) := by
  change execRegisterWrite a v lv s = _
  unfold execRegisterWrite
  rw [State.event_running _ _ hrun]
  simp only [hat]

theorem exec_w1cWrite_running {s : State} {a : Addr} {d r i : Nat} (hrun : s.running = true)
    (hat : s.regAt a = some (d, r, i)) (v : Word) (lv : Level) (same : Word) :
    exec (.w1cWrite a v lv same) s = .next (s.kept (s.regWrite .tap lv d r i v same)) := by
  change execW1cWrite a v lv same s = _
  unfold execW1cWrite
  rw [State.event_running _ _ hrun]
  simp only [hat]

theorem exec_rcRead_running {s : State} {a : Addr} {d r i : Nat} (hrun : s.running = true)
    (hat : s.regAt a = some (d, r, i)) (q : Requester) (same : Word) :
    exec (.rcRead q a same) s = .next (s.kept (s.regRead q .monitor d r i same)) := by
  change execRcRead q a same s = _
  unfold execRcRead
  rw [State.event_running _ _ hrun]
  simp only [hat]

theorem State.rd_kept_fieldWrite (s : State) (lv : Level) (d r i : Nat) (v same : Word) (r' a' : Nat) :
    (s.kept (s.fieldWrite lv d r i v same)).rd r' a' = (s.fieldWrite lv d r i v same).rd r' a' :=
  State.rd_kept s _ (State.fwWriteFields_part ..) r' a'

/-- What a write of a register without an effect of its own leaves. -/
theorem completes_fieldWrite {c : Instr} {s : State} {lv : Level} {d r i : Nat} {v same : Word}
    (hc : exec c s = .next (s.kept (s.fieldWrite lv d r i v same))) :
    Completes c s fun t => ((writableFields s.part r (place d i) v lv).all fun f =>
      f.took (s.rd r (place d i)) v same (t.rd r (place d i))) = true ∧ t.mem = s.mem ∧ t.eff = s.eff ∧ t.hw = s.hw := by
  refine ⟨_, hc, List.all_eq_true.2 fun f hf => ?_, ?_, ?_, ?_⟩
  · rw [State.rd_kept_fieldWrite]
    exact s.took_fieldWrite lv d r i v same hf
  · rw [State.kept_mem, State.fwWriteFields_mem]
  · rw [State.kept_eff, State.fwWriteFields_eff]
  · rw [State.kept_hw, State.fwWriteFields_hw]

/-! ## The commands that a write starts -/

/-- The registers whose writes start commands, whatever is written. -/
def startRegs : List Nat :=
  (rowsHeadwater .user 0 0 ++ rowsLine 0 0 0 ++ rowsPipe 0 0 ++ rowsTraffic 0 0 0 ++ rowsRest .tap .user 0 0 0).map Prod.fst

/-- A table of commands without the register starts none. -/
theorem rows_find_eq_none {rows : List (Nat × List (State → Out))} {r : Nat} (h : r ∉ rows.map Prod.fst) :
    rows.find? (fun x => x.1 == r) = none := by
  rw [List.find?_eq_none]
  intro x hx hxr
  exact h (List.mem_map.2 ⟨x, hx, by simpa using hxr⟩)

theorem rowsHeadwater_heads (lv : Level) (i : Nat) (v : Word) :
    (rowsHeadwater lv i v).map Prod.fst = (rowsHeadwater .user 0 0).map Prod.fst := by
  simp only [rowsHeadwater, List.map_cons, List.map_nil]

theorem rowsLine_heads (d i : Nat) (v : Word) : (rowsLine d i v).map Prod.fst = (rowsLine 0 0 0).map Prod.fst := by
  simp only [rowsLine, List.map_cons, List.map_nil]

theorem rowsPipe_heads (d : Nat) (v : Word) : (rowsPipe d v).map Prod.fst = (rowsPipe 0 0).map Prod.fst := by
  simp only [rowsPipe, List.map_cons, List.map_nil]

theorem rowsTraffic_heads (d i : Nat) (v : Word) : (rowsTraffic d i v).map Prod.fst = (rowsTraffic 0 0 0).map Prod.fst := by
  simp only [rowsTraffic, List.map_cons, List.map_nil]

theorem rowsRest_heads (req : Requester) (lv : Level) (d i : Nat) (v : Word) :
    (rowsRest req lv d i v).map Prod.fst = (rowsRest .tap .user 0 0 0).map Prod.fst := by
  simp only [rowsRest, List.map_cons, List.map_nil]

theorem writeRows_eq_nil {r : Nat} (h : r ∉ startRegs) (req : Requester) (lv : Level) (d i : Nat) (v : Word) :
    writeRows req lv d r i v = [] := by
  simp only [startRegs, List.map_append, List.mem_append, not_or, and_assoc] at h
  obtain ⟨h1, h2, h3, h4, h5⟩ := h
  rw [← rowsHeadwater_heads lv i v] at h1
  rw [← rowsLine_heads d i v] at h2
  rw [← rowsPipe_heads d v] at h3
  rw [← rowsTraffic_heads d i v] at h4
  rw [← rowsRest_heads req lv d i v] at h5
  unfold writeRows
  dsimp only
  split_ifs <;> simp only [rows_find_eq_none h1, rows_find_eq_none h2, rows_find_eq_none h3, rows_find_eq_none h4, rows_find_eq_none h5]

/-- The registers with a W1C field whose writes start commands. -/
theorem startRegs_w1c : ∀ r ∈ startRegs, (∃ f ∈ (regDesc r).fields, f.acc = .w1c) →
    r ∈ [PWR_RET_LOST, TM_QOP, RSV_SPMAP_CTL, MEM_SPMAP_CTL, CTL_L2_CFG] := by
  decide

end Sys2Proof.Machine
end

section
/-!
The commands that a write starts keep the part, so that a register reads as it was last written; the W1C bits that hardware sets on
the edge of a write stay set (R9).
-/
namespace Sys2Proof.Machine
open Reg

/-- An outcome is a next state, of the part of s. -/
def PartKept (s : State) (o : Out) : Prop := ∃ t, o = .next t ∧ t.part = s.part

theorem partKept_event {s u : State} (h : u.part = s.part) (f : State → State) : PartKept s (u.event f) := by
  by_cases hr : u.running = true
  · exact ⟨_, State.event_running u f hr, h⟩
  · exact ⟨_, State.event_stopped u f (by simpa using hr), h⟩

/-- Commands keep the part from any state of it. -/
def KeepPart (l : List (State → Out)) : Prop := ∀ f ∈ l, ∀ s u : State, u.part = s.part → PartKept s (f u)

theorem keepPart_nil : KeepPart [] := fun _ hf => absurd hf List.not_mem_nil

theorem keepPart_cons {f : State → Out} {l : List (State → Out)} (hf : ∀ s u : State, u.part = s.part → PartKept s (f u))
    (hl : KeepPart l) : KeepPart (f :: l) :=
  List.forall_mem_cons.2 ⟨hf, hl⟩

theorem keepPart_event {g : State → State} {l : List (State → Out)} (hl : KeepPart l) :
    KeepPart ((fun u => u.event g) :: l) :=
  keepPart_cons (fun _ _ hu => partKept_event hu g) hl

theorem keepPart_append {l k : List (State → Out)} (hl : KeepPart l) (hk : KeepPart k) : KeepPart (l ++ k) :=
  fun f hf => (List.mem_append.1 hf).elim (hl f) (hk f)

/-- A write that names an operation starts one command of the list or, where the operation is reserved, may start none. -/
theorem keepPart_goOp {l : List (State → Out)} (h : KeepPart l) (v : Word) (op : Nat) : KeepPart (goOp v op l) := by
  unfold goOp
  split
  · exact keepPart_nil
  · refine keepPart_cons (fun s u hu => ?_) keepPart_nil
    split
    · next g hg => exact h g (List.mem_of_getElem? hg) s u hu
    · split
      · next g hg => exact h g (List.mem_of_getElem? hg) s _ hu
      · exact ⟨_, rfl, hu⟩

/-- The commands of a list, one after the other, keep the part. -/
theorem keepPart_foldl {l : List (State → Out)} (h : KeepPart l) (s : State) :
    (l.foldl (fun (s : State) f => (f s).after s) s).part = s.part := by
  induction l generalizing s with
  | nil => rfl
  | cons f l ih =>
    obtain ⟨hf, hl⟩ := List.forall_mem_cons.1 h
    obtain ⟨t, ht, hp⟩ := hf s s rfl
    rw [List.foldl_cons, ih hl, ht]
    exact hp

/-- The commands that a write of a register with a W1C field starts. -/
theorem keepPart_writeRows {r : Nat} (h : r ∈ [PWR_RET_LOST, TM_QOP, RSV_SPMAP_CTL, MEM_SPMAP_CTL, CTL_L2_CFG])
    (req : Requester) (lv : Level) (d i : Nat) (v : Word) : KeepPart (writeRows req lv d r i v) := by
  have hspmap (e : Die) (b : Fin 2) : KeepPart (goOp v (bits v 30 29) [execSpmapReadSpare e b v, execSpmapWriteSpare e b v,
      execSpmapReadRetirement e b v, execSpmapWriteRetirement e b v]) :=
    keepPart_goOp (keepPart_event <| keepPart_event <| keepPart_event <| keepPart_event keepPart_nil) _ _
  simp only [List.mem_cons, List.not_mem_nil, or_false] at h
  rcases h with rfl | rfl | rfl | rfl | rfl
  · have hrows : writeRows req lv d PWR_RET_LOST i v = [execRetLostClear (Fin.ofNat 8 i) v] := by
      simp +decide [writeRows, rowsHeadwater]
    rw [hrows]
    exact keepPart_event keepPart_nil
  · have hrows : writeRows req lv d TM_QOP i v = goOp v (bits v 30 29) [execQopWrite ⟨Fin.ofNat 6 d, .clean⟩ v,
        execQopRead ⟨Fin.ofNat 6 d, .clean⟩ v, execQopFill ⟨Fin.ofNat 6 d, .clean⟩ v,
        execQopFlush ⟨Fin.ofNat 6 d, .clean⟩ v] := by
      simp +decide [writeRows, rowsTraffic]
    rw [hrows]
    exact keepPart_goOp (keepPart_event <| keepPart_event <| keepPart_event <| keepPart_event keepPart_nil) _ _
  · have hrows : writeRows req lv d RSV_SPMAP_CTL i v = goOp v (bits v 30 29) [execSpmapReadSpare (Fin.ofNat 8 d) 0 v,
        execSpmapWriteSpare (Fin.ofNat 8 d) 0 v, execSpmapReadRetirement (Fin.ofNat 8 d) 0 v,
        execSpmapWriteRetirement (Fin.ofNat 8 d) 0 v] := by
      simp +decide [writeRows, rowsRest]
    rw [hrows]
    exact hspmap _ _
  · have hrows : writeRows req lv d MEM_SPMAP_CTL i v = goOp v (bits v 30 29) [execSpmapReadSpare (Fin.ofNat 8 d) 1 v,
        execSpmapWriteSpare (Fin.ofNat 8 d) 1 v, execSpmapReadRetirement (Fin.ofNat 8 d) 1 v,
        execSpmapWriteRetirement (Fin.ofNat 8 d) 1 v] ++
        (if bit v 31 then [] else onBit v 26 (execSpmapLock (Fin.ofNat 6 d) v)) := by
      simp +decide [writeRows, rowsRest]
    rw [hrows]
    refine keepPart_append (hspmap _ _) ?_
    unfold onBit
    split_ifs
    · exact keepPart_nil
    · exact keepPart_event keepPart_nil
    · exact keepPart_nil
  · have hrows : writeRows req lv d CTL_L2_CFG i v = [execL2CfgWrite (Fin.ofNat 2 d) v] := by
      simp +decide [writeRows, rowsRest]
    rw [hrows]
    exact keepPart_event keepPart_nil

/-! ## W1C bits that hardware sets on the edge of a write -/

/-- A bit of a register's W1C mask lies in a W1C field. -/
theorem w1cMask_getLsbD {fs : List FieldDesc} (hin : ∀ f ∈ fs, f.lo ≤ f.hi ∧ f.hi < 32) {j : Nat}
    (h : (w1cMask fs).getLsbD j = true) : ∃ f ∈ fs, f.acc = .w1c ∧ f.lo ≤ j ∧ j ≤ f.hi := by
  refine List.foldlRecOn (motive := fun w : Word => w.getLsbD j = true → ∃ f ∈ fs, f.acc = .w1c ∧ f.lo ≤ j ∧ j ≤ f.hi) fs _
    (by simp) (fun w ih f hf hj => ?_) h
  split at hj
  · next hacc =>
    obtain ⟨hlo, hhi⟩ := hin f hf
    rw [setBits_getLsbD _ _ _ _ _ hlo hhi] at hj
    split at hj
    · next hmem => exact ⟨f, hf, by simpa using hacc, hmem.1, hmem.2⟩
    · exact ih hj
  · exact ih hj

/-- A W1C field that took a write holds each bit that hardware set. -/
theorem getLsbD_of_took_w1c {f : FieldDesc} (hacc : f.acc = .w1c) {old new same now : Word}
    (h : f.took old new same now = true) {j : Nat} (hlo : f.lo ≤ j) (hhi : j ≤ f.hi) (hs : same.getLsbD j = true) :
    now.getLsbD j = true := by
  simp only [FieldDesc.took, hacc, beq_iff_eq] at h
  have hj := congrArg (Nat.testBit · (j - f.lo)) h
  simp only [bits_testBit, Nat.add_sub_cancel' hlo, show j - f.lo < f.hi + 1 - f.lo by omega, decide_true, Bool.true_and,
    BitVec.getLsbD_or, hs, Bool.or_true] at hj
  exact hj

/-- The registers with an effect of their own and a W1C field. -/
theorem plainReg_w1c {r : Nat} (h : plainReg r = false) (hw : ∃ f ∈ (regDesc r).fields, f.acc = .w1c) :
    r = HW_ABSENT_INFO ∨ r = TIME_PPS_IN_STAT := by
  have hmem := List.contains_iff_mem.1 (by simpa only [plainReg, Bool.not_eq_false'] using h)
  clear h
  revert hw
  revert r
  decide

end Sys2Proof.Machine
end

section
/-!
The W1C bits that hardware sets on the edge of a firmware write stay set, whatever the write does besides (R9).
-/
namespace Sys2Proof.Machine
open Reg

/-- A W1C field is one that a write at any level may change. -/
theorem exists_writable_w1c (p : Part) {r : Nat} (a : Nat) (v : Word) (lv : Level) {f : FieldDesc} (hf : f ∈ (regDesc r).fields)
    (hacc : f.acc = .w1c) : ∃ g ∈ writableFields p r a v lv, g.acc = .w1c ∧ g.hi = f.hi ∧ g.lo = f.lo := by
  obtain ⟨h, hlist, hlike⟩ := regFields_like p r a v
  obtain ⟨hhi, hlo, hac⟩ := hlike f
  have hmem : h f ∈ regFields p r a v := hlist ▸ List.mem_map_of_mem hf
  refine ⟨h f, ?_, hac.trans hacc, hhi, hlo⟩
  unfold writableFields
  dsimp only
  split
  · exact hmem
  · split
    · exact List.mem_filter.2 ⟨hmem, by simp [hac, hacc]⟩
    · split
      · next hr =>
        have hlevel : ∀ f ∈ (regDesc IRQ_SRC_CFG).fields, f.acc = .w1c → f.hi ≠ 30 := by decide
        have hne := hlevel f (by rwa [← (beq_iff_eq.1 hr)]) hacc
        exact List.mem_filter.2 ⟨hmem, by simp [hhi, hne]⟩
      · exact hmem

theorem State.getLsbD_rd_put_other (s : State) {f : Fld} (a v : Nat) (hf : f.lo ≤ f.hi ∧ f.hi < 32) {j : Nat}
    (hj : ¬(f.lo ≤ j ∧ j ≤ f.hi)) : ((s.put f a v).rd f.reg a).getLsbD j = (s.rd f.reg a).getLsbD j := by
  rw [State.put, State.rd_wr_same, setBits_getLsbD _ _ _ _ _ hf.1 hf.2, if_neg hj]

/-- A field that a write may clear besides leaves the bits of other fields. -/
theorem State.cleared_other (t : State) {c : Prop} [Decidable c] {f : Fld} (a : Nat) (hf : f.lo ≤ f.hi ∧ f.hi < 32) {j : Nat}
    (hj : ¬(f.lo ≤ j ∧ j ≤ f.hi)) : (if c then t else t.put f a 0).part = t.part ∧
      ((if c then t else t.put f a 0).rd f.reg a).getLsbD j = (t.rd f.reg a).getLsbD j := by
  split
  · exact ⟨rfl, rfl⟩
  · exact ⟨State.put_part .., t.getLsbD_rd_put_other a 0 hf hj⟩

section
variable (s : State) (lv : Level) (d i : Nat) (v same : Word)

theorem State.plainWrite_absentInfo : s.plainWrite lv d HW_ABSENT_INFO i v same =
    if (s.fieldWrite lv d HW_ABSENT_INFO i v same).is HW_ABSENT_INFO_VALID (place d i)
    then s.fieldWrite lv d HW_ABSENT_INFO i v same
    else (s.fieldWrite lv d HW_ABSENT_INFO i v same).put HW_ABSENT_INFO_MORE (place d i) 0 := by
  simp +decide [State.plainWrite]

theorem State.plainWrite_ppsInStat : s.plainWrite lv d TIME_PPS_IN_STAT i v same =
    if (s.fieldWrite lv d TIME_PPS_IN_STAT i v same).is TIME_PPS_IN_STAT_VALID (place d i)
    then s.fieldWrite lv d TIME_PPS_IN_STAT i v same
    else (s.fieldWrite lv d TIME_PPS_IN_STAT i v same).put TIME_PPS_IN_STAT_MISSED (place d i) 0 := by
  simp +decide [State.plainWrite]

variable {r j : Nat} {f : FieldDesc}

theorem State.getLsbD_fieldWrite (hf : f ∈ (regDesc r).fields) (hacc : f.acc = .w1c) (hlo : f.lo ≤ j) (hhi : j ≤ f.hi)
    (hs : same.getLsbD j = true) : ((s.fieldWrite lv d r i v same).rd r (place d i)).getLsbD j = true := by
  obtain ⟨g, hg, hgacc, hghi, hglo⟩ := exists_writable_w1c s.part (place d i) v lv hf hacc
  exact getLsbD_of_took_w1c hgacc (s.took_fieldWrite lv d r i v same hg) (hglo ▸ hlo) (hghi ▸ hhi) hs

theorem State.getLsbD_plainWrite (hf : f ∈ (regDesc r).fields) (hacc : f.acc = .w1c) (hlo : f.lo ≤ j) (hhi : j ≤ f.hi)
    (hs : same.getLsbD j = true) : (s.plainWrite lv d r i v same).part = s.part ∧
      ((s.plainWrite lv d r i v same).rd r (place d i)).getLsbD j = true := by
  have hset := s.getLsbD_fieldWrite lv d i v same hf hacc hlo hhi hs
  have hpart := State.fwWriteFields_part s (writableFields s.part r (place d i) v lv) r (place d i) v same
  by_cases hplain : plainReg r = true
  · rw [State.plainWrite_plain s lv hplain]
    exact ⟨hpart, hset⟩
  · rcases plainReg_w1c (by simpa using hplain) ⟨f, hf, hacc⟩ with rfl | rfl
    · have hover : ∀ f ∈ (regDesc HW_ABSENT_INFO).fields, f.acc = .w1c → HW_ABSENT_INFO_MORE.hi < f.lo := by decide
      have hj : ¬(HW_ABSENT_INFO_MORE.lo ≤ j ∧ j ≤ HW_ABSENT_INFO_MORE.hi) := fun h => by
        have := hover f hf hacc
        omega
      rw [State.plainWrite_absentInfo]
      exact (State.cleared_other _ _ (by decide) hj).imp (·.trans hpart) (·.trans hset)
    · have hover : ∀ f ∈ (regDesc TIME_PPS_IN_STAT).fields, f.acc = .w1c → TIME_PPS_IN_STAT_MISSED.hi < f.lo := by decide
      have hj : ¬(TIME_PPS_IN_STAT_MISSED.lo ≤ j ∧ j ≤ TIME_PPS_IN_STAT_MISSED.hi) := fun h => by
        have := hover f hf hacc
        omega
      rw [State.plainWrite_ppsInStat]
      exact (State.cleared_other _ _ (by decide) hj).imp (·.trans hpart) (·.trans hset)

theorem State.getLsbD_regWrite (req : Requester) (hmay : mayWrite r lv = true) (hs : same.getLsbD j = true)
    (hm : (w1cMask (regDesc r).fields).getLsbD j = true) : (s.regWrite req lv d r i v same).part = s.part ∧
      ((s.regWrite req lv d r i v same).rd r (place d i)).getLsbD j = true := by
  obtain ⟨f, hf, hacc, hlo, hhi⟩ := w1cMask_getLsbD (regDesc_fields r).1.1 hm
  have hset : same &&& w1cMask (regDesc r).fields ≠ 0 := by
    intro h0
    have := congrArg (BitVec.getLsbD · j) h0
    simp [hs, hm] at this
  by_cases hrows : writeRows req lv d r i v = []
  · have : s.regWrite req lv d r i v same = s.plainWrite lv d r i v same := by simp [State.regWrite, hmay, hrows]
    rw [this]
    exact s.getLsbD_plainWrite lv d i v same hf hacc hlo hhi hs
  · have hstart : r ∈ startRegs := by
      by_contra hno
      exact hrows (writeRows_eq_nil hno req lv d i v)
    have hkeep := keepPart_foldl (keepPart_writeRows (startRegs_w1c r hstart ⟨f, hf, hacc⟩) req lv d i v) s
    unfold State.regWrite
    rw [if_neg (by simp [hmay])]
    split
    · next h0 => exact absurd h0 hrows
    · rw [if_neg hset]
      refine ⟨(State.wr_part ..).trans hkeep, ?_⟩
      rw [State.rd_wr_same, BitVec.getLsbD_or, BitVec.getLsbD_and, hs, hm]
      simp

end

end Sys2Proof.Machine
end

section
/-!
A firmware read returns the stored word and clears the RC fields of its register (R8, R10, R12).
-/
namespace Sys2Proof.Machine
open Reg

theorem bits_congr {x y : Word} {hi lo : Nat} (h : ∀ j, lo ≤ j → j ≤ hi → x.getLsbD j = y.getLsbD j) :
    bits x hi lo = bits y hi lo := by
  apply Nat.eq_of_testBit_eq
  intro j
  rw [bits_testBit, bits_testBit]
  by_cases hj : j < hi + 1 - lo
  · rw [h (lo + j) (by omega) (by omega)]
  · simp [hj]

theorem fieldStep_rcMask : FieldStep fun w (f : FieldDesc) =>
    if f.acc == .rc then setBits w f.hi f.lo (2 ^ (f.hi + 1 - f.lo) - 1) else w := by
  intro w f h hf hne
  dsimp only
  split
  · exact bits_setBits_other _ _ _ _ _ _ hf.1 hf.2 hne
  · rfl

/-- A bit of a field is in the RC mask exactly where the field is RC. -/
theorem rcMask_getLsbD {fs : List FieldDesc} (hfs : FieldsApart fs) {f : FieldDesc} (hf : f ∈ fs) {j : Nat} (hlo : f.lo ≤ j)
    (hhi : j ≤ f.hi) : (rcMask fs).getLsbD j = (f.acc == .rc) := by
  obtain ⟨u, hu, hfold⟩ := bits_foldl_field fieldStep_rcMask hfs hf 0
  obtain ⟨hle, hlt⟩ := hfs.1 f hf
  have hwidth : j - f.lo < f.hi + 1 - f.lo := by omega
  have hj : (rcMask fs).getLsbD j = (bits (rcMask fs) f.hi f.lo).testBit (j - f.lo) := by
    simp [bits_testBit, hwidth, Nat.add_sub_cancel' hlo]
  rw [hj, rcMask, hfold]
  split
  · next hrc => simp [bits_setBits_same _ _ _ _ hle hlt, Nat.testBit_two_pow_sub_one, hwidth, hrc]
  · next hrc => simp [hu, bits_testBit, hrc]

theorem State.rd_clearOnRead (s : State) (r a : Nat) (same : Word) : (s.clearOnRead r a same).rd r a =
    (s.rd r a &&& ~~~(rcMask (regDesc r).fields)) ||| (same &&& rcMask (regDesc r).fields) := by
  unfold State.clearOnRead
  dsimp only
  split
  · next h =>
    rw [h]
    change _ = (_ &&& ~~~(0#32)) ||| (_ &&& 0#32)
    rw [BitVec.not_zero, BitVec.and_allOnes, BitVec.and_zero, BitVec.or_zero]
  · rw [State.rd_wr_same]

/-- An access that clears on read leaves in an RC field the increments of its edge, and every other field as it was. -/
theorem State.bits_clearOnRead (s : State) (r a : Nat) (same : Word) {f : FieldDesc} (hf : f ∈ (regDesc r).fields) :
    bits ((s.clearOnRead r a same).rd r a) f.hi f.lo =
      if f.acc == .rc then bits same f.hi f.lo else bits (s.rd r a) f.hi f.lo := by
  have hmask (j : Nat) := rcMask_getLsbD (regDesc_fields r).1 hf (j := j)
  obtain ⟨-, hlt⟩ := (regDesc_fields r).1.1 f hf
  rw [State.rd_clearOnRead]
  split
  · next hrc =>
    refine bits_congr fun j hlo hhi => ?_
    simp [hmask j hlo hhi, hrc]
  · next hrc =>
    refine bits_congr fun j hlo hhi => ?_
    have hj : j < 32 := by omega
    simp only [BitVec.getLsbD_or, BitVec.getLsbD_and, BitVec.getLsbD_not, hmask j hlo hhi, hrc, hj]
    simp

@[simp] theorem State.clearOnRead_part (s : State) (r a : Nat) (same : Word) : (s.clearOnRead r a same).part = s.part := by
  simp only [State.clearOnRead]
  split <;> simp

@[simp] theorem State.clearOnRead_mem (s : State) (r a : Nat) (same : Word) : (s.clearOnRead r a same).mem = s.mem := by
  simp only [State.clearOnRead]
  split <;> simp

@[simp] theorem State.clearOnRead_mesh (s : State) (r a : Nat) (same : Word) : (s.clearOnRead r a same).mesh = s.mesh := by
  simp only [State.clearOnRead]
  split <;> simp

/-- A read of a register that shows its stored word answers with its readable bits and clears its RC fields. -/
theorem State.regRead_stored (s : State) {q : Requester} {d r i : Nat} (hrow : (readRow q .monitor d r i).isNone = true)
    (hstored : storedReg r = true) (same : Word) : s.regRead q .monitor d r i same =
      (s.answer (reqCode q) { data := (s.rd r (place d i) &&& readMask (regDesc r).fields).setWidth 64 }).clearOnRead r
        (place d i) same := by
  simp only [storedReg, List.contains_cons, List.contains_nil, Bool.or_false, Bool.not_eq_true', Bool.or_eq_false_iff,
    beq_eq_false_iff_ne] at hstored
  have hview : s.view d r i = (s.rd r (place d i), s) := by simp [State.view, hstored]
  simp [State.regRead, State.pmcHidden, Option.isNone_iff_eq_none.1 hrow, State.plainRead, hview, isLoCounter, State.afterRead,
    hstored]

/-! ## The three rows of register accesses -/

theorem registerWrite_plain_completes (s : State) (a : Addr) (v : Word) (lv : Level) (d r i : Nat) (hrun : s.running = true)
    (hat : s.regAt a = some (d, r, i)) (hmay : mayWrite r lv = true) (hrows : writeRows .tap lv d r i v = [])
    (hplain : plainReg r = true) :
    Completes (.registerWrite a v lv) s fun t => ((writableFields s.part r (place d i) v lv).all fun f =>
      f.took (s.rd r (place d i)) v 0 (t.rd r (place d i))) = true ∧ t.mem = s.mem ∧ t.eff = s.eff ∧ t.hw = s.hw := by
  refine completes_fieldWrite ?_
  rw [exec_registerWrite_running hrun hat, s.regWrite_plain .tap hmay hrows hplain]

theorem w1cWrite_plain_completes (s : State) (a : Addr) (v same : Word) (lv : Level) (d r i : Nat) (hrun : s.running = true)
    (hat : s.regAt a = some (d, r, i)) (hmay : mayWrite r lv = true) (hrows : writeRows .tap lv d r i v = [])
    (hplain : plainReg r = true) :
    Completes (.w1cWrite a v lv same) s fun t => ((writableFields s.part r (place d i) v lv).all fun f =>
      f.took (s.rd r (place d i)) v same (t.rd r (place d i))) = true ∧ t.mem = s.mem ∧ t.eff = s.eff ∧ t.hw = s.hw := by
  refine completes_fieldWrite ?_
  rw [exec_w1cWrite_running hrun hat, s.regWrite_plain .tap hmay hrows hplain]

theorem w1cWrite_sets (s : State) (a : Addr) (v same : Word) (lv : Level) (d r i : Nat) (hrun : s.running = true)
    (hat : s.regAt a = some (d, r, i)) (hmay : mayWrite r lv = true) :
    Completes (.w1cWrite a v lv same) s fun t =>
      (same &&& w1cMask (regDesc r).fields) &&& ~~~(t.rd r (place d i)) = 0 := by
  refine ⟨_, exec_w1cWrite_running hrun hat v lv same, ?_⟩
  refine BitVec.eq_of_getLsbD_eq fun j hj => ?_
  by_cases hbit : same.getLsbD j = true ∧ (w1cMask (regDesc r).fields).getLsbD j = true
  · obtain ⟨hs, hm⟩ := hbit
    obtain ⟨hpart, hset⟩ := s.getLsbD_regWrite lv d i v same .tap hmay hs hm
    simp [State.rd_kept s _ hpart, hset]
  · have : (same.getLsbD j && (w1cMask (regDesc r).fields).getLsbD j) = false := by simpa using hbit
    simp [this]

theorem registerWrite_refused (s : State) (a : Addr) (v : Word) (lv : Level) (d r i : Nat) (hrun : s.running = true)
    (hat : s.regAt a = some (d, r, i)) (hmay : mayWrite r lv = false) :
    Completes (.registerWrite a v lv) s fun t => t.regs = s.regs ∧ t.eff = s.eff ∧ t.mem = s.mem := by
  refine ⟨_, exec_registerWrite_running hrun hat v lv, ?_⟩
  simp [State.regWrite, hmay]

theorem registerWrite_starts (s : State) (a : Addr) (v : Word) (lv : Level) (d r i : Nat) (f : State → Out)
    (hrun : s.running = true) (hat : s.regAt a = some (d, r, i)) (hmay : mayWrite r lv = true)
    (hrows : writeRows .tap lv d r i v = [f]) :
    Completes (.registerWrite a v lv) s fun t => t = s.kept ((f s).after s) := by
  refine ⟨_, exec_registerWrite_running hrun hat v lv, ?_⟩
  simp [State.regWrite, hmay, hrows]

theorem rcRead_stored_completes (s : State) (q : Requester) (a : Addr) (same : Word) (d r i : Nat) (hrun : s.running = true)
    (hat : s.regAt a = some (d, r, i)) (hrow : (readRow q .monitor d r i).isNone = true) (hstored : storedReg r = true) :
    Completes (.rcRead q a same) s fun t =>
      (t.answerOf (reqCode q)).data.toNat = (s.rd r (place d i) &&& readMask (regDesc r).fields).toNat ∧
        (((regDesc r).fields.all fun f =>
          f.acc != .rc || bits (t.rd r (place d i)) f.hi f.lo == bits same f.hi f.lo) = true) ∧
        (((regDesc r).fields.all fun f =>
          f.acc == .rc || bits (t.rd r (place d i)) f.hi f.lo == bits (s.rd r (place d i)) f.hi f.lo) = true) ∧
        t.mem = s.mem := by
  have hexec := exec_rcRead_running hrun hat q same
  rw [s.regRead_stored hrow hstored] at hexec
  have hword {f : FieldDesc} (hf : f ∈ (regDesc r).fields) := State.bits_clearOnRead
    (s.answer (reqCode q) { data := (s.rd r (place d i) &&& readMask (regDesc r).fields).setWidth 64 }) r (place d i) same hf
  refine ⟨_, hexec, ?_, List.all_eq_true.2 fun f hf => ?_, List.all_eq_true.2 fun f hf => ?_, ?_⟩
  · rw [State.answerOf, State.kept_mesh, State.clearOnRead_mesh, ← State.answerOf, State.answerOf_answer]
    exact BitVec.toNat_setWidth_of_le (by decide)
  · rw [State.rd_kept _ _ (by simp), hword hf]
    cases f.acc <;> simp
  · rw [State.rd_kept _ _ (by simp), hword hf]
    cases f.acc <;> simp
  · rw [State.kept_mem, State.clearOnRead_mem, State.answer_mem]

/-- Settles O41: the accesses field by field. -/
theorem registerAccessesComplete : Obligations.RegisterAccessesComplete :=
  ⟨registerWrite_plain_completes, w1cWrite_plain_completes, w1cWrite_sets, registerWrite_refused, registerWrite_starts,
    rcRead_stored_completes⟩

end Sys2Proof.Machine
end

section
/-!
Events of stopped domains (R52, R97, R99, R103, R721): each command is an event of some domain or of one of its units, and
while that domain takes no edge the event leaves the state as it was.
-/
namespace Sys2Proof.Machine

/-- Command c changes nothing while its domain takes no edge: one of a stoppable domain while the part is stopped, any but a cold
reset and the loss of power while the part has no power. -/
structure Rests (c : Instr) : Prop where
  stopped : isAlways c = false → ∀ s : State, s.running = false → exec c s = .next s
  unpowered : c ≠ .coldReset → c ≠ .alwaysOnPowerLoss → ∀ s : State, s.hw.alive = false → exec c s = .next s

theorem State.running_of_unpowered {s : State} (h : s.hw.alive = false) : s.running = false := by
  simp [State.running, h]

section
variable {c : Instr} {f : State → State}

/-- Without power no stoppable domain runs, so that a command which rests while the part is stopped rests without power too. -/
theorem rests_of_stopped (h : ∀ s : State, s.running = false → exec c s = .next s) : Rests c :=
  ⟨fun _ => h, fun _ _ s hs => h s (State.running_of_unpowered hs)⟩

theorem rests_of_unpowered (hc : isAlways c = true) (h : ∀ s : State, s.hw.alive = false → exec c s = .next s) : Rests c :=
  ⟨fun hn => absurd (hc.symm.trans hn) (by decide), fun _ _ => h⟩

theorem rests_of_event (hc : ∀ s, exec c s = s.event f) : Rests c :=
  rests_of_stopped fun s hs => (hc s).trans (State.event_stopped s f hs)

theorem rests_of_unit {d b : State → Nat} (hc : ∀ s, exec c s = s.unit (d s) (b s) f) : Rests c :=
  rests_of_stopped fun s hs => (hc s).trans (State.unit_held s _ _ f (by simp [State.unitRuns, hs]))

theorem rests_of_island {d b : State → Nat} (hc : ∀ s, exec c s = s.island (d s) (b s) f) : Rests c :=
  rests_of_stopped fun s hs => (hc s).trans (State.island_held s _ _ f (by simp [State.islandRuns, hs]))

theorem rests_of_acEvent (ha : isAlways c = true) (hc : ∀ s, exec c s = s.acEvent f) : Rests c :=
  rests_of_unpowered ha fun s hs => (hc s).trans (State.acEvent_dead s f hs)

theorem rests_of_acUnit {d b : Nat} (ha : isAlways c = true) (hc : ∀ s, exec c s = s.acUnit d b f) : Rests c :=
  rests_of_unpowered ha fun s hs => (hc s).trans (State.acUnit_held s d b f (.inl hs))

theorem rests_of_burnEvent (ha : isAlways c = true) (hc : ∀ s, exec c s = s.burnEvent f) : Rests c :=
  rests_of_unpowered ha fun s hs => (hc s).trans (State.burnEvent_dead s f hs)

end

/-- A mesh request of the TAP is an event of the ac domain, that of any other requester one of a stoppable domain (R99). -/
theorem meshRequest_rests (x : MeshFrom) (lv : Level) (w : Bool) (a : Addr) (k : Fin 4) (v : BitVec 64) :
    Rests (.meshRequest x lv w a k v) := by
  obtain ⟨r, e, y⟩ := x
  cases r with
  | tap => exact rests_of_acEvent rfl (fun _ => rfl)
  | core n => exact rests_of_event (fun _ => rfl)
  | dma d ch => exact rests_of_event (fun _ => rfl)
  | tile d t => exact rests_of_event (fun _ => rfl)

theorem spanWrite_rests (r : Requester) (lv : Level) (off : BitVec 36) (v : Word) : Rests (.spanWrite r lv off v) := by
  cases r with
  | tap => exact rests_of_acEvent rfl (fun _ => rfl)
  | core n => exact rests_of_event (fun _ => rfl)
  | dma d ch => exact rests_of_event (fun _ => rfl)
  | tile d t => exact rests_of_event (fun _ => rfl)

/-- The commands by the kind of event that each is. -/
theorem rests (c : Instr) : Rests c := by
  cases c with
  | meshRequest x lv w a k v => exact meshRequest_rests x lv w a k v
  | spanWrite r lv off v => exact spanWrite_rests r lv off v
  | coldReset => exact ⟨(nomatch ·), fun h => absurd rfl h⟩
  | alwaysOnPowerLoss => exact ⟨(nomatch ·), fun _ h => absurd rfl h⟩
  | modeChange | sscTurningPoint | freezeNChange | frzCtlWrite | synchronisedFreeze | chainShift | thawStart
  | thawRelease | thawEnd | thawFail | laneLock | dlinkLocked | optI2cWrite | optI2cRead | optI2cStretchTimeout
  | optI2cDone | mdioC22Write | mdioC22Read | mdioC45Address | mdioC45Write | mdioC45Read | mdioC45ReadInc | cageI2cWrite
  | cageI2cRead | uartTxWrite | uartRxRead | uartRxByte | uartTxByte | gpioSet | gpioClr | gpioInputEdge | resetNChange
  | warmReset | railPowerGood | railFault | railFaultRetry | pmbTransactionDone | avsAdjust | bootSlotCheck | bootRelease
  | kilnCommandDone | kilnParityError | dbgReq | dbgResp | dbgAuthDone | powerStateEntry | powerEntryComplete
  | powerStateExit | powerExitComplete | portWakeEvent | offWake | wakeNAssert | thermalCompare | thermalOffTimer
  | tapFuseProg =>
    exact rests_of_acEvent rfl (fun _ => rfl)
  | mdioFrameDone | cageI2cDone | ledRefresh | paceTimerFire | sensorReading =>
    exact rests_of_acUnit rfl (fun _ => rfl)
  | fuseBurnDone | zeroisationStep =>
    exact rests_of_burnEvent rfl (fun _ => rfl)
  | reorderTimeoutSkip | reorderFastSkip | dispatch | orderHoldLaunch | add | sub | and | or | xor | shl | shr | sar
  | minu | maxu | cmp | mul | addi | andi | ori | xori | cmpi | lui | shli | shri | sari | rori | ext | dep | hash | mfm
  | mtm | flgRead | flgWrite | ldh | sth | movh | nxt | csum | csi | bcc | jal | jr | lke | lkt | lkl | cnt | ldm | stm
  | enq | mcast | mirror | recirc | punt | drop | dflt | imemCheckDone | lkpEntryWriteDone | lpmCommandDone
  | genSwitchArmed | genDrained | deltaArrival | deltaAccept | enqueueVisible | tmStateClearDone | tmRefill
  | decisionSlot | dequeue | gateSwap | pauseWatchdog | macTransmitStart | frameTransmitEnd | lpiEntry
  | kslotHeldWriteDone | laGcmEncrypt | laGcmDecrypt | laCtrEncrypt | laCtrDecrypt | laCmacGenerate | laCmacVerify
  | laContextSaveClear | laContextSaveWrapped | laContextRestoreClear | laContextRestoreWrapped | laBulkSuspend
  | laBulkResume | laBusError | retiredQueuesEmpty | rsvInitDone | dmaDescriptorFetch | dmaMove | dmaReceiveRecord
  | dmaTransmitBurst | dmaInjectBurst | paceTrigger | dmaBusError | pmcArmedAction | reservedWordIssue =>
    exact rests_of_unit (fun _ => rfl)
  | bondFrameReceive | skewRelease | reorderArrival | skewCapture | memberRxChange | dispatchSourceArrival | frameReceive
  | pauseTimerExpiry | linkChange | omciDownstreamCheck | refModeChange | slhWake | irqClaim | timerInterrupt
  | bwWindowClose | rxLpiChange =>
    exact rests_of_island (fun _ => rfl)
  | _ => exact rests_of_event (fun _ => rfl)

/-- Settles O57: every command is an event of a domain that takes no edge. -/
theorem freezeStopsEveryStoppableDomain : Obligations.FreezeStopsEveryStoppableDomain :=
  ⟨fun c s hs ha => (rests c).stopped ha s hs, fun c s hs hcold hloss => (rests c).unpowered hcold hloss s hs⟩

end Sys2Proof.Machine
end

section
/-!
How an event completes, and what single fields read after the updates of this family (R8, R9, R11).
-/
namespace Sys2Proof.Machine
open Reg

/-! ## Events that come about -/

section
variable {c : Instr} {s : State} {f : State → State} {p : State → Prop}

/-- An event of a running stoppable domain completes with what its effect leaves. -/
theorem completes_of_event (hc : ∀ s, exec c s = s.event f) (hrun : s.running = true) (h : p (s.kept (f s))) :
    Completes c s p :=
  ⟨_, (hc s).trans (State.event_running s f hrun), h⟩

/-- An event of the ac domain of a part with power completes with what its effect leaves. -/
theorem completes_of_acEvent (hc : ∀ s, exec c s = s.acEvent f) (halive : s.hw.alive = true) (h : p (s.kept (f s))) :
    Completes c s p :=
  ⟨_, (hc s).trans (State.acEvent_alive s f halive), h⟩

end

/-! ## Fields -/

@[simp] theorem State.is_kept (s t : State) (h : t.part = s.part) (f : Fld) (a : Nat) : (s.kept t).is f a = t.is f a := by
  rw [State.is, State.is, State.get_kept s t h]

theorem b2n_lt_two (b : Bool) : b2n b < 2 := by cases b <;> decide

@[simp] theorem b2n_mod_two (b : Bool) : b2n b % 2 = b2n b := Nat.mod_eq_of_lt (b2n_lt_two b)

@[simp] theorem b2n_beq_one (b : Bool) : (b2n b == 1) = b := by cases b <;> rfl

@[simp] theorem State.get_wr_ne (s : State) {r : Nat} {f : Fld} (a b : Nat) (w : Word) (h : f.reg ≠ r) :
    (s.wr r a w).get f b = s.get f b := by
  rw [State.get, State.get, State.rd_wr_ne _ _ _ _ h]

/-- A field stays below the power of two of its width. -/
theorem State.get_lt (s : State) (f : Fld) (a : Nat) : s.get f a < 2 ^ (f.hi + 1 - f.lo) := bits_lt _ _ _

/-- A counter that is one field of 32 bits wraps as its word does (R11). -/
theorem State.rd_inc_whole (s : State) {f : Fld} (hhi : f.hi = 31) (hlo : f.lo = 0) (a : Nat) :
    (s.inc f a 1).rd f.reg a = s.rd f.reg a + 1 := by
  have hbits (w : Word) : bits w f.hi f.lo = w.toNat := by
    simpa [bits, hhi, hlo] using Nat.mod_eq_of_lt w.isLt
  apply BitVec.eq_of_toNat_eq
  rw [← hbits, ← State.get, State.inc, State.get_put_same _ _ _ _ (by omega) (by omega), State.get, hbits, hhi, hlo]
  simp

theorem bitOf_putBit (v n : Nat) : bitOf (putBit v n true) n = true := by
  unfold bitOf putBit
  split <;> simp_all [Nat.testBit_xor, Nat.testBit_shiftLeft]

/-- An event latch of a field that has the bit reads set (R9). -/
theorem State.bitOf_get_latch (s : State) {f : Fld} {n : Nat} (hl : f.lo ≤ f.hi) (hh : f.hi < 32)
    (hn : n < f.hi + 1 - f.lo) (a : Nat) : bitOf ((s.latch f a n).get f a) n = true := by
  have hset := bitOf_putBit (s.get f a) n
  unfold bitOf at hset ⊢
  rw [State.latch, State.get_put_same _ _ _ _ hl hh, Nat.testBit_mod_two_pow, hset]
  simpa using hn

end Sys2Proof.Machine
end

section
/-!
Refusal reports, posted writes, fencing, the end of BOOT and the mode: each completes with its effect (R28 to R46, R146, R665,
R762).
-/
namespace Sys2Proof.Machine
open Reg

/-! ## Refusal reports (R32) -/

@[simp] theorem State.latchReport_part (s : State) (r : Refusal32) : (s.latchReport r).part = s.part := by
  unfold State.latchReport State.incSat
  split <;> simp

/-- The first report is latched. -/
theorem State.latchReport_free (s : State) {r : Refusal32} (hdie : r.die < 16) (h : s.is HW_ABSENT_INFO_VALID d0 = false) :
    (s.latchReport r).is HW_ABSENT_INFO_VALID d0 = true ∧ (s.latchReport r).get HW_ABSENT_INFO_DIE d0 = r.die ∧
      (s.latchReport r).get HW_ABSENT_INFO_DIR d0 = b2n r.dir ∧
      (s.latchReport r).rd HW_ABSENT_ADDR d0 = r.addr.setWidth 32 ∧ (s.latchReport r).mesh = s.mesh := by
  unfold State.latchReport
  rw [if_neg (by simp [h])]
  simp (disch := decide) [State.is, State.get_put_field, Nat.mod_eq_of_lt hdie, BitVec.ofNat_toNat]

/-- A report that finds one latched is counted, up to 0xFF. -/
theorem State.latchReport_taken (s : State) (r : Refusal32) (h : s.is HW_ABSENT_INFO_VALID d0 = true) :
    (s.latchReport r).get HW_ABSENT_INFO_MORE d0 = Nat.min 0xFF (s.get HW_ABSENT_INFO_MORE d0 + 1) ∧
      (s.latchReport r).rd HW_ABSENT_ADDR d0 = s.rd HW_ABSENT_ADDR d0 := by
  have hsat : satAdd 0xFF (s.get HW_ABSENT_INFO_MORE d0) 1 < 256 := by
    exact Nat.lt_succ_of_le (Nat.min_le_left _ _)
  unfold State.latchReport
  rw [if_pos h, State.incSat, State.get_put_same _ _ _ _ (by decide) (by decide),
    State.rd_put_ne _ _ _ _ _ (by decide)]
  exact ⟨Nat.mod_eq_of_lt hsat, rfl⟩

/-- A report that has reached line die 0 is no longer on its way. -/
abbrev State.takeReport (s : State) (r : Refusal32) : State :=
  { s with mesh := { s.mesh with reports := s.mesh.reports.erase r } }

theorem absentRefusalReport_latches (s : State) (d : Die) (r : Refusal32) (hrun : s.running = true)
    (hr : s.mesh.reports.find? (fun r => r.die == d.val) = some r) (hvalid : s.is HW_ABSENT_INFO_VALID d0 = false) :
    Completes (.absentRefusalReport d) s fun t => t.is HW_ABSENT_INFO_VALID d0 = true ∧ t.get HW_ABSENT_INFO_DIE d0 = d.val ∧
      t.get HW_ABSENT_INFO_DIR d0 = b2n r.dir ∧ t.rd HW_ABSENT_ADDR d0 = r.addr.setWidth 32 ∧
        t.mesh.reports = s.mesh.reports.erase r := by
  have hdie : r.die = d.val := by simpa using List.find?_some hr
  obtain ⟨hv, hd, hdir, haddr, hmesh⟩ := (s.takeReport r).latchReport_free (r := r) (by omega) hvalid
  refine completes_of_event (fun _ => rfl) hrun ?_
  simp only [hr]
  simp [hv, hd, hdir, haddr, hmesh, hdie]

theorem absentRefusalReport_counts (s : State) (d : Die) (r : Refusal32) (hrun : s.running = true)
    (hr : s.mesh.reports.find? (fun r => r.die == d.val) = some r) (hvalid : s.is HW_ABSENT_INFO_VALID d0 = true) :
    Completes (.absentRefusalReport d) s fun t =>
      t.get HW_ABSENT_INFO_MORE d0 = Nat.min 0xFF (s.get HW_ABSENT_INFO_MORE d0 + 1) ∧
        t.rd HW_ABSENT_ADDR d0 = s.rd HW_ABSENT_ADDR d0 := by
  obtain ⟨hmore, haddr⟩ := (s.takeReport r).latchReport_taken r hvalid
  refine completes_of_event (fun _ => rfl) hrun ?_
  simp only [hr]
  exact ⟨(State.get_kept _ _ (by simp) _ _).trans hmore, (State.rd_kept _ _ (by simp) _ _).trans haddr⟩

/-! ## Posted writes (R35, R36, R146, R665, R762) -/

@[simp] theorem State.wakeReq_mesh (s : State) (d src idx : Nat) : (s.wakeReq d src idx).mesh = s.mesh := by
  simp [State.wakeReq, apply_ite State.mesh]

@[simp] theorem State.wakeReq_mem (s : State) (d src idx : Nat) : (s.wakeReq d src idx).mem = s.mem := by
  simp [State.wakeReq, apply_ite State.mem]

@[simp] theorem State.wakeRoute_mesh (s : State) (a b : Nat) : (s.wakeRoute a b).mesh = s.mesh := by
  unfold State.wakeRoute
  cases viaDie a b <;> simp [apply_ite]

@[simp] theorem State.wakeRoute_mem (s : State) (a b : Nat) : (s.wakeRoute a b).mem = s.mem := by
  unfold State.wakeRoute
  cases viaDie a b <;> simp [apply_ite]

theorem postedWrite_bytes (s : State) (d : Die) (a : Addr) (l : List Byte) (h : Nat) (hrun : s.running = true)
    (hroute : s.route d.val (a.toNat / 2 ^ 36) = .clear h) :
    Completes (.postedWrite d (.bytes a l)) s fun t => t.mem = (s.setBytes a.toNat l).mem := by
  refine completes_of_event (fun _ => rfl) hrun ?_
  simp only [State.sendPosted, postedDie, hroute, State.applyPosted, State.kept_mem, State.putBytes_mem]

theorem postedWrite_level (s : State) (d : Die) (n : Fin 2048) (high : Bool) (h : Nat) (hrun : s.running = true)
    (hroute : s.route d.val 0 = .clear h) :
    Completes (.postedWrite d (.level n high)) s fun t =>
      t.get IRQ_SRC_STAT_LEVEL (d0i n.val) = b2n (high && sourceListed s.part (n.val / 256) (n.val % 256)) := by
  refine completes_of_event (fun _ => rfl) hrun ?_
  simp [State.sendPosted, postedDie, hroute, State.applyPosted, State.setLevel]

theorem postedWrite_absent (s : State) (d : Die) (m : Posted) (hrun : s.running = true)
    (hroute : s.route d.val (postedDie m) = .absent) :
    Completes (.postedWrite d m) s fun t => t.rd HW_ABSENT_DROP d0 = s.rd HW_ABSENT_DROP d0 + 1 ∧ t.mem = s.mem := by
  refine completes_of_event (fun _ => rfl) hrun ?_
  simp [State.sendPosted, hroute, State.count]

theorem State.linkDrop_part (s : State) (d l n : Nat) : (s.linkDrop d l n).part = s.part := by
  simp [State.linkDrop, State.inc]

theorem State.linkDrop_mem (s : State) (d l n : Nat) : (s.linkDrop d l n).mem = s.mem := by
  simp [State.linkDrop, State.inc]

theorem State.rd_linkDrop (s : State) (d l : Nat) :
    (s.linkDrop d l 1).rd DLINK_DROP (place d l) = s.rd DLINK_DROP (place d l) + 1 := by
  rw [State.linkDrop]
  exact s.rd_inc_whole (f := DLINK_DROP_V) rfl rfl (place d l)

/-- A discard is counted in DROP at the sending end and moves no byte (R146). -/
theorem State.kept_linkDrop (s : State) (d l : Nat) :
    (s.kept (s.linkDrop d l 1)).rd DLINK_DROP (place d l) = s.rd DLINK_DROP (place d l) + 1 ∧
      (s.kept (s.linkDrop d l 1)).mem = s.mem :=
  ⟨(State.rd_kept _ _ (s.linkDrop_part d l 1) _ _).trans (s.rd_linkDrop d l),
    (State.kept_mem _ _).trans (s.linkDrop_mem d l 1)⟩

theorem postedWrite_firstDown (s : State) (d : Die) (m : Posted) (l : Nat) (hrun : s.running = true)
    (hroute : s.route d.val (postedDie m) = .firstDown l) :
    Completes (.postedWrite d m) s fun t =>
      t.rd DLINK_DROP (place d.val l) = s.rd DLINK_DROP (place d.val l) + 1 ∧ t.mem = s.mem := by
  refine completes_of_event (fun _ => rfl) hrun ?_
  rw [State.sendPosted, hroute]
  exact s.kept_linkDrop d.val l

theorem postedWrite_secondDown (s : State) (d : Die) (m : Posted) (l v : Nat) (hrun : s.running = true)
    (hroute : s.route d.val (postedDie m) = .secondDown l v) :
    Completes (.postedWrite d m) s fun t =>
      t.rd DLINK_DROP (place v l) = s.rd DLINK_DROP (place v l) + 1 ∧ t.mem = s.mem := by
  refine completes_of_event (fun _ => rfl) hrun ?_
  rw [State.sendPosted, hroute]
  exact s.kept_linkDrop v l

theorem postedWrite_asleep (s : State) (d : Die) (m : Posted) (v : Nat) (hrun : s.running = true)
    (hroute : s.route d.val (postedDie m) = .asleep v) :
    Completes (.postedWrite d m) s fun t =>
      t.mesh.held = s.mesh.held ++ [(postedDie m, Held.posted d.val (postedDie m) m)] ∧ t.mem = s.mem := by
  refine completes_of_event (fun _ => rfl) hrun ?_
  simp [State.sendPosted, hroute]

/-! ## Fencing, the end of BOOT and the mode (R28, R29, R42 to R46) -/

theorem dieFence_fences (s : State) (d : Die) (hrun : s.running = true) (hboot : s.get HW_OPMODE_MODE d0 = 1)
    (hpresent : present s.part d.val = true) (hreleased : s.hw.released.getLsbD d.val = true)
    (hdown : bitOf (s.get HW_DIE_MAP_UP d0) d.val = false) : Completes (.dieFence d) s fun t => t.fenced d.val = true := by
  refine completes_of_event (fun _ => rfl) hrun ?_
  rw [if_pos (by simp [hboot, hpresent, hreleased, hdown]), State.fenced, State.get_kept _ _ (by simp [State.latch])]
  exact s.bitOf_get_latch (by decide) (by decide) (by simp) d0

theorem bootCtlDone_monitor (s : State) (hrun : s.running = true) :
    Completes (.bootCtlDone .monitor) s fun t => t.hw.bootDone = true ∧ t.hw.faults = 0 :=
  completes_of_event (fun _ => rfl) hrun ⟨rfl, rfl⟩

theorem bootCtlDone_ignored (s : State) (lv : Level) (hrun : s.running = true) (hlv : lv ≠ .monitor) :
    Completes (.bootCtlDone lv) s fun t => t = s := by
  refine completes_of_event (fun _ => rfl) hrun ?_
  rw [if_neg hlv]
  rfl

theorem State.deriveMode_lt (s : State) : s.deriveMode < 8 := by
  unfold State.deriveMode
  split_ifs <;> decide

@[simp] theorem State.setMode_part (s : State) (m : Nat) : (s.setMode m).part = s.part := by
  unfold State.setMode State.inc
  split <;> simp

/-- A mode of Table 1.9 is shown, and a change of it is recorded (R46). -/
theorem State.setMode_shows (s : State) {m : Nat} (hm : m < 8) : (s.setMode m).get HW_OPMODE_MODE d0 = m ∧
    (s.get HW_OPMODE_MODE d0 ≠ m → (s.setMode m).get HW_OPMODE_PREV d0 = s.get HW_OPMODE_MODE d0 ∧
      (s.setMode m).is HW_OPMODE_CHANGED d0 = true) := by
  have hold : s.get HW_OPMODE_MODE d0 < 8 := s.get_lt _ _
  unfold State.setMode
  split
  · next h => exact ⟨h.symm, fun hne => absurd h.symm hne⟩
  · simp (disch := decide) [State.inc, State.is, State.get_put_field, Nat.mod_eq_of_lt hm, Nat.mod_eq_of_lt hold]

@[simp] theorem State.evalMode_part (s : State) : s.evalMode.part = s.part := by
  simp [State.evalMode]

/-- A derivation shows the mode that it derives (R42, R46). -/
theorem State.evalMode_shows (s : State) : s.evalMode.get HW_OPMODE_MODE d0 = s.deriveMode ∧
    (s.get HW_OPMODE_MODE d0 ≠ s.deriveMode → s.evalMode.get HW_OPMODE_PREV d0 = s.get HW_OPMODE_MODE d0 ∧
      s.evalMode.is HW_OPMODE_CHANGED d0 = true) := by
  have hmode (u : State) (m : Nat) {f : Fld} (hf : f = HW_OPMODE_CHAN_ACT ∨ f = HW_OPMODE_CHAN_OP) :
      (u.put f d0 m).get HW_OPMODE_MODE d0 = u.get HW_OPMODE_MODE d0 := by
    rcases hf with rfl | rfl <;> exact u.get_put_field d0 m rfl (by decide) (by decide) (by decide)
  have h (a b : Nat) := State.setMode_shows ((s.put HW_OPMODE_CHAN_ACT d0 a).put HW_OPMODE_CHAN_OP d0 b) s.deriveMode_lt
  simp only [hmode _ _ (.inl rfl), hmode _ _ (.inr rfl)] at h
  exact h _ _

theorem modeChange_shows (s : State) (halive : s.hw.alive = true) :
    Completes .modeChange s fun t => t.get HW_OPMODE_MODE d0 = s.deriveMode ∧
      (s.get HW_OPMODE_MODE d0 ≠ s.deriveMode → t.get HW_OPMODE_PREV d0 = s.get HW_OPMODE_MODE d0 ∧
        t.is HW_OPMODE_CHANGED d0 = true) := by
  refine completes_of_acEvent (fun _ => rfl) halive ?_
  simpa using s.evalMode_shows

/-- Settles O1: each event by what its operation leaves in the fields that it names. -/
theorem meshAndBootEventsComplete : Obligations.MeshAndBootEventsComplete :=
  ⟨absentRefusalReport_latches, absentRefusalReport_counts, postedWrite_bytes, postedWrite_level, postedWrite_absent,
    postedWrite_firstDown, postedWrite_secondDown, postedWrite_asleep, dieFence_fences, bootCtlDone_monitor,
    bootCtlDone_ignored, modeChange_shows⟩

end Sys2Proof.Machine
end

section
/-!
What an operation leaves alone, read off its footprint (R8, R14).
-/
namespace Sys2Proof.Machine
open Reg

section
variable {F : Footprint} {s t : State}

/-- A field of a register that the footprint does not list reads as before. -/
theorem Footprint.Same.get (h : F.Same s t) {f : Fld} {a : Nat} (hf : ∀ p ∈ F.stored, p.covers f.reg a = false) :
    t.get f a = s.get f a := by
  rw [State.get, State.get, h.within.stored _ _ hf]

theorem Footprint.Same.is (h : F.Same s t) {f : Fld} {a : Nat} (hf : ∀ p ∈ F.stored, p.covers f.reg a = false) :
    t.is f a = s.is f a := by
  rw [State.is, State.is, h.get hf]

theorem Footprint.Same.frz (h : F.Same s t) (hF : .frz ∉ F.areas) : t.frz = s.frz := h.within.areas .frz hF

theorem Footprint.Same.hw (h : F.Same s t) (hF : .hw ∉ F.areas) : t.hw = s.hw := h.within.areas .hw hF

end

/-! ## Masks -/

/-- The mask of the numbers below n that pass a test, as the model adds it up. -/
def maskOf (n : Nat) (f : Nat → Bool) : Nat := (List.range n).foldl (fun m d => m + b2n (f d) * 2 ^ d) 0

theorem maskOf_succ (n : Nat) (f : Nat → Bool) : maskOf (n + 1) f = maskOf n f + if f n then 2 ^ n else 0 := by
  rw [maskOf, List.range_succ, List.foldl_append, List.foldl_cons, List.foldl_nil, ← maskOf]
  cases f n <;> simp [b2n]

theorem maskOf_lt (n : Nat) (f : Nat → Bool) : maskOf n f < 2 ^ n := by
  induction n with
  | zero => simp [maskOf]
  | succ n ih =>
    rw [maskOf_succ, Nat.pow_succ]
    split <;> omega

/-- A bit of the mask tells whether its number is below n and passes. -/
theorem testBit_maskOf (n : Nat) (f : Nat → Bool) (j : Nat) : (maskOf n f).testBit j = (decide (j < n) && f j) := by
  induction n with
  | zero => simp [maskOf]
  | succ n ih =>
    have hlt := maskOf_lt n f
    rw [maskOf_succ]
    rcases Nat.lt_trichotomy j n with hlow | rfl | hhigh
    · have hrest : (maskOf n f + if f n then 2 ^ n else 0).testBit j = (maskOf n f).testBit j := by
        split
        · rw [Nat.add_comm, Nat.testBit_two_pow_add_gt hlow]
        · rfl
      rw [hrest, ih]
      simp [hlow, hlow.trans n.lt_succ_self]
    · cases hf : f j with
      | false => simp [Nat.testBit_lt_two_pow hlt]
      | true => simp [Nat.add_comm, Nat.testBit_two_pow_add_eq, Nat.testBit_lt_two_pow hlt]
    · have hbound : (maskOf n f + if f n then 2 ^ n else 0) < 2 ^ j :=
        calc _ < 2 ^ (n + 1) := by rw [← maskOf_succ]; exact maskOf_lt (n + 1) f
          _ ≤ 2 ^ j := Nat.pow_le_pow_right (by decide) hhigh
      rw [Nat.testBit_lt_two_pow hbound]
      simp [show ¬ j < n + 1 by omega]

end Sys2Proof.Machine
end

section
/-!
Freeze, inspect chains and thaw: each command completes with its effect (R48, R94 to R112).
-/
namespace Sys2Proof.Machine
open Reg

/-! ## Requests (R94, R680) -/

theorem State.freezeWakes_same (s : State) : Footprint.Same ⟨[.pwr], [], []⟩ s s.freezeWakes := by
  rw [Footprint.same_freezeWakes (by simp)]
  exact Footprint.Same.refl _ s

theorem freezeNChange_holds (s : State) (low : Bool) (halive : s.hw.alive = true) :
    Completes (.freezeNChange low) s fun t => t.frz.pinLow = low := by
  refine completes_of_acEvent (fun _ => rfl) halive ?_
  rw [State.kept_frz, (State.freezeWakes_same _).frz (by simp)]

theorem frzCtlWrite_holds (s : State) (q : Bool) (halive : s.hw.alive = true) :
    Completes (.frzCtlWrite q) s fun t => t.is FRZ_CTL_REQ d0 = q := by
  have hsame := (s.put FRZ_CTL_REQ d0 (b2n q)).freezeWakes_same
  refine completes_of_acEvent (fun _ => rfl) halive ?_
  rw [State.is_kept _ _ (by rw [hsame.part, State.put_part]), hsame.is (by simp), State.is,
    State.get_put_same _ _ _ _ (by decide) (by decide)]
  simp

/-! ## Freeze (R48, R95 to R102) -/

theorem State.deriveMode_frozen {s : State} (h : s.is FRZ_STATUS_FROZEN d0 = true) : s.deriveMode = 7 := by
  simp [State.deriveMode, h]

theorem State.evalMode_same (s : State) : Footprint.Same ⟨[], [.one HW_OPMODE d0], []⟩ s s.evalMode := by
  rw [Footprint.same_evalMode (by simp)]
  exact Footprint.Same.refl _ s

/-- A freeze shows its sources and is counted. -/
abbrev State.showFreeze (s : State) : State :=
  (((s.put FRZ_STATUS_FROZEN d0 1).put FRZ_STATUS_SRC_PIN d0 (b2n s.frz.pinLow)).put FRZ_STATUS_SRC_REQ d0
    (s.get FRZ_CTL_REQ d0)).inc FRZ_STATUS_FREEZE_CNT d0 1

theorem State.showFreeze_fields (s : State) : s.showFreeze.is FRZ_STATUS_FROZEN d0 = true ∧
    s.showFreeze.is FRZ_STATUS_SRC_PIN d0 = s.frz.pinLow ∧
    s.showFreeze.get FRZ_STATUS_SRC_REQ d0 = s.get FRZ_CTL_REQ d0 ∧
    s.showFreeze.get FRZ_STATUS_FREEZE_CNT d0 = (s.get FRZ_STATUS_FREEZE_CNT d0 + 1) % 256 := by
  have hreq : s.get FRZ_CTL_REQ d0 < 2 := s.get_lt _ _
  simp (disch := decide) [State.inc, State.is, State.get_put_field, Nat.mod_eq_of_lt hreq]

theorem State.cutAll_same (s : State) :
    Footprint.Same ⟨[.pon, .dram], [.all RSV_FREE], []⟩ s (chans.foldl (fun (s : State) c => s.cutBursts c) s) := by
  rw [Footprint.same_foldl fun x c => by simp]
  exact Footprint.Same.refl _ s

theorem synchronisedFreeze_freezes (s : State) (halive : s.hw.alive = true) (hphase : s.frz.phase = .running)
    (hrails : s.hw.railsUp = true) (hasked : s.freezeAsked = true)
    (hrun : ∀ d ∈ List.range 8, s.reachable d = true → s.powerState d = 0) :
    Completes .synchronisedFreeze s fun t => t.frz.phase = .freezing ∧ t.is FRZ_STATUS_FROZEN d0 = true ∧
      t.is FRZ_STATUS_SRC_PIN d0 = s.frz.pinLow ∧ t.get FRZ_STATUS_SRC_REQ d0 = s.get FRZ_CTL_REQ d0 ∧
        t.get FRZ_STATUS_FREEZE_CNT d0 = (s.get FRZ_STATUS_FREEZE_CNT d0 + 1) % 256 ∧ t.get HW_OPMODE_MODE d0 = 7 := by
  have hall : (List.range 8).all (fun d => !s.reachable d || s.powerState d == 0) = true := by
    refine List.all_eq_true.2 fun d hd => ?_
    cases hr : s.reachable d with
    | false => rfl
    | true => simp [hrun d hd hr]
  refine completes_of_acEvent (fun _ => rfl) halive ?_
  rw [if_neg (by simp [hphase, hrails, hasked, hall])]
  have hcut := State.cutAll_same { s with frz := { s.frz with phase := .freezing } }
  generalize chans.foldl (fun (s : State) c => s.cutBursts c) { s with frz := { s.frz with phase := .freezing } } = u
    at hcut ⊢
  obtain ⟨hfrozen, hpin, hreq, hcnt⟩ := u.showFreeze_fields
  obtain ⟨hmode, -⟩ := u.showFreeze.evalMode_shows
  have heval := u.showFreeze.evalMode_same
  have hshow : u.showFreeze.part = u.part := by simp [State.inc]
  have hpart : u.showFreeze.evalMode.part = s.part := heval.part.trans (hshow.trans hcut.part)
  have hfrz : u.frz.phase = .freezing ∧ u.frz.pinLow = s.frz.pinLow := by rw [hcut.frz (by simp)]; exact ⟨rfl, rfl⟩
  have hget (f : Fld) (hf : f.reg = FRZ_STATUS) : (s.kept u.showFreeze.evalMode).get f d0 = u.showFreeze.get f d0 := by
    rw [State.get_kept _ _ hpart, heval.get (by rw [hf]; decide)]
  refine ⟨?_, ?_, ?_, ?_, ?_, ?_⟩
  · rw [State.kept_frz, heval.frz (by simp)]
    exact hfrz.1
  · rw [State.is, hget _ rfl, ← State.is, hfrozen]
  · rw [State.is, hget _ rfl, ← State.is, hpin, hfrz.2]
  · rw [hget _ rfl, hreq, hcut.get (by decide)]
    rfl
  · rw [hget _ rfl, hcnt, hcut.get (by decide)]
    rfl
  · rw [State.get_kept _ _ hpart, hmode, State.deriveMode_frozen hfrozen]

theorem State.dieMask_lt (s : State) : s.dieMask < 256 := maskOf_lt 8 s.reachable

theorem freezeEdgeF_stops (s : State) (hrun : s.running = true) (hphase : s.frz.phase = .freezing) :
    Completes .freezeEdgeF s fun t => t.frz.phase = .stopped ∧ t.running = false ∧ t.get FRZ_STATUS_STOPPED d0 = s.dieMask := by
  refine completes_of_event (fun _ => rfl) hrun ?_
  rw [if_neg (by simp [hphase])]
  refine ⟨by simp, by simp [State.running], ?_⟩
  rw [State.get_kept _ _ (by simp), State.get_put_same _ _ _ _ (by decide) (by decide)]
  exact Nat.mod_eq_of_lt s.dieMask_lt

/-! ## Inspect chains (R104, R107, R108) -/

theorem State.showChain_frz (s : State) : s.showChain.frz = s.frz := by
  simp [State.showChain]

theorem chainShift_shifts (s : State) (n : Nat) (halive : s.hw.alive = true) (hphase : s.frz.phase = .stopped)
    (hlevel : s.hw.dbg.level ≠ 0) :
    Completes (.chainShift n) s fun t => Tab.get t.frz.chains 0 s.chainSel.1 =
      if s.chainSel.2 = 0 then Tab.get s.frz.chains 0 s.chainSel.1
      else (Tab.get s.frz.chains 0 s.chainSel.1 + n) % s.chainSel.2 := by
  refine completes_of_acEvent (fun _ => rfl) halive ?_
  dsimp only
  by_cases hlen : s.chainSel.2 = 0
  · simp [hlen]
  · rw [if_neg (by simp [hphase, hlevel, hlen]), if_neg hlen, State.kept_frz, State.showChain_frz, State.answer_frz]
    exact Tab.get_set_same _ _ _ _

/-! ## Thaw (R109 to R112) -/

@[simp] theorem State.get_setDbg (s : State) (g : Debug → Debug) (f : Fld) (a : Nat) : (s.setDbg g).get f a = s.get f a :=
  State.get_congr (State.setHw_regs ..) (State.setHw_part ..) f a

/-- A link of the part hunts again and reads not locked at both its ends. -/
abbrev State.unlock (s : State) (l : Nat) : State :=
  if linkPresent s.part l then (s.dropLanes l).putLink DLINK_STATUS_LOCKED l 0 else s

theorem State.unlock_same (s : State) (l : Nat) : Footprint.Same ⟨[.lanes], [.all DLINK_STATUS], []⟩ s (s.unlock l) := by
  rw [Footprint.same_ite]
  split <;> simp

theorem State.unlockAll_same (s : State) (ls : List Nat) :
    Footprint.Same ⟨[.lanes], [.all DLINK_STATUS], []⟩ s (ls.foldl State.unlock s) := by
  rw [Footprint.same_foldl fun x l => x.unlock_same l]
  exact Footprint.Same.refl _ s

/-- Places with one key hold one word. -/
theorem State.is_congr_place (s : State) (f : Fld) {a b : Nat} (h : a % 2 ^ 28 = b % 2 ^ 28) : s.is f a = s.is f b := by
  simp only [State.is, State.get, State.rd, rkey, h]

/-- A field that is cleared at one place is set at no more places than before. -/
theorem State.is_of_is_put_zero {s : State} {f : Fld} (hl : f.lo ≤ f.hi) (hh : f.hi < 32) {a b : Nat}
    (h : (s.put f a 0).is f b = true) : s.is f b = true := by
  by_cases hab : b % 2 ^ 28 = a % 2 ^ 28
  · rw [State.is_congr_place _ _ hab, State.is, State.get_put_same _ _ _ _ hl hh] at h
    simp at h
  · rwa [State.is, State.get_put_at _ _ hab] at h

theorem State.dropLanes_same (s : State) (l : Nat) : Footprint.Same ⟨[.lanes], [], []⟩ s (s.dropLanes l) := by
  simp

theorem State.is_of_is_unlock {s : State} {l a : Nat} (h : (s.unlock l).is DLINK_STATUS_LOCKED a = true) :
    s.is DLINK_STATUS_LOCKED a = true := by
  by_cases hl : linkPresent s.part l = true
  · rw [State.unlock, if_pos hl, State.putLink] at h
    have hdrop := State.is_of_is_put_zero (by decide) (by decide) (State.is_of_is_put_zero (by decide) (by decide) h)
    rwa [(s.dropLanes_same l).is (by simp)] at hdrop
  · rwa [State.unlock, if_neg hl] at h

theorem State.is_of_is_unlockAll {ls : List Nat} {s : State} {a : Nat}
    (h : (ls.foldl State.unlock s).is DLINK_STATUS_LOCKED a = true) : s.is DLINK_STATUS_LOCKED a = true := by
  induction ls generalizing s with
  | nil => exact h
  | cons l ls ih => exact State.is_of_is_unlock (ih h)

theorem State.unlock_low {s : State} {l : Nat} (hl : linkPresent s.part l = true) :
    (s.unlock l).is DLINK_STATUS_LOCKED (place (linkLow l) l) = false := by
  rw [State.unlock, if_pos hl, State.putLink]
  by_contra h
  have hput := State.is_of_is_put_zero (f := DLINK_STATUS_LOCKED) (by decide) (by decide) (by simpa using h)
  simp (disch := decide) [State.is] at hput

/-- Of the links that are taken through, none of the part is up. -/
theorem State.unlockAll_down {ls : List Nat} {s : State} {l : Nat} (hmem : l ∈ ls) (hl : linkPresent s.part l = true) :
    (ls.foldl State.unlock s).linkUp l = false := by
  suffices h : (ls.foldl State.unlock s).is DLINK_STATUS_LOCKED (place (linkLow l) l) = false by simp [State.linkUp, h]
  induction ls generalizing s with
  | nil => simp at hmem
  | cons k ls ih =>
    rw [List.foldl_cons]
    rcases List.mem_cons.1 hmem with rfl | htail
    · by_contra h
      have := State.is_of_is_unlockAll (by simpa using h)
      rw [State.unlock_low hl] at this
      cases this
    · exact ih htail (by rw [(s.unlock_same k).part]; exact hl)

/-- A thaw is under way: LINK_FAIL is clear, and what the debug gate was asked has ended (R109, R649, R654). -/
abbrev State.thawBegun (s : State) : State :=
  ({ s with frz := { s.frz with phase := .thawing, awake := [] } }.put FRZ_STATUS_LINK_FAIL d0 0).setDbg Debug.thaw

theorem thawStart_unlocks (s : State) (halive : s.hw.alive = true) (hphase : s.frz.phase = .stopped)
    (hpin : s.frz.pinLow = false) (hreq : s.is FRZ_CTL_REQ d0 = false) (hdirty : s.is FRZ_STATUS_CHAIN_DIRTY d0 = false)
    (hopen : s.hw.openGranted = false) (hfail : s.is FRZ_STATUS_THAW_FAIL d0 = false) :
    Completes .thawStart s fun t => t.frz.phase = .thawing ∧ t.get FRZ_STATUS_LINK_FAIL d0 = 0 ∧ t.hw.dbg.level = 0 ∧
      t.hw.dbg.chal = none ∧ ∀ l < 25, linkPresent s.part l = true → t.linkUp l = false := by
  refine completes_of_acEvent (fun _ => rfl) halive ?_
  rw [if_neg (by simp [hphase, hpin, hreq, hdirty, hopen, hfail])]
  have hsame := s.thawBegun.unlockAll_same (List.range 25)
  have hbegun : s.thawBegun.part = s.part := by simp [State.setDbg]
  have hpart := hsame.part.trans hbegun
  have hhw : ((List.range 25).foldl State.unlock s.thawBegun).hw = s.thawBegun.hw := hsame.hw (by simp)
  refine ⟨?_, ?_, ?_, ?_, fun l hlt hl => ?_⟩
  · rw [State.kept_frz]
    refine (congrArg Freeze.phase (hsame.frz (by simp))).trans ?_
    simp [State.setDbg]
  · refine (State.get_kept _ _ hpart _ _).trans ((hsame.get (by decide)).trans ?_)
    rw [State.get_setDbg, State.get_put_same _ _ _ _ (by decide) (by decide)]
    rfl
  · exact congrArg (·.dbg.level) hhw
  · exact congrArg (·.dbg.chal) hhw
  · have hdown := State.unlockAll_down (s := s.thawBegun) (List.mem_range.2 hlt) (by rw [hbegun]; exact hl)
    rw [State.linkUp, State.is_kept _ _ hpart, State.is_kept _ _ hpart]
    exact hdown

theorem State.released_same (s : State) (ls : List Nat) : Footprint.Same ⟨.pipe :: Footprint.erasures.areas,
    Footprint.erasures.stored, Footprint.erasures.inEffect⟩ s (ls.foldl State.resend s).erasedOutcomes := by
  rw [Footprint.same_erasedOutcomes (by simp), Footprint.same_foldl fun x l => by simp]
  exact Footprint.Same.refl _ s

/-- The domains resume: STOPPED is clear. -/
abbrev State.resumed (s : State) : State :=
  { s with frz := { s.frz with phase := .resuming, awake := s.stackDies } }.put FRZ_STATUS_STOPPED d0 0

theorem thawRelease_resumes (s : State) (k : BitVec 8) (halive : s.hw.alive = true) (hphase : s.frz.phase = .thawing)
    (hlinks : ∀ l ∈ s.thawLinks, s.linkUp l = true) (hstacks : ∀ d ∈ s.stackDies, k.getLsbD d = true) :
    Completes (.thawRelease k) s fun t => t.frz.phase = .resuming ∧ t.get FRZ_STATUS_STOPPED d0 = 0 := by
  refine completes_of_acEvent (fun _ => rfl) halive ?_
  rw [if_neg (by simpa [hphase] using ⟨hlinks, hstacks⟩)]
  dsimp only
  have hsame := s.resumed.released_same s.resumed.thawLinks
  have hpart := hsame.part.trans (by simp : s.resumed.part = s.part)
  refine ⟨?_, ?_⟩
  · rw [State.kept_frz, hsame.frz (by simp)]
    simp
  · rw [State.get_kept _ _ hpart, hsame.get (by decide), State.get_put_same _ _ _ _ (by decide) (by decide)]
    rfl

theorem State.seconds_same (s : State) : Footprint.Same ⟨[.pon, .pmc], [.all PFR_PM_STAT, .all PMC_BW_STAT],
    [.all PFR_PM_CFG, .all PFR_PM_SES, .all PMC_BW_CFG]⟩ s (chans.foldl State.pmStep s).bwStep := by
  rw [Footprint.same_bwStep (by simp), Footprint.same_foldl fun x c => by simp]
  exact Footprint.Same.refl _ s

/-- The part runs again: FROZEN is clear and FROZE set (R51, R112). -/
abbrev State.thawed (s : State) : State :=
  (({ s with frz := { s.frz with phase := .running, awake := [] } }.put FRZ_STATUS_FROZEN d0 0).put
    TIME_STATUS_FROZE d0 1).setDbg Debug.thaw

theorem thawEnd_runs (s : State) (halive : s.hw.alive = true) (hphase : s.frz.phase = .resuming) :
    Completes .thawEnd s fun t =>
      t.frz.phase = .running ∧ t.is FRZ_STATUS_FROZEN d0 = false ∧ t.is TIME_STATUS_FROZE d0 = true := by
  refine completes_of_acEvent (fun _ => rfl) halive ?_
  rw [if_neg (by simp [hphase])]
  have hsame := s.thawed.seconds_same
  have hpart := hsame.part.trans (by simp [State.setDbg] : s.thawed.part = s.part)
  have hfields : s.thawed.is FRZ_STATUS_FROZEN d0 = false ∧ s.thawed.is TIME_STATUS_FROZE d0 = true := by
    simp (disch := decide) [State.is]
  refine ⟨?_, ?_, ?_⟩
  · rw [State.kept_frz]
    refine (congrArg Freeze.phase (hsame.frz (by simp))).trans ?_
    simp [State.setDbg]
  · exact (State.is_kept _ _ hpart _ _).trans ((hsame.is (by decide)).trans hfields.1)
  · exact (State.is_kept _ _ hpart _ _).trans ((hsame.is (by decide)).trans hfields.2)

/-- The dies that a failed thaw marks: those of slow stacks and those of links that are not back (R111). -/
def failMask (bad slow : List Nat) : Nat :=
  maskOf 8 fun d => slow.contains d || bad.any fun l => linkLow l == d || linkHigh l == d

/-- A thaw that finds a link or a stack missing fails and marks the dies (R111). -/
theorem thawFail_marks (s : State) (k : BitVec 8) (halive : s.hw.alive = true) (hphase : s.frz.phase = .thawing)
    (hbad : s.thawLinks.filter (fun l => !s.linkUp l) ≠ [] ∨ s.stackDies.filter (fun d => !k.getLsbD d) ≠ []) :
    Completes (.thawFail k) s fun t => t.frz.phase = .stopped ∧ t.is FRZ_STATUS_THAW_FAIL d0 = true ∧
      t.get FRZ_STATUS_LINK_FAIL d0 =
        failMask (s.thawLinks.filter fun l => !s.linkUp l) (s.stackDies.filter fun d => !k.getLsbD d) := by
  refine completes_of_acEvent (fun _ => rfl) halive ?_
  rw [if_neg (by simp [hphase])]
  dsimp only
  rw [if_neg (by rcases hbad with h | h <;> simp [h])]
  refine ⟨by simp, ?_, ?_⟩
  · rw [State.is_kept _ _ (by simp)]
    simp (disch := decide) [State.is, State.get_put_field]
  · rw [State.get_kept _ _ (by simp), State.get_put_same _ _ _ _ (by decide) (by decide)]
    exact Nat.mod_eq_of_lt (maskOf_lt 8 _)

theorem linkEnds_lt : ∀ l < 25, linkLow l < 8 ∧ linkHigh l < 8 := by decide

theorem thawFail_link (s : State) (k : BitVec 8) (l : Nat) (halive : s.hw.alive = true) (hphase : s.frz.phase = .thawing)
    (hl : l ∈ s.thawLinks) (hdown : s.linkUp l = false) :
    Completes (.thawFail k) s fun t => t.frz.phase = .stopped ∧ t.is FRZ_STATUS_THAW_FAIL d0 = true ∧
      bitOf (t.get FRZ_STATUS_LINK_FAIL d0) (linkLow l) = true ∧ bitOf (t.get FRZ_STATUS_LINK_FAIL d0) (linkHigh l) = true := by
  have hbad : l ∈ s.thawLinks.filter fun l => !s.linkUp l := List.mem_filter.2 ⟨hl, by simp [hdown]⟩
  obtain ⟨hlow, hhigh⟩ := linkEnds_lt l (List.mem_range.1 (List.mem_filter.1 hl).1)
  obtain ⟨t, ht, hstop, hfail, hmask⟩ := thawFail_marks s k halive hphase (.inl (List.ne_nil_of_mem hbad))
  have hmarks (d : Nat) (hd : d < 8) (hend : (linkLow l == d || linkHigh l == d) = true) :
      bitOf (t.get FRZ_STATUS_LINK_FAIL d0) d = true := by
    rw [bitOf, hmask, failMask, testBit_maskOf, List.any_eq_true.2 ⟨l, hbad, hend⟩]
    simp [hd]
  exact ⟨t, ht, hstop, hfail, hmarks _ hlow (by simp), hmarks _ hhigh (by simp)⟩

theorem thawFail_stack (s : State) (k : BitVec 8) (d : Nat) (halive : s.hw.alive = true) (hphase : s.frz.phase = .thawing)
    (hd : d ∈ s.stackDies) (hslow : k.getLsbD d = false) :
    Completes (.thawFail k) s fun t => t.frz.phase = .stopped ∧ t.is FRZ_STATUS_THAW_FAIL d0 = true ∧
      bitOf (t.get FRZ_STATUS_LINK_FAIL d0) d = true := by
  have hmem : d ∈ s.stackDies.filter fun d => !k.getLsbD d := List.mem_filter.2 ⟨hd, by simp [hslow]⟩
  have hlt : d < 8 := (by decide : ∀ d ∈ [6, 7], d < 8) d (List.mem_filter.1 hd).1
  obtain ⟨t, ht, hstop, hfail, hmask⟩ := thawFail_marks s k halive hphase (.inr (List.ne_nil_of_mem hmem))
  refine ⟨t, ht, hstop, hfail, ?_⟩
  rw [bitOf, hmask, failMask, testBit_maskOf, List.contains_iff_mem.2 hmem]
  simp [hlt]

/-- Settles O3: each command by what its operation leaves of the freeze unit, and the footprint of what follows in it. -/
theorem freezeAndThawComplete : Obligations.FreezeAndThawComplete :=
  ⟨freezeNChange_holds, frzCtlWrite_holds, synchronisedFreeze_freezes, freezeEdgeF_stops, chainShift_shifts, thawStart_unlocks,
    thawRelease_resumes, thawEnd_runs, thawFail_link, thawFail_stack⟩

end Sys2Proof.Machine
end

section
/-!
A counted write of a reservoir (R519, R693): each 64-byte block that a mesh write takes to a packet buffer is an event of its
die, which the counters that select it add in registers.
-/
namespace Sys2Proof.Machine
open Reg

/-- A running part whose reservoir die 6 is ready and reached over its link from line die 0, with counter 0 of that die
running and set to count the writes of every channel (R693, Table 17.4). -/
def countsWrites : State :=
  let s := (State.reset.setHw fun h => { h with railsUp := true }).putLink DLINK_STATUS_LOCKED 9 1
  ((s.put RSV_STAT_READY (onDie 6) 1).put PMC_CTL_RUN (place 6 0) 1).wr PMC_EVTSEL (place 6 0) 0x80FF0105

/-- Core 0 writes the first word of die 6. -/
def writeDie6 : Instr := .meshRequest ⟨.core 0, .clean, none⟩ .monitor true 0x6000000000#40 2 7

/-- The write is counted in PMC.CNT_LO of die 6 (R694). -/
theorem writeDie6_counts : (Out.after (exec writeDie6 countsWrites) countsWrites).regs ≠ countsWrites.regs := by
  decide

/-- The write meets what the statement asks of a write on an open route. -/
theorem writeDie6_open : countsWrites.running = true ∧ countsWrites.route (reqDie (.core 0)) 6 = .clear 1 ∧
    (countsWrites.memWrite 6 0 4 7).isSome = true := by
  decide

/-- Refutes O42: its first clause has a memory write leave every register as it was, which one that a counter of its target
die counts does not. -/
theorem not_meshRequestsComplete : ¬ Obligations.MeshRequestsComplete := by
  intro h
  obtain ⟨hwrite, -⟩ := h
  obtain ⟨hrun, hroute, hmem⟩ := writeDie6_open
  obtain ⟨t, ht, -, -, hregs⟩ := hwrite countsWrites 0 .clean none .monitor 0x6000000000#40 2 7 1 hrun (by decide) hroute hmem
  have hnext : exec writeDie6 countsWrites = .next t := ht
  have hcounts := writeDie6_counts
  rw [hnext] at hcounts
  exact hcounts hregs

end Sys2Proof.Machine
end

section
/-!
What no operation of a unit changes: the family member, the queue, the clocks and network time (R1, R56, R72). One rule for each
operation that a reset or the passing of time is made of.
-/
namespace Sys2Proof.Machine
open Reg

/-- The family member, the queue, the clocks and network time. -/
def State.steady (s : State) : Part × List Instr × Clocks × NetTime := (s.part, s.pending, s.clk, s.time)

section
variable {s t : State}

theorem State.part_of_steady (h : t.steady = s.steady) : t.part = s.part := congrArg (·.1) h
theorem State.pending_of_steady (h : t.steady = s.steady) : t.pending = s.pending := congrArg (·.2.1) h
theorem State.clk_of_steady (h : t.steady = s.steady) : t.clk = s.clk := congrArg (·.2.2.1) h
theorem State.time_of_steady (h : t.steady = s.steady) : t.time = s.time := congrArg (·.2.2.2) h

/-- A fold of steps that each leave it leaves it. -/
theorem State.steady_foldl {α : Type} {f : State → α → State} (h : ∀ u a, (f u a).steady = u.steady) (l : List α) (s : State) :
    (l.foldl f s).steady = s.steady := by
  induction l generalizing s with
  | nil => rfl
  | cons a l ih => rw [List.foldl_cons, ih, h]

theorem State.steady_ite {c : Prop} [Decidable c] {a b : State} :
    (if c then a else b).steady = if c then a.steady else b.steady := apply_ite ..

end

/-! ## Updates of one area -/

section
variable {s : State}

theorem State.steady_pwr {x : Power} : State.steady { s with pwr := x } = s.steady := rfl
theorem State.steady_dram {x : Store} : State.steady { s with dram := x } = s.steady := rfl
theorem State.steady_ciph {x : Ciph} : State.steady { s with ciph := x } = s.steady := rfl
theorem State.steady_pmc {x : Pmc} : State.steady { s with pmc := x } = s.steady := rfl

end

variable (s : State)

@[simp] theorem State.wr_steady (r a : Nat) (w : Word) : (s.wr r a w).steady = s.steady := by simp [State.steady]
@[simp] theorem State.wrEff_steady (r a : Nat) (w : Word) : (s.wrEff r a w).steady = s.steady := by simp [State.steady]
@[simp] theorem State.put_steady (f : Fld) (a v : Nat) : (s.put f a v).steady = s.steady := by simp [State.steady]
@[simp] theorem State.inc_steady (f : Fld) (a n : Nat) : (s.inc f a n).steady = s.steady := by simp [State.inc]
@[simp] theorem State.count_steady (r a : Nat) : (s.count r a).steady = s.steady := by simp [State.count]
@[simp] theorem State.setHw_steady (f : Hw → Hw) : (s.setHw f).steady = s.steady := rfl
@[simp] theorem State.setGuard_steady (d b : Nat) (g : Guard) : (s.setGuard d b g).steady = s.steady := rfl
@[simp] theorem State.setConv_steady (c : Nat) (v : Conv) : (s.setConv c v).steady = s.steady := rfl
@[simp] theorem State.setBond_steady (b : Bond) : (s.setBond b).steady = s.steady := rfl
@[simp] theorem State.setCore_steady (n : Nat) (c : Core) : (s.setCore n c).steady = s.steady := rfl
@[simp] theorem State.draw_steady {α : Type} (f : Nat → α) : (s.draw f).2.steady = s.steady := rfl

/-- A state that differs in registers alone. -/
theorem OnlyRegs.steady {s t : State} (h : OnlyRegs s t) : t.steady = s.steady := by
  obtain ⟨_, _, rfl⟩ := h
  rfl

@[simp] theorem State.setBytes_steady (a : Nat) (l : List Byte) : (s.setBytes a l).steady = s.steady := by
  induction l generalizing s a with
  | nil => rfl
  | cons b l ih => exact ih (s.setByte a b) (a + 1)

/-! ## Resets and the loss of power (R625, R628, R639, R721) -/

@[simp] theorem State.cutBit_steady (i : Nat) : (s.cutBit i).steady = s.steady := rfl

theorem State.cutWords_steady (l : List Word) : (s.cutWords l).2.steady = s.steady := by
  unfold State.cutWords
  suffices h : ∀ acc : List Word × State, (l.foldl (fun (a : List Word × State) w =>
      let (r, s) := a.2.draw Config.freeReserved
      (a.1 ++ [w &&& r], s)) acc).2.steady = acc.2.steady from h ([], s)
  induction l with
  | nil => exact fun _ => rfl
  | cons w l ih => exact fun acc => ih _

@[simp] theorem State.burnCut_steady : s.burnCut.steady = s.steady := by
  simp only [State.burnCut]
  split
  · simp [State.steady_ite]
  · split <;> simp [State.cutWords_steady, State.steady_ite]

@[simp] theorem State.showFuses_steady : s.showFuses.steady = s.steady := by simp [State.showFuses]

@[simp] theorem State.putWords_steady (r i : Nat) (l : List Word) : (s.putWords r i l).steady = s.steady := by
  induction l generalizing s i with
  | nil => rfl
  | cons w l ih => rw [State.putWords, ih, State.wr_steady]

@[simp] theorem State.senseFuses_steady : s.senseFuses.steady = s.steady := by
  unfold State.senseFuses
  dsimp only
  split <;> simp

@[simp] theorem State.gpioSense_steady : s.gpioSense.steady = s.steady := by
  simp [State.gpioSense, State.steady_ite]

theorem State.coldStart_pinned (c : ResetCause) :
    (s.coldStart c).part = s.part ∧ (s.coldStart c).pending = s.pending := by
  have hpart := State.part_of_steady s.burnCut_steady
  have hpending := State.pending_of_steady s.burnCut_steady
  unfold State.coldStart
  extract_lets u out down hw x m n
  have hn : n.steady = m.steady := by simp [n]
  have hm : n.part = s.part ∧ n.pending = s.pending :=
    ⟨(State.part_of_steady hn).trans hpart, (State.pending_of_steady hn).trans hpending⟩
  split <;> simpa using hm

/-! ## Memory, counted accesses and the mesh (R32, R146, R519, R676, R693) -/

@[simp] theorem State.pmcAdd_steady (d u n k : Nat) : (s.pmcAdd d u n k).steady = s.steady := (s.pmcAdd_onlyRegs ..).steady

@[simp] theorem State.pmcEvent_steady (d u code idx k : Nat) (pass : Word → Bool) :
    (s.pmcEvent d u code idx k pass).steady = s.steady := (s.pmcEvent_onlyRegs ..).steady

@[simp] theorem State.rcUse_steady (d off n : Nat) (write : Bool) : (s.rcUse d off n write).steady = s.steady :=
  (s.rcUse_onlyRegs ..).steady

@[simp] theorem State.putBytes_steady (a : Nat) (l : List Byte) : (s.putBytes a l).steady = s.steady := by
  simp [State.putBytes]

@[simp] theorem State.rcPacket_steady (d n : Nat) (write : Bool) : (s.rcPacket d n write).steady = s.steady := by
  unfold State.rcPacket
  split
  · rfl
  · exact State.steady_foldl (fun u i => by simp [State.steady_ite]) _ s

@[simp] theorem State.wakeReq_steady (d src idx : Nat) : (s.wakeReq d src idx).steady = s.steady := by
  simp [State.wakeReq, State.steady_ite, ↓State.steady_pwr]

@[simp] theorem State.wakeRoute_steady (a b : Nat) : (s.wakeRoute a b).steady = s.steady := by
  unfold State.wakeRoute
  split <;> simp [State.steady_ite]

@[simp] theorem State.refuseIfAbsent_steady (a b source : Nat) (write : Bool) (addr : Nat) :
    (s.refuseIfAbsent a b source write addr).steady = s.steady := by
  unfold State.refuseIfAbsent
  split
  · rfl
  · split <;> rfl

/-! ## Errors that a read finds (R527 to R530, R546, R574) -/

@[simp] theorem State.showLog_steady (d b : Nat) : (s.showLog d b).steady = s.steady := by simp [State.showLog]

@[simp] theorem State.logError_steady (d b cls : Nat) (scratch scrub : Bool) (memid bank index : Nat) (e : Ecc) :
    (s.logError d b cls scratch scrub memid bank index e).steady = s.steady := by
  simp [State.logError, State.steady_ite]

@[simp] theorem State.testRow_steady (d b : Nat) (r : RowId) (scrub : Bool) (e : Ecc) :
    (s.testRow d b r scrub e).steady = s.steady := by
  simp [State.testRow, State.steady_ite]

@[simp] theorem State.rowError_steady (d b : Nat) (r : RowId) (scrub : Bool) (e : Ecc) :
    (s.rowError d b r scrub e).steady = s.steady := by
  cases e <;> simp [State.rowError, State.steady_ite]

@[simp] theorem State.storeError_steady (d : Nat) (scrub : Bool) (e : Ecc) : (s.storeError d scrub e).steady = s.steady := by
  cases e <;> simp [State.storeError, State.plainError, State.steady_ite]

@[simp] theorem State.memFind_steady (d off : Nat) (e : Ecc) : (s.memFind d off e).2.steady = s.steady := by
  unfold State.memFind
  split
  · rfl
  · simp
  · simp
  · split <;> simp
  · split <;> simp

@[simp] theorem State.readSpan_steady (src addr n : Nat) (e : Ecc) : (s.readSpan src addr n e).2.steady = s.steady := by
  unfold State.readSpan
  split
  · split
    · rfl
    · have h := (s.rcUse (addr / 2 ^ 36) (addr % 2 ^ 36) n false).memFind_steady (addr / 2 ^ 36 % 16) (addr % 2 ^ 36) e
      rw [State.rcUse_steady] at h
      split
      · next heq => rwa [heq] at h
      · next heq => rwa [heq] at h
  · rfl

@[simp] theorem State.memWrite_steady (d off n v : Nat) : ((s.memWrite d off n v).getD s).steady = s.steady := by
  unfold State.memWrite
  split <;> simp

/-! ## Caches of the line dies (R553, R559) -/

@[simp] theorem State.setLineAt_steady (c : Cache) (k : Nat) (l : Option Line) : (s.setLineAt c k l).steady = s.steady := by
  cases c <;> rfl

@[simp] theorem State.setLine_steady (c : Cache) (pa : Nat) (l : Option Line) : (s.setLine c pa l).steady = s.steady := by
  unfold State.setLine
  split <;> simp

@[simp] theorem State.victim_steady (c : Cache) (pa : Nat) : (s.victim c pa).2.steady = s.steady := by
  unfold State.victim
  split <;> rfl

@[simp] theorem State.mergeLine_steady (n pa : Nat) : (s.mergeLine n pa).steady = s.steady := by
  unfold State.mergeLine
  split
  · rfl
  · simp [State.steady_ite]

@[simp] theorem State.mergeAll_steady (d pa : Nat) : (s.mergeAll d pa).steady = s.steady :=
  State.steady_foldl (fun u n => u.mergeLine_steady n pa) _ s

@[simp] theorem State.dropOthers_steady (d pa : Nat) (but : Option Nat) : (s.dropOthers d pa but).steady = s.steady :=
  State.steady_foldl (fun u n => by simp [State.steady_ite]) _ s

/-- The state that an access leaves, however it ends. -/
def CoreEnd.left : CoreEnd → State
  | .ok _ s | .exc _ s | .wait s => s

@[simp] theorem CoreEnd.left_ok (v : Nat) : (CoreEnd.ok v s).left = s := rfl
@[simp] theorem CoreEnd.left_exc (k : Nat) : (CoreEnd.exc k s).left = s := rfl
@[simp] theorem CoreEnd.left_wait : (CoreEnd.wait s).left = s := rfl

theorem CoreEnd.left_andThen {r : CoreEnd} {f : State → CoreEnd} (hf : ∀ u, (f u).left.steady = u.steady) :
    (r.andThen f).left.steady = r.left.steady := by
  cases r with
  | ok v u => exact hf u
  | exc k u => rfl
  | wait u => rfl

@[simp] theorem CoreEnd.left_counted (n code : Nat) (r : CoreEnd) : (r.counted n code).left.steady = r.left.steady := by
  cases r <;> simp [CoreEnd.counted, State.coreEvent, State.levelEvent]

@[simp] theorem CoreEnd.left_orLost (d t : Nat) (lost : Bool) (r : CoreEnd) : (r.orLost d t lost).left = r.left := by
  cases r with
  | ok v u => simp only [CoreEnd.orLost]; split <;> rfl
  | exc k u => rfl
  | wait u => rfl

@[simp] theorem State.writeBack_steady (d pa : Nat) (lost : Bool) : (s.writeBack d pa lost).left.steady = s.steady := by
  unfold State.writeBack
  dsimp only
  split
  · simp
  · split
    · simp
    · split <;> simp

@[simp] theorem State.dropLine_steady (d pa : Nat) : (s.dropLine d pa).steady = s.steady := by simp [State.dropLine]

@[simp] theorem State.evictLine_steady (d pa : Nat) (lost : Bool) : (s.evictLine d pa lost).left.steady = s.steady := by
  unfold State.evictLine
  rw [CoreEnd.left_andThen fun u => by simp]
  simp

@[simp] theorem State.fillL2_steady (d pa : Nat) (m : Found) : (s.fillL2 d pa m).left.steady = s.steady := by
  have hv := s.victim_steady (.l2 d) pa
  unfold State.fillL2
  dsimp only
  rw [CoreEnd.left_andThen fun u => ?_]
  · split
    · exact hv
    · simp
  · have hread := u.readSpan_steady d (pa / 64 * 64) 64 m.ecc
    split
    · simp
    · simp
    · split
      · next heq => rwa [heq] at hread
      · next heq =>
        rw [CoreEnd.left_andThen fun x => by simp, CoreEnd.left_orLost]
        rwa [heq] at hread

@[simp] theorem State.needL2_steady (n pa : Nat) (m : Found) : (s.needL2 n pa m).left.steady = s.steady := by
  have h := s.readSpan_steady (coreDie n) (pa / 64 * 64) 64 m.ecc
  unfold State.needL2
  dsimp only
  split
  · split
    · next heq => rwa [heq] at h
    · next heq => rwa [heq] at h
  · split
    · simp
    · split
      · rfl
      · simp
      · split <;> simp

@[simp] theorem State.fillData_steady (n pa : Nat) (m : Found) : (s.fillData n pa m).left.steady = s.steady := by
  unfold State.fillData
  dsimp only
  rw [CoreEnd.left_andThen fun u => ?_]
  · simp
  · have hv := u.victim_steady (.data n) pa
    simp only [CoreEnd.left_ok, State.setLineAt_steady]
    split
    · exact hv
    · simp

@[simp] theorem State.drainEntry_steady (n : Nat) (x : SbEntry) : (s.drainEntry n x).left.steady = s.steady := by
  unfold State.drainEntry
  dsimp only
  split
  · rw [CoreEnd.left_andThen fun u => ?_]
    · split
      · rfl
      · simp
    · split <;> simp
  · simp
  · split <;> simp

@[simp] theorem State.drainOne_steady (n : Nat) : (s.drainOne n).steady = s.steady := by
  unfold State.drainOne
  split
  · rfl
  · next x t _ =>
    have h := (s.setCore n { s.core n with sb := t }).drainEntry_steady n x
    split
    · next heq => rw [heq] at h; exact h
    · next heq => rw [heq] at h; exact h
    · next heq => rw [heq] at h; exact h

/-! ## The channel group (R258, R265, R270, R524) -/

@[simp] theorem State.showBond_steady : s.showBond.steady = s.steady := by simp [State.showBond]

@[simp] theorem State.linkDrop_steady (d l n : Nat) : (s.linkDrop d l n).steady = s.steady := by simp [State.linkDrop]

@[simp] theorem State.sendCells_steady (writer d c : Nat) : (s.sendCells writer d c).2.steady = s.steady := by
  unfold State.sendCells
  split <;> simp

@[simp] theorem State.mayShare_steady (d : Nat) : (s.mayShare d).2.steady = s.steady := by
  unfold State.mayShare
  split <;> simp

@[simp] theorem State.alloc_steady (writer n : Nat) : (s.alloc writer n).2.steady = s.steady := by
  unfold State.alloc
  dsimp only
  split
  · simp
  · simp [↓State.steady_dram, State.steady_ite]


@[simp] theorem State.bondPass_steady (x : BondFrame) : (s.bondPass x).steady = s.steady := by
  have h := s.alloc_steady (s.streamDie x.stream) x.bytes.length
  unfold State.bondPass
  dsimp only
  split
  · simp
  · simp
  · rfl
  · split
    · next heq => rwa [heq] at h
    · next heq => rwa [heq] at h
  · split
    · next heq => rwa [heq] at h
    · next heq => rwa [heq] at h

@[simp] theorem State.bondRelease_steady (x : BondFrame) : (s.bondRelease x).steady = s.steady := by
  simp [State.bondRelease, State.steady_ite]

@[simp] theorem State.releaseHeld_steady (x : BondFrame) (e : Ecc) : (s.releaseHeld x e).steady = s.steady := by
  simp [State.releaseHeld, State.steady_ite]

@[simp] theorem State.setExp_steady (k e : Nat) : (s.setExp k e).steady = s.steady := by
  unfold State.setExp
  dsimp only
  rw [State.steady_foldl fun u m => u.setBond_steady _]
  simp

@[simp] theorem State.drain_steady (n k : Nat) (e : Ecc) : (State.drain n k e s).steady = s.steady := by
  induction n generalizing s e with
  | zero => rfl
  | succ n ih =>
    unfold State.drain
    split
    · rfl
    · simp [State.steady_ite, ih]

@[simp] theorem State.bondPump_steady : s.bondPump.steady = s.steady := by
  unfold State.bondPump
  split
  · rfl
  · dsimp only
    rw [State.showBond_steady, State.steady_foldl fun u k => by simp, State.steady_foldl fun u x => by simp]
    simp

/-! ## Words of bursts (R246, R489, R494, R499) -/

@[simp] theorem State.countErased_steady (c n : Nat) : (s.countErased c n).steady = s.steady := by simp [State.countErased]

@[simp] theorem State.beginMic_steady (c : Nat) (l : List Byte) (m : MicPart) : (s.beginMic c l m).2.steady = s.steady := by
  have hite (b : Prop) [Decidable b] (x y : List Byte × State) : (if b then x else y).2.steady =
      if b then x.2.steady else y.2.steady := apply_ite (fun z : List Byte × State => z.2.steady) ..
  simp [State.beginMic, hite, State.steady_ite, ↓State.steady_ciph]

@[simp] theorem State.beginCrypt_steady (c n : Nat) (l : List Byte) (k : Crypt) :
    (s.beginCrypt c n l k).2.2.steady = s.steady := by
  unfold State.beginCrypt
  cases hm : k.mic with
  | none =>
    dsimp only
    split
    · rfl
    · split <;> simp
  | some m =>
    have h := s.beginMic_steady c l m
    dsimp only
    split
    · exact h
    · split
      · exact h
      · rw [State.countErased_steady]
        exact h

@[simp] theorem State.beginCrypts_steady (c n p : Nat) (ks : List Crypt) (l : List Byte) :
    (s.beginCrypts c n p ks l).2.2.steady = s.steady := by
  induction ks generalizing s l with
  | nil => rfl
  | cons k ks ih =>
    unfold State.beginCrypts
    dsimp only
    rw [ih]
    split <;> simp

@[simp] theorem State.beginAllocs_steady (c n p : Nat) (l : List (Nat × Alloc)) :
    (s.beginAllocs c n p l).2.steady = s.steady := by
  induction l generalizing s with
  | nil => rfl
  | cons x l ih =>
    unfold State.beginAllocs
    dsimp only
    rw [ih]
    simp

@[simp] theorem State.setBurst_steady (c : Nat) (b : Burst) : (s.setBurst c b).steady = s.steady := rfl

@[simp] theorem State.cipherWords_steady (c : Nat) : (s.cipherWords c).steady = s.steady := by
  unfold State.cipherWords
  split
  · rfl
  · split
    · rfl
    · dsimp only
      rw [State.steady_ciph, State.setBurst_steady, State.beginAllocs_steady]

@[simp] theorem State.uwEdges_steady (c : Nat) : (s.uwEdges c).steady = s.steady := by
  simp [State.uwEdges, State.steady_ite]

/-! ## Counters that take edges (R519, R693, R694, R701) -/

@[simp] theorem State.cycAdd_steady (d u n : Nat) : (s.cycAdd d u n).steady = s.steady := by
  simp [State.cycAdd, State.steady_ite]

@[simp] theorem State.refreshSlots_steady (d n : Nat) : (s.refreshSlots d n).steady = s.steady := by
  unfold State.refreshSlots
  dsimp only
  split
  · rfl
  · exact State.steady_foldl (fun u i => State.steady_foldl (fun v ch => by simp) _ u) _ s

@[simp] theorem State.idleSlots_steady (d : Nat) : (s.idleSlots d).steady = s.steady := by
  simp [State.idleSlots, State.steady_ite]

@[simp] theorem State.freeEvents_steady (d u : Nat) (codes : List Nat) (pass : Word → Bool) :
    (s.freeEvents d u codes pass).steady = s.steady := by
  unfold State.freeEvents
  split
  · rfl
  · exact State.steady_foldl (fun v n => by simp [State.steady_ite]) _ s

@[simp] theorem State.levelEvent_steady (n : Nat) (l : Level) (code k : Nat) : (s.levelEvent n l code k).steady = s.steady :=
  s.pmcEvent_steady ..

@[simp] theorem State.emptyClass_steady (k : Nat) : (s.emptyClass k).2.steady = s.steady := by
  unfold State.emptyClass
  dsimp only
  split_ifs <;> rfl

@[simp] theorem State.slotEdge_steady (k : Nat) : (s.slotEdge k).steady = s.steady := by
  unfold State.slotEdge
  extract_lets q u v w x y
  have hu : u.steady = s.steady := State.steady_foldl (fun x l => by simp) _ s
  have hx : x.steady = s.steady := by simp [x, State.steady_ite, w, ↓State.steady_pmc, hu]
  simp [State.steady_ite, hx]

@[simp] theorem State.slotEdges_steady (k n : Nat) : (s.slotEdges k n).steady = s.steady := by
  unfold State.slotEdges
  dsimp only
  split
  · rfl
  · rw [State.freeEvents_steady, State.steady_foldl fun u _ => by simp]

@[simp] theorem State.cycEdges_steady : s.cycEdges.steady = s.steady :=
  State.steady_foldl (fun u d => by
    split
    · exact State.steady_foldl (fun v n => by simp) _ u
    · rfl) _ s

@[simp] theorem State.edgeEvents_steady : s.edgeEvents.steady = s.steady := by
  unfold State.edgeEvents
  dsimp only
  rw [State.steady_foldl fun u k => by simp, State.steady_foldl fun u d => by simp]

end Sys2Proof.Machine
end

section
/-!
Every command answers a next state with the family member and the queue of before (R1).
-/
namespace Sys2Proof.Machine
open Reg

/-- An outcome is a next state with the family member and the queue as they were. -/
def Pins (s : State) (o : Out) : Prop := ∃ t, o = .next t ∧ t.part = s.part ∧ t.pending = s.pending

/-- An event comes about or leaves the state as it was, and what comes about has the part, the queue and the fuses of before. -/
theorem pins_kept {s u : State} {b : Prop} [Decidable b] : Pins s (.next (if b then s.kept u else s)) := by
  by_cases h : b
  · exact ⟨s.kept u, by rw [if_pos h], rfl, rfl⟩
  · exact ⟨s, by rw [if_neg h], rfl, rfl⟩

/-- The same of an event that ends a burn, which may change the fuses (R639). -/
theorem pins_pinned {s u : State} {b : Prop} [Decidable b] : Pins s (.next (if b then s.pinned u else s)) := by
  by_cases h : b
  · exact ⟨s.pinned u, by rw [if_pos h], rfl, rfl⟩
  · exact ⟨s, by rw [if_neg h], rfl, rfl⟩

theorem coldReset_pins (s : State) : Pins s (exec .coldReset s) := by
  change Pins s (execColdReset s)
  unfold execColdReset
  split
  · exact ⟨_, rfl, s.coldStart_pinned .powerOn⟩
  · split
    · exact ⟨s, rfl, rfl, rfl⟩
    · next c _ =>
      split
      · exact ⟨s, rfl, rfl, rfl⟩
      · exact ⟨_, rfl, s.coldStart_pinned c⟩

theorem alwaysOnPowerLoss_pins (s : State) : Pins s (exec .alwaysOnPowerLoss s) :=
  have hpart := State.part_of_steady s.burnCut_steady
  have hpending := State.pending_of_steady s.burnCut_steady
  ⟨_, rfl, hpart, hpending⟩

/-- A mesh request of the TAP is an event of the ac domain, that of any other requester one of a stoppable domain (R99). -/
theorem meshRequest_pins (x : MeshFrom) (lv : Level) (w : Bool) (a : Addr) (k : Fin 4) (v : BitVec 64) (s : State) :
    Pins s (exec (.meshRequest x lv w a k v) s) := by
  obtain ⟨r, e, y⟩ := x
  cases r <;> exact pins_kept

theorem spanWrite_pins (r : Requester) (lv : Level) (off : BitVec 36) (v : Word) (s : State) :
    Pins s (exec (.spanWrite r lv off v) s) := by
  cases r <;> exact pins_kept

/-- Every command but a cold reset and the loss of power is one event of one domain. -/
theorem exec_pins (c : Instr) (s : State) : Pins s (exec c s) := by
  cases c with
  | coldReset => exact coldReset_pins s
  | alwaysOnPowerLoss => exact alwaysOnPowerLoss_pins s
  | meshRequest x lv w a k v => exact meshRequest_pins x lv w a k v s
  | spanWrite r lv off v => exact spanWrite_pins r lv off v s
  | fuseBurnDone | zeroisationStep => exact pins_pinned
  | _ => exact pins_kept

end Sys2Proof.Machine
end

section
/-!
A nominal mc period (R56, R72 to R75, R97, R99, R686, R721): what it makes of the clocks and of network time.
-/
namespace Sys2Proof.Machine
open Reg

/-! ## Edges of tc, rc and mc -/

/-- Network time stands still from t to u: it does not run, and shows the time that it showed (R75). -/
structure NetTime.Stands (t u : NetTime) : Prop where
  run : u.run = false
  sec : u.sec = t.sec
  ns : u.ns = t.ns
  frac : u.frac = t.frac

section
variable (s : State)

@[simp] theorem State.bwReach_steady (incr : Word) : (s.bwReach incr).steady = s.steady := by
  simp [State.bwReach, State.steady_ite, ↓State.steady_pmc]

/-- Edges of tc leave every clock but their own count. -/
theorem State.tcEdges_clk (n : Nat) : (s.tcEdges n).clk = { s.clk with tc := s.clk.tc + n } := by
  unfold State.tcEdges
  extract_lets incr out adv edge c v
  refine List.foldlRecOn (motive := fun u : State => u.clk = { s.clk with tc := s.clk.tc + n }) _ _ rfl fun u hu a _ => ?_
  exact (State.clk_of_steady (u.bwReach_steady _)).trans hu

/-- Network time that does not run stands still over edges of tc. -/
theorem State.tcEdges_time (n : Nat) (hrun : s.time.run = false) : s.time.Stands (s.tcEdges n).time := by
  unfold State.tcEdges
  extract_lets incr out adv edge c v
  have hedge (t : NetTime) (ht : s.time.Stands t) : s.time.Stands (edge t) := by
    obtain ⟨hstop, hsec, hns, hfrac⟩ := ht
    have : edge t = { t with ppsLow := t.ppsLow - 1, todWaits := t.todWaits.map (· - 1) } := if_pos (by simp [hstop])
    rw [this]
    exact ⟨hstop, hsec, hns, hfrac⟩
  exact List.foldlRecOn (motive := fun u : State => s.time.Stands u.time) _ _ ⟨hrun, rfl, rfl, rfl⟩
    fun u hu a _ => hedge u.time hu

theorem State.rcEdges_clk (n : Nat) : (s.rcEdges n).clk = { s.clk with rc := s.clk.rc + n } ∧ (s.rcEdges n).time = s.time := by
  unfold State.rcEdges
  extract_lets u
  have hu : u.steady = s.steady := State.steady_foldl (fun v d => by simp [State.steady_ite]) _ s
  have hclk := State.clk_of_steady hu
  have htime := State.time_of_steady hu
  exact ⟨congrArg (fun c : Clocks => { c with rc := c.rc + n }) hclk, htime⟩

theorem State.mcEdge_clk : s.mcEdge.clk = { s.clk with mc := s.clk.mc + 1 } ∧ s.mcEdge.time = s.time := by
  have hdrain (u : State) : ((List.range 12).foldl (fun (s : State) n => if s.awake (coreDie n) then s.drainOne n else s)
      u.edgeEvents.cycEdges.bondPump).steady = u.steady := by
    rw [State.steady_foldl fun u n => by simp [State.steady_ite]]
    simp
  have hclk := State.clk_of_steady (hdrain { s with clk := { s.clk with mc := s.clk.mc + 1 } })
  have htime := State.time_of_steady (hdrain { s with clk := { s.clk with mc := s.clk.mc + 1 } })
  exact ⟨hclk, htime⟩

/-- mc after a nominal period, which THROTTLE leaves it but for `slow` 50,000ths (R686). -/
def Clocks.share (c : Clocks) : Clocks :=
  if c.frac + 50000 - c.slow < 50000 then { c with frac := c.frac + 50000 - c.slow }
  else { c with mc := c.mc + 1, frac := c.frac - c.slow }

section
variable (c : Clocks)

theorem Clocks.share_mc : c.share.mc = if 50000 ≤ c.frac + 50000 - c.slow then c.mc + 1 else c.mc := by
  simp only [Clocks.share, apply_ite Clocks.mc, ← not_lt, ite_not]

theorem Clocks.share_frac : c.share.frac =
    if c.frac + 50000 - c.slow < 50000 then c.frac + 50000 - c.slow else c.frac - c.slow := apply_ite ..

theorem Clocks.share_phase : c.share.phase = c.phase := by simp only [Clocks.share, apply_ite Clocks.phase, ite_self]

theorem Clocks.share_ac : c.share.ac = c.ac := by simp only [Clocks.share, apply_ite Clocks.ac, ite_self]

end

/-- The part of a period that takes mc its share. -/
def State.mcShare (s : State) : State :=
  if s.clk.frac + 50000 - s.clk.slow < 50000 then { s with clk := { s.clk with frac := s.clk.frac + 50000 - s.clk.slow } }
  else { s with clk := { s.clk with frac := s.clk.frac + 50000 - s.clk.slow - 50000 } }.mcEdge

theorem State.mcShare_clk : s.mcShare.clk = s.clk.share ∧ s.mcShare.time = s.time := by
  have hfrac : s.clk.frac + 50000 - s.clk.slow - 50000 = s.clk.frac - s.clk.slow := by omega
  rw [State.mcShare, Clocks.share, hfrac]
  split
  · exact ⟨rfl, rfl⟩
  · exact State.mcEdge_clk { s with clk := { s.clk with frac := s.clk.frac - s.clk.slow } }

/-- The part of a period in which the words of the bursts pass. -/
def State.wordEdges (s : State) : State := (List.range 4).foldl (fun (s : State) c => (s.uwEdges c).cipherWords c) s

theorem State.wordEdges_steady : s.wordEdges.steady = s.steady := State.steady_foldl (fun u c => by simp) _ s

theorem State.domains_eq :
    s.domains = ((s.tcEdges (edgesIn 2 s.clk.phase)).rcEdges (edgesIn 4 s.clk.phase)).wordEdges.mcShare := rfl

/-- A period of the stoppable domains counts in tc, rc and mc, and leaves network time as its edges of tc do. -/
theorem State.domains_clk :
    s.domains.clk = Clocks.share { s.clk with tc := s.clk.tc + edgesIn 2 s.clk.phase, rc := s.clk.rc + edgesIn 4 s.clk.phase } ∧
      s.domains.time = (s.tcEdges (edgesIn 2 s.clk.phase)).time := by
  rw [State.domains_eq]
  obtain ⟨hclk, htime⟩ := (s.tcEdges (edgesIn 2 s.clk.phase)).rcEdges_clk (edgesIn 4 s.clk.phase)
  generalize (s.tcEdges (edgesIn 2 s.clk.phase)).rcEdges (edgesIn 4 s.clk.phase) = u at hclk htime ⊢
  have hwords := u.wordEdges_steady
  obtain ⟨hshare, hkept⟩ := u.wordEdges.mcShare_clk
  rw [hshare, hkept, State.clk_of_steady hwords, State.time_of_steady hwords, hclk, State.tcEdges_clk, htime]
  exact ⟨rfl, rfl⟩

end

/-! ## An edge of ac -/

/-- Two states agree in all but the registers, the headwater, the power manager and the slew of CLK. -/
def OnlyPower (s t : State) : Prop :=
  ∃ r e hw pwr k, t = { s with regs := r, eff := e, hw := hw, pwr := pwr, clk := { s.clk with slow := k } }

theorem OnlyPower.refl (s : State) : OnlyPower s s := ⟨s.regs, s.eff, s.hw, s.pwr, s.clk.slow, rfl⟩

theorem OnlyPower.trans {s t u : State} (h : OnlyPower s t) (k : OnlyPower t u) : OnlyPower s u := by
  obtain ⟨_, _, _, _, _, rfl⟩ := h
  obtain ⟨r, e, hw, pwr, k, rfl⟩ := k
  exact ⟨r, e, hw, pwr, k, rfl⟩

theorem OnlyRegs.onlyPower {s t : State} (h : OnlyRegs s t) : OnlyPower s t := by
  obtain ⟨r, e, rfl⟩ := h
  exact ⟨r, e, s.hw, s.pwr, s.clk.slow, rfl⟩

section
variable (s : State)

theorem State.setHw_onlyPower (f : Hw → Hw) : OnlyPower s (s.setHw f) := ⟨s.regs, s.eff, f s.hw, s.pwr, s.clk.slow, rfl⟩

theorem State.setPwr_onlyPower (f : Power → Power) : OnlyPower s (s.setPwr f) :=
  ⟨s.regs, s.eff, s.hw, f s.pwr, s.clk.slow, rfl⟩

theorem State.railTick_onlyPower : OnlyPower s s.railTick := by
  unfold State.railTick
  split
  · split
    · exact .refl s
    · split <;> exact s.setHw_onlyPower _
  · split
    · exact .refl s
    · split <;> exact s.setHw_onlyPower _

theorem State.idleEdge_onlyPower : OnlyPower s s.idleEdge := by
  unfold State.idleEdge
  exact List.foldlRecOn (motive := OnlyPower s) _ _ (.refl s) fun u hu d _ => hu.trans (u.setPwr_onlyPower _)

theorem State.slew_onlyPower : OnlyPower s s.slew := ⟨s.regs, s.eff, s.hw, s.pwr, _, rfl⟩

theorem State.sscTurn_onlyRegs : OnlyRegs s s.sscTurn := (s.wrEff_onlyRegs ..).trans (State.put_onlyRegs ..)

/-- An edge of ac counts, and is an edge of the headwater and the power manager. -/
theorem State.acEdge_onlyPower : OnlyPower { s with clk := { s.clk with ac := s.clk.ac + 1 } } s.acEdge := by
  unfold State.acEdge
  extract_lets c u k
  have hu : OnlyPower { s with clk := { s.clk with ac := s.clk.ac + 1 } } u :=
    ((State.railTick_onlyPower _).trans (State.idleEdge_onlyPower _)).trans (State.slew_onlyPower _)
  split
  · exact hu
  · split
    · exact hu.trans u.sscTurn_onlyRegs.onlyPower
    · exact hu.trans (u.put_onlyRegs ..).onlyPower

/-! ## The period -/

/-- The part of a period that is an edge of ac, once in 50. -/
def State.acPart (s : State) : State := if s.clk.phase = 49 then s.acEdge else s

/-- An edge of ac counts in ac and in no other clock. -/
theorem State.acPart_clk : s.acPart.clk.phase = s.clk.phase ∧
    s.acPart.clk.ac = (if s.clk.phase = 49 then s.clk.ac + 1 else s.clk.ac) ∧
    s.acPart.clk.mc = s.clk.mc ∧ s.acPart.clk.frac = s.clk.frac := by
  unfold State.acPart
  split
  · obtain ⟨r, e, hw, pwr, k, h⟩ := s.acEdge_onlyPower
    rw [h]
    exact ⟨rfl, rfl, rfl, rfl⟩
  · exact ⟨rfl, rfl, rfl, rfl⟩

/-- An edge of ac leaves network time, the control complex and memory. -/
theorem State.acPart_leaves : s.acPart.time = s.time ∧ s.acPart.ctl = s.ctl ∧ s.acPart.mem = s.mem := by
  unfold State.acPart
  split
  · obtain ⟨r, e, hw, pwr, k, h⟩ := s.acEdge_onlyPower
    rw [h]
    exact ⟨rfl, rfl, rfl⟩
  · exact ⟨rfl, rfl, rfl⟩

theorem State.tick_unpowered (h : s.hw.alive = false) : s.tick = s := if_pos (by simp [h])

/-- The end of a period. -/
def State.nextPhase (s : State) : State := { s with clk := { s.clk with phase := (s.clk.phase + 1) % 50 } }

theorem State.nextPhase_clk : s.nextPhase.clk.phase = (s.clk.phase + 1) % 50 ∧ s.nextPhase.clk.ac = s.clk.ac ∧
    s.nextPhase.clk.mc = s.clk.mc ∧ s.nextPhase.clk.frac = s.clk.frac := ⟨rfl, rfl, rfl, rfl⟩

theorem State.nextPhase_leaves : s.nextPhase.time = s.time ∧ s.nextPhase.ctl = s.ctl ∧ s.nextPhase.mem = s.mem :=
  ⟨rfl, rfl, rfl⟩

theorem State.tick_eq (h : s.hw.alive = true) : s.tick = (if s.running then s.domains else s).acPart.nextPhase :=
  if_neg (by simp [h])

/-- What a nominal mc period of a part with power makes of its clocks, and what it leaves of the rest. -/
theorem State.tick_powered (h : s.hw.alive = true) :
    s.tick.clk.phase = (s.clk.phase + 1) % 50 ∧
    s.tick.clk.ac = (if s.clk.phase = 49 then s.clk.ac + 1 else s.clk.ac) ∧
    s.tick.clk.mc = (if s.running ∧ 50000 ≤ s.clk.frac + 50000 - s.clk.slow then s.clk.mc + 1 else s.clk.mc) ∧
    s.tick.clk.frac = (if s.running then (if s.clk.frac + 50000 - s.clk.slow < 50000 then s.clk.frac + 50000 - s.clk.slow
      else s.clk.frac - s.clk.slow) else s.clk.frac) ∧
    (s.time.run = false → s.tick.time.sec = s.time.sec ∧ s.tick.time.ns = s.time.ns ∧ s.tick.time.frac = s.time.frac) ∧
    (s.running = false → s.tick.time = s.time ∧ s.tick.ctl = s.ctl ∧ s.tick.mem = s.mem) := by
  rw [s.tick_eq h]
  generalize hu : (if s.running then s.domains else s) = u
  obtain ⟨hphase, hac, hmc, hfrac⟩ := u.acPart.nextPhase_clk
  obtain ⟨htime, hctl, hmem⟩ := u.acPart.nextPhase_leaves
  rw [hphase, hac, hmc, hfrac, htime, hctl, hmem]
  obtain ⟨hphase, hac, hmc, hfrac⟩ := u.acPart_clk
  obtain ⟨htime, hctl, hmem⟩ := u.acPart_leaves
  rw [hphase, hac, hmc, hfrac, htime, hctl, hmem]
  by_cases hrun : s.running = true
  · rw [if_pos hrun] at hu
    obtain ⟨hclk, htime⟩ := s.domains_clk
    rw [hu] at hclk htime
    rw [hclk, htime, Clocks.share_phase, Clocks.share_ac, Clocks.share_mc, Clocks.share_frac]
    simp only [hrun, true_and, if_true]
    refine ⟨fun hstop => ?_, nofun⟩
    obtain ⟨-, hsec, hns, hfrac⟩ := s.tcEdges_time (edgesIn 2 s.clk.phase) hstop
    exact ⟨hsec, hns, hfrac⟩
  · rw [if_neg hrun] at hu
    simp [← hu, hrun]

end

/-! ## No command and no step stops -/

theorem step_idle {s : State} (h : s.pending = []) : step s = .next (s.kept s.tick) := by
  unfold step
  rw [h]

theorem step_goes (s : State) : Goes (step s) := by
  unfold step
  split
  · exact ⟨_, rfl⟩
  · next c rest _ =>
    obtain ⟨t, ht, -⟩ := exec_pins c { s with pending := rest }
    exact ⟨t, ht⟩

/-- Settles O55: each command is one event, and an idle step is the passing of one nominal mc period. -/
theorem nothingStops : Obligations.NothingStops := by
  refine ⟨exec_pins, step_goes, fun s hidle hoff => ?_, fun s hidle hpower => ?_⟩
  · rw [step_idle hidle, s.tick_unpowered hoff]
    rfl
  · exact ⟨_, step_idle hidle, hidle, s.tick_powered hpower⟩

end Sys2Proof.Machine
end

section
/-!
Spread and network time: each command completes with its effect (R69 to R93, R758).
-/
namespace Sys2Proof.Machine
open Reg

/-! ## What an event keeps, and what a commit leaves alone -/

@[simp] theorem State.rdEff_kept (s t : State) (h : t.part = s.part) (r a : Nat) : (s.kept t).rdEff r a = t.rdEff r a := by
  rw [State.rdEff, State.rdEff, State.kept_eff, State.kept_part, h]

theorem State.rd_withTime (s : State) (t : NetTime) (r a : Nat) : State.rd { s with time := t } r a = s.rd r a := rfl
theorem State.get_withTime (s : State) (t : NetTime) (f : Fld) (a : Nat) : State.get { s with time := t } f a = s.get f a := rfl
theorem State.is_withTime (s : State) (t : NetTime) (f : Fld) (a : Nat) : State.is { s with time := t } f a = s.is f a := rfl

theorem Footprint.Same.time {F : Footprint} {s t : State} (h : F.Same s t) (hF : .time ∉ F.areas) : t.time = s.time :=
  h.within.areas .time hF

theorem Footprint.Same.rdEff {F : Footprint} {s t : State} (h : F.Same s t) {r a : Nat}
    (hr : ∀ p ∈ F.inEffect, p.covers r a = false) : t.rdEff r a = s.rdEff r a :=
  h.within.inEffect r a hr

/-! ## Spread (R70, R758) -/

theorem sscTurningPoint_turns (s : State) (halive : s.hw.alive = true) (hlock : s.is CLK_STATUS_REF_LOCK d0 = true)
    (hperiod : s.sscP ≤ s.get CLK_SSC_POS_K d0 + 1) :
    Completes .sscTurningPoint s fun t => t.get CLK_SSC_POS_K d0 = 0 ∧ t.rdEff CLK_SSC_CFG d0 = s.rd CLK_SSC_CFG d0 := by
  refine completes_of_acEvent (fun _ => rfl) halive ?_
  rw [if_pos (by simp [hlock, hperiod])]
  simp [State.sscTurn, State.commit]

/-! ## The counter and its clock (R75 to R77) -/

/-- A field of one bit is that bit. -/
theorem bits_beq_one (w : Word) (i : Nat) : (bits w i i == 1) = w.getLsbD i := by
  simp only [bits, BitVec.getLsbD, Nat.testBit_eq_decide_div_mod_eq, Nat.shiftRight_eq_div_pow, Nat.add_sub_cancel_left]
  rfl

/-- A write of CFG takes an EN of either value (R8, R75). -/
theorem State.is_fwWrite_en (s : State) (v : Word) : (s.fwWrite TIME_CFG d0 v).is TIME_CFG_EN d0 = v.getLsbD 31 := by
  have hfields : regFields s.part TIME_CFG d0 v = (regDesc TIME_CFG).fields := by simp [regFields]
  have hen : RegTable.fd 31 31 .rw 0 ∈ regFields s.part TIME_CFG d0 v := by
    rw [hfields]
    decide
  have htook := took_writeWord ((regFields_like s.part TIME_CFG d0 v).apart (regDesc_fields TIME_CFG).1)
    (Config.freeReserved s.fresh) (s.rd TIME_CFG d0) v 0 hen
  have hlegal := bits_lt v 31 31
  have hbit : bits ((s.fwWrite TIME_CFG d0 v).rd TIME_CFG d0) 31 31 = bits v 31 31 := by
    rw [State.fwWrite, State.rd_fwWriteFields]
    simpa [FieldDesc.took, FieldDesc.legal, RegTable.fd, Nat.le_of_lt_succ hlegal] using htook
  rw [State.is, State.get, hbit, bits_beq_one]

/-- A relock starts with LOCKED 0, whatever it finds of HOLDOVER (R76, R77). -/
theorem State.startRelock_evalHoldover (s : State) :
    s.startRelock.evalHoldover.time = { s.time with relocking := true } ∧
      s.startRelock.evalHoldover.is TIME_STATUS_LOCKED d0 = false ∧ s.startRelock.evalHoldover.part = s.part := by
  unfold State.evalHoldover
  dsimp only
  split <;> simp (disch := decide) [State.startRelock, State.is, State.get_put_field]

theorem timeCfgWrite_relocks (s : State) (v : Word) (hrun : s.running = true) :
    Completes (.timeCfgWrite v) s fun t =>
      t.time.run = v.getLsbD 31 ∧ t.time.relocking = true ∧ t.is TIME_STATUS_LOCKED d0 = false := by
  refine completes_of_event (fun _ => rfl) hrun ?_
  have hkept : (s.fwWrite TIME_CFG d0 v).part = s.part := State.fwWriteFields_part ..
  obtain ⟨htime, hlocked, hpart⟩ := State.startRelock_evalHoldover { s.fwWrite TIME_CFG d0 v with
    time := { (s.fwWrite TIME_CFG d0 v).time with run := (s.fwWrite TIME_CFG d0 v).is TIME_CFG_EN d0 } }
  refine ⟨?_, ?_, ?_⟩
  · exact (congrArg NetTime.run htime).trans (s.is_fwWrite_en v)
  · exact congrArg NetTime.relocking htime
  · exact (State.is_kept _ _ (hpart.trans hkept) _ _).trans hlocked

theorem timeRelockDone_locks (s : State) (hrun : s.running = true) (hlocking : s.time.relocking = true)
    (hholdover : s.is TIME_STATUS_HOLDOVER d0 = false) :
    Completes .timeRelockDone s fun t => t.is TIME_STATUS_LOCKED d0 = true ∧ t.time.relocking = false := by
  refine completes_of_event (fun _ => rfl) hrun ?_
  rw [if_pos (by simp [hlocking, hholdover])]
  simp [State.is]

/-! ## Commits (R79 to R82) -/

/-- The shadow copies as a GO takes them (R79). -/
abbrev State.shadowAdj (s : State) (op : Nat) : TimeAdj :=
  ⟨op, s.rd TIME_INCR d0, BitVec.ofNat 48 (s.get TIME_ADJ_SEC_HI_V d0 * 2 ^ 32 + s.get TIME_ADJ_SEC_LO_V d0),
    BitVec.ofNat 30 (s.get TIME_ADJ_NS_V d0)⟩

theorem timeCommit_pends {c : Instr} {op : Nat} (hc : ∀ s, exec c s = s.event (·.timeCommit op)) {s : State}
    (hrun : s.running = true) (hop : s.get TIME_ADJ_CTL_OP d0 = op) :
    Completes c s fun t => t.time.pend = some (s.shadowAdj op) := by
  refine completes_of_event hc hrun ?_
  rw [State.timeCommit, if_pos hop, State.kept_time]

/-- An adjustment has taken effect, and what compares with network time does not know of it yet. -/
abbrev State.adjusted (s : State) (a : TimeAdj) : State :=
  ({ s with time := { s.time with pend := none } }.wrEff TIME_INCR d0 a.incr).applyAdj a

theorem State.applyAdj_same (s : State) (a : TimeAdj) : Footprint.Same ⟨[.time], [], []⟩ s (s.applyAdj a) := by
  rw [Footprint.same_applyAdj (by simp)]
  exact Footprint.Same.refl _ s

theorem State.adjusted_incr (s : State) (a : TimeAdj) :
    (s.adjusted a).part = s.part ∧ (s.adjusted a).rdEff TIME_INCR d0 = a.incr := by
  have hsame := ({ s with time := { s.time with pend := none } }.wrEff TIME_INCR d0 a.incr).applyAdj_same a
  exact ⟨hsame.part, (hsame.rdEff (by simp)).trans (State.rdEff_wrEff_same ..)⟩

/-- A load of less than a second of nanoseconds (R81, R82). -/
theorem State.adjusted_load (s : State) {a : TimeAdj} (hop : a.op = 2) (hns : a.ns.toNat < 1000000000) :
    (s.adjusted a).time.sec = a.sec ∧ (s.adjusted a).time.ns = a.ns ∧ (s.adjusted a).time.frac = 0 := by
  simp [State.applyAdj, hop, Nat.not_le.2 hns]

/-- An offset of less than a second of nanoseconds carries into the seconds at most once (R81, R82). -/
theorem State.adjusted_offset (s : State) {a : TimeAdj} (hop : a.op = 1) (hns : a.ns.toNat < 1000000000)
    (hnow : s.time.ns.toNat < 1000000000) :
    (s.adjusted a).time.ns.toNat = (s.time.ns.toNat + a.ns.toNat) % 1000000000 ∧
      (s.adjusted a).time.sec = s.time.sec + a.sec + BitVec.ofNat 48 ((s.time.ns.toNat + a.ns.toNat) / 1000000000) ∧
      (s.adjusted a).time.frac = s.time.frac := by
  simp only [State.applyAdj, hop, Nat.not_le.2 hns, State.wrEff_time, if_false, if_true, one_ne_zero]
  by_cases hcarry : 1000000000 ≤ s.time.ns.toNat + a.ns.toNat
  · have hdiv : (s.time.ns.toNat + a.ns.toNat) / 1000000000 = 1 := by omega
    rw [if_pos hcarry, if_pos hcarry, hdiv, BitVec.toNat_ofNat]
    exact ⟨by omega, rfl, trivial⟩
  · have hdiv : (s.time.ns.toNat + a.ns.toNat) / 1000000000 = 0 := by omega
    rw [if_neg hcarry, if_neg hcarry, hdiv, BitVec.toNat_ofNat]
    exact ⟨by omega, rfl, trivial⟩

/-- What compares with network time takes a step of it, and leaves it. -/
theorem State.step_same (s : State) : Footprint.Same ⟨[.pon, .pmc], [.all PFR_PM_STAT, .all PMC_BW_STAT],
    [.all PFR_PM_CFG, .all PFR_PM_SES, .all PMC_BW_CFG]⟩ s (chans.foldl (fun (s : State) c =>
      if s.isEff PFR_PM_CFG_TIMEBASE (atChan c) then s else s.pmStep c) s).bwStep := by
  rw [Footprint.same_bwStep (by simp), Footprint.same_foldl fun x c => by simp [↓Footprint.same_ite]]
  exact Footprint.Same.refl _ s

/-- A new INCR alone. -/
theorem timeCommitApply_incr (s : State) (a : TimeAdj) (hrun : s.running = true) (hpend : s.time.pend = some a) (hop : a.op = 0) :
    Completes .timeCommitApply s fun t => t.rdEff TIME_INCR d0 = a.incr ∧ t.time = { s.time with pend := none } := by
  refine completes_of_event (fun _ => rfl) hrun ?_
  simp only [hpend]
  simp [State.applyAdj, hop]

theorem timeCommitApply_steps (s : State) (a : TimeAdj) (hrun : s.running = true) (hpend : s.time.pend = some a)
    (hop : a.op = 1 ∨ a.op = 2) :
    Completes .timeCommitApply s fun t =>
      t.rdEff TIME_INCR d0 = a.incr ∧ t.time = (s.adjusted a).time ∧ t.is TIME_STATUS_STEPPED d0 = true := by
  refine completes_of_event (fun _ => rfl) hrun ?_
  obtain ⟨hpart, hincr⟩ := s.adjusted_incr a
  have hsame := ((s.adjusted a).put TIME_STATUS_STEPPED d0 1).step_same
  have hkept := hsame.part.trans ((State.put_part ..).trans hpart)
  simp only [hpend]
  rw [if_neg (by rcases hop with h | h <;> simp [h])]
  refine ⟨?_, ?_, ?_⟩
  · rw [State.rdEff_kept _ _ hkept, hsame.rdEff (by decide), State.rdEff_put, hincr]
  · rw [State.kept_time, hsame.time (by simp), State.put_time]
  · rw [State.is_kept _ _ hkept, hsame.is (by decide), State.is, State.get_put_same _ _ _ _ (by decide) (by decide)]
    rfl

theorem timeCommitApply_load (s : State) (a : TimeAdj) (hrun : s.running = true) (hpend : s.time.pend = some a) (hop : a.op = 2)
    (hns : a.ns.toNat < 1000000000) :
    Completes .timeCommitApply s fun t => t.rdEff TIME_INCR d0 = a.incr ∧ t.time.sec = a.sec ∧ t.time.ns = a.ns ∧
      t.time.frac = 0 ∧ t.is TIME_STATUS_STEPPED d0 = true := by
  obtain ⟨t, ht, hincr, htime, hstepped⟩ := timeCommitApply_steps s a hrun hpend (.inr hop)
  obtain ⟨hsec, hload, hfrac⟩ := s.adjusted_load hop hns
  rw [← htime] at hsec hload hfrac
  exact ⟨t, ht, hincr, hsec, hload, hfrac, hstepped⟩

theorem timeCommitApply_offset (s : State) (a : TimeAdj) (hrun : s.running = true) (hpend : s.time.pend = some a)
    (hop : a.op = 1) (hns : a.ns.toNat < 1000000000) (hnow : s.time.ns.toNat < 1000000000) :
    Completes .timeCommitApply s fun t =>
      t.time.ns.toNat = (s.time.ns.toNat + a.ns.toNat) % 1000000000 ∧
      t.time.sec = s.time.sec + a.sec + BitVec.ofNat 48 ((s.time.ns.toNat + a.ns.toNat) / 1000000000) ∧
      t.time.frac = s.time.frac ∧ t.is TIME_STATUS_STEPPED d0 = true := by
  obtain ⟨t, ht, -, htime, hstepped⟩ := timeCommitApply_steps s a hrun hpend (.inl hop)
  obtain ⟨hsum, hsec, hfrac⟩ := s.adjusted_offset hop hns hnow
  rw [← htime] at hsum hsec hfrac
  exact ⟨t, ht, hsum, hsec, hfrac, hstepped⟩

/-! ## Snapshots and captures (R84 to R90) -/

theorem timeSnap_goes (s : State) (hrun : s.running = true) :
    Completes .timeSnap s fun t => t.time.snap = .going ∧ t.is TIME_SNAP_VALID d0 = false := by
  refine completes_of_event (fun _ => rfl) hrun ?_
  simp [State.is]

/-- The counter in a group of registers of three words. -/
theorem State.rd_copyTime (s : State) {hi lo ns : Nat} (hhl : hi ≠ lo) (hhn : hi ≠ ns) (hln : lo ≠ ns) :
    (s.copyTime hi lo ns).rd hi d0 = BitVec.ofNat 32 (s.time.sec.toNat / 2 ^ 32) ∧
      (s.copyTime hi lo ns).rd lo d0 = s.time.sec.setWidth 32 ∧ (s.copyTime hi lo ns).rd ns d0 = s.time.ns.setWidth 32 := by
  simp [State.copyTime, hhl, hhn, hln, BitVec.ofNat_toNat]

@[simp] theorem State.copyTime_part (s : State) (hi lo ns : Nat) : (s.copyTime hi lo ns).part = s.part := by
  simp [State.copyTime]

@[simp] theorem State.copyTime_time (s : State) (hi lo ns : Nat) : (s.copyTime hi lo ns).time = s.time := by
  simp [State.copyTime]

/-- A stamp holds the top 16 bits of the fraction whole (R74). -/
theorem NetTime.frac16_lt (t : NetTime) : t.frac16 < 2 ^ 16 := by
  have := t.frac.isLt
  unfold NetTime.frac16
  omega

theorem timeSnapCapture_copies (s : State) (hrun : s.running = true) (hgoing : s.time.snap = .going) :
    Completes .timeSnapCapture s fun t => t.rd TIME_SNAP_SEC_HI d0 = BitVec.ofNat 32 (s.time.sec.toNat / 2 ^ 32) ∧
      t.rd TIME_SNAP_SEC_LO d0 = s.time.sec.setWidth 32 ∧ t.rd TIME_SNAP_NS d0 = s.time.ns.setWidth 32 ∧
      t.get TIME_SNAP_FRAC_V d0 = s.time.frac.toNat / 2 ^ 12 ∧ t.time.snap = .copied := by
  obtain ⟨hhi, hlo, hns⟩ := s.rd_copyTime (show TIME_SNAP_SEC_HI ≠ TIME_SNAP_SEC_LO by decide)
    (show TIME_SNAP_SEC_HI ≠ TIME_SNAP_NS by decide) (by decide)
  refine completes_of_event (fun _ => rfl) hrun ?_
  rw [if_pos hgoing]
  simpa [↓State.rd_kept, ↓State.get_kept, ↓State.rd_withTime, ↓State.get_withTime, hhi, hlo, hns, NetTime.frac16] using
    s.time.frac16_lt

theorem timeSnapValid_shows (s : State) (hrun : s.running = true) (hcopied : s.time.snap = .copied) :
    Completes .timeSnapValid s fun t => t.is TIME_SNAP_VALID d0 = true ∧ t.time.snap = .idle := by
  refine completes_of_event (fun _ => rfl) hrun ?_
  rw [if_pos hcopied]
  simp [State.is]

theorem todCapArm_arms (s : State) (sf : BitVec 30) (hrun : s.running = true) :
    Completes (.todCapArm sf) s fun t =>
      t.is TIME_TOD_CAP_CTL_ARM d0 = true ∧ t.get TIME_TOD_CAP_CTL_SF_LO d0 = sf.toNat := by
  refine completes_of_event (fun _ => rfl) hrun ?_
  rw [State.is_kept _ _ (by simp), State.get_kept _ _ (by simp)]
  simpa (disch := decide) [State.is, State.get_put_field] using sf.isLt

theorem todCapture_captures (s : State) (f : BitVec 51) (hrun : s.running = true) (harm : s.is TIME_TOD_CAP_CTL_ARM d0 = true)
    (hmaster : chanExists s.part (s.get TIME_CFG_MASTER_CHAN d0) = true) (hsfc : s.masterSfc = f)
    (hframe : f.toNat % 2 ^ 30 = s.get TIME_TOD_CAP_CTL_SF_LO d0) :
    Completes (.todCapture f) s fun t => t.rd TIME_TOD_CAP_NS d0 = s.time.ns.setWidth 32 ∧
      t.is TIME_TOD_CAP_STAT_DONE d0 = true ∧ t.is TIME_TOD_CAP_CTL_ARM d0 = false := by
  obtain ⟨-, -, hns⟩ := s.rd_copyTime (show TIME_TOD_CAP_SEC_HI ≠ TIME_TOD_CAP_SEC_LO by decide)
    (show TIME_TOD_CAP_SEC_HI ≠ TIME_TOD_CAP_NS by decide) (by decide)
  refine completes_of_event (fun _ => rfl) hrun ?_
  rw [if_pos (by simp [harm, hmaster, hsfc, ← hframe])]
  simp [hns, State.is]

/-! ## The second pulse (R87 to R90) -/

theorem ppsOutRise_rises (s : State) (hrun : s.running = true) (hdue : s.time.ppsDue = true) (hlow : s.time.ppsOut = false) :
    Completes .ppsOutRise s fun t => t.time.ppsOut = true ∧ t.time.ppsLow = s.get TIME_PPS_CFG_WIDTH_US d0 * 500 ∧
      t.time.todWaits = s.time.todWaits ++ [s.get TIME_TOD_CFG_DELAY_MS d0 * 500000] := by
  refine completes_of_event (fun _ => rfl) hrun ?_
  simp [hdue, hlow]

theorem ppsOutRise_high (s : State) (hrun : s.running = true) (hdue : s.time.ppsDue = true) (hhigh : s.time.ppsOut = true) :
    Completes .ppsOutRise s fun t => t.time = { s.time with ppsDue := false } := by
  refine completes_of_event (fun _ => rfl) hrun ?_
  simp [hdue, hhigh]

theorem ppsOutFall_falls (s : State) (hrun : s.running = true) (hlow : s.time.ppsLow = 0) :
    Completes .ppsOutFall s fun t => t.time.ppsOut = false := by
  refine completes_of_event (fun _ => rfl) hrun ?_
  simp [hlow]

theorem ppsInCapture_captures (s : State) (hrun : s.running = true) (hen : s.is TIME_PPS_CFG_IN_EN d0 = true)
    (hvalid : s.is TIME_PPS_IN_STAT_VALID d0 = false) :
    Completes .ppsInCapture s fun t =>
      t.rd TIME_PPS_IN_NS d0 = s.time.ns.setWidth 32 ∧ t.is TIME_PPS_IN_STAT_VALID d0 = true := by
  obtain ⟨-, -, hns⟩ := s.rd_copyTime (show TIME_PPS_IN_SEC_HI ≠ TIME_PPS_IN_SEC_LO by decide)
    (show TIME_PPS_IN_SEC_HI ≠ TIME_PPS_IN_NS by decide) (by decide)
  refine completes_of_event (fun _ => rfl) hrun ?_
  rw [if_neg (by simp [hen]), if_neg (by simp [hvalid])]
  simp [hns, State.is]

/-- A pulse that finds a capture is counted, up to 0xFF. -/
theorem ppsInCapture_misses (s : State) (hrun : s.running = true) (hen : s.is TIME_PPS_CFG_IN_EN d0 = true)
    (hvalid : s.is TIME_PPS_IN_STAT_VALID d0 = true) :
    Completes .ppsInCapture s fun t =>
      t.get TIME_PPS_IN_STAT_MISSED d0 = Nat.min 0xFF (s.get TIME_PPS_IN_STAT_MISSED d0 + 1) ∧
        t.rd TIME_PPS_IN_NS d0 = s.rd TIME_PPS_IN_NS d0 := by
  have hsat : satAdd 0xFF (s.get TIME_PPS_IN_STAT_MISSED d0) 1 < 256 := Nat.lt_succ_of_le (Nat.min_le_left _ _)
  refine completes_of_event (fun _ => rfl) hrun ?_
  rw [if_neg (by simp [hen]), if_pos hvalid]
  refine ⟨?_, by simp [State.incSat]⟩
  rw [State.incSat, State.get_kept _ _ (by simp), State.get_put_same _ _ _ _ (by decide) (by decide)]
  exact Nat.mod_eq_of_lt hsat

/-! ## Time-of-day messages (R92, R93) -/

theorem State.todBuffer_withTime (s : State) (t : NetTime) : State.todBuffer { s with time := t } = s.todBuffer := rfl

theorem todTxStart_sends (s : State) (hrun : s.running = true) (hdue : 0 ∈ s.time.todWaits)
    (hready : s.is TIME_TOD_TX_READY d0 = true) :
    Completes .todTxStart s fun t =>
      t.time = { s.time with
        todWaits := s.time.todWaits.erase 0
        todOut := s.todBuffer.take (s.get TIME_TOD_TX_LEN d0) } ∧ t.is TIME_TOD_TX_READY d0 = false := by
  refine completes_of_event (fun _ => rfl) hrun ?_
  rw [if_neg (by simp [hdue])]
  simp only [↓State.get_withTime, ↓State.is_withTime, ↓State.todBuffer_withTime, hready, if_true]
  simp [State.is]

theorem todTxStart_skips (s : State) (hrun : s.running = true) (hdue : 0 ∈ s.time.todWaits)
    (hready : s.is TIME_TOD_TX_READY d0 = false) :
    Completes .todTxStart s fun t => t.time = { s.time with todWaits := s.time.todWaits.erase 0 } ∧
      t.get TIME_TOD_STAT_TX_SKIP d0 = (s.get TIME_TOD_STAT_TX_SKIP d0 + 1) % 2 ^ 16 := by
  refine completes_of_event (fun _ => rfl) hrun ?_
  rw [if_neg (by simp [hdue])]
  simp [↓State.get_kept, ↓State.get_withTime, ↓State.is_withTime, hready, State.inc]

theorem todRxByte_stores (s : State) (b : Byte) (i : Bool) (hrun : s.running = true) (hroom : s.time.todFifo.length < 64) :
    Completes (.todRxByte b i) s fun t => t.time.todFifo = s.time.todFifo ++ [b] ∧
      t.get TIME_TOD_RX_TS_NS d0 = if i then s.time.ns.toNat else s.get TIME_TOD_RX_TS_NS d0 := by
  refine completes_of_event (fun _ => rfl) hrun ?_
  cases i with
  | true =>
    simp only [if_true, State.put_time, if_neg (Nat.not_le.2 hroom)]
    simpa [↓State.get_kept, ↓State.get_withTime] using s.time.ns.isLt
  | false => simp [Nat.not_le.2 hroom, ↓State.get_kept, ↓State.get_withTime]

theorem todRxByte_overflows (s : State) (b : Byte) (hrun : s.running = true) (hfull : 64 ≤ s.time.todFifo.length) :
    Completes (.todRxByte b false) s fun t => t.is TIME_TOD_STAT_RX_OVF d0 = true ∧ t.time.todFifo = s.time.todFifo := by
  refine completes_of_event (fun _ => rfl) hrun ?_
  simp [hfull, State.is]

/-- Settles O2: each command by what its event leaves of the counter and the registers, and a step of network time by the counter
after it and the footprint of what follows. -/
theorem networkTimeEventsComplete : Obligations.NetworkTimeEventsComplete := by
  refine ⟨sscTurningPoint_turns, timeCfgWrite_relocks, timeRelockDone_locks, fun s op hrun hop => ?_, timeCommitApply_incr,
    timeCommitApply_load, timeCommitApply_offset, timeSnap_goes, timeSnapCapture_copies, timeSnapValid_shows, todCapArm_arms,
    todCapture_captures, ppsOutRise_rises, ppsOutRise_high, ppsOutFall_falls, ppsInCapture_captures, ppsInCapture_misses,
    todTxStart_sends, todTxStart_skips, todRxByte_stores, todRxByte_overflows⟩
  match op with
  | 0 | 1 | 2 => exact timeCommit_pends (fun _ => rfl) hrun hop

end Sys2Proof.Machine
end

section
/-!
Bits, fields and areas that the commands of lanes and links read back (R9, R60, R125).
-/
namespace Sys2Proof.Machine
open Reg

theorem Footprint.Same.lanes {F : Footprint} {s t : State} (h : F.Same s t) (hF : .lanes ∉ F.areas) : t.lanes = s.lanes :=
  h.within.areas .lanes hF

theorem Footprint.Same.mesh {F : Footprint} {s t : State} (h : F.Same s t) (hF : .mesh ∉ F.areas) : t.mesh = s.mesh :=
  h.within.areas .mesh hF

theorem Footprint.Same.pipe {F : Footprint} {s t : State} (h : F.Same s t) (hF : .pipe ∉ F.areas) : t.pipe = s.pipe :=
  h.within.areas .pipe hF

/-- A place of one register covers no word of another. -/
theorem Place.covers_one_ne {r r' : Nat} (a a' : Nat) (h : r' ≠ r) : (Place.one r a).covers r' a' = false := by
  simp [Place.covers, rkey_ne h]

theorem bitOf_putBit_same (v n : Nat) (b : Bool) : bitOf (putBit v n b) n = b := by
  unfold bitOf putBit
  split
  · simp_all
  · cases b <;> simp_all [Nat.testBit_xor, Nat.testBit_shiftLeft]

/-- A bit of a field reads as what it was put to. -/
theorem State.bitOf_get_putBit (s : State) {f : Fld} {n : Nat} (hl : f.lo ≤ f.hi) (hh : f.hi < 32) (hn : n < f.hi + 1 - f.lo)
    (a v : Nat) (b : Bool) : bitOf ((s.put f a (putBit v n b)).get f a) n = b := by
  have hbit := bitOf_putBit_same v n b
  unfold bitOf at hbit ⊢
  rw [State.get_put_same _ _ _ _ hl hh, Nat.testBit_mod_two_pow, hbit]
  simp [hn]

/-- A field that shares no bit with the one that is put reads as before, at whatever place. -/
theorem State.get_put_apart (s : State) {f g : Fld} (a a' v : Nat) (hl : f.lo ≤ f.hi) (hh : f.hi < 32)
    (hd : g.hi < f.lo ∨ f.hi < g.lo) : (s.put f a v).get g a' = s.get g a' := by
  by_cases hr : g.reg = f.reg
  · by_cases hp : a' % 2 ^ 28 = a % 2 ^ 28
    · have hplace (u : State) : u.get g a' = u.get g a := by simp only [State.get, State.rd, rkey, hp]
      rw [hplace, hplace, s.get_put_field a v hr hl hh hd]
    · exact s.get_put_at v hp
  · exact s.get_put_ne a a' v hr

end Sys2Proof.Machine
end

section
/-!
Equalisers and receivers: each command completes with its effect (R60, R76, R120 to R128).
-/
namespace Sys2Proof.Machine
open Reg

/-! ## Transmit equalisers (R121, R122) -/

theorem txEqWrite_rejects (s : State) (l : TxLane) (v : Word) (hrun : s.running = true) (hl : eqExists s.part l = true)
    (hv : eqLegal v = false) :
    Completes (.txEqWrite l v) s fun t => (t.rd (eqPlace l).1 (eqPlace l).2).getLsbD 31 = true ∧
      ∀ i < 31, (t.rd (eqPlace l).1 (eqPlace l).2).getLsbD i = (s.rd (eqPlace l).1 (eqPlace l).2).getLsbD i := by
  refine completes_of_event (fun _ => rfl) hrun ?_
  simp only [hl, hv, Bool.not_true, Bool.false_eq_true, if_false]
  rw [State.rd_kept _ _ (State.wr_part ..), State.rd_wr_same]
  refine ⟨by rw [setBits_getLsbD _ _ _ _ _ (by decide) (by decide)]; rfl, fun i hi => ?_⟩
  rw [setBits_getLsbD _ _ _ _ _ (by decide) (by decide), if_neg (by omega)]

theorem txEqWrite_applies (s : State) (l : TxLane) (v : Word) (hrun : s.running = true) (hl : eqExists s.part l = true)
    (hv : eqLegal v = true) :
    Completes (.txEqWrite l v) s fun t =>
      bits (t.rd (eqPlace l).1 (eqPlace l).2) 29 24 = bits v 29 24 ∧
      bits (t.rd (eqPlace l).1 (eqPlace l).2) 20 16 = bits v 20 16 ∧
      bits (t.rd (eqPlace l).1 (eqPlace l).2) 11 8 = bits v 11 8 ∧
      (t.rd (eqPlace l).1 (eqPlace l).2).getLsbD 31 = false := by
  refine completes_of_event (fun _ => rfl) hrun ?_
  simp only [hl, hv, Bool.not_true, Bool.false_eq_true, if_false, if_true]
  rw [State.rd_kept _ _ (State.wr_part ..), State.rd_wr_same]
  refine ⟨?_, ?_, ?_, by rw [setBits_getLsbD _ _ _ _ _ (by decide) (by decide)]; rfl⟩
  all_goals simp (disch := decide) only [bits_setBits_other, bits_setBits_bits]

/-! ## Receivers (R60, R76, R125) -/

@[simp] theorem State.get_evalHoldover (s : State) {f : Fld} (a : Nat) (h : f.reg ≠ TIME_STATUS) :
    s.evalHoldover.get f a = s.get f a := by
  have hsame : Footprint.Same ⟨[], [.one TIME_STATUS d0], []⟩ s s.evalHoldover := by simp
  exact hsame.get (by simp [Place.covers_one_ne _ _ h])

@[simp] theorem State.get_startRelock (s : State) {f : Fld} (a : Nat) (h : f.reg ≠ TIME_STATUS) :
    s.startRelock.get f a = s.get f a := by
  have hsame : Footprint.Same ⟨[.time], [.one TIME_STATUS d0], []⟩ s s.startRelock := by simp
  exact hsame.get (by simp [Place.covers_one_ne _ _ h])

@[simp] theorem State.cdrLoss_part (s : State) (c : Nat) : (s.cdrLoss c).part = s.part := by
  simp [State.cdrLoss, State.evalHoldover, apply_ite State.part]

@[simp] theorem State.cdrGain_part (s : State) (c : Nat) : (s.cdrGain c).part = s.part := by
  simp [State.cdrGain, State.evalHoldover, State.startRelock, apply_ite State.part]

/-- The lw of a channel has or has not lock to downstream data, and follows the PON reference while it has not (R60). -/
abbrev State.showLock (s : State) (c : Nat) (lock : Bool) : State :=
  let u := s.put CLK_STATUS_LW_LOCKED d0 (putBit (s.get CLK_STATUS_LW_LOCKED d0) c lock)
  (u.put CLK_STATUS_LW_ON_REF d0 (putBit (u.get CLK_STATUS_LW_ON_REF d0) c (!lock))).put LANE_PRX_STAT_CDR_LOCK (atChan c)
    (b2n lock)

theorem State.showLock_shows (s : State) (c : Chan) (lock : Bool) :
    (s.showLock c.val lock).is LANE_PRX_STAT_CDR_LOCK (atChan c.val) = lock ∧
      bitOf ((s.showLock c.val lock).get CLK_STATUS_LW_LOCKED d0) c.val = lock ∧
      bitOf ((s.showLock c.val lock).get CLK_STATUS_LW_ON_REF d0) c.val = !lock := by
  refine ⟨?_, ?_, ?_⟩
  · rw [State.is, State.get_put_same _ _ _ _ (by decide) (by decide)]
    simp
  · rw [State.get_put_ne _ _ _ _ (by decide), State.get_put_apart _ _ _ _ (by decide) (by decide) (by decide)]
    exact State.bitOf_get_putBit _ (by decide) (by decide) c.isLt d0 _ lock
  · rw [State.get_put_ne _ _ _ _ (by decide)]
    exact State.bitOf_get_putBit _ (by decide) (by decide) c.isLt d0 _ _

theorem State.cdrLoss_eq (s : State) (c : Nat) : s.cdrLoss c = (s.showLock c false).evalHoldover := rfl

/-- A lock gained shows; the relock that it may start is one of tc. -/
theorem State.get_cdrGain (s : State) (c : Nat) {f : Fld} (a : Nat) (h : f.reg ≠ TIME_STATUS) :
    (s.cdrGain c).get f a = (s.showLock c true).get f a := by
  unfold State.cdrGain
  dsimp only
  rw [State.get_evalHoldover _ _ h]
  split
  · exact State.get_startRelock _ _ h
  · rfl

theorem cdrLockChange_locks (s : State) (c : Chan) (hrun : s.running = true) (hpower : s.rxPowered c.val = true)
    (hsd : s.is LANE_PRX_STAT_SD (atChan c.val) = true) :
    Completes (.cdrLockChange c true) s fun t => t.is LANE_PRX_STAT_CDR_LOCK (atChan c.val) = true ∧
      bitOf (t.get CLK_STATUS_LW_LOCKED d0) c.val = true ∧ bitOf (t.get CLK_STATUS_LW_ON_REF d0) c.val = false := by
  have hexists : chanExists s.part c.val = true := by
    simp only [State.rxPowered, Bool.and_eq_true] at hpower
    exact hpower.1.1
  refine completes_of_event (fun _ => rfl) hrun ?_
  simp only [hexists, hpower, hsd, Bool.not_true, Bool.false_eq_true, if_false, if_true, Bool.and_self]
  rw [State.is, State.get_kept _ _ (by simp), State.get_kept _ _ (by simp), State.get_kept _ _ (by simp),
    State.get_cdrGain _ _ _ (by decide), State.get_cdrGain _ _ _ (by decide), State.get_cdrGain _ _ _ (by decide)]
  exact s.showLock_shows c true

theorem cdrLockChange_loses (s : State) (c : Chan) (hrun : s.running = true) (hc : chanExists s.part c.val = true) :
    Completes (.cdrLockChange c false) s fun t => t.is LANE_PRX_STAT_CDR_LOCK (atChan c.val) = false ∧
      bitOf (t.get CLK_STATUS_LW_LOCKED d0) c.val = false ∧ bitOf (t.get CLK_STATUS_LW_ON_REF d0) c.val = true := by
  refine completes_of_event (fun _ => rfl) hrun ?_
  simp only [hc, Bool.not_true, Bool.false_eq_true, if_false]
  rw [State.is, State.get_kept _ _ (by simp), State.get_kept _ _ (by simp), State.get_kept _ _ (by simp), State.cdrLoss_eq,
    State.get_evalHoldover _ _ (by decide), State.get_evalHoldover _ _ (by decide), State.get_evalHoldover _ _ (by decide)]
  exact s.showLock_shows c false

/-! ## Signal detect (R125) -/

theorem State.adapt_same (s : State) (c : Nat) : (Footprint.coefficients c).Same s (s.adapt c) := by
  simp

/-- A loss of lock leaves SD and SD_LOST. -/
theorem State.is_cdrLoss_sd (s : State) (c a : Nat) {f : Fld} (hf : f = LANE_PRX_STAT_SD ∨ f = LANE_PRX_STAT_SD_LOST) :
    (s.cdrLoss c).is f a = s.is f a := by
  rcases hf with rfl | rfl
  all_goals
    rw [State.is, State.is, State.cdrLoss_eq, State.get_evalHoldover _ _ (by decide),
      State.get_put_apart _ _ _ _ (by decide) (by decide) (by decide),
      State.get_put_ne _ _ _ _ (by decide), State.get_put_ne _ _ _ _ (by decide)]

@[simp] theorem State.setSd_part (s : State) (c : Nat) (sd : Bool) : (s.setSd c sd).part = s.part := by
  have hadapt := (s.adapt_same c).part
  cases sd <;> simp [State.setSd, apply_ite State.part, hadapt]

theorem State.setSd_rise (s : State) (c : Nat) : (s.setSd c true).is LANE_PRX_STAT_SD (atChan c) = true := by
  simp [State.setSd, State.is]

theorem State.setSd_fall (s : State) (c : Nat) : (s.setSd c false).is LANE_PRX_STAT_SD (atChan c) = false ∧
    (s.is LANE_PRX_STAT_SD (atChan c) = true → (s.setSd c false).is LANE_PRX_STAT_SD_LOST (atChan c) = true) := by
  have hadapt : (s.adapt c).is LANE_PRX_STAT_SD (atChan c) = s.is LANE_PRX_STAT_SD (atChan c) := (s.adapt_same c).is (by simp)
  unfold State.setSd
  simp only [Bool.false_eq_true, if_false, Bool.not_false, Bool.and_true, hadapt]
  rw [State.is_cdrLoss_sd _ _ _ (.inl rfl), State.is_cdrLoss_sd _ _ _ (.inr rfl)]
  refine ⟨?_, fun hsd => by rw [if_pos hsd]; simp [State.is]⟩
  split
  · simp (disch := decide) [State.is, State.get_put_apart, b2n]
  · simp [State.is, b2n]

theorem signalDetectChange_follows (s : State) (c : Chan) (h : Bool) (hrun : s.running = true)
    (hc : chanExists s.part c.val = true) :
    Completes (.signalDetectChange c h) s fun t =>
      t.is LANE_PRX_STAT_SD (atChan c.val) = (h != s.is LANE_PRX_CFG_SD_POL (atChan c.val)) ∧
      (s.is LANE_PRX_STAT_SD (atChan c.val) = true → (h == s.is LANE_PRX_CFG_SD_POL (atChan c.val)) = true →
        t.is LANE_PRX_STAT_SD_LOST (atChan c.val) = true) := by
  refine completes_of_event (fun _ => rfl) hrun ?_
  simp only [hc, Bool.not_true, Bool.false_eq_true, if_false]
  rw [State.is_kept _ _ (by simp), State.is_kept _ _ (by simp)]
  cases hsd : h != s.is LANE_PRX_CFG_SD_POL (atChan c.val) with
  | true => exact ⟨s.setSd_rise c.val, fun _ heq => absurd (beq_iff_eq.1 heq) (bne_iff_ne.1 hsd)⟩
  | false => exact ⟨(s.setSd_fall c.val).1, fun hup _ => (s.setSd_fall c.val).2 hup⟩

/-! ## Receive equalisers (R126, R128) -/

theorem prxEqCommit_loads (s : State) (c : Chan) (hrun : s.running = true) :
    Completes (.prxEqCommit c) s fun t => t.rdEff LANE_PRX_FFE0 (atChan c.val) = s.rd LANE_PRX_FFE0 (atChan c.val) ∧
      t.rdEff LANE_PRX_FFE1 (atChan c.val) = s.rd LANE_PRX_FFE1 (atChan c.val) ∧
      t.rdEff LANE_PRX_DFE (atChan c.val) = s.rd LANE_PRX_DFE (atChan c.val) := by
  have hmoved (u : State) : (Footprint.mk [.lanes] [] []).Same u (u.coefMoved c.val) := by simp
  refine completes_of_event (fun _ => rfl) hrun ?_
  have hpart := (hmoved (s.commitAll [(LANE_PRX_FFE0, atChan c.val), (LANE_PRX_FFE1, atChan c.val),
    (LANE_PRX_DFE, atChan c.val)])).part
  have hcommit : (s.commitAll [(LANE_PRX_FFE0, atChan c.val), (LANE_PRX_FFE1, atChan c.val),
    (LANE_PRX_DFE, atChan c.val)]).part = s.part := by simp [State.commitAll, State.commit]
  simp only [State.rdEff_kept _ _ (hpart.trans hcommit), (hmoved _).rdEff (List.forall_mem_nil _)]
  simp [State.commitAll, State.commit]

end Sys2Proof.Machine
end
section
/-!
Mortar links: each command completes with its effect (R110, R116 to R119, R135 to R149, R765).
-/
namespace Sys2Proof.Machine
open Reg

/-! ## Lanes (R135, R136, R139, R140) -/

theorem State.laneLocked_congr {s t : State} (h : t.lanes = s.lanes) (l : Nat) (back : Bool) (k : Nat) :
    t.laneLocked l back k = s.laneLocked l back k := by
  rw [State.laneLocked, State.laneLocked, h]

@[simp] theorem State.laneLocked_setLane (s : State) (l : Nat) (back : Bool) (k : Nat) (b : Bool) :
    (s.setLane l back k b).laneLocked l back k = b :=
  Tab.get_set_same _ _ _ _

theorem laneLock_locks (s : State) (l : Fin 25) (b : Bool) (k : Fin 16) (h : Nat) (m : Bool) (halive : s.hw.alive = true)
    (hgood : if s.part = .zg6480 then m = true else 64 ≤ h) (hl : linkPresent s.part l.val = true)
    (hsends : s.linkSends l.val = true) (hk : k.val < linkWidth l.val) (hphase : s.frz.phase ≠ .stopped) :
    Completes (.laneLock l b k h m) s fun t => t.laneLocked l.val b k.val = true := by
  have hcrit : (if s.part = .zg6480 then m else decide (64 ≤ h)) = true := by split at hgood <;> simp_all
  refine completes_of_acEvent (fun _ => rfl) halive ?_
  simp only [hcrit]
  rw [if_pos (by simp [hl, hsends, hk, hphase]), State.laneLocked_congr (State.kept_lanes ..)]
  exact State.laneLocked_setLane ..

theorem laneLockLoss_unlocks (s : State) (l : Fin 25) (b : Bool) (k : Fin 16) (i m e : Nat) (hrun : s.running = true)
    (hbad : if s.part = .zg6480 then 2 ≤ m ∨ 16 ≤ e else 16 ≤ i) (hfrozen : s.is FRZ_STATUS_FROZEN d0 = false) :
    Completes (.laneLockLoss l b k i m e) s fun t => t.laneLocked l.val b k.val = false := by
  have hcrit : (if s.part = .zg6480 then decide (2 ≤ m) || decide (16 ≤ e) else decide (16 ≤ i)) = true := by
    split at hbad <;> simp_all
  refine completes_of_event (fun _ => rfl) hrun ?_
  simp only [hcrit]
  rw [if_pos (by simp [hfrozen]), State.laneLocked_congr (State.kept_lanes ..)]
  exact State.laneLocked_setLane ..

/-- A lane that has no lock gets none as lanes lose theirs. -/
theorem State.laneLocked_setLane_false {s : State} {l k : Nat} {back : Bool} (h : s.laneLocked l back k = false) (l' k' : Nat)
    (back' : Bool) : (s.setLane l' back' k' false).laneLocked l back k = false := by
  unfold State.laneLocked State.setLane at *
  by_cases hkey : laneKey l back k = laneKey l' back' k'
  · rw [hkey, Tab.get_set_same]
  · rwa [Tab.get_set_ne _ _ _ _ hkey]

/-- Lane k of a link loses lock in both directions. -/
abbrev State.dropLane (l : Nat) (s : State) (k : Nat) : State := (s.setLane l false k false).setLane l true k false

theorem State.dropLane_unlocks (s : State) (l k : Nat) (back : Bool) : (s.dropLane l k).laneLocked l back k = false := by
  cases back with
  | false => exact State.laneLocked_setLane_false (State.laneLocked_setLane ..) _ _ _
  | true => exact State.laneLocked_setLane ..

theorem State.foldl_dropLane_unlocks (s : State) (l : Nat) (back : Bool) {ks : List Nat} {k : Nat} (hk : k ∈ ks) :
    (ks.foldl (State.dropLane l) s).laneLocked l back k = false := by
  induction ks generalizing s with
  | nil => simp at hk
  | cons j ks ih =>
    rcases List.mem_cons.1 hk with rfl | htail
    · exact List.foldlRecOn (motive := fun u : State => u.laneLocked l back k = false) ks _ (s.dropLane_unlocks l k back)
        fun u hu j _ => State.laneLocked_setLane_false (State.laneLocked_setLane_false hu l j false) l j true
    · exact ih _ htail

/-- No lane of a link that has lost lock is locked (R144). -/
theorem State.dropLanes_unlocks (s : State) {l k : Nat} (hk : k < linkWidth l) (back : Bool) :
    (s.dropLanes l).laneLocked l back k = false :=
  s.foldl_dropLane_unlocks l back (List.mem_range.2 hk)

/-! ## The two ends of a link (Table 3.2) -/

/-- The registers of a link at its two ends stand at two places. -/
theorem linkEnds_apart : ∀ l : Fin 25, place (linkLow l.val) l.val % 2 ^ 28 ≠ place (linkHigh l.val) l.val % 2 ^ 28 := by
  decide

/-- A field that is put at both ends of a link reads so at either. -/
theorem State.get_putLink (s : State) {f : Fld} (hl : f.lo ≤ f.hi) (hh : f.hi < 32) (l : Fin 25) (v : Nat) {d : Nat}
    (hd : d ∈ [linkLow l.val, linkHigh l.val]) :
    (s.putLink f l.val v).get f (place d l.val) = v % 2 ^ (f.hi + 1 - f.lo) := by
  simp only [List.mem_cons, List.not_mem_nil, or_false] at hd
  rcases hd with rfl | rfl
  · rw [State.putLink, State.get_put_at _ _ (linkEnds_apart l), State.get_put_same _ _ _ _ hl hh]
  · rw [State.putLink, State.get_put_same _ _ _ _ hl hh]

theorem State.get_putLink_apart (s : State) {f g : Fld} (hl : f.lo ≤ f.hi) (hh : f.hi < 32) (hd : g.hi < f.lo ∨ f.hi < g.lo)
    (l v a : Nat) : (s.putLink f l v).get g a = s.get g a := by
  rw [State.putLink, State.get_put_apart _ _ _ _ hl hh hd, State.get_put_apart _ _ _ _ hl hh hd]

@[simp] theorem State.putLink_part (s : State) (f : Fld) (l v : Nat) : (s.putLink f l v).part = s.part := by
  simp [State.putLink]

/-! ## Lock of a link (R118, R119, R137, R141 to R143, R148, R149) -/

/-- A link has lock, and the slack of its latency shows (R142, R143). -/
abbrev State.showLinked (s : State) (l k : Nat) : State :=
  ((s.putLink DLINK_STATUS_LOCKED l 1).putLink DLINK_STATUS_LAT_FAIL l 0).putLink DLINK_STATUS_SLACK l k

theorem State.showLinked_shows (s : State) (l : Fin 25) (k : Fin 16) {d : Nat} (hd : d ∈ [linkLow l.val, linkHigh l.val]) :
    (s.showLinked l.val k.val).is DLINK_STATUS_LOCKED (place d l.val) = true ∧
      (s.showLinked l.val k.val).get DLINK_STATUS_SLACK (place d l.val) = k.val ∧
      (s.showLinked l.val k.val).is DLINK_STATUS_LAT_FAIL (place d l.val) = false := by
  refine ⟨?_, ?_, ?_⟩
  · rw [State.is, State.get_putLink_apart _ (by decide) (by decide) (by decide),
      State.get_putLink_apart _ (by decide) (by decide) (by decide), State.get_putLink _ (by decide) (by decide) _ _ hd]
    rfl
  · rw [State.get_putLink _ (by decide) (by decide) _ _ hd]
    exact Nat.mod_eq_of_lt k.isLt
  · rw [State.is, State.get_putLink_apart _ (by decide) (by decide) (by decide),
      State.get_putLink _ (by decide) (by decide) _ _ hd]
    rfl

/-- A link has lock with its delay fixed, and is down no longer (R142, R144). -/
def State.linked (s : State) (l delay k : Nat) : State :=
  { s.showLinked l k with lanes := { (s.showLinked l k).lanes with
      fixedDelay := Tab.set (s.showLinked l k).lanes.fixedDelay 0 l delay
      down := Tab.set (s.showLinked l k).lanes.down false l false } }

theorem State.linked_same (s : State) (l delay k : Nat) :
    Footprint.Same ⟨[.lanes], [], []⟩ (s.showLinked l k) (s.linked l delay k) := by
  rw [State.linked, Footprint.same_lanes (by simp)]
  exact Footprint.Same.refl _ _

theorem State.linked_fixedDelay (s : State) (l delay k : Nat) : Tab.get (s.linked l delay k).lanes.fixedDelay 0 l = delay :=
  Tab.get_set_same _ _ _ _

/-- What the end of latency fixing leaves (R118, R119, R142, R143): with no slack the link fails, with some it has lock. -/
def State.latencyFixed (s : State) (l delay : Nat) : Option (Fin 16) → State
  | none => s.putLink DLINK_STATUS_LAT_FAIL l 1
  | some k => ((s.linked l delay k.val).evalUp (linkLow l)).evalUp (linkHigh l)

theorem State.latencyFixed_same (s : State) (l delay : Nat) (k : Fin 16) :
    Footprint.Same ⟨[], [.one HW_DIE_MAP d0], []⟩ (s.linked l delay k.val) (s.latencyFixed l delay (some k)) := by
  simp [State.latencyFixed]

section
variable (s : State) (l : Fin 25) (x : Deskew) (halive : s.hw.alive = true) (hrails : s.hw.railsUp = true)
  (hdeskew : deskews s.part l.val x = true) (hthaw : s.is FRZ_STATUS_FROZEN d0 = false ∨ s.frz.phase = .thawing)
  (hl : linkPresent s.part l.val = true) (hlanes : s.allLanes l.val = true)
  (hrepeat : s.mustRepeat l.val = true → Tab.get s.lanes.fixedDelay 0 l.val = x.delay)
include halive hrails hdeskew hthaw hl hlanes hrepeat

theorem exec_dlinkLocked (slack : Option (Fin 16)) :
    exec (.dlinkLocked l x slack) s = .next (s.kept (s.latencyFixed l.val x.delay slack)) := by
  change execDlinkLocked l x slack s = _
  unfold execDlinkLocked
  rw [State.acEvent_alive _ _ halive, if_neg (by rcases hthaw with h | h <;> simp [hl, hlanes, hrails, hdeskew, h]),
    if_neg (by simpa using hrepeat)]
  cases slack <;> rfl

theorem dlinkLocked_locks (k : Fin 16) :
    Completes (.dlinkLocked l x (some k)) s fun t => t.linkUp l.val = true ∧
      (∀ d ∈ [linkLow l.val, linkHigh l.val], t.get DLINK_STATUS_SLACK (place d l.val) = k.val ∧
        t.is DLINK_STATUS_LAT_FAIL (place d l.val) = false) ∧ Tab.get t.lanes.fixedDelay 0 l.val = x.delay := by
  have hlinked := s.linked_same l.val x.delay k.val
  have hups := s.latencyFixed_same l.val x.delay k
  have hpart := hups.part.trans (hlinked.part.trans (by simp : (s.showLinked l.val k.val).part = s.part))
  have hget {f : Fld} (a : Nat) (hf : f.reg = DLINK_STATUS) :
      (s.kept (s.latencyFixed l.val x.delay (some k))).get f a = (s.showLinked l.val k.val).get f a := by
    rw [State.get_kept _ _ hpart, hups.get (by simp [Place.covers_one_ne, hf]), hlinked.get (by simp)]
  have hshows {d : Nat} (hd : d ∈ [linkLow l.val, linkHigh l.val]) := s.showLinked_shows l k hd
  refine ⟨_, exec_dlinkLocked s l x halive hrails hdeskew hthaw hl hlanes hrepeat (some k), ?_, fun d hd => ?_, ?_⟩
  · obtain ⟨hlow, -⟩ := hshows (d := linkLow l.val) (by simp)
    obtain ⟨hhigh, -⟩ := hshows (d := linkHigh l.val) (by simp)
    rw [State.linkUp, State.is, State.is, hget _ rfl, hget _ rfl, ← State.is, ← State.is, hlow, hhigh]
    rfl
  · obtain ⟨-, hslack, hlat⟩ := hshows hd
    rw [State.is, hget _ rfl, hget _ rfl, ← State.is]
    exact ⟨hslack, hlat⟩
  · rw [State.kept_lanes, hups.lanes (by simp)]
    exact s.linked_fixedDelay l.val x.delay k.val

theorem dlinkLocked_fails :
    Completes (.dlinkLocked l x none) s fun t =>
      (∀ d ∈ [linkLow l.val, linkHigh l.val], t.is DLINK_STATUS_LAT_FAIL (place d l.val) = true) ∧
        t.linkUp l.val = s.linkUp l.val := by
  have hpart : (s.latencyFixed l.val x.delay none).part = s.part := State.putLink_part ..
  have hlocked (a : Nat) : (s.kept (s.latencyFixed l.val x.delay none)).is DLINK_STATUS_LOCKED a = s.is DLINK_STATUS_LOCKED a := by
    rw [State.is_kept _ _ hpart, State.is, State.latencyFixed, State.get_putLink_apart _ (by decide) (by decide) (by decide),
      ← State.is]
  refine ⟨_, exec_dlinkLocked s l x halive hrails hdeskew hthaw hl hlanes hrepeat none, fun d hd => ?_, ?_⟩
  · rw [State.is_kept _ _ hpart, State.is, State.latencyFixed, State.get_putLink _ (by decide) (by decide) _ _ hd]
    rfl
  · rw [State.linkUp, hlocked, hlocked, ← State.linkUp]

end

/-! ## Loss of a link (R36, R144, R146, R147) -/

/-- A link reads not locked at both ends, and each has counted the loss (R144). -/
abbrev State.showDown (s : State) (l : Nat) : State :=
  ((s.putLink DLINK_STATUS_LOCKED l 0).incSat DLINK_STATUS_DOWN_CNT (place (linkLow l) l) 1 0xFF).incSat DLINK_STATUS_DOWN_CNT
    (place (linkHigh l) l) 1 0xFF

theorem State.get_incSat_same (s : State) {f : Fld} (hf : f.lo ≤ f.hi ∧ f.hi < 32) {lim : Nat} (hlim : lim < 2 ^ (f.hi + 1 - f.lo))
    (a n : Nat) : (s.incSat f a n lim).get f a = Nat.min lim (s.get f a + n) := by
  rw [State.incSat, State.get_put_same _ _ _ _ hf.1 hf.2]
  exact Nat.mod_eq_of_lt ((Nat.min_le_left _ _).trans_lt hlim)

theorem State.get_incSat_at (s : State) {f g : Fld} {a a' : Nat} (n lim : Nat) (h : a' % 2 ^ 28 ≠ a % 2 ^ 28) :
    (s.incSat f a n lim).get g a' = s.get g a' :=
  s.get_put_at _ h

theorem State.get_incSat_apart (s : State) {f g : Fld} (hf : f.lo ≤ f.hi ∧ f.hi < 32) (hd : g.hi < f.lo ∨ f.hi < g.lo)
    (a a' n lim : Nat) : (s.incSat f a n lim).get g a' = s.get g a' :=
  s.get_put_apart _ _ _ hf.1 hf.2 hd

theorem State.showDown_shows (s : State) (l : Fin 25) {d : Nat} (hd : d ∈ [linkLow l.val, linkHigh l.val]) :
    (s.showDown l.val).is DLINK_STATUS_LOCKED (place d l.val) = false ∧
      (s.showDown l.val).get DLINK_STATUS_DOWN_CNT (place d l.val) =
        Nat.min 0xFF (s.get DLINK_STATUS_DOWN_CNT (place d l.val) + 1) := by
  have hput (a : Nat) : (s.putLink DLINK_STATUS_LOCKED l.val 0).get DLINK_STATUS_DOWN_CNT a = s.get DLINK_STATUS_DOWN_CNT a :=
    State.get_putLink_apart _ (by decide) (by decide) (by decide) _ _ _
  refine ⟨?_, ?_⟩
  · rw [State.is, State.get_incSat_apart _ (by decide) (by decide), State.get_incSat_apart _ (by decide) (by decide),
      State.get_putLink _ (by decide) (by decide) _ _ hd]
    rfl
  · simp only [List.mem_cons, List.not_mem_nil, or_false] at hd
    rcases hd with rfl | rfl
    · rw [State.get_incSat_at _ _ _ (linkEnds_apart l), State.get_incSat_same _ (by decide) (by decide), hput]
    · rw [State.get_incSat_same _ (by decide) (by decide),
        State.get_incSat_at _ _ _ (linkEnds_apart l).symm, hput]

/-- The posted writes that were lost are counted at the end that had sent them (R146). -/
abbrev State.dropPosted (s : State) (l p q : Nat) : State := (s.linkDrop (linkLow l) l p).linkDrop (linkHigh l) l q

theorem State.dropPosted_counts (s : State) (l : Fin 25) (p q : Nat) :
    (s.dropPosted l.val p q).get DLINK_DROP_V (place (linkLow l.val) l.val) =
        (s.get DLINK_DROP_V (place (linkLow l.val) l.val) + p) % 2 ^ 32 ∧
      (s.dropPosted l.val p q).get DLINK_DROP_V (place (linkHigh l.val) l.val) =
        (s.get DLINK_DROP_V (place (linkHigh l.val) l.val) + q) % 2 ^ 32 := by
  unfold State.dropPosted State.linkDrop State.inc
  refine ⟨?_, ?_⟩
  · rw [State.get_put_at _ _ (linkEnds_apart l)]
    exact State.get_put_same _ _ _ _ (by decide) (by decide)
  · rw [State.get_put_same _ _ _ _ (by decide) (by decide), State.get_put_at _ _ (linkEnds_apart l).symm]
    rfl

/-- With no command in flight a loss of lock discards none. -/
theorem State.get_dropFlight_empty (s : State) (l : Nat) (h : s.pipe.flight = []) (f : Fld) (a : Nat) :
    (s.dropFlight l).get f a = s.get f a := by
  simp only [State.dropFlight, h, List.filter_nil, List.foldl_nil]
  rfl

/-- The answers that lost requests get while they wait. -/
abbrev State.unanswer (s : State) (x : List (Requester × Addr × Bool)) : State :=
  x.foldl (fun (s : State) y => s.answer (reqCode y.1) {}) s

theorem State.unanswer_same (s : State) (x : List (Requester × Addr × Bool)) :
    Footprint.Same ⟨[.mesh], [], []⟩ s (s.unanswer x) := by
  rw [Footprint.same_foldl fun u y => by simp]
  exact Footprint.Same.refl _ s

theorem State.unanswer_lost (s : State) (x : List (Requester × Addr × Bool)) : (s.unanswer x).mesh.lost = s.mesh.lost :=
  List.foldlRecOn (motive := fun u : State => u.mesh.lost = s.mesh.lost) x _ rfl fun _ hu _ _ => hu

/-- What a loss of lock discards: the posted writes and commands on the link, and the answers of the requests (R36, R146, R147). -/
abbrev State.discard (s : State) (l : Nat) (x : List (Requester × Addr × Bool)) (p q : Nat) : State :=
  (((s.dropPosted l p q).dropLanes l).dropFlight l).unanswer x

section
variable (s : State) (l : Fin 25) (x : List (Requester × Addr × Bool)) (p q : Nat)

theorem State.dropPosted_same : Footprint.Same ⟨[], [.all DLINK_DROP], []⟩ s (s.dropPosted l.val p q) := by
  simp

theorem State.dropFlight_same (l : Nat) :
    Footprint.Same ⟨[.pipe, .dram], [.all DLINK_DROP, .all RSV_FREE], []⟩ s (s.dropFlight l) := by
  simp

theorem State.discard_same : Footprint.Same ⟨[.mesh, .lanes, .pipe, .dram], [.all DLINK_DROP, .all RSV_FREE], []⟩ s
    (s.discard l.val x p q) := by
  refine Footprint.Same.trans ?_ ((State.unanswer_same _ x).mono (by simp))
  simp

theorem State.discard_unlocks {k : Nat} (hk : k < linkWidth l.val) (back : Bool) :
    (s.discard l.val x p q).laneLocked l.val back k = false := by
  rw [State.laneLocked_congr ((State.unanswer_same _ x).lanes (by simp)),
    State.laneLocked_congr ((State.dropFlight_same _ l.val).lanes (by simp))]
  exact State.dropLanes_unlocks _ hk back

theorem State.discard_counts (h : s.pipe.flight = []) :
    (s.discard l.val x p q).get DLINK_DROP_V (place (linkLow l.val) l.val) =
        (s.get DLINK_DROP_V (place (linkLow l.val) l.val) + p) % 2 ^ 32 ∧
      (s.discard l.val x p q).get DLINK_DROP_V (place (linkHigh l.val) l.val) =
        (s.get DLINK_DROP_V (place (linkHigh l.val) l.val) + q) % 2 ^ 32 := by
  have hlanes := (s.dropPosted l.val p q).dropLanes_same l.val
  have hflight : ((s.dropPosted l.val p q).dropLanes l.val).pipe.flight = [] := by
    rw [hlanes.pipe (by simp), (s.dropPosted_same l p q).pipe (by simp), h]
  have hget (a : Nat) : (s.discard l.val x p q).get DLINK_DROP_V a = (s.dropPosted l.val p q).get DLINK_DROP_V a := by
    rw [(State.unanswer_same _ x).get (by simp), State.get_dropFlight_empty _ _ hflight, hlanes.get (by simp)]
  rw [hget, hget]
  exact s.dropPosted_counts l p q

theorem State.discard_lost : (s.discard l.val x p q).mesh.lost = s.mesh.lost := by
  rw [State.unanswer_lost, (State.dropFlight_same _ l.val).mesh (by simp), (State.dropLanes_same _ l.val).mesh (by simp),
    (s.dropPosted_same l p q).mesh (by simp)]

end

/-- A link is down, and the requests that were on it wait for their error response (R144, R147). -/
def State.awaitErrors (s : State) (l : Nat) (x : List (Requester × Addr × Bool)) : State :=
  { s with
    lanes := { s.lanes with down := Tab.set s.lanes.down false l true }
    mesh := { s.mesh with lost := s.mesh.lost ++ x.map fun y => ⟨y.1, y.2.1, y.2.2⟩ } }

theorem State.get_awaitErrors (s : State) (l : Nat) (x : List (Requester × Addr × Bool)) (f : Fld) (a : Nat) :
    (s.awaitErrors l x).get f a = s.get f a := rfl

theorem exec_dlinkLockLoss {s : State} {l : Fin 25} (hrun : s.running = true) (hup : s.linkUp l.val = true)
    (hfrozen : s.is FRZ_STATUS_FROZEN d0 = false) (x : List (Requester × Addr × Bool)) (p q : Nat) :
    exec (.dlinkLockLoss l x p q) s = .next (s.kept (((s.showDown l.val).discard l.val x p q).awaitErrors l.val x)) := by
  change execDlinkLockLoss l x p q s = _
  unfold execDlinkLockLoss
  rw [State.event_running _ _ hrun, if_neg (by simp [hup, hfrozen])]
  rfl

theorem dlinkLockLoss_drops (s : State) (l : Fin 25) (x : List (Requester × Addr × Bool)) (p q : Nat) (hrun : s.running = true)
    (hup : s.linkUp l.val = true) (hfrozen : s.is FRZ_STATUS_FROZEN d0 = false) :
    Completes (.dlinkLockLoss l x p q) s fun t =>
      (∀ d ∈ [linkLow l.val, linkHigh l.val], t.is DLINK_STATUS_LOCKED (place d l.val) = false ∧
        t.get DLINK_STATUS_DOWN_CNT (place d l.val) = Nat.min 0xFF (s.get DLINK_STATUS_DOWN_CNT (place d l.val) + 1)) ∧
      (∀ k < linkWidth l.val, ∀ b : Bool, t.laneLocked l.val b k = false) ∧
      (s.pipe.flight = [] →
        (t.get DLINK_DROP_V (place (linkLow l.val) l.val) =
          (s.get DLINK_DROP_V (place (linkLow l.val) l.val) + p) % 2 ^ 32 ∧
        t.get DLINK_DROP_V (place (linkHigh l.val) l.val) =
          (s.get DLINK_DROP_V (place (linkHigh l.val) l.val) + q) % 2 ^ 32)) ∧
      t.mesh.lost = s.mesh.lost ++ x.map (fun y => ⟨y.1, y.2.1, y.2.2⟩) := by
  have hdown : Footprint.Same ⟨[], [.all DLINK_STATUS], []⟩ s (s.showDown l.val) := by simp
  have hsame := (s.showDown l.val).discard_same l x p q
  have hget (f : Fld) (a : Nat) : (s.kept (((s.showDown l.val).discard l.val x p q).awaitErrors l.val x)).get f a =
      ((s.showDown l.val).discard l.val x p q).get f a :=
    (State.get_kept _ _ (hsame.part.trans hdown.part) f a).trans
      (State.get_awaitErrors _ l.val x f a)
  refine ⟨_, exec_dlinkLockLoss hrun hup hfrozen x p q, fun d hd => ?_, fun k hk b => ?_, fun hflight => ?_, ?_⟩
  · rw [State.is, hget, hget, hsame.get (by simp [Place.covers]), hsame.get (by simp [Place.covers]), ← State.is]
    exact s.showDown_shows l hd
  · exact (s.showDown l.val).discard_unlocks l x p q hk b
  · rw [hget, hget, ← hdown.get (f := DLINK_DROP_V) (a := place (linkLow l.val) l.val) (by simp [Place.covers]),
      ← hdown.get (f := DLINK_DROP_V) (a := place (linkHigh l.val) l.val) (by simp [Place.covers])]
    exact (s.showDown l.val).discard_counts l x p q (by rw [hdown.pipe (by simp), hflight])
  · exact congrArg (· ++ _) (((s.showDown l.val).discard_lost l x p q).trans (congrArg Mesh.lost (hdown.mesh (by simp))))

theorem linkLossErrorResponse_answers (s : State) (q : Requester) (e : ErrResp) (hrun : s.running = true)
    (he : s.mesh.lost.find? (fun e => e.req == q) = some e) :
    Completes (.linkLossErrorResponse q) s fun t => t.mesh.errs = s.mesh.errs ++ [e] ∧ t.mesh.lost = s.mesh.lost.erase e ∧
      (t.answerOf (reqCode q)).err = true ∧ (t.answerOf (reqCode q)).count = 4096 := by
  refine completes_of_event (fun _ => rfl) hrun ?_
  simp only [he]
  have hanswer := s.answerOf_answer (reqCode q) { err := true, count := 4096 }
  exact ⟨rfl, rfl, congrArg MeshResp.err hanswer, congrArg MeshResp.count hanswer⟩

end Sys2Proof.Machine
end
section
/-!
Eye scans and the optics I2C master: each command completes with its effect (R150 to R158).
-/
namespace Sys2Proof.Machine
open Reg

@[simp] theorem State.fwWriteFields_lanes (s : State) (fs : List FieldDesc) (r a : Nat) (new same : Word) :
    (s.fwWriteFields fs r a new same).lanes = s.lanes := by
  simp only [State.fwWriteFields, State.wr_lanes]
  split <;> rfl

@[simp] theorem State.fwWrite_part (s : State) (r a : Nat) (v : Word) : (s.fwWrite r a v).part = s.part :=
  State.fwWriteFields_part ..

@[simp] theorem State.fwWrite_lanes (s : State) (r a : Nat) (v : Word) : (s.fwWrite r a v).lanes = s.lanes :=
  State.fwWriteFields_lanes ..

/-- A firmware write of another register leaves a word. -/
theorem State.rd_fwWrite_ne (s : State) {r r' : Nat} (a a' : Nat) (v : Word) (h : r' ≠ r) :
    (s.fwWrite r a v).rd r' a' = s.rd r' a' := by
  rw [State.fwWrite, State.fwWriteFields, State.rd_wr_ne _ _ _ _ h]
  split <;> rfl

/-! ## Eye scans (R151 to R153) -/

theorem State.scanOf_congr {s t : State} (h : t.lanes = s.lanes) (d : Nat) : t.scanOf d = s.scanOf d := by
  rw [State.scanOf, State.scanOf, h]

@[simp] theorem State.scanOf_setScan (s : State) (d : Nat) (p : Option ScanPoint) : (s.setScan d p).scanOf d = p :=
  Tab.get_set_same _ _ _ _

@[simp] theorem State.setScan_part (s : State) (d : Nat) (p : Option ScanPoint) : (s.setScan d p).part = s.part := rfl

/-- A point is under way on a die, with no mismatch counted (R151, R152). -/
def State.startScan (s : State) (d : Nat) (p : ScanPoint) : State :=
  ((s.setScan d (some p)).wr LANE_ESCAN_ERR (onDie d) 0).put LANE_ESCAN_STAT_BUSY (onDie d) 1

theorem State.startScan_part (s : State) (d : Nat) (p : ScanPoint) : (s.startScan d p).part = s.part := by
  simp [State.startScan]

theorem State.startScan_shows (s : State) (d : Nat) (p : ScanPoint) :
    (s.startScan d p).is LANE_ESCAN_STAT_BUSY (onDie d) = true ∧ (s.startScan d p).scanOf d = some p ∧
      (s.startScan d p).rd LANE_ESCAN_ERR (onDie d) = 0 := by
  unfold State.startScan
  refine ⟨by simp [State.is], ?_, by simp⟩
  rw [State.scanOf_congr (State.put_lanes ..), State.scanOf_congr (State.wr_lanes ..), State.scanOf_setScan]

theorem exec_escanStart {s : State} {d : Die} (v : Word) (hrun : s.running = true)
    (hbusy : s.is LANE_ESCAN_STAT_BUSY (onDie d.val) = false) :
    ∃ p, exec (.escanStart d v) s = .next (s.kept ((s.fwWrite LANE_ESCAN_CTL (onDie d.val) v).startScan d.val p)) := by
  change ∃ p, execEscanStart d v s = _
  unfold execEscanStart
  rw [State.event_running _ _ hrun, if_neg (by simp [hbusy])]
  exact ⟨_, rfl⟩

theorem escanStart_starts (s : State) (d : Die) (v : Word) (hrun : s.running = true)
    (hbusy : s.is LANE_ESCAN_STAT_BUSY (onDie d.val) = false) :
    Completes (.escanStart d v) s fun t => t.is LANE_ESCAN_STAT_BUSY (onDie d.val) = true ∧ (t.scanOf d.val).isSome = true ∧
      t.rd LANE_ESCAN_ERR (onDie d.val) = 0 := by
  obtain ⟨p, hexec⟩ := exec_escanStart v hrun hbusy
  obtain ⟨hgoing, hscan, herr⟩ := (s.fwWrite LANE_ESCAN_CTL (onDie d.val) v).startScan_shows d.val p
  have hpart := ((s.fwWrite LANE_ESCAN_CTL (onDie d.val) v).startScan_part d.val p).trans (s.fwWrite_part ..)
  refine ⟨_, hexec, (State.is_kept _ _ hpart _ _).trans hgoing, ?_, (State.rd_kept _ _ hpart _ _).trans herr⟩
  rw [State.scanOf_congr (State.kept_lanes ..), hscan]
  rfl

@[simp] theorem State.endScan_part (s : State) (d errors : Nat) (early : Option Nat) :
    (s.endScan d errors early).part = s.part := by
  unfold State.endScan
  cases early <;> simp

/-- However a point ends, it is over and its mismatches are counted (R153). -/
theorem State.endScan_ends (s : State) (d errors : Nat) (early : Option Nat) :
    (s.endScan d errors early).is LANE_ESCAN_STAT_BUSY (onDie d) = false ∧ (s.endScan d errors early).scanOf d = none ∧
      (s.endScan d errors early).rd LANE_ESCAN_ERR (onDie d) = BitVec.ofNat 32 (Nat.min errors 0xFFFFFFFF) := by
  have hscan {u : State} (hu : u.lanes = (s.setScan d none).lanes) : u.scanOf d = none :=
    (State.scanOf_congr hu d).trans (s.scanOf_setScan d none)
  unfold State.endScan
  cases early with
  | none => exact ⟨by simp (disch := decide) [State.is, State.get_put_field], hscan (by simp), by simp⟩
  | some c => exact ⟨by simp (disch := decide) [State.is, State.get_put_field], hscan (by simp), by simp⟩

theorem State.endScan_done (s : State) (d errors : Nat) : (s.endScan d errors none).is LANE_ESCAN_STAT_DONE (onDie d) = true := by
  simp [State.endScan, State.is]

theorem State.endScan_early (s : State) (d errors : Nat) {c : Nat} (hc : c < 8) :
    (s.endScan d errors (some c)).is LANE_ESCAN_STAT_ABORTED (onDie d) = true ∧
      (s.endScan d errors (some c)).get LANE_ESCAN_STAT_CAUSE (onDie d) = c := by
  simp (disch := decide) [State.endScan, State.is, State.get_put_field, Nat.mod_eq_of_lt hc]

theorem escanAbort_ends (s : State) (d : Die) (v : Word) (n : Nat) (hrun : s.running = true)
    (hscan : (s.scanOf d.val).isSome = true) :
    Completes (.escanAbort d v n) s fun t => t.is LANE_ESCAN_STAT_BUSY (onDie d.val) = false ∧ t.scanOf d.val = none ∧
      t.is LANE_ESCAN_STAT_ABORTED (onDie d.val) = true ∧ t.get LANE_ESCAN_STAT_CAUSE (onDie d.val) = 0 ∧
      t.rd LANE_ESCAN_ERR (onDie d.val) = BitVec.ofNat 32 (Nat.min n 0xFFFFFFFF) := by
  have hstill : ((s.fwWrite LANE_ESCAN_CTL (onDie d.val) v).scanOf d.val).isSome = true := by
    rw [State.scanOf_congr (State.fwWrite_lanes ..), hscan]
  refine completes_of_event (fun _ => rfl) hrun ?_
  simp only [hstill, if_true]
  obtain ⟨hbusy, hover, herr⟩ := (s.fwWrite LANE_ESCAN_CTL (onDie d.val) v).endScan_ends d.val n (some 0)
  obtain ⟨habort, hcause⟩ := (s.fwWrite LANE_ESCAN_CTL (onDie d.val) v).endScan_early d.val n (c := 0) (by decide)
  rw [State.is_kept _ _ (by simp), State.is_kept _ _ (by simp), State.get_kept _ _ (by simp), State.rd_kept _ _ (by simp),
    State.scanOf_congr (State.kept_lanes ..)]
  exact ⟨hbusy, hover, habort, hcause, herr⟩

theorem escanDone_completes (s : State) (d : Die) (n : Nat) (p : ScanPoint) (hrun : s.running = true)
    (hscan : s.scanOf d.val = some p) (hends : s.scanEnds d.val p none = true) :
    Completes (.escanDone d n none) s fun t => t.is LANE_ESCAN_STAT_BUSY (onDie d.val) = false ∧
      t.is LANE_ESCAN_STAT_DONE (onDie d.val) = true ∧ t.scanOf d.val = none ∧
      t.rd LANE_ESCAN_ERR (onDie d.val) = BitVec.ofNat 32 (Nat.min n 0xFFFFFFFF) := by
  refine completes_of_event (fun _ => rfl) hrun ?_
  simp only [hscan, hends, if_true, Option.map_none]
  obtain ⟨hbusy, hover, herr⟩ := s.endScan_ends d.val n none
  rw [State.is_kept _ _ (by simp), State.is_kept _ _ (by simp), State.rd_kept _ _ (by simp),
    State.scanOf_congr (State.kept_lanes ..)]
  exact ⟨hbusy, s.endScan_done d.val n, hover, herr⟩

theorem escanDone_early (s : State) (d : Die) (n : Nat) (p : ScanPoint) (k : Fin 3) (hrun : s.running = true)
    (hscan : s.scanOf d.val = some p) (hends : s.scanEnds d.val p (some k) = true) :
    Completes (.escanDone d n (some k)) s fun t => t.is LANE_ESCAN_STAT_BUSY (onDie d.val) = false ∧
      t.is LANE_ESCAN_STAT_ABORTED (onDie d.val) = true ∧ t.get LANE_ESCAN_STAT_CAUSE (onDie d.val) = k.val ∧
      t.scanOf d.val = none ∧ t.rd LANE_ESCAN_ERR (onDie d.val) = BitVec.ofNat 32 (Nat.min n 0xFFFFFFFF) := by
  refine completes_of_event (fun _ => rfl) hrun ?_
  simp only [hscan, hends, if_true, Option.map_some]
  obtain ⟨hbusy, hover, herr⟩ := s.endScan_ends d.val n (some k.val)
  obtain ⟨habort, hcause⟩ := s.endScan_early d.val n (show k.val < 8 by omega)
  rw [State.is_kept _ _ (by simp), State.is_kept _ _ (by simp), State.get_kept _ _ (by simp), State.rd_kept _ _ (by simp),
    State.scanOf_congr (State.kept_lanes ..)]
  exact ⟨hbusy, habort, hcause, hover, herr⟩

/-! ## The optics I2C master (R155 to R158) -/

/-- A GO while no transaction runs starts one of its direction with BUSY 1 (R155). -/
theorem State.i2cGo_starts (s : State) {m : I2cRegs} (hm : m.cfg ≠ m.cmd) (v : Word) (rd : Bool)
    (hidle : bits (s.rd m.cmd m.at_) 30 30 = 0) (hen : bits (s.rd m.cfg m.at_) 31 31 = 1) :
    ∃ u j, s.i2cGo m v rd = (u, some j) ∧ j.read = rd ∧ bits (u.rd m.cmd m.at_) 30 30 = 1 := by
  have hcfg : bits ((s.fwWrite m.cmd m.at_ (setBits v 27 27 (b2n rd))).rd m.cfg m.at_) 31 31 ≠ 0 := by
    rw [State.rd_fwWrite_ne _ _ _ _ hm, hen]
    decide
  unfold State.i2cGo
  dsimp only
  rw [if_neg (by simp [hidle]), if_neg hcfg]
  refine ⟨_, _, rfl, rfl, ?_⟩
  rw [State.commit, State.rd_wrEff, State.rd_wr_same, bits_setBits_same _ _ _ _ (by decide) (by decide)]
  rfl

/-- A GO while a transaction runs sets REJ and starts none (R157). -/
theorem State.i2cGo_refused (s : State) (m : I2cRegs) (v : Word) (rd : Bool) (hbusy : bits (s.rd m.cmd m.at_) 30 30 = 1) :
    ∃ u, s.i2cGo m v rd = (u, none) ∧ bits (u.rd m.stat m.at_) 30 30 = 1 ∧ u.lanes = s.lanes := by
  unfold State.i2cGo
  dsimp only
  rw [if_pos (by simp [hbusy])]
  refine ⟨_, rfl, ?_, by simp⟩
  rw [State.rd_wr_same, bits_setBits_same _ _ _ _ (by decide) (by decide)]
  rfl

section
variable (s : State) (n : Nat) (v : Word) (rd : Bool)

@[simp] theorem State.optGo_part : (s.optGo n v rd).part = s.part := by
  have hsame : Footprint.Same ⟨[.lanes], [.one LANE_OPT_I2C_CMD (onDie n), .one LANE_OPT_I2C_STAT (onDie n)],
      [.one LANE_OPT_I2C_CFG (onDie n)]⟩ s (s.optGo n v rd) := by simp
  exact hsame.part

theorem State.optGo_starts (hidle : bits (s.rd LANE_OPT_I2C_CMD (onDie n)) 30 30 = 0)
    (hen : bits (s.rd LANE_OPT_I2C_CFG (onDie n)) 31 31 = 1) :
    (Tab.get (s.optGo n v rd).lanes.optI2c none n).map (·.read) = some rd ∧
      bits ((s.optGo n v rd).rd LANE_OPT_I2C_CMD (onDie n)) 30 30 = 1 := by
  obtain ⟨u, j, hgo, hread, hgoing⟩ :=
    s.i2cGo_starts (m := optRegs n) (show LANE_OPT_I2C_CFG ≠ LANE_OPT_I2C_CMD by decide) v rd hidle hen
  rw [State.optGo, hgo]
  refine ⟨?_, hgoing⟩
  dsimp only
  rw [Tab.get_set_same, Option.map_some, hread]

theorem State.optGo_refused (hbusy : bits (s.rd LANE_OPT_I2C_CMD (onDie n)) 30 30 = 1) :
    bits ((s.optGo n v rd).rd LANE_OPT_I2C_STAT (onDie n)) 30 30 = 1 ∧ (s.optGo n v rd).lanes = s.lanes := by
  obtain ⟨u, hgo, hrej, hlanes⟩ := s.i2cGo_refused (optRegs n) v rd hbusy
  rw [State.optGo, hgo]
  exact ⟨hrej, hlanes⟩

end

/-- The two commands of a GO, by direction. -/
abbrev optGoInstr (n : LineDie) (v : Word) (rd : Bool) : Instr := if rd then .optI2cRead n v else .optI2cWrite n v

theorem exec_optGo (n : LineDie) (v : Word) (rd : Bool) (s : State) :
    exec (optGoInstr n v rd) s = s.acEvent (·.optGo n.val v rd) := by
  cases rd <;> rfl

theorem optI2cGo_starts (rd : Bool) (s : State) (n : LineDie) (v : Word) (halive : s.hw.alive = true)
    (hidle : bits (s.rd LANE_OPT_I2C_CMD (onDie n.val)) 30 30 = 0)
    (hen : bits (s.rd LANE_OPT_I2C_CFG (onDie n.val)) 31 31 = 1) :
    Completes (optGoInstr n v rd) s fun t => (Tab.get t.lanes.optI2c none n.val).map (·.read) = some rd ∧
      bits (t.rd LANE_OPT_I2C_CMD (onDie n.val)) 30 30 = 1 := by
  refine completes_of_acEvent (exec_optGo n v rd) halive ?_
  rw [State.kept_lanes, State.rd_kept _ _ (by simp)]
  exact s.optGo_starts n.val v rd hidle hen

theorem optI2cGo_refused (rd : Bool) (s : State) (n : LineDie) (v : Word) (halive : s.hw.alive = true)
    (hbusy : bits (s.rd LANE_OPT_I2C_CMD (onDie n.val)) 30 30 = 1) :
    Completes (optGoInstr n v rd) s fun t => bits (t.rd LANE_OPT_I2C_STAT (onDie n.val)) 30 30 = 1 ∧
      Tab.get t.lanes.optI2c none n.val = Tab.get s.lanes.optI2c none n.val := by
  obtain ⟨hrej, hlanes⟩ := s.optGo_refused n.val v rd hbusy
  refine completes_of_acEvent (exec_optGo n v rd) halive ?_
  rw [State.kept_lanes, State.rd_kept _ _ (by simp), hlanes]
  exact ⟨hrej, rfl⟩

theorem optI2cStretchTimeout_marks (s : State) (n : LineDie) (j : I2cJob) (halive : s.hw.alive = true)
    (hj : Tab.get s.lanes.optI2c none n.val = some j) :
    Completes (.optI2cStretchTimeout n) s fun t => Tab.get t.lanes.optI2c none n.val = some { j with stretched := true } := by
  refine completes_of_acEvent (fun _ => rfl) halive ?_
  simp only [hj]
  exact Tab.get_set_same s.lanes.optI2c none (some { j with stretched := true }) n.val

@[simp] theorem State.i2cFinish_part (s : State) (m : I2cRegs) (j : I2cJob) (res : I2cEnd) (got : List Byte) :
    (s.i2cFinish m j res got).part = s.part := by
  simp [State.i2cFinish]

@[simp] theorem State.i2cFinish_lanes (s : State) (m : I2cRegs) (j : I2cJob) (res : I2cEnd) (got : List Byte) :
    (s.i2cFinish m j res got).lanes = s.lanes := by
  simp [State.i2cFinish]

/-- A transaction that ends clears BUSY and sets DONE (R157). -/
theorem State.i2cFinish_ends (s : State) {m : I2cRegs} (hm : m.cmd ≠ m.stat) (j : I2cJob) (res : I2cEnd) (got : List Byte) :
    bits ((s.i2cFinish m j res got).rd m.cmd m.at_) 30 30 = 0 ∧ bits ((s.i2cFinish m j res got).rd m.stat m.at_) 31 31 = 1 := by
  unfold State.i2cFinish
  dsimp only
  refine ⟨?_, ?_⟩
  · rw [State.rd_wr_ne _ _ _ _ hm, State.rd_wr_same, bits_setBits_other _ _ _ _ _ _ (by decide) (by decide) (by decide),
      bits_setBits_same _ _ _ _ (by decide) (by decide)]
    rfl
  · rw [State.rd_wr_same, bits_setBits_same _ _ _ _ (by decide) (by decide)]
    rfl

theorem optI2cDone_ends (s : State) (n : LineDie) (j : I2cJob) (e : I2cEnd) (g : List Byte) (halive : s.hw.alive = true)
    (hj : Tab.get s.lanes.optI2c none n.val = some j) :
    Completes (.optI2cDone n e g) s fun t => Tab.get t.lanes.optI2c none n.val = none ∧
      bits (t.rd LANE_OPT_I2C_CMD (onDie n.val)) 30 30 = 0 ∧ bits (t.rd LANE_OPT_I2C_STAT (onDie n.val)) 31 31 = 1 := by
  refine completes_of_acEvent (fun _ => rfl) halive ?_
  simp only [hj]
  rw [State.rd_kept _ _ (by simp), State.rd_kept _ _ (by simp), State.kept_lanes, State.i2cFinish_lanes]
  exact ⟨Tab.get_set_same s.lanes.optI2c none none n.val,
    State.i2cFinish_ends _ (m := optRegs n.val) (show LANE_OPT_I2C_CMD ≠ LANE_OPT_I2C_STAT by decide) j e g⟩

/-- Settles O4: each command by what its operation leaves of the lanes, links, scans and transactions, and the footprint of what
follows in it. -/
theorem laneAndLinkEventsComplete : Obligations.LaneAndLinkEventsComplete :=
  ⟨txEqWrite_rejects, txEqWrite_applies, cdrLockChange_locks, cdrLockChange_loses, signalDetectChange_follows, prxEqCommit_loads,
    laneLock_locks, laneLockLoss_unlocks,
    fun s l x k halive hrails hdeskew hthaw hl hlanes hrepeat =>
      dlinkLocked_locks s l x halive hrails hdeskew hthaw hl hlanes hrepeat k,
    dlinkLocked_fails, dlinkLockLoss_drops, linkLossErrorResponse_answers, escanStart_starts, escanAbort_ends,
    escanDone_completes, escanDone_early, optI2cGo_starts false, optI2cGo_starts true, optI2cGo_refused false,
    optI2cGo_refused true, optI2cStretchTimeout_marks, optI2cDone_ends⟩

end Sys2Proof.Machine
end

section
/-!
The footprints of the framer, of its defects and counts, and of a receiver's power (R159 to R201, R263).
-/
namespace Sys2Proof.Machine

/-- A register array covers each of its words on its die, of which a window has 16 (R736). -/
theorem Place.covers_die (r : Nat) {d : Nat} (hd : d < 16) (i : Nat) : (Place.die r d).covers r (place d i) = true := by
  have hdie : place d i % 2 ^ 28 / 2 ^ 24 = d := by
    unfold place
    omega
  rw [Place.covers, hdie]
  simp

theorem chanDie_lt (c : Chan) : chanDie c.val < 16 := by
  unfold chanDie
  omega

end Sys2Proof.Machine

namespace Sys2Proof.Machine.Footprint
open Reg

variable {F : Footprint} {s t : State}

/-- A fold of steps that each stay within the footprint, for the elements of the list. -/
theorem same_foldl_mem {α : Type} {f : State → α → State} {l : List α} (h : ∀ x, ∀ a ∈ l, F.Same x (f x a)) :
    F.Same s (l.foldl f t) ↔ F.Same s t :=
  same_congr (List.foldlRecOn (motive := F.Same t) l f (Same.refl F t) fun x hx a ha => hx.trans (h x a ha))

/-! ## Defects and counts -/

@[simp] theorem same_setFramer {c : Nat} {v : Framer} (h : .pon ∈ F.areas) : F.Same s (t.setFramer c v) ↔ F.Same s t :=
  same_pon h

/-- What a change of a channel's raw defects changes. -/
abbrev defects (c : Nat) : Footprint :=
  ⟨[.pon], [.one PFR_DEF (atChan c), .one PFR_DEF_LATCH (atChan c), .one PFR_DEF_RAW (atChan c)], []⟩

@[simp] theorem same_setRaw {c raw : Nat} (h : F.Has (defects c)) : F.Same s (t.setRaw c raw) ↔ F.Same s t := by
  refine same_of h ?_
  simp [State.setRaw]

@[simp] theorem same_setDefect {c k : Nat} {b : Bool} (h : F.Has (defects c)) : F.Same s (t.setDefect c k b) ↔ F.Same s t := by
  refine same_of h ?_
  simp [State.setDefect, ↓same_ite]

@[simp] theorem same_countFrm {c ev : Nat} {f : PmBin → PmBin} (h : .pon ∈ F.areas) :
    F.Same s (t.countFrm c ev f) ↔ F.Same s t := by
  simp [State.countFrm, h, ↓same_ite]

@[simp] theorem same_countFec {c ev : Nat} {f : PmBin → PmBin} (h : .pon ∈ F.areas) :
    F.Same s (t.countFec c ev f) ↔ F.Same s t := by
  simp [State.countFec, h, ↓same_ite]

/-! ## Performance bins, of one channel -/

/-- What the modes that take effect as a channel's bins close change. -/
abbrev modes (c : Nat) : Footprint := ⟨[.pon], [], [.one PFR_PM_CFG (atChan c), .one PFR_PM_SES (atChan c)]⟩

theorem same_pmClose_modes {c : Nat} {quarter day suspect short : Bool} (h : F.Has (modes c)) :
    F.Same s (t.pmClose c quarter day suspect short) ↔ F.Same s t := by
  refine same_of h ?_
  simp [State.pmClose, State.commitAll, ↓same_ite]

theorem same_pmFlush_status {c : Nat} (h : F.Has ⟨[.pon], [.one PFR_PM_STAT (atChan c)], []⟩) :
    F.Same s (t.pmFlush c) ↔ F.Same s t := by
  refine same_of h ?_
  simp [State.pmFlush, ↓same_ite]

/-! ## Windows and synchronisation -/

/-- What the start of a channel's SF and SD window changes: a committed group takes effect (R183). -/
abbrev windowStarts (c : Nat) : Footprint :=
  ⟨[.pon], [], [.one PFR_SFSD_CFG (atChan c), .one PFR_SF_SET (atChan c), .one PFR_SF_CLR (atChan c),
    .one PFR_SD_SET (atChan c), .one PFR_SD_CLR (atChan c), .one PFR_UCW_CFG (atChan c)]⟩

theorem windowStarts_effects {c r : Nat} (h : r ∈ sfsdRegs) : (windowStarts c).Effects r (atChan c) := by
  simp only [sfsdRegs, List.mem_cons, List.not_mem_nil, or_false] at h
  rcases h with rfl | rfl | rfl | rfl | rfl | rfl <;> simp

@[simp] theorem same_windowStart {c : Nat} (h : F.Has (windowStarts c)) : F.Same s (t.windowStart c) ↔ F.Same s t := by
  refine same_of h ?_
  unfold State.windowStart
  dsimp only
  split
  · simp
  · rw [same_foldl_mem fun x r hr => by simp [same_wrEff (windowStarts_effects (List.of_mem_zip hr).1)]]
    simp

@[simp] theorem same_showFramer {c : Nat} (hs : F.Stores PFR_SYNC_STAT (atChan c)) (hl : F.Stores PFR_SFC_LO (atChan c)) :
    F.Same s (t.showFramer c) ↔ F.Same s t := by
  simp [State.showFramer, hs, hl]

@[simp] theorem same_compareSfc {c : Nat} {x : Hec} (hp : .pon ∈ F.areas) (hl : F.Stores PFR_DEF_LATCH (atChan c)) :
    F.Same s (t.compareSfc c x) ↔ F.Same s t := by
  unfold State.compareSfc
  dsimp only
  split
  · rfl
  · simp [hp, hl, ↓same_ite]

@[simp] theorem same_copyThird {c : Nat} {x : Hec} (hp : .pon ∈ F.areas) (hl : F.Stores PFR_DEF_LATCH (atChan c))
    (hlo : F.Stores PFR_OC_LO (atChan c)) (hhi : F.Stores PFR_OC_HI (atChan c)) : F.Same s (t.copyThird c x) ↔ F.Same s t := by
  unfold State.copyThird
  dsimp only
  split
  · rfl
  · simp [hp, hl, hlo, hhi, ↓same_ite]

@[simp] theorem same_countUcw {c : Nat} (h : F.Has (defects c)) : F.Same s (t.countUcw c) ↔ F.Same s t := by
  refine same_of h ?_
  simp [State.countUcw, ↓same_ite]

@[simp] theorem same_countTick {c : Nat} {rx : FrameRx} {ok : Bool} (h : .pon ∈ F.areas) :
    F.Same s (t.countTick c rx ok) ↔ F.Same s t :=
  same_countFrm h

/-- What the framer's part of a frame tick changes. -/
abbrev framing (c : Nat) : Footprint :=
  ⟨[.pon], [.one PFR_DEF (atChan c), .one PFR_DEF_LATCH (atChan c), .one PFR_DEF_RAW (atChan c), .one PFR_SFC_LO (atChan c),
      .one PFR_SYNC_STAT (atChan c), .one PFR_OC_HI (atChan c), .one PFR_OC_LO (atChan c)],
    .one PFR_SYNC_CFG (atChan c) :: (windowStarts c).inEffect⟩

@[simp] theorem same_enterSync {c : Nat} {v : BitVec 51} (h : F.Has (framing c)) : F.Same s (t.enterSync c v) ↔ F.Same s t := by
  refine same_of h ?_
  simp [State.enterSync]

@[simp] theorem same_enterHunt {c : Nat} {b : Bool} (h : F.Has (framing c)) : F.Same s (t.enterHunt c b) ↔ F.Same s t := by
  refine same_of h ?_
  simp [State.enterHunt, ↓same_ite]

@[simp] theorem same_framerTick {c : Nat} {rx : FrameRx} (h : F.Has (framing c)) : F.Same s (t.framerTick c rx) ↔ F.Same s t := by
  refine same_of h ?_
  unfold State.framerTick
  extract_lets a u f tol ok u1 u2 f1
  have hu : (framing c).Same t u := by simp [u, a]
  have hu2 : (framing c).Same t u2 := by simp [u2, u1, ↓same_ite, hu]
  split
  · simpa using hu
  · split
    next found cnt _ =>
    extract_lets u3 u4 u5 u6 f2 u7
    have hu4 : (framing c).Same t u4 := by
      unfold u4
      split <;> simpa [u3] using hu2
    simpa [u7, u6, u5, ↓same_ite] using hu4

/-! ## Receiver power -/

/-- What a channel that leaves SYNC while skew is measured changes. -/
abbrev skewing : Footprint := ⟨[], [.one BOND_EVT d0, .one BOND_SKEW_STAT d0], []⟩

@[simp] theorem same_evalSkew (h : F.Stores BOND_EVT d0) : F.Same s t.evalSkew ↔ F.Same s t := by
  simp [State.evalSkew, h, ↓same_ite]

@[simp] theorem same_skewLeave {c : Nat} (h : F.Has skewing) : F.Same s (t.skewLeave c) ↔ F.Same s t := by
  refine same_of h ?_
  simp [State.skewLeave, ↓same_ite]

/-- What a receiver's power-down changes. -/
abbrev powerDown (c : Nat) : Footprint :=
  ⟨[.pon], [.one PFR_SFC_LO (atChan c), .one PFR_SYNC_STAT (atChan c), .one PWR_PS_STAT (d0i c), .one BOND_EVT d0,
    .one BOND_SKEW_STAT d0, .one CLK_STATUS d0, .one LANE_PRX_STAT (atChan c), .one TIME_STATUS d0], []⟩

@[simp] theorem same_rxPowerDown {c : Nat} (h : F.Has (powerDown c)) : F.Same s (t.rxPowerDown c) ↔ F.Same s t := by
  refine same_of h ?_
  simp [State.rxPowerDown]

@[simp] theorem same_endHold {c : Nat} (h : .pon ∈ F.areas) : F.Same s (t.endHold c) ↔ F.Same s t := by
  simp [State.endHold, h]

@[simp] theorem same_rxPowerUp {c : Nat}
    (h : F.Has ⟨[.pon], [.one PFR_SFC_LO (atChan c), .one PFR_SYNC_STAT (atChan c), .one PWR_PS_STAT (d0i c)], []⟩) :
    F.Same s (t.rxPowerUp c) ↔ F.Same s t := by
  refine same_of h ?_
  simp [State.rxPowerUp, ↓same_ite]

end Sys2Proof.Machine.Footprint
end

section
/-!
The frames of the framer's commands, of performance data and of a receiver's power (R170 to R201).
-/
namespace Sys2Proof.Machine
open Reg Footprint

theorem codewordDecode_keeps (c : Chan) (flipped : Nat) (good : Bool) : Keeps (.codewordDecode c flipped good) [.pon] [] [] := by
  refine keeps_of_event (fun _ => rfl) fun s => ?_
  simp [↓same_ite]

theorem sfsdCommit_keeps (c : Chan) : Keeps (.sfsdCommit c) [.pon] [] [] := by
  refine keeps_of_event (fun _ => rfl) fun s => ?_
  simp

theorem sfsdWindowEnd_keeps (c : Chan) :
    Keeps (.sfsdWindowEnd c) [.pon]
      [.one PFR_DEF (atChan c.val), .one PFR_DEF_LATCH (atChan c.val), .one PFR_DEF_RAW (atChan c.val)]
      [.one PFR_SFSD_CFG (atChan c.val), .one PFR_SF_SET (atChan c.val), .one PFR_SF_CLR (atChan c.val),
        .one PFR_SD_SET (atChan c.val), .one PFR_SD_CLR (atChan c.val), .one PFR_UCW_CFG (atChan c.val)] := by
  refine keeps_of_event (fun _ => rfl) fun s => ?_
  simp [↓same_ite, ↓same_fresh]

theorem pmSecondEnd_keeps (c : Chan) :
    Keeps (.pmSecondEnd c) [.pon] [] [.one PFR_PM_CFG (atChan c.val), .one PFR_PM_SES (atChan c.val)] := by
  refine keeps_of_event (fun _ => rfl) fun s => ?_
  simp [↓same_ite, same_pmClose_modes]

theorem pmClassificationFinal_keeps (c : Chan) : Keeps (.pmClassificationFinal c) [.pon] [] [] := by
  refine keeps_of_event (fun _ => rfl) fun s => ?_
  simp [↓same_ite]

theorem pmHistoryWrite_keeps (c : Chan) (day : Bool) :
    Keeps (.pmHistoryWrite c day) [.pon] [.one PFR_PM_STAT (atChan c.val)] [] := by
  refine keeps_of_event (fun _ => rfl) fun s => ?_
  dsimp only
  split
  · simp
  · cases day <;> simp

theorem pmEnable_keeps (c : Chan) (v : Word) :
    Keeps (.pmEnable c v) [.pon] [.one PFR_PM_CFG (atChan c.val)]
      [.one PFR_PM_CFG (atChan c.val), .one PFR_PM_SES (atChan c.val)] := by
  refine keeps_of_event (fun _ => rfl) fun s => ?_
  simp [State.commitAll, ↓same_ite]

theorem pmDisable_keeps (c : Chan) (v : Word) :
    Keeps (.pmDisable c v) [.pon] [.one PFR_PM_CFG (atChan c.val), .one PFR_PM_STAT (atChan c.val)]
      [.one PFR_PM_CFG (atChan c.val), .one PFR_PM_SES (atChan c.val)] := by
  refine keeps_of_event (fun _ => rfl) fun s => ?_
  simp [↓same_ite, same_pmFlush_status, same_pmClose_modes]

theorem pmSnap_keeps (c : Chan) (v : Word) :
    Keeps (.pmSnap c v) [] [.one PFR_PM_SEL (atChan c.val), .die PFR_PM_W (chanDie c.val)] [] := by
  refine keeps_of_event (fun _ => rfl) fun s => ?_
  dsimp only
  rw [same_foldl fun x k => by simp [Place.covers_die _ (chanDie_lt c)]]
  simp [↓same_ite, ↓same_fresh]

theorem sfcLoRead_keeps (req : Requester) (c : Chan) :
    Keeps (.sfcLoRead req c) [.mesh] [.one PFR_SFC_HI (atChan c.val)] [] := by
  refine keeps_of_event (fun _ => rfl) fun s => ?_
  simp

theorem receiverPowerUp_keeps (c : Chan) :
    Keeps (.receiverPowerUp c) [.pon]
      [.one PFR_SFC_LO (atChan c.val), .one PFR_SYNC_STAT (atChan c.val), .one PWR_PS_STAT (d0i c.val)] [] := by
  refine keeps_of_event (fun _ => rfl) fun s => ?_
  simp

theorem receiverPowerDown_keeps (c : Chan) :
    Keeps (.receiverPowerDown c) [.pon]
      [.one PFR_SFC_LO (atChan c.val), .one PFR_SYNC_STAT (atChan c.val), .one PWR_PS_STAT (d0i c.val), .one BOND_EVT d0,
        .one BOND_SKEW_STAT d0, .one CLK_STATUS d0, .one LANE_PRX_STAT (atChan c.val), .one TIME_STATUS d0] [] := by
  refine keeps_of_event (fun _ => rfl) fun s => ?_
  simp [↓same_ite]

end Sys2Proof.Machine
end

section
/-!
The footprints of the stores and of the queues that bursts and received frames use (R19, R393, R403, R405, R524 to R531, R546).
-/
namespace Sys2Proof.Machine.Footprint
open Reg

variable {F : Footprint} {s t : State}

/-! ## Errors that a read finds -/

/-- What the log of an error of a block changes, and the queue of rows for test. -/
abbrev errors : Footprint := ⟨[.dram], [.all RSV_EVT, .all MEM_EVT, .all RSV_ELOG_W, .all MEM_ELOG_W], []⟩

@[simp] theorem same_showLog {d b : Nat} (hr : ∀ i, F.Stores RSV_ELOG_W (place d i)) (hm : ∀ i, F.Stores MEM_ELOG_W (place d i)) :
    F.Same s (t.showLog d b) ↔ F.Same s t := by
  have hlog (i : Nat) : F.Stores (if b = 0 then RSV_ELOG_W else MEM_ELOG_W) (place d i) := by
    split
    · exact hr i
    · exact hm i
  simp [State.showLog, hlog]

/-- What the log of an error of die d changes: its event shows, and the head of the log. -/
structure Logs (F : Footprint) (d : Nat) : Prop where
  dram : .dram ∈ F.areas
  rsvEvt : F.Stores RSV_EVT (onDie d)
  memEvt : F.Stores MEM_EVT (onDie d)
  rsvLog : ∀ i, F.Stores RSV_ELOG_W (place d i)
  memLog : ∀ i, F.Stores MEM_ELOG_W (place d i)

theorem logs_of_errors (h : F.Has errors) (d : Nat) : F.Logs d := by
  have hs : ∀ {r a : Nat}, errors.Stores r a → F.Stores r a := fun ⟨p, hp, hc⟩ => ⟨p, h.2.1 hp, hc⟩
  exact ⟨h.1 (by simp), hs (by simp), hs (by simp), fun i => hs (by simp), fun i => hs (by simp)⟩

@[simp] theorem same_logError {d b cls : Nat} {scratch scrub : Bool} {memid bank index : Nat} {e : Ecc} (h : F.Logs d) :
    F.Same s (t.logError d b cls scratch scrub memid bank index e) ↔ F.Same s t := by
  obtain ⟨hd, hr, hm, hrl, hml⟩ := h
  unfold State.logError
  dsimp only
  by_cases hb : b = 0 <;> simp [hb, hd, hr, hm, hrl, hml, ↓same_ite]

@[simp] theorem same_testRow {d b : Nat} {r : RowId} {scrub : Bool} {e : Ecc} (h : F.Logs d) :
    F.Same s (t.testRow d b r scrub e) ↔ F.Same s t := by
  simp [State.testRow, h, h.dram, ↓same_ite]

@[simp] theorem same_rowError {d b : Nat} {r : RowId} {scrub : Bool} {e : Ecc} (h : F.Logs d) :
    F.Same s (t.rowError d b r scrub e) ↔ F.Same s t := by
  cases e <;> simp [State.rowError, h, ↓same_ite]

@[simp] theorem same_storeError {d : Nat} {scrub : Bool} {e : Ecc} (h : F.Logs d) (hc : F.Stores MEM_CNT_UE_DROP (onDie d)) :
    F.Same s (t.storeError d scrub e) ↔ F.Same s t := by
  cases e <;> simp [State.storeError, State.plainError, h, hc, ↓same_ite]

/-! ## Packet buffers -/

@[simp] theorem same_rcPacket {d n : Nat} {write : Bool} (h : F.Has counting) : F.Same s (t.rcPacket d n write) ↔ F.Same s t := by
  refine same_of h ?_
  unfold State.rcPacket
  dsimp only [State.draw]
  split
  · simp
  · rw [same_foldl fun x i => by simp [↓same_ite, ↓same_fresh]]
    exact Same.refl _ t

/-- What the way of a packet's bytes to the pool's die changes. -/
abbrev sending : Footprint := ⟨[.pwr], [.all DLINK_DROP, .one HW_ABSENT_DROP d0], []⟩

@[simp] theorem same_sendCells {writer d c : Nat} (h : F.Has sending) : F.Same s (t.sendCells writer d c).2 ↔ F.Same s t := by
  refine same_of h ?_
  unfold State.sendCells
  split <;> simp

@[simp] theorem same_mayShare {d : Nat} : F.Same s (t.mayShare d).2 ↔ F.Same s t := by
  unfold State.mayShare
  dsimp only [State.draw]
  split
  · rfl
  · exact same_fresh

/-- What the taking of a buffer for a packet changes. -/
abbrev buffering : Footprint :=
  ⟨[.pwr, .dram], [.all RSV_CNT_NOBUF, .all RSV_FREE, .all DLINK_DROP, .one HW_ABSENT_DROP d0, .all PMC_CNT_LO, .all PMC_OVF],
    [.all PMC_CNT_HI]⟩

@[simp] theorem same_alloc {writer n : Nat} (h : F.Has buffering) : F.Same s (t.alloc writer n).2 ↔ F.Same s t := by
  refine same_of h ?_
  unfold State.alloc
  dsimp only
  split
  · simp
  · rw [same_dram (by simp), same_mayShare]
    simp [↓same_ite]

@[simp] theorem same_toSource {d k : Nat} {p : SrcPkt} (h : .pipe ∈ F.areas) : F.Same s (t.toSource d k p) ↔ F.Same s t :=
  same_pipe h

@[simp] theorem same_payload {r : Nat} {p : Pkt} (h : F.Has counting) : F.Same s (t.payload r p).2 ↔ F.Same s t := by
  refine same_of h ?_
  unfold State.payload
  dsimp only
  split
  · rw [same_fresh]
    exact Same.refl _ t
  · simp

@[simp] theorem same_leak {k : Nat} (h : F.Has ⟨[.dram], [.all RSV_LOST_CELLS], []⟩) :
    F.Same s (t.leak k) ↔ F.Same s t := by
  refine same_of h ?_
  simp [State.leak, ↓same_ite, ↓same_dram]

/-! ## Queues and their occupancy -/

theorem same_tm {x : Tm} (h : .tm ∈ F.areas) : F.Same s { t with tm := x } ↔ F.Same s t :=
  same_congr (same_of_area h rfl rfl rfl fun w hw => by cases w <;> simp_all [Area.same, State.byte])

@[simp] theorem same_setQueue {d q : Nat} {x : Queue} (h : .tm ∈ F.areas) : F.Same s (t.setQueue d q x) ↔ F.Same s t :=
  same_tm h

@[simp] theorem same_setTmClass {pc : Nat} {x : TmClass} (h : .tm ∈ F.areas) : F.Same s (t.setTmClass pc x) ↔ F.Same s t :=
  same_tm h

@[simp] theorem same_setVtime {d q v : Nat} (h : .tm ∈ F.areas) : F.Same s (t.setVtime d q v) ↔ F.Same s t := by
  simp [State.setVtime, h, ↓same_ite, ↓same_tm]

@[simp] theorem same_highWater {a : Nat} (h : F.Stores TM_CLS_HWM a) : F.Same s (t.highWater a) ↔ F.Same s t := by
  simp [State.highWater, h, ↓same_ite]

/-- The registers that show how much stands in the queues. -/
abbrev occupancy : Footprint := ⟨[.tm], [.all TM_POOL_OCC, .all TM_CLS_OCC, .all TM_CLS_HWM, .all TM_PORT_OCC], []⟩

@[simp] theorem same_occSub {d q bytes cells : Nat} (h : F.Has occupancy) : F.Same s (t.occSub d q bytes cells) ↔ F.Same s t := by
  refine same_of h ?_
  simp [State.occSub, ↓same_ite]

/-- What packets that stand in queues again change: the peaks of bandwidth windows follow the occupancy (R704). -/
abbrev requeueing : Footprint := ⟨[.tm, .pmc], [.all TM_POOL_OCC, .all TM_CLS_OCC, .all TM_CLS_HWM, .all TM_PORT_OCC], []⟩

@[simp] theorem same_occAdd {d q bytes cells : Nat} (h : F.Has requeueing) : F.Same s (t.occAdd d q bytes cells) ↔ F.Same s t := by
  refine same_of h ?_
  simp [State.occAdd, ↓same_ite]

@[simp] theorem same_calRemove {d q : Nat} (h : .tm ∈ F.areas) : F.Same s (t.calRemove d q) ↔ F.Same s t :=
  same_tm h

/-- What service of a queue changes: a tag beyond the calendar is clamped (R423). -/
abbrev serving : Footprint := ⟨[.tm], [.all TM_CNT_CLAMP, .all TM_POOL_OCC, .all TM_CLS_OCC, .all TM_CLS_HWM, .all TM_PORT_OCC], []⟩

@[simp] theorem same_calInsert {d q : Nat} (h : F.Has serving) : F.Same s (t.calInsert d q) ↔ F.Same s t := by
  refine same_of h ?_
  simp [State.calInsert, ↓same_ite]

@[simp] theorem same_takeHead {d q : Nat} (h : F.Has serving) : F.Same s (t.takeHead d q).2 ↔ F.Same s t := by
  refine same_of h ?_
  cases hpkts : (t.queue d q).pkts with
  | nil => simp [State.takeHead, hpkts]
  | cons p rest =>
    simp only [State.takeHead, hpkts]
    split
    · simp
    · simp [↓same_ite]

@[simp] theorem same_emptyQueue {d q : Nat} (h : F.Has occupancy) : F.Same s (t.emptyQueue d q) ↔ F.Same s t := by
  refine same_of h ?_
  simp [State.emptyQueue, ↓same_ite]

/-- What the error of a queue's state changes: the queue is lost with its packets and their cells (R531). -/
abbrev queueErrors : Footprint :=
  ⟨[.tm, .dram], [.all RSV_LOST_CELLS, .all RSV_EVT, .all MEM_EVT, .all RSV_ELOG_W, .all MEM_ELOG_W, .all TM_POOL_OCC,
    .all TM_CLS_OCC, .all TM_CLS_HWM, .all TM_PORT_OCC], []⟩

@[simp] theorem same_queueLost {d q : Nat} (h : F.Has queueErrors) : F.Same s (t.queueLost d q) ↔ F.Same s t := by
  refine same_of h ?_
  unfold State.queueLost
  dsimp only
  rw [same_foldl fun x p => by simp]
  simp

@[simp] theorem same_queueRead {d q : Nat} {scrub : Bool} {e : Ecc} (h : F.Has queueErrors) :
    F.Same s (t.queueRead d q scrub e) ↔ F.Same s t := by
  refine same_of h ?_
  have hlogs : queueErrors.Logs d := logs_of_errors (by simp) d
  cases e <;> simp [State.queueRead, hlogs, ↓same_ite]

/-! ## Pieces of discarded bursts -/

@[simp] theorem same_unTake {x : Piece} (h : F.Has requeueing) : F.Same s (t.unTake x) ↔ F.Same s t := by
  refine same_of h ?_
  simp [State.unTake]

@[simp] theorem same_rejoin {x : Piece} {i : Nat} (h : F.Has requeueing) : F.Same s (t.rejoin x i) ↔ F.Same s t := by
  refine same_of h ?_
  simp [State.rejoin]

@[simp] theorem same_putBack {x : Piece} (h : F.Has requeueing) : F.Same s (t.putBack x) ↔ F.Same s t := by
  refine same_of h ?_
  unfold State.putBack
  extract_lets rk setRem
  have hrem (u : State) (r : Option Piece) : requeueing.Same t (setRem u r) ↔ requeueing.Same t u := same_tm (by simp)
  split
  next y u hy =>
  have hu : requeueing.Same t u := by
    split at hy
    · split at hy
      · obtain ⟨-, rfl⟩ := Prod.mk.inj hy
        exact (hrem t none).2 (Same.refl _ t)
      · obtain ⟨-, rfl⟩ := Prod.mk.inj hy
        exact Same.refl _ t
    · obtain ⟨-, rfl⟩ := Prod.mk.inj hy
      exact Same.refl _ t
  dsimp only
  split
  · simpa using hu
  · split
    · simpa using hu
    · split
      · simpa [hrem] using hu
      · simpa [hrem] using hu

@[simp] theorem same_putBackAll {l : List Piece} (h : F.Has requeueing) : F.Same s (t.putBackAll l) ↔ F.Same s t :=
  same_foldl (fun x p => by simp [h]) _

end Sys2Proof.Machine.Footprint
end

section
/-!
The footprints of activation, of planned bursts and of a frame tick (R205 to R250, R289, R672 to R675).
-/
namespace Sys2Proof.Machine.Footprint
open Reg

variable {F : Footprint} {s t : State}

theorem Same.ite {c : Prop} [Decidable c] {a b : State} (ha : F.Same s a) (hb : F.Same s b) :
    F.Same s (if c then a else b) := by
  split
  · exact ha
  · exact hb

/-! ## Faulty grants and discarded bursts -/

theorem same_grantFault {c n : Nat} {f : GrantFault} (he : F.Stores EST_GRANT_EVT (atChan c))
    (hf : F.Stores (faultBit f).2 (atChan c)) : F.Same s (t.grantFault c f n) ↔ F.Same s t := by
  simp [State.grantFault, he, hf, ↓same_ite]

/-- What the nine causes of a faulty grant change. -/
abbrev faults (c : Nat) : Footprint :=
  ⟨[], [.one EST_GRANT_EVT (atChan c), .one EST_CNT_HEC (atChan c), .one EST_CNT_MALFORMED (atChan c), .one EST_CNT_ZERO (atChan c),
    .one EST_CNT_PROFILE (atChan c), .one EST_CNT_LATE (atChan c), .one EST_CNT_OVERLAP (atChan c),
    .one EST_CNT_PLAN_FULL (atChan c), .one EST_CNT_STATE (atChan c), .one EST_CNT_TX_OFF (atChan c)], []⟩

theorem faults_stores {c : Nat} (h : F.Has (faults c)) (f : GrantFault) : F.Stores (faultBit f).2 (atChan c) := by
  refine ⟨.one (faultBit f).2 (atChan c), h.2.1 ?_, by simp⟩
  cases f <;> simp [faultBit]

@[simp] theorem same_anyFault {c n : Nat} {f : GrantFault} (h : F.Has (faults c)) : F.Same s (t.grantFault c f n) ↔ F.Same s t :=
  same_grantFault ⟨.one EST_GRANT_EVT (atChan c), h.2.1 (by simp), by simp⟩ (faults_stores h f)

/-- What tags that are skipped change. -/
abbrev tagSkips : Footprint := ⟨[], [.one BOND_EVT d0, .one BOND_CNT_UP_GAP d0], []⟩

@[simp] theorem same_skipTags {n : Nat} (h : F.Has tagSkips) : F.Same s (t.skipTags n) ↔ F.Same s t := by
  refine same_of h ?_
  simp [State.skipTags, ↓same_ite]

/-- What discarded bursts change, but for the counts of their cause. -/
abbrev discards : Footprint :=
  ⟨[.pon, .tm, .pmc], [.one BOND_EVT d0, .one BOND_CNT_UP_GAP d0, .all TM_POOL_OCC, .all TM_CLS_OCC, .all TM_CLS_HWM, .all TM_PORT_OCC], []⟩

theorem same_dropBursts {c : Nat} {f : GrantFault} {p : Burst → Bool} (h : F.Has discards)
    (he : F.Stores EST_GRANT_EVT (atChan c)) (hf : F.Stores (faultBit f).2 (atChan c)) :
    F.Same s (t.dropBursts c f p) ↔ F.Same s t := by
  have hpon : .pon ∈ F.areas := h.1 (by simp)
  have htags : F.Has tagSkips := ⟨by simp, fun p hp => h.2.1 (by simp_all; tauto), by simp⟩
  have hqueues : F.Has requeueing := ⟨fun v hv => h.1 (by simp_all), fun p hp => h.2.1 (by simp_all), by simp⟩
  simp [State.dropBursts, hpon, htags, hqueues, same_grantFault he hf]

theorem same_dropBursts_any {c : Nat} {f : GrantFault} {p : Burst → Bool} (h : F.Has discards) (hf : F.Has (faults c)) :
    F.Same s (t.dropBursts c f p) ↔ F.Same s t :=
  same_dropBursts h ⟨.one EST_GRANT_EVT (atChan c), hf.2.1 (by simp), by simp⟩ (faults_stores hf f)

@[simp] theorem same_dropBursts_state {c : Nat} {p : Burst → Bool} (h : F.Has discards) (he : F.Stores EST_GRANT_EVT (atChan c))
    (hc : F.Stores EST_CNT_STATE (atChan c)) : F.Same s (t.dropBursts c .state p) ↔ F.Same s t :=
  same_dropBursts h he hc

/-! ## Activation states -/

@[simp] theorem same_evalGroup (h : F.Has ⟨[], [.one BOND_EVT d0, .one BOND_GROUP_STAT d0], []⟩) :
    F.Same s t.evalGroup ↔ F.Same s t := by
  refine same_of h ?_
  simp [State.evalGroup, ↓same_ite]

/-- What a change of a channel's activation state changes. -/
abbrev activation (c : Nat) : Footprint :=
  ⟨[.pon, .tm, .pmc, .dram],
    [.one PTC_ACT_STAT (atChan c), .one EST_GRANT_EVT (atChan c), .one EST_CNT_STATE (atChan c), .one BOND_EVT d0,
      .one BOND_CNT_UP_GAP d0, .one BOND_GROUP_STAT d0, .all TM_POOL_OCC, .all TM_CLS_OCC, .all TM_CLS_HWM,
      .all TM_PORT_OCC, .all RSV_FREE], []⟩

@[simp] theorem same_setAct {c new : Nat} (h : F.Has (activation c)) : F.Same s (t.setAct c new) ↔ F.Same s t := by
  refine same_of h ?_
  simp [State.setAct, ↓same_ite]

@[simp] theorem same_lodsRise {c : Nat} (h : F.Has (activation c)) : F.Same s (t.lodsRise c) ↔ F.Same s t := by
  refine same_of h ?_
  simp [State.lodsRise, ↓same_ite]

@[simp] theorem same_lodsFall {c : Nat} (h : F.Has (activation c)) : F.Same s (t.lodsFall c) ↔ F.Same s t := by
  refine same_of h ?_
  simp [State.lodsFall, ↓same_ite]

@[simp] theorem same_lodsChange {c : Nat} {was : Bool} (h : F.Has (activation c)) :
    F.Same s (t.lodsChange c was) ↔ F.Same s t := by
  simp [State.lodsChange, h, ↓same_ite]

@[simp] theorem same_actTick {c : Nat} {was : Bool} (h : F.Has (activation c)) : F.Same s (t.actTick c was) ↔ F.Same s t := by
  refine same_of h ?_
  simp [State.actTick, ↓same_ite]

@[simp] theorem same_request {c want : Nat} {v : Word} (h : F.Has (activation c)) (hc : F.Stores PTC_ACT_CTL (atChan c)) :
    F.Same s (t.request c want v) ↔ F.Same s t := by
  have hstat : F.Stores PTC_ACT_STAT (atChan c) := ⟨.one PTC_ACT_STAT (atChan c), h.2.1 (by simp), by simp⟩
  simp [State.request, h, hc, hstat, ↓same_ite]

/-! ## The map of a new frame -/

/-- The registers of a channel's profiles lie on its die. -/
theorem covers_profPlaces {c : Chan} {x : Nat × Nat} (h : x ∈ profPlaces c.val) : (Place.die x.1 (chanDie c.val)).covers x.1 x.2 := by
  simp only [profPlaces, List.mem_flatten, List.mem_map] at h
  obtain ⟨_, ⟨r, _, rfl⟩, hx⟩ := h
  obtain ⟨n, _, rfl⟩ := List.mem_map.1 hx
  exact Place.covers_die r (chanDie_lt c) _

/-- What the commits of a channel that take effect for the map of a new frame change. -/
abbrev commits (c : Nat) : Footprint :=
  ⟨[.pon], [], [.one PTC_EQD (atChan c), .one PTC_RSP_CFG (atChan c), .die EST_PROF_CFG (chanDie c), .die EST_PROF_PRE_HI (chanDie c),
    .die EST_PROF_PRE_LO (chanDie c), .die EST_PROF_DEL_HI (chanDie c), .die EST_PROF_DEL_LO (chanDie c)]⟩

theorem commits_effects {c : Chan} {x : Nat × Nat} (h : x ∈ profPlaces c.val) : (commits c.val).Effects x.1 x.2 := by
  refine ⟨.die x.1 (chanDie c.val), ?_, covers_profPlaces h⟩
  simp only [profPlaces, profRegs, List.mem_flatten, List.mem_map] at h
  obtain ⟨_, ⟨r, hr, rfl⟩, hx⟩ := h
  obtain ⟨n, _, rfl⟩ := List.mem_map.1 hx
  simp only [List.mem_cons, List.not_mem_nil, or_false] at hr
  rcases hr with rfl | rfl | rfl | rfl | rfl <;> simp

@[simp] theorem same_applyCommits {c : Chan} (h : F.Has (commits c.val)) : F.Same s (t.applyCommits c.val) ↔ F.Same s t := by
  refine same_of h ?_
  unfold State.applyCommits
  extract_lets v u w
  have hu : (commits c.val).Same t u := by
    unfold u
    split <;> simp
  rw [same_setConv (by simp)]
  unfold w
  split
  · exact hu
  · rw [same_foldl_mem fun x p hp => (same_wrEff (commits_effects (List.of_mem_zip hp).1)).2 (Same.refl _ x)]
    exact hu

@[simp] theorem same_convTick {c : Nat} {wasSync : Bool} (h : .pon ∈ F.areas) : F.Same s (t.convTick c wasSync) ↔ F.Same s t :=
  same_setConv h

@[simp] theorem same_skewTick {c : Nat} {was : Bool} (h : F.Has skewing) : F.Same s (t.skewTick c was) ↔ F.Same s t := by
  simp [State.skewTick, h, ↓same_ite]

/-! ## Power saving -/

@[simp] theorem same_setPwr {f : Power → Power} (h : .pwr ∈ F.areas) : F.Same s (t.setPwr f) ↔ F.Same s t := same_pwr h

@[simp] theorem same_setPhase {c ph n : Nat} (h : F.Has ⟨[.pwr], [.one PWR_PS_STAT (d0i c)], []⟩) :
    F.Same s (t.setPhase c ph n) ↔ F.Same s t := by
  refine same_of h ?_
  simp [State.setPhase]

@[simp] theorem same_dropEnds {c : Nat} (h : F.Has ⟨[.pwr, .pon], [], []⟩) : F.Same s (t.dropEnds c) ↔ F.Same s t := by
  refine same_of h ?_
  simp [State.dropEnds]

/-- What a channel's power saving changes at its frame tick. -/
abbrev saving (c : Nat) : Footprint :=
  ⟨[.pwr, .pon], [.one PFR_SFC_LO (atChan c), .one PFR_SYNC_STAT (atChan c), .one PWR_PS_STAT (d0i c), .one BOND_EVT d0,
    .one BOND_SKEW_STAT d0, .one CLK_STATUS d0, .one LANE_PRX_STAT (atChan c), .one TIME_STATUS d0],
    [.one PWR_PS_CFG (d0i c), .one PWR_PS_TMR (d0i c)]⟩

@[simp] theorem same_lowPower {c : Nat} (h : F.Has (saving c)) : F.Same s (t.lowPower c) ↔ F.Same s t := by
  refine same_of h ?_
  simp [State.lowPower, ↓same_ite]

@[simp] theorem same_psTick {c : Nat} (h : F.Has (saving c)) : F.Same s (t.psTick c) ↔ F.Same s t := by
  refine same_of h ?_
  unfold State.psTick
  extract_lets a active u w x
  have hu : (saving c).Same t u := by simp [u, ↓same_ite]
  have hw : (saving c).Same t w := by
    unfold w
    split
    · simpa [a, ↓same_ite] using hu
    · exact hu
  split
  · exact hw
  · simpa [x, a, ↓same_ite] using hw

/-! ## PLOAM and the bandwidth map -/

@[simp] theorem same_showPloamd {c : Chan}
    (h : F.Has ⟨[], [.one PTC_PLOAMD_STAT (atChan c.val), .die PTC_PLOAMD_DATA (chanDie c.val)], []⟩) :
    F.Same s (t.showPloamd c.val) ↔ F.Same s t := by
  refine same_of h ?_
  unfold State.showPloamd
  dsimp only
  rw [same_foldl fun x k => by simp [Place.covers_die _ (chanDie_lt c)]]
  simp [↓same_ite, ↓same_fresh]

@[simp] theorem same_newBurst {c : Nat} {g : Grant} {k : BurstKind} {al : Alloc}
    (h : F.Has ⟨[.pon], [.one PTC_ACT_STAT (atChan c)], []⟩) : F.Same s (t.newBurst c g k al) ↔ F.Same s t := by
  refine same_of h ?_
  unfold State.newBurst
  dsimp only [State.draw]
  by_cases hk : k = .serial <;> simp [hk, ↓same_ite, ↓same_fresh]

@[simp] theorem same_joinBurst {c : Nat} {g : Grant} {al : Alloc} (h : .pon ∈ F.areas) :
    F.Same s (t.joinBurst c g al) ↔ F.Same s t := by
  unfold State.joinBurst
  dsimp only
  split
  · rfl
  · exact same_setConv h

/-- What the judgement of a grant changes. -/
abbrev grants (c : Nat) : Footprint :=
  ⟨[.pon], .one PTC_ACT_STAT (atChan c) :: .one PWR_CNT_PS_GRANT (d0i c) :: (faults c).stored, []⟩

@[simp] theorem same_judgeGrant {c : Nat} {g : Grant} {entry : Option (Nat × Word)} (h : F.Has (grants c)) :
    F.Same s (t.judgeGrant c g entry) ↔ F.Same s t := by
  refine same_of h ?_
  unfold State.judgeGrant
  extract_lets v cont serial u w al
  have hu : (grants c).Same t u := by simp [u, ↓same_ite]
  refine Same.ite (by simp [hu]) (Same.ite (by simp [hu]) (Same.ite (by simp [hu]) (Same.ite (by simp [hu])
    (Same.ite (by simp [hu]) ?_))))
  split <;> simp [↓same_ite, hu]

end Sys2Proof.Machine.Footprint
end

section
/-!
The frames of a frame tick, of activation, PLOAM, the tables and the bandwidth map (R160 to R178, R205 to R241).
-/
namespace Sys2Proof.Machine
open Reg Footprint

/-! ## Frame ticks and defects -/

theorem frameTick_keeps (c : Chan) (f : FrameRx) :
    Keeps (.frameTick c f) [.pwr, .pon, .tm, .pmc, .dram]
      [.one PFR_DEF (atChan c.val), .one PFR_DEF_LATCH (atChan c.val), .one PFR_DEF_RAW (atChan c.val),
        .one PFR_SFC_LO (atChan c.val), .one PFR_SYNC_STAT (atChan c.val), .one PFR_OC_HI (atChan c.val),
        .one PFR_OC_LO (atChan c.val), .one PTC_ACT_STAT (atChan c.val), .one EST_GRANT_EVT (atChan c.val),
        .one EST_CNT_STATE (atChan c.val), .one BOND_EVT d0, .one BOND_CNT_UP_GAP d0, .one BOND_GROUP_STAT d0, .all TM_POOL_OCC,
        .all TM_CLS_OCC, .all TM_CLS_HWM, .all TM_PORT_OCC, .all RSV_FREE, .one PWR_PS_STAT (d0i c.val), .one BOND_SKEW_STAT d0,
        .one PFR_PM_STAT (atChan c.val), .one CLK_STATUS d0, .one LANE_PRX_STAT (atChan c.val), .one TIME_STATUS d0]
      [.one PFR_SFSD_CFG (atChan c.val), .one PFR_SF_SET (atChan c.val), .one PFR_SF_CLR (atChan c.val),
        .one PFR_SD_SET (atChan c.val), .one PFR_SD_CLR (atChan c.val), .one PFR_UCW_CFG (atChan c.val),
        .one PFR_SYNC_CFG (atChan c.val), .one PTC_ACT_CTL (atChan c.val), .one PTC_ACT_TMR (atChan c.val),
        .one PTC_ONU_ID (atChan c.val), .one PTC_SN_CFG (atChan c.val), .one PTC_OMCI_CFG (atChan c.val),
        .one PTC_RX_CFG (atChan c.val), .one EST_BEN_CFG (atChan c.val), .one PTC_EQD (atChan c.val),
        .one PTC_RSP_CFG (atChan c.val), .one EST_GRANT_IEN (atChan c.val), .one PTC_ACT_IEN (atChan c.val),
        .one PTC_PLOAMD_IEN (atChan c.val), .die EST_PROF_CFG (chanDie c.val), .die EST_PROF_PRE_HI (chanDie c.val),
        .die EST_PROF_PRE_LO (chanDie c.val), .die EST_PROF_DEL_HI (chanDie c.val), .die EST_PROF_DEL_LO (chanDie c.val),
        .one PWR_PS_CFG (d0i c.val), .one PWR_PS_TMR (d0i c.val)] := by
  refine keeps_of_event (fun _ => rfl) fun s => ?_
  simp [tickRegs, State.commitAll, ↓same_ite]

theorem defectChanges_keep (c : Chan) (k : Fin 6) :
    ∀ cmd ∈ ([.defectRaise c k, .defectClear c k] : List Instr),
      Keeps cmd [.pon, .tm, .pmc, .dram]
        [.one PFR_DEF (atChan c.val), .one PFR_DEF_LATCH (atChan c.val), .one PFR_DEF_RAW (atChan c.val),
          .one PTC_ACT_STAT (atChan c.val), .one EST_GRANT_EVT (atChan c.val), .one EST_CNT_STATE (atChan c.val),
          .one BOND_EVT d0, .one BOND_CNT_UP_GAP d0, .one BOND_GROUP_STAT d0, .all TM_POOL_OCC, .all TM_CLS_OCC,
          .all TM_CLS_HWM, .all TM_PORT_OCC, .all RSV_FREE] [] := by
  intro cmd h
  simp only [List.mem_cons, List.not_mem_nil, or_false] at h
  rcases h with rfl | rfl
  · refine keeps_of_event (fun _ => rfl) fun s => ?_
    simp [↓same_ite]
  · refine keeps_of_event (fun _ => rfl) fun s => ?_
    simp [↓same_ite]

theorem wakeGraceEnd_keeps (c : Chan) :
    Keeps (.wakeGraceEnd c) [.pwr, .pon, .tm, .pmc, .dram]
      [.one PFR_DEF (atChan c.val), .one PFR_DEF_LATCH (atChan c.val), .one PFR_DEF_RAW (atChan c.val),
        .one PFR_SFC_LO (atChan c.val), .one PFR_SYNC_STAT (atChan c.val), .one PTC_ACT_STAT (atChan c.val),
        .one EST_GRANT_EVT (atChan c.val), .one EST_CNT_STATE (atChan c.val), .one BOND_EVT d0, .one BOND_CNT_UP_GAP d0,
        .one BOND_GROUP_STAT d0, .all TM_POOL_OCC, .all TM_CLS_OCC, .all TM_CLS_HWM, .all TM_PORT_OCC, .all RSV_FREE] [] := by
  refine keeps_of_event (fun _ => rfl) fun s => ?_
  simp [↓same_ite]

/-! ## Activation -/

theorem activationRequests_keep (c : Chan) (v : Word) :
    ∀ cmd ∈ ([.actReqO23 c v, .actReqO4 c v, .actReqO5 c v, .actReqO11 c v, .actReqO7 c v] : List Instr),
      Keeps cmd [.pon, .tm, .pmc, .dram]
        [.one PTC_ACT_CTL (atChan c.val), .one PTC_ACT_STAT (atChan c.val), .one EST_GRANT_EVT (atChan c.val),
          .one EST_CNT_STATE (atChan c.val), .one BOND_EVT d0, .one BOND_CNT_UP_GAP d0, .one BOND_GROUP_STAT d0,
          .all TM_POOL_OCC, .all TM_CLS_OCC, .all TM_CLS_HWM, .all TM_PORT_OCC, .all RSV_FREE] [] := by
  intro cmd h
  have hreq : ∃ want, ∀ s, exec cmd s = s.event fun s => s.request c.val want v := by
    simp only [List.mem_cons, List.not_mem_nil, or_false] at h
    rcases h with rfl | rfl | rfl | rfl | rfl
    · exact ⟨2, fun _ => rfl⟩
    · exact ⟨3, fun _ => rfl⟩
    · exact ⟨4, fun _ => rfl⟩
    · exact ⟨0, fun _ => rfl⟩
    · exact ⟨6, fun _ => rfl⟩
  obtain ⟨want, hexec⟩ := hreq
  refine keeps_of_event hexec fun s => ?_
  simp

theorem activationTimers_keep (c : Chan) :
    ∀ cmd ∈ ([.to1Expiry c, .to2Expiry c] : List Instr),
      Keeps cmd [.pon, .tm, .pmc, .dram]
        [.one PTC_ACT_STAT (atChan c.val), .one EST_GRANT_EVT (atChan c.val), .one EST_CNT_STATE (atChan c.val),
          .one BOND_EVT d0, .one BOND_CNT_UP_GAP d0, .one BOND_GROUP_STAT d0, .all TM_POOL_OCC, .all TM_CLS_OCC,
          .all TM_CLS_HWM, .all TM_PORT_OCC, .all RSV_FREE] [] := by
  intro cmd h
  simp only [List.mem_cons, List.not_mem_nil, or_false] at h
  rcases h with rfl | rfl
  · refine keeps_of_event (fun _ => rfl) fun s => ?_
    simp [↓same_ite]
  · refine keeps_of_event (fun _ => rfl) fun s => ?_
    simp [↓same_ite]

/-! ## PLOAM, the tables and commits -/

theorem ploamuPush_keeps (c : Chan) : Keeps (.ploamuPush c) [.pon] [.one PTC_PLOAMU_STAT (atChan c.val)] [] := by
  refine keeps_of_event (fun _ => rfl) fun s => ?_
  simp [↓same_ite]

theorem waitingCommits_keep (c : Chan) :
    ∀ cmd ∈ ([.ploamuDef c, .eqdCommit c, .profCommit c] : List Instr), Keeps cmd [.pon] [] [] := by
  intro cmd h
  have hconv : ∃ f : State → Conv, ∀ s, exec cmd s = s.event fun s => s.setConv c.val (f s) := by
    simp only [List.mem_cons, List.not_mem_nil, or_false] at h
    rcases h with rfl | rfl | rfl
    all_goals exact ⟨_, fun _ => rfl⟩
  obtain ⟨f, hexec⟩ := hconv
  refine keeps_of_event hexec fun s => ?_
  simp

theorem ploamdReceive_keeps (c : Chan) (onu : BitVec 10) (msg : List Byte) :
    Keeps (.ploamdReceive c onu msg) [.pon] [.one PTC_PLOAMD_STAT (atChan c.val), .die PTC_PLOAMD_DATA (chanDie c.val)] [] := by
  refine keeps_of_event (fun _ => rfl) fun s => ?_
  simp [↓same_ite]

theorem ploamdPop_keeps (c : Chan) :
    Keeps (.ploamdPop c) [.pon] [.one PTC_PLOAMD_STAT (atChan c.val), .die PTC_PLOAMD_DATA (chanDie c.val)] [] := by
  refine keeps_of_event (fun _ => rfl) fun s => ?_
  dsimp only
  split
  · exact Same.refl _ s
  · simp

theorem pidTableWrite_keeps (n : LineDie) (v : Word) : Keeps (.pidTableWrite n v) [.pon] [.one PTC_PID_WR (onDie n.val)] [] := by
  refine keeps_of_event (fun _ => rfl) fun s => ?_
  simp [↓same_pon]

theorem pidTableRead_keeps (n : LineDie) (v : Word) :
    Keeps (.pidTableRead n v) []
      [.one PTC_PID_WR (onDie n.val), .one PTC_PID_STAGE0 (onDie n.val), .one PTC_PID_STAGE1 (onDie n.val)] [] := by
  refine keeps_of_event (fun _ => rfl) fun s => ?_
  simp

theorem allocTableWrite_keeps (n : LineDie) (v : Word) :
    Keeps (.allocTableWrite n v) [.pon] [.one EST_ALLOC_WR (onDie n.val)] [] := by
  refine keeps_of_event (fun _ => rfl) fun s => ?_
  simp [↓same_pon]

theorem allocTableRead_keeps (n : LineDie) (v : Word) :
    Keeps (.allocTableRead n v) [] [.one EST_ALLOC_WR (onDie n.val), .one EST_ALLOC_STAGE (onDie n.val)] [] := by
  refine keeps_of_event (fun _ => rfl) fun s => ?_
  simp

/-! ## The bandwidth map -/

theorem bwmapEntryParse_keeps (c : Chan) (g : Grant) :
    Keeps (.bwmapEntryParse c g) [.pon]
      [.one EST_GRANT_EVT (atChan c.val), .one EST_CNT_HEC (atChan c.val), .one EST_CNT_MALFORMED (atChan c.val),
        .one EST_CNT_ZERO (atChan c.val), .one EST_CNT_PROFILE (atChan c.val), .one EST_CNT_LATE (atChan c.val),
        .one EST_CNT_OVERLAP (atChan c.val), .one EST_CNT_PLAN_FULL (atChan c.val), .one EST_CNT_STATE (atChan c.val),
        .one EST_CNT_TX_OFF (atChan c.val), .one PTC_ACT_STAT (atChan c.val), .one PWR_CNT_PS_GRANT (d0i c.val)] [] := by
  refine keeps_of_event (fun _ => rfl) fun s => ?_
  simp [↓same_ite]

theorem burstPlanReady_keeps (c : Chan) (at_ : Nat) :
    Keeps (.burstPlanReady c at_) [.pon, .tm, .pmc]
      [.one EST_GRANT_EVT (atChan c.val), .one EST_CNT_HEC (atChan c.val), .one EST_CNT_MALFORMED (atChan c.val),
        .one EST_CNT_ZERO (atChan c.val), .one EST_CNT_PROFILE (atChan c.val), .one EST_CNT_LATE (atChan c.val),
        .one EST_CNT_OVERLAP (atChan c.val), .one EST_CNT_PLAN_FULL (atChan c.val), .one EST_CNT_STATE (atChan c.val),
        .one EST_CNT_TX_OFF (atChan c.val), .one BOND_EVT d0, .one BOND_CNT_UP_GAP d0, .all TM_POOL_OCC, .all TM_CLS_OCC,
        .all TM_CLS_HWM, .all TM_PORT_OCC] [] := by
  refine keeps_of_event (fun _ => rfl) fun s => ?_
  extract_lets c' v
  split
  · exact Same.refl _ s
  · extract_lets u
    split
    · simp [u, c']
    · dsimp only
      refine Same.ite ((same_dropBursts_any (by simp) (by simp [c'])).2 ?_) (Same.ite
        ((same_dropBursts_any (by simp) (by simp [c'])).2 ?_) (Same.ite
          ((same_dropBursts_any (by simp) (by simp [c'])).2 ?_) ?_))
      all_goals simp [u, c']

end Sys2Proof.Machine
end

section
/-!
The footprints and frames of received XGEM frames, of fill points and of launches (R215 to R247, R438, R439, R489 to R499, R757).
-/
namespace Sys2Proof.Machine.Footprint
open Reg

variable {F : Footprint} {s t : State}

theorem same_ite_snd {α : Type} {c : Prop} [Decidable c] {a b : α × State} :
    F.Same s (if c then a else b).2 ↔ if c then F.Same s a.2 else F.Same s b.2 := by
  split <;> rfl

/-! ## Received XGEM frames -/

@[simp] theorem same_setBond {b : Bond} (h : .bond ∈ F.areas) : F.Same s (t.setBond b) ↔ F.Same s t :=
  same_congr (same_of_area h rfl rfl rfl fun w hw => by cases w <;> simp_all [Area.same, State.byte, State.setBond])

@[simp] theorem same_dropReasm {c port : Nat} (h : .pon ∈ F.areas) : F.Same s (t.dropReasm c port) ↔ F.Same s t :=
  same_setConv h

@[simp] theorem same_xgemDrop {c port cnt : Nat} (h : .pon ∈ F.areas) (hc : F.Stores cnt (atChan c)) :
    F.Same s (t.xgemDrop c port cnt) ↔ F.Same s t := by
  simp [State.xgemDrop, h, hc]

@[simp] theorem same_dropStale {c port frame : Nat} (h : .pon ∈ F.areas) (hc : F.Stores PTC_CNT_REASM_TMO (atChan c)) :
    F.Same s (t.dropStale c port frame) ↔ F.Same s t := by
  unfold State.dropStale
  split
  · simp [h, hc, ↓same_ite]
  · rfl

@[simp] theorem same_delineate {c : Nat} {x : XgemRx} (h : .pon ∈ F.areas) : F.Same s (t.delineate c x) ↔ F.Same s t :=
  same_setConv h

@[simp] theorem same_entryKind {e : BitVec 64} : F.Same s (t.entryKind e).2 ↔ F.Same s t := by
  unfold State.entryKind
  dsimp only [State.draw]
  split
  · exact same_fresh
  · rfl

/-- What a complete XGEM frame changes. -/
abbrev delivery : Footprint :=
  ⟨[.pwr, .dram, .pipe, .bond, .ciph], [.all RSV_CNT_NOBUF, .all RSV_FREE, .all DLINK_DROP, .one HW_ABSENT_DROP d0, .all PMC_CNT_LO,
    .all PMC_OVF], [.all PMC_CNT_HI]⟩

@[simp] theorem same_xgemPass {c kind tag : Nat} {key : Option OmciKey} {l : List Byte} (h : F.Has delivery) :
    F.Same s (t.xgemPass c kind tag key l) ↔ F.Same s t := by
  refine same_of h ?_
  have halloc : delivery.Same t (t.alloc (chanDie c) l.length).2 := by simp
  unfold State.xgemPass
  dsimp only
  split
  · simp [↓same_ciph]
  · split
    · simp
    · split
      next u hu => rwa [hu] at halloc
      next b u hu =>
        rw [hu] at halloc
        simpa using halloc

/-- What the reassembly of a received fragment changes. -/
abbrev reassembly (c : Nat) : Footprint :=
  ⟨[.pwr, .pon, .dram, .pipe, .bond, .ciph], [.one PTC_CNT_OVERSIZE (atChan c), .one PTC_CNT_PID_MISS (atChan c), .all RSV_CNT_NOBUF,
    .all RSV_FREE, .all DLINK_DROP, .one HW_ABSENT_DROP d0, .all PMC_CNT_LO, .all PMC_OVF], [.all PMC_CNT_HI]⟩

@[simp] theorem same_xgemComplete {c kind tag : Nat} {key : Option OmciKey} {l : List Byte} (h : F.Has (reassembly c)) :
    F.Same s (t.xgemComplete c kind tag key l) ↔ F.Same s t := by
  refine same_of h ?_
  simp [State.xgemComplete, ↓same_ite]

@[simp] theorem same_reassemble {c kind tag : Nat} {x : XgemRx} {l : List Byte} (h : F.Has (reassembly c)) :
    F.Same s (t.reassemble c kind tag x l) ↔ F.Same s t := by
  refine same_of h ?_
  unfold State.reassemble
  dsimp only
  split
  · simp [↓same_ite]
  · simp [↓same_ite]

/-- What the opening of a received fragment changes. -/
abbrev opening (c : Nat) : Footprint :=
  ⟨[.pon], [.one CIPH_CNT_NO_KEY (atChan c), .one PTC_CNT_BAD_KEYIDX (atChan c), .one PTC_CNT_ENC_REQ (atChan c)], []⟩

@[simp] theorem same_xgemOpen {c : Nat} {e : BitVec 64} {x : XgemRx} (h : F.Has (opening c)) :
    F.Same s (t.xgemOpen c e x).2 ↔ F.Same s t := by
  refine same_of h ?_
  unfold State.xgemOpen
  dsimp only [State.draw]
  split
  · split <;> simp [↓same_fresh]
  · split
    · split <;> simp
    · simp
    · split <;> simp

/-- What the judgement of a received XGEM frame changes. -/
abbrev judging (c : Nat) : Footprint :=
  ⟨[.pwr, .pon, .dram, .pipe, .bond, .ciph], [.one CIPH_CNT_NO_KEY (atChan c), .one PTC_CNT_BAD_KEYIDX (atChan c),
    .one PTC_CNT_ENC_REQ (atChan c), .one PTC_CNT_ERR_CW (atChan c), .one PTC_CNT_OVERSIZE (atChan c), .one PTC_CNT_PID_MISS (atChan c),
    .one PTC_CNT_REASM_TMO (atChan c), .all RSV_CNT_NOBUF, .all RSV_FREE, .all DLINK_DROP, .one HW_ABSENT_DROP d0, .all PMC_CNT_LO,
    .all PMC_OVF], [.all PMC_CNT_HI]⟩

@[simp] theorem same_xgemJudge {c : Nat} {x : XgemRx} (h : F.Has (judging c)) : F.Same s (t.xgemJudge c x) ↔ F.Same s t := by
  refine same_of h ?_
  unfold State.xgemJudge
  dsimp only
  refine Same.ite (Same.refl _ t) (Same.ite (by simp) ?_)
  split
  · simp
  next e _ =>
    have hopen : (judging c).Same t ((t.dropStale c x.port.toNat (t.rxFrame c x)).xgemOpen c e x).2 := by simp
    split
    next u hu => rwa [hu] at hopen
    next l u hu =>
      rw [hu] at hopen
      simpa [↓same_ite] using hopen

/-! ## Fill points -/

@[simp] theorem same_tNow : F.Same s t.tNow.2 ↔ F.Same s t := by
  unfold State.tNow
  dsimp only [State.draw]
  split
  · exact same_fresh
  · rfl

@[simp] theorem same_takeTag {g k : Nat} (h : .bond ∈ F.areas) : F.Same s (t.takeTag g k).2 ↔ F.Same s t :=
  same_setBond h

@[simp] theorem same_setRemainder {x : Serve} {r : Option Piece} (h : .tm ∈ F.areas) :
    F.Same s (t.setRemainder x r) ↔ F.Same s t :=
  same_tm h

/-- What the reading of a piece changes. -/
abbrev pieceReads : Footprint :=
  ⟨[.dram], [.all RSV_EVT, .all MEM_EVT, .all RSV_ELOG_W, .all MEM_ELOG_W, .all PMC_CNT_LO, .all PMC_OVF], [.all PMC_CNT_HI]⟩

@[simp] theorem same_readPiece {x : Serve} {o : Piece} {err : FillErr} (h : F.Has pieceReads) :
    F.Same s (t.readPiece x o err).2 ↔ F.Same s t := by
  refine same_of h ?_
  have hlogs (d : Nat) : pieceReads.Logs d := logs_of_errors (by simp) d
  unfold State.readPiece
  dsimp only
  split
  · rw [same_fresh]
    simp [hlogs]
  · simp [hlogs]

@[simp] theorem same_takeOffered {x : Serve} {o : Piece} (h : F.Has serving) : F.Same s (t.takeOffered x o) ↔ F.Same s t := by
  refine same_of h ?_
  unfold State.takeOffered
  split
  · simp
  · simp [↓same_tm]

@[simp] theorem same_place {x : Serve} {y : Fill} {o : Piece} {l : List Byte} {lf : Bool} (h : .bond ∈ F.areas) :
    F.Same s (y.place_ x o l lf).st ↔ F.Same s y.st := by
  unfold Fill.place_
  cases x.group <;> simp [h]

/-- What the filling of an allocation changes. -/
abbrev filling : Footprint :=
  ⟨[.dram, .bond, .tm], [.all TM_POOL_OCC, .all TM_CLS_OCC, .all TM_CLS_HWM, .all TM_PORT_OCC, .all TM_CNT_CLAMP,
    .all RSV_LOST_CELLS, .all RSV_EVT, .all MEM_EVT, .all RSV_ELOG_W, .all MEM_ELOG_W, .all PMC_CNT_LO, .all PMC_OVF],
    [.all PMC_CNT_HI]⟩

@[simp] theorem same_fillLoop {n : Nat} {x : Serve} {y : Fill} (h : F.Has filling) :
    F.Same s (fillLoop n x y).st ↔ F.Same s y.st := by
  refine same_of h ?_
  induction n generalizing y with
  | zero => exact Same.refl _ _
  | succ n ih =>
    unfold fillLoop
    split
    · exact Same.refl _ _
    · split
      · exact Same.trans (by simp) ih
      · extract_lets extra o' len err f
        have hread : filling.Same y.st (y.st.readPiece x o' y.err).2 := by simp
        split
        next p u hu =>
        rw [hu] at hread
        extract_lets y' y''
        split
        · exact Same.trans (by simpa [y'] using hread) ih
        · split
          · exact Same.refl _ _
          · simpa [y'', y'] using hread

@[simp] theorem same_upGroup {c i : Nat} : F.Same s (t.upGroup c i).2 ↔ F.Same s t := by
  unfold State.upGroup
  dsimp only [State.draw]
  split
  · rfl
  · split
    · rfl
    · exact same_fresh

/-- What the filling of a burst's allocations changes. -/
abbrev fillPoints (c : Nat) : Footprint :=
  ⟨[.pwr, .pon, .dram, .bond, .tm, .ciph, .pmc], [.one CIPH_CNT_UP_NOKEY (atChan c), .one BOND_CNT_UP_ORPHAN d0, .all TM_POOL_OCC,
    .all TM_CLS_OCC, .all TM_CLS_HWM, .all TM_PORT_OCC, .all TM_CNT_CLAMP, .all RSV_LOST_CELLS, .all RSV_EVT, .all MEM_EVT,
    .all RSV_ELOG_W, .all MEM_ELOG_W, .all PMC_CNT_LO, .all PMC_OVF], [.all PMC_CNT_HI]⟩

@[simp] theorem same_fillAlloc {c base now : Nat} {b : Burst} {err : FillErr} {a : Alloc} (h : F.Has (fillPoints c)) :
    F.Same s (t.fillAlloc c b base now err a).2.2 ↔ F.Same s t := by
  refine same_of h ?_
  unfold State.fillAlloc
  extract_lets head area content empty
  split
  · exact Same.refl _ t
  next i _ =>
    split
    · exact Same.refl _ t
    · have hgroup : (fillPoints c).Same t (t.upGroup c i).2 := by simp
      split
      next bonded g u hu =>
      rw [hu] at hgroup
      split
      · simpa using hgroup
      · extract_lets x ok w y
        split
        · exact hgroup
        · exact hgroup
        · exact hgroup
        · simpa using hgroup
        · simpa [y, w, ↓same_ite] using hgroup

@[simp] theorem same_fillAllocs {c now : Nat} {b : Burst} {l : List Alloc} (h : F.Has (fillPoints c)) :
    ∀ {t : State} {err : FillErr} {base : Nat}, F.Same s (t.fillAllocs c b now err l base).2 ↔ F.Same s t := by
  induction l with
  | nil => exact Iff.rfl
  | cons a l ih =>
    intro t err base
    exact ih.trans (same_fillAlloc h)

@[simp] theorem same_takePloamu {c : Nat} (h : F.Has ⟨[.pon], [.one PTC_PLOAMU_STAT (atChan c)], []⟩) :
    F.Same s (t.takePloamu c).2 ↔ F.Same s t := by
  refine same_of h ?_
  unfold State.takePloamu
  dsimp only
  split
  · exact Same.refl _ t
  · simp

end Sys2Proof.Machine.Footprint

namespace Sys2Proof.Machine
open Reg Footprint

/-! ## Frames -/

theorem xgemFrameReceive_keeps (c : Chan) (x : XgemRx) :
    Keeps (.xgemFrameReceive c x) [.pwr, .pon, .dram, .pipe, .bond, .ciph]
      [.one CIPH_CNT_NO_KEY (atChan c.val), .one PTC_CNT_BAD_KEYIDX (atChan c.val), .one PTC_CNT_ENC_REQ (atChan c.val),
        .one PTC_CNT_ERR_CW (atChan c.val), .one PTC_CNT_HEC_LOSS (atChan c.val), .one PTC_CNT_OVERSIZE (atChan c.val),
        .one PTC_CNT_PID_MISS (atChan c.val), .one PTC_CNT_REASM_TMO (atChan c.val), .all RSV_CNT_NOBUF, .all RSV_FREE,
        .all DLINK_DROP, .one HW_ABSENT_DROP d0, .all PMC_CNT_LO, .all PMC_OVF] [.all PMC_CNT_HI] := by
  refine keeps_of_event (fun _ => rfl) fun s => ?_
  simp [↓same_ite]

theorem reassemblyTimeout_keeps (c : Chan) : Keeps (.reassemblyTimeout c) [.pon] [.one PTC_CNT_REASM_TMO (atChan c.val)] [] := by
  refine keeps_of_event (fun _ => rfl) fun s => ?_
  simp

theorem fillPoint_keeps (x : FillRead) :
    Keeps (.fillPoint x) [.pwr, .pon, .dram, .bond, .tm, .ciph, .pmc]
      [.one CIPH_CNT_NO_KEY (atChan x.chan.val), .one CIPH_CNT_UP_NOKEY (atChan x.chan.val),
        .one PTC_PLOAMU_STAT (atChan x.chan.val), .one BOND_CNT_UP_ORPHAN d0, .all TM_POOL_OCC, .all TM_CLS_OCC,
        .all TM_CLS_HWM, .all TM_PORT_OCC, .all TM_CNT_CLAMP, .all RSV_FREE, .all RSV_LOST_CELLS, .all RSV_EVT, .all MEM_EVT,
        .all RSV_ELOG_W, .all MEM_ELOG_W, .all PMC_CNT_LO, .all PMC_OVF] [.all PMC_CNT_HI] := by
  refine keeps_of_event (fun _ => rfl) fun s => ?_
  extract_lets c
  split
  · exact Same.refl _ s
  · dsimp only
    rw [same_pmcEvent (by simp), same_setConv (by simp)]
    simp [c, ↓same_ite_snd]

theorem burstLaunch_keeps (c : Chan) :
    Keeps (.burstLaunch c) [.pon, .dram, .tm, .pmc]
      [.one EST_GRANT_EVT (atChan c.val), .one EST_CNT_HEC (atChan c.val), .one EST_CNT_MALFORMED (atChan c.val),
        .one EST_CNT_ZERO (atChan c.val), .one EST_CNT_PROFILE (atChan c.val), .one EST_CNT_LATE (atChan c.val),
        .one EST_CNT_OVERLAP (atChan c.val), .one EST_CNT_PLAN_FULL (atChan c.val), .one EST_CNT_STATE (atChan c.val),
        .one EST_CNT_TX_OFF (atChan c.val), .one CIPH_CNT_ERASED (atChan c.val), .one BOND_EVT d0, .one BOND_CNT_UP_GAP d0,
        .all TM_POOL_OCC, .all TM_CLS_OCC, .all TM_CLS_HWM, .all TM_PORT_OCC, .all RSV_FREE] [] := by
  refine keeps_of_event (fun _ => rfl) fun s => ?_
  extract_lets c' v
  split
  · exact Same.refl _ s
  · exact Same.ite ((same_dropBursts_any (by simp) (by simp [c'])).2 (Same.refl _ s)) (by simp)

end Sys2Proof.Machine
end

section
/-!
The footprints and frames of the channel group (R253 to R290).
-/
namespace Sys2Proof.Machine.Footprint
open Reg

variable {F : Footprint} {s t : State}

@[simp] theorem same_commitAll {l : List (Nat × Nat)} (h : ∀ x ∈ l, F.Effects x.1 x.2) : F.Same s (t.commitAll l) ↔ F.Same s t :=
  same_foldl_mem fun x p hp => (same_commit (h p hp)).2 (Same.refl F x)

@[simp] theorem same_showBond (h : F.Stores BOND_GROUP_STAT d0) : F.Same s t.showBond ↔ F.Same s t := by
  simp [State.showBond, h]

@[simp] theorem same_setExp {k e : Nat} (h : .bond ∈ F.areas) : F.Same s (t.setExp k e) ↔ F.Same s t := by
  unfold State.setExp
  dsimp only
  rw [same_foldl fun x m => by simp [h]]
  simp [h]

theorem logs_of_die {d : Nat} (hd : d < 16) (h : F.Has ⟨[.dram], [.die RSV_EVT d, .die MEM_EVT d, .die RSV_ELOG_W d, .die MEM_ELOG_W d], []⟩) :
    F.Logs d := by
  obtain ⟨hareas, hstores, -⟩ := h
  have hdie : ∀ {r : Nat}, .die r d ∈ F.stored → ∀ i, F.Stores r (place d i) := fun hr i => ⟨_, hr, Place.covers_die _ hd i⟩
  exact ⟨hareas (by simp), hdie (hstores (by simp)) 0, hdie (hstores (by simp)) 0, hdie (hstores (by simp)), hdie (hstores (by simp))⟩

/-! ## The reorder engine -/

/-- What a frame that the engine releases changes. -/
abbrev passing : Footprint :=
  ⟨[.pwr, .dram, .pipe, .bond], [.all RSV_CNT_NOBUF, .all RSV_FREE, .all DLINK_DROP, .one HW_ABSENT_DROP d0, .all PMC_CNT_LO,
    .all PMC_OVF], [.all PMC_CNT_HI]⟩

@[simp] theorem same_bondPass {x : BondFrame} (h : F.Has passing) : F.Same s (t.bondPass x) ↔ F.Same s t := by
  refine same_of h ?_
  unfold State.bondPass
  extract_lets d
  have halloc : passing.Same t (t.alloc d x.bytes.length).2 := by simp
  have hpass : passing.Same t (match t.alloc d x.bytes.length with
      | (none, s) => s
      | (some b, s) => s.toSource d (8 + x.stream)
          { kind := 2, src := x.chan, stream := x.stream, tag := x.dtag, sec := x.sec, ns := x.ns, buf := b, bytes := x.bytes }) := by
    split
    next u hu => rwa [hu] at halloc
    next b u hu =>
      rw [hu] at halloc
      simpa using halloc
  split
  · simp
  · simp
  · exact Same.refl _ t
  · exact hpass
  · exact hpass

@[simp] theorem same_bondRelease {x : BondFrame} (h : F.Has passing) : F.Same s (t.bondRelease x) ↔ F.Same s t := by
  refine same_of h ?_
  simp [State.bondRelease, ↓same_ite]

/-- What the engine changes as it releases held frames. -/
abbrev releasing : Footprint :=
  ⟨[.pwr, .dram, .pipe, .bond], [.all RSV_CNT_NOBUF, .all RSV_FREE, .all MEM_CNT_UE_DROP, .all RSV_EVT, .all MEM_EVT,
    .all RSV_ELOG_W, .all MEM_ELOG_W, .all DLINK_DROP, .one HW_ABSENT_DROP d0, .all PMC_CNT_LO, .all PMC_OVF], [.all PMC_CNT_HI]⟩

@[simp] theorem same_releaseHeld {x : BondFrame} {e : Ecc} (h : F.Has releasing) : F.Same s (t.releaseHeld x e) ↔ F.Same s t := by
  refine same_of h ?_
  have hlogs (d : Nat) : releasing.Logs d := logs_of_errors (by simp) d
  simp [State.releaseHeld, hlogs, ↓same_ite]

@[simp] theorem same_drain {n k : Nat} {e : Ecc} (h : F.Has releasing) : F.Same s (State.drain n k e t) ↔ F.Same s t := by
  refine same_of h ?_
  induction n generalizing t e with
  | zero => exact Same.refl _ t
  | succ n ih =>
    unfold State.drain
    split
    · exact Same.refl _ t
    · split
      · exact Same.trans (by simp) ih
      · exact Same.refl _ t

@[simp] theorem same_releaseAll {n k : Nat} {e : Ecc} (h : F.Has releasing) : F.Same s (State.releaseAll n k e t) ↔ F.Same s t := by
  refine same_of h ?_
  induction n generalizing t e with
  | zero => exact Same.refl _ t
  | succ n ih =>
    unfold State.releaseAll
    split
    · exact Same.refl _ t
    · exact Same.trans (by simp) ih

/-- What a skipped gap changes, but for the count of its cause. -/
abbrev skipping : Footprint := ⟨releasing.areas, .one BOND_CNT_LOST d0 :: releasing.stored, releasing.inEffect⟩

@[simp] theorem same_skipGap {k cnt : Nat} {e : Ecc} (h : F.Has skipping) (hc : F.Stores cnt d0) :
    F.Same s (t.skipGap k cnt e) ↔ F.Same s t := by
  have hlost : F.Stores BOND_CNT_LOST d0 := ⟨.one BOND_CNT_LOST d0, h.2.1 (by simp), by simp⟩
  have hbond : .bond ∈ F.areas := h.1 (by simp)
  have hrel : F.Has releasing := ⟨h.1, fun p hp => h.2.1 (List.mem_cons_of_mem _ hp), h.2.2⟩
  unfold State.skipGap
  split
  · rfl
  · simp [hrel, hbond, hlost, hc]

/-- What forced skips change. -/
abbrev forcing : Footprint :=
  ⟨skipping.areas, .one BOND_EVT d0 :: .all BOND_CNT_FORCE :: skipping.stored, skipping.inEffect⟩

@[simp] theorem same_forceSkips {n : Nat} {x : BondFrame} {e : Ecc} (h : F.Has forcing) :
    F.Same s (State.forceSkips n x e t) ↔ F.Same s t := by
  refine same_of h ?_
  induction n generalizing t e with
  | zero => exact Same.refl _ t
  | succ n ih =>
    unfold State.forceSkips
    split
    · exact Same.refl _ t
    · split
      · exact Same.refl _ t
      · exact Same.trans (by simp) ih

@[simp] theorem same_holdFrame {x : BondFrame} {e : Ecc} (h : F.Has releasing) : F.Same s (t.holdFrame x e) ↔ F.Same s t := by
  refine same_of h ?_
  simp [State.holdFrame]

/-- What an arrival at the engine changes. -/
abbrev arriving : Footprint :=
  ⟨forcing.areas, .one BOND_CNT_DUP d0 :: .one BOND_CNT_JUMP d0 :: .one BOND_CNT_LATE d0 :: .one BOND_GROUP_STAT d0 :: forcing.stored,
    forcing.inEffect⟩

@[simp] theorem same_holdRoom {c : Nat} {x : BondFrame} {rest : List BondFrame} {e : Ecc} (h : F.Has arriving) :
    F.Same s (t.holdRoom c x rest e) ↔ F.Same s t := by
  refine same_of h ?_
  simp [State.holdRoom, ↓same_ite]

@[simp] theorem same_reorder {c : Nat} {x : BondFrame} {rest : List BondFrame} {e : Ecc} (h : F.Has arriving) :
    F.Same s (t.reorder c x rest e) ↔ F.Same s t := by
  refine same_of h ?_
  simp [State.reorder, ↓same_ite]

@[simp] theorem same_dropMember {c : Nat} (h : .bond ∈ F.areas) (hc : F.Stores BOND_CNT_NOT_MEMBER d0) :
    F.Same s (t.dropMember c) ↔ F.Same s t := by
  simp [State.dropMember, h, hc]

end Sys2Proof.Machine.Footprint

namespace Sys2Proof.Machine
open Reg Footprint

/-- What a release of a skew buffer of die d changes. -/
abbrev skewReleases (d : Nat) : Footprint :=
  ⟨[.bond, .dram], [.one BOND_CNT_NOT_MEMBER d0, .one BOND_GROUP_STAT d0, .die RSV_EVT d, .die MEM_EVT d, .die RSV_ELOG_W d,
    .die MEM_ELOG_W d, .die MEM_CNT_UE_DROP d], []⟩

/-- What a commit of the group changes. -/
abbrev groupCommits : Footprint :=
  ⟨[.pwr, .dram, .pipe, .bond], [.one BOND_CNT_NOT_MEMBER d0, .one BOND_EVT d0, .one BOND_GROUP_STAT d0, .all RSV_CNT_NOBUF,
    .all RSV_FREE, .all MEM_CNT_UE_DROP, .all RSV_EVT, .all MEM_EVT, .all RSV_ELOG_W, .all MEM_ELOG_W, .all DLINK_DROP,
    .one HW_ABSENT_DROP d0, .all PMC_CNT_LO, .all PMC_OVF],
    [.all BOND_GROUP_CFG, .all BOND_GROUP_TMO, .all BOND_MEMBER, .all PMC_CNT_HI]⟩

theorem groupCommits_effects {x : Nat × Nat} (h : x ∈ bondGroupRegs) : groupCommits.Effects x.1 x.2 := by
  simp only [bondGroupRegs, List.cons_append, List.nil_append, List.mem_cons, List.mem_map] at h
  rcases h with rfl | rfl | ⟨c, _, rfl⟩ <;> simp

/-! ## Units of an island -/

section
variable {c : Instr} {f : State → State} {d b : State → Nat} {us : List Area} {rs es : List Place}

/-- An event of a unit of the port or router island keeps to a footprint that its effect keeps to. -/
theorem keeps_of_island (hc : ∀ s, exec c s = s.island (d s) (b s) f) (h : ∀ s, Footprint.Same ⟨us, rs, es⟩ s (f s)) :
    Keeps c us rs es := by
  intro s
  by_cases hr : s.islandRuns (d s) (b s) = true
  · exact ⟨_, (hc s).trans (State.island_runs s _ _ f hr), (h s).kept.within⟩
  · exact ⟨_, (hc s).trans (State.island_held s _ _ f (by simpa using hr)), (Footprint.Same.refl ⟨us, rs, es⟩ s).within⟩

/-- An event of a unit of the core island keeps to a footprint that its effect keeps to. -/
theorem keeps_of_unit (hc : ∀ s, exec c s = s.unit (d s) (b s) f) (h : ∀ s, Footprint.Same ⟨us, rs, es⟩ s (f s)) :
    Keeps c us rs es := by
  intro s
  by_cases hr : s.unitRuns (d s) (b s) = true
  · exact ⟨_, (hc s).trans (State.unit_runs s _ _ f hr), (h s).kept.within⟩
  · exact ⟨_, (hc s).trans (State.unit_held s _ _ f (by simpa using hr)), (Footprint.Same.refl ⟨us, rs, es⟩ s).within⟩

end

/-! ## Skew buffers -/

theorem bondFrameReceive_keeps (c : Chan) :
    Keeps (.bondFrameReceive c) [.bond]
      [.one BOND_CNT_BADTAG d0, .one BOND_CNT_NOT_MEMBER d0, .one BOND_EVT d0, .one BOND_GROUP_STAT d0,
        .one BOND_CNT_SKEW_OVF (d0i c.val)] [] := by
  refine keeps_of_island (d := fun _ => chanDie c.val) (b := fun _ => 7) (fun _ => rfl) fun s => ?_
  dsimp only
  split
  · exact Same.refl _ s
  · simp [↓same_ite]

theorem skewRelease_keeps (x : Checked Chan) :
    Keeps (.skewRelease x) [.bond, .dram]
      [.one BOND_CNT_NOT_MEMBER d0, .one BOND_GROUP_STAT d0, .die RSV_EVT (chanDie x.at_.val), .die MEM_EVT (chanDie x.at_.val),
        .die RSV_ELOG_W (chanDie x.at_.val), .die MEM_ELOG_W (chanDie x.at_.val), .die MEM_CNT_UE_DROP (chanDie x.at_.val)] [] := by
  refine keeps_of_island (d := fun _ => chanDie x.at_.val) (b := fun _ => 7) (fun _ => rfl) fun s => ?_
  change (skewReleases (chanDie x.at_.val)).Same s _
  have hlogs : (skewReleases (chanDie x.at_.val)).Logs (chanDie x.at_.val) := logs_of_die (chanDie_lt x.at_) (by simp)
  have hdrops : (skewReleases (chanDie x.at_.val)).Stores MEM_CNT_UE_DROP (onDie (chanDie x.at_.val)) := by
    simp [Place.covers_die _ (chanDie_lt x.at_)]
  extract_lets c e
  split
  · exact Same.refl _ s
  · extract_lets u b
    have hu : (skewReleases (chanDie x.at_.val)).Same s u := (same_storeError hlogs hdrops).2 (by simp)
    simpa [↓same_ite] using hu

/-! ## The reorder engine -/

theorem reorderArrival_keeps (x : Checked Chan) :
    Keeps (.reorderArrival x) [.pwr, .dram, .pipe, .bond]
      [.one BOND_CNT_DUP d0, .one BOND_CNT_JUMP d0, .one BOND_CNT_LATE d0, .one BOND_CNT_LOST d0, .one BOND_EVT d0,
        .one BOND_GROUP_STAT d0, .all BOND_CNT_FORCE, .all RSV_CNT_NOBUF, .all RSV_FREE, .all MEM_CNT_UE_DROP, .all RSV_EVT,
        .all MEM_EVT, .all RSV_ELOG_W, .all MEM_ELOG_W, .all DLINK_DROP, .one HW_ABSENT_DROP d0, .all PMC_CNT_LO, .all PMC_OVF]
      [.all PMC_CNT_HI] := by
  refine keeps_of_island (d := State.bondHome) (b := fun _ => 7) (fun _ => rfl) fun s => ?_
  dsimp only
  split
  · exact Same.refl _ s
  · split <;> simp

theorem reorderTimeoutSkip_keeps (x : Checked (Fin 8)) :
    Keeps (.reorderTimeoutSkip x) [.pwr, .dram, .pipe, .bond]
      [.one BOND_CNT_LOST d0, .one BOND_EVT d0, .one BOND_GROUP_STAT d0, .all BOND_CNT_TMO, .all RSV_CNT_NOBUF, .all RSV_FREE,
        .all MEM_CNT_UE_DROP, .all RSV_EVT, .all MEM_EVT, .all RSV_ELOG_W, .all MEM_ELOG_W, .all DLINK_DROP,
        .one HW_ABSENT_DROP d0, .all PMC_CNT_LO, .all PMC_OVF] [.all PMC_CNT_HI] := by
  refine keeps_of_unit (d := State.bondHome) (b := fun _ => 7) (fun _ => rfl) fun s => ?_
  dsimp only
  split
  · exact Same.refl _ s
  · simp [↓same_ite]

theorem reorderFastSkip_keeps (x : Checked (Fin 8)) :
    Keeps (.reorderFastSkip x) [.pwr, .dram, .pipe, .bond]
      [.one BOND_CNT_LOST d0, .one BOND_GROUP_STAT d0, .all BOND_CNT_FAST, .all RSV_CNT_NOBUF, .all RSV_FREE,
        .all MEM_CNT_UE_DROP, .all RSV_EVT, .all MEM_EVT, .all RSV_ELOG_W, .all MEM_ELOG_W, .all DLINK_DROP,
        .one HW_ABSENT_DROP d0, .all PMC_CNT_LO, .all PMC_OVF] [.all PMC_CNT_HI] := by
  refine keeps_of_unit (d := State.bondHome) (b := fun _ => 7) (fun _ => rfl) fun s => ?_
  simp [↓same_ite]

/-! ## Measuring skew, members and commits -/

theorem skewArm_keeps (v : Word) :
    Keeps (.skewArm v) [] [.one BOND_EVT d0, .one BOND_SKEW_CTL d0, .one BOND_SKEW_STAT d0] [] := by
  refine keeps_of_event (fun _ => rfl) fun s => ?_
  simp

theorem skewCapture_keeps (c : Chan) :
    Keeps (.skewCapture c) [] [.one BOND_EVT d0, .one BOND_SKEW_STAT d0, .one BOND_SKEW_CAP (d0i c.val)] [] := by
  refine keeps_of_island (d := fun _ => 0) (b := fun _ => 7) (fun _ => rfl) fun s => ?_
  simp [↓same_ite]

theorem memberRxChange_keeps (c : Chan) :
    Keeps (.memberRxChange c) [.bond] [.one BOND_EVT d0, .one BOND_GROUP_STAT d0] [] := by
  refine keeps_of_island (d := fun _ => 0) (b := fun _ => 7) (fun _ => rfl) fun s => ?_
  simp [↓same_ite]

theorem bondGroupCommit_keeps :
    Keeps .bondGroupCommit [.pwr, .dram, .pipe, .bond]
      [.one BOND_CNT_NOT_MEMBER d0, .one BOND_EVT d0, .one BOND_GROUP_STAT d0, .all RSV_CNT_NOBUF, .all RSV_FREE,
        .all MEM_CNT_UE_DROP, .all RSV_EVT, .all MEM_EVT, .all RSV_ELOG_W, .all MEM_ELOG_W, .all DLINK_DROP,
        .one HW_ABSENT_DROP d0, .all PMC_CNT_LO, .all PMC_OVF]
      [.all BOND_GROUP_CFG, .all BOND_GROUP_TMO, .all BOND_MEMBER, .all PMC_CNT_HI] := by
  refine keeps_of_event (fun _ => rfl) fun s => ?_
  change groupCommits.Same s _
  extract_lets cause was old u1 u2 en m u3 up u4 u5 b u6
  have h5 : groupCommits.Same s u5 := by
    unfold u5
    rw [same_foldl fun x c => by simp]
    simp [u4, u3, u2, u1, same_commitAll fun _ => groupCommits_effects]
  have h6 : groupCommits.Same s u6 := by
    refine Same.ite (by simpa using h5) (Same.ite ?_ h5)
    rw [same_foldl fun x k => by simp]
    exact h5
  exact Same.ite (by simp) (by simpa using h6)

theorem ugrpCommit_keeps (v : Word) :
    Keeps (.ugrpCommit v) [.bond] [.all BOND_UGRP_COMMIT] [.all BOND_UGRP_A, .all BOND_UGRP_B] := by
  refine keeps_of_event (fun _ => rfl) fun s => ?_
  simp [State.commitAll, ↓same_ite]

end Sys2Proof.Machine
end

section
/-!
The frames of framing, activation, bursts and bonding, settled.
-/
namespace Sys2Proof.Machine

/-- Settles O44: each command's effect stays within a footprint that is composed from those of the operations it uses. -/
theorem ponFrames : Obligations.PonFrames :=
  ⟨codewordDecode_keeps, sfsdCommit_keeps, sfsdWindowEnd_keeps, pmSecondEnd_keeps, pmClassificationFinal_keeps,
    pmHistoryWrite_keeps, pmEnable_keeps, pmDisable_keeps, pmSnap_keeps, sfcLoRead_keeps, receiverPowerUp_keeps,
    receiverPowerDown_keeps, defectChanges_keep, wakeGraceEnd_keeps, frameTick_keeps, activationRequests_keep,
    activationTimers_keep, ploamuPush_keeps, waitingCommits_keep,
    ploamdReceive_keeps, ploamdPop_keeps, pidTableWrite_keeps, pidTableRead_keeps, allocTableWrite_keeps, allocTableRead_keeps,
    bwmapEntryParse_keeps, burstPlanReady_keeps, xgemFrameReceive_keeps, reassemblyTimeout_keeps, fillPoint_keeps,
    burstLaunch_keeps, bondFrameReceive_keeps, skewRelease_keeps, reorderArrival_keeps, reorderTimeoutSkip_keeps,
    reorderFastSkip_keeps, skewArm_keeps, skewCapture_keeps, memberRxChange_keeps, bondGroupCommit_keeps, ugrpCommit_keeps⟩

end Sys2Proof.Machine
end

section
/-!
What operations leave of the state of framers, of convergence and of performance data (R160 to R201, R205 to R214).
-/
namespace Sys2Proof.Machine
open Reg Footprint

variable {α : Type} {g : Pon → α} {F : Footprint} {s t u : State}

theorem Footprint.Same.pon (h : F.Same s t) (hF : .pon ∉ F.areas) : t.pon = s.pon := h.within.areas .pon hF

theorem Footprint.Same.pwr (h : F.Same s t) (hF : .pwr ∉ F.areas) : t.pwr = s.pwr := h.within.areas .pwr hF

/-- A value read from the PON area stands in t as in s. -/
def SamePon (g : Pon → α) (s t : State) : Prop := g t.pon = g s.pon

@[simp] theorem SamePon.refl : SamePon g s s := rfl

theorem SamePon.trans (h : SamePon g s t) (k : SamePon g t u) : SamePon g s u := Eq.trans k h

theorem samePon_congr (h : u.pon = t.pon) : SamePon g s u ↔ SamePon g s t := by
  rw [SamePon, SamePon, h]

/-- An operation whose footprint does not have the PON area may be dropped. -/
theorem samePon_of_same (h : F.Same t u) (hF : .pon ∉ F.areas) : SamePon g s u ↔ SamePon g s t := samePon_congr (h.pon hF)

theorem samePon_ite {c : Prop} [Decidable c] {a b : State} :
    SamePon g s (if c then a else b) ↔ if c then SamePon g s a else SamePon g s b := by
  split <;> rfl

theorem samePon_foldl {β : Type} {f : State → β → State} (h : ∀ x a, SamePon g x (f x a)) (l : List β) :
    SamePon g s (l.foldl f t) ↔ SamePon g s t := by
  induction l generalizing t with
  | nil => rfl
  | cons a l ih => rw [List.foldl_cons, ih, SamePon, SamePon, h t a]

section
variable {r a n lim v : Nat} {w : Word} {f : Fld}

@[simp] theorem samePon_wr : SamePon g s (t.wr r a w) ↔ SamePon g s t := samePon_congr (State.wr_pon ..)
@[simp] theorem samePon_put : SamePon g s (t.put f a v) ↔ SamePon g s t := samePon_congr (State.put_pon ..)
@[simp] theorem samePon_incSat : SamePon g s (t.incSat f a n lim) ↔ SamePon g s t := samePon_put
@[simp] theorem samePon_wrEff : SamePon g s (t.wrEff r a w) ↔ SamePon g s t := samePon_congr (State.wrEff_pon ..)
@[simp] theorem samePon_commit : SamePon g s (t.commit r a) ↔ SamePon g s t := samePon_wrEff
@[simp] theorem samePon_commitAll {l : List (Nat × Nat)} : SamePon g s (t.commitAll l) ↔ SamePon g s t :=
  samePon_foldl (fun _ _ => samePon_commit.2 .refl) l
@[simp] theorem samePon_setPwr {f : Power → Power} : SamePon g s (t.setPwr f) ↔ SamePon g s t := Iff.rfl
@[simp] theorem samePon_showFramer {c : Nat} : SamePon g s (t.showFramer c) ↔ SamePon g s t := by simp [State.showFramer]
@[simp] theorem samePon_setPhase {c ph n : Nat} : SamePon g s (t.setPhase c ph n) ↔ SamePon g s t := by simp [State.setPhase]
@[simp] theorem samePon_skewLeave {c : Nat} : SamePon g s (t.skewLeave c) ↔ SamePon g s t :=
  samePon_of_same (F := skewing) (by simp) (by simp)
@[simp] theorem samePon_cdrLoss {c : Nat} : SamePon g s (t.cdrLoss c) ↔ SamePon g s t :=
  samePon_of_same (F := ⟨[], [.one CLK_STATUS d0, .one LANE_PRX_STAT (atChan c), .one TIME_STATUS d0], []⟩) (by simp) (by simp)

end

/-! ## The framer leaves the convergence state alone -/

@[simp] theorem sameConv_setFramer {c : Nat} {v : Framer} : SamePon Pon.conv s (t.setFramer c v) ↔ SamePon Pon.conv s t := Iff.rfl
@[simp] theorem sameConv_setPm {c : Nat} {v : Pm} : SamePon Pon.conv s (t.setPm c v) ↔ SamePon Pon.conv s t := Iff.rfl

@[simp] theorem sameConv_setRaw {c raw : Nat} : SamePon Pon.conv s (t.setRaw c raw) ↔ SamePon Pon.conv s t := by
  simp [State.setRaw]

@[simp] theorem sameConv_setDefect {c k : Nat} {b : Bool} : SamePon Pon.conv s (t.setDefect c k b) ↔ SamePon Pon.conv s t := by
  simp [State.setDefect, ↓samePon_ite]

@[simp] theorem sameConv_countFrm {c ev : Nat} {f : PmBin → PmBin} :
    SamePon Pon.conv s (t.countFrm c ev f) ↔ SamePon Pon.conv s t := by
  simp [State.countFrm, ↓samePon_ite]

@[simp] theorem sameConv_windowStart {c : Nat} : SamePon Pon.conv s (t.windowStart c) ↔ SamePon Pon.conv s t := by
  unfold State.windowStart
  dsimp only
  split
  · simp
  · rw [samePon_foldl fun x r => by simp]
    simp

@[simp] theorem sameConv_compareSfc {c : Nat} {x : Hec} : SamePon Pon.conv s (t.compareSfc c x) ↔ SamePon Pon.conv s t := by
  unfold State.compareSfc
  dsimp only
  split
  · rfl
  · simp [↓samePon_ite]

@[simp] theorem sameConv_copyThird {c : Nat} {x : Hec} : SamePon Pon.conv s (t.copyThird c x) ↔ SamePon Pon.conv s t := by
  unfold State.copyThird
  dsimp only
  split
  · rfl
  · simp [↓samePon_ite]

@[simp] theorem sameConv_countUcw {c : Nat} : SamePon Pon.conv s (t.countUcw c) ↔ SamePon Pon.conv s t := by
  simp [State.countUcw, ↓samePon_ite]

@[simp] theorem sameConv_enterSync {c : Nat} {v : BitVec 51} : SamePon Pon.conv s (t.enterSync c v) ↔ SamePon Pon.conv s t := by
  simp [State.enterSync]

@[simp] theorem sameConv_enterHunt {c : Nat} {b : Bool} : SamePon Pon.conv s (t.enterHunt c b) ↔ SamePon Pon.conv s t := by
  simp [State.enterHunt, ↓samePon_ite]

@[simp] theorem sameConv_framerTick {c : Nat} {rx : FrameRx} : SamePon Pon.conv s (t.framerTick c rx) ↔ SamePon Pon.conv s t := by
  suffices h : SamePon Pon.conv t (t.framerTick c rx) from ⟨fun k => k.trans h.symm, fun k => k.trans h⟩
  unfold State.framerTick
  extract_lets a u f tol ok u1 u2 f1
  have hu2 : SamePon Pon.conv t u2 := by simp [u2, u1, u, State.countTick, ↓samePon_ite]
  split
  · simp [u]
  · split
    next found cnt _ =>
    extract_lets u3 u4 u5 u6 f2 u7
    have hu4 : SamePon Pon.conv t u4 := by
      unfold u4
      split <;> simpa [u3] using hu2
    simpa [u7, u6, u5, ↓samePon_ite] using hu4

@[simp] theorem sameConv_rxPowerDown {c : Nat} : SamePon Pon.conv s (t.rxPowerDown c) ↔ SamePon Pon.conv s t := by
  simp [State.rxPowerDown]

/-! ## Activation leaves the framers and the frames counted alone -/

/-- The framers, and the frames counted on each channel. -/
def Pon.framing (p : Pon) : Tab Framer × (Nat → Nat) := (p.framer, fun c => (Tab.get p.conv {} c).frames)

@[simp] theorem sameFraming_setPm {c : Nat} {v : Pm} : SamePon Pon.framing s (t.setPm c v) ↔ SamePon Pon.framing s t := Iff.rfl

/-- A convergence state with as many frames counted may take the place of another. -/
@[simp] theorem sameFraming_setConv {c : Nat} {v : Conv} (h : v.frames = (t.conv c).frames) :
    SamePon Pon.framing s (t.setConv c v) ↔ SamePon Pon.framing s t := by
  have hframes : Pon.framing (t.setConv c v).pon = Pon.framing t.pon := by
    refine Prod.ext rfl (funext fun j => ?_)
    by_cases hj : j = c
    · subst hj
      exact (congrArg Conv.frames (State.conv_setConv_same t j v)).trans h
    · exact congrArg Conv.frames (State.conv_setConv_ne t v hj)
  rw [SamePon, SamePon, hframes]

section
variable {c n : Nat}

@[simp] theorem samePon_grantFault {f : GrantFault} : SamePon g s (t.grantFault c f n) ↔ SamePon g s t :=
  samePon_of_same (F := faults c) (by simp) (by simp)
@[simp] theorem samePon_skipTags : SamePon g s (t.skipTags n) ↔ SamePon g s t :=
  samePon_of_same (F := tagSkips) (by simp) (by simp)
@[simp] theorem samePon_putBackAll {l : List Piece} : SamePon g s (t.putBackAll l) ↔ SamePon g s t :=
  samePon_of_same (F := requeueing) (by simp) (by simp)
@[simp] theorem samePon_releasePieces {b : Burst} : SamePon g s (t.releasePieces b) ↔ SamePon g s t :=
  samePon_of_same (F := buffers) (by simp) (by simp)
@[simp] theorem samePon_evalGroup : SamePon g s t.evalGroup ↔ SamePon g s t :=
  samePon_of_same (F := ⟨[], [.one BOND_EVT d0, .one BOND_GROUP_STAT d0], []⟩) (by simp) (by simp)

@[simp] theorem sameFraming_dropBursts {f : GrantFault} {p : Burst → Bool} :
    SamePon Pon.framing s (t.dropBursts c f p) ↔ SamePon Pon.framing s t := by
  simp [State.dropBursts]

@[simp] theorem sameFraming_cutBursts : SamePon Pon.framing s (t.cutBursts c) ↔ SamePon Pon.framing s t := by
  unfold State.cutBursts
  dsimp only
  split
  · rfl
  · rw [samePon_foldl fun x b => by simp]
    simp

@[simp] theorem sameFraming_setAct : SamePon Pon.framing s (t.setAct c n) ↔ SamePon Pon.framing s t := by
  simp [State.setAct, ↓samePon_ite]

@[simp] theorem sameFraming_lodsChange {was : Bool} : SamePon Pon.framing s (t.lodsChange c was) ↔ SamePon Pon.framing s t := by
  simp [State.lodsChange, State.lodsRise, State.lodsFall, ↓samePon_ite]

@[simp] theorem sameFraming_actTick {was : Bool} : SamePon Pon.framing s (t.actTick c was) ↔ SamePon Pon.framing s t := by
  simp [State.actTick, ↓samePon_ite]

@[simp] theorem sameFraming_applyCommits : SamePon Pon.framing s (t.applyCommits c) ↔ SamePon Pon.framing s t := by
  unfold State.applyCommits
  extract_lets v u w
  have hu : SamePon Pon.framing t u := by
    unfold u
    split <;> simp
  have hw : SamePon Pon.framing t w := by
    unfold w
    split
    · exact hu
    · rw [samePon_foldl fun x p => by simp]
      exact hu
  have hframes : (w.conv c).frames = (t.conv c).frames := congrFun (congrArg Prod.snd hw) c
  rw [sameFraming_setConv (by rw [hframes])]
  exact ⟨fun k => k.trans hw.symm, fun k => k.trans hw⟩

end

theorem SamePon.framer (h : SamePon Pon.framing s t) (c : Nat) : t.framer c = s.framer c := by
  have hframer : t.pon.framer = s.pon.framer := congrArg Prod.fst h
  rw [State.framer, State.framer, hframer]

theorem SamePon.frames (h : SamePon Pon.framing s t) (c : Nat) : (t.conv c).frames = (s.conv c).frames :=
  congrFun (congrArg Prod.snd h) c

theorem SamePon.conv (h : SamePon Pon.conv s t) (c : Nat) : t.conv c = s.conv c := by
  rw [State.conv, State.conv, show t.pon.conv = s.pon.conv from h]

end Sys2Proof.Machine
end

section
/-!
Framer, codewords, defects and receiver power: each command completes with its effect (R160 to R185).
-/
namespace Sys2Proof.Machine
open Reg Footprint

@[simp] theorem State.framer_kept (s t : State) (c : Nat) : (s.kept t).framer c = t.framer c := by
  unfold State.framer; rfl
@[simp] theorem State.conv_kept (s t : State) (c : Nat) : (s.kept t).conv c = t.conv c := by
  unfold State.conv; rfl
@[simp] theorem State.pm_kept (s t : State) (c : Nat) : (s.kept t).pm c = t.pm c := by
  unfold State.pm; rfl

@[simp] theorem State.answerOf_kept (s t : State) (r : Nat) : (s.kept t).answerOf r = t.answerOf r := by
  unfold State.answerOf; rfl

@[simp] theorem State.framer_put (s : State) (f : Fld) (a v c : Nat) : (s.put f a v).framer c = s.framer c := by
  rw [State.framer, State.framer, State.put_pon]
@[simp] theorem State.framer_showFramer (s : State) (k c : Nat) : (s.showFramer k).framer c = s.framer c := by
  have h : SamePon Pon.framing s (s.showFramer k) := by simp
  exact h.framer c
@[simp] theorem State.framer_setConv (s : State) (k c : Nat) (v : Conv) : (s.setConv k v).framer c = s.framer c := by
  unfold State.framer; rfl
@[simp] theorem State.framer_setPm (s : State) (k c : Nat) (v : Pm) : (s.setPm k v).framer c = s.framer c := by
  unfold State.framer; rfl

section
variable {s t : State} {c n : Nat}

@[simp] theorem sameFraming_setRaw : SamePon Pon.framing s (t.setRaw c n) ↔ SamePon Pon.framing s t := by
  simp [State.setRaw]

@[simp] theorem sameFraming_setDefect {b : Bool} : SamePon Pon.framing s (t.setDefect c n b) ↔ SamePon Pon.framing s t := by
  simp [State.setDefect, ↓samePon_ite]

@[simp] theorem sameFraming_countFrm {f : PmBin → PmBin} :
    SamePon Pon.framing s (t.countFrm c n f) ↔ SamePon Pon.framing s t := by
  simp [State.countFrm, ↓samePon_ite]

end

/-! ## Frame ticks (R160 to R166, R250) -/

theorem State.convTick_frames (s : State) (c : Nat) (wasSync : Bool) :
    ((s.convTick c wasSync).conv c).frames = (s.conv c).frames + 1 := by
  simp [State.convTick]

@[simp] theorem sameConv_lowPower {s t : State} {c : Nat} : SamePon Pon.conv s (t.lowPower c) ↔ SamePon Pon.conv s t := by
  simp [State.lowPower, ↓samePon_ite]

@[simp] theorem sameFraming_dropEnds {s t : State} {c : Nat} : SamePon Pon.framing s (t.dropEnds c) ↔ SamePon Pon.framing s t := by
  simp [State.dropEnds]

/-- The frames counted stand, whatever power saving does at a frame tick. -/
theorem State.psTick_frames (s : State) (c : Nat) : ((s.psTick c).conv c).frames = (s.conv c).frames := by
  unfold State.psTick
  extract_lets a active u w x
  have hu : SamePon Pon.framing s u := by simp [u, ↓samePon_ite]
  have hw : SamePon Pon.framing s w := by
    unfold w
    split
    · simpa [↓samePon_ite] using hu
    · exact hu
  have hx : SamePon Pon.framing s x := by simpa [x] using hw
  split
  · exact hw.frames c
  · split
    · have hlow : SamePon Pon.conv (x.dropEnds c) ((x.dropEnds c).lowPower c) := by simp
      have hends : SamePon Pon.framing s (x.dropEnds c) := by simpa using hx
      rw [hlow.conv, hends.frames]
    · have hput : SamePon Pon.framing s (x.put PWR_PS_STAT_REJ a 1) := by simpa using hx
      exact hput.frames c

/-- Without an armed entry power saving leaves the framer alone at a frame tick. -/
theorem State.psTick_framing (s : State) (c : Nat) (henter : Tab.get s.pwr.psEnter false c = false) :
    SamePon Pon.framing s (s.psTick c) := by
  unfold State.psTick
  extract_lets a active u w x
  have hu : SamePon Pon.framing s u ∧ u.pwr.psEnter = s.pwr.psEnter := by
    unfold u
    split <;> simp
  have hw : SamePon Pon.framing s w ∧ w.pwr.psEnter = s.pwr.psEnter := by
    unfold w
    split
    · split
      · simpa using hu
      · exact hu
    · exact hu
  rw [if_pos (by simp [hw.2, henter])]
  exact hw.1

theorem frameTick_counts (s : State) (c : Chan) (f : FrameRx) (hrun : s.running = true) (hc : chanExists s.part c.val = true) :
    Completes (.frameTick c f) s fun t => (t.conv c.val).frames = (s.conv c.val).frames + 1 := by
  refine completes_of_event (fun _ => rfl) hrun ?_
  rw [State.conv_kept]
  extract_lets c' lods sync u w x
  rw [if_neg (by simp [c', hc])]
  have hw : SamePon Pon.conv s w := by simp [w, u, ↓samePon_ite]
  have hx : SamePon Pon.framing (w.convTick c' sync) x := by simp [x]
  have hskew : SamePon Pon.framing (x.psTick c') ((x.psTick c').skewTick c' sync) := by simp [State.skewTick, ↓samePon_ite]
  rw [hskew.frames, State.psTick_frames, hx.frames, State.convTick_frames, hw.conv]

/-- In HUNT a PSync within the written tolerance enters PRE_SYNC (R161). -/
theorem State.framerTick_preSync (s : State) (c : Nat) (rx : FrameRx) {e : Nat} (hhunt : (s.framer c).sync = .hunt)
    (hdown : (s.framer c).rxDown = false) (he : rx.psync = some e) (htol : e ≤ s.get PFR_SYNC_CFG_PSYNC_TOL (atChan c)) :
    ((s.framerTick c rx).framer c).sync = .preSync := by
  have htol' : e ≤ (s.commit PFR_SYNC_CFG (atChan c)).getEff PFR_SYNC_CFG_PSYNC_TOL (atChan c) := by
    rw [State.getEff, State.commit, State.rdEff_wrEff_same]
    exact htol
  have hframer : (s.commit PFR_SYNC_CFG (atChan c)).framer c = s.framer c := by
    rw [State.framer, State.framer, State.commit, State.wrEff_pon]
  unfold State.framerTick
  simp [hframer, hdown, hhunt, syncNext, he, htol']

theorem frameTick_entersPreSync (s : State) (c : Chan) (f : FrameRx) (e : Nat) (hrun : s.running = true)
    (hc : chanExists s.part c.val = true) (hen : s.rxEnabled c.val = true) (hhunt : (s.framer c.val).sync = .hunt)
    (hdown : (s.framer c.val).rxDown = false) (he : f.psync = some e) (htol : e ≤ s.get PFR_SYNC_CFG_PSYNC_TOL (atChan c.val))
    (henter : Tab.get s.pwr.psEnter false c.val = false) :
    Completes (.frameTick c f) s fun t => (t.framer c.val).sync = .preSync := by
  refine completes_of_event (fun _ => rfl) hrun ?_
  rw [State.framer_kept]
  extract_lets c' lods sync u w x
  rw [if_neg (by simp [c', hc])]
  have hsync : sync = false := by simp [sync, c', hhunt]
  have hu : u = s.framerTick c.val f := if_pos hen
  have hw : SamePon Pon.framing u w := by simp [w]
  have hx : SamePon Pon.framing (w.convTick c' sync) x := by simp [x]
  have hact : x.pwr = ((w.convTick c' sync).applyCommits c').pwr := Same.pwr (F := activation c') (by simp [x]) (by simp)
  have hmap : ((w.convTick c' sync).applyCommits c').pwr = w.pwr := Same.pwr (F := commits c') (by simp [c', State.convTick]) (by simp)
  have hregs : w.pwr = u.pwr := by simp [w, tickRegs, State.commitAll, State.commit]
  have hframing : u.pwr = s.pwr := Same.pwr (F := Footprint.framing c') (by simp [u, ↓same_ite]) (by simp)
  have hpwr : x.pwr = s.pwr := by rw [hact, hmap, hregs, hframing]
  rw [State.skewTick, hsync, Bool.false_and, if_neg (by simp), (x.psTick_framing c' (by rw [hpwr]; exact henter)).framer, hx.framer,
    State.convTick, State.framer_setConv, hw.framer, hu]
  exact s.framerTick_preSync c.val f hhunt hdown he htol

/-! ## Codewords, windows and thresholds (R173, R180 to R183) -/

theorem codewordDecode_adds (s : State) (c : Chan) (n : Nat) (g : Bool) (hrun : s.running = true)
    (hen : s.rxEnabled c.val = true) (hsync : (s.framer c.val).sync = .sync) :
    Completes (.codewordDecode c n g) s fun t =>
      (t.framer c.val).winSum = satAdd (2 ^ 36 - 1) (s.framer c.val).winSum
        (n + if g then 0 else s.getEff PFR_SFSD_CFG_UCW_WEIGHT (atChan c.val)) ∧
      (t.framer c.val).frameBad = ((s.framer c.val).frameBad || !g) := by
  have hcount (u : State) (ev : Nat) (f : PmBin → PmBin) : (u.countFec c.val ev f).framer c.val = u.framer c.val := by
    unfold State.countFec
    split <;> simp
  refine completes_of_event (fun _ => rfl) hrun ?_
  simp [hen, hsync, hcount]

theorem State.windowStart_zero (s : State) (c : Nat) :
    ((s.windowStart c).framer c).winSum = 0 ∧ ((s.windowStart c).framer c).winFrames = 0 := by
  unfold State.windowStart
  dsimp only
  split
  · simp
  next l _ =>
    have hload (u : State) (l : List (Nat × Word)) :
        SamePon Pon.framing u (l.foldl (fun s x => s.wrEff x.1 (atChan c) x.2) u) := by
      rw [samePon_foldl fun x r => by simp]
      exact .refl
    rw [(hload _ _).framer]
    simp

theorem sfsdWindowEnd_starts (s : State) (c : Chan) (hrun : s.running = true) (hsync : (s.framer c.val).sync = .sync)
    (hwin : s.getEff PFR_SFSD_CFG_WIN (atChan c.val) ≤ (s.framer c.val).winFrames) :
    Completes (.sfsdWindowEnd c) s fun t => (t.framer c.val).winSum = 0 ∧ (t.framer c.val).winFrames = 0 := by
  refine completes_of_event (fun _ => rfl) hrun ?_
  rw [State.framer_kept]
  dsimp only
  rw [if_neg (by simp [hsync, hwin])]
  exact State.windowStart_zero _ c.val

theorem sfsdCommit_waits (s : State) (c : Chan) (hrun : s.running = true) :
    Completes (.sfsdCommit c) s fun t => (t.framer c.val).sfsdPend = some (sfsdRegs.map (fun r => s.rd r (atChan c.val))) := by
  refine completes_of_event (fun _ => rfl) hrun ?_
  simp

/-! ## Defects (R174 to R178) -/

theorem Place.covers_all_ne {r r' : Nat} (a : Nat) (h : r' ≠ r) : (Place.all r).covers r' a = false := by
  simp [Place.covers, h]

/-- A defect that is set or cleared shows in the raw states, with the framer running and the defects not held. -/
theorem State.setDefect_raw (s : State) {c k : Nat} (b : Bool) (hk : k < 6) (hen : s.rxEnabled c = true)
    (hheld : (s.framer c).held = false) : bitOf ((s.setDefect c k b).get PFR_DEF_RAW_V (atChan c)) k = b := by
  rw [State.setDefect, if_neg (by simp [hen, hheld])]
  unfold State.setRaw
  dsimp only
  rw [State.get_congr (State.setPm_regs ..) (State.setPm_part ..), State.get_put_ne _ _ _ _ (by decide),
    State.get_put_ne _ _ _ _ (by decide), State.get_put_ne _ _ _ _ (by decide)]
  exact s.bitOf_get_putBit (f := PFR_DEF_RAW_V) (by decide) (by decide) hk _ _ b

/-- What a change of LODS sets off leaves the raw states alone. -/
theorem State.lodsChange_raw (s : State) (c : Nat) (was : Bool) :
    (s.lodsChange c was).get PFR_DEF_RAW_V (atChan c) = s.get PFR_DEF_RAW_V (atChan c) := by
  have hsame : (activation c).Same s (s.lodsChange c was) := by simp
  exact hsame.get (by simp [Place.covers_one_ne, Place.covers_all_ne])

theorem State.defectChange_raw (s : State) {c k : Nat} (b was : Bool) (hk : k < 6) (hen : s.rxEnabled c = true)
    (hheld : (s.framer c).held = false) :
    bitOf ((s.kept ((s.setDefect c k b).lodsChange c was)).get PFR_DEF_RAW_V (atChan c)) k = b := by
  have hset : (defects c).Same s (s.setDefect c k b) := by simp
  have hlods : (activation c).Same (s.setDefect c k b) ((s.setDefect c k b).lodsChange c was) := by simp
  rw [State.get_kept _ _ (hlods.part.trans hset.part), State.lodsChange_raw, s.setDefect_raw b hk hen hheld]

theorem defectRaise_raises (s : State) (c : Chan) (k : Fin 6) (hrun : s.running = true) (hraises : s.raises c.val k.val = true)
    (hen : s.rxEnabled c.val = true) (hheld : (s.framer c.val).held = false) :
    Completes (.defectRaise c k) s fun t => bitOf (t.get PFR_DEF_RAW_V (atChan c.val)) k.val = true := by
  refine completes_of_event (fun _ => rfl) hrun ?_
  simp only [hraises, if_true]
  exact s.defectChange_raw true _ k.isLt hen hheld

theorem defectClear_clears (s : State) (c : Chan) (k : Fin 6) (hrun : s.running = true) (hclears : s.clears c.val k.val = true)
    (hen : s.rxEnabled c.val = true) (hheld : (s.framer c.val).held = false) :
    Completes (.defectClear c k) s fun t => bitOf (t.get PFR_DEF_RAW_V (atChan c.val)) k.val = false := by
  refine completes_of_event (fun _ => rfl) hrun ?_
  simp only [hclears, if_true]
  exact s.defectChange_raw false _ k.isLt hen hheld

/-! ## Receiver power and the hold (R170, R184, R185) -/

/-- A field of another register than SYNC_STAT and SFC_LO stands while the framer's state is shown. -/
theorem State.get_showFramer_ne (s : State) (c : Nat) {f : Fld} (a : Nat) (hs : f.reg ≠ PFR_SYNC_STAT) (hl : f.reg ≠ PFR_SFC_LO) :
    (s.showFramer c).get f a = s.get f a := by
  have h : Same ⟨[], [.one PFR_SYNC_STAT (atChan c), .one PFR_SFC_LO (atChan c)], []⟩ s (s.showFramer c) := by simp
  exact h.get (by simp [Place.covers_one_ne, hs, hl])

theorem State.get_showFramer_state (s : State) (c : Nat) :
    (s.showFramer c).get PFR_SYNC_STAT_STATE (atChan c) = (s.framer c).code % 4 := by
  unfold State.showFramer
  dsimp only
  rw [State.get, State.rd_wr_ne _ _ _ _ (by decide), ← State.get, State.get_put_apart _ _ _ _ (by decide) (by decide) (by decide),
    State.get_put_apart _ _ _ _ (by decide) (by decide) (by decide), State.get_put_same _ _ _ _ (by decide) (by decide)]
  rfl

theorem State.get_showFramer_valid (s : State) (c : Nat) :
    (s.showFramer c).get PFR_SYNC_STAT_SFC_VALID (atChan c) = s.get PFR_SYNC_STAT_SFC_VALID (atChan c) := by
  unfold State.showFramer
  dsimp only
  rw [State.get, State.rd_wr_ne _ _ _ _ (by decide), ← State.get, State.get_put_apart _ _ _ _ (by decide) (by decide) (by decide),
    State.get_put_apart _ _ _ _ (by decide) (by decide) (by decide), State.get_put_apart _ _ _ _ (by decide) (by decide) (by decide)]

theorem receiverPowerDown_holds (s : State) (c : Chan) (hrun : s.running = true) (hc : chanExists s.part c.val = true) :
    Completes (.receiverPowerDown c) s fun t => t.get PFR_SYNC_STAT_STATE (atChan c.val) = 3 ∧
      t.is PWR_PS_STAT_RX_ON (d0i c.val) = false ∧ (t.framer c.val).rxDown = true := by
  have hpart : (s.rxPowerDown c.val).part = s.part := Same.part (F := powerDown c.val) (by simp)
  refine completes_of_event (fun _ => rfl) hrun ?_
  simp only [hc, if_true]
  rw [State.get_kept _ _ hpart, State.is_kept _ _ hpart, State.framer_kept, State.rxPowerDown]
  refine ⟨?_, ?_, by simp⟩
  · rw [State.get_showFramer_state]
    simp [Framer.code]
  · rw [State.is, State.get_showFramer_ne _ _ _ (by decide) (by decide), State.get_put_same _ _ _ _ (by decide) (by decide)]
    rfl

theorem receiverPowerUp_hunts (s : State) (c : Chan) (hrun : s.running = true) (hdown : (s.framer c.val).rxDown = true) :
    Completes (.receiverPowerUp c) s fun t => t.is PWR_PS_STAT_RX_ON (d0i c.val) = true ∧ (t.framer c.val).rxDown = false ∧
      (t.framer c.val).sync = .hunt ∧ (t.framer c.val).grace = 0 ∧ t.is PFR_SYNC_STAT_SFC_VALID (atChan c.val) = false := by
  have hpart : (s.rxPowerUp c.val).part = s.part :=
    Same.part (F := ⟨[.pon], [.one PFR_SFC_LO (atChan c.val), .one PFR_SYNC_STAT (atChan c.val), .one PWR_PS_STAT (d0i c.val)], []⟩)
      (by simp)
  refine completes_of_event (fun _ => rfl) hrun ?_
  rw [State.is_kept _ _ hpart, State.is_kept _ _ hpart, State.framer_kept, State.rxPowerUp]
  extract_lets w
  rw [if_neg (by simp [hdown])]
  generalize hv : (if w.rxEnabled c.val then w else w.endHold c.val) = v
  have hframer : (v.framer c.val).rxDown = false ∧ (v.framer c.val).sync = .hunt ∧ (v.framer c.val).grace = 0 := by
    subst hv
    split <;> simp [w, State.endHold]
  have hvalid : v.get PFR_SYNC_STAT_SFC_VALID (atChan c.val) = 0 := by
    have hends : v.get PFR_SYNC_STAT_SFC_VALID (atChan c.val) = w.get PFR_SYNC_STAT_SFC_VALID (atChan c.val) := by
      subst hv
      split
      · rfl
      · exact State.get_congr (by simp [State.endHold]) (by simp [State.endHold]) _ _
    rw [hends]
    exact State.get_put_same _ _ _ _ (by decide) (by decide)
  rw [State.framer_showFramer, State.framer_put, State.is, State.is, State.get_showFramer_valid,
    State.get_put_ne _ _ _ _ (by decide), hvalid, State.get_showFramer_ne _ _ _ (by decide) (by decide),
    State.get_put_same _ _ _ _ (by decide) (by decide)]
  exact ⟨rfl, hframer.1, hframer.2.1, hframer.2.2, rfl⟩

theorem State.endHold_framer (s : State) (c : Nat) : (s.endHold c).framer c = { s.framer c with held := false } := by
  simp [State.endHold]

theorem wakeGraceEnd_ends (s : State) (c : Chan) (hrun : s.running = true) (hheld : (s.framer c.val).held = true)
    (hdown : (s.framer c.val).rxDown = false)
    (hend : (s.framer c.val).sync = .sync ∨ s.getEff PFR_SYNC_CFG_WAKE_GRACE (atChan c.val) ≤ (s.framer c.val).grace) :
    Completes (.wakeGraceEnd c) s fun t => (t.framer c.val).held = false := by
  refine completes_of_event (fun _ => rfl) hrun ?_
  rw [State.framer_kept]
  extract_lets c' f was ok u w x y
  rw [if_neg (by simpa [f, c', hheld, hdown, or_iff_not_imp_left] using hend)]
  have hy : SamePon Pon.framing u y := by simp [y, x, w, ↓samePon_ite]
  rw [State.framer_showFramer, hy.framer, s.endHold_framer]

theorem sfcLoRead_answers (s : State) (q : Requester) (c : Chan) (hrun : s.running = true) :
    Completes (.sfcLoRead q c) s fun t => (t.answerOf (reqCode q)).data.toNat = (s.framer c.val).sfc.toNat % 2 ^ 32 ∧
      t.get PFR_SFC_HI_V (atChan c.val) = (s.framer c.val).sfc.toNat / 2 ^ 32 := by
  have hsfc := (s.framer c.val).sfc.isLt
  refine completes_of_event (fun _ => rfl) hrun ?_
  rw [State.get_kept _ _ (by simp), State.get_answer, State.get_put_same _ _ _ _ (by decide) (by decide)]
  refine ⟨?_, Nat.mod_eq_of_lt ?_⟩
  · rw [State.answerOf_kept]
    dsimp only
    rw [State.answerOf_answer, BitVec.toNat_ofNat]
    omega
  · change _ < 2 ^ 19
    omega

/-- Settles O5: frame ticks count and find the PSync, codewords and windows sum, defects follow their criteria, and a receiver's
power holds and frees its framer. -/
theorem framerAndDefectEventsComplete : Obligations.FramerAndDefectEventsComplete :=
  ⟨frameTick_counts, frameTick_entersPreSync, codewordDecode_adds, defectRaise_raises, defectClear_clears, sfsdWindowEnd_starts,
    sfsdCommit_waits, receiverPowerDown_holds, receiverPowerUp_hunts, wakeGraceEnd_ends, sfcLoRead_answers⟩

end Sys2Proof.Machine
end

section
/-!
Performance bins: seconds, closing and history, and the words of a snapshot (R187 to R201).
-/
namespace Sys2Proof.Machine
open Reg Footprint

/-! ## Words that a command writes -/

/-- An RW field takes a legal value that firmware writes (R8). -/
theorem State.bits_fwWrite (s : State) {r a : Nat} {v : Word} {f : FieldDesc} (hf : f ∈ regFields s.part r a v) (hrw : f.acc = .rw)
    (hlegal : f.legal (bits v f.hi f.lo) = true) :
    bits ((s.fwWrite r a v).rd r a) f.hi f.lo = bits v f.hi f.lo := by
  have htook := took_writeWord ((regFields_like s.part r a v).apart (regDesc_fields r).1) (Config.freeReserved s.fresh) (s.rd r a) v 0 hf
  rw [State.fwWrite, State.rd_fwWriteFields]
  simpa [FieldDesc.took, hrw, hlegal] using htook

/-- A word of an array of n words that were written one after another at places apart. -/
theorem State.rd_foldl_wr (s : State) (r : Nat) (at_ : Nat → Nat) (w : Nat → Word) {n k : Nat}
    (hapart : ∀ i < n, ∀ j < n, i ≠ j → at_ i % 2 ^ 28 ≠ at_ j % 2 ^ 28) (hk : k < n) :
    ((List.range n).foldl (fun u i => u.wr r (at_ i) (w i)) s).rd r (at_ k) = w k := by
  induction n with
  | zero => omega
  | succ n ih =>
    rw [List.range_succ, List.foldl_append, List.foldl_cons, List.foldl_nil]
    by_cases hkn : k = n
    · subst hkn
      exact State.rd_wr_same ..
    · rw [State.rd_wr_at _ _ _ (hapart k hk n (by omega) hkn)]
      exact ih (fun i hi j hj => hapart i (by omega) j (by omega)) (by omega)

/-! ## The monitor of a channel -/

section
variable {s t : State} {c : Nat}

@[simp] theorem State.pm_put (s : State) (f : Fld) (a v c : Nat) : (s.put f a v).pm c = s.pm c := by
  rw [State.pm, State.pm, State.put_pon]

@[simp] theorem State.pm_commitAll (s : State) (l : List (Nat × Nat)) (c : Nat) : (s.commitAll l).pm c = s.pm c := by
  have h : SamePon Pon.pm s (s.commitAll l) := by simp
  rw [State.pm, State.pm, show (s.commitAll l).pon.pm = s.pon.pm from h]

@[simp] theorem State.pm_fwWrite (s : State) (r a : Nat) (v : Word) (c : Nat) : (s.fwWrite r a v).pm c = s.pm c := by
  have h : Same ⟨[], [.all r], []⟩ s (s.fwWrite r a v) := by simp
  rw [State.pm, State.pm, h.pon (by simp)]

end

/-- The fifteen-minute bin in progress closes, in modes and with marks as told. -/
def Pm.closed15 (p : Pm) (frm fec suspect short : Bool) : Pm :=
  match p.cur15 with
  | none => p
  | some b =>
    { p with cur15 := none, n15 := p.n15 + 1, waiting := p.waiting ++ [(false, closeBin b frm fec (p.n15 + 1) suspect short)] }

/-- The day bin in progress closes likewise. -/
def Pm.closedDay (p : Pm) (frm fec suspect short : Bool) : Pm :=
  match p.curDay with
  | none => p
  | some b =>
    { p with curDay := none, nDay := p.nDay + 1, waiting := p.waiting ++ [(true, closeBin b frm fec (p.nDay + 1) suspect short)] }

section
variable (p : Pm) (frm fec suspect short : Bool)

@[simp] theorem Pm.closed15_secs : (p.closed15 frm fec suspect short).secs = p.secs := by
  unfold Pm.closed15; split <;> rfl
@[simp] theorem Pm.closed15_pend : (p.closed15 frm fec suspect short).pend = p.pend := by
  unfold Pm.closed15; split <;> rfl
@[simp] theorem Pm.closed15_curDay : (p.closed15 frm fec suspect short).curDay = p.curDay := by
  unfold Pm.closed15; split <;> rfl
@[simp] theorem Pm.closed15_cur15 : (p.closed15 frm fec suspect short).cur15 = none := by
  unfold Pm.closed15; split <;> simp_all
@[simp] theorem Pm.closedDay_secs : (p.closedDay frm fec suspect short).secs = p.secs := by
  unfold Pm.closedDay; split <;> rfl
@[simp] theorem Pm.closedDay_pend : (p.closedDay frm fec suspect short).pend = p.pend := by
  unfold Pm.closedDay; split <;> rfl
@[simp] theorem Pm.closedDay_cur15 : (p.closedDay frm fec suspect short).cur15 = p.cur15 := by
  unfold Pm.closedDay; split <;> rfl
@[simp] theorem Pm.closedDay_curDay : (p.closedDay frm fec suspect short).curDay = none := by
  unfold Pm.closedDay; split <;> simp_all

end

section
variable (s : State) (c : Nat) (suspect short : Bool)

theorem State.pm_pmClose15 : (s.pmClose15 c suspect short).pm c =
    (s.pm c).closed15 (s.isEff PFR_PM_CFG_FRM_MODE (atChan c)) (s.isEff PFR_PM_CFG_FEC_MODE (atChan c)) suspect short := by
  cases h : (s.pm c).cur15 <;> simp [State.pmClose15, Pm.closed15, h]

theorem State.pm_pmCloseDay : (s.pmCloseDay c suspect short).pm c =
    (s.pm c).closedDay (s.isEff PFR_PM_CFG_FRM_MODE (atChan c)) (s.isEff PFR_PM_CFG_FEC_MODE (atChan c)) suspect short := by
  cases h : (s.pm c).curDay <;> simp [State.pmCloseDay, Pm.closedDay, h]

/-- Closing changes neither the seconds counted nor the classifications that wait. -/
theorem State.pmClose_secs (quarter day : Bool) : ((s.pmClose c quarter day suspect short).pm c).secs = (s.pm c).secs := by
  have h15 : ((if quarter then s.pmClose15 c suspect short else s).pm c).secs = (s.pm c).secs := by
    split <;> simp [State.pm_pmClose15]
  have hday (u : State) : ((if day then u.pmCloseDay c suspect short else u).pm c).secs = (u.pm c).secs := by
    split <;> simp [State.pm_pmCloseDay]
  unfold State.pmClose
  dsimp only
  split
  · rw [State.pm_commitAll, hday, h15]
  · rw [hday, h15]

/-- Both bins close. -/
theorem State.pm_pmClose_both : ∃ frm fec frm' fec', (s.pmClose c true true suspect short).pm c =
    ((s.pm c).closed15 frm fec suspect short).closedDay frm' fec' suspect short := by
  have hpm : (s.pmClose c true true suspect short).pm c = ((s.pmClose15 c suspect short).pmCloseDay c suspect short).pm c := by
    simp only [State.pmClose, if_true]
    split <;> simp
  exact ⟨_, _, _, _, hpm.trans (by rw [State.pm_pmCloseDay, State.pm_pmClose15])⟩

end

/-! ## Classifications and history -/

theorem Pm.finalOne_pend (p : Pm) : p.finalOne.pend = p.pend.tail := by
  cases h : p.pend <;> simp [Pm.finalOne, h]

theorem Pm.finalOne_bins (p : Pm) :
    p.finalOne.cur15.isSome = p.cur15.isSome ∧ p.finalOne.curDay.isSome = p.curDay.isSome := by
  cases h : p.pend <;> simp [Pm.finalOne, h]

theorem Pm.finalAll_pend (n : Nat) (p : Pm) : (Pm.finalAll n p).pend = p.pend.drop n := by
  induction n generalizing p with
  | zero => rfl
  | succ n ih => rw [Pm.finalAll, ih, p.finalOne_pend, List.drop_tail]

theorem Pm.finalAll_bins (n : Nat) (p : Pm) :
    (Pm.finalAll n p).cur15.isSome = p.cur15.isSome ∧ (Pm.finalAll n p).curDay.isSome = p.curDay.isSome := by
  induction n generalizing p with
  | zero => exact ⟨rfl, rfl⟩
  | succ n ih =>
    obtain ⟨h15, hday⟩ := ih p.finalOne
    exact ⟨h15.trans p.finalOne_bins.1, hday.trans p.finalOne_bins.2⟩

/-- Writing to history leaves the bins in progress, those that wait and the classifications alone. -/
theorem Pm.writeOut_keeps (l : List (Bool × PmBin)) (p : Pm) :
    (p.writeOut l).cur15 = p.cur15 ∧ (p.writeOut l).curDay = p.curDay ∧ (p.writeOut l).waiting = p.waiting ∧
      (p.writeOut l).pend = p.pend := by
  induction l generalizing p with
  | nil => exact ⟨rfl, rfl, rfl, rfl⟩
  | cons x l ih =>
    obtain ⟨_ | _, b⟩ := x
    · exact ih _
    · exact ih _

theorem Pm.writeOut_append (l m : List (Bool × PmBin)) (p : Pm) : p.writeOut (l ++ m) = (p.writeOut l).writeOut m := by
  induction l generalizing p with
  | nil => rfl
  | cons x l ih =>
    obtain ⟨_ | _, b⟩ := x
    · exact ih _
    · exact ih _

/-- A bin in progress that closes with the mark SHORT and is written out with those that wait is the head of its history. -/
theorem Pm.closed_heads (p : Pm) (frm fec frm' fec' suspect : Bool) :
    let w := (p.closed15 frm fec suspect true).closedDay frm' fec' suspect true
    let t := { w with waiting := [] }.writeOut w.waiting
    (p.cur15.isSome = true → t.hist15.head?.map (·.short) = some true ∧ w.waiting.any (fun x => !x.1) = true) ∧
      (p.curDay.isSome = true → t.histDay.head?.map (·.short) = some true ∧ w.waiting.any (fun x => x.1) = true) := by
  cases h15 : p.cur15 <;> cases hday : p.curDay <;>
    simp [Pm.closed15, Pm.closedDay, h15, hday, Pm.writeOut_append, Pm.writeOut, closeBin]

@[simp] theorem State.pm_pmFlush (s : State) (c : Nat) :
    (s.pmFlush c).pm c = { s.pm c with waiting := [] }.writeOut (s.pm c).waiting := by
  simp [State.pmFlush]

/-- BIN15 and BINDAY are set by a flush that writes a bin of their length. -/
theorem State.pmFlush_sets (s : State) (c : Nat) :
    ((s.pm c).waiting.any (fun x => !x.1) = true → (s.pmFlush c).is PFR_PM_STAT_BIN15 (atChan c) = true) ∧
      ((s.pm c).waiting.any (fun x => x.1) = true → (s.pmFlush c).is PFR_PM_STAT_BINDAY (atChan c) = true) := by
  have hget (u : State) (q : Pm) (f : Fld) : (u.setPm c q).get f (atChan c) = u.get f (atChan c) :=
    State.get_congr (by simp) (by simp) _ _
  unfold State.pmFlush
  dsimp only
  refine ⟨fun h => ?_, fun h => ?_⟩
  · rw [if_pos h, State.is, hget]
    split
    · rw [State.get_put_apart _ _ _ _ (by decide) (by decide) (by decide), State.get_put_same _ _ _ _ (by decide) (by decide)]
      rfl
    · rw [State.get_put_same _ _ _ _ (by decide) (by decide)]
      rfl
  · rw [if_pos h, State.is, hget, State.get_put_same _ _ _ _ (by decide) (by decide)]
    rfl

/-! ## The commands -/

theorem pmSecondEnd_counts (s : State) (c : Chan) (hrun : s.running = true) (hen : s.is PFR_PM_CFG_EN (atChan c.val) = true)
    (hbase : s.isEff PFR_PM_CFG_TIMEBASE (atChan c.val) = true ∨ s.is TIME_CFG_EN d0 = true) :
    Completes (.pmSecondEnd c) s fun t => (t.pm c.val).secs = (s.pm c.val).secs + 1 ∧ (t.pm c.val).cur15.isSome = true ∧
      (t.pm c.val).curDay.isSome = true := by
  have hcount : ((s.pmCountSecond c.val).pm c.val).secs = (s.pm c.val).secs := by
    unfold State.pmCountSecond
    dsimp only
    split <;> simp [Pm.bins]
  have hstart (u : State) (n : Nat) (short : Bool) :
      let p := ((u.pmStart c.val n short).pmNewSecond c.val).pm c.val
      p.secs = (u.pm c.val).secs ∧ p.cur15.isSome = true ∧ p.curDay.isSome = true := by
    cases h15 : (u.pm c.val).cur15 <;> cases hday : (u.pm c.val).curDay <;> simp [State.pmStart, State.pmNewSecond, h15, hday]
  refine completes_of_event (fun _ => rfl) hrun ?_
  rw [State.pm_kept]
  extract_lets c' a u p w n x
  rw [if_neg (by simpa [a, c', hen, or_iff_not_imp_left] using hbase)]
  obtain ⟨hsecs, h15, hday⟩ := hstart x (x.pmNow c') (x.pm c').starting
  refine ⟨hsecs.trans ?_, h15, hday⟩
  rw [State.pmClose_secs, State.pm_setPm_same, hcount]

theorem pmClassificationFinal_takes (s : State) (c : Chan) (hrun : s.running = true) (hpend : 10 ≤ (s.pm c.val).pend.length) :
    Completes (.pmClassificationFinal c) s fun t => (t.pm c.val).pend = (s.pm c.val).pend.tail := by
  refine completes_of_event (fun _ => rfl) hrun ?_
  simp [hpend, Pm.finalOne_pend]

theorem pmHistoryWrite_writes (s : State) (c : Chan) (y : Bool) (x : Bool × PmBin) (hrun : s.running = true)
    (hx : (s.pm c.val).waiting.find? (fun x => x.1 == y) = some x) :
    Completes (.pmHistoryWrite c y) s fun t =>
      (if y then (t.pm c.val).histDay else (t.pm c.val).hist15).head? = some x.2 ∧
      (t.pm c.val).waiting = (s.pm c.val).waiting.erase x ∧
      t.is (if y then PFR_PM_STAT_BINDAY else PFR_PM_STAT_BIN15) (atChan c.val) = true := by
  have hy : x.1 = y := by simpa using List.find?_some hx
  obtain ⟨y', b⟩ := x
  subst hy
  refine completes_of_event (fun _ => rfl) hrun ?_
  simp only [hx]
  cases y' <;> simp [Pm.writeOut, State.is]

/-- The monitor is enabled as a write of PM_CFG says (R190). -/
theorem State.is_fwWrite_pmEn (s : State) (a : Nat) (v : Word) (b : Bool) :
    (s.fwWrite PFR_PM_CFG a (setBits v 31 31 (b2n b))).is PFR_PM_CFG_EN a = b := by
  have hfields : regFields s.part PFR_PM_CFG a (setBits v 31 31 (b2n b)) = (regDesc PFR_PM_CFG).fields := by simp [regFields]
  have hbits : bits (setBits v 31 31 (b2n b)) 31 31 = b2n b := by
    rw [bits_setBits_same _ _ _ _ (by decide) (by decide)]
    cases b <;> rfl
  have hlegal : (RegTable.fd 31 31 .rw 0).legal (bits (setBits v 31 31 (b2n b)) 31 31) = true := by
    rw [hbits]
    cases b <;> rfl
  have hen : bits ((s.fwWrite PFR_PM_CFG a (setBits v 31 31 (b2n b))).rd PFR_PM_CFG a) 31 31 =
      bits (setBits v 31 31 (b2n b)) 31 31 :=
    s.bits_fwWrite (f := RegTable.fd 31 31 .rw 0) (by rw [hfields]; decide) rfl hlegal
  rw [State.is, State.get, hen, hbits]
  cases b <;> rfl

theorem pmEnable_starts (s : State) (c : Chan) (v : Word) (hrun : s.running = true) (hen : s.is PFR_PM_CFG_EN (atChan c.val) = false) :
    Completes (.pmEnable c v) s fun t => t.is PFR_PM_CFG_EN (atChan c.val) = true ∧ (t.pm c.val).starting = true ∧
      (t.pm c.val).secs = 0 := by
  have hset : (s.fwWrite PFR_PM_CFG (atChan c.val) (setBits v 31 31 1)).is PFR_PM_CFG_EN (atChan c.val) = true :=
    s.is_fwWrite_pmEn (atChan c.val) v true
  refine completes_of_event (fun _ => rfl) hrun ?_
  extract_lets a was u
  have hmodes (w : Pm) : Same (modes c.val) u ((u.commitAll [(PFR_PM_CFG, a), (PFR_PM_SES, a)]).setPm c.val w) := by
    simp [State.commitAll, a]
  have hu : u.part = s.part := by simp [u]
  rw [if_neg (by simp [was, a, hen]), State.is_kept _ _ ((hmodes _).part.trans hu), (hmodes _).is (by simp), hset]
  simp

theorem pmDisable_clears (s : State) (c : Chan) (v : Word) (hrun : s.running = true) (hen : s.is PFR_PM_CFG_EN (atChan c.val) = true) :
    Completes (.pmDisable c v) s fun t => t.is PFR_PM_CFG_EN (atChan c.val) = false ∧ (t.pm c.val).cur15 = none ∧
      (t.pm c.val).curDay = none ∧ (t.pm c.val).waiting = [] ∧ (t.pm c.val).pend = [] ∧
      ((s.pm c.val).cur15.isSome = true →
        (t.pm c.val).hist15.head?.map (·.short) = some true ∧ t.is PFR_PM_STAT_BIN15 (atChan c.val) = true) ∧
      ((s.pm c.val).curDay.isSome = true →
        (t.pm c.val).histDay.head?.map (·.short) = some true ∧ t.is PFR_PM_STAT_BINDAY (atChan c.val) = true) := by
  have hset : (s.fwWrite PFR_PM_CFG (atChan c.val) (setBits v 31 31 0)).is PFR_PM_CFG_EN (atChan c.val) = false :=
    s.is_fwWrite_pmEn (atChan c.val) v false
  refine completes_of_event (fun _ => rfl) hrun ?_
  extract_lets a was u p off q r
  rw [if_neg (by simp [was, a, hen])]
  have hr : r.pend = [] ∧ r.cur15.isSome = (s.pm c.val).cur15.isSome ∧ r.curDay.isSome = (s.pm c.val).curDay.isSome := by
    have hp : p = s.pm c.val := s.pm_fwWrite _ _ _ _
    obtain ⟨h15, hday⟩ := (s.pm c.val).finalAll_bins (s.pm c.val).pend.length
    simp [r, Pm.bins, q, hp, Pm.finalAll_pend, h15, hday]
  obtain ⟨hpend, h15, hday⟩ := hr
  generalize hy : (u.setPm c.val r).pmClose c.val true true false true = y
  have hpm : ∃ frm fec frm' fec', y.pm c.val = (r.closed15 frm fec false true).closedDay frm' fec' false true := by
    obtain ⟨frm, fec, frm', fec', hclose⟩ := (u.setPm c.val r).pm_pmClose_both c.val false true
    exact ⟨frm, fec, frm', fec', by rw [← hy, hclose, State.pm_setPm_same]⟩
  obtain ⟨frm, fec, frm', fec', hpm⟩ := hpm
  obtain ⟨hhead15, hheadday⟩ := r.closed_heads frm fec frm' fec' false
  rw [← hpm] at hhead15 hheadday
  obtain ⟨hset15, hsetday⟩ := y.pmFlush_sets c.val
  obtain ⟨hcur15, hcurday, hwait, hpend'⟩ := Pm.writeOut_keeps (y.pm c.val).waiting { y.pm c.val with waiting := [] }
  have hsame : Same ⟨[.pon], [.one PFR_PM_STAT (atChan c.val)], (modes c.val).inEffect⟩ u (y.pmFlush c.val) := by
    simp [← hy, same_pmFlush_status, same_pmClose_modes]
  have hpart : (y.pmFlush c.val).part = s.part := hsame.part.trans (by simp [u])
  rw [State.pm_kept, State.is_kept _ _ hpart, State.is_kept _ _ hpart, State.is_kept _ _ hpart, State.pm_pmFlush,
    hsame.is (by simp [Place.covers_one_ne]), hcur15, hcurday, hwait, hpend']
  refine ⟨hset, by simp [hpm], by simp [hpm], rfl, by simp [hpm, hpend], fun h => ?_, fun h => ?_⟩
  · obtain ⟨hhead, hany⟩ := hhead15 (h15.trans h)
    exact ⟨hhead, hset15 hany⟩
  · obtain ⟨hhead, hany⟩ := hheadday (hday.trans h)
    exact ⟨hhead, hsetday hany⟩

theorem Footprint.Same.isEff {F : Footprint} {s t : State} (h : F.Same s t) {f : Fld} {a : Nat}
    (hf : ∀ p ∈ F.inEffect, p.covers f.reg a = false) : t.isEff f a = s.isEff f a := by
  rw [State.isEff, State.isEff, State.getEff, State.getEff, h.rdEff hf]

/-- What a snapshot of performance data changes. -/
abbrev snapshots (c : Nat) : Footprint := ⟨[], [.one PFR_PM_SEL (atChan c), .all PFR_PM_W], []⟩

/-- The words of a snapshot lie apart. -/
theorem snapWords_apart (c : Chan) : ∀ i < 13, ∀ j < 13, i ≠ j →
    place (chanDie c.val) (c.val * 13 + i) % 2 ^ 28 ≠ place (chanDie c.val) (c.val * 13 + j) % 2 ^ 28 := by
  intro i hi j hj hij
  have hc := c.isLt
  have hd := chanDie_lt c
  unfold place
  omega

/-- A selection of the fifteen-minute bin in progress reads back as written (R199). -/
theorem State.get_fwWrite_pmSel (s : State) (a : Nat) {v : Word} (hday : bits v 16 16 = 0) (hindex : bits v 5 0 = 0) :
    (s.fwWrite PFR_PM_SEL a v).get PFR_PM_SEL_DAY a = 0 ∧ (s.fwWrite PFR_PM_SEL a v).get PFR_PM_SEL_INDEX a = 0 := by
  have hbit : v.getLsbD 16 = false := by
    rw [← bits_beq_one, hday]
    rfl
  have hfields : regFields s.part PFR_PM_SEL a v = (regDesc PFR_PM_SEL).fields := by
    simp [regFields, show v[16] = false from hbit]
  constructor
  · refine (s.bits_fwWrite (r := PFR_PM_SEL) (f := RegTable.fd 16 16 .rw 0) (by rw [hfields]; decide) rfl ?_).trans hday
    exact (congrArg (RegTable.fd 16 16 .rw 0).legal hday).trans rfl
  · refine (s.bits_fwWrite (r := PFR_PM_SEL) (f := RegTable.fr 5 0 .rw 0 0 32) (by rw [hfields]; decide) rfl ?_).trans hindex
    exact (congrArg (RegTable.fr 5 0 .rw 0 0 32).legal hindex).trans rfl

theorem pmSnap_copies (s : State) (c : Chan) (v : Word) (b : PmBin) (hrun : s.running = true)
    (hday : bits v PFR_PM_SEL_DAY.hi PFR_PM_SEL_DAY.lo = 0) (hindex : bits v PFR_PM_SEL_INDEX.hi PFR_PM_SEL_INDEX.lo = 0)
    (hb : (s.pm c.val).cur15 = some b) :
    Completes (.pmSnap c v) s fun t => ∀ k < 13, t.rd PFR_PM_W (place (chanDie c.val) (c.val * 13 + k)) =
      BitVec.ofNat 32 (({ b with
        frmSec := s.isEff PFR_PM_CFG_FRM_MODE (atChan c.val), fecSec := s.isEff PFR_PM_CFG_FEC_MODE (atChan c.val)
        closed := (s.pm c.val).n15, chOff := b.chOff || (s.pm c.val).off || !s.rxEnabled c.val }.words true).getD k 0) := by
  obtain ⟨hd, hi⟩ := s.get_fwWrite_pmSel (atChan c.val) hday hindex
  have hsel : Same ⟨[], [.one PFR_PM_SEL (atChan c.val)], []⟩ s (s.fwWrite PFR_PM_SEL (atChan c.val) v) := by simp
  refine completes_of_event (fun _ => rfl) hrun ?_
  extract_lets a u p day i frm fec bin words w
  have hday : day = false := by rw [show day = (u.get PFR_PM_SEL_DAY a == 1) from rfl, hd]; rfl
  have hi : i = 0 := hi
  have hp : p = s.pm c.val := s.pm_fwWrite _ _ _ _
  have hfrm : frm = s.isEff PFR_PM_CFG_FRM_MODE a := hsel.isEff (by simp)
  have hfec : fec = s.isEff PFR_PM_CFG_FEC_MODE a := hsel.isEff (by simp)
  have hrx : u.rxEnabled c.val = s.rxEnabled c.val := hsel.is (by simp [Place.covers_one_ne])
  -- The selection stays opaque, or the kernel evaluates the write to decide the conditions on it.
  clear_value day i frm fec p
  have hwords : words = ({ b with
      frmSec := frm, fecSec := fec, closed := p.n15, chOff := b.chOff || p.off || !u.rxEnabled c.val }.words true) := by
    simp [words, bin, hi, hday, hp, hb]
  have hpart : ((List.range 13).foldl (fun s k =>
      s.wr PFR_PM_W (place (chanDie c.val) (c.val * 13 + k)) (BitVec.ofNat 32 (words.getD k 0))) w).part = s.part := by
    have hw : (snapshots c.val).Same s w := by simp [w, u, a, ↓same_ite, ↓same_fresh]
    exact Same.part ((same_foldl (F := snapshots c.val) (fun x k => by simp) (List.range 13)).2 hw)
  intro k hk
  rw [State.rd_kept _ _ hpart, State.rd_foldl_wr w PFR_PM_W _ _ (snapWords_apart c) hk, hwords, hfrm, hfec, hrx, hp]

/-- Settles O6: seconds count and classify, closed bins become history, and a snapshot copies the bin in progress. -/
theorem performanceBinsComplete : Obligations.PerformanceBinsComplete :=
  ⟨pmSecondEnd_counts, pmClassificationFinal_takes, pmHistoryWrite_writes, pmEnable_starts, pmDisable_clears, pmSnap_copies⟩

end Sys2Proof.Machine
end

section
/-!
Activation: firmware requests and timer expiries, each with its effect (R205 to R214).
-/
namespace Sys2Proof.Machine
open Reg Footprint

/-! ## Transitions (R205, R213, R214) -/

/-- What follows once a channel's new activation state is shown. -/
abbrev settling (c : Nat) : Footprint :=
  ⟨[.pon, .tm, .pmc, .dram],
    [.one EST_GRANT_EVT (atChan c), .one EST_CNT_STATE (atChan c), .one BOND_EVT d0, .one BOND_CNT_UP_GAP d0,
      .one BOND_GROUP_STAT d0, .all TM_POOL_OCC, .all TM_CLS_OCC, .all TM_CLS_HWM, .all TM_PORT_OCC, .all RSV_FREE], []⟩

theorem State.setAct_same (s : State) (c n : Nat) : Same (settling c) (s.put PTC_ACT_STAT_STATE (atChan c) n) (s.setAct c n) := by
  simp [State.setAct, ↓same_ite]

@[simp] theorem State.setAct_part (s : State) (c n : Nat) : (s.setAct c n).part = s.part :=
  (s.setAct_same c n).part.trans (by simp)

/-- A transition shows the new state (R205). -/
theorem State.actState_setAct (s : State) (c : Nat) {n : Nat} (hn : n < 8) : (s.setAct c n).actState c = n := by
  rw [State.actState, (s.setAct_same c n).get (by simp [Place.covers_one_ne, Place.covers_all_ne]),
    State.get_put_same _ _ _ _ (by decide) (by decide)]
  exact Nat.mod_eq_of_lt hn

/-- A flag that is put below the field STATE leaves it as it was. -/
theorem State.actState_put (s : State) (c : Nat) {f : Fld} (a v : Nat) (hl : f.lo ≤ f.hi) (hh : f.hi < 29) :
    (s.put f a v).actState c = s.actState c :=
  s.get_put_apart _ _ _ hl (by omega) (.inr hh)

theorem State.actState_kept (s t : State) (h : t.part = s.part) (c : Nat) : (s.kept t).actState c = t.actState c :=
  s.get_kept t h _ _

/-! ## Requests of firmware (R207 to R211) -/

theorem Completes.imp {c : Instr} {s : State} {p q : State → Prop} (h : Completes c s p) (hpq : ∀ t, p t → q t) : Completes c s q := by
  obtain ⟨t, hexec, ht⟩ := h
  exact ⟨t, hexec, hpq t ht⟩

/-- A request is taken: Table 5.3 lists it, and it asks for O7 or stands outside BOOT with EN in effect. -/
def State.requestTaken (s : State) (c want : Nat) : Bool :=
  requestListed (s.actState c) want && (want == 6 || (s.get HW_OPMODE_MODE d0 != 1 && s.isEff PTC_ACT_CTL_EN (atChan c)))

section
variable (s : State) (c want : Nat) (v : Word)

/-- The write of ACT_CTL that carries a request leaves what the request is judged by. -/
theorem State.request_same : Same ⟨[], [.one PTC_ACT_CTL (atChan c)], []⟩ s (s.fwWrite PTC_ACT_CTL (atChan c) (setBits v 26 24 want)) := by
  simp

theorem State.request_part : (s.request c want v).part = s.part :=
  Same.part (F := ⟨(activation c).areas, .one PTC_ACT_CTL (atChan c) :: (activation c).stored, []⟩) (by simp)

/-- A request is judged in the state before it and acts in the one that its write leaves. -/
theorem State.request_eq : s.request c want v =
    let u := s.fwWrite PTC_ACT_CTL (atChan c) (setBits v 26 24 want)
    if s.requestTaken c want then
      let t := (u.setAct c want).put PTC_ACT_STAT_REJECT (atChan c) 0
      if want = 6 then t.put PTC_ACT_STAT_O7_ENTRY (atChan c) 1 else t
    else (u.put PTC_ACT_STAT_REJECT (atChan c) 1).put PTC_ACT_STAT_CMD_REJ (atChan c) 1 := by
  have hsame := s.request_same c want v
  have hjudged : (s.fwWrite PTC_ACT_CTL (atChan c) (setBits v 26 24 want)).requestTaken c want = s.requestTaken c want := by
    rw [State.requestTaken, State.requestTaken, State.actState, State.actState, hsame.get (by simp [Place.covers_one_ne]),
      hsame.get (by simp [Place.covers_one_ne]), hsame.isEff (by simp)]
  rw [← hjudged]
  rfl

end

section
variable {s : State} {cmd : Instr} {c want : Nat} {v : Word}

/-- A request that is taken moves the channel and clears REJECT; one for O7 sets O7_ENTRY. -/
theorem request_moves (hc : ∀ s, exec cmd s = s.event fun s => s.request c want v) (hrun : s.running = true) (hwant : want < 8)
    (htaken : s.requestTaken c want = true) :
    Completes cmd s fun t => t.actState c = want ∧ (want = 6 → t.is PTC_ACT_STAT_O7_ENTRY (atChan c) = true) ∧
      t.is PTC_ACT_STAT_REJECT (atChan c) = false := by
  refine completes_of_event hc hrun ?_
  have hpart := s.request_part c want v
  rw [State.actState_kept _ _ hpart, State.is_kept _ _ hpart, State.is_kept _ _ hpart, State.request_eq, htaken]
  by_cases hseven : want = 6
  · simp [hseven, State.actState_put, State.actState_setAct, State.is, State.get_put_apart]
  · simp [hseven, hwant, State.actState_put, State.actState_setAct, State.is]

/-- A request that is not taken leaves the state and sets REJECT and CMD_REJ. -/
theorem request_rejected (hc : ∀ s, exec cmd s = s.event fun s => s.request c want v) (hrun : s.running = true)
    (htaken : s.requestTaken c want = false) :
    Completes cmd s fun t => t.actState c = s.actState c ∧ t.is PTC_ACT_STAT_REJECT (atChan c) = true ∧
      t.is PTC_ACT_STAT_CMD_REJ (atChan c) = true := by
  refine completes_of_event hc hrun ?_
  have hpart := s.request_part c want v
  have hstate : (s.fwWrite PTC_ACT_CTL (atChan c) (setBits v 26 24 want)).actState c = s.actState c :=
    (s.request_same c want v).get (by simp [Place.covers_one_ne])
  rw [State.actState_kept _ _ hpart, State.is_kept _ _ hpart, State.is_kept _ _ hpart, State.request_eq, htaken]
  simp [hstate, State.actState_put, State.is, State.get_put_apart]

/-- A request other than for O7 is taken from a state that lists it, outside BOOT and with EN in effect. -/
theorem requestTaken_of_listed (hlisted : requestListed (s.actState c) want = true) (hmode : s.get HW_OPMODE_MODE d0 ≠ 1)
    (hen : s.isEff PTC_ACT_CTL_EN (atChan c) = true) : s.requestTaken c want = true := by
  simp [State.requestTaken, hlisted, hmode, hen]

theorem requestTaken_eq_false (hwant : want ≠ 6)
    (h : requestListed (s.actState c) want = false ∨ s.get HW_OPMODE_MODE d0 = 1 ∨ s.isEff PTC_ACT_CTL_EN (atChan c) = false) :
    s.requestTaken c want = false := by
  rcases h with h | h | h <;> simp [State.requestTaken, h, hwant]

end

/-- A request but for O7 that Table 5.3 lists completes with the state asked for. -/
theorem request_listed {s : State} {cmd : Instr} {c want : Nat} {v : Word}
    (hc : ∀ s, exec cmd s = s.event fun s => s.request c want v) (hrun : s.running = true) (hwant : want < 8)
    (hlisted : requestListed (s.actState c) want = true) (hmode : s.get HW_OPMODE_MODE d0 ≠ 1)
    (hen : s.isEff PTC_ACT_CTL_EN (atChan c) = true) :
    Completes cmd s fun t => t.actState c = want ∧ t.is PTC_ACT_STAT_REJECT (atChan c) = false :=
  (request_moves hc hrun hwant (requestTaken_of_listed hlisted hmode hen)).imp fun _ ⟨hstate, _, hrej⟩ => ⟨hstate, hrej⟩

theorem actReqO7_moves (s : State) (c : Chan) (v : Word) (hrun : s.running = true) (hstate : s.actState c.val ≠ 6) :
    Completes (.actReqO7 c v) s fun t => t.actState c.val = 6 ∧ t.is PTC_ACT_STAT_O7_ENTRY (atChan c.val) = true ∧
      t.is PTC_ACT_STAT_REJECT (atChan c.val) = false :=
  (request_moves (fun _ => rfl) hrun (by decide) (by simp [State.requestTaken, requestListed, hstate])).imp
    fun _ ⟨hmoved, hentry, hrej⟩ => ⟨hmoved, hentry rfl, hrej⟩

theorem actReqO7_rejected (s : State) (c : Chan) (v : Word) (hrun : s.running = true) (hstate : s.actState c.val = 6) :
    Completes (.actReqO7 c v) s fun t => t.actState c.val = 6 ∧ t.is PTC_ACT_STAT_REJECT (atChan c.val) = true ∧
      t.is PTC_ACT_STAT_CMD_REJ (atChan c.val) = true :=
  hstate ▸ request_rejected (fun _ => rfl) hrun (by simp [State.requestTaken, requestListed, hstate])

/-! ## Timers (R207, R212) -/

/-- A timer that returns a channel to O1.1 shows its flag. -/
theorem State.kept_expired (s : State) (c : Nat) {f : Fld} (hl : f.lo ≤ f.hi) (hh : f.hi < 29) :
    let t := s.kept ((s.setAct c 0).put f (atChan c) 1)
    t.actState c = 0 ∧ t.is f (atChan c) = true := by
  have hpart : ((s.setAct c 0).put f (atChan c) 1).part = s.part := by simp
  have hwidth : 1 < 2 ^ (f.hi + 1 - f.lo) := Nat.one_lt_two_pow (by omega)
  refine ⟨?_, ?_⟩
  · rw [State.actState_kept _ _ hpart, State.actState_put _ _ _ _ hl hh, State.actState_setAct _ _ (by decide)]
  · rw [State.is_kept _ _ hpart, State.is, State.get_put_same _ _ _ _ hl (by omega), Nat.mod_eq_of_lt hwidth]
    rfl

theorem to1Expiry_returns (s : State) (c : Chan) (hrun : s.running = true) (hstate : s.actState c.val = 2 ∨ s.actState c.val = 3)
    (hcount : s.getEff PTC_ACT_TMR_TO1_MS (atChan c.val) * 8 ≤ (s.conv c.val).to1) :
    Completes (.to1Expiry c) s fun t => t.actState c.val = 0 ∧ t.is PTC_ACT_STAT_TO1_EXP (atChan c.val) = true := by
  refine completes_of_event (fun _ => rfl) hrun ?_
  rw [if_pos (by simp [hstate, hcount])]
  exact s.kept_expired c.val (by decide) (by decide)

theorem to2Expiry_returns (s : State) (c : Chan) (hrun : s.running = true) (hstate : s.actState c.val = 5)
    (hcount : s.getEff PTC_ACT_TMR_TO2_FR (atChan c.val) ≤ (s.conv c.val).to2) :
    Completes (.to2Expiry c) s fun t => t.actState c.val = 0 ∧ t.is PTC_ACT_STAT_TO2_EXP (atChan c.val) = true := by
  refine completes_of_event (fun _ => rfl) hrun ?_
  rw [if_pos (by simp [hstate, hcount])]
  exact s.kept_expired c.val (by decide) (by decide)

/-- Settles O7: each request is taken or rejected as Table 5.3, the mode and EN say, and each timer returns its channel to O1.1. -/
theorem activationRequestsComplete : Obligations.ActivationRequestsComplete :=
  ⟨fun _ _ _ hrun => request_listed (fun _ => rfl) hrun (by decide),
    fun _ _ _ hrun => request_listed (fun _ => rfl) hrun (by decide),
    fun _ _ _ hrun => request_listed (fun _ => rfl) hrun (by decide),
    fun _ _ _ hrun => request_listed (fun _ => rfl) hrun (by decide),
    actReqO7_moves, actReqO7_rejected,
    fun _ _ _ hrun h => request_rejected (fun _ => rfl) hrun (requestTaken_eq_false (by decide) h),
    fun _ _ _ hrun h => request_rejected (fun _ => rfl) hrun (requestTaken_eq_false (by decide) h),
    fun _ _ _ hrun h => request_rejected (fun _ => rfl) hrun (requestTaken_eq_false (by decide) h),
    fun _ _ _ hrun h => request_rejected (fun _ => rfl) hrun (requestTaken_eq_false (by decide) h),
    to1Expiry_returns, to2Expiry_returns⟩

end Sys2Proof.Machine
end

section
/-!
Reads of the convergence state after a register was written, and of registers after the convergence state changed (R205 to R241).
-/
namespace Sys2Proof.Machine
open Reg Footprint

section
variable (s : State) (c k r a v : Nat) (w : Word) (f : Fld) (x : Conv)

@[simp] theorem State.conv_wr : (s.wr r a w).conv c = s.conv c := by rw [State.conv, State.conv, State.wr_pon]
@[simp] theorem State.conv_put : (s.put f a v).conv c = s.conv c := State.conv_wr ..
@[simp] theorem State.conv_count : (s.count r a).conv c = s.conv c := State.conv_wr ..

@[simp] theorem State.rd_setConv : (s.setConv k x).rd r a = s.rd r a := State.rd_congr (by simp) (by simp) ..
@[simp] theorem State.rdEff_setConv : (s.setConv k x).rdEff r a = s.rdEff r a := by simp [State.rdEff]
@[simp] theorem State.getEff_setConv : (s.setConv k x).getEff f a = s.getEff f a := by simp [State.getEff]
@[simp] theorem State.isEff_setConv : (s.setConv k x).isEff f a = s.isEff f a := by simp [State.isEff]

@[simp] theorem State.xgs_setConv (j : Nat) : (s.setConv k x).xgs j = s.xgs j := by simp [State.xgs]

@[simp] theorem State.rd_count_same : (s.count r a).rd r a = s.rd r a + 1 := State.rd_wr_same ..
@[simp] theorem State.count_part : (s.count r a).part = s.part := State.wr_part ..

end

end Sys2Proof.Machine
end

section
/-!
PLOAM queues: messages pushed, received and popped (R215, R223, R224).
-/
namespace Sys2Proof.Machine
open Reg Footprint

theorem ploamuPush_appends (s : State) (c : Chan) (hrun : s.running = true) (hroom : (s.conv c.val).ploamu.length < 8) :
    Completes (.ploamuPush c) s fun t => (t.conv c.val).ploamu = (s.conv c.val).ploamu ++ [s.ploamuStage c.val] ∧
      t.get PTC_PLOAMU_STAT_LEVEL (atChan c.val) = (s.conv c.val).ploamu.length + 1 := by
  refine completes_of_event (fun _ => rfl) hrun ?_
  rw [if_neg (by omega)]
  have hlevel : ((s.conv c.val).ploamu.length + 1) % 16 = (s.conv c.val).ploamu.length + 1 := Nat.mod_eq_of_lt (by omega)
  simp [hlevel]

theorem ploamuPush_full (s : State) (c : Chan) (hrun : s.running = true) (hfull : 8 ≤ (s.conv c.val).ploamu.length) :
    Completes (.ploamuPush c) s fun t => (t.conv c.val).ploamu = (s.conv c.val).ploamu ∧
      t.is PTC_PLOAMU_STAT_FULL_REJ (atChan c.val) = true := by
  refine completes_of_event (fun _ => rfl) hrun ?_
  rw [if_pos hfull]
  simp [State.is]

theorem ploamuDef_replaces (s : State) (c : Chan) (hrun : s.running = true) :
    Completes (.ploamuDef c) s fun t => (t.conv c.val).ploamuDef = s.ploamuStage c.val := by
  refine completes_of_event (fun _ => rfl) hrun ?_
  simp

/-- The registers that show the downstream FIFO are no part of it. -/
@[simp] theorem State.conv_showPloamd (s : State) (c : Chan) (k : Nat) : (s.showPloamd c.val).conv k = s.conv k := by
  have h : Same ⟨[], [.one PTC_PLOAMD_STAT (atChan c.val), .die PTC_PLOAMD_DATA (chanDie c.val)], []⟩ s (s.showPloamd c.val) := by
    simp
  rw [State.conv, State.conv, h.pon (by simp)]

/-- A message is for a channel: its ONU-ID is broadcast, or the one of the channel (R223). -/
abbrev State.ploamdMine (s : State) (c : Nat) (o : BitVec 10) : Prop :=
  o.toNat = 0x3FF ∨ (s.isEff PTC_ONU_ID_VALID (atChan c) = true ∧ s.getEff PTC_ONU_ID_ID (atChan c) = o.toNat)

theorem ploamdReceive_appends (s : State) (c : Chan) (o : BitVec 10) (m : List Byte) (hrun : s.running = true)
    (hsync : (s.framer c.val).sync = .sync) (hmine : s.ploamdMine c.val o) (hroom : (s.conv c.val).ploamd.length < 32) :
    Completes (.ploamdReceive c o m) s fun t => (t.conv c.val).ploamd = (s.conv c.val).ploamd ++ [slice m 0 48] := by
  refine completes_of_event (fun _ => rfl) hrun ?_
  extract_lets c' a mine v
  have hjudged : mine = true := by simpa [mine, or_iff_not_imp_left] using hmine
  rw [if_neg (by simp [hjudged, c', hsync]), if_neg (by simpa [v, c'] using hroom)]
  simp [v, c']

theorem ploamdReceive_overflows (s : State) (c : Chan) (o : BitVec 10) (m : List Byte) (hrun : s.running = true)
    (hsync : (s.framer c.val).sync = .sync) (hmine : s.ploamdMine c.val o) (hfull : 32 ≤ (s.conv c.val).ploamd.length) :
    Completes (.ploamdReceive c o m) s fun t => (t.conv c.val).ploamd = (s.conv c.val).ploamd ∧
      t.get PTC_PLOAMD_STAT_OVF_CNT (atChan c.val) = Nat.min 0xFFFF (s.get PTC_PLOAMD_STAT_OVF_CNT (atChan c.val) + 1) := by
  refine completes_of_event (fun _ => rfl) hrun ?_
  extract_lets c' a mine v
  have hjudged : mine = true := by simpa [mine, or_iff_not_imp_left] using hmine
  have hmin : Nat.min 0xFFFF (s.get PTC_PLOAMD_STAT_OVF_CNT (atChan c.val) + 1) % 65536 =
      Nat.min 0xFFFF (s.get PTC_PLOAMD_STAT_OVF_CNT (atChan c.val) + 1) :=
    Nat.mod_eq_of_lt (Nat.lt_of_le_of_lt (Nat.min_le_left ..) (by decide))
  rw [if_neg (by simp [hjudged, c', hsync]), if_pos hfull]
  simp [State.incSat, satAdd, a, c', hmin]

theorem ploamdReceive_ignores (s : State) (c : Chan) (o : BitVec 10) (m : List Byte) (hrun : s.running = true)
    (hbroad : o.toNat ≠ 0x3FF)
    (hother : s.isEff PTC_ONU_ID_VALID (atChan c.val) = false ∨ s.getEff PTC_ONU_ID_ID (atChan c.val) ≠ o.toNat) :
    Completes (.ploamdReceive c o m) s fun t => t = s := by
  refine completes_of_event (fun _ => rfl) hrun ?_
  extract_lets c' a mine v
  have hjudged : mine = false := by rcases hother with h | h <;> simp [mine, a, c', hbroad, h]
  rw [if_pos (by simp [hjudged])]
  rfl

theorem ploamdPop_removes (s : State) (c : Chan) (x : List Byte) (l : List (List Byte)) (hrun : s.running = true)
    (hhead : (s.conv c.val).ploamd = x :: l) :
    Completes (.ploamdPop c) s fun t => (t.conv c.val).ploamd = l := by
  refine completes_of_event (fun _ => rfl) hrun ?_
  simp [hhead]

end Sys2Proof.Machine
end

section
/-!
The Port-ID and Alloc-ID tables, written and read by an index (R231, R239).
-/
namespace Sys2Proof.Machine
open Reg Footprint

theorem State.get_kept_withPon (s : State) {u : State} (h : u.part = s.part) (x : Pon) (f : Fld) (a : Nat) :
    (s.kept { u with pon := x }).get f a = u.get f a :=
  State.get_congr (State.kept_regs ..) ((State.kept_part ..).trans h.symm) f a

theorem pidTableWrite_writes (s : State) (n : LineDie) (v : Word) (hrun : s.running = true) :
    Completes (.pidTableWrite n v) s fun t =>
      (Tab.get t.pon.pid 0 (n.val * 4096 + t.get PTC_PID_WR_INDEX (onDie n.val))).toNat =
        (s.rd PTC_PID_STAGE1 (onDie n.val)).toNat * 2 ^ 32 + (s.rd PTC_PID_STAGE0 (onDie n.val)).toNat := by
  refine completes_of_event (fun _ => rfl) hrun ?_
  extract_lets a u e
  have he : e = BitVec.ofNat 64 ((s.rd PTC_PID_STAGE1 a).toNat * 2 ^ 32 + (s.rd PTC_PID_STAGE0 a).toNat) := by
    simp [e, u, State.rd_fwWrite_ne]
  have hpart : u.part = s.part := State.fwWrite_part ..
  clear_value u
  rw [State.get_kept_withPon _ hpart, State.kept_pon, Tab.get_set_same, he, BitVec.toNat_ofNat, Nat.mod_eq_of_lt (by omega)]

theorem pidTableRead_reads (s : State) (n : LineDie) (v : Word) (hrun : s.running = true) :
    Completes (.pidTableRead n v) s fun t =>
      t.rd PTC_PID_STAGE0 (onDie n.val) =
        (Tab.get s.pon.pid 0 (n.val * 4096 + t.get PTC_PID_WR_INDEX (onDie n.val))).setWidth 32 ∧
      t.rd PTC_PID_STAGE1 (onDie n.val) =
        (Tab.get s.pon.pid 0 (n.val * 4096 + t.get PTC_PID_WR_INDEX (onDie n.val)) >>> 32).setWidth 32 := by
  refine completes_of_event (fun _ => rfl) hrun ?_
  have hpon : (s.fwWrite PTC_PID_WR (onDie n.val) v).pon = s.pon :=
    Same.pon (F := ⟨[], [.all PTC_PID_WR], []⟩) (by simp) (by simp)
  simp [hpon]

theorem allocTableWrite_writes (s : State) (n : LineDie) (v : Word) (hrun : s.running = true) :
    Completes (.allocTableWrite n v) s fun t =>
      Tab.get t.pon.alloc 0 (n.val * 1024 + t.get EST_ALLOC_WR_INDEX (onDie n.val)) = s.rd EST_ALLOC_STAGE (onDie n.val) := by
  refine completes_of_event (fun _ => rfl) hrun ?_
  extract_lets a u
  have hpart : u.part = s.part := State.fwWrite_part ..
  have hstage : u.rd EST_ALLOC_STAGE a = s.rd EST_ALLOC_STAGE a := State.rd_fwWrite_ne _ _ _ _ (by decide)
  clear_value u
  rw [State.get_kept_withPon _ hpart, State.kept_pon, Tab.get_set_same, hstage]

theorem allocTableRead_reads (s : State) (n : LineDie) (v : Word) (hrun : s.running = true) :
    Completes (.allocTableRead n v) s fun t =>
      t.rd EST_ALLOC_STAGE (onDie n.val) =
        Tab.get s.pon.alloc 0 (n.val * 1024 + t.get EST_ALLOC_WR_INDEX (onDie n.val)) := by
  refine completes_of_event (fun _ => rfl) hrun ?_
  have hpon : (s.fwWrite EST_ALLOC_WR (onDie n.val) v).pon = s.pon :=
    Same.pon (F := ⟨[], [.all EST_ALLOC_WR], []⟩) (by simp) (by simp)
  simp [hpon]

end Sys2Proof.Machine
end

section
/-!
Received XGEM frames: delineation, discards and the reassembly of fragments (R226 to R233).
-/
namespace Sys2Proof.Machine
open Reg Footprint

/-! ## Delineation (R226, R227) -/

section
variable (s : State) (c : Nat) (x : XgemRx)

/-- Delineation leaves the frames in progress and the count of ticks. -/
theorem State.conv_delineate : ((s.delineate c x).conv c).reasm = (s.conv c).reasm ∧
    ((s.delineate c x).conv c).frames = (s.conv c).frames := by
  rw [State.delineate, State.conv_setConv_same]
  cases x.tail <;> cases x.hecOk <;> exact ⟨rfl, rfl⟩

@[simp] theorem State.rd_delineate (r a : Nat) : (s.delineate c x).rd r a = s.rd r a := State.rd_setConv ..
@[simp] theorem State.delineate_part : (s.delineate c x).part = s.part := State.setConv_part ..
@[simp] theorem State.pidEntry_delineate (port : Nat) : (s.delineate c x).pidEntry c port = s.pidEntry c port := rfl
@[simp] theorem State.rxFrame_delineate : (s.delineate c x).rxFrame c x = s.rxFrame c x := by
  rw [State.rxFrame, State.rxFrame, (s.conv_delineate c x).2]

end

theorem xgemFrameReceive_ends (s : State) (c : Chan) (x : XgemRx) (hrun : s.running = true) (hplace : s.delineated c.val x = true)
    (hhec : x.hecOk = false) :
    Completes (.xgemFrameReceive c x) s fun t =>
      (if x.tail then (t.conv c.val).hecLostPrev else (t.conv c.val).hecLost) = true ∧
      t.rd PTC_CNT_HEC_LOSS (atChan c.val) = s.rd PTC_CNT_HEC_LOSS (atChan c.val) + 1 := by
  refine completes_of_event (fun _ => rfl) hrun ?_
  rw [if_neg (show ¬ (!s.delineated c.val x) = true by simp [hplace]), if_pos (show (!x.hecOk) = true by simp [hhec])]
  refine ⟨?_, by simp⟩
  rw [State.conv_kept, State.conv_count, State.delineate, State.conv_setConv_same]
  cases x.tail <;> simp [hhec]

/-! ## Fragments -/

section
variable {s : State} {c port frame : Nat} {e : BitVec 64} {x : XgemRx}

theorem State.dropStale_of_none (h : (s.conv c).reasm.find? (fun r => r.port == port) = none) : s.dropStale c port frame = s := by
  simp [State.dropStale, h]

/-- A frame in clear of an entry with an even KEY_BASE that asks for no encryption is taken as it came (R230). -/
theorem State.xgemOpen_clear (heven : e.getLsbD 44 = false) (hreq : e.getLsbD 58 = false) (hkey : x.keyIdx = 0) :
    s.xgemOpen c e x = (some x.payload, s) := by
  have hbase : ¬ e.toNat / 2 ^ 44 % 2 ^ 12 % 2 = 1 := by
    rw [BitVec.getLsbD, Nat.testBit_eq_decide_div_mod_eq, decide_eq_false_iff_not] at heven
    omega
  unfold State.xgemOpen
  extract_lets base p sfc open_
  rw [if_neg hbase]
  simp [hkey, show e[58] = false from hreq]

theorem State.entryKind_of_lt (h : e.toNat / 2 ^ 59 % 4 < 3) : s.entryKind e = (e.toNat / 2 ^ 59 % 4, s) := by
  unfold State.entryKind
  exact if_neg (by omega)

/-- A first fragment that carries no OMCI starts a reassembly (R232). -/
theorem State.reassemble_starts {kind tag : Nat} {l : List Byte}
    (hnone : (s.conv c).reasm.find? (fun r => r.port == x.port.toNat) = none) (hkind : kind ≠ 1) (hlast : x.last = false) :
    s.reassemble c kind tag x l = s.setConv c { s.conv c with
      reasm := (s.conv c).reasm ++
        [{ port := x.port.toNat, frame := s.rxFrame c x, kind := kind, tag := tag, bytes := l, key := none }] } := by
  simp [State.reassemble, hnone, hkind, hlast]

end

theorem xgemFrameReceive_starts (s : State) (c : Chan) (x : XgemRx) (i : Nat) (e : BitVec 64) (hrun : s.running = true)
    (hplace : s.delineated c.val x = true) (hhec : x.hecOk = true) (hidle : x.idle = false) (hhdr : x.errHdr = false)
    (hbody : x.errBody = false) (hlast : x.last = false) (hkey : x.keyIdx = 0) (hentry : s.pidEntry c.val x.port.toNat = some (i, e))
    (heven : e.getLsbD 44 = false) (hreq : e.getLsbD 58 = false) (htype : e.toNat / 2 ^ 59 % 4 < 3) (homci : e.toNat / 2 ^ 59 % 4 ≠ 1)
    (hnone : (s.conv c.val).reasm.find? (fun r => r.port == x.port.toNat) = none) :
    Completes (.xgemFrameReceive c x) s fun t => (t.conv c.val).reasm = (s.conv c.val).reasm ++
      [{ port := x.port.toNat, frame := s.rxFrame c.val x, kind := e.toNat / 2 ^ 59 % 4, tag := e.toNat % 2 ^ 16,
         bytes := x.payload, key := none }] := by
  refine completes_of_event (fun _ => rfl) hrun ?_
  rw [if_neg (by simp [hplace]), if_neg (by simp [hhec])]
  have hreasm := (s.conv_delineate c.val x).1
  have hnone' : ((s.delineate c.val x).conv c.val).reasm.find? (fun r => r.port == x.port.toNat) = none := by rwa [hreasm]
  simp only [State.xgemJudge, hidle, hhdr, hbody, State.pidEntry_delineate, hentry, State.dropStale_of_none hnone',
    State.xgemOpen_clear heven hreq hkey, State.entryKind_of_lt htype, State.reassemble_starts hnone' homci hlast]
  simp [hreasm]

/-! ## Discards (R229, R232) -/

theorem State.reasm_xgemDrop (s : State) (c port cnt : Nat) :
    ((s.xgemDrop c port cnt).conv c).reasm = (s.conv c).reasm.filter (fun r => r.port != port) := by
  simp [State.xgemDrop, State.dropReasm]

/-- A frame in progress that went stale is discarded anyway where its Port-ID is discarded after. -/
theorem State.reasm_dropStale (s : State) (c port frame : Nat) :
    ((s.dropStale c port frame).conv c).reasm.filter (fun r => r.port != port) = (s.conv c).reasm.filter (fun r => r.port != port) := by
  unfold State.dropStale
  split
  · split
    · rw [State.reasm_xgemDrop, List.filter_filter]
      simp
    · rfl
  · rfl

theorem xgemFrameReceive_misses (s : State) (c : Chan) (x : XgemRx) (hrun : s.running = true) (hplace : s.delineated c.val x = true)
    (hhec : x.hecOk = true) (hidle : x.idle = false) (hhdr : x.errHdr = false) (hentry : s.pidEntry c.val x.port.toNat = none) :
    Completes (.xgemFrameReceive c x) s fun t =>
      (t.conv c.val).reasm = (s.conv c.val).reasm.filter (fun r => r.port != x.port.toNat) ∧
      t.rd PTC_CNT_PID_MISS (atChan c.val) = s.rd PTC_CNT_PID_MISS (atChan c.val) + 1 := by
  refine completes_of_event (fun _ => rfl) hrun ?_
  rw [if_neg (by simp [hplace]), if_neg (by simp [hhec])]
  simp only [State.xgemJudge, hidle, hhdr, State.pidEntry_delineate, hentry, State.rxFrame_delineate]
  generalize hu : (s.delineate c.val x).dropStale c.val x.port.toNat (s.rxFrame c.val x) = u
  have hstale : Same ⟨[.pon], [.one PTC_CNT_REASM_TMO (atChan c.val)], []⟩ s u := by simp [← hu]
  have hreasm : ((u.xgemDrop c.val x.port.toNat PTC_CNT_PID_MISS).conv c.val).reasm =
      (s.conv c.val).reasm.filter (fun r => r.port != x.port.toNat) := by
    rw [State.reasm_xgemDrop, ← hu, State.reasm_dropStale, (s.conv_delineate c.val x).1]
  have hmiss : (u.xgemDrop c.val x.port.toNat PTC_CNT_PID_MISS).rd PTC_CNT_PID_MISS (atChan c.val) =
      s.rd PTC_CNT_PID_MISS (atChan c.val) + 1 := by
    rw [State.xgemDrop, State.rd_count_same, State.dropReasm, State.rd_setConv,
      hstale.within.stored _ _ (by simp [Place.covers_one_ne])]
  have hpart : (u.xgemDrop c.val x.port.toNat PTC_CNT_PID_MISS).part = s.part := by
    simp [State.xgemDrop, State.dropReasm, hstale.part]
  exact ⟨hreasm, (State.rd_kept _ _ hpart _ _).trans hmiss⟩

theorem reassemblyTimeout_discards (s : State) (c : Chan) (hrun : s.running = true) :
    Completes (.reassemblyTimeout c) s fun t =>
      (t.conv c.val).reasm = (s.conv c.val).reasm.filter (fun r => decide ((s.conv c.val).frames < r.frame + 3)) ∧
      t.rd PTC_CNT_REASM_TMO (atChan c.val) = s.rd PTC_CNT_REASM_TMO (atChan c.val) +
        BitVec.ofNat 32 ((s.conv c.val).reasm.filter (fun r => decide (r.frame + 3 ≤ (s.conv c.val).frames))).length := by
  refine completes_of_event (fun _ => rfl) hrun ?_
  simp [← decide_not]

/-- Settles O8: PLOAM messages queue, tables take and show their entries, and fragments are reassembled or discarded. -/
theorem ploamAndXgemComplete : Obligations.PloamAndXgemComplete :=
  ⟨ploamuPush_appends, ploamuPush_full, ploamuDef_replaces, ploamdReceive_appends, ploamdReceive_ignores, ploamdReceive_overflows,
    ploamdPop_removes, pidTableWrite_writes, pidTableRead_reads, allocTableWrite_writes, allocTableRead_reads,
    xgemFrameReceive_ends, xgemFrameReceive_starts, xgemFrameReceive_misses, reassemblyTimeout_discards⟩

end Sys2Proof.Machine
end

section
/-!
Commits, faulty grants and discarded bursts: what each leaves and counts (R213, R222, R240, R248).
-/
namespace Sys2Proof.Machine
open Reg Footprint

theorem eqdCommit_waits (s : State) (c : Chan) (hrun : s.running = true) :
    Completes (.eqdCommit c) s fun t =>
      (t.conv c.val).eqdPend = some (s.rd PTC_EQD (atChan c.val), s.rd PTC_RSP_CFG (atChan c.val)) := by
  refine completes_of_event (fun _ => rfl) hrun ?_
  simp

theorem profCommit_waits (s : State) (c : Chan) (hrun : s.running = true) :
    Completes (.profCommit c) s fun t =>
      (t.conv c.val).profPend = some ((profPlaces c.val).map (fun x => s.rd x.1 x.2)) := by
  refine completes_of_event (fun _ => rfl) hrun ?_
  simp

/-! ## Faults (R248) -/

section
variable (s : State) (c n : Nat) (f : GrantFault) (p : Burst → Bool)

@[simp] theorem State.grantFault_part : (s.grantFault c f n).part = s.part :=
  Same.part (F := faults c) (by simp)

@[simp] theorem State.conv_grantFault (k : Nat) : (s.grantFault c f n).conv k = s.conv k := by
  have h : SamePon Pon.conv s (s.grantFault c f n) := by simp
  exact h.conv k

/-- The counter of the cause adds what was found (Table 5.11). -/
@[simp] theorem State.rd_grantFault :
    (s.grantFault c f n).rd (faultBit f).2 (atChan c) = s.rd (faultBit f).2 (atChan c) + BitVec.ofNat 32 n := by
  have hevent : (faultBit f).2 ≠ EST_GRANT_EVT_V.reg := by cases f <;> decide
  unfold State.grantFault
  split
  next h => simp [h]
  next => rw [State.rd_wr_same, State.latch, State.rd_put_ne _ _ _ _ _ hevent]

theorem State.dropBursts_part : (s.dropBursts c f p).part = s.part :=
  Same.part (F := ⟨discards.areas, discards.stored ++ (faults c).stored, []⟩) ((same_dropBursts_any (by simp) (by simp)).2 (Same.refl _ s))

/-- The bursts that fail a test stay in the plan, and the 0xFFFF entries after the last of them find it gone where it is. -/
theorem State.conv_dropBursts : (s.dropBursts c f p).conv c = { s.conv c with
    bursts := (s.conv c).bursts.filter (fun b => !p b), joined := (s.conv c).joined && !((s.conv c).bursts.getLast?.any p) } := by
  unfold State.dropBursts
  extract_lets v gone u w
  have h : SamePon Pon.conv u (w.putBackAll ((gone.map (·.pieces)).flatten)) := by simp [w]
  rw [h.conv, State.conv_setConv_same]

/-- The discarded bursts are counted under their cause. -/
theorem State.rd_dropBursts : (s.dropBursts c f p).rd (faultBit f).2 (atChan c) =
    s.rd (faultBit f).2 (atChan c) + BitVec.ofNat 32 ((s.conv c).bursts.filter p).length := by
  unfold State.dropBursts
  extract_lets v gone u w
  have h : Same discards (u.grantFault c f gone.length) (w.putBackAll ((gone.map (·.pieces)).flatten)) := by simp [w]
  rw [h.within.stored _ _ (by cases f <;> simp [faultBit, Place.covers_one_ne, Place.covers_all_ne]), State.rd_grantFault,
    State.rd_setConv]

end

end Sys2Proof.Machine
end

section
/-!
The bandwidth map: grants that are faulty, and those that plan a burst (R206, R220, R235 to R241, R674).
-/
namespace Sys2Proof.Machine
open Reg Footprint

theorem bwmapEntryParse_breaks (s : State) (c : Chan) (g : Grant) (hrun : s.running = true) (hsync : (s.framer c.val).sync = .sync)
    (hhec : g.hecOk = false) :
    Completes (.bwmapEntryParse c g) s fun t => (t.conv c.val).broken = true ∧ (t.conv c.val).seen = true ∧
      (t.conv c.val).bursts = (s.conv c.val).bursts ∧ t.rd EST_CNT_HEC (atChan c.val) = s.rd EST_CNT_HEC (atChan c.val) + 1 := by
  have hcount : (s.grantFault c.val .hec 1).rd EST_CNT_HEC (atChan c.val) = s.rd EST_CNT_HEC (atChan c.val) + 1 :=
    s.rd_grantFault c.val 1 .hec
  refine completes_of_event (fun _ => rfl) hrun ?_
  rw [if_neg (by simp [hsync]), if_pos (by simp [hhec])]
  exact ⟨by simp, by simp, by simp, by simpa using hcount⟩

/-! ## The judgement of a grant that starts a burst -/

/-- A power-saving channel that receives hears the FWI bit of an entry that concerns it (R238). -/
def State.hearFwi (s : State) (c : Nat) (g : Grant) : State :=
  if g.fwi && s.is PWR_PS_STAT_RX_ON (d0i c) then s.setConv c { s.conv c with fwi := true } else s

section
variable (s : State) (c : Nat) (g : Grant) (f : Fld) (r a : Nat)

@[simp] theorem State.rd_hearFwi : (s.hearFwi c g).rd r a = s.rd r a := by
  unfold State.hearFwi; split <;> simp
@[simp] theorem State.rdEff_hearFwi : (s.hearFwi c g).rdEff r a = s.rdEff r a := by
  unfold State.hearFwi; split <;> simp
@[simp] theorem State.get_hearFwi : (s.hearFwi c g).get f a = s.get f a := by simp [State.get]
@[simp] theorem State.is_hearFwi : (s.hearFwi c g).is f a = s.is f a := by simp [State.is]
@[simp] theorem State.getEff_hearFwi : (s.hearFwi c g).getEff f a = s.getEff f a := by simp [State.getEff]
@[simp] theorem State.isEff_hearFwi : (s.hearFwi c g).isEff f a = s.isEff f a := by simp [State.isEff]
@[simp] theorem State.xgs_hearFwi (k : Nat) : (s.hearFwi c g).xgs k = s.xgs k := by simp [State.xgs]
@[simp] theorem State.upW_hearFwi (k : Nat) : (s.hearFwi c g).upW k = s.upW k := by simp [State.upW]

theorem State.conv_hearFwi : ∃ b, (s.hearFwi c g).conv c = { s.conv c with fwi := b } := by
  unfold State.hearFwi
  split
  · exact ⟨true, State.conv_setConv_same ..⟩
  · exact ⟨_, rfl⟩

end

/-- A fault is counted whatever the power manager hears. -/
theorem State.rd_fault_hearFwi (s : State) (c : Nat) (g : Grant) (f : GrantFault) :
    ((s.hearFwi c g).grantFault c f 1).rd (faultBit f).2 (atChan c) = s.rd (faultBit f).2 (atChan c) + 1 :=
  (State.rd_grantFault ..).trans (by simp)

/-- The allocation of a grant before its fill point. -/
def grantAlloc (g : Grant) (entry : Option (Nat × Word)) : Alloc :=
  { id := g.allocId.toNat, entry := entry.map (·.1), size := g.size.toNat, dbru := g.dbru }

section
variable {s : State} {c : Nat} {g : Grant} {entry : Option (Nat × Word)}

/-- While the transmitter is off a grant is only counted (R674). -/
theorem State.judgeGrant_txOff (htx : s.is PWR_PS_STAT_TX_ON (d0i c) = false) : s.judgeGrant c g entry =
    ((s.hearFwi c g).count PWR_CNT_PS_GRANT (d0i c)).setConv c { (s.hearFwi c g).conv c with joined := false } := by
  unfold State.judgeGrant
  extract_lets v cont serial u w al
  have hu : u = s.hearFwi c g := rfl
  rw [if_pos (by simp [hu, htx])]
  rfl

variable (htx : s.is PWR_PS_STAT_TX_ON (d0i c) = true) (hstart : g.start.toNat ≠ 0xFFFF)
include htx hstart

/-- A grant that starts outside the frame is malformed (R248). -/
theorem State.judgeGrant_outside (hout : frameUw (s.xgs c) * s.upW c / 32 ≤ g.start.toNat) : s.judgeGrant c g entry =
    ((s.hearFwi c g).grantFault c .malformed 1).setConv c { (s.hearFwi c g).conv c with joined := false } := by
  unfold State.judgeGrant
  extract_lets v cont serial u w al
  have hu : u = s.hearFwi c g := rfl
  rw [if_neg (by simp [hu, htx]), if_pos (by simp [cont, hstart, hu, hout])]
  rfl

variable (hin : g.start.toNat < frameUw (s.xgs c) * s.upW c / 32)
include hin

/-- A grant of no size, without DBRu and PLOAMu, is counted as ZERO (R248). -/
theorem State.judgeGrant_zero (hstate : s.actState c = 4) (hsize : g.size = 0) (hploamu : g.ploamu = false) (hdbru : g.dbru = false) :
    s.judgeGrant c g entry = (s.hearFwi c g).grantFault c .zero 1 := by
  unfold State.judgeGrant
  extract_lets v cont serial u w al
  have hu : u = s.hearFwi c g := rfl
  rw [if_neg (by simp [hu, htx]), if_neg (by simp [hu, hin]), if_neg (by simp [cont, hstart]), if_neg (by simp [hdbru]),
    if_pos (by simp [serial, hstate, hsize, hploamu])]
  rfl

variable (hsize : g.size ≠ 0) {k : BurstKind} (hkind : s.grantKind c g entry = some k)
include hsize hkind

/-- A grant of some size starts a burst where the plan has room, and else is counted as PLAN_FULL (R237, R241). -/
theorem State.judgeGrant_sized : s.judgeGrant c g entry =
    if 256 ≤ (s.conv c).nAllocs ∨ 64 ≤ (s.conv c).nBursts then
      ((s.hearFwi c g).setConv c { (s.hearFwi c g).conv c with joined := false, full := true }).grantFault c .planFull 1
    else (s.hearFwi c g).newBurst c g k (grantAlloc g entry) := by
  obtain ⟨b, hconv⟩ := s.conv_hearFwi c g
  have hkind' : (s.hearFwi c g).grantKind c g entry = some k := by
    simpa [State.grantKind, State.actState] using hkind
  have hzero : ¬ g.size = 0#16 := hsize
  unfold State.judgeGrant
  extract_lets v cont serial u w al
  have hu : u = s.hearFwi c g := rfl
  have hcont : cont = false := by simpa [cont] using hstart
  have hallocs : w.nAllocs = (s.conv c).nAllocs := by simp [w, hu, hconv]
  have hbursts : w.nBursts = (s.conv c).nBursts := by simp [w, hu, hconv]
  rw [if_neg (by simp [hu, htx]), if_neg (by simp [hu, hin]), if_neg (by simp [hcont]), if_neg (by simp [hzero]),
    if_neg (by simp [hzero]), hu, hkind']
  by_cases hfull : 256 ≤ (s.conv c).nAllocs ∨ 64 ≤ (s.conv c).nBursts
  · rw [if_pos hfull]
    dsimp only
    rw [if_pos (by simpa [hcont, hallocs, hbursts] using hfull), if_neg (by simp [hcont])]
    rfl
  · rw [if_neg hfull]
    dsimp only
    rw [if_neg (by simpa [hcont, hallocs, hbursts] using hfull), if_neg (by simp [hcont]), if_neg (by simp [hcont])]
    rfl

end

/-- A burst of data is planned behind the others, at the position of R220 and with what the grant asks for. -/
theorem State.newBurst_plans (s : State) (c : Nat) (g : Grant) (al : Alloc) : ∃ b : Burst,
    (s.newBurst c g .data al).conv c = { s.conv c with
      bursts := (s.conv c).bursts ++ [b], waits := (s.conv c).waits ++ [(s.conv c).planned], planned := (s.conv c).planned + 1
      nBursts := (s.conv c).nBursts + 1, nAllocs := (s.conv c).nAllocs + 1, joined := true, full := false } ∧
    (b.kind, b.start, b.prof, b.ready) = (.data, g.start.toNat, g.prof.val, false) ∧
    (b.frame, b.pos, b.ploamuFlag) = ((s.conv c).frames,
      (burstPos (s.getEff PTC_EQD_V (atChan c)) (signed 12 (s.getEff PTC_RSP_CFG_TRIM (atChan c)))
        (s.getEff PTC_RSP_CFG_RSP_TIME (atChan c)) (s.upW c) g.start.toNat
        (psbuBits (s.rdEff EST_PROF_CFG (place (chanDie c) (c * 4 + g.prof.val)))) 0).1, g.ploamu) := by
  unfold State.newBurst
  simp only [reduceCtorEq, if_false]
  split
  · exact ⟨_, (State.conv_put ..).trans (State.conv_setConv_same ..), rfl, rfl⟩
  · exact ⟨_, State.conv_setConv_same .., rfl, rfl⟩

/-! ## Grants to the ONU-ID of the channel -/

@[simp] theorem State.judgeGrant_part (s : State) (c : Nat) (g : Grant) (entry : Option (Nat × Word)) :
    (s.judgeGrant c g entry).part = s.part :=
  Same.part (F := grants c) (by simp)

section
variable {s : State} {c : Chan} {g : Grant} (hrun : s.running = true) (hsync : (s.framer c.val).sync = .sync)
  (hhec : g.hecOk = true) (hstate : s.actState c.val = 4) (hvalid : s.isEff PTC_ONU_ID_VALID (atChan c.val) = true)
  (hid : s.getEff PTC_ONU_ID_ID (atChan c.val) = g.allocId.toNat) (hstart : g.start.toNat ≠ 0xFFFF)

include hstate hvalid hid in
theorem State.grantKind_own (entry : Option (Nat × Word)) : s.grantKind c.val g entry = some .data := by
  simp [State.grantKind, hstate, hvalid, hid]

include hrun hsync hhec hvalid hid hstart

/-- An entry that names the ONU-ID of the channel is judged, and seen. -/
theorem bwmapEntryParse_judges {u : State} (hu : s.judgeGrant c.val g (s.allocEntry c.val g.allocId.toNat) = u) :
    Completes (.bwmapEntryParse c g) s fun t =>
      t.conv c.val = { u.conv c.val with seen := true, broken := false } ∧ ∀ r a, t.rd r a = u.rd r a := by
  refine completes_of_event (fun _ => rfl) hrun ?_
  extract_lets c' a v cont entry concerns w
  have hcont : cont = false := by simpa [cont] using hstart
  have hconcerns : concerns = true := by simp [concerns, a, c', hvalid, hid]
  have hw : w = u := (if_pos hconcerns).trans hu
  have hpart : u.part = s.part := by simp [← hu]
  rw [if_neg (by simp [c', hsync]), if_neg (by simp [hhec]), if_neg (by simp [hcont])]
  clear_value cont w
  subst hw hcont
  exact ⟨(State.conv_kept ..).trans (State.conv_setConv_same ..), by simp [hpart]⟩

theorem bwmapEntryParse_outside (htx : s.is PWR_PS_STAT_TX_ON (d0i c.val) = true)
    (hout : frameUw (s.xgs c.val) * s.upW c.val / 32 ≤ g.start.toNat) :
    Completes (.bwmapEntryParse c g) s fun t => (t.conv c.val).bursts = (s.conv c.val).bursts ∧
      t.rd EST_CNT_MALFORMED (atChan c.val) = s.rd EST_CNT_MALFORMED (atChan c.val) + 1 := by
  refine (bwmapEntryParse_judges hrun hsync hhec hvalid hid hstart (State.judgeGrant_outside htx hstart hout)).imp ?_
  rintro t ⟨hconv, hrd⟩
  obtain ⟨b, hfwi⟩ := s.conv_hearFwi c.val g
  refine ⟨by simp [hconv, hfwi], ?_⟩
  rw [hrd, State.rd_setConv]
  exact s.rd_fault_hearFwi c.val g .malformed

include hstate

theorem bwmapEntryParse_zero (htx : s.is PWR_PS_STAT_TX_ON (d0i c.val) = true)
    (hin : g.start.toNat < frameUw (s.xgs c.val) * s.upW c.val / 32) (hsize : g.size = 0) (hploamu : g.ploamu = false)
    (hdbru : g.dbru = false) :
    Completes (.bwmapEntryParse c g) s fun t => (t.conv c.val).bursts = (s.conv c.val).bursts ∧
      t.rd EST_CNT_ZERO (atChan c.val) = s.rd EST_CNT_ZERO (atChan c.val) + 1 := by
  refine (bwmapEntryParse_judges hrun hsync hhec hvalid hid hstart
    (State.judgeGrant_zero htx hstart hin hstate hsize hploamu hdbru)).imp ?_
  rintro t ⟨hconv, hrd⟩
  obtain ⟨b, hfwi⟩ := s.conv_hearFwi c.val g
  refine ⟨by simp [hconv, hfwi], ?_⟩
  rw [hrd]
  exact s.rd_fault_hearFwi c.val g .zero

theorem bwmapEntryParse_full (htx : s.is PWR_PS_STAT_TX_ON (d0i c.val) = true)
    (hin : g.start.toNat < frameUw (s.xgs c.val) * s.upW c.val / 32) (hsize : g.size ≠ 0)
    (hfull : 64 ≤ (s.conv c.val).nBursts ∨ 256 ≤ (s.conv c.val).nAllocs) :
    Completes (.bwmapEntryParse c g) s fun t => (t.conv c.val).bursts = (s.conv c.val).bursts ∧
      t.rd EST_CNT_PLAN_FULL (atChan c.val) = s.rd EST_CNT_PLAN_FULL (atChan c.val) + 1 := by
  refine (bwmapEntryParse_judges hrun hsync hhec hvalid hid hstart ((State.judgeGrant_sized htx hstart hin hsize
    (State.grantKind_own hstate hvalid hid _)).trans (if_pos hfull.symm))).imp ?_
  rintro t ⟨hconv, hrd⟩
  obtain ⟨b, hfwi⟩ := s.conv_hearFwi c.val g
  refine ⟨by simp [hconv, hfwi], ?_⟩
  rw [hrd]
  exact (State.rd_grantFault _ c.val 1 .planFull).trans (by simp [faultBit])

theorem bwmapEntryParse_plans (htx : s.is PWR_PS_STAT_TX_ON (d0i c.val) = true)
    (hin : g.start.toNat < frameUw (s.xgs c.val) * s.upW c.val / 32) (hsize : g.size ≠ 0)
    (hbursts : (s.conv c.val).nBursts < 64) (hallocs : (s.conv c.val).nAllocs < 256) :
    Completes (.bwmapEntryParse c g) s fun t =>
      (t.conv c.val).nBursts = (s.conv c.val).nBursts + 1 ∧ (t.conv c.val).nAllocs = (s.conv c.val).nAllocs + 1 ∧
      (t.conv c.val).seen = true ∧ (t.conv c.val).waits = (s.conv c.val).waits ++ [(s.conv c.val).planned] ∧
      (t.conv c.val).bursts.dropLast = (s.conv c.val).bursts ∧
      (t.conv c.val).bursts.getLast?.map (fun b => (b.kind, b.start, b.prof, b.ready)) =
        some (.data, g.start.toNat, g.prof.val, false) ∧
      (t.conv c.val).bursts.getLast?.map (fun b => (b.frame, b.pos, b.ploamuFlag)) = some ((s.conv c.val).frames,
        (burstPos (s.getEff PTC_EQD_V (atChan c.val)) (signed 12 (s.getEff PTC_RSP_CFG_TRIM (atChan c.val)))
          (s.getEff PTC_RSP_CFG_RSP_TIME (atChan c.val)) (s.upW c.val) g.start.toNat
          (psbuBits (s.rdEff EST_PROF_CFG (place (chanDie c.val) (c.val * 4 + g.prof.val)))) 0).1, g.ploamu) := by
  refine (bwmapEntryParse_judges hrun hsync hhec hvalid hid hstart ((State.judgeGrant_sized htx hstart hin hsize
    (State.grantKind_own hstate hvalid hid _)).trans (if_neg (by omega)))).imp ?_
  rintro t ⟨hconv, -⟩
  obtain ⟨b, hfwi⟩ := s.conv_hearFwi c.val g
  obtain ⟨x, hplan, hkind, hpos⟩ := (s.hearFwi c.val g).newBurst_plans c.val g (grantAlloc g (s.allocEntry c.val g.allocId.toNat))
  rw [hplan, hfwi] at hconv
  rw [hfwi] at hpos
  simp [hconv, hkind, hpos]

omit hstate in
theorem bwmapEntryParse_txOff (htx : s.is PWR_PS_STAT_TX_ON (d0i c.val) = false) :
    Completes (.bwmapEntryParse c g) s fun t => (t.conv c.val).bursts = (s.conv c.val).bursts ∧
      t.rd PWR_CNT_PS_GRANT (d0i c.val) = s.rd PWR_CNT_PS_GRANT (d0i c.val) + 1 := by
  refine (bwmapEntryParse_judges hrun hsync hhec hvalid hid hstart (State.judgeGrant_txOff htx)).imp ?_
  rintro t ⟨hconv, hrd⟩
  obtain ⟨b, hfwi⟩ := s.conv_hearFwi c.val g
  exact ⟨by simp [hconv, hfwi], by simp [hrd]⟩

end

end Sys2Proof.Machine
end

section
/-!
Planned bursts: ready, filled and launched, or discarded (R215, R236, R242 to R248).
-/
namespace Sys2Proof.Machine
open Reg Footprint

/-! ## Plans that become ready (R236, R248) -/

section
variable {s : State} {c : Chan} {k n : Nat} {b : Burst} {l : List Nat} (hrun : s.running = true)
  (hwaits : (s.conv c.val).waits = n :: l) (hfind : (s.conv c.val).bursts.find? (fun b => b.num == n) = some b)

/-- The bursts of a plan entry that is discarded leave the plan, counted under the cause. -/
theorem State.kept_discardPlan (s : State) (c : Nat) (l : List Nat) (n : Nat) (f : GrantFault) :
    let t := s.kept ((s.setConv c { s.conv c with waits := l }).dropBursts c f (fun x => x.num == n))
    (t.conv c).bursts = (s.conv c).bursts.filter (fun x => x.num != n) ∧ (t.conv c).waits = l ∧
      t.rd (faultBit f).2 (atChan c) = s.rd (faultBit f).2 (atChan c) +
        BitVec.ofNat 32 ((s.conv c).bursts.filter (fun x => x.num == n)).length := by
  have hpart : ((s.setConv c { s.conv c with waits := l }).dropBursts c f (fun x => x.num == n)).part = s.part :=
    (State.dropBursts_part ..).trans (by simp)
  dsimp only
  rw [State.conv_kept, State.rd_kept _ _ hpart, State.conv_dropBursts, State.rd_dropBursts, State.conv_setConv_same,
    State.rd_setConv]
  exact ⟨rfl, rfl, rfl⟩

include hrun hwaits hfind

theorem burstPlanReady_late (hjoins : b.ready = true ∨ bits b.profCfg 31 31 = 1)
    (hlate : b.pos / b.wordBits < k + fillLead (s.xgs c.val)) :
    Completes (.burstPlanReady c k) s fun t => (t.conv c.val).bursts = (s.conv c.val).bursts.filter (fun x => x.num != n) ∧
      (t.conv c.val).waits = l ∧ t.rd EST_CNT_LATE (atChan c.val) = s.rd EST_CNT_LATE (atChan c.val) +
        BitVec.ofNat 32 ((s.conv c.val).bursts.filter (fun x => x.num == n)).length := by
  have hprof : ¬ (b.ready = false ∧ bits b.profCfg 31 31 = 0) := by
    rcases hjoins with h | h <;> simp [h]
  refine completes_of_event (fun _ => rfl) hrun ?_
  simp only [hwaits, hfind, State.xgs_setConv]
  rw [if_neg (by simpa using hprof), if_pos hlate]
  exact s.kept_discardPlan c.val l n .late

theorem burstPlanReady_profile (hready : b.ready = false) (hprof : bits b.profCfg 31 31 = 0) :
    Completes (.burstPlanReady c k) s fun t => (t.conv c.val).bursts = (s.conv c.val).bursts.filter (fun x => x.num != n) ∧
      (t.conv c.val).waits = l ∧ t.rd EST_CNT_PROFILE (atChan c.val) = s.rd EST_CNT_PROFILE (atChan c.val) +
        BitVec.ofNat 32 ((s.conv c.val).bursts.filter (fun x => x.num == n)).length := by
  refine completes_of_event (fun _ => rfl) hrun ?_
  simp only [hwaits, hfind]
  rw [if_pos (by simp [hready, hprof])]
  exact s.kept_discardPlan c.val l n .profile

variable (hprof : bits b.profCfg 31 31 = 1) (hsoon : k + fillLead (s.xgs c.val) ≤ b.pos / b.wordBits)
include hprof hsoon

theorem burstPlanReady_overlaps (hready : b.ready = false) (x : Burst) (hmem : x ∈ (s.conv c.val).bursts) (hx : x.ready = true)
    (hover : (b.span (frameUw (s.xgs c.val) * b.wordBits)).1 < (x.span (frameUw (s.xgs c.val) * b.wordBits)).2) :
    Completes (.burstPlanReady c k) s fun t => (t.conv c.val).bursts = (s.conv c.val).bursts.filter (fun x => x.num != n) ∧
      (t.conv c.val).waits = l ∧ t.rd EST_CNT_OVERLAP (atChan c.val) = s.rd EST_CNT_OVERLAP (atChan c.val) +
        BitVec.ofNat 32 ((s.conv c.val).bursts.filter (fun x => x.num == n)).length := by
  have hany : ((s.conv c.val).bursts.filter (fun x => x.ready)).any (fun x =>
      (b.span (frameUw (s.xgs c.val) * b.wordBits)).1 < (x.span (frameUw (s.xgs c.val) * b.wordBits)).2) = true :=
    List.any_eq_true.2 ⟨x, List.mem_filter.2 ⟨hmem, hx⟩, decide_eq_true hover⟩
  refine completes_of_event (fun _ => rfl) hrun ?_
  simp only [hwaits, hfind, State.xgs_setConv]
  rw [if_neg (by simp [hprof]), if_neg (by omega), if_pos (by simp [hready, hany])]
  exact s.kept_discardPlan c.val l n .overlap

theorem burstPlanReady_readies (hclear : ∀ x ∈ (s.conv c.val).bursts, x.ready = true →
      (x.span (frameUw (s.xgs c.val) * b.wordBits)).2 ≤ (b.span (frameUw (s.xgs c.val) * b.wordBits)).1) :
    Completes (.burstPlanReady c k) s fun t =>
      (t.conv c.val).bursts = (s.conv c.val).bursts.map (fun x => if x.num == n then { x with ready := true } else x) ∧
      (t.conv c.val).waits = l := by
  have hany : ((s.conv c.val).bursts.filter (fun x => x.ready)).any (fun x =>
      (b.span (frameUw (s.xgs c.val) * b.wordBits)).1 < (x.span (frameUw (s.xgs c.val) * b.wordBits)).2) = false := by
    refine List.any_eq_false.2 fun x hx => ?_
    obtain ⟨hmem, hr⟩ := List.mem_filter.1 hx
    simpa using hclear x hmem hr
  refine completes_of_event (fun _ => rfl) hrun ?_
  simp only [hwaits, hfind, State.xgs_setConv]
  rw [if_neg (by simp [hprof]), if_neg (by omega), if_neg (by simp [hany])]
  simp

end

/-! ## Launch (R132, R221, R242, R246) -/

/-- One burst takes the place of those that share its number. -/
theorem map_replaceBurst (p : Burst → Bool) (l : List Burst) {b' : Burst} {n : Nat} (hnum : b'.num = n) (hp : p b' = true) :
    (l.map (fun x => if x.num == n then b' else x)).map (fun x => (x.num, p x)) = l.map (fun x => (x.num, p x || x.num == n)) := by
  rw [List.map_map]
  refine List.map_congr_left fun x _ => ?_
  by_cases hx : x.num = n <;> simp [hx, hnum, hp]

theorem State.conv_releasePieces (s : State) (b : Burst) (k : Nat) : (s.releasePieces b).conv k = s.conv k := by
  have h : SamePon Pon.conv s (s.releasePieces b) := by simp
  exact h.conv k

section
variable {s : State} {c : Chan} {b : Burst} (hrun : s.running = true)
  (hfind : (s.conv c.val).bursts.find? (fun b => b.filled && !b.launched) = some b)
include hrun hfind

theorem burstLaunch_sends (hen : s.is LANE_PTX_CFG_EN (atChan c.val) = true) (hlaser : s.laserOff c.val = false) :
    Completes (.burstLaunch c) s fun t =>
      (t.conv c.val).sent = some {
        num := b.num, frame := b.frame, pos := b.pos, lead := b.lead, lag := b.lag
        bytes := { b with onu := if b.kind = BurstKind.serial then 0x3FF else s.getEff PTC_ONU_ID_ID (atChan c.val) }.bytes } ∧
      (t.conv c.val).bursts.map (fun x => (x.num, x.launched)) =
        (s.conv c.val).bursts.map (fun x => (x.num, x.launched || x.num == b.num)) := by
  refine completes_of_event (fun _ => rfl) hrun ?_
  extract_lets c' v
  simp only [v, c', hfind]
  rw [if_neg (by simp [hen, hlaser]), State.conv_kept, State.conv_releasePieces, State.conv_setConv_same]
  exact ⟨by simp [Burst.bytes, Function.comp_def], map_replaceBurst (·.launched) _ rfl rfl⟩

theorem burstLaunch_discards (hoff : s.is LANE_PTX_CFG_EN (atChan c.val) = false ∨ s.laserOff c.val = true) :
    Completes (.burstLaunch c) s fun t => (t.conv c.val).bursts = (s.conv c.val).bursts.filter (fun x => x.num != b.num) ∧
      (t.conv c.val).sent = (s.conv c.val).sent ∧ t.rd EST_CNT_TX_OFF (atChan c.val) = s.rd EST_CNT_TX_OFF (atChan c.val) +
        BitVec.ofNat 32 ((s.conv c.val).bursts.filter (fun x => x.num == b.num)).length := by
  refine completes_of_event (fun _ => rfl) hrun ?_
  extract_lets c' v
  simp only [v, c', hfind]
  rw [if_pos (by simpa using hoff), State.conv_kept, State.rd_kept _ _ (State.dropBursts_part ..), State.conv_dropBursts]
  exact ⟨rfl, rfl, State.rd_dropBursts ..⟩

end

/-! ## Fill points (R215, R243 to R245) -/

section
variable {α : Type} {p : Pon → α} {s t : State} {c : Nat}

@[simp] theorem samePon_count {r a : Nat} : SamePon p s (t.count r a) ↔ SamePon p s t := samePon_wr

@[simp] theorem samePon_wakeRoute {a b : Nat} : SamePon p s (t.wakeRoute a b) ↔ SamePon p s t :=
  samePon_of_same (F := ⟨[.pwr], [], []⟩) (by simp) (by simp)

@[simp] theorem samePon_upGroup {i : Nat} : SamePon p s (t.upGroup c i).2 ↔ SamePon p s t :=
  samePon_of_same (F := ⟨[], [], []⟩) (by simp) (by simp)

@[simp] theorem samePon_tNow : SamePon p s t.tNow.2 ↔ SamePon p s t :=
  samePon_of_same (F := ⟨[], [], []⟩) (by simp) (by simp)

@[simp] theorem samePon_fillLoop {n : Nat} {x : Serve} {y : Fill} : SamePon p s (fillLoop n x y).st ↔ SamePon p s y.st :=
  samePon_of_same (F := filling) (by simp) (by simp)

theorem State.conv_pmcEvent (s : State) (d u code idx k : Nat) (pass : Word → Bool) (c : Nat) :
    (s.pmcEvent d u code idx k pass).conv c = s.conv c := by
  have h : Same counting s (s.pmcEvent d u code idx k pass) := by simp
  rw [State.conv, State.conv, h.pon (by simp)]

/-- An allocation is filled from the queues: the plan and the PLOAMu queue stand. -/
theorem samePon_fillAlloc {base now : Nat} {b : Burst} {err : FillErr} {a : Alloc} :
    SamePon p s (t.fillAlloc c b base now err a).2.2 ↔ SamePon p s t := by
  suffices h : SamePon p t (t.fillAlloc c b base now err a).2.2 from
    ⟨fun k => k.trans h.symm, fun k => k.trans h⟩
  unfold State.fillAlloc
  extract_lets head area content empty
  split
  · exact .refl
  next i _ =>
    split
    · exact .refl
    · have hgroup : SamePon p t (t.upGroup c i).2 := by simp
      split
      next bonded g u hu =>
      rw [hu] at hgroup
      split
      · simpa using hgroup
      · extract_lets x ok w y
        split
        · exact hgroup
        · exact hgroup
        · exact hgroup
        · simpa using hgroup
        · simpa [y, w, ↓samePon_ite] using hgroup

theorem samePon_fillAllocs {now : Nat} {b : Burst} {l : List Alloc} : ∀ {t : State} {err : FillErr} {base : Nat},
    SamePon p s (t.fillAllocs c b now err l base).2 ↔ SamePon p s t := by
  induction l with
  | nil => exact Iff.rfl
  | cons a l ih =>
    intro t err base
    exact ih.trans samePon_fillAlloc

end

/-- The head of the PLOAMu queue is taken, or the default message where none waits (R215). -/
theorem State.takePloamu_takes (s : State) (c : Nat) :
    (s.takePloamu c).1 = (s.conv c).ploamu.headD (s.conv c).ploamuDef ∧
      (s.takePloamu c).2.conv c = { s.conv c with ploamu := (s.conv c).ploamu.tail } := by
  unfold State.takePloamu
  dsimp only
  split
  next hq =>
    have htail : (s.conv c).ploamu.tail = (s.conv c).ploamu := by simp [hq]
    exact ⟨by simp [hq], by rw [htail]⟩
  next m l hq => exact ⟨by simp [hq], by simp [hq]⟩

/-- The message that a burst takes, as its flag says. -/
def State.fillMessage (s : State) (c : Nat) (b : Burst) : List Byte :=
  if b.ploamuFlag then (s.conv c).ploamu.headD (s.conv c).ploamuDef else []

/-- What a fill point takes from the PLOAMu queue. -/
theorem State.fill_takesMessage {s : State} {c : Nat} {b : Burst} {r : List Byte × State}
    (hr : (if b.ploamuFlag then s.takePloamu c else ([], s)) = r) : r.1 = s.fillMessage c b ∧
      r.2.conv c = { s.conv c with ploamu := if b.ploamuFlag then (s.conv c).ploamu.tail else (s.conv c).ploamu } := by
  obtain ⟨hhead, htail⟩ := s.takePloamu_takes c
  unfold State.fillMessage
  cases hflag : b.ploamuFlag <;> simp [← hr, hflag, hhead, htail]

/-- The filling of a burst's allocations leaves the convergence state. -/
theorem State.conv_fillAllocs {s : State} {c now base : Nat} {b : Burst} {err : FillErr} {l : List Alloc} {r : List Alloc × State}
    (hr : (if b.kind = .serial then ([], s) else s.fillAllocs c b now err l base) = r) (k : Nat) : r.2.conv k = s.conv k := by
  have h : SamePon Pon.conv s r.2 := by
    rw [← hr]
    split
    · exact .refl
    · exact samePon_fillAllocs.2 .refl
  exact h.conv k

/-- The convergence state after burst b was filled to b'. -/
def Conv.filled (v : Conv) (b b' : Burst) : Conv := { v with
  ploamu := if b.ploamuFlag then v.ploamu.tail else v.ploamu
  bursts := v.bursts.map (fun y => if y.num == b.num then b' else y) }

theorem fillPoint_replaces (s : State) (x : FillRead) (b : Burst) (hrun : s.running = true)
    (hfind : (s.conv x.chan.val).bursts.find? (fun b => b.ready && !b.filled && !(s.conv x.chan.val).waits.contains b.num) = some b) :
    Completes (.fillPoint x) s fun t => ∃ b' : Burst, b'.num = b.num ∧ b'.filled = true ∧
      b'.ploamu = s.fillMessage x.chan.val b ∧ t.conv x.chan.val = Conv.filled (s.conv x.chan.val) b b' := by
  have hnow : s.tNow.2.conv = s.conv := by
    have h : SamePon Pon.conv s s.tNow.2 := by simp
    exact funext h.conv
  refine completes_of_event (fun _ => rfl) hrun ?_
  rw [State.conv_kept]
  dsimp only
  rw [hfind]
  dsimp only
  generalize hr : (if b.ploamuFlag then s.tNow.2.takePloamu x.chan.val else ([], s.tNow.2)) = r
  obtain ⟨hmessage, hqueue⟩ := State.fill_takesMessage hr
  generalize hq : (if b.kind = .serial then ([], r.2) else _) = q
  have hallocs := State.conv_fillAllocs hq
  refine ⟨{ b with filled := true, ploamu := r.1, allocs := q.1 }, rfl, rfl, ?_, ?_⟩
  · rw [hmessage, State.fillMessage, hnow]
    rfl
  · rw [State.conv_pmcEvent, State.conv_setConv_same, hallocs, hqueue, hnow]
    rfl

theorem fillPoint_fills (s : State) (x : FillRead) (b : Burst) (hrun : s.running = true)
    (hfind : (s.conv x.chan.val).bursts.find? (fun b => b.ready && !b.filled && !(s.conv x.chan.val).waits.contains b.num) = some b) :
    Completes (.fillPoint x) s fun t =>
      (t.conv x.chan.val).bursts.map (fun x => (x.num, x.filled)) =
        (s.conv x.chan.val).bursts.map (fun x => (x.num, x.filled || x.num == b.num)) ∧
      (t.conv x.chan.val).ploamu =
        (if b.ploamuFlag then (s.conv x.chan.val).ploamu.tail else (s.conv x.chan.val).ploamu) ∧
      ∀ y ∈ (t.conv x.chan.val).bursts, y.num = b.num → y.ploamu =
        (if b.ploamuFlag then (s.conv x.chan.val).ploamu.headD (s.conv x.chan.val).ploamuDef else []) := by
  refine (fillPoint_replaces s x b hrun hfind).imp ?_
  rintro t ⟨b', hnum, hfilled, hmessage, hconv⟩
  rw [hconv]
  refine ⟨map_replaceBurst (·.filled) _ hnum hfilled, rfl, fun y hy hyb => ?_⟩
  obtain ⟨z, -, rfl⟩ := List.mem_map.1 hy
  by_cases hz : z.num = b.num
  · rw [if_pos (by simpa using hz), hmessage, State.fillMessage]
  · simp [hz] at hyb

/-- Settles O9: grants plan bursts or are counted, and bursts become ready, are filled and launched, or are discarded. -/
theorem upstreamBurstsComplete : Obligations.UpstreamBurstsComplete :=
  ⟨eqdCommit_waits, profCommit_waits, bwmapEntryParse_breaks,
    fun _ _ _ hrun hsync hhec hstate hvalid hid htx hstart hin hsize =>
      bwmapEntryParse_plans hrun hsync hhec hstate hvalid hid hstart htx hin hsize,
    fun _ _ _ hrun hsync hhec _ hvalid hid htx hstart hout => bwmapEntryParse_outside hrun hsync hhec hvalid hid hstart htx hout,
    fun _ _ _ hrun hsync hhec hstate hvalid hid htx hstart hin hsize =>
      bwmapEntryParse_zero hrun hsync hhec hstate hvalid hid hstart htx hin hsize,
    fun _ _ _ hrun hsync hhec hstate hvalid hid htx hstart hin hsize =>
      bwmapEntryParse_full hrun hsync hhec hstate hvalid hid hstart htx hin hsize,
    fun _ _ _ hrun hsync hhec _ hvalid hid hstart _ htx => bwmapEntryParse_txOff hrun hsync hhec hvalid hid hstart htx,
    fun _ _ _ _ _ _ hrun hwaits hfind _ hprof hsoon hclear => burstPlanReady_readies hrun hwaits hfind hprof hsoon hclear,
    fun _ _ _ _ _ _ hrun hwaits hfind hready hprof => burstPlanReady_profile hrun hwaits hfind hready hprof,
    fun _ _ _ _ _ _ hrun hwaits hfind hjoins hlate => burstPlanReady_late hrun hwaits hfind hjoins hlate,
    fun _ _ _ _ _ x _ hrun hwaits hfind hready hprof hsoon hmem hx hover =>
      burstPlanReady_overlaps hrun hwaits hfind hprof hsoon hready x hmem hx hover,
    fillPoint_fills,
    fun _ _ _ hrun hfind hen hlaser => burstLaunch_sends hrun hfind hen hlaser,
    fun _ _ _ hrun hfind hoff => burstLaunch_discards hrun hfind hoff⟩

end Sys2Proof.Machine
end

section
/-!
The record of the channel group: what other operations leave of it, and what its own leave of the registers (R253 to R290).
-/
namespace Sys2Proof.Machine
open Reg Footprint

/-! ## Events of a unit that runs (R657, R682) -/

section
variable {c : Instr} {s : State} {d : State → Nat} {b : Nat} {f : State → State} {p : State → Prop}

/-- An event of a running unit of the port or router island completes with what its effect leaves. -/
theorem completes_of_island (hc : ∀ s, exec c s = s.island (d s) b f) (hrun : s.islandRuns (d s) b = true)
    (h : p (s.kept (f s))) :
    Completes c s p :=
  ⟨_, (hc s).trans (State.island_runs s (d s) b f hrun), h⟩

/-- An event of a running unit of the core island completes with what its effect leaves. -/
theorem completes_of_unit (hc : ∀ s, exec c s = s.unit (d s) b f) (hrun : s.unitRuns (d s) b = true) (h : p (s.kept (f s))) :
    Completes c s p :=
  ⟨_, (hc s).trans (State.unit_runs s (d s) b f hrun), h⟩

end

/-! ## The record beside the registers -/

section
variable {F : Footprint} {s t : State} {f : Fld} {r a : Nat}

theorem Footprint.Same.bond (h : F.Same s t) (hF : .bond ∉ F.areas) : t.bond = s.bond := h.within.areas .bond hF

theorem Footprint.Same.clk (h : F.Same s t) (hF : .clk ∉ F.areas) : t.clk = s.clk := h.within.areas .clk hF

theorem Footprint.Same.getEff (h : F.Same s t) (hf : ∀ p ∈ F.inEffect, p.covers f.reg a = false) :
    t.getEff f a = s.getEff f a := by
  rw [State.getEff, State.getEff, h.rdEff hf]

end

section
variable (s : State) (b : Bond) (f : Fld) (r a c : Nat)

@[simp] theorem State.setBond_bond : (s.setBond b).bond = b := by unfold State.setBond; rfl
@[simp] theorem State.setBond_part : (s.setBond b).part = s.part := rfl
@[simp] theorem State.rd_setBond : (s.setBond b).rd r a = s.rd r a := rfl
@[simp] theorem State.get_setBond : (s.setBond b).get f a = s.get f a := rfl
@[simp] theorem State.bondOn_setBond : (s.setBond b).bondOn = s.bondOn := rfl
@[simp] theorem State.bondMember_setBond : (s.setBond b).bondMember c = s.bondMember c := rfl

@[simp] theorem State.count_bond : (s.count r a).bond = s.bond := State.wr_bond ..
@[simp] theorem State.rd_count_ne {r r' : Nat} (a a' : Nat) (h : r' ≠ r) : (s.count r a).rd r' a' = s.rd r' a' :=
  State.rd_wr_ne _ _ _ _ h

@[simp] theorem State.showBond_bond : s.showBond.bond = s.bond := by simp [State.showBond]
@[simp] theorem State.bondExp_showBond : s.showBond.bondExp c = s.bondExp c := by
  rw [State.bondExp, State.bondExp, State.showBond_bond]
@[simp] theorem State.showBond_part : s.showBond.part = s.part := by simp [State.showBond]

/-- The show of the buffers writes GROUP_STAT. -/
@[simp] theorem State.rd_showBond (h : r ≠ BOND_GROUP_STAT) : s.showBond.rd r a = s.rd r a := by simp [State.showBond, h]

@[simp] theorem State.get_showBond_ne {f : Fld} (a : Nat) (h : f.reg ≠ BOND_GROUP_STAT) : s.showBond.get f a = s.get f a := by
  rw [State.get, State.get, State.rd_showBond _ _ _ h]

/-- The show of the buffers writes no field above SKEW_EMPTY (Table 6.5). -/
theorem State.get_showBond_above {f : Fld} (a : Nat) (h : 17 < f.lo) : s.showBond.get f a = s.get f a := by
  rw [State.showBond, State.get_put_apart _ _ _ _ (by decide) (by decide) (.inr (by exact Nat.lt_trans (by decide) h)),
    State.get_put_apart _ _ _ _ (by decide) (by decide) (.inr h)]

end

end Sys2Proof.Machine
end

section
/-!
Skew buffers: frames that a member receives and releases (R255 to R260).
-/
namespace Sys2Proof.Machine
open Reg Footprint

/-! ## Reception (R257, R260) -/

section
variable {s : State} {c : Chan} {x : BondFrame} {l : List BondFrame} (hrun : s.islandRuns (chanDie c.val) 7 = true)
  (hinbox : Tab.get s.bond.inbox [] c.val = x :: l)
include hrun hinbox

theorem bondFrameReceive_fits (htag : tagValid x = true) (hon : s.bondOn = true) (hmember : s.bondMember c.val = true)
    (hcells : cellSum (Tab.get s.bond.skew [] c.val) + (untag x).cells ≤ 65536)
    (hframes : (Tab.get s.bond.skew [] c.val).length < 24576) :
    Completes (.bondFrameReceive c) s fun t =>
      Tab.get t.bond.skew [] c.val = Tab.get s.bond.skew [] c.val ++ [untag x] ∧ Tab.get t.bond.inbox [] c.val = l := by
  refine completes_of_island (fun _ => rfl) hrun ?_
  simp only [hinbox]
  rw [if_neg (by simp [htag]), if_neg (by simp [hon, hmember]), if_neg (by simp; omega)]
  simp

theorem bondFrameReceive_overflows (htag : tagValid x = true) (hon : s.bondOn = true) (hmember : s.bondMember c.val = true)
    (hfull : 65536 < cellSum (Tab.get s.bond.skew [] c.val) + (untag x).cells ∨ 24576 ≤ (Tab.get s.bond.skew [] c.val).length) :
    Completes (.bondFrameReceive c) s fun t =>
      t.rd BOND_CNT_SKEW_OVF (d0i c.val) = s.rd BOND_CNT_SKEW_OVF (d0i c.val) + 1 ∧ t.is BOND_EVT_SKEW_OVF d0 = true ∧
      Tab.get t.bond.skew [] c.val = Tab.get s.bond.skew [] c.val := by
  refine completes_of_island (fun _ => rfl) hrun ?_
  simp only [hinbox]
  rw [if_neg (by simp [htag]), if_neg (by simp [hon, hmember]), if_pos (by simpa using hfull)]
  simp [State.is]

theorem bondFrameReceive_badTag (htag : tagValid x = false) :
    Completes (.bondFrameReceive c) s fun t =>
      t.rd BOND_CNT_BADTAG d0 = s.rd BOND_CNT_BADTAG d0 + 1 ∧ Tab.get t.bond.skew [] c.val = Tab.get s.bond.skew [] c.val := by
  refine completes_of_island (fun _ => rfl) hrun ?_
  simp [hinbox, htag]

theorem bondFrameReceive_notMember (htag : tagValid x = true) (hout : s.bondOn = false ∨ s.bondMember c.val = false) :
    Completes (.bondFrameReceive c) s fun t =>
      t.rd BOND_CNT_NOT_MEMBER d0 = s.rd BOND_CNT_NOT_MEMBER d0 + 1 ∧
      Tab.get t.bond.skew [] c.val = Tab.get s.bond.skew [] c.val ∧ Tab.get t.bond.inbox [] c.val = l := by
  refine completes_of_island (fun _ => rfl) hrun ?_
  simp [hinbox, htag, hout]

end

/-! ## Release (R259, R287, R527) -/

/-- The log of the errors of a read, and the count of the frames that they cost. -/
abbrev frameErrors : Footprint := ⟨errors.areas, .all MEM_CNT_UE_DROP :: errors.stored, []⟩

section
variable (s : State) (d c : Nat) (e : Ecc)

theorem State.storeError_same : Same frameErrors s (s.storeError d false e) := by
  have hlogs : frameErrors.Logs d := logs_of_errors (by simp) d
  simp [hlogs]

@[simp] theorem State.storeError_part : (s.storeError d false e).part = s.part := (s.storeError_same d e).part
@[simp] theorem State.storeError_bond : (s.storeError d false e).bond = s.bond := (s.storeError_same d e).bond (by simp)
@[simp] theorem State.rd_storeError_notMember :
    (s.storeError d false e).rd BOND_CNT_NOT_MEMBER d0 = s.rd BOND_CNT_NOT_MEMBER d0 :=
  (s.storeError_same d e).within.stored _ _ (by simp [Place.covers_all_ne])
@[simp] theorem State.bondOn_storeError : (s.storeError d false e).bondOn = s.bondOn :=
  (s.storeError_same d e).is (by simp [Place.covers_all_ne])
@[simp] theorem State.bondMember_storeError : (s.storeError d false e).bondMember c = s.bondMember c := by
  rw [State.bondMember, State.bondMember, (s.storeError_same d e).get (by simp [Place.covers_all_ne])]

end

section
variable {s : State} {c : Chan} {e : Ecc} {x : BondFrame} {l : List BondFrame} (hrun : s.islandRuns (chanDie c.val) 7 = true)
  (hread : eccBad e = false) (hskew : Tab.get s.bond.skew [] c.val = x :: l)
include hrun hread hskew

theorem skewRelease_sends (hon : s.bondOn = true) (hmember : s.bondMember c.val = true) :
    Completes (.skewRelease ⟨c, e⟩) s fun t =>
      Tab.get t.bond.skew [] c.val = l ∧ Tab.get t.bond.coming [] c.val = Tab.get s.bond.coming [] c.val ++ [x] := by
  refine completes_of_island (fun _ => rfl) hrun ?_
  simp [hskew, hread, hon, hmember, Tab.mod]

theorem skewRelease_discards (hout : s.bondOn = false ∨ s.bondMember c.val = false) :
    Completes (.skewRelease ⟨c, e⟩) s fun t =>
      Tab.get t.bond.skew [] c.val = l ∧ Tab.get t.bond.coming [] c.val = Tab.get s.bond.coming [] c.val ∧
      t.rd BOND_CNT_NOT_MEMBER d0 = s.rd BOND_CNT_NOT_MEMBER d0 + 1 := by
  refine completes_of_island (fun _ => rfl) hrun ?_
  rcases hout with hout | hout <;> simp [hskew, hread, hout]

end

end Sys2Proof.Machine
end

section
/-!
The reorder engine: which held frame comes first, and what a release leaves of the group's record (R264 to R270).
-/
namespace Sys2Proof.Machine
open Reg Footprint

/-! ## Held frames -/

/-- The lowest held frame is the first of its number. -/
theorem find?_of_lowestHeld {e : Nat} {l : List BondFrame} {y : BondFrame} (h : lowestHeld e l = some y) :
    l.find? (fun x => x.seq == y.seq) = some y := by
  induction l generalizing y with
  | nil => cases h
  | cons x l ih =>
    unfold lowestHeld at h
    split at h
    next hnone =>
      cases h
      simp
    next z hz =>
      split at h
      next hlt =>
        cases h
        have hne : x.seq ≠ y.seq := fun heq => by simp [heq] at hlt
        rw [List.find?_cons_of_neg (by simpa using hne), ih hz]
      next =>
        cases h
        simp

section
variable {s t : State} {k q : Nat} {x y : BondFrame}

theorem State.heldAt_of_lowestHeld {e : Nat} (h : lowestHeld e (s.heldOf k) = some y) : s.heldAt k y.seq = some y := by
  have hfind := find?_of_lowestHeld h
  rw [State.heldOf, List.find?_filter] at hfind
  simpa only [State.heldAt, Bool.decide_and, Bool.decide_eq_true] using hfind

/-- What is held of a stream is read from the frames that wait. -/
theorem State.heldAt_congr (h : t.bond.held = s.bond.held) : t.heldAt k q = s.heldAt k q := by
  rw [State.heldAt, State.heldAt, h]

/-- No number comes to be held as a frame goes. -/
theorem State.heldAt_erase (h : t.bond.held = s.bond.held.erase x) (hnone : s.heldAt k q = none) : t.heldAt k q = none := by
  rw [State.heldAt, List.find?_eq_none] at hnone ⊢
  intro z hz
  rw [h] at hz
  exact hnone z (List.mem_of_mem_erase hz)

/-- Whether a stream's frames pass is read from its dispatcher and the refused frames. -/
theorem State.mayPass_congr (hpart : t.part = s.part)
    (heff : t.getEff BOND_GROUP_CFG_STREAM_DIE d0 = s.getEff BOND_GROUP_CFG_STREAM_DIE d0)
    (hpipe : t.pipe = s.pipe) (hrefused : t.bond.refused = s.bond.refused) :
    t.mayPass k = s.mayPass k := by
  have hdie : t.streamDie k = s.streamDie k := by rw [State.streamDie, State.streamDie, hpart, heff]
  rw [State.mayPass, State.mayPass, State.bondRefused, State.bondRefused, hdie, hpipe, hrefused]

end

/-! ## Releases -/

section
variable (s : State) (k n : Nat) (x : BondFrame) (e : Ecc)

theorem State.alloc_bond (writer : Nat) : (s.alloc writer n).2.bond = s.bond := Same.bond (F := buffering) (by simp) (by simp)

theorem State.bondPass_bond : (s.bondPass x).bond = s.bond := by
  unfold State.bondPass
  extract_lets d
  have halloc := s.alloc_bond x.bytes.length d
  split
  · exact State.put_bond ..
  · exact State.put_bond ..
  · rfl
  all_goals
    split
    next u hu => rwa [hu] at halloc
    next b u hu => rwa [hu] at halloc

/-- A release may only leave the frame among the refused. -/
theorem State.bondRelease_bond : ∃ r, (s.bondRelease x).bond = { s.bond with refused := r } := by
  unfold State.bondRelease
  split
  · exact ⟨s.bond.refused, s.bondPass_bond x⟩
  · exact ⟨_, rfl⟩

/-- The release of a held frame takes it from the frames that wait. -/
theorem State.releaseHeld_bond : ∃ r, (s.releaseHeld x e).bond = { s.bond with held := s.bond.held.erase x, refused := r } := by
  unfold State.releaseHeld
  dsimp only
  split
  · exact ⟨s.bond.refused, by rw [State.storeError_bond, State.setBond_bond]⟩
  · obtain ⟨r, hr⟩ := State.bondRelease_bond (State.storeError (s.setBond _) s.bondHome false e) x
    exact ⟨r, by rw [hr, State.storeError_bond, State.setBond_bond]⟩

/-- E[k] and the last numbers change as E[k] takes a value (R265, R267). -/
theorem State.setExp_bond : ∃ l, (s.setExp k n).bond = { s.bond with exp := Tab.set s.bond.exp 0 k (n % 2 ^ 24), last := l } := by
  have hfold (ms : List Nat) (f : Nat → Option Nat → Option Nat) : ∀ u : State, ∃ l, (ms.foldl (fun (u : State) m =>
      u.setBond { u.bond with last := Tab.mod u.bond.last none (m * 8 + k) (f m) }) u).bond = { u.bond with last := l } := by
    induction ms with
    | nil => exact fun u => ⟨u.bond.last, rfl⟩
    | cons m ms ih =>
      intro u
      obtain ⟨l, hl⟩ := ih (u.setBond { u.bond with last := Tab.mod u.bond.last none (m * 8 + k) (f m) })
      exact ⟨l, hl⟩
  exact hfold (List.range 4) (fun _ => pruneLast (s.bondExp k) (n % 2 ^ 24)) _

theorem State.setExp_held : (s.setExp k n).bond.held = s.bond.held := by
  obtain ⟨l, hl⟩ := s.setExp_bond k n
  rw [hl]

theorem State.bondExp_setExp : (s.setExp k n).bondExp k = n % 2 ^ 24 := by
  obtain ⟨l, hl⟩ := s.setExp_bond k n
  rw [State.bondExp, hl]
  exact Tab.get_set_same _ _ _ _

end

end Sys2Proof.Machine
end

section
/-!
The reorder engine: drains, arrivals and skipped gaps (R264 to R270).
-/
namespace Sys2Proof.Machine
open Reg Footprint

/-! ## Drains (R265, R270) -/

section
variable {s : State} {k n : Nat} {x : BondFrame} {e : Ecc}

/-- A stream stays where E[k] is not held. -/
theorem State.drain_of_none (h : s.heldAt k (s.bondExp k) = none) : State.drain n k e s = s := by
  cases n with
  | zero => rfl
  | succ n => rw [State.drain, h]

/-- A stream stays where its dispatcher refuses (R270). -/
theorem State.drain_of_refused (h : s.mayPass k = false) : State.drain n k e s = s := by
  cases n with
  | zero => rfl
  | succ n =>
    rw [State.drain]
    split
    · rfl
    · rw [if_neg (by simp [h])]

/-- A stream whose dispatcher takes E[k], and that does not hold its successor, releases that one frame. -/
theorem State.drain_releases (hheld : s.heldAt k (s.bondExp k) = some x) (hpass : s.mayPass k = true)
    (hnext : s.heldAt k ((x.seq + 1) % 2 ^ 24) = none) :
    (State.drain (n + 1) k e s).bondExp k = (x.seq + 1) % 2 ^ 24 ∧
      (State.drain (n + 1) k e s).bond.held = s.bond.held.erase x ∧
      (State.drain (n + 1) k e s).bond.coming = s.bond.coming := by
  rw [State.drain, hheld]
  dsimp only
  rw [if_pos hpass]
  obtain ⟨r, hr⟩ := s.releaseHeld_bond x e
  obtain ⟨l, hl⟩ := (s.releaseHeld x e).setExp_bond k (x.seq + 1)
  have hexp := (s.releaseHeld x e).bondExp_setExp k (x.seq + 1)
  generalize (s.releaseHeld x e).setExp k (x.seq + 1) = u at hl hexp ⊢
  have hrest : u.bond.held = s.bond.held.erase x := by rw [hl, hr]
  rw [State.drain_of_none (by rw [hexp]; exact State.heldAt_erase hrest hnext)]
  exact ⟨hexp, hrest, by rw [hl, hr]⟩

end

/-! ## Arrivals -/

section
variable {s : State} {c : Nat} {x : BondFrame} {rest : List BondFrame} {e : Ecc}

/-- The engine takes frame x of member c from its way, and notes its number as the member's last (R267). -/
abbrev State.takeIn (s : State) (c : Nat) (x : BondFrame) (rest : List BondFrame) : State :=
  (s.setBond { s.bond with coming := Tab.set s.bond.coming [] c rest }).setBond
    { s.bond with coming := Tab.set s.bond.coming [] c rest, last := Tab.set s.bond.last none (c * 8 + x.stream) (some x.seq) }

theorem State.reorder_duplicate (h : s.isHeld x.stream x.seq = true) :
    s.reorder c x rest e = (s.setBond { s.bond with coming := Tab.set s.bond.coming [] c rest }).count BOND_CNT_DUP d0 :=
  if_pos h

section
variable (hnew : s.isHeld x.stream x.seq = false) (hsynced : Tab.get s.bond.synced false x.stream = true)
  (hresync : x.resync = false)
include hnew hsynced hresync

theorem State.reorder_late (h : 2 ^ 23 ≤ ahead (s.bondExp x.stream) x.seq) :
    s.reorder c x rest e = ((s.takeIn c x rest).count BOND_CNT_LATE d0).showBond := by
  refine (if_neg (by rw [Bool.not_eq_true]; exact hnew)).trans ?_
  refine (if_neg (by simp [hsynced, hresync])).trans ?_
  exact if_pos h

theorem State.reorder_inWindow (hahead : ahead (s.bondExp x.stream) x.seq < 2 ^ 23)
    (hwindow : ahead (s.bondExp x.stream) x.seq < s.getEff BOND_GROUP_CFG_WINDOW d0) :
    s.reorder c x rest e = (s.takeIn c x rest).holdRoom c x rest e := by
  refine (if_neg (by rw [Bool.not_eq_true]; exact hnew)).trans ?_
  refine (if_neg (by simp [hsynced, hresync])).trans ?_
  refine (if_neg (Nat.not_le.2 hahead)).trans ?_
  exact if_neg (Nat.not_le.2 hwindow)

end

theorem State.forceSkips_of_room {n : Nat} (h : s.storeFull x = false) : State.forceSkips n x e s = s := by
  cases n with
  | zero => rfl
  | succ n => rw [State.forceSkips, if_pos (by simp [h])]

/-- Frame x joins the frames that wait, as of this edge. -/
abbrev State.putHeld (s : State) (x : BondFrame) : State :=
  s.setBond { s.bond with held := s.bond.held ++ [{ x with edge := s.clk.mc }] }

theorem State.holdFrame_eq : s.holdFrame x e = State.drain (s.bond.held.length + 1) x.stream e (s.putHeld x) := by
  simp [State.holdFrame]

/-- The frame that its stream expects is released at once, where its dispatcher takes it and nothing else is held. -/
theorem State.holdRoom_passes (hempty : s.bond.held = []) (hpass : s.mayPass x.stream = true) (hexp : s.bondExp x.stream = x.seq) :
    (s.holdRoom c x rest e).bondExp x.stream = (x.seq + 1) % 2 ^ 24 ∧ (s.holdRoom c x rest e).bond.held = [] ∧
      (s.holdRoom c x rest e).bond.coming = s.bond.coming := by
  have hroom : s.holdRoom c x rest e = (s.holdFrame x e).showBond := if_pos (by simp [hexp, hpass])
  have hnext : x.seq ≠ (x.seq + 1) % 2 ^ 24 := by omega
  have hheld : (s.putHeld x).heldAt x.stream ((s.putHeld x).bondExp x.stream) = some { x with edge := s.clk.mc } := by
    change (s.bond.held ++ _).find? (fun z => z.stream == x.stream && z.seq == s.bondExp x.stream) = _
    simp [hempty, hexp]
  have hgone : (s.putHeld x).heldAt x.stream ((x.seq + 1) % 2 ^ 24) = none := by
    simpa [State.heldAt, hempty] using hnext
  rw [hroom, State.bondExp_showBond, State.showBond_bond, State.holdFrame_eq]
  simpa [hempty] using State.drain_releases (n := s.bond.held.length) (e := e) hheld hpass hgone

/-- A frame ahead of a gap is held where there is room. -/
theorem State.holdRoom_holds (hgap : s.heldAt x.stream (s.bondExp x.stream) = none) (hne : x.seq ≠ s.bondExp x.stream)
    (hahead : ahead (s.bondExp x.stream) x.seq < 2 ^ 23) (hroom : s.storeFull x = false) :
    s.holdRoom c x rest e = (s.putHeld x).showBond := by
  have hstay : (s.putHeld x).heldAt x.stream ((s.putHeld x).bondExp x.stream) = none := by
    change (s.bond.held ++ _).find? (fun z => z.stream == x.stream && z.seq == s.bondExp x.stream) = _
    rw [List.find?_append, show s.bond.held.find? _ = none from hgap]
    simp [hne]
  refine (if_neg (by simp [Ne.symm hne])).trans ?_
  dsimp only
  rw [State.forceSkips_of_room hroom, if_neg (Nat.not_le.2 hahead), hroom, if_neg (by decide), if_neg (by decide),
    State.holdFrame_eq, State.drain_of_none hstay]

end

/-! ## Arrivals at the home die (R264, R676) -/

section
variable {s : State} {c : Chan} {x : BondFrame} {l : List BondFrame} {e : Ecc} {h : Nat}
  (hrun : s.islandRuns s.bondHome 7 = true) (hroute : s.route (chanDie c.val) s.bondHome = .clear h)
  (hcoming : Tab.get s.bond.coming [] c.val = x :: l)
include hrun hroute hcoming

/-- The engine takes the oldest frame on an open way, when the die has been asked to wake. -/
theorem reorderArrival_takes {p : State → Prop}
    (hp : ∀ u, Same ⟨[.pwr], [], []⟩ s u → p (s.kept (u.reorder c.val x l e))) :
    Completes (.reorderArrival ⟨c, e⟩) s p := by
  refine completes_of_island (fun _ => rfl) hrun ?_
  simp only [hcoming, hroute]
  exact hp _ (by simp)

theorem reorderArrival_duplicate (hdup : s.isHeld x.stream x.seq = true) :
    Completes (.reorderArrival ⟨c, e⟩) s fun t =>
      t.rd BOND_CNT_DUP d0 = s.rd BOND_CNT_DUP d0 + 1 ∧ t.bond.held = s.bond.held ∧ Tab.get t.bond.coming [] c.val = l := by
  refine reorderArrival_takes hrun hroute hcoming fun u hu => ?_
  have hbond := hu.bond (by simp)
  rw [State.reorder_duplicate (by rw [State.isHeld, hbond]; exact hdup)]
  simp [hbond, hu.part, hu.within.stored BOND_CNT_DUP d0 (by simp)]

section
variable (hnew : s.isHeld x.stream x.seq = false) (hsynced : Tab.get s.bond.synced false x.stream = true)
  (hresync : x.resync = false)
include hnew hsynced hresync

theorem reorderArrival_late (hlate : 2 ^ 23 ≤ ahead (s.bondExp x.stream) x.seq) :
    Completes (.reorderArrival ⟨c, e⟩) s fun t =>
      t.rd BOND_CNT_LATE d0 = s.rd BOND_CNT_LATE d0 + 1 ∧ t.bond.held = s.bond.held ∧
      t.bondExp x.stream = s.bondExp x.stream := by
  refine reorderArrival_takes hrun hroute hcoming fun u hu => ?_
  have hbond := hu.bond (by simp)
  rw [State.reorder_late (by rw [State.isHeld, hbond]; exact hnew) (by rw [hbond, hsynced]) hresync
    (by rw [State.bondExp, hbond]; exact hlate)]
  simp [State.bondExp, hbond, hu.part, hu.within.stored BOND_CNT_LATE d0 (by simp)]

theorem reorderArrival_passes (hempty : s.bond.held = []) (hpass : s.mayPass x.stream = true) (hexp : s.bondExp x.stream = x.seq)
    (hwindow : 0 < s.getEff BOND_GROUP_CFG_WINDOW d0) :
    Completes (.reorderArrival ⟨c, e⟩) s fun t =>
      t.bondExp x.stream = (x.seq + 1) % 2 ^ 24 ∧ t.bond.held = [] ∧ Tab.get t.bond.coming [] c.val = l := by
  refine reorderArrival_takes hrun hroute hcoming fun u hu => ?_
  have hbond := hu.bond (by simp)
  have hexp' : u.bondExp x.stream = x.seq := by rw [State.bondExp, hbond]; exact hexp
  have hahead : ahead (u.bondExp x.stream) x.seq = 0 := by rw [hexp', ahead]; omega
  rw [State.reorder_inWindow (by rw [State.isHeld, hbond]; exact hnew) (by rw [hbond, hsynced]) hresync (by omega)
    (by rw [hahead, hu.getEff (by simp)]; exact hwindow)]
  have hpass' : (u.takeIn c.val x l).mayPass x.stream = true :=
    (State.mayPass_congr hu.part (hu.getEff (by simp)) (hu.pipe (by simp)) (by rw [← hbond])).trans hpass
  obtain ⟨hnext, hnone, hrest⟩ := State.holdRoom_passes (c := c.val) (rest := l) (e := e) (by simp [hbond, hempty]) hpass' hexp'
  refine ⟨hnext, hnone, ?_⟩
  rw [State.kept_bond, hrest]
  simp

theorem reorderArrival_holds (hgap : s.heldAt x.stream (s.bondExp x.stream) = none)
    (hahead : ahead (s.bondExp x.stream) x.seq < 2 ^ 23)
    (hwindow : ahead (s.bondExp x.stream) x.seq < s.getEff BOND_GROUP_CFG_WINDOW d0) (hne : x.seq ≠ s.bondExp x.stream)
    (hroom : s.storeFull x = false) :
    Completes (.reorderArrival ⟨c, e⟩) s fun t =>
      t.bond.held = s.bond.held ++ [{ x with edge := s.clk.mc }] ∧ t.bondExp x.stream = s.bondExp x.stream := by
  refine reorderArrival_takes hrun hroute hcoming fun u hu => ?_
  have hbond := hu.bond (by simp)
  have hexp : u.bondExp x.stream = s.bondExp x.stream := by rw [State.bondExp, State.bondExp, hbond]
  rw [State.reorder_inWindow (by rw [State.isHeld, hbond]; exact hnew) (by rw [hbond, hsynced]) hresync (by rwa [hexp])
    (by rw [hexp, hu.getEff (by simp)]; exact hwindow), State.holdRoom_holds]
  · simp [State.bondExp, hbond, State.setBond, hu.clk]
  · exact (State.heldAt_congr (by simp [hbond])).trans (hexp ▸ hgap)
  · exact hexp ▸ hne
  · exact hexp ▸ hahead
  · rw [← hroom, State.storeFull, State.storeFull, State.setBond_bond, hbond]

end

end

end Sys2Proof.Machine
end

section
/-!
Skipped gaps: by timeout and by the fast-skip condition (R268, R270).
-/
namespace Sys2Proof.Machine
open Reg Footprint

/-! ## A skipped gap -/

section
variable {s : State} {k cnt : Nat} {y : BondFrame} {e : Ecc} (hlow : lowestHeld (s.bondExp k) (s.heldOf k) = some y)

/-- The numbers that stream k passes over on its way to its lowest held number are counted as lost, and the skip under its cause. -/
abbrev State.countSkip (s : State) (k cnt : Nat) (y : BondFrame) : State :=
  (s.wr BOND_CNT_LOST d0 (s.rd BOND_CNT_LOST d0 + BitVec.ofNat 32 (ahead (s.bondExp k) y.seq))).count cnt d0

include hlow

theorem State.skipGap_eq : s.skipGap k cnt e = State.drain s.bond.held.length k e ((s.countSkip k cnt y).setExp k y.seq) := by
  rw [State.skipGap, hlow]
  simp

/-- Beside its counts a skip leaves the registers of the group as they were. -/
theorem State.skipGap_same : Same releasing (s.countSkip k cnt y) (s.skipGap k cnt e) := by
  rw [State.skipGap_eq hlow]
  simp

theorem State.skipGap_part : (s.skipGap k cnt e).part = s.part := (State.skipGap_same hlow).part.trans (by simp)

theorem State.skipGap_counts (hlost : cnt ≠ BOND_CNT_LOST) (hcnt : ∀ p ∈ releasing.stored, p.covers cnt d0 = false) :
    (s.skipGap k cnt e).rd BOND_CNT_LOST d0 = s.rd BOND_CNT_LOST d0 + BitVec.ofNat 32 (ahead (s.bondExp k) y.seq) ∧
      (s.skipGap k cnt e).rd cnt d0 = s.rd cnt d0 + 1 := by
  have hsame := State.skipGap_same (cnt := cnt) (e := e) hlow
  rw [hsame.within.stored _ _ (by simp [Place.covers_all_ne, Place.covers_one_ne]), hsame.within.stored _ _ hcnt]
  simp [hlost, Ne.symm hlost]

/-- The lowest held frame is the one that the stream expects then. -/
theorem State.heldAt_afterSkip (hseq : y.seq < 2 ^ 24) :
    ((s.countSkip k cnt y).setExp k y.seq).bondExp k = y.seq ∧
      ((s.countSkip k cnt y).setExp k y.seq).heldAt k y.seq = some y := by
  refine ⟨(State.bondExp_setExp ..).trans (Nat.mod_eq_of_lt hseq), ?_⟩
  rw [State.heldAt_congr (s := s) (by rw [State.setExp_held]; simp)]
  exact State.heldAt_of_lowestHeld hlow

omit hlow in
theorem State.mayPass_afterSkip : ((s.countSkip k cnt y).setExp k y.seq).mayPass k = s.mayPass k := by
  have hsame : Same ⟨[.bond], [.one BOND_CNT_LOST d0, .one cnt d0], []⟩ s ((s.countSkip k cnt y).setExp k y.seq) := by simp
  obtain ⟨l, hl⟩ := (s.countSkip k cnt y).setExp_bond k y.seq
  exact State.mayPass_congr hsame.part (hsame.getEff (by simp)) (hsame.pipe (by simp)) (by rw [hl]; simp)

theorem State.skipGap_releases (hseq : y.seq < 2 ^ 24) (hpass : s.mayPass k = true)
    (hnext : s.heldAt k ((y.seq + 1) % 2 ^ 24) = none) :
    (s.skipGap k cnt e).bondExp k = (y.seq + 1) % 2 ^ 24 ∧ (s.skipGap k cnt e).bond.held = s.bond.held.erase y := by
  obtain ⟨hexp, hheld⟩ := State.heldAt_afterSkip (cnt := cnt) hlow hseq
  have hrest : ((s.countSkip k cnt y).setExp k y.seq).bond.held = s.bond.held := by rw [State.setExp_held]; simp
  obtain ⟨n, hn⟩ : ∃ n, s.bond.held.length = n + 1 := by
    refine Nat.exists_eq_succ_of_ne_zero fun hzero => ?_
    rw [State.heldAt, hrest, List.eq_nil_of_length_eq_zero hzero] at hheld
    cases hheld
  rw [State.skipGap_eq hlow, hn]
  obtain ⟨hexp', hheld', -⟩ := State.drain_releases (n := n) (e := e) (by rw [hexp]; exact hheld)
    (State.mayPass_afterSkip.trans hpass) ((State.heldAt_congr hrest).trans hnext)
  exact ⟨hexp', hrest ▸ hheld'⟩

theorem State.skipGap_waits (hseq : y.seq < 2 ^ 24) (hrefused : s.mayPass k = false) :
    (s.skipGap k cnt e).bondExp k = y.seq ∧ (s.skipGap k cnt e).bond.held = s.bond.held := by
  rw [State.skipGap_eq hlow, State.drain_of_refused (State.mayPass_afterSkip.trans hrefused), State.setExp_held]
  exact ⟨(State.heldAt_afterSkip hlow hseq).1, by simp⟩

end

/-! ## By timeout -/

section
variable {s : State} {k : Fin 8} {e : Ecc} {o y : BondFrame} (hrun : s.unitRuns s.bondHome 7 = true)
  (holdest : (s.heldOf k.val).head? = some o) (hslow : s.fastSkip k.val = false)
  (hlate : o.edge + s.getEff BOND_GROUP_TMO_TIMEOUT d0 * 1250 ≤ s.clk.mc) (hgap : s.gapped k.val = true)
  (hlow : lowestHeld (s.bondExp k.val) (s.heldOf k.val) = some y)
include hrun holdest hslow hlate hgap hlow

/-- A timeout skips the gap, and shows its event. -/
theorem reorderTimeoutSkip_skips : Completes (.reorderTimeoutSkip ⟨k, e⟩) s fun t =>
    t.rd BOND_CNT_LOST d0 = s.rd BOND_CNT_LOST d0 + BitVec.ofNat 32 (ahead (s.bondExp k.val) y.seq) ∧
    t.rd BOND_CNT_TMO d0 = s.rd BOND_CNT_TMO d0 + 1 ∧ t.is BOND_EVT_SKIP_TMO d0 = true ∧
    t.bondExp k.val = (s.skipGap k.val BOND_CNT_TMO e).bondExp k.val ∧
    t.bond.held = (s.skipGap k.val BOND_CNT_TMO e).bond.held := by
  refine completes_of_unit (fun _ => rfl) hrun ?_
  simp only [holdest]
  rw [if_pos (by simp [hgap, hslow, hlate])]
  obtain ⟨hlost, htmo⟩ := State.skipGap_counts (cnt := BOND_CNT_TMO) (e := e) hlow (by decide)
    (by simp [Place.covers_all_ne, Place.covers_one_ne])
  have hpart := State.skipGap_part (cnt := BOND_CNT_TMO) (e := e) hlow
  simp [State.is, State.bondExp, hpart, hlost, htmo]

theorem reorderTimeoutSkip_releases (hseq : y.seq < 2 ^ 24) (hpass : s.mayPass k.val = true)
    (hnext : s.heldAt k.val ((y.seq + 1) % 2 ^ 24) = none) :
    Completes (.reorderTimeoutSkip ⟨k, e⟩) s fun t =>
      t.rd BOND_CNT_LOST d0 = s.rd BOND_CNT_LOST d0 + BitVec.ofNat 32 (ahead (s.bondExp k.val) y.seq) ∧
      t.rd BOND_CNT_TMO d0 = s.rd BOND_CNT_TMO d0 + 1 ∧ t.is BOND_EVT_SKIP_TMO d0 = true ∧
      t.bondExp k.val = (y.seq + 1) % 2 ^ 24 ∧ t.bond.held = s.bond.held.erase y := by
  obtain ⟨hexp, hheld⟩ := State.skipGap_releases (cnt := BOND_CNT_TMO) (e := e) hlow hseq hpass hnext
  simpa only [hexp, hheld] using reorderTimeoutSkip_skips (e := e) hrun holdest hslow hlate hgap hlow

theorem reorderTimeoutSkip_waits (hseq : y.seq < 2 ^ 24) (hrefused : s.mayPass k.val = false) :
    Completes (.reorderTimeoutSkip ⟨k, e⟩) s fun t =>
      t.rd BOND_CNT_LOST d0 = s.rd BOND_CNT_LOST d0 + BitVec.ofNat 32 (ahead (s.bondExp k.val) y.seq) ∧
      t.rd BOND_CNT_TMO d0 = s.rd BOND_CNT_TMO d0 + 1 ∧ t.is BOND_EVT_SKIP_TMO d0 = true ∧
      t.bondExp k.val = y.seq ∧ t.bond.held = s.bond.held := by
  obtain ⟨hexp, hheld⟩ := State.skipGap_waits (cnt := BOND_CNT_TMO) (e := e) hlow hseq hrefused
  simpa only [hexp, hheld] using reorderTimeoutSkip_skips (e := e) hrun holdest hslow hlate hgap hlow

end

/-! ## By the fast-skip condition -/

section
variable {s : State} {k : Fin 8} {e : Ecc} {y : BondFrame} (hrun : s.unitRuns s.bondHome 7 = true)
  (hfast : s.fastSkip k.val = true) (hgap : s.gapped k.val = true)
  (hlow : lowestHeld (s.bondExp k.val) (s.heldOf k.val) = some y)
include hrun hfast hgap hlow

/-- A stream whose members have all passed its gap skips it. -/
theorem reorderFastSkip_skips : Completes (.reorderFastSkip ⟨k, e⟩) s fun t =>
    t.rd BOND_CNT_LOST d0 = s.rd BOND_CNT_LOST d0 + BitVec.ofNat 32 (ahead (s.bondExp k.val) y.seq) ∧
    t.rd BOND_CNT_FAST d0 = s.rd BOND_CNT_FAST d0 + 1 ∧
    t.bondExp k.val = (s.skipGap k.val BOND_CNT_FAST e).bondExp k.val ∧
    t.bond.held = (s.skipGap k.val BOND_CNT_FAST e).bond.held := by
  refine completes_of_unit (fun _ => rfl) hrun ?_
  rw [if_pos (by simp [hgap, hfast])]
  obtain ⟨hlost, hcnt⟩ := State.skipGap_counts (cnt := BOND_CNT_FAST) (e := e) hlow (by decide)
    (by simp [Place.covers_all_ne, Place.covers_one_ne])
  have hpart := State.skipGap_part (cnt := BOND_CNT_FAST) (e := e) hlow
  simp [State.bondExp, hpart, hlost, hcnt]

theorem reorderFastSkip_releases (hseq : y.seq < 2 ^ 24) (hpass : s.mayPass k.val = true)
    (hnext : s.heldAt k.val ((y.seq + 1) % 2 ^ 24) = none) :
    Completes (.reorderFastSkip ⟨k, e⟩) s fun t =>
      t.rd BOND_CNT_LOST d0 = s.rd BOND_CNT_LOST d0 + BitVec.ofNat 32 (ahead (s.bondExp k.val) y.seq) ∧
      t.rd BOND_CNT_FAST d0 = s.rd BOND_CNT_FAST d0 + 1 ∧
      t.bondExp k.val = (y.seq + 1) % 2 ^ 24 ∧ t.bond.held = s.bond.held.erase y := by
  obtain ⟨hexp, hheld⟩ := State.skipGap_releases (cnt := BOND_CNT_FAST) (e := e) hlow hseq hpass hnext
  simpa only [hexp, hheld] using reorderFastSkip_skips (e := e) hrun hfast hgap hlow

theorem reorderFastSkip_waits (hseq : y.seq < 2 ^ 24) (hrefused : s.mayPass k.val = false) :
    Completes (.reorderFastSkip ⟨k, e⟩) s fun t =>
      t.rd BOND_CNT_LOST d0 = s.rd BOND_CNT_LOST d0 + BitVec.ofNat 32 (ahead (s.bondExp k.val) y.seq) ∧
      t.rd BOND_CNT_FAST d0 = s.rd BOND_CNT_FAST d0 + 1 ∧
      t.bondExp k.val = y.seq ∧ t.bond.held = s.bond.held := by
  obtain ⟨hexp, hheld⟩ := State.skipGap_waits (cnt := BOND_CNT_FAST) (e := e) hlow hseq hrefused
  simpa only [hexp, hheld] using reorderFastSkip_skips (e := e) hrun hfast hgap hlow

end

end Sys2Proof.Machine
end

section
/-!
Measured skew, and the members that receive (R261 to R263, R271).
-/
namespace Sys2Proof.Machine
open Reg Footprint

/-! ## Measured skew (R261 to R263) -/

section
variable (s : State) (f : Fld) (r a : Nat)

@[simp] theorem State.evalSkew_part : s.evalSkew.part = s.part :=
  Same.part (F := ⟨[], [.one BOND_EVT d0], []⟩) (by simp)

/-- The end of a measurement shows in EVT only. -/
@[simp] theorem State.rd_evalSkew (h : r ≠ BOND_EVT) : s.evalSkew.rd r a = s.rd r a := by
  have hsame : Same ⟨[], [.one BOND_EVT d0], []⟩ s s.evalSkew := by simp
  exact hsame.within.stored _ _ (by simp [Place.covers_one_ne _ _ h])

@[simp] theorem State.get_evalSkew (h : f.reg ≠ BOND_EVT) : s.evalSkew.get f a = s.get f a := by
  rw [State.get, State.get, State.rd_evalSkew _ _ _ h]

end

theorem skewArm_arms (s : State) (v : Word) (hrun : s.running = true) :
    Completes (.skewArm v) s fun t => t.get BOND_SKEW_STAT_CAPTURED d0 = 0 ∧
      ∀ c < 4, bitOf (t.get BOND_SKEW_STAT_ARMED d0) c = ((s.framer c).sync == .sync) := by
  refine completes_of_event (fun _ => rfl) hrun ?_
  have hpon : (s.fwWrite BOND_SKEW_CTL d0 v).pon = s.pon :=
    Same.pon (F := ⟨[], [.one BOND_SKEW_CTL d0], []⟩) (by simp) (by simp)
  have hframer (c : Nat) : (s.fwWrite BOND_SKEW_CTL d0 v).framer c = s.framer c := by rw [State.framer, State.framer, hpon]
  have hmask : (List.range 4).foldl (fun n c => n + (if (s.framer c).sync = .sync then 2 ^ c else 0)) 0 =
      maskOf 4 (fun c => (s.framer c).sync == .sync) := by
    rw [maskOf]
    congr 1
    funext n c
    by_cases h : (s.framer c).sync = .sync <;> simp [h, b2n]
  have hpart : (s.fwWrite BOND_SKEW_CTL d0 v).part = s.part := by simp
  simp only [hframer, hmask]
  generalize s.fwWrite BOND_SKEW_CTL d0 v = u at hpart
  refine ⟨by simp [hpart], fun c hc => ?_⟩
  rw [State.get_kept _ _ (by simp [hpart]), State.get_evalSkew _ _ _ (by decide),
    State.get_put_apart _ _ _ _ (by decide) (by decide) (by decide), State.get_put_same _ _ _ _ (by decide) (by decide),
    bitOf, Nat.testBit_mod_two_pow, testBit_maskOf]
  simp [hc]

theorem skewCapture_captures (s : State) (c : Chan) (hrun : s.islandRuns 0 7 = true)
    (harmed : bitOf (s.get BOND_SKEW_STAT_ARMED d0) c.val = true) (hopen : bitOf (s.get BOND_SKEW_STAT_CAPTURED d0) c.val = false)
    (hsync : (s.framer c.val).sync = .sync) (hframe : (s.framer c.val).sfc.toNat % 2 ^ 16 = s.get BOND_SKEW_CTL_SF_LO d0) :
    Completes (.skewCapture c) s fun t => t.rd BOND_SKEW_CAP (d0i c.val) = BitVec.ofNat 32 s.clk.tc ∧
      bitOf (t.get BOND_SKEW_STAT_CAPTURED d0) c.val = true := by
  refine completes_of_island (d := fun _ => 0) (fun _ => rfl) hrun ?_
  rw [if_pos (by simpa [harmed, hopen, hsync] using hframe)]
  refine ⟨by simp, ?_⟩
  rw [State.get_kept _ _ (by simp), State.get_evalSkew _ _ _ (by decide)]
  exact State.bitOf_get_putBit _ (by decide) (by decide) c.isLt _ _ _

/-! ## Members (R271) -/

theorem memberRxChange_shows (s : State) (c : Chan) (hrun : s.islandRuns 0 7 = true) (hmember : s.bondMember c.val = true)
    (hchange : bitOf (s.get BOND_GROUP_STAT_RX_UP d0) c.val ≠ s.receiveUp c.val) :
    Completes (.memberRxChange c) s fun t => bitOf (t.get BOND_GROUP_STAT_RX_UP d0) c.val = s.receiveUp c.val ∧
      bitOf (t.get (if s.receiveUp c.val then BOND_EVT_RX_UP else BOND_EVT_RX_DOWN) d0) c.val = true := by
  refine completes_of_island (d := fun _ => 0) (fun _ => rfl) hrun ?_
  rw [if_neg (by simp [hmember, hchange])]
  have hshown : bitOf ((s.put BOND_GROUP_STAT_RX_UP d0 (putBit (s.get BOND_GROUP_STAT_RX_UP d0) c.val (s.receiveUp c.val))).get
      BOND_GROUP_STAT_RX_UP d0) c.val = s.receiveUp c.val := State.bitOf_get_putBit _ (by decide) (by decide) c.isLt _ _ _
  dsimp only
  split
  next hup =>
    rw [State.get_kept _ _ (by simp [State.latch]), State.get_kept _ _ (by simp [State.latch])]
    exact ⟨by rwa [State.latch, State.get_put_ne _ _ _ _ (by decide)],
      State.bitOf_get_latch _ (by decide) (by decide) c.isLt _⟩
  next hdown =>
    rw [State.get_kept _ _ (by simp [State.latch]), State.get_kept _ _ (by simp [State.latch])]
    exact ⟨by rwa [State.latch, State.get_put_ne _ _ _ _ (by decide), State.get_setBond],
      State.bitOf_get_latch _ (by decide) (by decide) c.isLt _⟩

end Sys2Proof.Machine
end

section
/-!
Commits of the channel group and of upstream groups (R284 to R290).
-/
namespace Sys2Proof.Machine
open Reg Footprint

/-! ## Commits of several registers (R743) -/

section
variable (s : State) (l : List (Nat × Nat)) (r a : Nat)

theorem State.rdEff_commit (r' a' : Nat) :
    (s.commit r a).rdEff r' a' = if rkey r' a' = rkey r a then s.rd r' a' else s.rdEff r' a' := by
  split
  next h => rw [State.commit, State.rdEff, State.wrEff_eff, State.wrEff_part, State.rd, State.rd, h, Tab.get_set_same]
  next h => rw [State.commit, State.rdEff, State.wrEff_eff, State.wrEff_part, Tab.get_set_ne _ _ _ _ h, State.rdEff]

@[simp] theorem State.commitAll_part : (s.commitAll l).part = s.part := by
  induction l generalizing s with
  | nil => rfl
  | cons x l ih => exact (ih _).trans (State.wrEff_part ..)

/-- A commit writes no stored word. -/
@[simp] theorem State.rd_commitAll : (s.commitAll l).rd r a = s.rd r a := by
  induction l generalizing s with
  | nil => rfl
  | cons x l ih => exact (ih _).trans (State.rd_wrEff ..)

@[simp] theorem State.get_commitAll (f : Fld) : (s.commitAll l).get f a = s.get f a := by
  rw [State.get, State.get, State.rd_commitAll]

/-- Each register of the list takes its stored word in effect. -/
theorem State.rdEff_commitAll {l : List (Nat × Nat)} {x : Nat × Nat} (hx : x ∈ l) :
    (s.commitAll l).rdEff x.1 x.2 = s.rd x.1 x.2 := by
  induction l using List.reverseRecOn with
  | nil => cases hx
  | append_singleton l y ih =>
    rw [State.commitAll, List.foldl_append, List.foldl_cons, List.foldl_nil, ← State.commitAll, State.rdEff_commit,
      State.rd_commitAll]
    split
    · rfl
    next hkey =>
      rcases List.mem_append.1 hx with hl | hy
      · exact ih hl
      · exact absurd (by rw [List.mem_singleton.1 hy]) hkey

end

/-! ## BOND_GROUP_COMMIT (R284 to R289) -/

theorem State.groupCause_lt (s : State) : s.groupCause < 8 := by
  unfold State.groupCause
  dsimp only
  split_ifs <;> decide

theorem bondGroupCommit_rejects (s : State) (hrun : s.running = true) (hcause : s.groupCause ≠ 0) :
    Completes .bondGroupCommit s fun t => t.is BOND_GROUP_STAT_REJECT d0 = true ∧
      t.get BOND_GROUP_STAT_REJ_CAUSE d0 = s.groupCause ∧ t.rdEff BOND_GROUP_CFG d0 = s.rdEff BOND_GROUP_CFG d0 ∧
      t.is BOND_EVT_COMMIT_REJ d0 = true := by
  refine completes_of_event (fun _ => rfl) hrun ?_
  rw [if_pos hcause]
  have hfits : s.groupCause % 2 ^ (28 + 1 - 26) = s.groupCause := Nat.mod_eq_of_lt s.groupCause_lt
  refine ⟨?_, by simpa using hfits, by simp, by simp [State.is]⟩
  rw [State.is_kept _ _ (by simp), State.is, State.get_put_ne _ _ _ _ (by decide),
    State.get_put_apart _ _ _ _ (by decide) (by decide) (by decide), State.get_put_same _ _ _ _ (by decide) (by decide)]
  rfl

/-- The state in which the registers of the group are in effect and their commit is shown. -/
def State.groupShown (s : State) : State :=
  let u := ((s.put BOND_GROUP_STAT_REJECT d0 0).put BOND_GROUP_STAT_REJ_CAUSE d0 0).commitAll bondGroupRegs
  (u.put BOND_GROUP_STAT_EN_EFF d0 (b2n (u.isEff BOND_GROUP_CFG_EN d0))).put BOND_GROUP_STAT_MEMBERS_EFF d0
    (u.getEff BOND_GROUP_CFG_MEMBERS d0)

/-- The registers of the commit group (R284). -/
theorem reg_of_bondGroupRegs {x : Nat × Nat} (h : x ∈ bondGroupRegs) :
    x.1 ∈ [BOND_GROUP_CFG, BOND_GROUP_TMO, BOND_MEMBER] := by
  simp only [bondGroupRegs, List.cons_append, List.nil_append, List.mem_cons, List.mem_map] at h
  rcases h with rfl | rfl | ⟨c, -, rfl⟩ <;> simp

section
variable (s : State)

/-- The registers of the group are in effect as they were written. -/
theorem State.rdEff_groupShown {x : Nat × Nat} (hx : x ∈ bondGroupRegs) : s.groupShown.rdEff x.1 x.2 = s.rd x.1 x.2 := by
  have hreg : x.1 ≠ BOND_GROUP_STAT := fun h => absurd (h ▸ reg_of_bondGroupRegs hx) (by decide)
  simp [State.groupShown, State.rdEff_commitAll _ hx, hreg]

/-- GROUP_STAT shows that the commit was taken, and what is in effect (Table 6.5). -/
theorem State.groupShown_shows : s.groupShown.get BOND_GROUP_STAT_REJECT d0 = 0 ∧
    s.groupShown.get BOND_GROUP_STAT_EN_EFF d0 = b2n (s.is BOND_GROUP_CFG_EN d0) ∧
    s.groupShown.get BOND_GROUP_STAT_MEMBERS_EFF d0 = s.get BOND_GROUP_CFG_MEMBERS d0 := by
  unfold State.groupShown
  extract_lets u
  have heff : u.rdEff BOND_GROUP_CFG d0 = s.rd BOND_GROUP_CFG d0 := by
    refine (State.rdEff_commitAll _ (x := (BOND_GROUP_CFG, d0)) (by simp [bondGroupRegs])).trans ?_
    simp
  have hen : u.isEff BOND_GROUP_CFG_EN d0 = s.is BOND_GROUP_CFG_EN d0 := by rw [State.isEff, State.getEff, heff]; rfl
  have hmembers : u.getEff BOND_GROUP_CFG_MEMBERS d0 = s.get BOND_GROUP_CFG_MEMBERS d0 := by rw [State.getEff, heff]; rfl
  have hreject : u.get BOND_GROUP_STAT_REJECT d0 = 0 := by
    rw [State.get_commitAll, State.get_put_apart _ _ _ _ (by decide) (by decide) (by decide),
      State.get_put_same _ _ _ _ (by decide) (by decide)]
    rfl
  rw [hen, hmembers]
  refine ⟨?_, ?_, ?_⟩
  · rwa [State.get_put_apart _ _ _ _ (by decide) (by decide) (by decide),
      State.get_put_apart _ _ _ _ (by decide) (by decide) (by decide)]
  · rw [State.get_put_apart _ _ _ _ (by decide) (by decide) (by decide), State.get_put_same _ _ _ _ (by decide) (by decide)]
    exact b2n_mod_two _
  · rw [State.get_put_same _ _ _ _ (by decide) (by decide)]
    exact Nat.mod_eq_of_lt (s.get_lt BOND_GROUP_CFG_MEMBERS d0)

end

/-- What follows the show of a commit: frames of members that left are discarded, and a group that ends releases what it holds. -/
abbrev settlingGroup : Footprint :=
  ⟨releasing.areas, .one BOND_CNT_NOT_MEMBER d0 :: releasing.stored, releasing.inEffect⟩

/-- The same with what the commit shows of it. -/
abbrev shownGroup : Footprint :=
  ⟨settlingGroup.areas, .one BOND_EVT d0 :: .one BOND_GROUP_STAT d0 :: settlingGroup.stored, settlingGroup.inEffect⟩

theorem bondGroupCommit_settles {s : State} {p : State → Prop} (hrun : s.running = true) (hcause : s.groupCause = 0)
    (hp : ∀ up u, Same settlingGroup (s.groupShown.put BOND_GROUP_STAT_RX_UP d0 up) u → p (s.kept u.showBond.evalGroup)) :
    Completes .bondGroupCommit s p := by
  refine completes_of_event (fun _ => rfl) hrun ?_
  rw [if_neg (by simp [hcause])]
  extract_lets was old u1 u2 en m u3 up u4 u5 b u6
  have h5 : Same settlingGroup u4 u5 := by
    unfold u5
    rw [same_foldl fun x c => by simp]
    exact .refl _ u4
  have h6 : Same settlingGroup u4 u6 := by
    refine Same.ite (by simpa using h5) (Same.ite ?_ h5)
    rw [same_foldl fun x k => by simp]
    exact h5
  exact hp up u6 h6

/-- A field of GROUP_STAT between ACTIVE and the members that receive stands as it was shown. -/
theorem State.get_settledGroup {s u : State} {up : Nat} (h : Same settlingGroup (s.put BOND_GROUP_STAT_RX_UP d0 up) u) {f : Fld}
    (hreg : f.reg = BOND_GROUP_STAT) (hlow : 21 < f.lo) (hhigh : f.hi < 31) : u.showBond.evalGroup.get f d0 = s.get f d0 := by
  have heval (v : State) : v.evalGroup.get f d0 = v.get f d0 := by
    unfold State.evalGroup
    dsimp only
    split
    · rfl
    · rw [State.get_put_ne _ _ _ _ (by rw [hreg]; decide), State.get_put_apart _ _ _ _ (by decide) (by decide) (.inl hhigh)]
  rw [heval, State.get_showBond_above _ _ (by omega), h.get (by simp [hreg, Place.covers_all_ne, Place.covers_one_ne]),
    State.get_put_apart _ _ _ _ (by decide) (by decide) (.inr hlow)]

theorem bondGroupCommit_commits (s : State) (hrun : s.running = true) (hcause : s.groupCause = 0) :
    Completes .bondGroupCommit s fun t => t.is BOND_GROUP_STAT_REJECT d0 = false ∧
      (∀ x ∈ bondGroupRegs, t.rdEff x.1 x.2 = s.rd x.1 x.2) ∧ t.is BOND_GROUP_STAT_EN_EFF d0 = s.is BOND_GROUP_CFG_EN d0 ∧
      t.get BOND_GROUP_STAT_MEMBERS_EFF d0 = s.get BOND_GROUP_CFG_MEMBERS d0 := by
  refine bondGroupCommit_settles hrun hcause fun up u hu => ?_
  have hsame : shownGroup.Same s.groupShown u.showBond.evalGroup := by
    have hup : shownGroup.Same s.groupShown (s.groupShown.put BOND_GROUP_STAT_RX_UP d0 up) := (same_put (by simp)).2 (.refl _ _)
    exact (same_evalGroup (by simp)).2 ((same_showBond (by simp)).2 (hup.trans (hu.mono (by simp))))
  have hpart : u.showBond.evalGroup.part = s.part := hsame.part.trans (by simp [State.groupShown])
  obtain ⟨hreject, hen, hmembers⟩ := s.groupShown_shows
  have hshown (f : Fld) := State.get_settledGroup (f := f) hu
  refine ⟨?_, fun x hx => ?_, ?_, ?_⟩
  · rw [State.is_kept _ _ hpart, State.is, hshown BOND_GROUP_STAT_REJECT rfl (by decide) (by decide), hreject]
    rfl
  · have hmem := reg_of_bondGroupRegs hx
    have hreg : x.1 ≠ PMC_CNT_HI := fun h => by
      rw [h] at hmem
      exact absurd hmem (by decide)
    rw [State.rdEff_kept _ _ hpart, hsame.rdEff (by simp [Place.covers_all_ne _ hreg]), State.rdEff_groupShown _ hx]
  · rw [State.is_kept _ _ hpart, State.is, hshown BOND_GROUP_STAT_EN_EFF rfl (by decide) (by decide), hen, b2n_beq_one]
  · rw [State.get_kept _ _ hpart, hshown BOND_GROUP_STAT_MEMBERS_EFF rfl (by decide) (by decide), hmembers]

/-! ## UGRP_COMMIT (R279, R290) -/

/-- The state in which both registers of the upstream group that a commit names are in effect. -/
def State.ugrpInEffect (s : State) (v : Word) : State :=
  let u := s.fwWrite BOND_UGRP_COMMIT d0 v
  u.commitAll [(BOND_UGRP_A, d0i (u.get BOND_UGRP_COMMIT_INDEX d0)), (BOND_UGRP_B, d0i (u.get BOND_UGRP_COMMIT_INDEX d0))]

theorem State.rdEff_ugrpInEffect (s : State) (v : Word) {r : Nat} (h : r = BOND_UGRP_A ∨ r = BOND_UGRP_B) :
    (s.ugrpInEffect v).rdEff r (d0i ((s.ugrpInEffect v).get BOND_UGRP_COMMIT_INDEX d0)) =
      s.rd r (d0i ((s.ugrpInEffect v).get BOND_UGRP_COMMIT_INDEX d0)) := by
  have hreg : r ≠ BOND_UGRP_COMMIT := by rcases h with rfl | rfl <;> decide
  rw [State.ugrpInEffect, State.get_commitAll, ← s.rd_fwWrite_ne d0 _ v hreg]
  exact State.rdEff_commitAll _ (x := (r, _)) (by
    rcases h with rfl | rfl
    · exact List.mem_cons_self
    · exact List.mem_cons_of_mem _ List.mem_cons_self)

/-- What follows a commit of an upstream group, the new start of its streams, leaves the registers. -/
theorem ugrpCommit_settles {s : State} {v : Word} {p : State → Prop} (hrun : s.running = true)
    (hp : ∀ t, Same ⟨[.bond], [], []⟩ (s.ugrpInEffect v) t → p (s.kept t)) : Completes (.ugrpCommit v) s p := by
  refine completes_of_event (fun _ => rfl) hrun ?_
  exact hp _ (Same.ite ((same_setBond (by simp)).2 (.refl _ _)) (.refl _ _))

theorem ugrpCommit_commits (s : State) (v : Word) (hrun : s.running = true) :
    Completes (.ugrpCommit v) s fun t =>
      t.rdEff BOND_UGRP_A (d0i (t.get BOND_UGRP_COMMIT_INDEX d0)) = s.rd BOND_UGRP_A (d0i (t.get BOND_UGRP_COMMIT_INDEX d0)) ∧
      t.rdEff BOND_UGRP_B (d0i (t.get BOND_UGRP_COMMIT_INDEX d0)) = s.rd BOND_UGRP_B (d0i (t.get BOND_UGRP_COMMIT_INDEX d0)) := by
  refine ugrpCommit_settles hrun fun t ht => ?_
  have hpart : t.part = s.part := ht.part.trans (by simp [State.ugrpInEffect])
  rw [State.get_kept _ _ hpart, State.rdEff_kept _ _ hpart, State.rdEff_kept _ _ hpart, ht.get (by simp), ht.rdEff (by simp),
    ht.rdEff (by simp)]
  exact ⟨s.rdEff_ugrpInEffect v (.inl rfl), s.rdEff_ugrpInEffect v (.inr rfl)⟩

/-- Settles O10: frames pass the skew buffers and the reorder engine, gaps are skipped, and skew, members and commits are shown. -/
theorem channelGroupComplete : Obligations.ChannelGroupComplete :=
  ⟨fun _ _ _ _ hrun hinbox htag hon hmember hcells hframes => bondFrameReceive_fits hrun hinbox htag hon hmember hcells hframes,
    fun _ _ _ _ hrun hinbox htag => bondFrameReceive_badTag hrun hinbox htag,
    fun _ _ _ _ hrun hinbox htag hout => bondFrameReceive_notMember hrun hinbox htag hout,
    fun _ _ _ _ hrun hinbox htag hon hmember hfull => bondFrameReceive_overflows hrun hinbox htag hon hmember hfull,
    fun _ _ _ _ _ hrun hread hskew hout => skewRelease_discards hrun hread hskew hout,
    fun _ _ _ _ _ hrun hread hskew hon hmember => skewRelease_sends hrun hread hskew hon hmember,
    fun _ _ _ _ _ _ hrun hroute hcoming hdup => reorderArrival_duplicate hrun hroute hcoming hdup,
    fun _ _ _ _ _ _ hrun hroute hcoming hnew hsynced hresync hlate =>
      reorderArrival_late hrun hroute hcoming hnew hsynced hresync hlate,
    fun _ _ _ _ _ _ hrun hroute hcoming hempty hpass hnew hsynced hresync hexp _ hwindow =>
      reorderArrival_passes hrun hroute hcoming hnew hsynced hresync hempty hpass hexp hwindow,
    fun _ _ _ _ _ _ hrun hroute hcoming hnew hgap hsynced hresync _ hahead hwindow hne hroom =>
      reorderArrival_holds hrun hroute hcoming hnew hsynced hresync hgap hahead hwindow hne hroom,
    fun _ _ _ _ _ hrun holdest hslow hlate hgap hlow hseq hpass hnext =>
      reorderTimeoutSkip_releases hrun holdest hslow hlate hgap hlow hseq hpass hnext,
    fun _ _ _ _ _ hrun holdest hslow hlate hgap hlow hseq hrefused =>
      reorderTimeoutSkip_waits hrun holdest hslow hlate hgap hlow hseq hrefused,
    fun _ _ _ _ hrun hfast hgap hlow hseq hpass hnext => reorderFastSkip_releases hrun hfast hgap hlow hseq hpass hnext,
    fun _ _ _ _ hrun hfast hgap hlow hseq hrefused => reorderFastSkip_waits hrun hfast hgap hlow hseq hrefused,
    skewArm_arms, skewCapture_captures, memberRxChange_shows, bondGroupCommit_commits, bondGroupCommit_rejects,
    ugrpCommit_commits⟩

end Sys2Proof.Machine
end
